-- ==== Sys2Proof/Word.lean ====
section
/-! DEFINITION. The word types of the MQ4T model and their plainest arithmetic. -/

namespace Sys2Proof

/-- A byte of any memory of the package. -/
abbrev Byte := BitVec 8

/-- A 32-bit register word, FP32 value or accumulator element. -/
abbrev Word := BitVec 32

/-- A 64-bit instruction word (R158) or counter value. -/
abbrev Word64 := BitVec 64

/-- The field of `len` bits of `w` that begins at bit `lo`, as a number. -/
def bitsOf (w lo len : Nat) : Nat := (w >>> lo) % 2 ^ len

/-- `w` with its field of `len` bits at `lo` replaced by `v` (reduced to the field). -/
def putBits (w lo len v : Nat) : Nat :=
  w - (bitsOf w lo len) * 2 ^ lo + (v % 2 ^ len) * 2 ^ lo

/-- The number of bits of `n` up to its leading 1; 0 for 0. -/
def bitLen (n : Nat) : Nat := if n = 0 then 0 else Nat.log2 n + 1

/-- Least whole number not below `a / b`. -/
def ceilDiv (a b : Nat) : Nat := (a + b - 1) / b

/-- The bytes of `n`, least significant first, `k` of them (the package is little-endian, 00_scope Conventions). -/
def leBytes : Nat → Nat → List Byte
  | 0, _ => []
  | k + 1, n => BitVec.ofNat 8 n :: leBytes k (n / 256)

/-- The number that bytes spell, least significant first. -/
def leNat : List Byte → Nat
  | [] => 0
  | b :: bs => b.toNat + 256 * leNat bs

/-- The difference `a - b` of two numbers of `w` bits, reduced to `w` bits. -/
def subMod (w a b : Nat) : Nat := (a + (2 ^ w - b % 2 ^ w)) % 2 ^ w

/-- Addition that stops at `top` (the saturating counters of the register tables). -/
def satAdd (top a b : Nat) : Nat := min top (a + b)

end Sys2Proof
end

