-- ==== Sys2Proof/Syntax.lean ====
section
/-! DEFINITION. The commands of the block: one constructor per row of spec/opcode_table.json, with
the operands that the row's rule gives it. The table lists no operands, so they are the model's
(log 12). Units that exist in a fixed number are bounded types, so that no command names a unit
that does not exist. -/

namespace Sys2Proof

/-- Compute die 0 to 3 (R51). -/
abbrev DieNo := Fin 4
/-- Memory stack 0 to 11 (R190). -/
abbrev StackNo := Fin 12
/-- Channel of a stack, 0 to 31 (R189). -/
abbrev ChanNo := Fin 32
/-- Optical port OP00 to OP47 (R249). -/
abbrev PortNo := Fin 48

/-- A logical core (R62): die, logical row, logical column. -/
structure CoreId where
  die : DieNo
  row : Fin 80
  col : Fin 80
  deriving DecidableEq, Repr

/-- The LCID of a core (R62). -/
def CoreId.lcid (c : CoreId) : Nat := c.die.val * 2 ^ 14 + c.row.val * 2 ^ 7 + c.col.val

/-- The six engines of a core, in the order of R98. -/
inductive Engine where
  | ae0 | ae1 | mv | ve | ld | st
  deriving DecidableEq, Repr

/-- The engine's place in the order AE0, AE1, MV, VE, LD, ST. -/
def Engine.no : Engine → Nat
  | .ae0 => 0 | .ae1 => 1 | .mv => 2 | .ve => 3 | .ld => 4 | .st => 5

/-- What befell a local-store access that was not served normally: a bank conflict between two
ports (R88), a corrected error, an uncorrectable error (R90), a line whose beat is still
pending (R151), or an outbound beat discarded in an edge slot (R431). -/
inductive AccKind where
  | conflict (bank port1 port2 : Nat)
  | corrected
  | uncorrectable
  | pending
  | edge (slot : Nat)
  deriving DecidableEq, Repr

/-- Where a beat on its way is discarded in favour of the beat of a lower source LCID: on a link or port that
a core's router holds (R102), or in a hub slot of the receiving edge (R431). -/
inductive LossPlace where
  | link (router : CoreId) (link : Nat)
  | edge (slot : Nat)
  deriving DecidableEq, Repr

/-- A beat of a transfer that is discarded: its index, the place, and the source whose beat passed. -/
structure BeatLoss where
  beat : Nat
  place : LossPlace
  winner : CoreId
  deriving DecidableEq, Repr

/-- One such access: the line, the cycle in which it fell, and what befell it. -/
structure LsAcc where
  line : Nat
  cyc : Nat
  kind : AccKind
  deriving DecidableEq, Repr

/-- A beat of memory-run data, or of the Landing's commit, that is discarded on its way to a core: the line it was for,
the place, and the LCID or station (R173) of the source whose beat passed. -/
structure LineLoss where
  line : Nat
  place : LossPlace
  winner : Nat
  deriving DecidableEq, Repr

/-- What befell the beats of one core in the commit of the Landing (R88, R91, R102). -/
structure CommitAcc where
  core : CoreId
  acc : List LsAcc
  lost : List LineLoss
  deriving DecidableEq, Repr

/-- What a CORE_WIN read met in the storage code of the local store (R90). -/
inductive WinEcc where
  | clean | corrected | uncorrectable
  deriving DecidableEq, Repr

/-- The issue of an engine's next instruction: core, engine, cycle offset in the tick, whether the
fetch met a parity error (R94), and the accesses that were not served normally. -/
structure Issue where
  core : CoreId
  eng : Engine
  cyc : Nat
  parity : Bool
  acc : List LsAcc
  deriving DecidableEq, Repr

/-- A requester of R397: one of the four functions, or the SMBus window. -/
inductive Req where
  | pf (n : Fin 4)
  | smb
  deriving DecidableEq, Repr

/-- The requester's number, in the order of R397. -/
def Req.no : Req → Nat
  | .pf n => n.val
  | .smb => 4

/-- A fabric frame (Tables 9.2 and 9.3). The stamp is split into TICK and SEQ. -/
structure Frame where
  cls : Nat
  kind : Nat
  beats : Nat
  bc : Bool
  copy : Bool
  src : Nat
  dst : Nat
  tick : Nat
  seq : Nat
  stream : Nat
  tile : Nat
  foff : Nat
  payload : List Byte
  lseq : Nat
  seqv : Bool
  ackv : Bool
  nak : Bool
  ack : Nat
  crc : Nat
  deriving DecidableEq, Repr

/-- What a read met in the storage code (R204), or a lane that failed beyond its spares. -/
inductive EccOut where
  | clean
  | corrected
  | uncorrectable
  | laneLost (lane : Nat)
  deriving DecidableEq, Repr

/-- How a channel serves one access in its row: the byte time at which it starts, how many of its attempts fail their
parity check (R201), and what the storage code finds (R204). -/
structure Served where
  bt : Nat
  errs : Nat
  ecc : EccOut
  deriving DecidableEq, Repr

/-- What an IDENT frame says (R266): package, port, serial, PORT_BIND, and HEARD. -/
structure IdentMsg where
  pkg : Nat
  port : Nat
  serial : Nat
  bind : Nat
  heardPkg : Nat
  heardPort : Nat
  deriving DecidableEq, Repr

/-- A guest flit (Table 2.6): its header fields and payload. -/
structure GFlit where
  type : Nat
  len : Nat
  seq : Nat
  tag : Nat
  addr : Nat
  stream : Nat
  payload : List Byte
  crc : Nat
  deriving DecidableEq, Repr

/-- The Hearth's meters (R329, R331): the 10 µs, 1 ms and 100 ms averages of input power in W, the
input in 10 mV and 0.1 A, whether the power has stayed above the effective cap for 10 ms, the
tick's energy so far in µJ, and the smallest depth that would keep every limit. -/
structure Meter where
  avg10us : Nat
  avg1ms : Nat
  avg100ms : Nat
  volt : Nat
  amp : Nat
  above10ms : Bool
  energy : Nat
  need : Fin 5
  deriving DecidableEq, Repr

/-- What the Hearth measures at a ballast step (R335, R336): the work's own draw and the idle draw in
mW, and the last two 1 µs averages of the input current in mA, when a microsecond has just ended away
from a boundary. -/
structure Draw where
  work : Nat
  idle : Nat
  currents : Option (Nat × Nat)
  deriving DecidableEq, Repr

/-- One reading of the sensors (R337), in 1/16 °C: the hottest of each compute die, of the hub and of
each stack, and the two couplings. -/
structure Scan where
  dies : Vector Int 4
  hub : Int
  drams : Vector Int 12
  cin : Int
  cout : Int
  deriving DecidableEq, Repr

/-- What P4 finds (R54, R61, R209, R249, R355): bundles by 24 × die + bundle that failed training, bad data lanes as
(bundle, lane 0 to 63), for each die the raw latency of its bundles in core cycles, the allowance of one resend, bad
stack lanes as (32 × stack + channel, lane of Table 7.6) that failed training, the units trained and margined in this P4,
all of them in a cold one and in a warm one those whose fast alignment failed, as number of Table 13.5's TRAINING region,
coefficients, and margins of its lanes (lane, timing steps, voltage steps), for each port light and FEC lock, flight in ns and the pre-FEC
figure met, and the modules that trained. -/
structure TrainRes where
  bundles : List Nat
  dataLanes : List (Nat × Nat)
  raw : Vector (List Nat) 4
  resend : Nat
  lanes : List (Nat × Nat)
  units : List (Nat × List Nat × List (Nat × Nat × Nat))
  ports : List (PortNo × Nat × Bool)
  mods : Bool × Bool
  deriving DecidableEq, Repr

/-- What P5 finds (R356): the bundles (24 × die + bundle), stack lanes (32 × stack + channel, lane) and ports
that showed an error, each with how many, and the errors of each module. -/
structure CheckRes where
  bundles : List (Nat × Nat)
  lanes : List (Nat × Nat × Nat)
  ports : List (PortNo × Nat)
  mods : Nat × Nat
  deriving DecidableEq, Repr

/-- What P6 finds (R358): physical cores that failed as (die, row, column), dies where a bypass path
failed, and the hub units and Pantries that failed their re-test as (unit, id). -/
structure SelfRes where
  cores : List (DieNo × Nat × Nat)
  bypass : List DieNo
  units : List (Nat × Nat)
  deriving DecidableEq, Repr

/-- The first failing check of the loader's cycle model (R183, Table 6.13): code, directory index,
station, entry, period tick and cycle. -/
structure LoadErr where
  code : Nat
  sect : Nat
  station : Nat
  entry : Nat
  ptick : Nat
  cycle : Nat
  deriving DecidableEq, Repr

/-- Link state as it trains or drops (R383, Table 14.7). -/
structure LinkInfo where
  up : Bool
  gen : Nat
  width : Nat
  flit : Bool
  reversed : Bool
  ide : Bool
  inverted : Nat
  deriving DecidableEq, Repr

/-- The commands. -/
inductive Instr where
  -- the tick (01)
  /-- R10. A sync period begins. -/
  | syncPeriod
  /-- R10. A TIME_REQ frame is accepted on a port: t1, and whether the accepted copy is the second (R254). -/
  | timeReq (p : PortNo) (t1 : Nat) (copy : Bool)
  /-- R12. A TIME_RSP frame is accepted. -/
  | timeRsp (p : PortNo) (t1 t2 t3 : Nat) (copy : Bool)
  /-- R13. The sync period ends without a completed exchange. -/
  | syncPeriodMissed
  /-- R21. A requester sets PG_CTL.EN of the TICK page. -/
  | launchEnable (r : Req)
  /-- R22. A LAUNCH frame reaches the root. -/
  | launch (src digest : Nat)
  /-- R22. L − 200 000 ns at the root. -/
  | goDeadline
  /-- R22. A GO frame is accepted. -/
  | go (l : Nat)
  /-- R22. A NOGO frame is accepted. -/
  | nogo (l : Nat)
  /-- R22. L − 100 000 ns. -/
  | launchGoTimeout
  /-- R26. Decision point D. -/
  | decisionPoint
  /-- R26. Verdict point V; what befell beats of the Landing's commit in the guard (R91). -/
  | verdictPoint (dw : List CommitAcc)
  /-- R27. A STRETCH frame: tick number of the boundary, index, originating package. -/
  | stretch (tick k src : Nat)
  /-- R29. An ABORT frame. -/
  | abort (pkg cause tick : Nat)
  /-- R33. A VOID frame: the package voided and its tick number. -/
  | void (pkg tick : Nat)
  /-- R35 steps 1 to 4: the engines are quiet and every run has ended. -/
  | replayQuiesced
  /-- R35 step 5: replay start R0. -/
  | replayStart
  /-- R35. A REPLAY mark from a source for a tick. -/
  | replayMark (src tick : Nat)
  /-- R16. A boundary. -/
  | tickBoundary
  /-- R93. A pending half becomes READY after the boundary. -/
  | ibLateSwap (c : CoreId)
  -- the instructions of the cores (03, 05, 06): an engine issues its next instruction
  /-- R160. NOP; also an engine that meets a word it may not issue (R82, R94, R95). -/
  | nop (i : Issue)
  /-- R97, R98. WAIT. -/
  | wait (i : Issue)
  /-- R98. A waiting WAIT is evaluated in cycle `cyc`. -/
  | waitGrant (c : CoreId) (e : Engine) (cyc : Nat)
  /-- R97. -/
  | sadd (i : Issue)
  /-- R97. -/
  | ssub (i : Issue)
  /-- R84. -/
  | tend (i : Issue)
  /-- R84. -/
  | halt (i : Issue)
  /-- R85. -/
  | fmt (i : Issue)
  /-- R144. -/
  | ldw (i : Issue)
  /-- R145. -/
  | sww (i : Issue)
  /-- R143. `first`: the cycle of its first feeder access (R429). -/
  | mma (i : Issue) (first : Nat)
  /-- R152. The displaced accesses of a feeder, of MV or of VE are made; `wgt`: those of an array's weight feeder. -/
  | feederResume (c : CoreId) (e : Engine) (wgt : Bool) (cyc : Nat)
  /-- R149. -/
  | drn (i : Issue)
  /-- R150. The other array engine's PAIR of the same cycle, if it issues one: its ON operand. -/
  | pair (i : Issue) (other : Option Bool)
  /-- R154. -/
  | mvm (i : Issue)
  /-- R155. `veToo`: VE writes through VE-W in one of its cycles (Table 5.6). -/
  | mvd (i : Issue) (veToo : Bool)
  /-- R136. -/
  | vop (i : Issue)
  /-- R137. -/
  | vsf (i : Issue)
  /-- R138. -/
  | vred (i : Issue)
  /-- R134. -/
  | vqnt (i : Issue)
  /-- R230. -/
  | vrng (i : Issue)
  /-- R133. -/
  | vcvt (i : Issue)
  /-- R164. -/
  | vsel (i : Issue)
  /-- R194. -/
  | mrd (i : Issue)
  /-- R194. -/
  | mwr (i : Issue)
  /-- R101. -/
  | send (i : Issue)
  /-- R166. -/
  | hsnd (i : Issue)
  /-- R276. -/
  | coll (i : Issue)
  /-- R223. -/
  | pan (i : Issue)
  /-- R168. -/
  | ild (i : Issue)
  /-- R112. -/
  | csav (i : Issue)
  /-- R113. -/
  | crst (i : Issue)
  /-- R314. -/
  | tst (i : Issue)
  /-- R83. The oldest instruction of an engine that is due by cycle `cyc` completes. -/
  | instructionComplete (c : CoreId) (e : Engine) (cyc : Nat)
  /-- R103. The oldest transfer on its way to a core arrives; `lost`: its beats that were discarded (R102, R431),
  with the accesses of DW-IN that were not served. -/
  | doorwayArrival (c : CoreId) (cyc : Nat) (lost : List BeatLoss) (acc : List LsAcc)
  /-- R104. A complete memory run of a core posts. -/
  | memoryRunPost (c : CoreId) (k : StackNo) (tick seq cyc : Nat)
  /-- R107. The deadlock counter of a core reaches DIE_DEADLOCK_WIN. -/
  | deadlock (c : CoreId) (cyc : Nat)
  /-- R333. -/
  | coreGate (c : CoreId)
  /-- R333. -/
  | coreUngate (c : CoreId)
  -- memory (07)
  /-- R193. The run or Pantry command that arrives next reaches its channel's controller. -/
  | runRequest (k : StackNo) (c : ChanNo)
  /-- R193, R386. The queue's head, a retry, or in unplanned time a run of host work starts at byte time `bt` of the tick;
  `host`: what host memory returns where it is a DMA write to the package. -/
  | runStart (k : StackNo) (c : ChanNo) (bt : Nat) (host : List Byte)
  /-- R201. The occupancy of the run being served ends: a parity error, what the storage code found, and what befell the
  beats of its data on their way to the core and at its LD port (R88, R102). -/
  | runEnd (k : StackNo) (c : ChanNo) (parity : Bool) (ecc : EccOut) (acc : List LsAcc) (lost : List LineLoss)
  /-- R195, R199. A refresh window opens at byte time `bt`. -/
  | refreshWindow (k : StackNo) (c : ChanNo) (bt : Nat)
  /-- R197. A make-up window opens at byte time `bt`. -/
  | makeupWindow (k : StackNo) (c : ChanNo) (bt : Nat)
  /-- R212. STK_MARGIN_CTL.START takes effect. -/
  | stkMarginStart (k : StackNo)
  /-- R212. A margining step begins at byte time `bt`; `fin`: the measurement ends with LOW and HIGH. -/
  | marginStep (k : StackNo) (bt : Nat) (fin : Option (Nat × Nat))
  /-- R208. -/
  | channelZeroingDone (k : StackNo)
  -- the Pantry (08)
  /-- R223. The access of a GRAD_WR at the head of a channel's queue is served. -/
  | gradWr (k : StackNo) (c : ChanNo) (sv : Served)
  /-- R224. -/
  | gradAdd (k : StackNo) (c : ChanNo) (sv : Served)
  /-- R226. -/
  | scatterAdd (k : StackNo) (c : ChanNo) (sv : Served)
  /-- R237. -/
  | sweep (k : StackNo) (c : ChanNo) (sv : Served)
  /-- R245. START with DIR = 0 takes effect. -/
  | panExport (k : StackNo)
  /-- R246. START with DIR = 1 takes effect. -/
  | panImport (k : StackNo)
  /-- R245, R246. The transfer ends: its last access is done, or one of them failed. -/
  | exportDone (k : StackNo)
  /-- R236. GNS_CLR takes effect. -/
  | gnsClr (k : StackNo)
  -- ports and fabric (09)
  /-- R263. Slot `slot` of a port, counted from the opening boundary. -/
  | egressSlot (p : PortNo) (slot : Nat)
  /-- R256. A frame is received, with the FEC symbols corrected and codewords not correctable in it (R250). -/
  | frameReceive (p : PortNo) (f : Frame) (corr uncorr : Nat)
  /-- R256. -/
  | nakTimeout (p : PortNo)
  /-- R257. -/
  | replayTimeout (p : PortNo)
  /-- R259. -/
  | retrainDone (p : PortNo)
  /-- R260. -/
  | lossOfLight (p : PortNo)
  /-- R260. -/
  | retrainTimeout (p : PortNo)
  /-- R269. A REBIND is received, with the peer's receive state. -/
  | rebind (p : PortNo) (e : Nat)
  /-- R269. A REBIND_ACK is received, with the peer's receive state. -/
  | rebindAck (p : PortNo) (e : Nat)
  /-- R269. -/
  | rebindRepeat (p : PortNo)
  /-- R269. -/
  | rebindTimeout (p : PortNo)
  /-- R266. -/
  | identTimer (p : PortNo)
  /-- R266. An IDENT is received. -/
  | ident (p : PortNo) (m : IdentMsg)
  /-- R249. -/
  | laserSafe (p : PortNo)
  /-- R260. PORT_LASER.EN is written. -/
  | portLaserWrite (p : PortNo) (en : Bool)
  /-- R322. LOCKSTEP frame f of a tick is received. -/
  | lockstep (tick f : Nat) (data : List Byte)
  -- collectives (10)
  /-- R289. The contribution of step k is added; `bad`: the check failed, by the exponent copies or a residue (R294). -/
  | reductionAdd (part : Fin 4) (ctx : Fin 8) (seg k : Nat) (bad : Option Bool)
  -- the guest (02)
  /-- R74. -/
  | guestRd (f : GFlit)
  /-- R74. -/
  | guestWr (f : GFlit)
  /-- R71. -/
  | strmOut (f : GFlit)
  /-- R71. -/
  | guestLink (f : GFlit)
  /-- R71. -/
  | guestAckTimer
  /-- R72. The oldest accepted request is served at byte time `bt` of the tick. -/
  | guestRequestServe (sv : Served)
  /-- R69. -/
  | guestPwr
  /-- R68. -/
  | moduleLost (m : Fin 2)
  /-- R78. -/
  | gstReset
  /-- R78. The modules that trained, and the identity frame read over the sideband, if the guest answered. -/
  | resetDone (m0 m1 : Bool) (guest : Option (List Byte))
  -- dies and links (02)
  /-- R51. A DISC_REQ of 32 bytes reaches a die, or the stack on a memory port of it. -/
  | discReq (d : DieNo) (port : Option (Fin 3)) (frame : List Byte)
  /-- R51. A DISC_RSP is received from a die, or from the stack on its port. -/
  | discRsp (d : DieNo) (port : Option (Fin 3)) (frame : List Byte)
  /-- R52. 100 µs without an answer. -/
  | discRetry (d : DieNo) (port : Option (Fin 3))
  /-- R58. A flit of a bundle is received with its sequence number; `bad`: its CRC fails. -/
  | bundleFlit (d : DieNo) (b : Fin 24) (seq : Nat) (bad : Bool)
  -- faults (11)
  /-- R308. -/
  | drainReqPin
  /-- R308. FLT_DRAIN_CMD.DRAIN, with AT_TICK and TICK as the register holds them. -/
  | fltDrainCmdDrain
  /-- R310. -/
  | fltDrainCmdRelease
  /-- R309. -/
  | drained
  /-- R315. Both cores of the leader's pair have completed block j of an engine, with these signatures. -/
  | testBlockCompare (lead : CoreId) (e : Engine) (j sigLead sigOther : Nat)
  -- power (12)
  /-- R328. -/
  | inputSwitchClose
  /-- R417. -/
  | pwrEnLow
  /-- R327. P48V below 38 V for 10 µs; `removed`: the input is gone. -/
  | inputUndervoltage (removed : Bool)
  /-- R327. -/
  | inputOvervoltage
  /-- R327. -/
  | inputOvercurrent
  /-- R327. -/
  | inputReverseCurrent
  /-- R331. -/
  | limiterEval (m : Meter)
  /-- R335. -/
  | ballastStep (d : Draw)
  /-- R332. For each die the highest clock, in 10 MHz, at which its predicted power keeps its budget. -/
  | boostClockUpdate (fit : Vector Nat 4)
  /-- R337. -/
  | sensorScan (r : Scan)
  /-- R338. -/
  | thermalCapStep
  /-- R339. Site (Table 12.5) and reading in °C. -/
  | tjTrip (site : Fin 5) (t : Nat)
  /-- R340. -/
  | dramCrit (k : StackNo)
  /-- R342. The 1 s averages: input power in W, COUT less CIN in 1/16 K. -/
  | flowEstimate (power : Nat) (rise : Int)
  /-- R342. -/
  | coolantLoss
  /-- R342. -/
  | inletCrit
  /-- R343. The input power in W, steady for 2 s. -/
  | coolantCheck (power : Nat)
  -- the sensor bus (14)
  /-- R390. The two bytes that each target answers, or none for a NACK. -/
  | sensorPoll (answers : Vector (Option (BitVec 16)) 8)
  /-- R390. A lost target is polled again. -/
  | sensorRepoll (n : Fin 8) (answer : Option (BitVec 16))
  /-- R391. Pulses after which SDA is released; none: still low after nine. -/
  | snsBusRetry (pulses : Option (Fin 10))
  -- bring-up (13)
  /-- R353. -/
  | bringupP0
  /-- R353. Whether each firmware slot authenticates. -/
  | fwAuth (slot0 slot1 : Bool)
  /-- R51. P2 ends. The identity frame read from the guest over the sideband, if it answers (R70). -/
  | discovery (guest : Option (List Byte))
  /-- R354. P3, with the copies that do not read as valid: record and copy (false A, true B). -/
  | atticRestore (bad : List (Nat × Bool))
  /-- R355. -/
  | training (t : TrainRes)
  /-- R356. -/
  | errorRateCheck (r : CheckRes)
  /-- R358. -/
  | selfTest (r : SelfRes)
  /-- R359. -/
  | bringupZeroing
  /-- R350. -/
  | ready
  /-- R412. A write of TOP_RESET_CMD through a view. -/
  | topResetCmd (view : Fin 4) (w : Word)
  /-- R349. -/
  | perstN
  /-- R363. -/
  | atticWriteCommit
  /-- R364. -/
  | atticPackageTimer
  /-- R364. -/
  | atticSync
  /-- R367. -/
  | clearSettings
  /-- R351. -/
  | coldNext
  -- the plan (06)
  /-- R182. LOAD in function f's view of the PLAN page. -/
  | planLoad (f : Fin 4)
  /-- R184. The loader finishes; `model`: the first check that its cycle model fails, if any. -/
  | planLoadDone (f : Fin 4) (model : Option LoadErr)
  /-- R186. -/
  | unload (f : Fin 4)
  /-- R187. -/
  | restart (f : Fin 4)
  -- partitions (14)
  /-- R375. -/
  | partOwnerCmd
  /-- R374. -/
  | zeroed
  /-- R377. -/
  | partRunStart
  /-- R377. -/
  | partRunStop
  -- registers (15)
  /-- R401. A requester writes PG_CTL.EN = 1 on a page. -/
  | pageEnable (r : Req) (pg : Nat)
  /-- R403. A requester writes PG_CTL.EN = 0 on a page. -/
  | pageDisable (r : Req) (pg : Nat)
  /-- R6. A 32-bit write to a BAR0 offset. -/
  | registerWrite (r : Req) (addr : Nat) (w : Word)
  /-- R409. -/
  | postedWriteDone (pg : Nat)
  /-- R407. -/
  | pgEvtAck (r : Req) (pg : Nat) (w : Word)
  /-- R407. -/
  | pgEvtSeqRead (r : Req) (pg : Nat)
  /-- R49. -/
  | tickCountLoRead (r : Req)
  /-- R49. -/
  | tickLaunchLoRead (r : Req)
  /-- R49. -/
  | tickJobLoRead (r : Req)
  /-- R248. The low word of PAN_NORM_ACC, PAN_NORM_GLB or PAN_GNS_BIG. -/
  | panLowWordRead (r : Req) (k : StackNo) (q : Fin 3)
  /-- R236. -/
  | panGnsSmall0Read (r : Req) (k : StackNo)
  /-- R303. -/
  | fltLogDataRead (r : Req)
  /-- R370. -/
  | atticHistDataRead (r : Req)
  /-- R115. -/
  | cwAddrWrite (r : Req) (w : Word)
  /-- R115. -/
  | cwDataWrite (r : Req) (w : Word)
  /-- R115. -/
  | cwDataRead (r : Req)
  /-- R116. A requester's access completes; what a read met in the storage code. -/
  | coreWinAccessDone (r : Req) (ecc : WinEcc)
  -- the host side (14)
  /-- R386. -/
  | dmaStart (n : Fin 16)
  /-- R387. The transfer ends: its last run is done, or one of them failed. -/
  | dmaDone (n : Fin 16)
  /-- R384. An access of function f's BAR2 is served: a read of `len` bytes, or a write, as its runs are served. -/
  | bar2Access (f : Fin 4) (off len : Nat) (wr : Option (List Byte)) (sv : List Served)
  /-- R388. The bytes written, and whether the PEC is right. -/
  | winAddr (bs : List Byte) (pec : Bool)
  /-- R388. -/
  | winRead
  /-- R389. -/
  | winWrite (bs : List Byte) (pec : Bool)
  /-- R388. -/
  | state
  /-- R388. -/
  | winStatus
  /-- R71. -/
  | guestReplayTimeout
  /-- R71. A retrain ends: whether each module retrained, whether a fifth send of the guest's asked for it, and whether
  the guest discarded a STRM_OUT flit in it. -/
  | guestRetrain (m0 m1 byGuest lostOut : Bool)
  /-- R249. -/
  | lightReturns (p : PortNo)
  /-- R383. -/
  | linkChange (l : LinkInfo)
  /-- R383. -/
  | hotReset
  /-- R383. -/
  | functionLevelReset (f : Fin 4)
  /-- R388. -/
  | alertResponse
  /-- R346. A conversion stage fails its own check. -/
  | convFault (stage : Nat)
  deriving DecidableEq, Repr

end Sys2Proof
end

