-- ==== Sys2Proof/Decode.lean ====
section
/-! DEFINITION. Table words: spec/opcode_table.json gives no row any bits. -/

namespace Sys2Proof

/-- The command that a word spells by the table's bits. No row of the table gives bits (every
"fields" is empty), so no word spells one. The words of a core's instruction lists (R158, Tables
6.1 to 6.6) are operands of the rows that execute them and are read in Machine/Operands.lean. -/
def decodeTableWord (_nbits _w : Nat) : Option Instr := none

end Sys2Proof
end

