-- ==== Sys2Proof/Config.lean ====
section
/-! DEFINITION. What an implementation fixes and the free values of the model. -/

namespace Sys2Proof

/-- The free value (log 2): nothing in the model fixes what it is. The n-th time a step leaves a
value that the spec does not state, that value is `Config.freeValue n`. -/
opaque Config.freeValue : Nat → Word

/-- The value that an element of a reserved descriptor decodes to (log 10): the spec states none
(R117, R122 have the loader reject such a descriptor). Arguments: descriptor, element bits. -/
opaque Config.reservedElem : Nat → Nat → Word

/-- The element that a conversion to a reserved descriptor writes (log 10). Arguments: descriptor, FP32 value. -/
opaque Config.reservedOut : Nat → Word → Word

/-- A function result that the spec's rules leave open (log 11): an unlisted function code FN of a
vector instruction (Table 6.5), or a special function whose rounding the enclosure of
Machine/Special.lean does not decide. Arguments: function number, operands. -/
opaque Config.openFn : Nat → Word → Word → Word

end Sys2Proof
end

