-- ==== Sys2Proof/Machine/Crc.lean ====
section
/-! DEFINITION. The check codes and the keyed generator that the spec names: CRC-32C (R52), the
CRC-32 of IEEE 802.3 (R252), CRC-64/ECMA-182 (R21) and Philox-4x32-10 (R135, R230). The
polynomials, initial values and constants are those of the published standards (log 9). -/

namespace Sys2Proof.Machine

/-- One bit step of a reflected CRC with polynomial `poly`. -/
def crcStepRefl (poly : Nat) : Nat → Nat → Nat
  | 0, c => c
  | k + 1, c => crcStepRefl poly k (if c % 2 = 1 then (c / 2) ^^^ poly else c / 2)

/-- A reflected 32-bit CRC register after some bytes. -/
def crc32Run (poly : Nat) : Nat → List Byte → Nat
  | c, [] => c
  | c, b :: bs => crc32Run poly (crcStepRefl poly 8 (c ^^^ b.toNat)) bs

/-- CRC-32C (Castagnoli) of a byte string. -/
def crc32c (bs : List Byte) : Nat := crc32Run 0x82F63B78 0xFFFFFFFF bs ^^^ 0xFFFFFFFF

/-- The CRC-32 of IEEE 802.3. -/
def crc32 (bs : List Byte) : Nat := crc32Run 0xEDB88320 0xFFFFFFFF bs ^^^ 0xFFFFFFFF

/-- One bit step of the CRC-64/ECMA-182 register, most significant bit first. -/
def crc64Step : Nat → Nat → Nat
  | 0, c => c
  | k + 1, c =>
    crc64Step k (if c / 2 ^ 63 = 1 then ((c * 2) % 2 ^ 64) ^^^ 0x42F0E1EBA9EA3693 else c * 2)

/-- The CRC-64/ECMA-182 register after some bytes, from register value `c`. -/
def crc64Run : Nat → List Byte → Nat
  | c, [] => c
  | c, b :: bs => crc64Run (crc64Step 8 (c ^^^ (b.toNat * 2 ^ 56))) bs

/-- CRC-64/ECMA-182 of a byte string. -/
def crc64 (bs : List Byte) : Nat := crc64Run 0 bs

/-- Rounds of Philox-4x32: counter words and key words. -/
def philoxRounds : Nat → Nat → Nat → Nat → Nat → Nat → Nat → List Nat
  | 0, c0, c1, c2, c3, _, _ => [c0, c1, c2, c3]
  | r + 1, c0, c1, c2, c3, k0, k1 =>
    let p0 := 0xD2511F53 * c0
    let p1 := 0xCD9E8D57 * c2
    philoxRounds r ((p1 / 2 ^ 32) ^^^ c1 ^^^ k0) (p1 % 2 ^ 32) ((p0 / 2 ^ 32) ^^^ c3 ^^^ k1)
      (p0 % 2 ^ 32) ((k0 + 0x9E3779B9) % 2 ^ 32) ((k1 + 0xBB67AE85) % 2 ^ 32)

/-- The four output words of Philox-4x32-10 under a 64-bit key (k0 the low half, R135). -/
def philox (seed c0 c1 c2 c3 : Nat) : List Nat :=
  philoxRounds 10 (c0 % 2 ^ 32) (c1 % 2 ^ 32) (c2 % 2 ^ 32) (c3 % 2 ^ 32) (seed % 2 ^ 32)
    (seed / 2 ^ 32 % 2 ^ 32)

/-- Word `j` of the output. -/
def philoxWord (seed c0 c1 c2 c3 j : Nat) : Nat := (philox seed c0 c1 c2 c3).getD j 0

end Sys2Proof.Machine
end

