-- ==== Sys2Proof/Machine/Fp.lean ====
section
/-! DEFINITION. Floating-point formats and exact arithmetic with one rounding (R117 to R123, R128,
R133, R136): every value decodes to a sign, an integer significand and an exponent; an operation
is computed exactly and rounded once. -/

namespace Sys2Proof.Machine

/-- A decoded value: NaN, an infinity, or (−1)^neg × sig × 2^exp. -/
inductive Val where
  | nan
  | inf (neg : Bool)
  | fin (neg : Bool) (sig : Nat) (exp : Int)
  deriving DecidableEq, Repr

/-- Which encodings of a format are neither normal nor subnormal (Table 4.2). -/
inductive Specials where
  | ieee
  | e4m3
  | none
  deriving DecidableEq, Repr

/-- A floating-point format of Table 4.2: exponent bits, mantissa bits, bias, special encodings. -/
structure Fmt where
  ew : Nat
  mw : Nat
  bias : Nat
  spec : Specials
  deriving DecidableEq, Repr

def fmtFP32 : Fmt := ⟨8, 23, 127, .ieee⟩
def fmtBF16 : Fmt := ⟨8, 7, 127, .ieee⟩
def fmtFP16 : Fmt := ⟨5, 10, 15, .ieee⟩
def fmtE4M3 : Fmt := ⟨4, 3, 7, .e4m3⟩
def fmtE5M2 : Fmt := ⟨5, 2, 15, .ieee⟩
def fmtE3M2 : Fmt := ⟨3, 2, 3, .none⟩
def fmtE2M3 : Fmt := ⟨2, 3, 1, .none⟩
def fmtE2M1 : Fmt := ⟨2, 1, 1, .none⟩

/-- Width of the format in bits. -/
def fmtWidth (f : Fmt) : Nat := 1 + f.ew + f.mw

/-- Exponent of one unit of the smallest subnormal. -/
def fmtEmin (f : Fmt) : Int := 1 - (f.bias : Int) - (f.mw : Int)

/-- The magnitude bits of the largest finite value (Table 4.2). -/
def fmtMaxBits (f : Fmt) : Nat :=
  match f.spec with
  | .ieee => (2 ^ f.ew - 1) * 2 ^ f.mw - 1
  | .e4m3 => 2 ^ (f.ew + f.mw) - 2
  | .none => 2 ^ (f.ew + f.mw) - 1

/-- The canonical NaN of a format (R120); a format without NaN has none, and 0 stands here (R134 never encodes one). -/
def fmtNan (f : Fmt) : Nat :=
  match f.spec with
  | .ieee => (2 ^ f.ew - 1) * 2 ^ f.mw + 2 ^ (f.mw - 1)
  | .e4m3 => 2 ^ (f.ew + f.mw) - 1
  | .none => 0

/-- The value of an encoding (R118, Table 4.2). -/
def decodeFmt (f : Fmt) (w : Nat) : Val :=
  let s := bitsOf w (f.ew + f.mw) 1 == 1
  let e := bitsOf w f.mw f.ew
  let m := bitsOf w 0 f.mw
  if f.spec = .ieee ∧ e = 2 ^ f.ew - 1 then (if m = 0 then .inf s else .nan)
  else if f.spec = .e4m3 ∧ e = 2 ^ f.ew - 1 ∧ m = 2 ^ f.mw - 1 then .nan
  else if e = 0 then .fin s m (fmtEmin f)
  else .fin s (2 ^ f.mw + m) ((e : Int) - f.bias - f.mw)

/-- Rounding of a conversion: to nearest even, toward zero, or stochastic with draw `r` of width `w` (R135). -/
inductive Rnd where
  | rne
  | rz
  | sr (w r : Nat)
  deriving DecidableEq, Repr

/-- Round sig × 2^exp to a multiple of 2^qe: the multiplier. A value on the grid never moves. -/
def roundAt (mode : Rnd) (sig : Nat) (exp qe : Int) : Nat :=
  if qe ≤ exp then sig * 2 ^ (exp - qe).toNat
  else
    let sh := (qe - exp).toNat
    let q := sig / 2 ^ sh
    let rem := sig % 2 ^ sh
    let up : Bool :=
      match mode with
      | .rne => decide (2 * rem > 2 ^ sh ∨ (2 * rem = 2 ^ sh ∧ q % 2 = 1))
      | .rz => false
      | .sr w r => decide (rem * 2 ^ w / 2 ^ sh + r ≥ 2 ^ w)
    if up then q + 1 else q

/-- Magnitude bits of sig × 2^exp rounded onto the format's grid, subnormals included; the range is
not bounded above, so a result beyond `fmtMaxBits` says that the rounded value overflows. -/
def roundMag (f : Fmt) (mode : Rnd) (sig : Nat) (exp : Int) : Nat :=
  if sig = 0 then 0
  else
    let qe := max (exp + (bitLen sig : Int) - (f.mw + 1 : Int)) (fmtEmin f)
    (qe - fmtEmin f).toNat * 2 ^ f.mw + roundAt mode sig exp qe

/-- Sign and magnitude bits joined. -/
def joinSign (f : Fmt) (neg : Bool) (mag : Nat) : Nat :=
  (if neg then 2 ^ (f.ew + f.mw) else 0) + mag

/-- Round a value into FP32, RNE, overflow to infinity, NaN canonical (R120, R129, R136). -/
def round32 (v : Val) : Word :=
  match v with
  | .nan => BitVec.ofNat 32 (fmtNan fmtFP32)
  | .inf s => BitVec.ofNat 32 (joinSign fmtFP32 s 0x7F800000)
  | .fin s sig e =>
    let m := roundMag fmtFP32 .rne sig e
    BitVec.ofNat 32 (joinSign fmtFP32 s (if m > fmtMaxBits fmtFP32 then 0x7F800000 else m))

/-- The value of an FP32 word. -/
def val32 (w : Word) : Val := decodeFmt fmtFP32 w.toNat

/-- sig × 2^exp as a whole number of units 2^e, for e not above exp. -/
def scaledTo (e : Int) (neg : Bool) (sig : Nat) (exp : Int) : Int :=
  let m : Int := (sig * 2 ^ (exp - e).toNat : Nat)
  if neg then -m else m

/-- Exact sum. An exact zero is +0 unless both are −0 (IEEE 754 under RNE). -/
def addVal : Val → Val → Val
  | .nan, _ => .nan
  | _, .nan => .nan
  | .inf s, .inf t => if s = t then .inf s else .nan
  | .inf s, .fin _ _ _ => .inf s
  | .fin _ _ _, .inf t => .inf t
  | .fin s m e, .fin t n f =>
    let lo := min e f
    let sum := scaledTo lo s m e + scaledTo lo t n f
    if sum = 0 then .fin (m == 0 && n == 0 && s && t) 0 lo
    else .fin (decide (sum < 0)) sum.natAbs lo

/-- Exact product. -/
def mulVal : Val → Val → Val
  | .nan, _ => .nan
  | _, .nan => .nan
  | .inf s, .inf t => .inf (s != t)
  | .inf s, .fin t n _ => if n = 0 then .nan else .inf (s != t)
  | .fin s m _, .inf t => if m = 0 then .nan else .inf (s != t)
  | .fin s m e, .fin t n f => .fin (s != t) (m * n) (e + f)

/-- A quotient or root carried to enough bits, its last bit 1 when the exact value lies beyond it:
one later rounding of it is the rounding of the exact value. -/
def stickyQuot (s : Bool) (m n : Nat) (e : Int) : Val :=
  let k := bitLen n + 64
  let q := m * 2 ^ k / n
  let sticky := if m * 2 ^ k % n = 0 then 0 else 1
  .fin s (2 * q + sticky) (e - k - 1)

/-- Quotient of two values, exact up to one later rounding. -/
def divVal : Val → Val → Val
  | .nan, _ => .nan
  | _, .nan => .nan
  | .inf _, .inf _ => .nan
  | .inf s, .fin t _ _ => .inf (s != t)
  | .fin s _ _, .inf t => .fin (s != t) 0 0
  | .fin s m e, .fin t n f =>
    if n = 0 then (if m = 0 then .nan else .inf (s != t))
    else if m = 0 then .fin (s != t) 0 0
    else stickyQuot (s != t) m n (e - f)

/-- Square root, exact up to one later rounding. −0 gives −0. -/
def sqrtVal : Val → Val
  | .nan => .nan
  | .inf s => if s then .nan else .inf false
  | .fin s m e =>
    if m = 0 then .fin s 0 0
    else if s then .nan
    else
      let e' := if e % 2 = 0 then e else e - 1
      let m' := if e % 2 = 0 then m else 2 * m
      let x := m' * 2 ^ 128
      let q := Nat.sqrt x
      let sticky := if q * q = x then 0 else 1
      .fin false (2 * q + sticky) (e' / 2 - 64 - 1)

def negVal : Val → Val
  | .nan => .nan
  | .inf s => .inf (!s)
  | .fin s m e => .fin (!s) m e

def add32 (a b : Word) : Word := round32 (addVal (val32 a) (val32 b))
def mul32 (a b : Word) : Word := round32 (mulVal (val32 a) (val32 b))
def fma32 (a b c : Word) : Word := round32 (addVal (mulVal (val32 a) (val32 b)) (val32 c))
def div32 (a b : Word) : Word := round32 (divVal (val32 a) (val32 b))
def sqrt32 (a : Word) : Word := round32 (sqrtVal (val32 a))
/-- 1 − x, rounded once. -/
def sub32 (a b : Word) : Word := round32 (addVal (val32 a) (negVal (val32 b)))
/-- The sign flipped, exact (NaN canonical, R120). -/
def neg32 (a : Word) : Word := round32 (negVal (val32 a))

/-- The rank of a non-NaN value in the order −∞ … −0, +0 … +∞ (R136 orders −0 below +0). -/
def rank32 (a : Word) : Int :=
  let m : Int := (a.toNat % 2 ^ 31 : Nat)
  if a.toNat / 2 ^ 31 = 1 then -m - 1 else m

/-- Maximum that propagates NaN (R136). -/
def max32 (a b : Word) : Word :=
  if val32 a = .nan ∨ val32 b = .nan then BitVec.ofNat 32 (fmtNan fmtFP32)
  else if rank32 a < rank32 b then b else a

/-- Minimum that propagates NaN (R136). -/
def min32 (a b : Word) : Word :=
  if val32 a = .nan ∨ val32 b = .nan then BitVec.ofNat 32 (fmtNan fmtFP32)
  else if rank32 b < rank32 a then b else a

/-- sign(x): +1.0, −1.0, +0 for ±0, NaN for NaN (R239). -/
def sign32 (a : Word) : Word :=
  match val32 a with
  | .nan => BitVec.ofNat 32 (fmtNan fmtFP32)
  | .inf s => if s then 0xBF800000#32 else 0x3F800000#32
  | .fin s m _ => if m = 0 then 0#32 else if s then 0xBF800000#32 else 0x3F800000#32

/-- Is the word a NaN or an infinity? -/
def nonFinite32 (a : Word) : Bool := decide (a.toNat / 2 ^ 23 % 256 = 255)

/-- An INT32 value converted to FP32 by RNE (R132 step 2). -/
def intToFp32 (n : Int) : Word :=
  round32 (.fin (decide (n < 0)) n.natAbs 0)

/-- The two's complement value of the low `w` bits of `n`. -/
def toSigned (w n : Nat) : Int :=
  if n % 2 ^ w ≥ 2 ^ (w - 1) then (n % 2 ^ w : Nat) - (2 ^ w : Nat) else (n % 2 ^ w : Nat)

/-- The low `w` bits of an integer. -/
def ofSigned (w : Nat) (n : Int) : Nat := (n % (2 ^ w : Nat)).toNat

/-- Round the value onto whole numbers (times 2^i): the signed multiplier of 2^i. -/
def roundInt (mode : Rnd) (neg : Bool) (sig : Nat) (exp i : Int) : Int :=
  let q : Int := (roundAt mode sig exp i : Nat)
  if neg then -q else q

/-- Clamp an integer. -/
def clampInt (lo hi n : Int) : Int := max lo (min hi n)

end Sys2Proof.Machine
end

