-- ==== Sys2Proof/Machine/Block.lean ====
section
/-! DEFINITION. Format descriptors, tiles, conversion and block quantisation, the product and
accumulate rule (R117 to R135, R138, R140). -/

namespace Sys2Proof.Machine

/-! ### Descriptors (R122, Table 4.3) -/

def dElem (d : Nat) : Nat := bitsOf d 0 4
def dBlock (d : Nat) : Nat := bitsOf d 4 4
def dDir (d : Nat) : Nat := bitsOf d 8 1
def dSigned (d : Nat) : Bool := bitsOf d 9 1 == 1
def dRnd (d : Nat) : Nat := bitsOf d 10 2

/-- Width in bits of an element code (Table 4.1); a reserved code has none and reads as 32. -/
def elemWidth (d : Nat) : Nat :=
  match dElem d with
  | 1 => 16 | 2 => 16 | 3 => 8 | 4 => 8 | 5 => 6 | 6 => 6 | 7 => 4 | 8 => 8 | 9 => 4
  | _ => 32

/-- The floating format of an element code. -/
def elemFmt (d : Nat) : Option Fmt :=
  match dElem d with
  | 0 => some fmtFP32 | 1 => some fmtBF16 | 2 => some fmtFP16 | 3 => some fmtE4M3
  | 4 => some fmtE5M2 | 5 => some fmtE3M2 | 6 => some fmtE2M3 | 7 => some fmtE2M1
  | _ => none

/-- Is the element code an integer code? -/
def isInt (d : Nat) : Bool := dElem d == 8 || dElem d == 9 || dElem d == 10

/-- Elements per scale (Table 4.3). -/
def blockSize (d : Nat) : Nat :=
  match dBlock d with
  | 1 => 16 | 2 => 32 | 3 => 64 | 4 => 128 | _ => 0

/-- The element and block codes are a legal pair (Table 4.1, R119, R122). -/
def descLegal (d : Nat) : Bool :=
  let e := dElem d
  let b := dBlock d
  decide (e ≤ 10) && decide (b ≤ 4) && decide (dRnd d ≤ 2) && bitsOf d 12 4 == 0 && bitsOf d 16 16 == 0 &&
  (if e ≤ 2 ∨ e = 10 then b == 0 else if 5 ≤ e ∧ e ≤ 7 then b != 0 else true) &&
  (if e ≤ 7 then !dSigned d else if e = 10 then dSigned d else true)

/-- The implicit exponent i of a block-scaled integer element (R123). -/
def implExp (d : Nat) : Int :=
  if dBlock d = 0 then 0 else if dElem d = 8 then -6 else if dElem d = 9 then -2 else 0

/-- The value of an element without its scale (R118, R119, R123). -/
def decodeElem (d w : Nat) : Val :=
  if dElem d > 10 ∨ dBlock d > 4 then val32 (Config.reservedElem d w)
  else
    match elemFmt d with
    | some f => decodeFmt f (w % 2 ^ fmtWidth f)
    | none =>
      let n : Int := if dSigned d then toSigned (elemWidth d) w else (w % 2 ^ elemWidth d : Nat)
      .fin (decide (n < 0)) n.natAbs (implExp d)

/-- A value times 2^e. -/
def scaleVal (e : Int) : Val → Val
  | .fin s m x => .fin s m (x + e)
  | v => v

/-- The value of an element under its E8M0 scale byte (R121, R123). -/
def decodeScaled (d scale w : Nat) : Val :=
  if dBlock d = 0 then decodeElem d w
  else if scale = 0xFF then .nan
  else scaleVal ((scale : Int) - 127) (decodeElem d w)

/-! ### Tiles (R125 to R127) -/

/-- Bytes of a line of 32 elements (R126). -/
def lineBytes (d : Nat) : Nat := 4 * elemWidth d

/-- Bytes of a tile, trailer included (Table 4.5). -/
def tileBytes (d : Nat) : Nat := 128 * elemWidth d + (if dBlock d = 0 then 0 else 64)

/-- `w` bits at bit address `a` of a byte store. -/
def bitsAt (rd : Nat → Byte) (a w : Nat) : Nat :=
  (leNat [rd (a / 8), rd (a / 8 + 1), rd (a / 8 + 2), rd (a / 8 + 3), rd (a / 8 + 4)] >>> (a % 8))
    % 2 ^ w

/-- Element bits of line q, position p of a tile at byte address `t` (R126). -/
def elemAt (rd : Nat → Byte) (d t q p : Nat) : Nat :=
  bitsAt rd (8 * t + (32 * q + p) * elemWidth d) (elemWidth d)

/-- Place of the scale of line q, position p in the trailer (R127). -/
def scaleIndex (d q p : Nat) : Nat :=
  let b := min (blockSize d) 32
  let per := 32 / b
  if dDir d = 0 then q * per + p / b else p * per + q / b

/-- Scale byte of line q, position p of a tile at byte address `t`. -/
def scaleAt (rd : Nat → Byte) (d t q p : Nat) : Nat :=
  (rd (t + 128 * elemWidth d + scaleIndex d q p)).toNat

/-- The value of an element of a tile. -/
def tileVal (rd : Nat → Byte) (d t q p : Nat) : Val :=
  decodeScaled d (scaleAt rd d t q p) (elemAt rd d t q p)

/-! ### The product and accumulate rule (R128 to R130) -/

/-- Leading-bit exponent of a non-zero finite term. -/
def leadExp : Val → Int
  | .fin _ m e => e + bitLen m - 1
  | _ => 0

/-- Truncate a term's magnitude to units of 2^(e − f) (R128). -/
def alignTerm (e : Int) (f : Nat) : Val → Int
  | .fin s m x =>
    let q : Int := (roundAt .rz m x (e - f) : Nat)
    if s then -q else q
  | _ => 0

/-- Fraction bits of the aligned sum: 24 + TOP_NUMID_LO.GUARD (R128, R141). -/
def alignBits : Nat := 27

/-- One group into one FP32 accumulator element (R128, R129). -/
def groupAcc (acc : Word) (a b : List Val) : Word :=
  let prods := List.zipWith mulVal a b
  if a.any (· == .nan) || b.any (· == .nan) || prods.any (· == .nan) then BitVec.ofNat 32 (fmtNan fmtFP32)
  else
    let pinf := prods.any (· == .inf false)
    let ninf := prods.any (· == .inf true)
    if pinf && ninf then BitVec.ofNat 32 (fmtNan fmtFP32)
    else if pinf || ninf then round32 (addVal (val32 acc) (.inf ninf))
    else
      let terms := prods.filter fun v => match v with | .fin _ m _ => m != 0 | _ => false
      match terms with
      | [] => acc
      | t :: ts =>
        let e := ts.foldl (fun x v => max x (leadExp v)) (leadExp t)
        let s := (terms.map (alignTerm e alignBits)).foldl (· + ·) 0
        if s = 0 then acc
        else
          round32 (addVal (val32 acc) (.fin (decide (s < 0)) s.natAbs (e - alignBits)))

/-- The integer of a value without a scale (integer path, R130). -/
def intOf : Val → Int
  | .fin s m _ => if s then -(m : Int) else m
  | _ => 0

/-- One group into one INT32 accumulator element: the new element and whether it saturated (R130). -/
def groupInt (acc : Word) (a b : List Val) : Word × Bool :=
  let sum := (List.zipWith (fun x y => intOf x * intOf y) a b).foldl (· + ·) 0
  let v := toSigned 32 acc.toNat + sum
  let c := clampInt (-2147483648) 2147483647 v
  (BitVec.ofNat 32 (ofSigned 32 c), decide (c ≠ v))

/-- Both operands are integer codes with BLOCK = 0 (R130). -/
def intPath (da db : Nat) : Bool :=
  isInt da && isInt db && dBlock da == 0 && dBlock db == 0

/-! ### Conversion (R133) and quantisation (R134) -/

/-- The rounding of a descriptor, with draw `r` for stochastic rounding (R122, R135). -/
def rndOf (d r : Nat) : Rnd :=
  match dRnd d with
  | 1 => .rz
  | 2 => .sr 16 r
  | _ => .rne

/-- Symmetric and unsigned saturation ranges of the integer codes (R133). -/
def intRange (d : Nat) : Int × Int :=
  if dElem d = 8 then (if dSigned d then (-127, 127) else (0, 255))
  else (if dSigned d then (-7, 7) else (0, 15))

/-- Conversion to a format without a block scale (R133, Table 4.6). -/
def convElem (d r : Nat) (x : Word) : Nat :=
  if !descLegal d || dBlock d != 0 || dElem d == 10 then (Config.reservedOut d x).toNat % 2 ^ elemWidth d
  else
    match elemFmt d with
    | some f =>
      match val32 x with
      | .nan => fmtNan f
      | .inf s => joinSign f s (if f.spec = .ieee then (2 ^ f.ew - 1) * 2 ^ f.mw else fmtMaxBits f)
      | .fin s m e =>
        let mag := roundMag f (rndOf d r) m e
        if mag > fmtMaxBits f then
          joinSign f s (if f.spec = .ieee ∧ dRnd d = 0 then (2 ^ f.ew - 1) * 2 ^ f.mw else fmtMaxBits f)
        else joinSign f s mag
    | none =>
      let (lo, hi) := intRange d
      match val32 x with
      | .nan => 0
      | .inf s => ofSigned (elemWidth d) (if s then lo else hi)
      | .fin s m e => ofSigned (elemWidth d) (clampInt lo hi (roundInt (rndOf d r) s m e 0))

/-- emax of the block quantiser (Table 4.7). -/
def emaxOf (d : Nat) : Int :=
  match dElem d with
  | 3 => 8 | 4 => 15 | 5 => 4 | 6 => 2 | 7 => 2
  | _ => if dSigned d then 0 else 1

/-- Largest ⌊log₂ |v|⌋ of the non-zero values of a block; none when all are zero. -/
def blockLog : List Val → Option Int
  | [] => none
  | .fin _ m e :: vs =>
    if m = 0 then blockLog vs
    else
      match blockLog vs with
      | none => some (e + bitLen m - 1)
      | some x => some (max x (e + bitLen m - 1))
  | _ :: vs => blockLog vs

/-- Scale byte of a block of finite values (R134 steps 2 and 3). -/
def blockScale (d : Nat) (vs : List Val) : Nat :=
  match blockLog vs with
  | none => 0x7F
  | some l => (clampInt 0 254 (l - emaxOf d + 127)).toNat

/-- One element of a block under its scale byte (R134 steps 2 and 4). -/
def quantElem (d scale r : Nat) (v : Val) : Nat :=
  match v with
  | .fin s m e =>
    let e' := e - ((scale : Int) - 127)
    match elemFmt d with
    | some f => joinSign f s (min (roundMag f (rndOf d r) m e') (fmtMaxBits f))
    | none =>
      let (lo, hi) := intRange d
      ofSigned (elemWidth d) (clampInt lo hi (roundInt (rndOf d r) s m e' (implExp d)))
  | _ => 0

/-- A block: its scale byte and its elements; `draw` gives each element its number (R134, R135). -/
def quantBlock (d : Nat) (draw : List Nat) (vs : List Val) : Nat × List Nat :=
  if vs.any (fun v => match v with | .fin _ _ _ => false | _ => true) then (0xFF, vs.map fun _ => 0)
  else
    let sc := blockScale d vs
    (sc, List.zipWith (fun r v => quantElem d sc r v) draw vs)

/-! ### VRED (R138), the FP32 split (R131) -/

/-- Lane sums of the elements whose index is j modulo 16, left to right. -/
def laneFold (op : Word → Word → Word) (j : Nat) : Nat → List Word → Option Word → Option Word
  | _, [], acc => acc
  | i, x :: xs, acc =>
    laneFold op j (i + 1) xs
      (if i % 16 = j then (match acc with | none => some x | some a => some (op a x)) else acc)

/-- Pairwise combination of 16, 8, 4 and 2 lanes: lane j with lane j + half. -/
def pairLanes (op : Word → Word → Word) : Nat → List Word → List Word
  | 0, l => l
  | k + 1, l =>
    let h := l.length / 2
    pairLanes op k (List.zipWith op (l.take h) (l.drop h))

/-- A reduction of a row in the order of R138; a lane with no element holds `unit`. -/
def reduceRow (op : Word → Word → Word) (unit : Word) (xs : List Word) : Word :=
  let lanes := (List.range 16).map fun j => (laneFold op j 0 xs none).getD unit
  (pairLanes op 4 lanes).headD unit

/-- FP32 split into BF16 hi and lo (R131). -/
def splitHi (x : Word) : Nat :=
  match val32 x with
  | .nan => 0x7FC0
  | _ => x.toNat / 2 ^ 16

def splitLo (x : Word) : Nat :=
  match val32 x with
  | .nan => 0
  | .inf _ => 0
  | v => convElem 1 0 (round32 (addVal v (negVal (val32 (BitVec.ofNat 32 (x.toNat / 2 ^ 16 * 2 ^ 16))))))

/-! ### The Hinge (R139, R140) -/

/-- Element bits of a transposed tile: line and position exchanged. -/
def hingeElem (rd : Nat → Byte) (sd t q p : Nat) : Nat := elemAt rd sd t p q

/-- Values of one re-blocked block of the transposed tile: `n` elements from (q, p) along DIR. -/
def hingeVals (rd : Nat → Byte) (sd td t q p n : Nat) : List Val :=
  (List.range n).map fun i =>
    if dDir td = 0 then tileVal rd sd t (p + i) q else tileVal rd sd t p (q + i)

/-- Byte string of a bit stream of elements `w` bits wide (R126); the bits that fill its last byte are 0. -/
def packElems (w : Nat) (es : List Nat) : List Byte :=
  leBytes (ceilDiv (es.length * w) 8) (es.foldr (fun e acc => acc * 2 ^ w + e % 2 ^ w) 0)

/-- The same behind `off` bits of 0. -/
def packBits (off w : Nat) (es : List Nat) : List Byte :=
  leBytes (ceilDiv (off + es.length * w) 8) (2 ^ off * es.foldr (fun e acc => acc * 2 ^ w + e % 2 ^ w) 0)

/-- A descriptor with RND = RNE, as re-blocking quantises whatever the target names (R140). -/
def rneDesc (d : Nat) : Nat := d - dRnd d * 2 ^ 10

/-- A transposed tile (R139): bits moved, or re-blocked under the target descriptor (R140). -/
def hingeTile (rd : Nat → Byte) (sd tgt t : Nat) : List Byte :=
  let td := rneDesc tgt
  if dBlock sd = 0 then
    packElems (elemWidth sd)
      ((List.range 32).flatMap fun q => (List.range 32).map fun p => hingeElem rd sd t q p)
  else
    let b := blockSize td
    let n := 32 / b
    if b = 0 ∨ b > 32 then
      (List.range (tileBytes sd)).map fun i => BitVec.ofNat 8 (Config.reservedOut td (BitVec.ofNat 32 i)).toNat
    else
      -- block (x, j): line x, part j along the line, or position x, part j down the lines
      let blocks := (List.range 32).map fun x => (List.range n).map fun j =>
        if dDir td = 0 then quantBlock td (List.replicate b 0) (hingeVals rd sd td t x (j * b) b)
        else quantBlock td (List.replicate b 0) (hingeVals rd sd td t (j * b) x b)
      let elem := fun (q p : Nat) =>
        if dDir td = 0 then (((blocks.getD q []).getD (p / b) (0, [])).2).getD (p % b) 0
        else (((blocks.getD p []).getD (q / b) (0, [])).2).getD (q % b) 0
      let els := packElems (elemWidth td)
        ((List.range 32).flatMap fun q => (List.range 32).map fun p => elem q p)
      let scs := blocks.flatMap fun l => l.map fun e => BitVec.ofNat 8 e.1
      els ++ scs ++ List.replicate (64 - scs.length) 0#8

/-! ### Draws (R135) -/

/-- The draw of a stochastically rounded element: bits [15:0] of word 0 (R135). -/
def srDraw (seed c0 c1 lcid step : Nat) : Nat :=
  philoxWord seed c0 (c1 % 2 ^ 32) (2 * 2 ^ 16 + lcid) step 0 % 2 ^ 16

end Sys2Proof.Machine
end

