-- ==== Sys2Proof/Machine/Regs.lean ====
section
/-! DEFINITION. The register fields and event bits of every page, with their places, widths, access
kinds, Kept marks and First power-on values (the register tables of every chapter; the pages of
Table 15.8; R395, R400, R413). A field is named R.<register>.<field>; the fields of a repeated
block take the instance (die d, edge e, stack k, port p, function f, requester r) and an indexed
register takes its index n. Register sets that exist once per requester or function (PG_EVT_EN,
CORE_WIN, PLAN; R408, R115, R183) stand at page number + requester × 0x1000. Words that show a
selected entry of hidden state (DIE_SPARE_DATA, BU_LINK_DATA, FLT_LOG_DATA, ATTIC_HIST_DATA,
HALL_ROUTE_DATA) are computed where they are read. -/

namespace Sys2Proof.Machine

/-- Access kinds (00_scope, R6). -/
inductive Acc where
  | ro | rw | rwd | cmd | evt
  deriving DecidableEq, Repr

/-- One register field: page, byte offset, lowest bit, width, First power-on value, access, Kept. -/
structure Fld where
  page : Nat
  off : Nat
  lo : Nat
  width : Nat
  por : Nat
  acc : Acc
  kept : Bool
  deriving DecidableEq, Repr

/-- One event bit of a page. -/
structure Ev where
  page : Nat
  bit : Nat
  deriving DecidableEq, Repr

/-- The key of a field in the register store: one number per page, offset and lowest bit. -/
def fldKey (f : Fld) : Nat := f.page * 2 ^ 17 + f.off * 32 + f.lo

/-! ### HDR (15 Table 15.3) -/

def R.PG_ID.PAGE (pg : Nat) : Fld := ⟨pg, 0x0, 0, 12, pg % 2 ^ 12, .ro, false⟩
def R.PG_ID.REV (pg : Nat) : Fld := ⟨pg, 0x0, 16, 8, 1, .ro, false⟩
def R.PG_ID.PRESENT (pg : Nat) : Fld := ⟨pg, 0x0, 31, 1, 1, .ro, false⟩
def R.PG_CTL.EN (pg : Nat) : Fld := ⟨pg, 0x4, 0, 1, 0, .rw, false⟩
def R.PG_STA.ENABLED (pg : Nat) : Fld := ⟨pg, 0x8, 0, 1, 0, .ro, false⟩
def R.PG_STA.WBUSY (pg : Nat) : Fld := ⟨pg, 0x8, 1, 1, 0, .ro, false⟩
def R.PG_STA.CFG_REJECT (pg : Nat) : Fld := ⟨pg, 0x8, 2, 1, 0, .ro, false⟩
def R.PG_STA.FENCED (pg : Nat) : Fld := ⟨pg, 0x8, 3, 1, 0, .ro, false⟩
def R.PG_STA.ZEROING (pg : Nat) : Fld := ⟨pg, 0x8, 4, 1, 0, .ro, false⟩
def R.PG_STA.ACK_STALE (pg : Nat) : Fld := ⟨pg, 0x8, 5, 1, 0, .ro, false⟩
def R.PG_EVT.EVT (pg : Nat) : Fld := ⟨pg, 0xc, 0, 16, 0, .evt, false⟩
def R.PG_EVT_SEQ.SEQ (pg : Nat) : Fld := ⟨pg, 0x10, 0, 16, 0, .ro, false⟩
def R.PG_EVT_SEQ.LAP (pg : Nat) : Fld := ⟨pg, 0x10, 16, 1, 0, .ro, false⟩
def R.PG_EVT_ACK.MASK (pg : Nat) : Fld := ⟨pg, 0x14, 0, 16, 0, .cmd, false⟩
def R.PG_EVT_ACK.SEQ (pg : Nat) : Fld := ⟨pg, 0x14, 16, 16, 0, .cmd, false⟩
def R.PG_EVT_EN.EN (pg : Nat) : Fld := ⟨pg, 0x18, 0, 16, 0, .rw, false⟩
def R.PG_CFGREJ_ADDR.OFFSET (pg : Nat) : Fld := ⟨pg, 0x1c, 0, 12, 0, .ro, false⟩
def R.PG_CFGREJ_ADDR.VIEW (pg : Nat) : Fld := ⟨pg, 0x1c, 12, 2, 0, .ro, false⟩
def R.PG_CFGREJ_ADDR.PF (pg : Nat) : Fld := ⟨pg, 0x1c, 16, 2, 0, .ro, false⟩
def R.PG_CFGREJ_ADDR.SMB (pg : Nat) : Fld := ⟨pg, 0x1c, 18, 1, 0, .ro, false⟩

/-! ### TOP (15 Table 15.5) -/

def R.TOP_NUMID_LO.GUARD : Fld := ⟨0x0, 0x48, 0, 4, 3, .ro, false⟩
def R.TOP_NUMID_LO.SFT_VER : Fld := ⟨0x0, 0x48, 4, 8, 1, .ro, false⟩
def R.TOP_NUMID_LO.GEN_ALG : Fld := ⟨0x0, 0x48, 12, 4, 1, .ro, false⟩
def R.TOP_NUMID_LO.SR_WIDTH : Fld := ⟨0x0, 0x48, 16, 5, 16, .ro, false⟩
def R.TOP_NUMID_LO.ACC_REV : Fld := ⟨0x0, 0x48, 24, 4, 1, .ro, false⟩
def R.TOP_NUMID_HI.PANQ_REV : Fld := ⟨0x0, 0x4c, 0, 8, 1, .ro, false⟩
def R.TOP_NUMID_HI.RED_REV : Fld := ⟨0x0, 0x4c, 8, 8, 1, .ro, false⟩
def R.TOP_PART_ID.PART : Fld := ⟨0x0, 0x40, 0, 16, 0x4D34, .ro, false⟩
def R.TOP_PART_ID.GRADE : Fld := ⟨0x0, 0x40, 16, 8, 10, .ro, false⟩
def R.TOP_PART_ID.GUEST : Fld := ⟨0x0, 0x40, 24, 1, 0, .ro, false⟩
def R.TOP_STEPPING.LETTER : Fld := ⟨0x0, 0x44, 0, 8, 0x42, .ro, false⟩
def R.TOP_STEPPING.METAL : Fld := ⟨0x0, 0x44, 8, 8, 0, .ro, false⟩
def R.TOP_STEPPING.GUEST_REG : Fld := ⟨0x0, 0x44, 16, 10, 0, .ro, false⟩
def R.TOP_TIMID.GRADE : Fld := ⟨0x0, 0x50, 0, 8, 10, .ro, false⟩
def R.TOP_TIMID.MESH_REV : Fld := ⟨0x0, 0x50, 8, 8, 1, .ro, false⟩
def R.TOP_TIMID.GRAN : Fld := ⟨0x0, 0x50, 16, 8, 100, .ro, false⟩
def R.TOP_PKG_ID.ID : Fld := ⟨0x0, 0x54, 0, 12, 0, .rwd, true⟩
def R.TOP_MODE.BOOST : Fld := ⟨0x0, 0x58, 0, 1, 0, .rwd, true⟩
def R.TOP_STATE.STATE : Fld := ⟨0x0, 0x5c, 0, 3, 0, .ro, false⟩
def R.TOP_VARIANCE_CNT.COUNT : Fld := ⟨0x0, 0x60, 0, 32, 0, .ro, false⟩
def R.TOP_RESET_CMD.RESET : Fld := ⟨0x0, 0x64, 0, 1, 0, .cmd, false⟩
def R.TOP_RESET_CMD.KEY : Fld := ⟨0x0, 0x64, 16, 16, 0, .cmd, false⟩

/-! ### ATTIC (13 Table 13.10) -/

def R.ATTIC_EPOCH.EPOCH : Fld := ⟨0x1, 0x40, 0, 32, 0, .ro, false⟩
def R.ATTIC_CMD.SYNC : Fld := ⟨0x1, 0x44, 0, 1, 0, .cmd, false⟩
def R.ATTIC_CMD.CLEAR_SETTINGS : Fld := ⟨0x1, 0x44, 1, 1, 0, .cmd, false⟩
def R.ATTIC_STA.PENDING : Fld := ⟨0x1, 0x48, 0, 1, 0, .ro, false⟩
def R.ATTIC_STA.QUEUE : Fld := ⟨0x1, 0x48, 8, 16, 0, .ro, false⟩
def R.ATTIC_STA.EPOCH_SAT : Fld := ⟨0x1, 0x48, 24, 1, 0, .ro, false⟩
def R.ATTIC_HIST_PTR.ID : Fld := ⟨0x1, 0x4c, 0, 16, 0, .rw, false⟩
def R.ATTIC_HIST_PTR.UNIT : Fld := ⟨0x1, 0x4c, 16, 4, 0, .rw, false⟩
def R.ATTIC_HIST_PTR.WORD : Fld := ⟨0x1, 0x4c, 20, 2, 0, .rw, false⟩
def R.ATTIC_RESTORE_STA.DONE : Fld := ⟨0x1, 0x54, 0, 1, 0, .ro, false⟩
def R.ATTIC_RESTORE_STA.FIRST : Fld := ⟨0x1, 0x54, 1, 1, 0, .ro, false⟩
def R.ATTIC_RESTORE_STA.DEFAULTED : Fld := ⟨0x1, 0x54, 2, 1, 0, .ro, false⟩
def R.ATTIC_RESTORE_STA.REPAIRED : Fld := ⟨0x1, 0x54, 4, 12, 0, .ro, false⟩
def R.ATTIC_RESTORE_STA.LOST : Fld := ⟨0x1, 0x54, 16, 12, 0, .ro, false⟩
def R.ATTIC_POWERED.SECONDS : Fld := ⟨0x1, 0x58, 0, 32, 0, .ro, false⟩

/-! ### BRINGUP (13 Table 13.8) -/

def R.BU_PHASE.PHASE : Fld := ⟨0x2, 0x40, 0, 4, 0, .ro, false⟩
def R.BU_PHASE.COLD : Fld := ⟨0x2, 0x40, 8, 1, 0, .ro, false⟩
def R.BU_PHASE.STOP : Fld := ⟨0x2, 0x40, 12, 4, 0xF, .ro, false⟩
def R.BU_PHASE.REASON : Fld := ⟨0x2, 0x40, 16, 8, 0, .ro, false⟩
def R.BU_MODE.COLD_NEXT : Fld := ⟨0x2, 0x44, 0, 1, 0, .cmd, false⟩
def R.BU_MODE.WHY : Fld := ⟨0x2, 0x44, 8, 3, 0, .ro, false⟩
def R.BU_TIME_US.TIME : Fld := ⟨0x2, 0x48, 0, 32, 0, .ro, false⟩
def R.BU_LINK_PTR.KIND : Fld := ⟨0x2, 0x4c, 0, 2, 0, .rw, false⟩
def R.BU_LINK_PTR.INDEX : Fld := ⟨0x2, 0x4c, 2, 8, 0, .rw, false⟩
def R.BU_LINK_PTR.WORD : Fld := ⟨0x2, 0x4c, 10, 2, 0, .rw, false⟩

/-! ### TICK (01 Tables 1.5 to 1.10) -/

def R.TICK_COUNT_LO.COUNT : Fld := ⟨0x3, 0x40, 0, 32, 0, .ro, false⟩
def R.TICK_COUNT_HI.COUNT : Fld := ⟨0x3, 0x44, 0, 32, 0, .ro, false⟩
def R.TICK_LAUNCH_LO.LAUNCH : Fld := ⟨0x3, 0x54, 0, 32, 0, .rwd, false⟩
def R.TICK_LAUNCH_HI.LAUNCH : Fld := ⟨0x3, 0x58, 0, 32, 0, .rwd, false⟩
def R.TICK_LEN.LEN : Fld := ⟨0x3, 0x48, 0, 16, 10000, .rwd, true⟩
def R.TICK_GUARD.GUARD : Fld := ⟨0x3, 0x4c, 0, 16, 2000, .rwd, true⟩
def R.TICK_STRETCH_Q.Q : Fld := ⟨0x3, 0x5c, 0, 16, 2000, .rwd, true⟩
def R.TICK_STRETCH_MAX.MAX : Fld := ⟨0x3, 0x60, 0, 4, 8, .rwd, true⟩
def R.TICK_ROOT.ROOT : Fld := ⟨0x3, 0x70, 0, 12, 0, .rwd, true⟩
def R.TICK_NUM.NUM : Fld := ⟨0x3, 0x50, 0, 24, 0, .ro, false⟩
def R.TICK_NUM.RUN : Fld := ⟨0x3, 0x50, 31, 1, 0, .ro, false⟩
def R.TICK_STRETCH_CNT.CUR : Fld := ⟨0x3, 0x64, 0, 4, 0, .ro, false⟩
def R.TICK_STRETCH_CNT.VOIDED : Fld := ⟨0x3, 0x64, 4, 1, 0, .ro, false⟩
def R.TICK_STRETCH_CNT.TOTAL : Fld := ⟨0x3, 0x64, 8, 24, 0, .ro, false⟩
def R.TICK_JOB_LO.JOB : Fld := ⟨0x3, 0x78, 0, 32, 0, .ro, false⟩
def R.TICK_JOB_HI.JOB : Fld := ⟨0x3, 0x7c, 0, 16, 0, .ro, false⟩
def R.TICK_OVR_SRC.PKG : Fld := ⟨0x3, 0x68, 0, 12, 0, .ro, false⟩
def R.TICK_OVR_SRC.CAUSE : Fld := ⟨0x3, 0x68, 12, 4, 0, .ro, false⟩
def R.TICK_OVR_SRC.VALID : Fld := ⟨0x3, 0x68, 16, 1, 0, .ro, false⟩
def R.TICK_OFFSET.OFFSET : Fld := ⟨0x3, 0x6c, 0, 32, 0, .ro, false⟩
def R.TICK_SYNC_STA.LOCK : Fld := ⟨0x3, 0x74, 0, 1, 0, .ro, false⟩
def R.TICK_SYNC_STA.HOPS : Fld := ⟨0x3, 0x74, 1, 3, 0, .ro, false⟩
def R.TICK_SYNC_STA.RESID : Fld := ⟨0x3, 0x74, 8, 8, 0, .ro, false⟩
def R.TICK_SYNC_STA.MISSED : Fld := ⟨0x3, 0x74, 16, 5, 0, .ro, false⟩

/-! ### HEARTH (12 Table 12.5) -/

def R.HTH_CAP_W.CAP : Fld := ⟨0x4, 0x40, 0, 13, 5000, .rwd, true⟩
def R.HTH_BOOST_EN.DIE : Fld := ⟨0x4, 0x44, 0, 4, 0xF, .rwd, true⟩
def R.HTH_BOOST_EN.LEND : Fld := ⟨0x4, 0x44, 8, 1, 1, .rwd, true⟩
def R.HTH_LEND_WAIT.WAIT : Fld := ⟨0x4, 0x48, 0, 16, 2048, .rwd, true⟩
def R.HTH_RAMP_LIMIT.RAMP : Fld := ⟨0x4, 0x4c, 0, 8, 40, .rwd, true⟩
def R.HTH_BALLAST.EN : Fld := ⟨0x4, 0x50, 0, 1, 1, .rwd, true⟩
def R.HTH_BALLAST.HOLD : Fld := ⟨0x4, 0x50, 1, 1, 1, .rwd, true⟩
def R.HTH_BALLAST.SHARE : Fld := ⟨0x4, 0x50, 8, 8, 0, .ro, false⟩
def R.HTH_BALLAST.LEVEL : Fld := ⟨0x4, 0x50, 16, 16, 0, .ro, false⟩
def R.HTH_TJ_MAX.TJMAX : Fld := ⟨0x4, 0x54, 0, 8, 100, .rwd, true⟩
def R.HTH_TJ_MAX.HOTTEST : Fld := ⟨0x4, 0x54, 16, 8, 0, .ro, false⟩
def R.HTH_TJ_MAX.PEAK : Fld := ⟨0x4, 0x54, 24, 8, 0, .ro, false⟩
def R.HTH_TRIP_STA.TRIPPED : Fld := ⟨0x4, 0x58, 0, 1, 0, .ro, false⟩
def R.HTH_TRIP_STA.SITE : Fld := ⟨0x4, 0x58, 1, 3, 0, .ro, false⟩
def R.HTH_TRIP_STA.TJ : Fld := ⟨0x4, 0x58, 8, 8, 0, .ro, false⟩
def R.HTH_TRIP_STA.PREV : Fld := ⟨0x4, 0x58, 16, 4, 0, .ro, true⟩
def R.HTH_COOLANT_STA.CHECKED : Fld := ⟨0x4, 0x5c, 0, 1, 0, .ro, false⟩
def R.HTH_COOLANT_STA.REVERSED : Fld := ⟨0x4, 0x5c, 1, 1, 0, .ro, false⟩
def R.HTH_COOLANT_STA.FLOW_LOW : Fld := ⟨0x4, 0x5c, 2, 1, 0, .ro, false⟩
def R.HTH_COOLANT_STA.INLET_HOT : Fld := ⟨0x4, 0x5c, 3, 1, 0, .ro, false⟩
def R.HTH_COOLANT_STA.INLET_COLD : Fld := ⟨0x4, 0x5c, 4, 1, 0, .ro, false⟩
def R.HTH_COOLANT_STA.LEAK : Fld := ⟨0x4, 0x5c, 5, 1, 0, .ro, false⟩
def R.HTH_COOLANT_STA.FALLBACK : Fld := ⟨0x4, 0x5c, 6, 1, 0, .ro, false⟩
def R.HTH_COOLANT_STA.BUSFLOW : Fld := ⟨0x4, 0x5c, 7, 1, 0, .ro, false⟩
def R.HTH_COOLANT_STA.FLOW : Fld := ⟨0x4, 0x5c, 16, 8, 0, .ro, false⟩
def R.HTH_COOLANT_CTL.FLUID : Fld := ⟨0x4, 0x60, 0, 1, 1, .rwd, true⟩
def R.HTH_COOLANT_T.INLET : Fld := ⟨0x4, 0x64, 0, 16, 0, .ro, false⟩
def R.HTH_COOLANT_T.OUTLET : Fld := ⟨0x4, 0x64, 16, 16, 0, .ro, false⟩
def R.HTH_POWER_W.AVG : Fld := ⟨0x4, 0x68, 0, 16, 0, .ro, false⟩
def R.HTH_POWER_W.PEAK : Fld := ⟨0x4, 0x68, 16, 16, 0, .ro, false⟩
def R.HTH_VIN.VOLT : Fld := ⟨0x4, 0x6c, 0, 16, 0, .ro, false⟩
def R.HTH_VIN.AMP : Fld := ⟨0x4, 0x6c, 16, 16, 0, .ro, false⟩
def R.HTH_LIMIT.COUNT : Fld := ⟨0x4, 0x70, 0, 16, 0, .ro, false⟩
def R.HTH_LIMIT.CAUSE : Fld := ⟨0x4, 0x70, 16, 3, 0, .ro, false⟩
def R.HTH_LIMIT.DEPTH : Fld := ⟨0x4, 0x70, 20, 3, 0, .ro, false⟩
def R.HTH_CLK.DIE0 : Fld := ⟨0x4, 0x74, 0, 8, 0, .ro, false⟩
def R.HTH_CLK.DIE1 : Fld := ⟨0x4, 0x74, 8, 8, 0, .ro, false⟩
def R.HTH_CLK.DIE2 : Fld := ⟨0x4, 0x74, 16, 8, 0, .ro, false⟩
def R.HTH_CLK.DIE3 : Fld := ⟨0x4, 0x74, 24, 8, 0, .ro, false⟩
def R.HTH_CAP_EFF.CAP : Fld := ⟨0x4, 0x78, 0, 13, 0, .ro, false⟩
def R.HTH_CAP_EFF.BY : Fld := ⟨0x4, 0x78, 16, 3, 0, .ro, false⟩
def R.HTH_TICK_E.E : Fld := ⟨0x4, 0x7c, 0, 24, 0, .ro, false⟩

/-! ### FAULT (11 Table 11.10) -/

def R.FLT_LOG_HEAD.SEQ : Fld := ⟨0x5, 0x40, 0, 16, 0, .ro, false⟩
def R.FLT_LOG_HEAD.LAP : Fld := ⟨0x5, 0x40, 16, 1, 0, .ro, false⟩
def R.FLT_LOG_PTR.SEQ : Fld := ⟨0x5, 0x44, 0, 16, 0, .rw, false⟩
def R.FLT_LOG_PTR.WORD : Fld := ⟨0x5, 0x44, 16, 3, 0, .rw, false⟩
def R.FLT_FENCE_MAP.DIE : Fld := ⟨0x5, 0x4c, 0, 4, 0, .ro, false⟩
def R.FLT_FENCE_MAP.STACK : Fld := ⟨0x5, 0x4c, 4, 12, 0, .ro, false⟩
def R.FLT_FENCE_MAP.REDUCE : Fld := ⟨0x5, 0x4c, 16, 1, 0, .ro, false⟩
def R.FLT_FENCE_MAP.HUB : Fld := ⟨0x5, 0x4c, 17, 1, 0, .ro, false⟩
def R.FLT_FENCE_MAP.GUEST : Fld := ⟨0x5, 0x4c, 18, 1, 0, .ro, false⟩
def R.FLT_FENCE_MAP.PORT : Fld := ⟨0x5, 0x4c, 19, 1, 0, .ro, false⟩
def R.FLT_REPLAY_CNT.TX : Fld := ⟨0x5, 0x50, 0, 16, 0, .ro, false⟩
def R.FLT_REPLAY_CNT.RX : Fld := ⟨0x5, 0x50, 16, 16, 0, .ro, false⟩
def R.FLT_DRAIN_CMD.TICK : Fld := ⟨0x5, 0x54, 0, 24, 0, .rw, false⟩
def R.FLT_DRAIN_CMD.AT_TICK : Fld := ⟨0x5, 0x54, 24, 1, 0, .rw, false⟩
def R.FLT_DRAIN_CMD.RELEASE : Fld := ⟨0x5, 0x54, 28, 1, 0, .cmd, false⟩
def R.FLT_DRAIN_CMD.DRAIN : Fld := ⟨0x5, 0x54, 31, 1, 0, .cmd, false⟩
def R.FLT_SUSPECT.SUSPECT : Fld := ⟨0x5, 0x58, 0, 1, 0, .ro, true⟩
def R.FLT_SUSPECT.FLAGGED : Fld := ⟨0x5, 0x58, 1, 1, 0, .ro, false⟩
def R.FLT_SUSPECT.CAUSE : Fld := ⟨0x5, 0x58, 4, 4, 0, .ro, false⟩
def R.FLT_SUSPECT.LOGSEQ : Fld := ⟨0x5, 0x58, 16, 16, 0, .ro, false⟩
def R.FLT_LOCKSTEP_CTL.EN : Fld := ⟨0x5, 0x5c, 0, 1, 0, .rwd, false⟩
def R.FLT_LOCKSTEP_STA.ACTIVE : Fld := ⟨0x5, 0x60, 0, 1, 0, .ro, false⟩
def R.FLT_LOCKSTEP_STA.MISMATCH : Fld := ⟨0x5, 0x60, 1, 1, 0, .ro, false⟩
def R.FLT_LOCKSTEP_STA.LATE : Fld := ⟨0x5, 0x60, 2, 1, 0, .ro, false⟩
def R.FLT_LOCKSTEP_STA.DIE : Fld := ⟨0x5, 0x60, 4, 2, 0, .ro, false⟩
def R.FLT_LOCKSTEP_STA.GROUP : Fld := ⟨0x5, 0x60, 8, 7, 0, .ro, false⟩
def R.FLT_LOCKSTEP_TICK.TICK : Fld := ⟨0x5, 0x64, 0, 24, 0, .ro, false⟩
def R.FLT_STA.PERM_PENDING : Fld := ⟨0x5, 0x68, 0, 1, 0, .ro, false⟩
def R.FLT_STA.DRAINED : Fld := ⟨0x5, 0x68, 1, 1, 0, .ro, false⟩
def R.FLT_STA.PENDING : Fld := ⟨0x5, 0x68, 8, 8, 0, .ro, false⟩

/-! ### PART (14 Table 14.5) -/

def R.PART_CORES.DIES (n : Nat) : Fld := ⟨0x6, 0x40 + 0x10 * n, 0, 4, if n = 0 then 0xF else 0, .rwd, true⟩
def R.PART_CORES.ROW0 (n : Nat) : Fld := ⟨0x6, 0x40 + 0x10 * n, 4, 7, 0, .rwd, true⟩
def R.PART_CORES.ROW1 (n : Nat) : Fld := ⟨0x6, 0x40 + 0x10 * n, 11, 7, if n = 0 then 79 else 0, .rwd, true⟩
def R.PART_CORES.COL0 (n : Nat) : Fld := ⟨0x6, 0x40 + 0x10 * n, 18, 7, 0, .rwd, true⟩
def R.PART_CORES.COL1 (n : Nat) : Fld := ⟨0x6, 0x40 + 0x10 * n, 25, 7, if n = 0 then 79 else 0, .rwd, true⟩
def R.PART_MEM.REGIONS (n : Nat) : Fld := ⟨0x6, 0x44 + 0x10 * n, 0, 12, if n = 0 then 3072 else 0, .ro, false⟩
def R.PART_MEM.LAND (n : Nat) : Fld := ⟨0x6, 0x44 + 0x10 * n, 16, 10, 0, .rwd, true⟩
def R.PART_REG.EN (n : Nat) : Fld := ⟨0x6, 0x48 + 0x10 * n, 0, 1, 0, .rwd, true⟩
def R.PART_REG.FILLER (n : Nat) : Fld := ⟨0x6, 0x48 + 0x10 * n, 1, 1, 0, .rwd, true⟩
def R.PART_REG.BANKS (n : Nat) : Fld := ⟨0x6, 0x48 + 0x10 * n, 8, 8, 0, .rwd, true⟩
def R.PART_FAB.FIRST (n : Nat) : Fld := ⟨0x6, 0x4c + 0x10 * n, 0, 14, 0, .rwd, true⟩
def R.PART_FAB.COUNT (n : Nat) : Fld := ⟨0x6, 0x4c + 0x10 * n, 16, 14, 0, .rwd, true⟩
def R.PART_OWNER_CMD.FIRST : Fld := ⟨0x6, 0x80, 0, 12, 0, .rw, false⟩
def R.PART_OWNER_CMD.COUNT : Fld := ⟨0x6, 0x80, 12, 12, 0, .rw, false⟩
def R.PART_OWNER_CMD.TO : Fld := ⟨0x6, 0x80, 24, 3, 0, .rw, false⟩
def R.PART_OWNER_CMD.GO : Fld := ⟨0x6, 0x80, 31, 1, 0, .cmd, false⟩
def R.PART_ZERO_STA.CORES : Fld := ⟨0x6, 0x84, 0, 1, 0, .ro, false⟩
def R.PART_ZERO_STA.REGIONS : Fld := ⟨0x6, 0x84, 1, 1, 0, .ro, false⟩
def R.PART_ZERO_STA.LANDING : Fld := ⟨0x6, 0x84, 2, 1, 0, .ro, false⟩
def R.PART_ZERO_STA.REGIONS_LEFT : Fld := ⟨0x6, 0x84, 16, 12, 0, .ro, false⟩
def R.PART_RUN.PART : Fld := ⟨0x6, 0x88, 0, 2, 0, .rw, false⟩
def R.PART_RUN.STOP : Fld := ⟨0x6, 0x88, 2, 1, 0, .cmd, false⟩
def R.PART_RUN.START : Fld := ⟨0x6, 0x88, 3, 1, 0, .cmd, false⟩
def R.PART_RUN.TICK : Fld := ⟨0x6, 0x88, 4, 24, 0, .rw, false⟩
def R.PART_RUN_STA.RUN (n : Nat) : Fld := ⟨0x6, 0x8c, 8 * n, 1, 0, .ro, false⟩
def R.PART_RUN_STA.PENDING (n : Nat) : Fld := ⟨0x6, 0x8c, 8 * n + 1, 1, 0, .ro, false⟩
def R.PART_RUN_STA.CAUSE (n : Nat) : Fld := ⟨0x6, 0x8c, 8 * n + 2, 3, 0, .ro, false⟩

/-! ### DIE (02 Table 2.8) -/

def R.DIE_SPARE_PTR.ROW (d : Nat) : Fld := ⟨0x08 + d, 0x40, 0, 7, 0, .rw, false⟩
def R.DIE_DEADLOCK_WIN.WIN (d : Nat) : Fld := ⟨0x08 + d, 0x48, 0, 16, 4096, .rwd, true⟩
def R.DIE_DEADLOCK_STA.WHOLE (d : Nat) : Fld := ⟨0x08 + d, 0x4c, 0, 1, 0, .ro, false⟩
def R.DIE_DEADLOCK_STA.CORES (d : Nat) : Fld := ⟨0x08 + d, 0x4c, 16, 16, 0, .ro, false⟩
def R.DIE_TEMP.TEMP (d : Nat) : Fld := ⟨0x08 + d, 0x50, 0, 16, 0, .ro, false⟩
def R.DIE_TEMP.PEAK (d : Nat) : Fld := ⟨0x08 + d, 0x50, 16, 16, 0, .ro, false⟩
def R.DIE_MAP_STA.LOADED (d : Nat) : Fld := ⟨0x08 + d, 0x54, 0, 1, 0, .ro, false⟩
def R.DIE_MAP_STA.MAXBAD (d : Nat) : Fld := ⟨0x08 + d, 0x54, 1, 3, 0, .ro, false⟩
def R.DIE_MAP_STA.TOTAL (d : Nat) : Fld := ⟨0x08 + d, 0x54, 8, 9, 0, .ro, false⟩

/-! ### EDGE (02 Table 2.10) -/

def R.EDGE_ROLE_LO.ROLE (e : Nat) : Fld := ⟨0x10 + e, 0x40, 0, 32, 0, .ro, false⟩
def R.EDGE_ROLE_HI.ROLE (e : Nat) : Fld := ⟨0x10 + e, 0x44, 0, 16, 0, .ro, false⟩
def R.EDGE_FAIL.FAILED (e : Nat) : Fld := ⟨0x10 + e, 0x48, 0, 24, 0, .ro, false⟩
def R.EDGE_BER.SEL (e : Nat) : Fld := ⟨0x10 + e, 0x4c, 0, 5, 0, .rw, false⟩
def R.EDGE_BER.RESENDS (e : Nat) : Fld := ⟨0x10 + e, 0x4c, 8, 8, 0, .ro, false⟩
def R.EDGE_BER.BEYOND (e : Nat) : Fld := ⟨0x10 + e, 0x4c, 16, 8, 0, .ro, false⟩
def R.EDGE_BER.P5_ERR (e : Nat) : Fld := ⟨0x10 + e, 0x4c, 24, 8, 0, .ro, false⟩
def R.EDGE_LAT.NBR (e : Nat) : Fld := ⟨0x10 + e, 0x50, 0, 8, 72, .ro, false⟩
def R.EDGE_LAT.DIAG (e : Nat) : Fld := ⟨0x10 + e, 0x50, 8, 8, 96, .ro, false⟩
def R.EDGE_LAT.HUB (e : Nat) : Fld := ⟨0x10 + e, 0x50, 16, 8, 48, .ro, false⟩
def R.EDGE_LAT.SLACK_MIN (e : Nat) : Fld := ⟨0x10 + e, 0x50, 24, 8, 0, .ro, false⟩

/-! ### HALL (09 Table 9.7) -/

def R.HALL_PORTMAP.D0 : Fld := ⟨0x18, 0x40, 0, 5, 1, .rwd, true⟩
def R.HALL_PORTMAP.D1 : Fld := ⟨0x18, 0x40, 5, 5, 1, .rwd, true⟩
def R.HALL_PORTMAP.D2 : Fld := ⟨0x18, 0x40, 10, 5, 1, .rwd, true⟩
def R.HALL_PORTMAP.USED : Fld := ⟨0x18, 0x40, 16, 6, 0, .ro, false⟩
def R.HALL_ROUTE_PTR.ENTRY : Fld := ⟨0x18, 0x44, 0, 18, 0, .rw, false⟩
def R.HALL_ROUTE_PTR.WORD : Fld := ⟨0x18, 0x44, 18, 2, 0, .rw, false⟩
def R.HALL_ROUTE_STA.COUNT : Fld := ⟨0x18, 0x4c, 0, 19, 0, .ro, false⟩
def R.HALL_LAND_USE.CUR : Fld := ⟨0x18, 0x50, 0, 16, 0, .ro, false⟩
def R.HALL_LAND_USE.PEAK : Fld := ⟨0x18, 0x50, 16, 16, 0, .ro, false⟩
def R.HALL_LAND_ERR.LATE : Fld := ⟨0x18, 0x54, 0, 8, 0, .ro, false⟩
def R.HALL_LAND_ERR.DUP : Fld := ⟨0x18, 0x54, 8, 8, 0, .ro, false⟩
def R.HALL_LAND_ERR.MISROUTE : Fld := ⟨0x18, 0x54, 16, 8, 0, .ro, false⟩
def R.HALL_LAND_ERR.VOIDDROP : Fld := ⟨0x18, 0x54, 24, 8, 0, .ro, false⟩

/-! ### REDUCE (10 Table 10.5) -/

def R.RED_ALLOT.UNITS (n : Nat) : Fld := ⟨0x19, 0x40 + 0x4 * n, 0, 11, if n = 0 then 1024 else 0, .rwd, true⟩
def R.RED_ALLOT.LANES (n : Nat) : Fld := ⟨0x19, 0x40 + 0x4 * n, 16, 4, if n = 0 then 8 else 0, .rwd, true⟩
def R.RED_SEG_MAX.MAX : Fld := ⟨0x19, 0x50, 0, 18, 131072, .ro, false⟩
def R.RED_RESIDUE_ERR.COUNT : Fld := ⟨0x19, 0x54, 0, 16, 0, .ro, false⟩
def R.RED_RESIDUE_ERR.CTX : Fld := ⟨0x19, 0x54, 16, 3, 0, .ro, false⟩
def R.RED_RESIDUE_ERR.PART : Fld := ⟨0x19, 0x54, 19, 2, 0, .ro, false⟩
def R.RED_RESIDUE_ERR.EXP : Fld := ⟨0x19, 0x54, 21, 1, 0, .ro, false⟩
def R.RED_RESIDUE_ERR.VALID : Fld := ⟨0x19, 0x54, 31, 1, 0, .ro, false⟩
def R.RED_SAT.COUNT : Fld := ⟨0x19, 0x58, 0, 16, 0, .ro, false⟩
def R.RED_SAT.CTX : Fld := ⟨0x19, 0x58, 16, 3, 0, .ro, false⟩
def R.RED_SAT.PART : Fld := ⟨0x19, 0x58, 19, 2, 0, .ro, false⟩
def R.RED_LOAD.LAST : Fld := ⟨0x19, 0x5c, 0, 16, 0, .ro, false⟩
def R.RED_LOAD.PEAK : Fld := ⟨0x19, 0x5c, 16, 16, 0, .ro, false⟩

/-! ### PORCH (09 Table 9.9) -/

def R.PORT_STA.UP (p : Nat) : Fld := ⟨0x20 + p / 4, 0x40 + 0x20 * (p % 4), 0, 1, 0, .ro, false⟩
def R.PORT_STA.USABLE (p : Nat) : Fld := ⟨0x20 + p / 4, 0x40 + 0x20 * (p % 4), 1, 1, 0, .ro, false⟩
def R.PORT_STA.ACTIVE (p : Nat) : Fld := ⟨0x20 + p / 4, 0x40 + 0x20 * (p % 4), 2, 1, 0, .ro, false⟩
def R.PORT_STA.DOWN (p : Nat) : Fld := ⟨0x20 + p / 4, 0x40 + 0x20 * (p % 4), 3, 1, 0, .ro, false⟩
def R.PORT_STA.REBOUND (p : Nat) : Fld := ⟨0x20 + p / 4, 0x40 + 0x20 * (p % 4), 4, 1, 0, .ro, false⟩
def R.PORT_STA.FAULT (p : Nat) : Fld := ⟨0x20 + p / 4, 0x40 + 0x20 * (p % 4), 5, 3, 0, .ro, false⟩
def R.PORT_STA.NOWFOR (p : Nat) : Fld := ⟨0x20 + p / 4, 0x40 + 0x20 * (p % 4), 8, 6, 0, .ro, false⟩
def R.PORT_STA.FLIGHT (p : Nat) : Fld := ⟨0x20 + p / 4, 0x40 + 0x20 * (p % 4), 16, 8, 0, .ro, false⟩
def R.PORT_BIND.ROLE (p : Nat) : Fld := ⟨0x20 + p / 4, 0x44 + 0x20 * (p % 4), 0, 2, 0, .rwd, true⟩
def R.PORT_BIND.DIM (p : Nat) : Fld := ⟨0x20 + p / 4, 0x44 + 0x20 * (p % 4), 2, 2, 0, .rwd, true⟩
def R.PORT_BIND.PEERC (p : Nat) : Fld := ⟨0x20 + p / 4, 0x44 + 0x20 * (p % 4), 4, 4, 0, .rwd, true⟩
def R.PORT_BIND.DUPOF (p : Nat) : Fld := ⟨0x20 + p / 4, 0x44 + 0x20 * (p % 4), 8, 6, 0, .rwd, true⟩
def R.PORT_PEER_ID.PKG (p : Nat) : Fld := ⟨0x20 + p / 4, 0x48 + 0x20 * (p % 4), 0, 12, 0, .ro, false⟩
def R.PORT_PEER_ID.PORT (p : Nat) : Fld := ⟨0x20 + p / 4, 0x48 + 0x20 * (p % 4), 12, 6, 0, .ro, false⟩
def R.PORT_PEER_ID.ROLE (p : Nat) : Fld := ⟨0x20 + p / 4, 0x48 + 0x20 * (p % 4), 18, 2, 0, .ro, false⟩
def R.PORT_PEER_ID.VALID (p : Nat) : Fld := ⟨0x20 + p / 4, 0x48 + 0x20 * (p % 4), 31, 1, 0, .ro, false⟩
def R.PORT_BER.CORR (p : Nat) : Fld := ⟨0x20 + p / 4, 0x4c + 0x20 * (p % 4), 0, 16, 0, .ro, false⟩
def R.PORT_BER.UNCORR (p : Nat) : Fld := ⟨0x20 + p / 4, 0x4c + 0x20 * (p % 4), 16, 8, 0, .ro, false⟩
def R.PORT_BER.CRCERR (p : Nat) : Fld := ⟨0x20 + p / 4, 0x4c + 0x20 * (p % 4), 24, 8, 0, .ro, false⟩
def R.PORT_REPLAY_CNT.REPLAYS (p : Nat) : Fld := ⟨0x20 + p / 4, 0x50 + 0x20 * (p % 4), 0, 16, 0, .ro, false⟩
def R.PORT_REPLAY_CNT.TIMEOUTS (p : Nat) : Fld := ⟨0x20 + p / 4, 0x50 + 0x20 * (p % 4), 16, 8, 0, .ro, false⟩
def R.PORT_REPLAY_CNT.RETRAINS (p : Nat) : Fld := ⟨0x20 + p / 4, 0x50 + 0x20 * (p % 4), 24, 4, 0, .ro, false⟩
def R.PORT_LASER.EN (p : Nat) : Fld := ⟨0x20 + p / 4, 0x54 + 0x20 * (p % 4), 0, 1, 1, .rw, true⟩
def R.PORT_LASER.ON (p : Nat) : Fld := ⟨0x20 + p / 4, 0x54 + 0x20 * (p % 4), 1, 1, 0, .ro, false⟩
def R.PORT_LASER.SAFE (p : Nat) : Fld := ⟨0x20 + p / 4, 0x54 + 0x20 * (p % 4), 2, 1, 0, .ro, false⟩
def R.PORT_LASER.TXPWR (p : Nat) : Fld := ⟨0x20 + p / 4, 0x54 + 0x20 * (p % 4), 8, 8, 0, .ro, false⟩

/-! ### STACK (07 Table 7.6) -/

def R.STK_CHAN_CLASS.CELLAR (k : Nat) : Fld := ⟨0x30 + k, 0x40, 0, 32, 0xF0000000, .rwd, true⟩
def R.STK_MAPOUT.MAPPED (k : Nat) : Fld := ⟨0x30 + k, 0x44, 0, 32, 0, .ro, false⟩
def R.STK_SPARE_LANES.SEL (k : Nat) : Fld := ⟨0x30 + k, 0x48, 0, 5, 0, .rw, false⟩
def R.STK_SPARE_LANES.DQ0 (k : Nat) : Fld := ⟨0x30 + k, 0x48, 8, 7, 0x7F, .ro, false⟩
def R.STK_SPARE_LANES.DQ1 (k : Nat) : Fld := ⟨0x30 + k, 0x48, 16, 7, 0x7F, .ro, false⟩
def R.STK_SPARE_LANES.CA (k : Nat) : Fld := ⟨0x30 + k, 0x48, 24, 4, 0xF, .ro, false⟩
def R.STK_SPARE_LANES.BEYOND (k : Nat) : Fld := ⟨0x30 + k, 0x48, 31, 1, 0, .ro, false⟩
def R.STK_REF_PHASE.PHASE (k : Nat) : Fld := ⟨0x30 + k, 0x4c, 0, 12, 0, .rwd, true⟩
def R.STK_REF_PHASE.STAGGER (k : Nat) : Fld := ⟨0x30 + k, 0x4c, 16, 12, 120, .rwd, true⟩
def R.STK_REF_STA.DEBT_MAX (k : Nat) : Fld := ⟨0x30 + k, 0x50, 0, 4, 0, .ro, false⟩
def R.STK_REF_STA.MAKEUPS (k : Nat) : Fld := ⟨0x30 + k, 0x50, 16, 16, 0, .ro, false⟩
def R.STK_RETRY_RESV.PERMILLE (k : Nat) : Fld := ⟨0x30 + k, 0x54, 0, 7, 20, .rwd, true⟩
def R.STK_RETRY_CNT.RETRIES (k : Nat) : Fld := ⟨0x30 + k, 0x58, 0, 16, 0, .ro, false⟩
def R.STK_RETRY_CNT.FAILED (k : Nat) : Fld := ⟨0x30 + k, 0x58, 16, 8, 0, .ro, false⟩
def R.STK_RETRY_CNT.LAST_CHAN (k : Nat) : Fld := ⟨0x30 + k, 0x58, 24, 5, 0, .ro, false⟩
def R.STK_MARGIN_CTL.CHAN (k : Nat) : Fld := ⟨0x30 + k, 0x5c, 0, 5, 0, .rw, false⟩
def R.STK_MARGIN_CTL.LANE (k : Nat) : Fld := ⟨0x30 + k, 0x5c, 5, 7, 0, .rw, false⟩
def R.STK_MARGIN_CTL.AXIS (k : Nat) : Fld := ⟨0x30 + k, 0x5c, 12, 1, 0, .rw, false⟩
def R.STK_MARGIN_CTL.START (k : Nat) : Fld := ⟨0x30 + k, 0x5c, 13, 1, 0, .cmd, false⟩
def R.STK_MARGIN_RES.LOW (k : Nat) : Fld := ⟨0x30 + k, 0x60, 0, 8, 0, .ro, false⟩
def R.STK_MARGIN_RES.HIGH (k : Nat) : Fld := ⟨0x30 + k, 0x60, 8, 8, 0, .ro, false⟩
def R.STK_MARGIN_RES.DONE (k : Nat) : Fld := ⟨0x30 + k, 0x60, 16, 1, 0, .ro, false⟩
def R.STK_MARGIN_RES.ABORTED (k : Nat) : Fld := ⟨0x30 + k, 0x60, 17, 1, 0, .ro, false⟩
def R.STK_MARGIN_RES.PASS (k : Nat) : Fld := ⟨0x30 + k, 0x60, 18, 1, 0, .ro, false⟩
def R.STK_REG.RATE (k : Nat) (n : Nat) : Fld := ⟨0x30 + k, 0x60 + 0x4 * n, 0, 16, 0, .rwd, true⟩
def R.STK_REG.BURST (k : Nat) (n : Nat) : Fld := ⟨0x30 + k, 0x60 + 0x4 * n, 16, 16, 0, .rwd, true⟩
def R.STK_SEC_WIN.START (k : Nat) : Fld := ⟨0x30 + k, 0x70, 0, 16, 0, .rwd, true⟩
def R.STK_SEC_WIN.LEN (k : Nat) : Fld := ⟨0x30 + k, 0x70, 16, 16, 0, .rwd, true⟩
def R.STK_TEMP.TEMP (k : Nat) : Fld := ⟨0x30 + k, 0x74, 0, 16, 0, .ro, false⟩
def R.STK_TEMP.PEAK (k : Nat) : Fld := ⟨0x30 + k, 0x74, 16, 16, 0, .ro, false⟩
def R.STK_ECC.CE (k : Nat) : Fld := ⟨0x30 + k, 0x78, 0, 16, 0, .ro, false⟩
def R.STK_ECC.UE (k : Nat) : Fld := ⟨0x30 + k, 0x78, 16, 8, 0, .ro, false⟩
def R.STK_ECC.LAST_CHAN (k : Nat) : Fld := ⟨0x30 + k, 0x78, 24, 5, 0, .ro, false⟩
def R.STK_STA.UP (k : Nat) : Fld := ⟨0x30 + k, 0x7c, 0, 1, 0, .ro, false⟩
def R.STK_STA.HOT (k : Nat) : Fld := ⟨0x30 + k, 0x7c, 1, 1, 0, .ro, false⟩
def R.STK_STA.UNFIT (k : Nat) : Fld := ⟨0x30 + k, 0x7c, 2, 1, 0, .ro, false⟩
def R.STK_STA.NMAP (k : Nat) : Fld := ⟨0x30 + k, 0x7c, 3, 5, 0, .ro, false⟩

/-! ### GUEST (02 Table 2.11) -/

def R.GST_CTL.OWNER : Fld := ⟨0x40, 0x40, 0, 2, 0, .rwd, true⟩
def R.GST_STA.LINK_UP : Fld := ⟨0x40, 0x44, 0, 1, 0, .ro, false⟩
def R.GST_STA.MOD0_UP : Fld := ⟨0x40, 0x44, 1, 1, 0, .ro, false⟩
def R.GST_STA.MOD1_UP : Fld := ⟨0x40, 0x44, 2, 1, 0, .ro, false⟩
def R.GST_STA.FENCED : Fld := ⟨0x40, 0x44, 3, 1, 0, .ro, false⟩
def R.GST_STA.IN_RESET : Fld := ⟨0x40, 0x44, 4, 1, 0, .ro, false⟩
def R.GST_STA.POWER_ON : Fld := ⟨0x40, 0x44, 5, 1, 0, .ro, false⟩
def R.GST_STA.REG_NO : Fld := ⟨0x40, 0x44, 16, 10, 0, .ro, false⟩
def R.GST_RATE.UNITS : Fld := ⟨0x40, 0x48, 0, 15, 8192, .rwd, true⟩
def R.GST_VIOL_ADDR.ADDR : Fld := ⟨0x40, 0x4c, 0, 32, 0, .ro, false⟩
def R.GST_VIOL_INFO.ADDR_LO : Fld := ⟨0x40, 0x50, 0, 2, 0, .ro, false⟩
def R.GST_VIOL_INFO.CAUSE : Fld := ⟨0x40, 0x50, 4, 3, 0, .ro, false⟩
def R.GST_VIOL_INFO.WIN : Fld := ⟨0x40, 0x50, 8, 4, 0, .ro, false⟩
def R.GST_VIOL_INFO.TYPE : Fld := ⟨0x40, 0x50, 12, 4, 0, .ro, false⟩
def R.GST_VIOL_INFO.TAG : Fld := ⟨0x40, 0x50, 16, 12, 0, .ro, false⟩
def R.GST_VIOL_INFO.VALID : Fld := ⟨0x40, 0x50, 31, 1, 0, .ro, false⟩
def R.GST_RESET.RESET : Fld := ⟨0x40, 0x54, 0, 1, 0, .cmd, false⟩
def R.GST_WIN_BASE.BASE (n : Nat) : Fld := ⟨0x40, 0x100 + 0x10 * n, 0, 28, 0, .rwd, true⟩
def R.GST_WIN_LIMIT.LIMIT (n : Nat) : Fld := ⟨0x40, 0x104 + 0x10 * n, 0, 28, 0, .rwd, true⟩
def R.GST_WIN_PERM.EN (n : Nat) : Fld := ⟨0x40, 0x108 + 0x10 * n, 0, 1, 0, .rwd, true⟩
def R.GST_WIN_PERM.RD (n : Nat) : Fld := ⟨0x40, 0x108 + 0x10 * n, 1, 1, 0, .rwd, true⟩
def R.GST_WIN_PERM.WR (n : Nat) : Fld := ⟨0x40, 0x108 + 0x10 * n, 2, 1, 0, .rwd, true⟩

/-! ### HOSTIF (14 Table 14.7) -/

def R.HIF_LINK_STA.UP : Fld := ⟨0x41, 0x40, 0, 1, 0, .ro, false⟩
def R.HIF_LINK_STA.GEN : Fld := ⟨0x41, 0x40, 1, 3, 0, .ro, false⟩
def R.HIF_LINK_STA.WIDTH : Fld := ⟨0x41, 0x40, 4, 5, 0, .ro, false⟩
def R.HIF_LINK_STA.FLIT : Fld := ⟨0x41, 0x40, 9, 1, 0, .ro, false⟩
def R.HIF_LINK_STA.REVERSED : Fld := ⟨0x41, 0x40, 10, 1, 0, .ro, false⟩
def R.HIF_LINK_STA.IDE : Fld := ⟨0x41, 0x40, 11, 1, 0, .ro, false⟩
def R.HIF_LINK_STA.INVERTED : Fld := ⟨0x41, 0x40, 16, 16, 0, .ro, false⟩
def R.HIF_PF_MAP.CH (n : Nat) : Fld := ⟨0x41, 0x44, 2 * n, 2, 0, .rwd, true⟩
def R.HIF_DENIED.OFFSET : Fld := ⟨0x41, 0x48, 0, 28, 0, .ro, false⟩
def R.HIF_DENIED.PF : Fld := ⟨0x41, 0x48, 28, 2, 0, .ro, false⟩
def R.HIF_DMA_HADDR_LO.HADDR (n : Nat) : Fld := ⟨0x41, 0x100 + 0x20 * n, 0, 32, 0, .rw, false⟩
def R.HIF_DMA_HADDR_HI.HADDR (n : Nat) : Fld := ⟨0x41, 0x104 + 0x20 * n, 0, 32, 0, .rw, false⟩
def R.HIF_DMA_PA.PA (n : Nat) : Fld := ⟨0x41, 0x108 + 0x20 * n, 0, 32, 0, .rw, false⟩
def R.HIF_DMA_LEN.LEN (n : Nat) : Fld := ⟨0x41, 0x10c + 0x20 * n, 0, 24, 0, .rw, false⟩
def R.HIF_DMA_CTL.DIR (n : Nat) : Fld := ⟨0x41, 0x110 + 0x20 * n, 0, 1, 0, .rw, false⟩
def R.HIF_DMA_CTL.START (n : Nat) : Fld := ⟨0x41, 0x110 + 0x20 * n, 31, 1, 0, .cmd, false⟩
def R.HIF_DMA_STA.BUSY (n : Nat) : Fld := ⟨0x41, 0x114 + 0x20 * n, 0, 1, 0, .ro, false⟩
def R.HIF_DMA_STA.DONE (n : Nat) : Fld := ⟨0x41, 0x114 + 0x20 * n, 1, 1, 0, .ro, false⟩
def R.HIF_DMA_STA.ERR (n : Nat) : Fld := ⟨0x41, 0x114 + 0x20 * n, 2, 1, 0, .ro, false⟩

/-! ### MGMT (14 Table 14.9) -/

def R.MGT_SMB_ADDR.ADDR : Fld := ⟨0x42, 0x40, 0, 7, 0x5A, .rwd, true⟩
def R.SNS_BUS_CTL.EN : Fld := ⟨0x42, 0x44, 0, 1, 1, .rwd, true⟩
def R.SNS_BUS_CTL.FAST : Fld := ⟨0x42, 0x44, 1, 1, 1, .rwd, true⟩
def R.SNS_BUS_CTL.RETRY : Fld := ⟨0x42, 0x44, 2, 1, 0, .cmd, false⟩
def R.SNS_BUS_STA.FENCED : Fld := ⟨0x42, 0x48, 0, 1, 0, .ro, false⟩
def R.SNS_BUS_STA.PULSES : Fld := ⟨0x42, 0x48, 1, 5, 0, .ro, false⟩
def R.SNS_BUS_STA.PRESENT : Fld := ⟨0x42, 0x48, 8, 8, 0, .ro, false⟩
def R.SNS_TARGET.ADDR (n : Nat) : Fld := ⟨0x42, 0x60 + 0x4 * n, 0, 7, 0, .rwd, true⟩
def R.SNS_TARGET.KIND (n : Nat) : Fld := ⟨0x42, 0x60 + 0x4 * n, 8, 3, 0, .rwd, true⟩
def R.SNS_TARGET.STATE (n : Nat) : Fld := ⟨0x42, 0x60 + 0x4 * n, 12, 2, 0, .ro, false⟩
def R.SNS_TARGET.VALUE (n : Nat) : Fld := ⟨0x42, 0x60 + 0x4 * n, 16, 16, 0, .ro, false⟩

/-! ### CORE_WIN (03 Table 3.7) -/

def R.CW_SEL.LCID (r : Nat) : Fld := ⟨0x50 + r * 0x1000, 0x40, 0, 16, 0, .rw, false⟩
def R.CW_SEL.TARGET (r : Nat) : Fld := ⟨0x50 + r * 0x1000, 0x40, 16, 3, 0, .rw, false⟩
def R.CW_SEL.BANK (r : Nat) : Fld := ⟨0x50 + r * 0x1000, 0x40, 19, 1, 0, .rw, false⟩
def R.CW_SEL.INC (r : Nat) : Fld := ⟨0x50 + r * 0x1000, 0x40, 20, 1, 0, .rw, false⟩
def R.CW_ADDR.ADDR (r : Nat) : Fld := ⟨0x50 + r * 0x1000, 0x44, 0, 18, 0, .rw, false⟩
def R.CW_DATA.DATA (r : Nat) : Fld := ⟨0x50 + r * 0x1000, 0x48, 0, 32, 0, .rw, false⟩
def R.CW_STA.BUSY (r : Nat) : Fld := ⟨0x50 + r * 0x1000, 0x4c, 0, 1, 0, .ro, false⟩
def R.CW_STA.REFUSED (r : Nat) : Fld := ⟨0x50 + r * 0x1000, 0x4c, 1, 1, 0, .ro, false⟩
def R.CW_STA.BYPASS (r : Nat) : Fld := ⟨0x50 + r * 0x1000, 0x4c, 2, 1, 0, .ro, false⟩
def R.CW_STA.UE (r : Nat) : Fld := ⟨0x50 + r * 0x1000, 0x4c, 3, 1, 0, .ro, false⟩

/-! ### TEST (11 Table 11.12) -/

def R.TST_CTL.EN : Fld := ⟨0x51, 0x40, 0, 1, 1, .rwd, true⟩
def R.TST_SEED.BASE : Fld := ⟨0x51, 0x44, 0, 32, 0, .rwd, true⟩
def R.TST_PAIRING.AXIS : Fld := ⟨0x51, 0x48, 0, 1, 0, .rwd, true⟩
def R.TST_MISMATCH.LCID : Fld := ⟨0x51, 0x4c, 0, 16, 0, .ro, false⟩
def R.TST_MISMATCH.ENGINE : Fld := ⟨0x51, 0x4c, 16, 2, 0, .ro, false⟩
def R.TST_MISMATCH.VALID : Fld := ⟨0x51, 0x4c, 31, 1, 0, .ro, false⟩
def R.TST_MISMATCH_TICK.TICK : Fld := ⟨0x51, 0x50, 0, 24, 0, .ro, false⟩
def R.TST_COUNT.BLOCKS : Fld := ⟨0x51, 0x54, 0, 32, 0, .ro, false⟩
def R.TST_ABORTS.COUNT : Fld := ⟨0x51, 0x58, 0, 16, 0, .ro, false⟩

/-! ### PLAN (06 Table 6.15) -/

def R.PLAN_LOAD_ADDR.ADDR (f : Nat) : Fld := ⟨0x52 + f * 0x1000, 0x40, 0, 32, 0, .rw, false⟩
def R.PLAN_LOAD_CMD.LOAD (f : Nat) : Fld := ⟨0x52 + f * 0x1000, 0x44, 0, 1, 0, .cmd, false⟩
def R.PLAN_LOAD_CMD.UNLOAD (f : Nat) : Fld := ⟨0x52 + f * 0x1000, 0x44, 1, 1, 0, .cmd, false⟩
def R.PLAN_LOAD_CMD.RESTART (f : Nat) : Fld := ⟨0x52 + f * 0x1000, 0x44, 2, 1, 0, .cmd, false⟩
def R.PLAN_STA.BUSY (f : Nat) : Fld := ⟨0x52 + f * 0x1000, 0x48, 0, 1, 0, .ro, false⟩
def R.PLAN_STA.LOADED (f : Nat) : Fld := ⟨0x52 + f * 0x1000, 0x48, 1, 1, 0, .ro, false⟩
def R.PLAN_STA.NUMID_DIFF (f : Nat) : Fld := ⟨0x52 + f * 0x1000, 0x48, 2, 1, 0, .ro, false⟩
def R.PLAN_STA.VARIANCE (f : Nat) : Fld := ⟨0x52 + f * 0x1000, 0x48, 3, 1, 0, .ro, false⟩
def R.PLAN_STA.BOOST (f : Nat) : Fld := ⟨0x52 + f * 0x1000, 0x48, 4, 1, 0, .ro, false⟩
def R.PLAN_STA.FILLER (f : Nat) : Fld := ⟨0x52 + f * 0x1000, 0x48, 5, 1, 0, .ro, false⟩
def R.PLAN_STA.ROLE (f : Nat) : Fld := ⟨0x52 + f * 0x1000, 0x48, 8, 8, 0, .ro, false⟩
def R.PLAN_STA.POSITION (f : Nat) : Fld := ⟨0x52 + f * 0x1000, 0x48, 16, 12, 0, .ro, false⟩
def R.PLAN_ERR.CODE (f : Nat) : Fld := ⟨0x52 + f * 0x1000, 0x4c, 0, 16, 0, .ro, false⟩
def R.PLAN_ERR.SECTION (f : Nat) : Fld := ⟨0x52 + f * 0x1000, 0x4c, 16, 8, 0, .ro, false⟩
def R.PLAN_ERR.VALID (f : Nat) : Fld := ⟨0x52 + f * 0x1000, 0x4c, 31, 1, 0, .ro, false⟩
def R.PLAN_ERR_LOC.STATION (f : Nat) : Fld := ⟨0x52 + f * 0x1000, 0x50, 0, 16, 0, .ro, false⟩
def R.PLAN_ERR_LOC.ENTRY (f : Nat) : Fld := ⟨0x52 + f * 0x1000, 0x50, 16, 16, 0, .ro, false⟩
def R.PLAN_ERR_TICK.PTICK (f : Nat) : Fld := ⟨0x52 + f * 0x1000, 0x54, 0, 20, 0, .ro, false⟩
def R.PLAN_ERR_CYC.CYCLE (f : Nat) : Fld := ⟨0x52 + f * 0x1000, 0x58, 0, 16, 0, .ro, false⟩
def R.PLAN_ID_LO.ID (f : Nat) : Fld := ⟨0x52 + f * 0x1000, 0x5c, 0, 32, 0, .ro, false⟩
def R.PLAN_ID_HI.ID (f : Nat) : Fld := ⟨0x52 + f * 0x1000, 0x60, 0, 32, 0, .ro, false⟩
def R.PLAN_PERIOD.PERIOD (f : Nat) : Fld := ⟨0x52 + f * 0x1000, 0x64, 0, 21, 0, .ro, false⟩
def R.PLAN_RESUME_LO.TICK (f : Nat) : Fld := ⟨0x52 + f * 0x1000, 0x68, 0, 32, 0, .ro, false⟩
def R.PLAN_RESUME_HI.TICK (f : Nat) : Fld := ⟨0x52 + f * 0x1000, 0x6c, 0, 16, 0, .ro, false⟩

/-! ### PANTRY (08 Table 8.11) -/

def R.PAN_OPT.NONFIN (k : Nat) : Fld := ⟨0x60 + k, 0x40, 0, 1, 0, .rwd, true⟩
def R.PAN_OPT.GNS_EN (k : Nat) : Fld := ⟨0x60 + k, 0x40, 1, 1, 1, .rwd, true⟩
def R.PAN_OPT.GNS_CLR (k : Nat) : Fld := ⟨0x60 + k, 0x40, 2, 1, 0, .cmd, false⟩
def R.PAN_STA.GVALID (k : Nat) : Fld := ⟨0x60 + k, 0x44, 0, 1, 0, .ro, false⟩
def R.PAN_STA.SKIPPED (k : Nat) : Fld := ⟨0x60 + k, 0x44, 1, 1, 0, .ro, false⟩
def R.PAN_STA.LSAT (k : Nat) : Fld := ⟨0x60 + k, 0x44, 2, 1, 0, .ro, false⟩
def R.PAN_STA.LNONFIN (k : Nat) : Fld := ⟨0x60 + k, 0x44, 3, 1, 0, .ro, false⟩
def R.PAN_STA.GSAT (k : Nat) : Fld := ⟨0x60 + k, 0x44, 4, 1, 0, .ro, false⟩
def R.PAN_STA.GNONFIN (k : Nat) : Fld := ⟨0x60 + k, 0x44, 5, 1, 0, .ro, false⟩
def R.PAN_STA.GNS_SAT (k : Nat) : Fld := ⟨0x60 + k, 0x44, 6, 1, 0, .ro, false⟩
def R.PAN_STEP.STEP (k : Nat) : Fld := ⟨0x60 + k, 0x48, 0, 32, 0, .rwd, false⟩
def R.PAN_SEED_LO.SEED (k : Nat) : Fld := ⟨0x60 + k, 0x4c, 0, 32, 0, .rwd, false⟩
def R.PAN_SEED_HI.SEED (k : Nat) : Fld := ⟨0x60 + k, 0x50, 0, 32, 0, .rwd, false⟩
def R.PAN_JOURNAL_USE.CUR (k : Nat) : Fld := ⟨0x60 + k, 0x54, 0, 16, 0, .ro, false⟩
def R.PAN_JOURNAL_USE.PEAK (k : Nat) : Fld := ⟨0x60 + k, 0x54, 16, 16, 0, .ro, false⟩
def R.PAN_MB_COUNT.MB (k : Nat) : Fld := ⟨0x60 + k, 0x58, 0, 24, 0, .ro, false⟩
def R.PAN_MB_COUNT.STEPS (k : Nat) : Fld := ⟨0x60 + k, 0x58, 24, 8, 0, .ro, false⟩
def R.PAN_CLIP.C (k : Nat) : Fld := ⟨0x60 + k, 0x5c, 0, 32, 0x3F800000, .ro, false⟩
def R.PAN_NORM_ACC.SUM (k : Nat) (n : Nat) : Fld := ⟨0x60 + k, 0x60 + 0x4 * n, 0, 32, 0, .ro, false⟩
def R.PAN_NORM_GLB.SUM (k : Nat) (n : Nat) : Fld := ⟨0x60 + k, 0x70 + 0x4 * n, 0, 32, 0, .ro, false⟩
def R.PAN_GNS_SMALL.SUM (k : Nat) (n : Nat) : Fld := ⟨0x60 + k, 0x80 + 0x4 * n, 0, 32, 0, .ro, false⟩
def R.PAN_GNS_BIG.SUM (k : Nat) (n : Nat) : Fld := ⟨0x60 + k, 0x90 + 0x4 * n, 0, 32, 0, .ro, false⟩
def R.PAN_EXP_CTL.TENSOR (k : Nat) : Fld := ⟨0x60 + k, 0xa0, 0, 16, 0, .rw, false⟩
def R.PAN_EXP_CTL.DIR (k : Nat) : Fld := ⟨0x60 + k, 0xa0, 16, 1, 0, .rw, false⟩
def R.PAN_EXP_CTL.MOM (k : Nat) : Fld := ⟨0x60 + k, 0xa0, 17, 1, 0, .rw, false⟩
def R.PAN_EXP_CTL.GRAD (k : Nat) : Fld := ⟨0x60 + k, 0xa0, 18, 1, 0, .rw, false⟩
def R.PAN_EXP_CTL.START (k : Nat) : Fld := ⟨0x60 + k, 0xa0, 31, 1, 0, .cmd, false⟩
def R.PAN_EXP_ADDR.ADDR (k : Nat) : Fld := ⟨0x60 + k, 0xa4, 0, 32, 0, .rw, false⟩
def R.PAN_EXP_STA.BUSY (k : Nat) : Fld := ⟨0x60 + k, 0xa8, 0, 1, 0, .ro, false⟩
def R.PAN_EXP_STA.DONE (k : Nat) : Fld := ⟨0x60 + k, 0xa8, 1, 1, 0, .ro, false⟩
def R.PAN_EXP_STA.FAIL (k : Nat) : Fld := ⟨0x60 + k, 0xa8, 2, 1, 0, .ro, false⟩
def R.PAN_EXP_STA.CAUSE (k : Nat) : Fld := ⟨0x60 + k, 0xa8, 4, 4, 0, .ro, false⟩
def R.PAN_EXP_STA.UNITS (k : Nat) : Fld := ⟨0x60 + k, 0xa8, 8, 24, 0, .ro, false⟩
def R.PAN_HYPER.P (k : Nat) (n : Nat) : Fld := ⟨0x60 + k, 0xc0 + 0x4 * n, 0, 32, 0, .ro, false⟩

/-! ### Event bits -/

/-- The first tick of the launch began: tick 0 after a load, or the resume tick (R22, R310). -/
def E.TICK.LAUNCHED : Ev := ⟨0x3, 0⟩
/-- NOGO, or no GO in time (R22). -/
def E.TICK.LAUNCH_ABORT : Ev := ⟨0x3, 1⟩
/-- A stretch was applied (R27). -/
def E.TICK.STRETCH : Ev := ⟨0x3, 2⟩
/-- A replay postponement was applied (R33). -/
def E.TICK.VOID_RX : Ev := ⟨0x3, 3⟩
/-- This package began a replay (R35). -/
def E.TICK.VOID_TX : Ev := ⟨0x3, 4⟩
/-- An overrun was recorded in TICK_OVR_SRC (R29). -/
def E.TICK.OVERRUN : Ev := ⟨0x3, 5⟩
/-- Four sync periods were missed (R13). -/
def E.TICK.SYNC_LOST : Ev := ⟨0x3, 6⟩
/-- TICK_SYNC_STA.LOCK rose. -/
def E.TICK.SYNC_LOCK : Ev := ⟨0x3, 7⟩
/-- An older arrival was dropped (R41). -/
def E.TICK.LATE : Ev := ⟨0x3, 8⟩
/-- An arrival newer by 2 or more, or far, was seen (R41). -/
def E.TICK.STAMP_FAR : Ev := ⟨0x3, 9⟩
/-- A same-stamp arrival differed (R42). -/
def E.TICK.DUP_DIFF : Ev := ⟨0x3, 10⟩
/-- An enable of the page failed a launch check: TOP_STATE not READY, launch count too close, LOCK 0, or a check of R185, R196, R322, R343 or R411 (R21). -/
def E.TICK.LAUNCH_PAST : Ev := ⟨0x3, 11⟩
/-- A STRETCH arrived after its boundary, or a VOID named a tick other than the current one (R30). -/
def E.TICK.STRETCH_LATE : Ev := ⟨0x3, 12⟩
/-- The map was loaded (R65). -/
def E.DIE.MAP_LOADED (d : Nat) : Ev := ⟨0x08 + d, 0⟩
/-- A core of the die reported deadlock. -/
def E.DIE.DEADLOCK (d : Nat) : Ev := ⟨0x08 + d, 1⟩
/-- DIE_DEADLOCK_STA.WHOLE rose. -/
def E.DIE.DIE_DEADLOCK (d : Nat) : Ev := ⟨0x08 + d, 2⟩
/-- A row had five or more bad cores, or a bypass failed (R66). -/
def E.DIE.SPARE_EXHAUSTED (d : Nat) : Ev := ⟨0x08 + d, 3⟩
/-- The die or one of its stacks did not answer discovery (R52). -/
def E.DIE.DISC_FAIL (d : Nat) : Ev := ⟨0x08 + d, 4⟩
/-- Roles were assigned (R55). -/
def E.EDGE.ROLES_SET (e : Nat) : Ev := ⟨0x10 + e, 0⟩
/-- A bundle was marked failed (R54). -/
def E.EDGE.BUNDLE_FAIL (e : Nat) : Ev := ⟨0x10 + e, 1⟩
/-- Fewer than 22 bundles were usable (R55). -/
def E.EDGE.ROLE_SHORT (e : Nat) : Ev := ⟨0x10 + e, 2⟩
/-- A flit needed a second resend (R58). -/
def E.EDGE.BEYOND_REPLAY (e : Nat) : Ev := ⟨0x10 + e, 3⟩
/-- LINK_UP rose. -/
def E.GUEST.GUEST_UP : Ev := ⟨0x40, 0⟩
/-- A violation was recorded (R76). -/
def E.GUEST.GUEST_VIOL : Ev := ⟨0x40, 1⟩
/-- The rails were removed (R69). -/
def E.GUEST.GUEST_PWR : Ev := ⟨0x40, 2⟩
/-- A reset completed (R78). -/
def E.GUEST.RESET_DONE : Ev := ⟨0x40, 3⟩
/-- A reset was refused (R78). -/
def E.GUEST.RESET_REFUSED : Ev := ⟨0x40, 4⟩
/-- A module went down (R68). -/
def E.GUEST.MODULE_LOST : Ev := ⟨0x40, 5⟩
/-- The identity did not match the fused number (R70). -/
def E.GUEST.GUEST_ID : Ev := ⟨0x40, 6⟩
/-- An access was refused (R115, R116). -/
def E.CORE_WIN.CW_REFUSED : Ev := ⟨0x50, 0⟩
/-- A read met an uncorrectable ECC error. -/
def E.CORE_WIN.CW_UE : Ev := ⟨0x50, 1⟩
/-- A load succeeded (R184). -/
def E.PLAN.PLAN_DONE (f : Nat) : Ev := ⟨0x52 + f * 0x1000, 0⟩
/-- A load failed (R183). -/
def E.PLAN.PLAN_FAIL (f : Nat) : Ev := ⟨0x52 + f * 0x1000, 1⟩
/-- A LOAD, UNLOAD or RESTART was refused (R182, R186, R187). -/
def E.PLAN.PLAN_REFUSED (f : Nat) : Ev := ⟨0x52 + f * 0x1000, 2⟩
/-- A plan was discarded (R186). -/
def E.PLAN.UNLOADED (f : Nat) : Ev := ⟨0x52 + f * 0x1000, 3⟩
/-- A run was retried (R201). -/
def E.STACK.RETRY (k : Nat) : Ev := ⟨0x30 + k, 0⟩
/-- A retry was refused for lack of reserve (R202). -/
def E.STACK.RESV_EXHAUSTED (k : Nat) : Ev := ⟨0x30 + k, 1⟩
/-- A run needed a fourth retry (R202). -/
def E.STACK.RETRY_LIMIT (k : Nat) : Ev := ⟨0x30 + k, 2⟩
/-- A read was corrected (R204). -/
def E.STACK.ECC_CE (k : Nat) : Ev := ⟨0x30 + k, 3⟩
/-- A read was uncorrectable (R204). -/
def E.STACK.ECC_UE (k : Nat) : Ev := ⟨0x30 + k, 4⟩
/-- A spare lane was switched in (R209). -/
def E.STACK.LANE_SPARED (k : Nat) : Ev := ⟨0x30 + k, 5⟩
/-- A cellar channel was mapped out (R210). -/
def E.STACK.MAPPED_OUT (k : Nat) : Ev := ⟨0x30 + k, 6⟩
/-- A state channel was beyond repair (R210). -/
def E.STACK.STATE_UNFIT (k : Nat) : Ev := ⟨0x30 + k, 7⟩
/-- STK_MARGIN_RES.DONE rose. -/
def E.STACK.MARGIN_DONE (k : Nat) : Ev := ⟨0x30 + k, 8⟩
/-- A margining step gave way to service (R212). -/
def E.STACK.TEST_ABORT (k : Nat) : Ev := ⟨0x30 + k, 9⟩
/-- STK_STA.HOT rose. -/
def E.STACK.HOT (k : Nat) : Ev := ⟨0x30 + k, 10⟩
/-- A write was dropped while PG_STA.WBUSY = 1. -/
def E.STACK.WDROP (k : Nat) : Ev := ⟨0x30 + k, 15⟩
/-- The local sum was latched (R232). -/
def E.PANTRY.NORM_LATCHED (k : Nat) : Ev := ⟨0x60 + k, 0⟩
/-- The global sum landed (R232). -/
def E.PANTRY.NORM_GLOBAL (k : Nat) : Ev := ⟨0x60 + k, 1⟩
/-- A sweep applied C < 1 (R234). -/
def E.PANTRY.CLIPPED (k : Nat) : Ev := ⟨0x60 + k, 2⟩
/-- A non-finite term was seen (R231). -/
def E.PANTRY.NONFINITE (k : Nat) : Ev := ⟨0x60 + k, 3⟩
/-- A step's sweeps were skipped (R235). -/
def E.PANTRY.STEP_SKIPPED (k : Nat) : Ev := ⟨0x60 + k, 4⟩
/-- A row index was dropped (R226). -/
def E.PANTRY.SCATTER_RANGE (k : Nat) : Ev := ⟨0x60 + k, 5⟩
/-- An export or import completed. -/
def E.PANTRY.EXPORT_DONE (k : Nat) : Ev := ⟨0x60 + k, 6⟩
/-- An export or import failed. -/
def E.PANTRY.EXPORT_FAIL (k : Nat) : Ev := ⟨0x60 + k, 7⟩
/-- PAN_STA.GNS_SAT rose. -/
def E.PANTRY.GNS_SAT (k : Nat) : Ev := ⟨0x60 + k, 8⟩
/-- A write was dropped while PG_STA.WBUSY = 1. -/
def E.PANTRY.WDROP (k : Nat) : Ev := ⟨0x60 + k, 15⟩
/-- A load wrote the route table. -/
def E.HALL.ROUTES_LOADED : Ev := ⟨0x18, 0⟩
/-- A frame was dropped as misrouted (R270). -/
def E.HALL.MISROUTE : Ev := ⟨0x18, 1⟩
/-- A frame met a full Landing (R270). -/
def E.HALL.LAND_FULL : Ev := ⟨0x18, 2⟩
/-- TOP_PKG_ID does not fit the dimensions (R273). -/
def E.HALL.PORTMAP_BAD : Ev := ⟨0x18, 3⟩
/-- A SYNC frame was accepted from its second copy only (R254). -/
def E.HALL.SYNC_COPY : Ev := ⟨0x18, 4⟩
/-- A port's UP rose. -/
def E.PORCH.PORT_UP (p : Nat) : Ev := ⟨0x20 + p / 4, 0⟩
/-- A port went down (R260). -/
def E.PORCH.PORT_DOWN (p : Nat) : Ev := ⟨0x20 + p / 4, 1⟩
/-- A port was classed with a fault (R266). -/
def E.PORCH.MISWIRE (p : Nat) : Ev := ⟨0x20 + p / 4, 2⟩
/-- A rebind completed (R269). -/
def E.PORCH.REBOUND (p : Nat) : Ev := ⟨0x20 + p / 4, 3⟩
/-- A port retrained (R259). -/
def E.PORCH.RETRAIN (p : Nat) : Ev := ⟨0x20 + p / 4, 4⟩
/-- A retrain discarded frames (R259). -/
def E.PORCH.FLITS_LOST (p : Nat) : Ev := ⟨0x20 + p / 4, 5⟩
/-- A duplicate became unusable (R268). -/
def E.PORCH.DUP_LOST (p : Nat) : Ev := ⟨0x20 + p / 4, 6⟩
/-- A port's SAFE rose. -/
def E.PORCH.LASER_SAFE (p : Nat) : Ev := ⟨0x20 + p / 4, 7⟩
/-- A write was dropped while PG_STA.WBUSY = 1. -/
def E.PORCH.WDROP (p : Nat) : Ev := ⟨0x20 + p / 4, 15⟩
/-- A residue or exponent mismatch was recorded (R294). -/
def E.REDUCE.RESIDUE : Ev := ⟨0x19, 0⟩
/-- A segment saturated (R284). -/
def E.REDUCE.RED_SAT : Ev := ⟨0x19, 1⟩
/-- The zeroing of R300 completed. -/
def E.REDUCE.ALLOT_ZEROED : Ev := ⟨0x19, 2⟩
/-- A log entry was written. -/
def E.FAULT.FAULT_LOGGED : Ev := ⟨0x5, 0⟩
/-- FLT_LOG_HEAD.LAP toggled. -/
def E.FAULT.LOG_LAP : Ev := ⟨0x5, 1⟩
/-- R309 completed. -/
def E.FAULT.DRAINED : Ev := ⟨0x5, 2⟩
/-- TOP_STATE became FLAGGED. -/
def E.FAULT.FLAGGED : Ev := ⟨0x5, 3⟩
/-- FLT_SUSPECT.SUSPECT rose. -/
def E.FAULT.SUSPECT : Ev := ⟨0x5, 4⟩
/-- FLT_STA.PERM_PENDING rose. -/
def E.FAULT.PERM_PENDING : Ev := ⟨0x5, 5⟩
/-- R323 halted the package. -/
def E.FAULT.LOCKSTEP_MISMATCH : Ev := ⟨0x5, 6⟩
/-- A drain was commanded or requested on DRAIN_REQ_N. -/
def E.FAULT.DRAIN_REQ : Ev := ⟨0x5, 7⟩
/-- A pair's signatures differed (R316). -/
def E.TEST.TST_MISMATCH : Ev := ⟨0x51, 0⟩
/-- A test or margining step gave way to service (R318). -/
def E.TEST.TEST_ABORT : Ev := ⟨0x51, 1⟩
/-- The limiter engaged (R331). -/
def E.HEARTH.LIMIT : Ev := ⟨0x4, 0⟩
/-- HTH_CAP_EFF fell below HTH_CAP_W. -/
def E.HEARTH.CAP_REDUCED : Ev := ⟨0x4, 1⟩
/-- A sensor passed TJMAX (R338). -/
def E.HEARTH.TJ_HIGH : Ev := ⟨0x4, 2⟩
/-- A stack reached 95 °C (R340). -/
def E.HEARTH.DRAM_HOT : Ev := ⟨0x4, 3⟩
/-- The hardware trip acted (R339). -/
def E.HEARTH.TRIP : Ev := ⟨0x4, 4⟩
/-- FLOW_LOW, INLET_HOT or INLET_COLD rose. -/
def E.HEARTH.COOLANT : Ev := ⟨0x4, 5⟩
/-- A reversal was detected (R343). -/
def E.HEARTH.REVERSED : Ev := ⟨0x4, 6⟩
/-- A leak was reported (R344). -/
def E.HEARTH.LEAK : Ev := ⟨0x4, 7⟩
/-- RAMP_EXCEEDED was logged (R336). -/
def E.HEARTH.RAMP : Ev := ⟨0x4, 8⟩
/-- Flow direction was confirmed (R343). -/
def E.HEARTH.CHECKED : Ev := ⟨0x4, 9⟩
/-- A write was dropped while PG_STA.WBUSY = 1. -/
def E.HEARTH.WDROP : Ev := ⟨0x4, 15⟩
/-- A phase began. -/
def E.BRINGUP.PHASE : Ev := ⟨0x2, 0⟩
/-- P8 was reached (R350). -/
def E.BRINGUP.READY : Ev := ⟨0x2, 1⟩
/-- The bring-up stopped (R352). -/
def E.BRINGUP.BU_FLAGGED : Ev := ⟨0x2, 2⟩
/-- A cold bring-up began (R351). -/
def E.BRINGUP.COLD_RUN : Ev := ⟨0x2, 3⟩
/-- A re-test failed (R357). -/
def E.BRINGUP.RETEST_FAIL : Ev := ⟨0x2, 4⟩
/-- P3 completed. -/
def E.ATTIC.RESTORED : Ev := ⟨0x1, 0⟩
/-- A copy was rewritten in P3 (R354). -/
def E.ATTIC.RECORD_REPAIRED : Ev := ⟨0x1, 1⟩
/-- One or more records were lost (R354). -/
def E.ATTIC.RECORD_LOST : Ev := ⟨0x1, 2⟩
/-- A SYNC completed. -/
def E.ATTIC.SYNCED : Ev := ⟨0x1, 3⟩
/-- A record reached the last epoch (R363). -/
def E.ATTIC.EPOCH_SAT : Ev := ⟨0x1, 4⟩
/-- A write was dropped while PG_STA.WBUSY = 1. -/
def E.ATTIC.WDROP : Ev := ⟨0x1, 15⟩
/-- An enable, owner command or run command was refused (R372, R373, R375, R377). -/
def E.PART.PART_CONFLICT : Ev := ⟨0x6, 0⟩
/-- Zeroing of R374 completed. -/
def E.PART.ZEROED : Ev := ⟨0x6, 1⟩
/-- A secondary began at its start tick. -/
def E.PART.SEC_STARTED : Ev := ⟨0x6, 2⟩
/-- A secondary stopped (R379). -/
def E.PART.SEC_STOPPED : Ev := ⟨0x6, 3⟩
/-- A DMA transfer completed. -/
def E.HOSTIF.DMA_DONE : Ev := ⟨0x41, 0⟩
/-- A DMA channel set ERR. -/
def E.HOSTIF.DMA_ERR : Ev := ⟨0x41, 1⟩
/-- A write was dropped under R376. -/
def E.HOSTIF.ACCESS_DENIED : Ev := ⟨0x41, 2⟩
/-- A BAR2 access reached no owned region (R384). -/
def E.HOSTIF.BAR2_UR : Ev := ⟨0x41, 3⟩
/-- HIF_LINK_STA.UP changed. -/
def E.HOSTIF.LINK_CHANGE : Ev := ⟨0x41, 4⟩
/-- An SMBus write was discarded for its PEC (R388). -/
def E.MGMT.SMB_PEC : Ev := ⟨0x42, 0⟩
/-- The sensor bus was fenced (R391). -/
def E.MGMT.SNS_BUS_STUCK : Ev := ⟨0x42, 1⟩
/-- A target was lost (R390). -/
def E.MGMT.SNS_TARGET_LOST : Ev := ⟨0x42, 2⟩
/-- A lost target answered again. -/
def E.MGMT.SNS_TARGET_BACK : Ev := ⟨0x42, 3⟩
/-- TOP_STATE changed. -/
def E.TOP.STATE : Ev := ⟨0x0, 0⟩
/-- A TOP_RESET_CMD write did not start a bring-up (R412). -/
def E.TOP.RESET_REFUSED : Ev := ⟨0x0, 1⟩

/-! ### The fields of each block -/

/-- The stored fields of the HDR block. -/
def hdrFlds (pg : Nat) : List Fld :=
  [R.PG_ID.PAGE pg, R.PG_ID.REV pg, R.PG_ID.PRESENT pg, R.PG_CTL.EN pg, R.PG_STA.ENABLED pg, R.PG_STA.WBUSY pg] ++
  [R.PG_STA.CFG_REJECT pg, R.PG_STA.FENCED pg, R.PG_STA.ZEROING pg, R.PG_STA.ACK_STALE pg, R.PG_EVT.EVT pg, R.PG_EVT_SEQ.SEQ pg] ++
  [R.PG_EVT_SEQ.LAP pg, R.PG_EVT_ACK.MASK pg, R.PG_EVT_ACK.SEQ pg, R.PG_EVT_EN.EN pg, R.PG_CFGREJ_ADDR.OFFSET pg, R.PG_CFGREJ_ADDR.VIEW pg] ++
  [R.PG_CFGREJ_ADDR.PF pg, R.PG_CFGREJ_ADDR.SMB pg]

/-- The stored fields of the TOP block. -/
def topFlds : List Fld :=
  [R.TOP_NUMID_LO.GUARD, R.TOP_NUMID_LO.SFT_VER, R.TOP_NUMID_LO.GEN_ALG, R.TOP_NUMID_LO.SR_WIDTH, R.TOP_NUMID_LO.ACC_REV, R.TOP_NUMID_HI.PANQ_REV] ++
  [R.TOP_NUMID_HI.RED_REV, R.TOP_PART_ID.PART, R.TOP_PART_ID.GRADE, R.TOP_PART_ID.GUEST, R.TOP_STEPPING.LETTER, R.TOP_STEPPING.METAL] ++
  [R.TOP_STEPPING.GUEST_REG, R.TOP_TIMID.GRADE, R.TOP_TIMID.MESH_REV, R.TOP_TIMID.GRAN, R.TOP_PKG_ID.ID, R.TOP_MODE.BOOST] ++
  [R.TOP_STATE.STATE, R.TOP_VARIANCE_CNT.COUNT, R.TOP_RESET_CMD.RESET, R.TOP_RESET_CMD.KEY]

/-- The stored fields of the ATTIC block. -/
def atticFlds : List Fld :=
  [R.ATTIC_EPOCH.EPOCH, R.ATTIC_CMD.SYNC, R.ATTIC_CMD.CLEAR_SETTINGS, R.ATTIC_STA.PENDING, R.ATTIC_STA.QUEUE, R.ATTIC_STA.EPOCH_SAT] ++
  [R.ATTIC_HIST_PTR.ID, R.ATTIC_HIST_PTR.UNIT, R.ATTIC_HIST_PTR.WORD, R.ATTIC_RESTORE_STA.DONE, R.ATTIC_RESTORE_STA.FIRST, R.ATTIC_RESTORE_STA.DEFAULTED] ++
  [R.ATTIC_RESTORE_STA.REPAIRED, R.ATTIC_RESTORE_STA.LOST, R.ATTIC_POWERED.SECONDS]

/-- The stored fields of the BRINGUP block. -/
def bringupFlds : List Fld :=
  [R.BU_PHASE.PHASE, R.BU_PHASE.COLD, R.BU_PHASE.STOP, R.BU_PHASE.REASON, R.BU_MODE.COLD_NEXT, R.BU_MODE.WHY] ++
  [R.BU_TIME_US.TIME, R.BU_LINK_PTR.KIND, R.BU_LINK_PTR.INDEX, R.BU_LINK_PTR.WORD]

/-- The stored fields of the TICK block. -/
def tickFlds : List Fld :=
  [R.TICK_COUNT_LO.COUNT, R.TICK_COUNT_HI.COUNT, R.TICK_LAUNCH_LO.LAUNCH, R.TICK_LAUNCH_HI.LAUNCH, R.TICK_LEN.LEN, R.TICK_GUARD.GUARD] ++
  [R.TICK_STRETCH_Q.Q, R.TICK_STRETCH_MAX.MAX, R.TICK_ROOT.ROOT, R.TICK_NUM.NUM, R.TICK_NUM.RUN, R.TICK_STRETCH_CNT.CUR] ++
  [R.TICK_STRETCH_CNT.VOIDED, R.TICK_STRETCH_CNT.TOTAL, R.TICK_JOB_LO.JOB, R.TICK_JOB_HI.JOB, R.TICK_OVR_SRC.PKG, R.TICK_OVR_SRC.CAUSE] ++
  [R.TICK_OVR_SRC.VALID, R.TICK_OFFSET.OFFSET, R.TICK_SYNC_STA.LOCK, R.TICK_SYNC_STA.HOPS, R.TICK_SYNC_STA.RESID, R.TICK_SYNC_STA.MISSED]

/-- The stored fields of the HEARTH block. -/
def hearthFlds : List Fld :=
  [R.HTH_CAP_W.CAP, R.HTH_BOOST_EN.DIE, R.HTH_BOOST_EN.LEND, R.HTH_LEND_WAIT.WAIT, R.HTH_RAMP_LIMIT.RAMP, R.HTH_BALLAST.EN] ++
  [R.HTH_BALLAST.HOLD, R.HTH_BALLAST.SHARE, R.HTH_BALLAST.LEVEL, R.HTH_TJ_MAX.TJMAX, R.HTH_TJ_MAX.HOTTEST, R.HTH_TJ_MAX.PEAK] ++
  [R.HTH_TRIP_STA.TRIPPED, R.HTH_TRIP_STA.SITE, R.HTH_TRIP_STA.TJ, R.HTH_TRIP_STA.PREV, R.HTH_COOLANT_STA.CHECKED, R.HTH_COOLANT_STA.REVERSED] ++
  [R.HTH_COOLANT_STA.FLOW_LOW, R.HTH_COOLANT_STA.INLET_HOT, R.HTH_COOLANT_STA.INLET_COLD, R.HTH_COOLANT_STA.LEAK, R.HTH_COOLANT_STA.FALLBACK, R.HTH_COOLANT_STA.BUSFLOW] ++
  [R.HTH_COOLANT_STA.FLOW, R.HTH_COOLANT_CTL.FLUID, R.HTH_COOLANT_T.INLET, R.HTH_COOLANT_T.OUTLET, R.HTH_POWER_W.AVG, R.HTH_POWER_W.PEAK] ++
  [R.HTH_VIN.VOLT, R.HTH_VIN.AMP, R.HTH_LIMIT.COUNT, R.HTH_LIMIT.CAUSE, R.HTH_LIMIT.DEPTH, R.HTH_CLK.DIE0] ++
  [R.HTH_CLK.DIE1, R.HTH_CLK.DIE2, R.HTH_CLK.DIE3, R.HTH_CAP_EFF.CAP, R.HTH_CAP_EFF.BY, R.HTH_TICK_E.E]

/-- The stored fields of the FAULT block. -/
def faultFlds : List Fld :=
  [R.FLT_LOG_HEAD.SEQ, R.FLT_LOG_HEAD.LAP, R.FLT_LOG_PTR.SEQ, R.FLT_LOG_PTR.WORD, R.FLT_FENCE_MAP.DIE, R.FLT_FENCE_MAP.STACK] ++
  [R.FLT_FENCE_MAP.REDUCE, R.FLT_FENCE_MAP.HUB, R.FLT_FENCE_MAP.GUEST, R.FLT_FENCE_MAP.PORT, R.FLT_REPLAY_CNT.TX, R.FLT_REPLAY_CNT.RX] ++
  [R.FLT_DRAIN_CMD.TICK, R.FLT_DRAIN_CMD.AT_TICK, R.FLT_DRAIN_CMD.RELEASE, R.FLT_DRAIN_CMD.DRAIN, R.FLT_SUSPECT.SUSPECT, R.FLT_SUSPECT.FLAGGED] ++
  [R.FLT_SUSPECT.CAUSE, R.FLT_SUSPECT.LOGSEQ, R.FLT_LOCKSTEP_CTL.EN, R.FLT_LOCKSTEP_STA.ACTIVE, R.FLT_LOCKSTEP_STA.MISMATCH, R.FLT_LOCKSTEP_STA.LATE] ++
  [R.FLT_LOCKSTEP_STA.DIE, R.FLT_LOCKSTEP_STA.GROUP, R.FLT_LOCKSTEP_TICK.TICK, R.FLT_STA.PERM_PENDING, R.FLT_STA.DRAINED, R.FLT_STA.PENDING]

/-- The stored fields of the PART block. -/
def partFlds : List Fld :=
  [R.PART_OWNER_CMD.FIRST, R.PART_OWNER_CMD.COUNT, R.PART_OWNER_CMD.TO, R.PART_OWNER_CMD.GO, R.PART_ZERO_STA.CORES, R.PART_ZERO_STA.REGIONS] ++
  [R.PART_ZERO_STA.LANDING, R.PART_ZERO_STA.REGIONS_LEFT, R.PART_RUN.PART, R.PART_RUN.STOP, R.PART_RUN.START, R.PART_RUN.TICK] ++
  ((List.range 4).map fun n => [R.PART_CORES.DIES n, R.PART_CORES.ROW0 n, R.PART_CORES.ROW1 n, R.PART_CORES.COL0 n, R.PART_CORES.COL1 n, R.PART_MEM.REGIONS n, R.PART_MEM.LAND n, R.PART_REG.EN n, R.PART_REG.FILLER n, R.PART_REG.BANKS n, R.PART_FAB.FIRST n, R.PART_FAB.COUNT n]).flatten ++
  ([1, 2, 3].map fun n => [R.PART_RUN_STA.RUN n, R.PART_RUN_STA.PENDING n, R.PART_RUN_STA.CAUSE n]).flatten

/-- The stored fields of the DIE block. -/
def dieFlds (d : Nat) : List Fld :=
  [R.DIE_SPARE_PTR.ROW d, R.DIE_DEADLOCK_WIN.WIN d, R.DIE_DEADLOCK_STA.WHOLE d, R.DIE_DEADLOCK_STA.CORES d, R.DIE_TEMP.TEMP d, R.DIE_TEMP.PEAK d] ++
  [R.DIE_MAP_STA.LOADED d, R.DIE_MAP_STA.MAXBAD d, R.DIE_MAP_STA.TOTAL d]

/-- The stored fields of the EDGE block. -/
def edgeFlds (e : Nat) : List Fld :=
  [R.EDGE_ROLE_LO.ROLE e, R.EDGE_ROLE_HI.ROLE e, R.EDGE_FAIL.FAILED e, R.EDGE_BER.SEL e, R.EDGE_BER.RESENDS e, R.EDGE_BER.BEYOND e] ++
  [R.EDGE_BER.P5_ERR e, R.EDGE_LAT.NBR e, R.EDGE_LAT.DIAG e, R.EDGE_LAT.HUB e, R.EDGE_LAT.SLACK_MIN e]

/-- The stored fields of the HALL block. -/
def hallFlds : List Fld :=
  [R.HALL_PORTMAP.D0, R.HALL_PORTMAP.D1, R.HALL_PORTMAP.D2, R.HALL_PORTMAP.USED, R.HALL_ROUTE_PTR.ENTRY, R.HALL_ROUTE_PTR.WORD] ++
  [R.HALL_ROUTE_STA.COUNT, R.HALL_LAND_USE.CUR, R.HALL_LAND_USE.PEAK, R.HALL_LAND_ERR.LATE, R.HALL_LAND_ERR.DUP, R.HALL_LAND_ERR.MISROUTE] ++
  [R.HALL_LAND_ERR.VOIDDROP]

/-- The stored fields of the REDUCE block. -/
def reduceFlds : List Fld :=
  [R.RED_SEG_MAX.MAX, R.RED_RESIDUE_ERR.COUNT, R.RED_RESIDUE_ERR.CTX, R.RED_RESIDUE_ERR.PART, R.RED_RESIDUE_ERR.EXP, R.RED_RESIDUE_ERR.VALID] ++
  [R.RED_SAT.COUNT, R.RED_SAT.CTX, R.RED_SAT.PART, R.RED_LOAD.LAST, R.RED_LOAD.PEAK] ++
  ((List.range 4).map fun n => [R.RED_ALLOT.UNITS n, R.RED_ALLOT.LANES n]).flatten

/-- The stored fields of the PORCH block. -/
def porchFlds (o : Nat) : List Fld :=
  ((List.range 4).map fun n => [R.PORT_STA.UP (4 * o + n), R.PORT_STA.USABLE (4 * o + n), R.PORT_STA.ACTIVE (4 * o + n), R.PORT_STA.DOWN (4 * o + n), R.PORT_STA.REBOUND (4 * o + n), R.PORT_STA.FAULT (4 * o + n), R.PORT_STA.NOWFOR (4 * o + n), R.PORT_STA.FLIGHT (4 * o + n), R.PORT_BIND.ROLE (4 * o + n), R.PORT_BIND.DIM (4 * o + n), R.PORT_BIND.PEERC (4 * o + n), R.PORT_BIND.DUPOF (4 * o + n), R.PORT_PEER_ID.PKG (4 * o + n), R.PORT_PEER_ID.PORT (4 * o + n), R.PORT_PEER_ID.ROLE (4 * o + n), R.PORT_PEER_ID.VALID (4 * o + n), R.PORT_BER.CORR (4 * o + n), R.PORT_BER.UNCORR (4 * o + n), R.PORT_BER.CRCERR (4 * o + n), R.PORT_REPLAY_CNT.REPLAYS (4 * o + n), R.PORT_REPLAY_CNT.TIMEOUTS (4 * o + n), R.PORT_REPLAY_CNT.RETRAINS (4 * o + n), R.PORT_LASER.EN (4 * o + n), R.PORT_LASER.ON (4 * o + n), R.PORT_LASER.SAFE (4 * o + n), R.PORT_LASER.TXPWR (4 * o + n)]).flatten

/-- The stored fields of the STACK block. -/
def stackFlds (k : Nat) : List Fld :=
  [R.STK_CHAN_CLASS.CELLAR k, R.STK_MAPOUT.MAPPED k, R.STK_SPARE_LANES.SEL k, R.STK_SPARE_LANES.DQ0 k, R.STK_SPARE_LANES.DQ1 k, R.STK_SPARE_LANES.CA k] ++
  [R.STK_SPARE_LANES.BEYOND k, R.STK_REF_PHASE.PHASE k, R.STK_REF_PHASE.STAGGER k, R.STK_REF_STA.DEBT_MAX k, R.STK_REF_STA.MAKEUPS k, R.STK_RETRY_RESV.PERMILLE k] ++
  [R.STK_RETRY_CNT.RETRIES k, R.STK_RETRY_CNT.FAILED k, R.STK_RETRY_CNT.LAST_CHAN k, R.STK_MARGIN_CTL.CHAN k, R.STK_MARGIN_CTL.LANE k, R.STK_MARGIN_CTL.AXIS k] ++
  [R.STK_MARGIN_CTL.START k, R.STK_MARGIN_RES.LOW k, R.STK_MARGIN_RES.HIGH k, R.STK_MARGIN_RES.DONE k, R.STK_MARGIN_RES.ABORTED k, R.STK_MARGIN_RES.PASS k] ++
  [R.STK_SEC_WIN.START k, R.STK_SEC_WIN.LEN k, R.STK_TEMP.TEMP k, R.STK_TEMP.PEAK k, R.STK_ECC.CE k, R.STK_ECC.UE k] ++
  [R.STK_ECC.LAST_CHAN k, R.STK_STA.UP k, R.STK_STA.HOT k, R.STK_STA.UNFIT k, R.STK_STA.NMAP k] ++
  ([1, 2, 3].map fun n => [R.STK_REG.RATE k n, R.STK_REG.BURST k n]).flatten

/-- The stored fields of the GUEST block. -/
def guestFlds : List Fld :=
  [R.GST_CTL.OWNER, R.GST_STA.LINK_UP, R.GST_STA.MOD0_UP, R.GST_STA.MOD1_UP, R.GST_STA.FENCED, R.GST_STA.IN_RESET] ++
  [R.GST_STA.POWER_ON, R.GST_STA.REG_NO, R.GST_RATE.UNITS, R.GST_VIOL_ADDR.ADDR, R.GST_VIOL_INFO.ADDR_LO, R.GST_VIOL_INFO.CAUSE] ++
  [R.GST_VIOL_INFO.WIN, R.GST_VIOL_INFO.TYPE, R.GST_VIOL_INFO.TAG, R.GST_VIOL_INFO.VALID, R.GST_RESET.RESET] ++
  ((List.range 16).map fun n => [R.GST_WIN_BASE.BASE n, R.GST_WIN_LIMIT.LIMIT n, R.GST_WIN_PERM.EN n, R.GST_WIN_PERM.RD n, R.GST_WIN_PERM.WR n]).flatten

/-- The stored fields of the HOSTIF block. -/
def hostifFlds : List Fld :=
  [R.HIF_LINK_STA.UP, R.HIF_LINK_STA.GEN, R.HIF_LINK_STA.WIDTH, R.HIF_LINK_STA.FLIT, R.HIF_LINK_STA.REVERSED, R.HIF_LINK_STA.IDE] ++
  [R.HIF_LINK_STA.INVERTED, R.HIF_DENIED.OFFSET, R.HIF_DENIED.PF] ++
  ((List.range 16).map fun n => [R.HIF_PF_MAP.CH n, R.HIF_DMA_HADDR_LO.HADDR n, R.HIF_DMA_HADDR_HI.HADDR n, R.HIF_DMA_PA.PA n, R.HIF_DMA_LEN.LEN n, R.HIF_DMA_CTL.DIR n, R.HIF_DMA_CTL.START n, R.HIF_DMA_STA.BUSY n, R.HIF_DMA_STA.DONE n, R.HIF_DMA_STA.ERR n]).flatten

/-- The stored fields of the MGMT block. -/
def mgmtFlds : List Fld :=
  [R.MGT_SMB_ADDR.ADDR, R.SNS_BUS_CTL.EN, R.SNS_BUS_CTL.FAST, R.SNS_BUS_CTL.RETRY, R.SNS_BUS_STA.FENCED, R.SNS_BUS_STA.PULSES] ++
  [R.SNS_BUS_STA.PRESENT] ++
  ((List.range 8).map fun n => [R.SNS_TARGET.ADDR n, R.SNS_TARGET.KIND n, R.SNS_TARGET.STATE n, R.SNS_TARGET.VALUE n]).flatten

/-- The stored fields of the CORE_WIN block. -/
def coreWinFlds (r : Nat) : List Fld :=
  [R.CW_SEL.LCID r, R.CW_SEL.TARGET r, R.CW_SEL.BANK r, R.CW_SEL.INC r, R.CW_ADDR.ADDR r, R.CW_DATA.DATA r] ++
  [R.CW_STA.BUSY r, R.CW_STA.REFUSED r, R.CW_STA.BYPASS r, R.CW_STA.UE r]

/-- The stored fields of the TEST block. -/
def testFlds : List Fld :=
  [R.TST_CTL.EN, R.TST_SEED.BASE, R.TST_PAIRING.AXIS, R.TST_MISMATCH.LCID, R.TST_MISMATCH.ENGINE, R.TST_MISMATCH.VALID] ++
  [R.TST_MISMATCH_TICK.TICK, R.TST_COUNT.BLOCKS, R.TST_ABORTS.COUNT]

/-- The stored fields of the PLAN block. -/
def planFlds (f : Nat) : List Fld :=
  [R.PLAN_LOAD_ADDR.ADDR f, R.PLAN_LOAD_CMD.LOAD f, R.PLAN_LOAD_CMD.UNLOAD f, R.PLAN_LOAD_CMD.RESTART f, R.PLAN_STA.BUSY f, R.PLAN_STA.LOADED f] ++
  [R.PLAN_STA.NUMID_DIFF f, R.PLAN_STA.VARIANCE f, R.PLAN_STA.BOOST f, R.PLAN_STA.FILLER f, R.PLAN_STA.ROLE f, R.PLAN_STA.POSITION f] ++
  [R.PLAN_ERR.CODE f, R.PLAN_ERR.SECTION f, R.PLAN_ERR.VALID f, R.PLAN_ERR_LOC.STATION f, R.PLAN_ERR_LOC.ENTRY f, R.PLAN_ERR_TICK.PTICK f] ++
  [R.PLAN_ERR_CYC.CYCLE f, R.PLAN_ID_LO.ID f, R.PLAN_ID_HI.ID f, R.PLAN_PERIOD.PERIOD f, R.PLAN_RESUME_LO.TICK f, R.PLAN_RESUME_HI.TICK f]

/-- The stored fields of the PANTRY block. -/
def pantryFlds (k : Nat) : List Fld :=
  [R.PAN_OPT.NONFIN k, R.PAN_OPT.GNS_EN k, R.PAN_OPT.GNS_CLR k, R.PAN_STA.GVALID k, R.PAN_STA.SKIPPED k, R.PAN_STA.LSAT k] ++
  [R.PAN_STA.LNONFIN k, R.PAN_STA.GSAT k, R.PAN_STA.GNONFIN k, R.PAN_STA.GNS_SAT k, R.PAN_STEP.STEP k, R.PAN_SEED_LO.SEED k] ++
  [R.PAN_SEED_HI.SEED k, R.PAN_JOURNAL_USE.CUR k, R.PAN_JOURNAL_USE.PEAK k, R.PAN_MB_COUNT.MB k, R.PAN_MB_COUNT.STEPS k, R.PAN_CLIP.C k] ++
  [R.PAN_EXP_CTL.TENSOR k, R.PAN_EXP_CTL.DIR k, R.PAN_EXP_CTL.MOM k, R.PAN_EXP_CTL.GRAD k, R.PAN_EXP_CTL.START k, R.PAN_EXP_ADDR.ADDR k] ++
  [R.PAN_EXP_STA.BUSY k, R.PAN_EXP_STA.DONE k, R.PAN_EXP_STA.FAIL k, R.PAN_EXP_STA.CAUSE k, R.PAN_EXP_STA.UNITS k] ++
  ((List.range 4).map fun n => [R.PAN_NORM_ACC.SUM k n, R.PAN_NORM_GLB.SUM k n, R.PAN_GNS_SMALL.SUM k n, R.PAN_GNS_BIG.SUM k n]).flatten ++
  ((List.range 16).map fun n => [R.PAN_HYPER.P k n]).flatten

/-- The stored block fields of a page (0x000 to 0xFFF, plus the requester sets above). -/
def pageFlds (pg : Nat) : List Fld :=
  let p := pg % 0x1000
  let r := pg / 0x1000
  if p = 0x00 then topFlds
  else if p = 0x01 then atticFlds
  else if p = 0x02 then bringupFlds
  else if p = 0x03 then tickFlds
  else if p = 0x04 then hearthFlds
  else if p = 0x05 then faultFlds
  else if p = 0x06 then partFlds
  else if 0x08 ≤ p ∧ p ≤ 0x0B then dieFlds (p - 0x08)
  else if 0x10 ≤ p ∧ p ≤ 0x13 then edgeFlds (p - 0x10)
  else if p = 0x18 then hallFlds
  else if p = 0x19 then reduceFlds
  else if 0x20 ≤ p ∧ p ≤ 0x2B then porchFlds (p - 0x20)
  else if 0x30 ≤ p ∧ p ≤ 0x3B then stackFlds (p - 0x30)
  else if p = 0x40 then guestFlds
  else if p = 0x41 then hostifFlds
  else if p = 0x42 then mgmtFlds
  else if p = 0x50 then coreWinFlds r
  else if p = 0x51 then testFlds
  else if p = 0x52 then planFlds r
  else if 0x60 ≤ p ∧ p ≤ 0x6B then pantryFlds (p - 0x60)
  else []

/-- The implemented pages (Table 15.8). -/
def pages : List Nat :=
  (List.range 7) ++ (List.range 4).map (0x08 + ·) ++ (List.range 4).map (0x10 + ·) ++
  [0x18, 0x19] ++ (List.range 12).map (0x20 + ·) ++ (List.range 12).map (0x30 + ·) ++
  [0x40, 0x41, 0x42, 0x50, 0x51, 0x52] ++ (List.range 12).map (0x60 + ·)

/-- Is the page implemented (Table 15.8)? -/
def pageExists (p : Nat) : Bool := pages.contains p

/-- The posted-write pages: ATTIC, HEARTH, PORCH, STACK and PANTRY (R409). -/
def postedPage (p : Nat) : Bool :=
  p == 0x01 || p == 0x04 || (decide (0x20 ≤ p) && decide (p ≤ 0x2B)) ||
  (decide (0x30 ≤ p) && decide (p ≤ 0x3B)) || (decide (0x60 ≤ p) && decide (p ≤ 0x6B))

/-- The pages whose EN may be cleared while the package runs (Table 15.8, R373). -/
def enClearRunning (p : Nat) : Bool :=
  [0x01, 0x02, 0x06, 0x40, 0x41, 0x42, 0x50, 0x52].contains p

end Sys2Proof.Machine
end

