-- ==== Sys2Proof/Machine/SMap.lean ====
section
/-! DEFINITION. Sparse stores: a sorted list of (key, value) pairs in one canonical form, with one
value that every unlisted key reads as. Memories, register files and the state of units that
come in large numbers are stores of this kind. -/

namespace Sys2Proof.Machine

/-- A sparse store. -/
abbrev SMap (β : Type) := List (Nat × β)

/-- The value listed for `k`, if any. -/
def smFind {β : Type} : SMap β → Nat → Option β
  | [], _ => none
  | (k', v) :: m, k => if k' = k then some v else smFind m k

/-- What `k` reads as; `d` is what an unlisted key reads as. -/
def smGet {β : Type} (d : β) (m : SMap β) (k : Nat) : β := (smFind m k).getD d

/-- List `v` for `k`, keeping the keys rising. -/
def smInsert {β : Type} : SMap β → Nat → β → SMap β
  | [], k, v => [(k, v)]
  | (k', v') :: m, k, v =>
    if k < k' then (k, v) :: (k', v') :: m
    else if k = k' then (k, v) :: m
    else (k', v') :: smInsert m k v

/-- Remove all that is listed for `k`. -/
def smErase {β : Type} : SMap β → Nat → SMap β
  | [], _ => []
  | (k', v') :: m, k => if k' = k then smErase m k else (k', v') :: smErase m k

/-- Write `v` at `k`: writing what an unlisted key reads as removes the entry. -/
def smSet {β : Type} [DecidableEq β] (d : β) (m : SMap β) (k : Nat) (v : β) : SMap β :=
  if v = d then smErase m k else smInsert m k v

/-- Change the value at `k`. -/
def smUpd {β : Type} [DecidableEq β] (d : β) (m : SMap β) (k : Nat) (f : β → β) : SMap β :=
  smSet d m k (f (smGet d m k))

/-- Write consecutive keys from `k`. -/
def smSetList {β : Type} [DecidableEq β] (d : β) (m : SMap β) (k : Nat) : List β → SMap β
  | [] => m
  | v :: vs => smSetList d (smSet d m k v) (k + 1) vs

/-- Read `n` consecutive keys from `k`. -/
def smGetList {β : Type} (d : β) (m : SMap β) (k : Nat) : Nat → List β
  | 0 => []
  | n + 1 => smGet d m k :: smGetList d m (k + 1) n

/-- Drop every listed key of a range: those keys read as the unlisted value again. -/
def smClear {β : Type} (m : SMap β) (lo n : Nat) : SMap β :=
  m.filter fun e => !(decide (lo ≤ e.1) && decide (e.1 < lo + n))

/-- The canonical form: keys strictly rising, and no entry equal to what an unlisted key reads as. -/
def smWf {β : Type} [DecidableEq β] (d : β) (m : SMap β) : Bool :=
  decide (m.Pairwise fun a b => a.1 < b.1) && m.all fun e => decide (e.2 ≠ d)

end Sys2Proof.Machine
end

