-- ==== Sys2Proof/Machine/State.lean ====
section
/-! DEFINITION. The state of the package: plain data. Every register field is held in `regs` under
its key, as its difference (exclusive or) from its First power-on value, so that an unlisted field
reads its First power-on value. Everything that comes in large numbers is a sparse store. -/

namespace Sys2Proof.Machine

/-- Why the machine stops. -/
inductive Fault where
  /-- A core's instruction, a host access or a loaded image names a byte address in stack 12 to 15,
  which names no memory (R190), and the spec gives the access no effect. Raised by the transfer
  instructions. Safe: the model stops where the spec says nothing. -/
  | noMemory (pa : Nat)
  deriving DecidableEq, Repr

/-- Why a command has no meaning. -/
inductive Refusal where
  /-- Raised by an arm of `exec` whose meaning is not written. Safe: nothing is claimed of it. -/
  | notModelled (mnemonic : String)
  deriving DecidableEq, Repr

/-! ### Fused values (15 Table 15.5; 02 R54, R63; 07 R209; log 4) -/

/-- What a unit says of itself in a discovery frame (Table 2.2): fused part identifier, CRC-32C of its fuse contents,
die revision, lanes of its port that pass receiver detection, and serial number. -/
structure UnitId where
  part : Nat
  digest : Nat
  rev : Nat
  lanes : Nat
  serial : Nat
  deriving DecidableEq, Repr

structure Fuse where
  grade : Nat
  guestOption : Bool
  guestReg : Nat
  serial : Nat
  hub : UnitId
  dieIds : List UnitId
  stackIds : List UnitId
  badCores : List (Nat × Nat × Nat)
  badBundles : List (Nat × Nat)
  badLanes : List (Nat × Nat × Nat)
  deriving DecidableEq, Repr

/-! ### Outputs of the package (log 3) -/

structure Out where
  /-- MSI-X vectors signalled, oldest first: function and vector (R385). -/
  msix : List (Nat × Nat)
  /-- Read data returned to each requester by its last register read (R396). -/
  rd : SMap Word
  /-- Bytes returned by the last SMBus transfer, and whether it was NACKed (R388). -/
  smb : List Byte
  smbNack : Bool
  /-- Data of the last BAR2 completion and its status: 0 successful, 1 Unsupported Request (R384),
  2 Completer Abort (R202). -/
  bar2 : List Byte
  bar2Sta : Nat
  /-- The last frame sent on each port (R263). -/
  frames : SMap (Option Frame)
  /-- Bytes written to host memory by DMA: host address and data (R386). -/
  host : SMap Byte
  deriving DecidableEq, Repr

/-! ### The tick (01) -/

/-- A replay of this package's tick (R35). -/
inductive Replay where
  | none
  /-- Voided, waiting for its runs to end. -/
  | quiescing
  /-- Marks sent, Bell boards restored, waiting for R0. -/
  | ready
  /-- Executing again from R0. -/
  | running
  deriving DecidableEq, Repr

structure Tick where
  /-- Launch pending (R22): L and the package's own digest. -/
  pend : Option (Nat × Nat)
  /-- GO received (R22). -/
  armed : Bool
  /-- LAUNCH frames collected by the root (R22). -/
  digests : List (Nat × Nat)
  /-- TICK_LAUNCH before any stretch of the pending boundary (R33). -/
  nominal : Nat
  /-- Job tick (R16). -/
  job : Nat
  /-- D and V of the pending boundary have been passed (R18). -/
  atD : Bool
  atV : Bool
  replay : Replay
  /-- The fault that voided the tick: code and unit id (R304). -/
  voidCode : Option (Nat × Nat)
  /-- Sources whose arrivals of the tick are dropped until their REPLAY mark (R33). -/
  voidedSrcs : List Nat
  /-- A fault drain is in progress (R307). -/
  faultDrain : Bool
  /-- Boundary of a planned drain (R308). -/
  planned : Option Nat
  /-- Lock-step halt at the next boundary (R323). -/
  haltNext : Bool
  /-- The package has entered DRAIN and the sequence of R309 runs. -/
  draining : Bool
  /-- The drain was planned: the last tick completed (R308, R310). -/
  drainPlanned : Bool
  /-- STRETCH frames forwarded: boundary and index (R27). -/
  stretchSeen : List (Nat × Nat)
  /-- Packages to which this package has sent DATA or COLL frames in the tick; 0xFFFF for a broadcast (R35). -/
  paths : List Nat
  /-- The hub has issued the norm contribution in this tick (R298). -/
  norm : Bool
  /-- Energy of the tick as last metered, µJ (HTH_TICK_E). -/
  energy : Nat
  /-- Count at the start of the replay (R35). -/
  r0 : Nat
  /-- VOIDs found due for a tick that this package has not yet begun: source and tick (R41, R42; log 110). -/
  earlyVoids : List (Nat × Nat)
  deriving DecidableEq, Repr

structure Sync where
  /-- Exchange in progress: t1 (R10). -/
  xchg : Option Nat
  /-- Correction still to slew, in ns, and the reference nanoseconds since the last one was slewed (R12). -/
  slew : Int
  ref : Nat
  /-- LOCK has been set since bring-up (R12). -/
  locked : Bool
  deriving DecidableEq, Repr

/-! ### Memory runs (07, 01 R39) -/

/-- What a run is for. -/
inductive RunKind where
  | read | write
  | ild (park : Bool)
  | csav (part bank : Nat)
  | crst (part bank : Nat)
  /-- A Pantry command as it travels, and the access of one unit of it (R223, R227). -/
  | pan (cmd tensor : Nat)
  | unit (cmd tensor : Nat)
  /-- A working-copy write (R227, R241). -/
  | copy
  /-- A run of host work `j` (R386). -/
  | host (j : Nat) (wr : Bool)
  deriving DecidableEq, Repr

/-- A run: one access of one channel under one stamp (R39, R191). -/
structure Run where
  kind : RunKind
  pa : Nat
  beats : Nat
  tick : Nat
  seq : Nat
  core : Nat
  line : Nat
  cnt : Nat
  sem : Nat
  bank : Nat
  hinge : Option (Nat × Nat)
  data : List Byte
  /-- Partition that issued it. -/
  part : Nat
  /-- Retries made in the tick (R202). -/
  retries : Nat
  /-- Byte time of its tick at which it is all at the channel controller (R193, R194). -/
  arr : Nat
  deriving DecidableEq, Repr

/-! ### Cores (03, 05) -/

/-- An instruction held in stall mode for displaced accesses (R151, R152): its issue, its words, the cycle of its first
feeder access, and the descriptors as they stood in its issue cycle (R85). -/
structure Held where
  issue : Issue
  w : Nat
  x : Nat
  first : Nat
  descs : List Nat
  deriving DecidableEq, Repr

inductive EngMode where
  | running
  /-- Holding a WAIT: semaphore, threshold, take, P, PS (R97). -/
  | blocked (s n : Nat) (take p : Bool) (ps : Nat)
  | atTend
  | halted
  | parked
  /-- At its entry point, the pending half not READY (R93). -/
  | holding
  /-- Stopped by a parity error (R94). -/
  | stopped
  /-- Held by a displaced access in stall mode (R151, R152). -/
  | stalled (h : Held)
  deriving DecidableEq, Repr

structure Eng where
  mode : EngMode
  /-- Word index in the active half, or in the park buffer (R83, R110). -/
  idx : Nat
  /-- First cycle in which the engine may issue. -/
  free : Nat
  deriving DecidableEq, Repr

/-- A WAIT evaluated in a cycle (R98): engine, semaphore key, N, T, P and PS, and whether it was granted. -/
structure WaitRec where
  eng : Nat
  sem : Nat
  key : Nat
  n : Nat
  take : Bool
  p : Bool
  ps : Nat
  granted : Bool
  deriving DecidableEq, Repr

/-- An instruction that has issued and has not completed (R83). -/
structure Outst where
  eng : Nat
  /-- Completion cycle, once known. -/
  due : Option Nat
  p : Bool
  ps : Nat
  /-- The memory run it waits for: tick and SEQ, or none. -/
  run : Option (Nat × Nat × Nat)
  deriving DecidableEq, Repr

/-- A weight set of an array (R144, R145): cells keyed 64 × column + k. -/
structure WSet where
  elems : SMap Nat
  scales : SMap Nat
  desc : Nat
  kext : Nat
  /-- Cycle from which the set is full; none: not full (R145). -/
  full : Option Nat
  deriving DecidableEq, Repr

/-- An inbound memory run: its stamp and post, and whether its data is complete (R104). -/
structure Inbound where
  stack : Nat
  tick : Nat
  seq : Nat
  cnt : Nat
  sem : Nat
  bank : Nat
  landed : Bool
  deriving DecidableEq, Repr

structure Core where
  /-- Local store, by LSA (R86). -/
  ls : SMap Byte
  /-- Fresh bit of each line (R90). -/
  fresh : SMap Bool
  /-- Instruction buffer, words 0 to 3 071 (R92), and the park buffer (R169). -/
  ib : SMap Nat
  park : SMap Nat
  /-- The active half is B (R92). -/
  activeB : Bool
  /-- The pending half is READY (R92). -/
  ready : Bool
  entries : List Nat
  pendEntries : List Nat
  parkEntries : List Nat
  /-- Active Bell-board bank now and in the pending segment (R96). -/
  bank : Nat
  pendBank : Nat
  /-- Semaphores, keyed 32 × bank + s, as they stood at the start of cycle `semCyc`; the changes, the WAITs in engine
  order and the takes of that cycle (R98). -/
  sem : SMap Nat
  semCyc : Nat
  semDelta : SMap Int
  semWaits : List WaitRec
  semTake : SMap Nat
  /-- Copies of the boundary (R25): semaphores, active bank, entry points, half. -/
  copySem : SMap Nat
  copyBank : Nat
  copyEntries : List Nat
  /-- Format descriptors as they stood at the start of cycle `descCyc`; the values written in that
  cycle, in force from the next; the descriptors written twice in it; and the cycle after which
  each was last changed (R85, R429). -/
  desc : SMap Nat
  descCyc : Nat
  descNew : SMap (Option Nat)
  descBad : List Nat
  descWhen : SMap Nat
  /-- Accumulators, keyed 2 048 × array + 8 × row + column; saturation bits; per row (256 × array +
  row) whether it was last fed by the integer path, the cycle from which it is readable, and the
  cycle in which a drain already issued reads it (R130, R142, R143, R153). -/
  acc : SMap Word
  accOvf : SMap Bool
  accInt : SMap Bool
  accReady : SMap Nat
  accRead : SMap Nat
  /-- Weight sets: active and shadow of array 0 and 1 (R144). -/
  act0 : WSet
  sh0 : WSet
  act1 : WSet
  sh1 : WSet
  paired : Bool
  /-- LDWs whose delivery a pending beat holds in stall mode, by array (R151). -/
  heldLdw : SMap (Option Held)
  /-- First cycle after the last MMA's hold, by array (R150). -/
  mmaUntil : SMap Nat
  /-- MV activations: elements and scales keyed 2 048 × row + 32 × K-tile + k (R154). -/
  mvElems : SMap Nat
  mvScales : SMap Nat
  mvRows : Nat
  mvTiles : Nat
  mvDesc : Nat
  /-- MV accumulator, keyed 256 × row + column, with the same marks (R154). -/
  mvAcc : SMap Word
  mvOvf : SMap Bool
  mvInt : SMap Bool
  mvReady : SMap Nat
  mvRead : SMap Nat
  /-- Vector registers, keyed 16 × register + lane (R156). -/
  vreg : SMap Word
  engs : SMap Eng
  outst : List Outst
  /-- Park ticks left, and the park list loaded for the next tick (R110). -/
  parkLeft : Nat
  parkPend : Option Nat
  /-- Tick number at the first boundary of the park (Table 3.5). -/
  parkTick : Nat
  /-- Context image: running CRC and mask of CSAV and of CRST (R113), restored header. -/
  savCrc : Nat
  savMask : Nat
  rstCrc : Nat
  rstMask : Nat
  rstHdr : Option (List Byte)
  /-- DEADLOCK reported (R107). -/
  dead : Bool
  /-- Inbound runs that have not posted (R104). -/
  landing : List Inbound
  /-- First cycle of the tick after the last inbound transfer to the core (R105). -/
  inboundEnd : Nat
  gated : Bool
  fenced : Bool
  /-- A loaded plan binds the core: partition + 1; 0 none (R173). -/
  bound : Nat
  /-- Filler whose segment is active, and whose the pending half holds; 0 none (R381). Only LD's first
  word runs in the tick: the filler of the segment has stopped (R381). -/
  fill : Nat
  pendFill : Nat
  lone : Bool
  /-- CRC-64 of the local-store writes of the tick (R322). -/
  sig : Nat
  /-- Next test block of each engine in the tick, and the signatures formed: engine, block, signature (R314). -/
  blocks : SMap Nat
  tests : List (Nat × Nat × Nat)
  deriving DecidableEq, Repr

/-- A transfer between cores on its way (R101): `due`, the cycle in which its last beat is written (R59, R103); `gone`,
its beats discarded on the sending edge (R431). -/
structure Xfer where
  src : Nat
  dst : Nat
  due : Nat
  gone : List Nat
  line : Nat
  cnt : Nat
  sem : Nat
  bank : Nat
  data : List Byte
  deriving DecidableEq, Repr

/-! ### Faults (11) -/

/-- A fault log entry (Table 11.4). -/
structure LogEntry where
  seq : Nat
  code : Nat
  flags : Nat
  unit : Nat
  unitId : Nat
  tick : Nat
  cycle : Nat
  extra : Nat
  time : Nat
  detail : Nat
  deriving DecidableEq, Repr

structure Flt where
  /-- The log ring, keyed SEQ mod 1 024 (R303). -/
  log : SMap (Option LogEntry)
  /-- Lock-step: the peer's signature bytes of the tick, and the frames received (R322). -/
  peerSig : SMap Byte
  peerGot : List Nat
  deriving DecidableEq, Repr

/-- A unit's history (R319): times of its last three events (latest first), total, class, re-test flag. -/
structure Hist where
  times : List Nat
  total : Nat
  cls : Nat
  retest : Bool
  deriving DecidableEq, Repr

/-! ### Ports and the Hall (09) -/

/-- A SYNC frame waiting: the frame and the copies already sent (R254). -/
structure SyncTx where
  frame : Frame
  sent : Nat
  deriving DecidableEq, Repr

structure Port where
  /-- LSEQ of the next sequenced frame, and the next LSEQ expected (R255, R256). -/
  lseq : Nat
  e : Nat
  /-- Held frames, oldest first, with their number of sends (R255). -/
  held : List (Frame × Nat)
  /-- LSEQ of the next held frame to resend, while a go-back replay runs (R258). -/
  goback : Option Nat
  /-- NAK in the next frame; a gap stands and has been NAKed (R256). -/
  nakNext : Bool
  gap : Bool
  syncQ : List SyncTx
  /-- The first copy of a SYNC frame last accepted, whose second copy is dropped (R254). -/
  syncSeen : Option Frame
  /-- Planned frames waiting for their reserved slots, in planned order (R263). -/
  planned : List Frame
  ctrlQ : List Frame
  testQ : List Frame
  /-- Retraining; time of the last retrain (R259, R260). -/
  retraining : Bool
  lastRetrain : Option Nat
  /-- Rebinding to the duplicate, waiting for REBIND_ACK (R269). -/
  rebinding : Bool
  /-- Package and port of the last IDENT heard, and what it said (R266): package, port, serial, bind word, heard package, heard port. -/
  heard : Option (List Nat)
  /-- Light present (R249). -/
  light : Bool
  /-- P4 or P5 found the error rate too high (R249, R266). -/
  ber : Bool
  /-- PORT_BIND as the last classification had it (R267). -/
  bindAt : Nat
  deriving DecidableEq, Repr

/-- A Landing entry: the frame and the counter value at which it was accepted (R270, R289). -/
structure Landed extends Frame where
  came : Nat
  deriving DecidableEq, Repr

structure Hall where
  /-- Landing entries in order of acceptance (R270). -/
  land : List Landed
  /-- Entries committed to cores, whose posts wait for the boundary: core, bank, semaphore, count (R272). -/
  posts : List (Nat × Nat × Nat × Nat)
  /-- Route-table entries of 16 B, by index (R273). -/
  routes : SMap (List Byte)
  deriving DecidableEq, Repr

/-! ### Refresh (07 R195, R197) -/

structure Refresh where
  /-- Windows owed by every channel since launch, and the make-up windows each channel has run:
  a channel's debt is the difference (R197). -/
  owed : Nat
  paid : SMap Nat
  /-- Counter value of the launch's opening boundary, and in Boost mode how long after it the last window of each channel
  fell due (R199). -/
  since : Nat
  due : SMap Nat
  deriving DecidableEq, Repr

/-! ### Channels and stacks (07) -/

/-- A channel: its queue of runs (at most 32, R193), the run being served and the byte time it began,
the byte time from which the channel is free, the run that waits as a retry ahead of the queue
(R201), and the retry occupancy of the tick (R202). Byte times count from the opening boundary, or
from replay start (R192). -/
structure Chan where
  queue : List Run
  cur : Option Run
  start : Nat
  freeAt : Nat
  retry : Option Run
  retryOcc : Nat
  deriving DecidableEq, Repr

structure Stack where
  /-- Margining: the measurement in progress, and whether a step of it is being made (R212). -/
  margin : Bool
  stepOn : Bool
  /-- Channels being zeroed for a change of class (R208). -/
  zeroMask : Nat
  /-- STK_REF_PHASE and STK_RETRY_RESV as they stood at plan load (R196). -/
  refAt : Nat
  resvAt : Nat
  /-- Tokens in the bucket of secondary partition n (R213). -/
  tokens : SMap Nat
  /-- Bad lanes of each channel in the order in which they were replaced, numbered as Table 7.6 numbers lanes (R209). -/
  spares : SMap (List Nat)
  deriving DecidableEq, Repr

/-! ### The Pantry (08) -/

/-- A journal entry (R242): the area's key (2 × unit record address, plus 1 for a sweep's areas), the
unit record address, the pre-images by address, the unit's flag byte, and the bytes it counts for. -/
structure JEntry where
  key : Nat
  pa : Nat
  pre : List (Nat × List Byte)
  flag : Nat
  bytes : Nat
  deriving DecidableEq, Repr

/-- An accumulator of R231 with its flags. -/
structure Acc128 where
  v : Nat
  sat : Bool
  nonfin : Bool
  deriving DecidableEq, Repr

structure Pan where
  /-- Flag store by unit number (R218). -/
  flags : SMap Nat
  /-- Sources of gradient commands to a unit in the tick (LCID + 1), and units swept in it (R225, R243). -/
  src : SMap Nat
  swept : SMap Bool
  journal : List JEntry
  norm : Acc128
  small : Acc128
  big : Acc128
  /-- Copies of the boundary (R243). -/
  norm0 : Acc128
  small0 : Acc128
  big0 : Acc128
  gnsClr : Bool
  /-- STEP_SKIPPED recorded in the step (R235). -/
  skipRec : Bool
  /-- Export or import in progress: DIR, tensor, content bits, record address, torn (R245). -/
  xfer : Option (Bool × Nat × Nat × Nat × Bool)
  deriving DecidableEq, Repr

/-! ### The loaded plans (06) -/

/-- STREAMS entry (Table 6.11). -/
structure StreamE where
  num : Nat
  transport : Nat
  rel : Bool
  producer : Nat
  consumer : Nat
  dest : Nat
  tiles : Nat
  fmt : Nat
  base : Nat
  stride : Nat
  ring : Nat
  sem : Nat
  cnt : Nat
  seq0 : Nat
  deriving DecidableEq, Repr

/-- Placement entry of a SEGMENTS section (R184). -/
structure SegE where
  lcid : Nat
  kind : Nat
  ptick : Nat
  imgOff : Nat
  pa : Nat
  deriving DecidableEq, Repr

/-- FABRIC entry (R176). -/
structure FabE where
  ptick : Nat
  slot0 : Nat
  nslot : Nat
  port : Nat
  cls : Nat
  stream : Nat
  dest : Nat
  deriving DecidableEq, Repr

/-- COLLECTIVE entry (R177). -/
structure CollE where
  ctx : Nat
  kind : Nat
  format : Nat
  allot : Nat
  segmax : Nat
  npart : Nat
  deriving DecidableEq, Repr

/-- Tensor extent entry (Table 8.8). -/
structure TensorE where
  tensor : Nat
  stack : Nat
  alg : Nat
  mb : Nat
  flags : Nat
  pa : Nat
  nunits : Nat
  first : Nat
  wcPa : Nat
  r0 : Nat
  c0 : Nat
  nr : Nat
  nc : Nat
  tr : Nat
  tc : Nat
  deriving DecidableEq, Repr

/-- The PANTRY section (Tables 8.7, 8.8). -/
structure PanSec where
  stepPtick : Nat
  normPtick : Nat
  normCtx : Nat
  mbatch : Nat
  mseq : List Nat
  tensors : List TensorE
  deriving DecidableEq, Repr

/-- A loaded plan: header fields and this role's sections (R171 to R180, R184). -/
structure Plan where
  id : Nat
  variance : Bool
  boost : Bool
  filler : Bool
  part : Nat
  role : Nat
  pos : Nat
  npkg : Nat
  period : Nat
  tickLen : Nat
  guard : Nat
  primaryId : Nat
  guestTbl : Nat
  stations : List (Nat × Nat × Nat × Nat)
  streams : List StreamE
  segs : List SegE
  fabric : List FabE
  /-- Frames that land at this package in each period tick (R271). -/
  landing : SMap Nat
  colls : List CollE
  pantry : Option PanSec
  /-- Regions and the class each must have (R178). -/
  memory : List (Nat × Nat)
  /-- Published idle rectangles: period tick, die, rows and columns (R179). -/
  bubbles : List (Nat × Nat × Nat × Nat × Nat × Nat)
  energy : SMap Nat
  deriving DecidableEq, Repr

/-- A secondary partition's run (R377): start tick while pending or running, tick it stops at, and
whether it stops at the closing boundary. -/
structure Sec where
  start : Nat
  stop : Option Nat
  deriving DecidableEq, Repr

/-! ### Collectives (10) -/

/-- A piece issued by a core (R276): where its result goes. -/
structure Piece where
  core : Nat
  part : Nat
  ctx : Nat
  kind : Nat
  seg : Nat
  step : Nat
  rline : Nat
  cnt : Nat
  sem : Nat
  bank : Nat
  /-- Beats of the piece, and ARR (R282). -/
  len : Nat
  arr : Bool
  /-- Job tick that issued it. -/
  tick : Nat
  deriving DecidableEq, Repr

/-- A sum in the reduction SRAM (R281, R292): steps added, elements, saturation recorded. -/
structure RSum where
  part : Nat
  ctx : Nat
  seg : Nat
  /-- Job tick of the first phase. -/
  tick : Nat
  added : List Nat
  acc : List Nat
  flags : List Nat
  sat : Bool
  /-- Counter value at which its last addition ended, or its recomputation began (R289, R295). -/
  doneAt : Nat
  deriving DecidableEq, Repr

structure Reduce where
  pieces : List Piece
  sums : List RSum
  /-- RED_ALLOT as it stood at the last enable (R300). -/
  allotAt : List Nat
  /-- Per partition, the end of the work that its lanes have done, in lane-nanoseconds of the counter (R289). -/
  laneAt : List Nat
  deriving DecidableEq, Repr

/-! ### The guest (02) -/

/-- An accepted memory request (R72): write data, or none for a read; address, beats, tag, job tick of acceptance. -/
structure GReq where
  data : Option (List Byte)
  addr : Nat
  len : Nat
  tag : Nat
  tick : Nat
  /-- Place in the order of acceptance of unplanned work (R200). -/
  order : Nat
  deriving DecidableEq, Repr

structure Guest where
  seq : Nat
  e : Nat
  held : List (GFlit × Nat)
  /-- Flits that wait while the replay buffer is full (R255). -/
  wait : List GFlit
  nakNext : Bool
  gap : Bool
  /-- A sequenced flit has been accepted and not acknowledged (R71). -/
  ackDue : Bool
  retraining : Bool
  credits : Nat
  reqs : List GReq
  /-- STRM_OUT flits of each stream in the tick (R74). -/
  seen : SMap Nat
  /-- Flits sent to the guest, oldest first. -/
  sent : List GFlit
  /-- GST_CTL.OWNER as it stood at the last enable of the GUEST page (Table 14.2). -/
  ownerAt : Nat
  /-- The identity frame last read over the sideband; empty: the guest did not answer (R70). -/
  ident : List Byte
  /-- Guest and host writes served in this tick's guard, oldest first: address, bytes before, bytes written; and whether a replay of the
  tick has taken them back until its own guard (R72). -/
  wrote : List (Nat × List Byte × List Byte)
  undone : Bool
  deriving DecidableEq, Repr

/-! ### Power, the sensor bus and the Hearth (12, 14) -/

structure Hearth where
  /-- PWR_EN and the input switch; the latch of an over-current opening (R327, R328). -/
  pwrEn : Bool
  closed : Bool
  ocLatch : Bool
  /-- Trip latch of R339; it outlasts a reset. -/
  trip : Bool
  /-- Cause of the last power loss, and whether the next bring-up has yet to log it (R327). -/
  lossCause : Nat
  lost : Bool
  /-- Thermal cap in percent of HTH_CAP_W; an episode runs; the hottest die or hub reading, in 1/16 °C (R338). -/
  thermal : Nat
  episode : Bool
  hottest : Int
  /-- The DRAM cap stands (R340). -/
  dramHot : Bool
  /-- Flow in 0.01 L/min once a value exists, inlet in use in 1/16 °C once read (R342). -/
  flow : Option Nat
  inlet : Option Int
  /-- HTH_CAP_EFF lies below HTH_CAP_W (Table 12.6). -/
  reduced : Bool
  /-- Set-point and ballast, in mW (R335); the set-point starts again from the draw (R336). -/
  setPoint : Nat
  ballast : Nat
  resync : Bool
  /-- A limit stands; the limiter is engaged; limited in this tick (R330, R331). -/
  atLimit : Bool
  engaged : Bool
  limited : Bool
  deriving DecidableEq, Repr

/-- The sensor bus: consecutive NACKs of each target (R390), and whether SNS_BUS_CTL.RETRY has asked for a recovery
that has not ended (R391). -/
structure SnsBus where
  nacks : SMap Nat
  asked : Bool
  deriving DecidableEq, Repr

/-! ### The Attic and bring-up (13) -/

/-- A record of the Attic (R361, R362): its two copies, each with epoch and content; a copy that has
never been written is absent. -/
structure ARec where
  a : Option (Nat × List Nat)
  b : Option (Nat × List Nat)
  deriving DecidableEq, Repr

structure Attic where
  /-- Records by number: the slot of Table 13.5, or 2³² + history key for a HISTORY record. -/
  recs : SMap ARec
  /-- Requests waiting, each with its newest content, and the record being written (R364). -/
  queue : List (Nat × List Nat)
  writing : Option (Nat × List Nat)
  /-- Records that each SYNC still waits for (R364). -/
  sync : List (List Nat)
  deriving DecidableEq, Repr

/-- Discovery of a die or a stack (R51, R52): bundle in use, the request sent on it and how often, and the frame
answered. -/
structure Disc where
  bundle : Nat
  req : List Byte
  tries : Nat
  answered : Bool
  gaveUp : Bool
  ident : List Byte
  /-- What the probed die or stack has taken as its identity, and the answer it sent (R51). -/
  taken : Option Nat
  rsp : List Byte
  deriving DecidableEq, Repr

structure Bringup where
  /-- Phase that runs next (R350); 9: no bring-up in progress. -/
  next : Nat
  /-- The hub runs its boot ROM only (R353). -/
  bootRom : Bool
  /-- Counter value at the start of P0 (BU_TIME_US). -/
  started : Nat
  /-- Discovery, keyed die, or 4 + stack. -/
  disc : SMap Disc
  /-- Word 0 of the lane groups' results, keyed 256 × KIND + index (Table 13.8), and the free values
  from which words 1 and 2 are read (log 2). -/
  links : SMap Nat
  linkBase : Nat
  /-- Trained coefficients of the units that train, and their lanes' margins as lane, timing and voltage steps one after
  another, by INDEX of Table 13.5 (R211, R351, R355). -/
  coef : SMap (List Nat)
  marg : SMap (List Nat)
  /-- EDGE_BER per bundle, keyed 32 × die + bundle: resends, beyond, P5 errors; the sequence numbers of the flits in its
  replay buffer, oldest first, and of those whose resend is awaited (R58). -/
  ber : SMap (List Nat)
  flits : SMap (List Nat)
  resend : SMap (List Nat)
  /-- COLD_NEXT as recorded, and as it stood when this bring-up began (R351). -/
  coldNext : Bool
  wantCold : Bool
  deriving DecidableEq, Repr

/-! ### Host interface and partitions (14, 15) -/

/-- One piece of host work that is still to do: its span, whether it writes the package, and the bytes of a write whose
bytes stand already. -/
structure HostAcc where
  pa : Nat
  len : Nat
  wr : Bool
  data : List Byte
  deriving DecidableEq, Repr

/-- Host work in progress: a DMA transfer, an export or import, or the reading of a plan image (R182, R245, R386). -/
structure HostJob where
  /-- Place in the order of acceptance (R200). -/
  order : Nat
  part : Nat
  /-- Host address of the next byte that a DMA transfer moves. -/
  haddr : Nat
  /-- What is left, in order. -/
  todo : List HostAcc
  /-- Bytes read so far, and the first bytes of the record that an export writes. -/
  got : List Byte
  head : List Byte
  /-- Retries of the run at its front (R201). -/
  tries : Nat
  /-- How far it has come: 0 its first reads; of an export 1 the writing of its record; of an import 1 the reading of the
  record's body, 2 the writing of its units. -/
  phase : Nat
  /-- 0, or why it ends: of an export or import a CAUSE of Table 8.11; else any other number. -/
  fault : Nat
  deriving DecidableEq, Repr

structure HostIf where
  /-- SMBus window and the two bits of WIN_STATUS (R388). -/
  win : Nat
  winDrop : Bool
  winNone : Bool
  /-- A posted write waiting on a page: requester, view, offset, word (R409). -/
  posted : SMap (Option (Nat × Nat × Nat × Nat))
  /-- LAP has toggled since the last read of PG_EVT_SEQ, by page (R407). -/
  lapped : SMap Bool
  /-- CORE_WIN access in progress, by requester: CW_SEL, CW_ADDR, 1 for a write, data (R115). -/
  cw : SMap (Option (List Nat))
  /-- Requesters whose CORE_WIN access is in progress, in the order of arrival (R115, R397). -/
  cwOrder : List Nat
  /-- Host work in progress: 0 to 15 DMA channels, 16 + k the export or import of stack k, 28 + f the load of function f. -/
  jobs : SMap (Option HostJob)
  /-- Unplanned work accepted so far (R200). -/
  accepted : Nat
  /-- Owner of each 256 MiB region (R375); 7 free. -/
  owner : SMap Nat
  /-- Regions waiting to be zeroed; cores and filler banks being zeroed (R374). -/
  zeroing : List Nat
  zeroCores : List Nat
  zeroBanks : Nat
  /-- Partitions that gain Landing entries being zeroed, one bit each (R374). -/
  zeroLand : Nat
  /-- Partitions' resources at the last enable of the PART page: n ↦ DIES, ROW0, ROW1, COL0, COL1, LAND, EN,
  FILLER, BANKS (R373). -/
  partAt : SMap (List Nat)
  deriving DecidableEq, Repr

/-! ### The state -/

structure State where
  /-- The commands that wait, first in first out. -/
  pending : List Instr
  /-- The model's own counter of free values (log 2). -/
  freeCtr : Nat
  out : Out
  fuse : Fuse
  /-- The global counter, 64 bits (R10). -/
  counter : Nat
  sync : Sync
  tick : Tick
  /-- Cores, keyed by LCID. -/
  cores : SMap Core
  /-- Transfers on the mesh, oldest first (R101). -/
  mesh : List Xfer
  /-- Runs on their way to their channel, oldest first (R193). -/
  transit : List Run
  /-- Package memory by byte address PA (R190). -/
  mem : SMap Byte
  flt : Flt
  /-- Unit histories, keyed unit type × 2²⁴ + unit id (R319). -/
  hist : SMap Hist
  ports : SMap Port
  hall : Hall
  refresh : Refresh
  /-- Bad physical columns of each row as mapped, keyed 128 × die + row (R63, R65). -/
  rowMaps : SMap (List Nat)
  /-- Causes for which a secondary stops at the closing boundary, by partition (R379). -/
  secStop : SMap Nat
  /-- Channels, keyed 32 × stack + channel, and stacks (07). -/
  chans : SMap Chan
  stks : SMap Stack
  /-- Pantries by stack (08). -/
  pans : SMap Pan
  /-- Loaded plans by partition (06), and secondary runs by partition (R377). -/
  plans : SMap (Option Plan)
  secs : SMap (Option Sec)
  /-- Redirect table of the filler: primary PA to filler PA (R381). -/
  redirect : SMap Nat
  reduce : Reduce
  guest : Guest
  hearth : Hearth
  sns : SnsBus
  attic : Attic
  bu : Bringup
  hif : HostIf
  /-- Register fields (see the file's head). -/
  regs : SMap Nat
  /-- High words latched per requester: requester × 2³² + word key (R397). -/
  latch : SMap (Option Nat)
  deriving DecidableEq, Repr

def unitId0 : UnitId := { part := 0, digest := 0, rev := 0, lanes := 0, serial := 0 }

def Fuse.std : Fuse :=
  { grade := 10, guestOption := false, guestReg := 0, serial := 0, hub := unitId0, dieIds := List.replicate 4 unitId0,
    stackIds := List.replicate 12 unitId0, badCores := [], badBundles := [], badLanes := [] }

def wset0 : WSet := { elems := [], scales := [], desc := 0, kext := 0, full := none }

/-- A core after bring-up (R86, R96, R359): empty, its engines at TEND (log 7). -/
def core0 : Core :=
  { ls := [], fresh := [], ib := [], park := [], activeB := false, ready := false,
    entries := [0, 0, 0, 0, 0, 0], pendEntries := [0, 0, 0, 0, 0, 0], parkEntries := [0, 0, 0, 0, 0, 0],
    bank := 0, pendBank := 0, sem := [], semCyc := 0, semDelta := [], semWaits := [], semTake := [],
    copySem := [], copyBank := 0, copyEntries := [0, 0, 0, 0, 0, 0], desc := [],
    descCyc := 0, descNew := [], descBad := [], descWhen := [],
    acc := [], accOvf := [], accInt := [], accReady := [], accRead := [],
    act0 := wset0, sh0 := wset0, act1 := wset0, sh1 := wset0, paired := false, heldLdw := [], mmaUntil := [],
    mvElems := [], mvScales := [], mvRows := 0, mvTiles := 0, mvDesc := 0, mvAcc := [], mvOvf := [],
    mvInt := [], mvReady := [], mvRead := [], vreg := [], engs := [], outst := [], parkLeft := 0,
    parkPend := none, parkTick := 0, savCrc := 0, savMask := 0, rstCrc := 0, rstMask := 0, rstHdr := none,
    dead := false, landing := [], inboundEnd := 0, gated := false, fenced := false, bound := 0,
    fill := 0, pendFill := 0, lone := false, sig := 0, blocks := [], tests := [] }

/-- An engine at TEND. -/
def eng0 : Eng := { mode := .atTend, idx := 0, free := 0 }

def port0 : Port :=
  { lseq := 0, e := 0, held := [], goback := none, nakNext := false, gap := false, syncQ := [],
    syncSeen := none, planned := [], ctrlQ := [], testQ := [], retraining := false, lastRetrain := none,
    rebinding := false, heard := none, light := false, ber := false, bindAt := 0 }

def chan0 : Chan := { queue := [], cur := none, start := 0, freeAt := 0, retry := none, retryOcc := 0 }

def stack0 : Stack :=
  { margin := false, stepOn := false, zeroMask := 0, refAt := 120 * 2 ^ 16, resvAt := 20,
    tokens := [], spares := [] }

def acc128z : Acc128 := { v := 0, sat := false, nonfin := false }

def pan0 : Pan :=
  { flags := [], src := [], swept := [], journal := [], norm := acc128z, small := acc128z, big := acc128z,
    norm0 := acc128z, small0 := acc128z, big0 := acc128z, gnsClr := false, skipRec := false, xfer := none }

def reduce0 : Reduce :=
  { pieces := [], sums := [], allotAt := [1024, 0, 0, 0], laneAt := [0, 0, 0, 0] }

def guest0 : Guest :=
  { seq := 0, e := 0, held := [], wait := [], nakNext := false, gap := false, ackDue := false, retraining := false,
    credits := 0, reqs := [], seen := [], sent := [], ownerAt := 0,
    ident := [], wrote := [], undone := false }

/-- The Hearth before power (R328): the switch open, no cap lowered. -/
def hearth0 : Hearth :=
  { pwrEn := false, closed := false, ocLatch := false, trip := false, lossCause := 0, thermal := 100,
    lost := false, episode := false, hottest := 0, dramHot := false, flow := none, inlet := none, reduced := false,
    setPoint := 0, ballast := 0, resync := true, atLimit := false, engaged := false, limited := false }

def arec0 : ARec := { a := none, b := none }

def attic0 : Attic := { recs := [], queue := [], writing := none, sync := [] }

def disc0 : Disc :=
  { bundle := 0, req := [], tries := 0, answered := false, gaveUp := false, ident := [], taken := none, rsp := [] }

def bringup0 : Bringup :=
  { next := 9, bootRom := false, started := 0, disc := [], links := [], linkBase := 0, coef := [], marg := [],
    ber := [], flits := [], resend := [], coldNext := false, wantCold := false }

def hif0 : HostIf :=
  { win := 0, winDrop := false, winNone := false, posted := [], lapped := [], cw := [], cwOrder := [], owner := [],
    zeroing := [], zeroCores := [], zeroBanks := 0, zeroLand := 0, jobs := [], accepted := 0, partAt := [] }

def hist0 : Hist := { times := [], total := 0, cls := 0, retest := false }

/-- First power-on, the input switch open (R328, R349): every register at its First power-on value. -/
def State.reset : State :=
  { pending := [], freeCtr := 0,
    out := { msix := [], rd := [], smb := [], smbNack := false, bar2 := [], bar2Sta := 0,
             frames := [], host := [] },
    fuse := Fuse.std, counter := 0, sync := { xchg := none, slew := 0, ref := 0, locked := false },
    tick := { pend := none, armed := false, digests := [], nominal := 0, job := 0, atD := false,
              atV := false, replay := .none, voidCode := none, voidedSrcs := [], faultDrain := false,
              planned := none, haltNext := false, draining := false, drainPlanned := false,
              stretchSeen := [], paths := [], norm := false, energy := 0, r0 := 0,
              earlyVoids := [] },
    cores := [], mesh := [], transit := [], mem := [],
    flt := { log := [], peerSig := [], peerGot := [] }, hist := [], ports := [],
    hall := { land := [], posts := [], routes := [] },
    refresh := { owed := 0, paid := [], since := 0, due := [] }, rowMaps := [], secStop := [],
    chans := [], stks := [], pans := [], plans := [], secs := [], redirect := [], reduce := reduce0,
    guest := guest0, hearth := hearth0, sns := { nacks := [], asked := false }, attic := attic0, bu := bringup0, hif := hif0,
    regs := [], latch := [] }

end Sys2Proof.Machine
end

