-- ==== Sys2Proof/Machine/Ops.lean ====
section
/-! DEFINITION. The named operations over registers, events, memory and the free values. -/

namespace Sys2Proof.Machine

/-! ### Register fields -/

/-- The value of a register field. -/
def getF (s : State) (f : Fld) : Nat := smGet 0 s.regs (fldKey f) ^^^ f.por

/-- Write a register field (the value is cut to the field). -/
def setF (s : State) (f : Fld) (v : Nat) : State :=
  { s with regs := smSet 0 s.regs (fldKey f) ((v % 2 ^ f.width) ^^^ f.por) }

/-- A field as a flag. -/
def flagF (s : State) (f : Fld) : Bool := getF s f == 1

/-- Write a one-bit field. -/
def setB (s : State) (f : Fld) (b : Bool) : State := setF s f (if b then 1 else 0)

/-- Add to a counter field that saturates at its width. -/
def incSat (s : State) (f : Fld) (n : Nat) : State := setF s f (satAdd (2 ^ f.width - 1) (getF s f) n)

/-- Raise a field to `v` when `v` is larger (the PEAK fields). -/
def peakF (s : State) (f : Fld) (v : Nat) : State := setF s f (max (getF s f) v)

/-- Insert into a sorted list, before the first element that it precedes. -/
def insertBy {α : Type} (le : α → α → Bool) (x : α) : List α → List α
  | [] => [x]
  | y :: l => if le x y then x :: y :: l else y :: insertBy le x l

/-- Sort a list; equal elements keep their order. -/
def sortBy {α : Type} (le : α → α → Bool) (l : List α) : List α := l.foldr (insertBy le) []

/-- Write several fields. -/
def setFs : State → List (Fld × Nat) → State
  | s, [] => s
  | s, (f, v) :: l => setFs (setF s f v) l

/-- A field back at its First power-on value. -/
def resetF (s : State) (f : Fld) : State := setF s f f.por

/-! ### Events (R406, R408, R385) -/

/-- The register set of requester r of a page stands at page + r × 0x1000 (R408). -/
def reqPage (pg r : Nat) : Nat := pg + r * 0x1000

/-- Signal MSI-X vector 16 × page + bit to function f when its enable bit is 1 (R385, R408). -/
def signal (pg bit f : Nat) (s : State) : State :=
  if bitsOf (getF s (R.PG_EVT_EN.EN (reqPage (pg % 0x1000) f))) bit 1 = 1 then
    { s with out := { s.out with msix := s.out.msix ++ [(f, 16 * (pg % 0x1000) + bit)] } }
  else s

/-- Raise an event: set its bit, advance SEQ, toggle LAP at the wrap, signal (R406, R408). A function's
own PLAN view signals that function, every other page PF0 (R385). -/
def raise (e : Ev) (s : State) : State :=
  let seq := getF s (R.PG_EVT_SEQ.SEQ e.page)
  let s := setF s (R.PG_EVT.EVT e.page) (getF s (R.PG_EVT.EVT e.page) ||| 2 ^ e.bit)
  let s := setF s (R.PG_EVT_SEQ.SEQ e.page) (seq + 1)
  let s := if seq = 2 ^ 16 - 1 then
      { setF s (R.PG_EVT_SEQ.LAP e.page) (1 - getF s (R.PG_EVT_SEQ.LAP e.page)) with
        hif := { s.hif with lapped := smSet false s.hif.lapped e.page true } }
    else s
  signal e.page e.bit (if e.page % 0x1000 = 0x52 then e.page / 0x1000 else 0) s

/-- Raise an event of PART_RUN_STA, which its partition's own function receives too (R385). -/
def raiseSec (n : Nat) (e : Ev) (s : State) : State := signal e.page e.bit n (raise e s)

/-- Raise an event when a condition holds. -/
def raiseIf (b : Bool) (e : Ev) (s : State) : State := if b then raise e s else s

/-! ### Free values (log 2) -/

/-- The next free value, and the state with the counter advanced. -/
def takeFree (s : State) : Word × State := (Config.freeValue s.freeCtr, { s with freeCtr := s.freeCtr + 1 })

/-! ### States of the package -/

def stBringup : Nat := 0
def stReady : Nat := 1
def stRun : Nat := 2
def stDrain : Nat := 3
def stFlagged : Nat := 4

def topState (s : State) : Nat := getF s R.TOP_STATE.STATE

/-- Change TOP_STATE; STATE is raised when it changes (Table 15.6). -/
def setTop (v : Nat) (s : State) : State :=
  if topState s = v then s else raise E.TOP.STATE (setF s R.TOP_STATE.STATE v)

def running (s : State) : Bool := flagF s R.TICK_NUM.RUN

/-- This package's ID. -/
def myId (s : State) : Nat := getF s R.TOP_PKG_ID.ID

/-- TICK_NUM.NUM. -/
def tickNum (s : State) : Nat := getF s R.TICK_NUM.NUM

def isRoot (s : State) : Bool := getF s R.TICK_ROOT.ROOT == myId s

/-- LOCK reads 1: the root's does always (Table 1.10). -/
def lockNow (s : State) : Bool := isRoot s || flagF s R.TICK_SYNC_STA.LOCK

/-- TICK_ROOT or TOP_PKG_ID has been written: a package that was the root until TICK_ROOT named another keeps its lock
(R12, R13; log 5), and the rise of LOCK is an event (Table 1.11). -/
def noteRoot (rootWritten : Bool) (s0 s : State) : State :=
  let s := if rootWritten && isRoot s0 && !isRoot s then
      setB { s with sync := { s.sync with locked := true, slew := 0 } } R.TICK_SYNC_STA.LOCK true
    else if isRoot s then { s with sync := { s.sync with slew := 0 } } else s
  raiseIf (!lockNow s0 && lockNow s) E.TICK.SYNC_LOCK s

def tickLen (s : State) : Nat := getF s R.TICK_LEN.LEN

/-- The launch count as it stands, 64 bits (Table 1.5). -/
def tickLaunch (s : State) : Nat := getF s R.TICK_LAUNCH_LO.LAUNCH + 2 ^ 32 * getF s R.TICK_LAUNCH_HI.LAUNCH

def setLaunch (v : Nat) (s : State) : State :=
  setF (setF s R.TICK_LAUNCH_LO.LAUNCH v) R.TICK_LAUNCH_HI.LAUNCH (v / 2 ^ 32)

/-- The closing boundary of the tick in progress: TICK_LAUNCH + (n + 1) × TICK_LEN (R16). -/
def closing (s : State) : Nat := (tickLaunch s + (s.tick.job + 1) * tickLen s) % 2 ^ 64

/-- The grade's frequency in units of 100 MHz: cycles per 10 ns (R3, R17). -/
def gradeF (s : State) : Nat := s.fuse.grade

/-! ### Registers as read -/

/-- A fused field's value (R3, R70, Table 15.5). -/
def fusedVal (s : State) (f : Fld) : Option Nat :=
  if f = R.TOP_PART_ID.GRADE ∨ f = R.TOP_TIMID.GRADE then some s.fuse.grade
  else if f = R.TOP_PART_ID.GUEST then some (if s.fuse.guestOption then 1 else 0)
  else if f = R.TOP_STEPPING.GUEST_REG then some s.fuse.guestReg
  else none

/-- The field as a read shows it: the fused grade and guest option stand in their own state (Table 15.5),
the counter and the time of the bring-up likewise (Tables 1.5, 13.8); on the time root LOCK reads 1 and OFFSET, HOPS and MISSED 0 (Tables 1.9, 1.10). -/
def showF (s : State) (f : Fld) : Nat :=
  if (fusedVal s f).isSome then (fusedVal s f).getD 0
  else if f = R.TICK_COUNT_LO.COUNT then s.counter % 2 ^ 32
  else if f = R.BU_TIME_US.TIME ∧ s.bu.next ≤ 8 then subMod 64 s.counter s.bu.started / 1000 % 2 ^ 32
  else if f = R.BU_MODE.COLD_NEXT then (if s.bu.coldNext then 1 else 0)
  else if f = R.TICK_COUNT_HI.COUNT then s.counter / 2 ^ 32 % 2 ^ 32
  else if f = R.TICK_SYNC_STA.LOCK then (if isRoot s then 1 else getF s f)
  else if f = R.TICK_OFFSET.OFFSET ∨ f = R.TICK_SYNC_STA.HOPS ∨ f = R.TICK_SYNC_STA.MISSED then
    (if isRoot s then 0 else getF s f)
  else getF s f

/-- A 32-bit register as its fields stand; commands read 0, but for COLD_NEXT, which shows a status (R369). -/
def regWord (s : State) (pg off : Nat) : Nat :=
  (pageFlds pg).foldl (fun w f =>
    if f.off = off ∧ (f.acc ≠ .cmd ∨ f = R.BU_MODE.COLD_NEXT) then w + showF s f * 2 ^ f.lo else w) 0

/-! ### Cores -/

def getCore (s : State) (c : Nat) : Core := smGet core0 s.cores c

def updCore (s : State) (c : Nat) (f : Core → Core) : State :=
  { s with cores := smUpd core0 s.cores c f }

def setCore (s : State) (c : Nat) (v : Core) : State := { s with cores := smSet core0 s.cores c v }

/-- Apply a function to every listed core; `f` leaves the unlisted value as it is. -/
def mapCores (f : Nat → Core → Core) (s : State) : State :=
  { s with cores := (s.cores.map fun e => (e.1, f e.1 e.2)).filter fun e => decide (e.2 ≠ core0) }

def getEng (c : Core) (e : Nat) : Eng := smGet eng0 c.engs e

def updEng (c : Core) (e : Nat) (f : Eng → Eng) : Core := { c with engs := smUpd eng0 c.engs e f }

/-! ### Ports -/

def getPort (s : State) (p : Nat) : Port := smGet port0 s.ports p

def updPort (s : State) (p : Nat) (f : Port → Port) : State :=
  { s with ports := smUpd port0 s.ports p f }

/-! ### Time -/

/-- The counter takes its next value. -/
def countOn (s : State) : State := { s with counter := (s.counter + 1) % 2 ^ 64 }

/-- A nanosecond of a correction is slewed: at most one in 10 000 ns of the reference, 100 ns per millisecond (R12). The
root runs free (R10). -/
def slewDue (s : State) : Bool := !isRoot s && s.sync.slew != 0 && decide (10000 ≤ s.sync.ref)

/-- Time passes (R9, R10, R12): a nanosecond of the reference takes the counter to its next value. Where a correction is
slewed, the counter takes a value more than the reference gives, or a nanosecond of the reference passes at a standing
count: no value is skipped and none is stepped back to (log 5). -/
def idle (s : State) : State :=
  if !slewDue s then countOn { s with sync := { s.sync with ref := min 10000 (s.sync.ref + 1) } }
  else if 0 < s.sync.slew then countOn { s with sync := { s.sync with slew := s.sync.slew - 1, ref := 0 } }
  else { s with sync := { s.sync with slew := s.sync.slew + 1, ref := 0 } }

/-! ### Package memory (R190) -/

/-- Bytes of memory in the package: stack values 12 to 15 of PA[39:36] name no memory. -/
def memTop : Nat := 12 * 2 ^ 36

def rdMem (s : State) (a : Nat) : Byte := smGet 0 s.mem a

def rdMems (s : State) (a n : Nat) : List Byte := smGetList 0 s.mem a n

def wrMems (s : State) (a : Nat) (bs : List Byte) : State := { s with mem := smSetList 0 s.mem a bs }

/-- Does the byte address name memory? -/
def memOk (a : Nat) : Bool := decide (a < memTop)

/-- The channel that a byte address lies in: stack × 32 + channel (R190). -/
def chanOf (a : Nat) : Nat := a / 2 ^ 31

/-! ### Channels, stacks, Pantries, plans -/

/-- Key of a channel: 32 × stack + channel. -/
def chanKey (k c : Nat) : Nat := 32 * k + c

def getChan (s : State) (c : Nat) : Chan := smGet chan0 s.chans c

def updChan (s : State) (c : Nat) (f : Chan → Chan) : State := { s with chans := smUpd chan0 s.chans c f }

/-- Apply a function to every listed channel; `f` leaves the unlisted value as it is. -/
def mapChans (f : Chan → Chan) (s : State) : State :=
  { s with chans := (s.chans.map fun e => (e.1, f e.2)).filter fun e => decide (e.2 ≠ chan0) }

def getStk (s : State) (k : Nat) : Stack := smGet stack0 s.stks k

def updStk (s : State) (k : Nat) (f : Stack → Stack) : State := { s with stks := smUpd stack0 s.stks k f }

def getPan (s : State) (k : Nat) : Pan := smGet pan0 s.pans k

def updPan (s : State) (k : Nat) (f : Pan → Pan) : State := { s with pans := smUpd pan0 s.pans k f }

def getPlan (s : State) (n : Nat) : Option Plan := smGet none s.plans n

/-- The primary plan, if one is loaded. -/
def primary (s : State) : Option Plan := getPlan s 0

/-- Job tick as a period tick of a partition's plan (R170, R377). -/
def periodTick (s : State) (n : Nat) : Nat :=
  match getPlan s n with
  | none => 0
  | some p =>
    if n = 0 then s.tick.job % max 1 p.period
    else match smGet none s.secs n with
      | some q => (s.tick.job - q.start) % max 1 p.period
      | none => 0

/-- A secondary partition runs (R377). -/
def secRunning (s : State) (n : Nat) : Bool := flagF s (R.PART_RUN_STA.RUN n)

/-- Does partition n's plan run: the primary's with the package, a secondary's while its RUN is 1 (R116)? -/
def partRuns (s : State) (n : Nat) : Bool :=
  (getPlan s n).isSome && (if n = 0 then running s else secRunning s n)

/-! ### Seed and step (R135, R229: every Pantry holds the same values; PANTRY0's are read) -/

def jobSeed (s : State) : Nat := getF s (R.PAN_SEED_LO.SEED 0) + 2 ^ 32 * getF s (R.PAN_SEED_HI.SEED 0)

def trainStep (s : State) : Nat := getF s (R.PAN_STEP.STEP 0)

/-! ### Serial-number arithmetic of ticks (R40) -/

inductive TickCmp where
  | same
  | newer (d : Nat)
  | older (d : Nat)
  | far
  deriving DecidableEq, Repr

/-- Compare arrival tick a with current tick c (R40). -/
def tickCmp (a c : Nat) : TickCmp :=
  let d := subMod 24 a c
  if d = 0 then .same
  else if d < 2 ^ 23 then .newer d
  else if d > 2 ^ 23 then .older (2 ^ 24 - d)
  else .far

end Sys2Proof.Machine
end

