-- ==== Sys2Proof/Machine/Net.lean ====
section
/-! DEFINITION. Coordinates, routes, frames and the queues of a port's egress (R252 to R254, R261,
R262, R269). -/

namespace Sys2Proof.Machine

/-! ### Coordinates (R261) -/

def dimD (s : State) (i : Nat) : Nat :=
  match i with
  | 0 => getF s R.HALL_PORTMAP.D0
  | 1 => getF s R.HALL_PORTMAP.D1
  | _ => getF s R.HALL_PORTMAP.D2

/-- Packages of the system. -/
def nPkg (s : State) : Nat := dimD s 0 * dimD s 1 * dimD s 2

/-- Coordinate i of a package ID. -/
def coord (s : State) (id i : Nat) : Nat :=
  match i with
  | 0 => id % dimD s 0
  | 1 => id / dimD s 0 % dimD s 1
  | _ => id / (dimD s 0 * dimD s 1)

/-- Package ID of coordinates. -/
def pkgAt (s : State) (x y z : Nat) : Nat := x + dimD s 0 * (y + dimD s 1 * z)

/-- Ports used by dimension links (R261). -/
def usedPorts (s : State) : Nat := (dimD s 0 - 1) + (dimD s 1 - 1) + (dimD s 2 - 1)

/-- Fabric hops from this package to another. -/
def hopsTo (s : State) (id : Nat) : Nat :=
  ([0, 1, 2].filter fun i => coord s (myId s) i != coord s id i).length

def allPorts : List Nat := List.range 48

/-- The port bound to coordinate c of dimension i. -/
def boundPort (s : State) (i c : Nat) : Option Nat :=
  allPorts.find? fun p =>
    getF s (R.PORT_BIND.ROLE p) == 1 && getF s (R.PORT_BIND.DIM p) == i && getF s (R.PORT_BIND.PEERC p) == c

/-- The lowest-numbered port that names k as the port it duplicates (R268). -/
def dupOf (s : State) (k : Nat) : Option Nat :=
  allPorts.find? fun p => getF s (R.PORT_BIND.ROLE p) == 2 && getF s (R.PORT_BIND.DUPOF p) == k

/-- A usable duplicate of k (R268): trained, no fault, up, not already carrying another's traffic. -/
def usableDup (s : State) (k : Nat) : Option Nat :=
  match dupOf s k with
  | some j =>
    if flagF s (R.PORT_STA.USABLE j) && flagF s (R.PORT_STA.UP j) && !flagF s (R.PORT_STA.DOWN j) &&
       !flagF s (R.PORT_STA.ACTIVE j) then some j else none
  | none => none

/-- The port that carries the traffic of port k now: k itself, or the duplicate it was moved to (R269). -/
def carrier (s : State) (k : Nat) : Option Nat :=
  if flagF s (R.PORT_STA.REBOUND k) then
    allPorts.find? fun j => getF s (R.PORT_BIND.ROLE j) == 2 && flagF s (R.PORT_STA.ACTIVE j) &&
      getF s (R.PORT_STA.NOWFOR j) == k && !flagF s (R.PORT_STA.DOWN j)
  else if flagF s (R.PORT_STA.USABLE k) && !flagF s (R.PORT_STA.DOWN k) then some k
  else none

/-- The egress port of the next hop toward a package: x first, then y, then z (R262). -/
def egressPort (s : State) (dst : Nat) : Option Nat :=
  match [0, 1, 2].find? fun i => coord s (myId s) i != coord s dst i with
  | none => none
  | some i =>
    match boundPort s i (coord s dst i) with
    | none => none
    | some k => carrier s k

/-- The dimension ports in use, of dimensions from `lo` on (R262). -/
def dimPorts (s : State) (lo : Nat) : List Nat :=
  allPorts.filterMap fun p =>
    if getF s (R.PORT_BIND.ROLE p) = 1 ∧ lo ≤ getF s (R.PORT_BIND.DIM p) then carrier s p else none

/-- The dimension of the link that a frame on port p belongs to: its own, or that of the port it carries for. -/
def portDim (s : State) (p : Nat) : Nat :=
  if getF s (R.PORT_BIND.ROLE p) = 2 then getF s (R.PORT_BIND.DIM (getF s (R.PORT_BIND.DUPOF p)))
  else getF s (R.PORT_BIND.DIM p)

/-! ### Frames (R252) -/

def clsData : Nat := 0
def clsColl : Nat := 1
def clsSync : Nat := 2
def clsCtrl : Nat := 3
def clsTest : Nat := 4

def b2n (b : Bool) : Nat := if b then 1 else 0

/-- The header as a 128-bit number (Table 9.2). -/
def frameHeader (f : Frame) : Nat :=
  f.cls % 8 + f.kind % 16 * 2 ^ 3 + f.beats % 8 * 2 ^ 7 + b2n f.bc * 2 ^ 10 + b2n f.copy * 2 ^ 11 +
  f.src % 4096 * 2 ^ 12 + f.dst % 4096 * 2 ^ 24 + f.seq % 2 ^ 16 * 2 ^ 36 + f.tick % 2 ^ 24 * 2 ^ 52 +
  f.stream % 2 ^ 16 * 2 ^ 76 + f.tile % 2 ^ 24 * 2 ^ 92 + f.foff % 256 * 2 ^ 116

/-- Trailer bytes 0 to 3 (Table 9.3). -/
def frameTrailer (f : Frame) : Nat :=
  f.lseq % 4096 + b2n f.seqv * 2 ^ 12 + b2n f.ackv * 2 ^ 13 + b2n f.nak * 2 ^ 14 + f.ack % 4096 * 2 ^ 16

/-- The 256 payload bytes as carried: zero-filled (R252). -/
def framePayload (f : Frame) : List Byte :=
  (f.payload ++ List.replicate (256 - f.payload.length) 0#8).take 256

/-- The CRC of header, payload and trailer bytes 0 to 3 (R252). -/
def frameCrc (f : Frame) : Nat :=
  crc32 (leBytes 16 (frameHeader f) ++ framePayload f ++ leBytes 4 (frameTrailer f))

/-- A frame with nothing in it. -/
def frame0 : Frame :=
  { cls := 0, kind := 0, beats := 0, bc := false, copy := false, src := 0, dst := 0, tick := 0,
    seq := 0, stream := 0, tile := 0, foff := 0, payload := [], lseq := 0, seqv := false,
    ackv := false, nak := false, ack := 0, crc := 0 }

/-- A SYNC frame of this package (Table 9.5): one beat, the sending tick in its stamp. -/
def syncFrame (s : State) (kind dst : Nat) (bc : Bool) (payload : List Byte) : Frame :=
  { frame0 with cls := clsSync, kind := kind, beats := 1, bc := bc, src := myId s,
                dst := if bc then 0 else dst, tick := tickNum s,
                payload := payload ++ List.replicate (64 - payload.length) 0#8 }

/-- A CTRL frame of this package (Table 9.4). -/
def ctrlFrame (s : State) (kind dst beats : Nat) (payload : List Byte) : Frame :=
  { frame0 with cls := clsCtrl, kind := kind, beats := beats, src := myId s, dst := dst,
                tick := tickNum s, payload := payload }

/-- Queue a SYNC frame on a port (R254). -/
def queueSync (p : Nat) (f : Frame) (s : State) : State :=
  updPort s p fun q => { q with syncQ := q.syncQ ++ [⟨f, 0⟩] }

/-- Queue a CTRL frame on a port. -/
def queueCtrl (p : Nat) (f : Frame) (s : State) : State :=
  updPort s p fun q => { q with ctrlQ := q.ctrlQ ++ [f] }

/-- Queue a SYNC frame on every port of a list. -/
def queueSyncs (f : Frame) (s : State) (ps : List Nat) : State :=
  ps.foldl (fun s p => queueSync p f s) s

/-- Broadcast: on every dimension port (R262). -/
def broadcast (kind : Nat) (payload : List Byte) (s : State) : State :=
  queueSyncs (syncFrame s kind 0 true payload) s (dimPorts s 0)

/-- Send a SYNC frame toward a package by route; with no usable route it is not sent. -/
def syncTo (kind dst : Nat) (payload : List Byte) (s : State) : State :=
  match egressPort s dst with
  | some p => queueSync p (syncFrame s kind dst false payload) s
  | none => s

end Sys2Proof.Machine
end

