-- ==== Sys2Proof/Machine/AtticQ.lean ====
section
/-! DEFINITION. The Attic's records and its write queue (R361 to R364). A record stands under the slot
of Table 13.5; unit histories, whose places the firmware assigns, stand under 2³² + their key, one
record each (log 30). A record's content is the list of the values its payload holds. -/

namespace Sys2Proof.Machine

def recPackage : Nat := 0
/-- Identities: 0 hub, 1 to 4 dies, 5 to 16 stacks, 17 guest. -/
def recIdentity (i : Nat) : Nat := 16 + i
def recFuse : Nat := 48
def recSettings (p : Nat) : Nat := 1072 + p
/-- Lane roles: 0 to 3 the bundles of a die, 4 to 15 the spares of a stack. -/
def recRoles (i : Nat) : Nat := 1184 + i
/-- Units that train: bundles 0 to 95, channels from 96, ports from 480, modules from 528. -/
def recTraining (i : Nat) : Nat := 1280 + i
def recMargins (i : Nat) : Nat := 9472 + i
/-- Four rows of a die's map. -/
def recMap (d r4 : Nat) : Nat := 17664 + 256 * d + r4
def recHistory (k : Nat) : Nat := 2 ^ 32 + k

def trainedUnits : Nat := 530

/-- The Kept fields of a page in ascending offset (R361). -/
def keptFlds (p : Nat) : List Fld :=
  sortBy (fun a b => decide (a.off * 32 + a.lo ≤ b.off * 32 + b.lo)) ((pageFlds p).filter fun f => f.kept)

/-- A unit history's values: three times, count, class, re-test flag. -/
def histContent (h : Hist) : List Nat :=
  [h.times.getD 0 0, h.times.getD 1 0, h.times.getD 2 0, h.total, h.cls, b2n h.retest]

/-- A history from its record's values. -/
def histOf (l : List Nat) : Hist :=
  { times := (l.take 3).takeWhile (· != 0), total := l.getD 3 0, cls := l.getD 4 0, retest := l.getD 5 0 == 1 }

/-- The discovery frame's bytes 4 to 23 as a number. -/
def identNo (bs : List Byte) : Nat := leNat ((bs.drop 4).take 20)

/-- Bytes 4 to 23 of the discovery frames that a unit sends, as a number (Table 2.2). -/
def idNo (u : UnitId) : Nat :=
  u.part % 2 ^ 32 + u.digest % 2 ^ 32 * 2 ^ 32 + u.rev % 2 ^ 16 * 2 ^ 64 + u.lanes % 2 ^ 16 * 2 ^ 80 + u.serial % 2 ^ 64 * 2 ^ 96

/-- The identity of the hub, a die, a stack or the guest as bring-up found it. -/
def identityOf (s : State) (i : Nat) : Nat :=
  if i = 0 then idNo s.fuse.hub
  else if i ≤ 16 then identNo (smGet disc0 s.bu.disc (i - 1)).ident
  else identNo s.guest.ident

def getRec (s : State) (r : Nat) : ARec := smGet arec0 s.attic.recs r

/-- The record's value: the valid copy with the higher epoch, copy A on equality (R362). -/
def recValue (a : ARec) : Option (List Nat) :=
  match a.a, a.b with
  | none, none => none
  | some x, none => some x.2
  | none, some y => some y.2
  | some x, some y => if x.1 < y.1 then some y.2 else some x.2

/-- The PACKAGE record: package ID, powered seconds, loss cause, COLD_NEXT, SUSPECT (Table 13.5). Until P3 has
restored them the ID and SUSPECT are those on record. -/
def packageContent (s : State) : List Nat :=
  let old := (recValue (getRec s recPackage)).getD []
  let done := flagF s R.ATTIC_RESTORE_STA.DONE
  [if done then myId s else old.getD 0 0, max (getF s R.ATTIC_POWERED.SECONDS) (if done then 0 else old.getD 1 0),
   s.hearth.lossCause, b2n s.bu.coldNext,
   if done ∨ flagF s R.FLT_SUSPECT.SUSPECT then getF s R.FLT_SUSPECT.SUSPECT else old.getD 4 0]

/-- What a record holds when it is written now (Table 13.5). -/
def recContent (s : State) (r : Nat) : List Nat :=
  if 2 ^ 32 ≤ r then histContent (smGet hist0 s.hist (r - 2 ^ 32))
  else if r = recPackage then packageContent s
  else if r < 48 then [identityOf s (r - 16)]
  else if r < 1072 then
    s.fuse.badCores.flatMap (fun c => [c.1, c.2.1, c.2.2]) ++ s.fuse.badBundles.flatMap (fun b => [b.1, b.2]) ++
    s.fuse.badLanes.flatMap (fun l => [l.1, l.2.1, l.2.2])
  else if r < 1184 then (keptFlds (r - 1072)).map fun f => getF s f
  else if r < 1280 then
    if r < 1188 then
      [getF s (R.EDGE_ROLE_LO.ROLE (r - 1184)), getF s (R.EDGE_ROLE_HI.ROLE (r - 1184)), getF s (R.EDGE_FAIL.FAILED (r - 1184))]
    else (smGet stack0 s.stks (r - 1188)).spares.flatMap fun e => e.1 :: e.2
  else if r < 9472 then smGet [] s.bu.coef (r - 1280)
  else if r < 17664 then smGet [] s.bu.marg (r - 9472)
  else
    (List.range 4).flatMap fun j =>
      let row := smGet [] s.rowMaps (128 * ((r - 17664) / 256) + 4 * ((r - 17664) % 256) + j)
      row.length :: row

/-- The higher valid epoch; 0: absent. -/
def recEpoch (a : ARec) : Nat :=
  max (match a.a with | some x => x.1 | none => 0) (match a.b with | some y => y.1 | none => 0)

/-- Is copy A the one that holds the record's value? -/
def valueInA (a : ARec) : Bool :=
  match a.a, a.b with
  | some x, some y => decide (y.1 ≤ x.1)
  | some _, none => true
  | _, _ => false

/-- A record write: the next epoch, in the copy that does not hold the value (R363). -/
def writeRec (content : List Nat) (a : ARec) : ARec :=
  let e := recEpoch a + 1
  if valueInA a then { a with b := some (e, content) } else { a with a := some (e, content) }

/-- A record takes no further writes (R363). -/
def recSaturated (s : State) (r : Nat) : Bool := recEpoch (getRec s r) == 0xFFFFFFFF

/-- ATTIC_STA follows the queue. -/
def showAttic (s : State) : State :=
  setFs s [(R.ATTIC_STA.PENDING, b2n (!s.attic.queue.isEmpty || s.attic.writing.isSome)),
           (R.ATTIC_STA.QUEUE, s.attic.queue.length)]

/-- Every SYNC waits for one record less; SYNCED for each that waits for none (Table 13.10). -/
def syncLess (r : Nat) (s : State) : State :=
  let l := s.attic.sync.map fun x => x.erase r
  (l.filter fun x => x.isEmpty).foldl (fun s _ => raise E.ATTIC.SYNCED s)
    { s with attic := { s.attic with sync := l.filter fun x => !x.isEmpty } }

/-- The next request's write starts; a record at its last epoch is passed over (R363, R364). -/
def atticNext : List (Nat × List Nat) → State → State
  | [], s => { s with attic := { s.attic with queue := [], writing := none } }
  | (r, c) :: rest, s =>
    if recSaturated s r then
      atticNext rest (syncLess r (raise E.ATTIC.EPOCH_SAT (setB s R.ATTIC_STA.EPOCH_SAT true)))
    else
      { s with attic := { s.attic with queue := rest, writing := some (r, c) } }

/-- A request merges with one of its record in the queue, or joins the queue's end (R364). `clr`: it is
written with LEN = 0 (R367). -/
def enqueue (r : Nat) (clr : Bool) (s : State) : State :=
  let q := s.attic.queue
  let c := if clr then [] else recContent s r
  { s with attic := { s.attic with
      queue := if q.any fun e => e.1 == r then q.map fun e => if e.1 = r then (r, c) else e else q ++ [(r, c)] } }

/-- A write starts when the Attic is idle (R364). -/
def atticGo (s : State) : State := showAttic (if s.attic.writing.isNone then atticNext s.attic.queue s else s)

/-- Queue a request and let it start. -/
def queueReq (r : Nat) (clr : Bool) (s : State) : State := atticGo (enqueue r clr s)

/-- Queue a record. -/
def queueRec (r : Nat) (s : State) : State := queueReq r false s

/-- The write in progress commits; the next one starts (R363, R364). -/
def commitRec (s : State) : State :=
  match s.attic.writing with
  | none => s
  | some (r, c) =>
    let a := writeRec c (getRec s r)
    let s := { s with attic := { s.attic with recs := smSet arec0 s.attic.recs r a, writing := none } }
    let s := syncLess r (setF s R.ATTIC_EPOCH.EPOCH (recEpoch a))
    showAttic (atticNext s.attic.queue s)

end Sys2Proof.Machine
end

