-- ==== Sys2Proof/Machine/Flags.lean ====
section
/-! DEFINITION. Faults: classes, codes, the log, unit histories, fencing, void, overrun, drain and
flag (R26 to R37, R301 to R310, R319, R320, R428). -/

namespace Sys2Proof.Machine

/-! ### Classes and units (Tables 11.1, 11.4) -/

def clLogged : Nat := 0
def clVoid : Nat := 1
def clPlan : Nat := 2
def clHard : Nat := 3

def uCore : Nat := 0
def uBundle : Nat := 1
def uChan : Nat := 2
def uLane : Nat := 3
def uPantry : Nat := 4
def uReduce : Nat := 5
def uPort : Nat := 6
def uGuest : Nat := 7
def uHub : Nat := 8
def uHearth : Nat := 9
def uPkg : Nat := 10
def uPair : Nat := 11

/-- A detected fault. -/
structure FaultRec where
  code : Nat
  cls : Nat
  unit : Nat
  unitId : Nat
  cyc : Nat
  detail : Nat
  extra : Nat
  /-- Flag cause of Table 11.10; 0 none. -/
  flag : Nat
  /-- Partition whose work it is; 0 primary or none. -/
  part : Nat
  deriving DecidableEq, Repr

/-- A fault record with nothing beside code, class and unit. -/
def mkFault (code cls unit unitId cyc detail : Nat) : FaultRec :=
  { code := code, cls := cls, unit := unit, unitId := unitId, cyc := cyc, detail := detail,
    extra := 0, flag := 0, part := 0 }

/-! ### Unit histories (R319, R320) -/

/-- The (c + 1)-th physical column that is not in `bad` (R63). -/
def goodCol (bad : List Nat) : Nat → Nat → Nat → Nat
  | 0, p, _ => p
  | fuel + 1, p, c =>
    if bad.contains p then goodCol bad fuel (p + 1) c
    else match c with
      | 0 => p
      | c + 1 => goodCol bad fuel (p + 1) c

/-- The physical column of a logical core under the loaded map (R63, R65). -/
def physCol (s : State) (lcid : Nat) : Nat :=
  goodCol (smGet [] s.rowMaps (lcid / 2 ^ 14 * 128 + lcid / 2 ^ 7 % 128)) 84 0 (lcid % 128)

/-- Key of a unit's history: cores by physical place, the rest by their unit id. -/
def histKey (s : State) (unit id : Nat) : Nat :=
  unit * 2 ^ 24 + (if unit = uCore then id / 2 ^ 7 * 2 ^ 7 + physCol s id else id)

/-- Unit types that have a history (R319): not the guest, the package or a core pair. -/
def hasHist (unit : Nat) : Bool := decide (unit ≤ 9) && unit != uGuest

def getHist (s : State) (k : Nat) : Hist := smGet hist0 s.hist k

/-- Units whose re-test flag is set (FLT_STA.PENDING). -/
def pendingTests (s : State) : Nat := min 255 (s.hist.filter fun e => e.2.retest).length

/-- Seconds of powered time (R319). -/
def powered (s : State) : Nat := getF s R.ATTIC_POWERED.SECONDS

/-! ### The log (R303) -/

/-- Write a log entry. -/
def logEntry (r : FaultRec) (recur : Bool) (s : State) : State :=
  let seq := getF s R.FLT_LOG_HEAD.SEQ
  let idle := !running s
  let e : LogEntry :=
    { seq := seq, code := r.code,
      flags := r.cls + b2n (s.tick.replay == .running) * 4 + b2n recur * 8 + b2n idle * 16,
      unit := r.unit, unitId := r.unitId, tick := tickNum s, cycle := r.cyc % 2 ^ 16,
      extra := r.extra, time := s.counter, detail := r.detail % 2 ^ 64 }
  let s := { s with flt := { s.flt with log := smSet none s.flt.log (seq % 1024) (some e) } }
  let s := setF s R.FLT_LOG_HEAD.SEQ (seq + 1)
  let s := if seq = 2 ^ 16 - 1 then
      raise E.FAULT.LOG_LAP (setF s R.FLT_LOG_HEAD.LAP (1 - getF s R.FLT_LOG_HEAD.LAP)) else s
  raise E.FAULT.FAULT_LOGGED s

/-- A logged-only fault. -/
def logOnly (code unit unitId cyc detail : Nat) (s : State) : State :=
  logEntry (mkFault code clLogged unit unitId cyc detail) false s

/-- Mark a unit permanent (R304, R320): PERM_MARKED, FLT_STA.PERM_PENDING. -/
def markPermanent (unit id : Nat) (s : State) : State :=
  let k := histKey s unit id
  if (getHist s k).cls = 2 then s
  else
    let s := queueRec (recHistory k) { s with hist := smUpd hist0 s.hist k fun h => { h with cls := 2 } }
    let s := logOnly 0x47 unit id 0 0 s
    if flagF s R.FLT_STA.PERM_PENDING then s
    else raise E.FAULT.PERM_PENDING (setB s R.FLT_STA.PERM_PENDING true)

/-- Record an event in a unit's history (R319, R320). -/
def histEvent (unit id : Nat) (s : State) : State :=
  if !hasHist unit then s
  else
    let k := histKey s unit id
    let h := getHist s k
    let now := powered s
    let times := (now :: h.times).take 3
    let h' : Hist := { times := times, total := satAdd 65535 h.total 1,
                       cls := if h.cls = 2 then 2 else 1, retest := true }
    let s := queueRec (recHistory k) { s with hist := smSet hist0 s.hist k h' }
    let s := setF s R.FLT_STA.PENDING (pendingTests s)
    match times with
    | [_, _, t3] => if now ≤ t3 + 86400 then markPermanent unit id s else s
    | _ => s

/-! ### Fencing (R312) -/

/-- Page whose block a unit belongs to. -/
def unitPage (unit id : Nat) : Option Nat :=
  match unit with
  | 0 => some (0x08 + id / 2 ^ 14)
  | 2 => some (0x30 + id / 32)
  | 3 => some (0x30 + id / 2 ^ 12)
  | 4 => some (0x60 + id)
  | 5 => some 0x19
  | 6 => some (0x20 + id / 4)
  | 7 => some 0x40
  | 8 => some 0x18
  | _ => none

/-- Fence a unit: FLT_FENCE_MAP, PG_STA.FENCED, and the unit itself. -/
def fenceUnit (unit id : Nat) (s : State) : State :=
  let s := match unitPage unit id with
    | some p => setB s (R.PG_STA.FENCED p) true
    | none => s
  match unit with
  | 0 => updCore (setF s R.FLT_FENCE_MAP.DIE (getF s R.FLT_FENCE_MAP.DIE ||| 2 ^ (id / 2 ^ 14))) id
           fun c => { c with fenced := true }
  | 2 => setF s R.FLT_FENCE_MAP.STACK (getF s R.FLT_FENCE_MAP.STACK ||| 2 ^ (id / 32))
  | 3 => setF s R.FLT_FENCE_MAP.STACK (getF s R.FLT_FENCE_MAP.STACK ||| 2 ^ (id / 2 ^ 12))
  | 4 => setF s R.FLT_FENCE_MAP.STACK (getF s R.FLT_FENCE_MAP.STACK ||| 2 ^ id)
  | 5 => setB s R.FLT_FENCE_MAP.REDUCE true
  | 6 => setB s R.FLT_FENCE_MAP.PORT true
  | 7 => setB s R.FLT_FENCE_MAP.GUEST true
  | 8 => setB s R.FLT_FENCE_MAP.HUB true
  | _ => s

/-! ### Drain and flag (R305, R307, R309, R428) -/

/-- TOP_STATE becomes FLAGGED; FLAG_N follows TOP_STATE (R309 step 7, R420). -/
def goFlagged (s : State) : State :=
  if topState s = stFlagged then s else raise E.FAULT.FLAGGED (setTop stFlagged s)

/-- Record a flag cause; the first is kept (R428). `seq` is its log entry. -/
def recordFlag (cause seq : Nat) (s : State) : State :=
  if cause = 0 ∨ flagF s R.FLT_SUSPECT.FLAGGED then s
  else setFs s [(R.FLT_SUSPECT.CAUSE, cause), (R.FLT_SUSPECT.LOGSEQ, seq), (R.FLT_SUSPECT.FLAGGED, 1)]

/-- What a recorded flag cause does at once while no tick runs (R305). -/
def idleFlag (cause : Nat) (s : State) : State :=
  if cause = 0 then s
  else if topState s = stReady then goFlagged s
  else if topState s = stDrain ∧ flagF s R.FLT_STA.DRAINED then goFlagged s
  else s

/-- A fault drain (R307): planned issue and planned frames stop; it takes precedence over a planned drain (R308). -/
def faultDrain (s : State) : State :=
  { s with tick := { s.tick with faultDrain := true, planned := none } }

/-- Entering DRAIN (R309 step 1; the rest, TOP_STATE among it, is the DRAINED row). `planned`: the last tick completed. -/
def enterDrain (planned : Bool) (s : State) : State :=
  if s.tick.draining then s
  else
    { s with tick := { s.tick with draining := true, drainPlanned := planned, planned := none } }

/-- Record an overrun: the first since launch is kept (R29). -/
def recordOverrun (pkg cause : Nat) (s : State) : State :=
  if flagF s R.TICK_OVR_SRC.VALID then s
  else
    setFs s [(R.TICK_OVR_SRC.PKG, pkg), (R.TICK_OVR_SRC.CAUSE, cause), (R.TICK_OVR_SRC.VALID, 1)]
    |> raise E.TICK.OVERRUN
    |> logOnly 0x43 uPkg 0 0 (pkg + cause * 2 ^ 12)
    |> enterDrain false

/-- Declare overrun: broadcast ABORT and record (R29). A package that has recorded one declares none. -/
def declareOverrun (cause : Nat) (s : State) : State :=
  if flagF s R.TICK_OVR_SRC.VALID ∨ !running s then s
  else
    s |> broadcast 7 (leBytes 2 (myId s) ++ leBytes 1 cause ++ leBytes 3 (tickNum s))
      |> recordOverrun (myId s) cause

/-! ### Guest and host writes of the guard (R72, R387) -/

def onGuest (f : Guest → Guest) (s : State) : State := { s with guest := f s.guest }


/-- The planned work of the tick does not see the writes served in its guard: a replay, or a stretch behind them, takes
them back (R72, R387). -/
def undoGuest (s : State) : State :=
  if s.guest.undone then s
  else onGuest (fun g => { g with undone := true }) (s.guest.wrote.foldr (fun e s => wrMems s e.1 e.2.1) s)

/-- They stand again from the decision point on. -/
def redoGuest (s : State) : State :=
  if s.guest.undone then
    onGuest (fun g => { g with undone := false }) (s.guest.wrote.foldl (fun s e => wrMems s e.1 e.2.2) s)
  else s

/-- Bytes that a guest or the host writes to memory (R72, R387). -/
def serveWrite (pa : Nat) (bs : List Byte) (s : State) : State :=
  wrMems (if running s then onGuest (fun g => { g with wrote := g.wrote ++ [(pa, rdMems s pa bs.length, bs)] }) s else s) pa bs

/-- The boundary: the tick's writes are there for good. -/
def settleGuest (s : State) : State := onGuest (fun g => { g with wrote := [] }) (redoGuest s)

/-! ### Stretch (R26, R27) and replay postponement (R33) -/

/-- Refresh debt of a boundary moved by `ns` (R197). -/
def addDebt (ns : Nat) (s : State) : State :=
  { s with refresh := { s.refresh with owed := s.refresh.owed + ceilDiv ns 3900 } }

/-- Apply a stretch to the pending boundary (R27). D and V lie again ahead (R28). -/
def applyStretch (s : State) : State :=
  let q := getF s R.TICK_STRETCH_Q.Q
  setLaunch (tickLaunch s + q) s
  |> (fun s => setF s R.TICK_STRETCH_CNT.CUR (getF s R.TICK_STRETCH_CNT.CUR + 1))
  |> (fun s => incSat s R.TICK_STRETCH_CNT.TOTAL 1)
  |> (fun s => { s with tick := { s.tick with atD := false, atV := false } })
  |> undoGuest
  |> addDebt q
  |> raise E.TICK.STRETCH

/-- The boundary as a 24-bit tick number: n + 1 (R26). -/
def nextNum (s : State) : Nat := (tickNum s + 1) % 2 ^ 24

/-- Would the package need a stretch (R26, R29, R34)? It sends and applies one, or declares overrun. -/
def needStretch (s : State) : State :=
  if flagF s R.TICK_STRETCH_CNT.VOIDED then declareOverrun 1 s
  else if getF s R.TICK_STRETCH_CNT.CUR + 1 > getF s R.TICK_STRETCH_MAX.MAX then declareOverrun 0 s
  else
    let k := getF s R.TICK_STRETCH_CNT.CUR + 1
    s |> broadcast 5 (leBytes 3 (nextNum s) ++ leBytes 1 k ++ leBytes 2 (myId s))
      |> (fun s => { s with tick := { s.tick with stretchSeen := (nextNum s, k) :: s.tick.stretchSeen } })
      |> applyStretch

/-- The replay postponement, once for a boundary (R33). -/
def postpone (s : State) : State :=
  if flagF s R.TICK_STRETCH_CNT.VOIDED then s
  else
    let cur := closing s
    let want := (s.tick.nominal + (s.tick.job + 1) * tickLen s + tickLen s + 6000) % 2 ^ 64
    let new := max cur want
    setLaunch (tickLaunch s + (new - cur)) s
    |> (fun s => setB s R.TICK_STRETCH_CNT.VOIDED true)
    |> (fun s => incSat s R.FLT_REPLAY_CNT.RX 1)
    |> (fun s => { s with tick := { s.tick with atD := false, atV := false } })
    |> addDebt (new - cur)
    |> raise E.TICK.VOID_RX

/-- A sum of the tick that holds a contribution from a source restarts from x₀ (R295). -/
def restartSum (src : Nat) (s : State) (m : RSum) : RSum :=
  match getPlan s m.part with
  | none => m
  | some p =>
    if m.tick == s.tick.job && m.added.any (fun k => (p.pos + p.npkg - k) % max 1 p.npkg == src) then
      { m with added := [], acc := [], flags := [], sat := false, doneAt := s.counter }
    else m

/-- Every such sum restarts (R295). -/
def restartSums (src : Nat) (s : State) : State :=
  { s with reduce := { s.reduce with sums := s.reduce.sums.map (restartSum src s) } }

/-- Discard the Landing entries of a source's tick, and drop its later ones (R33). -/
def dropSource (src tick : Nat) (s : State) : State :=
  let gone := s.hall.land.filter fun f => f.src == src && f.tick == tick
  let s := { s with hall := { s.hall with land := s.hall.land.filter fun f => !(f.src == src && f.tick == tick) } }
  let s := restartSums src (incSat s R.HALL_LAND_ERR.VOIDDROP gone.length)
  if s.tick.voidedSrcs.contains src then s
  else { s with tick := { s.tick with voidedSrcs := s.tick.voidedSrcs ++ [src] } }

/-- This package's own tick is voided (R32, R35): it stops issue and will replay. -/
def quiesce (why : Option (Nat × Nat)) (s : State) : State :=
  if s.tick.replay = .none then { s with tick := { s.tick with replay := .quiescing, voidCode := why } } else s

/-- A second fault between this package's VOID and the postponed boundary (R37). -/
def secondFault (s : State) : Bool := s.tick.replay != .none

/-- This package's tick is withdrawn (R33). Where the boundary had been postponed before and its D has passed, the replay
cannot reach TEND by it (R34). -/
def withdraw (why : Option (Nat × Nat)) (s : State) : State :=
  let s := quiesce why (postpone s)
  if s.tick.atD then declareOverrun 1 s else s

/-- VOID(src, tick) leaves on every dimension port (R32). -/
def sendVoid (src tick : Nat) (s : State) : State := broadcast 6 (leBytes 2 src ++ leBytes 3 tick) s

/-- Void this package's tick and send the VOID (R32, R33). -/
def voidSelf (why : Option (Nat × Nat)) (s : State) : State := withdraw why (sendVoid (myId s) (tickNum s) s)

/-- Void the tick of a source whose arrivals are at fault, on its behalf or for itself (R32, R33, R42, R259). A tick not
yet begun here is voided when it opens (log 110); of any other tick the VOID is sent and nothing of this one withdrawn. -/
def voidOther (why : Option (Nat × Nat)) (src tick : Nat) (s : State) : State :=
  if !running s || s.tick.draining then s
  else match tickCmp tick (tickNum s) with
    | .same =>
      if src = myId s then (if s.tick.faultDrain then s else voidSelf why s)
      else dropSource src tick (postpone (sendVoid src tick s))
    | .newer 1 => { s with tick := { s.tick with earlyVoids := s.tick.earlyVoids ++ [(src, tick)] } }
    | _ => sendVoid src tick s

/-! ### Taking faults (R301 to R306) -/

/-- The same fault as the one that caused the void, in its replay (R304). -/
def recurs (r : FaultRec) (s : State) : Bool :=
  r.cls != clLogged && s.tick.replay == .running && s.tick.voidCode == some (r.code, r.unitId)

/-- Flag cause of a recurrence: 2, or the cause of the unit it fences (R304, R294). -/
def recurCause (r : FaultRec) : Nat := if r.code = 0x30 then 6 else 2

/-- Log a fault and enter it in its unit's history; an uncorrectable error in held data makes its core permanent (R66,
Table 11.6). -/
def logFault (r : FaultRec) (s : State) : State :=
  let s := logEntry r (recurs r s) s
  if r.cls = clLogged then s
  else
    let s := histEvent r.unit r.unitId s
    if r.code = 0x18 then markPermanent r.unit r.unitId s else s

/-- FLT_SUSPECT.SUSPECT rises: the PACKAGE record that keeps it is queued (R316). -/
def setSuspect (s : State) : State :=
  if flagF s R.FLT_SUSPECT.SUSPECT then s
  else queueRec recPackage (raise E.FAULT.SUSPECT (setB s R.FLT_SUSPECT.SUSPECT true))

/-- A fault between V and the boundary lies in ballast: the result of a silent error, no void (R38, R316; log 109). -/
def silentError (seq : Nat) (s : State) : State := faultDrain (recordFlag 1 seq (setSuspect s))

/-- The outcome of a fault in service; `seq` is its log entry's SEQ. -/
def faultOutcome (r : FaultRec) (recur : Bool) (seq : Nat) (s : State) : State :=
  if r.cls = clLogged then s
  else if !running s then
    -- idle: R305
    let s := if r.cls = clHard then fenceUnit r.unit r.unitId s else s
    idleFlag r.flag (recordFlag r.flag seq s)
  else if s.tick.draining ∨ s.tick.faultDrain then
    -- the package drains already: the fault is logged, its unit fenced, its cause recorded
    let s := if r.cls = clHard then fenceUnit r.unit r.unitId s else s
    recordFlag r.flag seq s
  else if secondFault s then
    -- R37, R304
    let s := if recur then recordFlag (recurCause r) seq (if hasHist r.unit then markPermanent r.unit r.unitId s else s) else s
    let s := if r.cls = clHard ∨ (recur ∧ r.code = 0x30) then fenceUnit r.unit r.unitId s else s
    declareOverrun 5 (recordFlag r.flag seq s)
  else if r.cls = clHard then faultDrain (recordFlag r.flag seq (fenceUnit r.unit r.unitId s))
  else if r.cls = clPlan ∧ r.part ≠ 0 then
    -- a secondary's plan fault stops the secondary at the closing boundary (R379)
    { s with secStop := smSet 0 s.secStop r.part 5 }
  else if s.tick.atV then silentError seq s
  else voidSelf (some (r.code, r.unitId)) s

/-- Log every fault of one cycle, noting of each whether it recurs and its SEQ. -/
def logAll : List FaultRec → State → State × List (FaultRec × Bool × Nat)
  | [], s => (s, [])
  | r :: rs, s =>
    let rec1 := (r, recurs r s, getF s R.FLT_LOG_HEAD.SEQ)
    let (s', l) := logAll rs (logFault r s)
    (s', rec1 :: l)

/-- The most severe of the faults logged (R306); the first of equals. -/
def worst : List (FaultRec × Bool × Nat) → Option (FaultRec × Bool × Nat)
  | [] => none
  | a :: l =>
    match worst l with
    | none => some a
    | some b => if b.1.cls > a.1.cls then some b else some a

/-- A fault among others in the order of the log (R303). -/
def insFault (r : FaultRec) : List FaultRec → List FaultRec
  | [] => [r]
  | q :: l => if r.unit < q.unit ∨ (r.unit = q.unit ∧ r.unitId ≤ q.unitId) then r :: q :: l else q :: insFault r l

/-- Faults of one cycle in ascending UNIT type, then ascending UNIT id (R303). -/
def sortFaults (l : List FaultRec) : List FaultRec := l.foldr insFault []

/-- Take the faults detected in one cycle: all are logged (R303), the outcome is that of the most severe (R306). -/
def takeFaults (rs : List FaultRec) (s : State) : State :=
  let (s, l) := logAll (sortFaults rs) s
  match worst l with
  | none => s
  | some (r, recur, seq) => faultOutcome r recur seq s

/-- Take one fault. -/
def takeFault (r : FaultRec) (s : State) : State := takeFaults [r] s

/-- A fault of the arrivals of sources, each with its tick: one fault of this package, which during its own replay or
after V has the outcome of R37 or R38; otherwise the tick of each source is voided (R32, R42, R259, R270). -/
def sourceFault (r : FaultRec) (srcs : List (Nat × Nat)) (s : State) : State :=
  if secondFault s || (s.tick.atV && srcs.any fun e => e.2 == tickNum s) then takeFault r s
  else srcs.foldl (fun s e => voidOther (some (r.code, r.unitId)) e.1 e.2 s) (logFault r s)

end Sys2Proof.Machine
end

