-- ==== Sys2Proof/Machine/Operands.lean ====
section
/-! DEFINITION. The words of the instruction lists: opcodes (Table 6.1), the engines that may issue
them (Table 3.1) and the operand fields (Tables 6.2 to 6.6). A word and its extension word are
numbers below 2⁶⁴; fields that no table lists are ignored at run time (R159). -/

namespace Sys2Proof.Machine

/-! ### The word (R158) -/

def wOp (w : Nat) : Nat := bitsOf w 58 6
def wV (w : Nat) : Bool := bitsOf w 57 1 == 1
def wP (w : Nat) : Bool := bitsOf w 56 1 == 1
def wPS (w : Nat) : Nat := bitsOf w 51 5

/-! ### Opcodes (Table 6.1) -/

def opNop : Nat := 0x00
def opWait : Nat := 0x01
def opSadd : Nat := 0x02
def opSsub : Nat := 0x03
def opTend : Nat := 0x04
def opHalt : Nat := 0x05
def opFmt : Nat := 0x06
def opLdw : Nat := 0x10
def opSww : Nat := 0x11
def opMma : Nat := 0x12
def opDrn : Nat := 0x13
def opPair : Nat := 0x14
def opMvm : Nat := 0x18
def opMvd : Nat := 0x19
def opVop : Nat := 0x20
def opVsf : Nat := 0x21
def opVred : Nat := 0x22
def opVqnt : Nat := 0x23
def opVrng : Nat := 0x24
def opVcvt : Nat := 0x25
def opVsel : Nat := 0x26
def opMrd : Nat := 0x30
def opMwr : Nat := 0x31
def opSend : Nat := 0x32
def opHsnd : Nat := 0x33
def opColl : Nat := 0x34
def opPan : Nat := 0x35
def opIld : Nat := 0x36
def opCsav : Nat := 0x37
def opCrst : Nat := 0x38
def opTst : Nat := 0x3E

/-- The opcodes followed by an extension word. -/
def twoWord (op : Nat) : Bool :=
  [0x12, 0x13, 0x18, 0x20, 0x21, 0x22, 0x23, 0x24, 0x25, 0x26, 0x30, 0x31, 0x32, 0x33, 0x34, 0x35,
   0x37, 0x38].contains op

/-- The common group (R82). -/
def commonOp (op : Nat) : Bool := decide (op ≤ 0x06)

/-- The opcodes that an engine may issue (R82, Table 3.1). -/
def opAllowed (e : Engine) (op : Nat) : Bool :=
  commonOp op ||
  match e with
  | .ae0 | .ae1 => [0x10, 0x11, 0x12, 0x13, 0x14, 0x3E].contains op
  | .mv => [0x18, 0x19, 0x3E].contains op
  | .ve => [0x20, 0x21, 0x22, 0x23, 0x24, 0x25, 0x26, 0x3E].contains op
  | .ld => [0x30, 0x36, 0x38].contains op
  | .st => [0x31, 0x32, 0x33, 0x34, 0x35, 0x37].contains op

/-- The opcodes that an engine may issue in a park list (R111). -/
def opParked (e : Engine) (op : Nat) : Bool :=
  match e with
  | .ld => op == opCrst || op == opTend
  | .st => op == opCsav || op == opTend
  | _ => false

/-! ### Common and array groups (Table 6.2) -/

def fNopCyc (w : Nat) : Nat := bitsOf w 0 16
def fWaitS (w : Nat) : Nat := bitsOf w 0 5
def fWaitN (w : Nat) : Nat := bitsOf w 5 12
def fWaitT (w : Nat) : Bool := bitsOf w 17 1 == 1
def fSemS (w : Nat) : Nat := bitsOf w 0 5
def fSemK (w : Nat) : Nat := bitsOf w 5 12
def fFmtD (w : Nat) : Nat := bitsOf w 0 4
def fFmtV (w : Nat) : Nat := bitsOf w 4 32
def fPairOn (w : Nat) : Bool := bitsOf w 0 1 == 1
def fLdwB (w : Nat) : Nat := bitsOf w 0 12
def fLdwF (w : Nat) : Nat := bitsOf w 12 2
def fLdwN (w : Nat) : Nat := bitsOf w 14 3
def fLdwK (w : Nat) : Nat := bitsOf w 17 6
def fLdwB2 (w : Nat) : Nat := bitsOf w 23 12
def fLdwD (w : Nat) : Nat := bitsOf w 35 4
def fMmaA (w : Nat) : Nat := bitsOf w 0 12
def fMmaM (w : Nat) : Nat := bitsOf w 12 8
def fMmaS (w : Nat) : Nat := bitsOf w 20 8
def fMmaStart (w : Nat) : Bool := bitsOf w 28 1 == 1
def fMmaAD (w : Nat) : Nat := bitsOf w 29 4
def fMmaBD (w : Nat) : Nat := bitsOf w 33 4
def fMmaMask (w : Nat) : Bool := bitsOf w 38 1 == 1
def fMmaMstr (x : Nat) : Nat := bitsOf x 0 12
def fMmaKoff (x : Nat) : Nat := bitsOf x 12 12
def fMmaMline (x : Nat) : Nat := bitsOf x 24 12
def fDrnO (w : Nat) : Nat := bitsOf w 0 12
def fDrnL (w : Nat) : Nat := bitsOf w 12 8
def fDrnG (w : Nat) : Nat := bitsOf w 20 2
def fDrnBase (w : Nat) : Nat := bitsOf w 22 8
def fDrnRstr (w : Nat) : Nat := bitsOf w 30 8
def fDrnD (w : Nat) : Nat := bitsOf w 38 4
def fDrnPos (w : Nat) : Nat := bitsOf w 42 2
def fDrnSig (w : Nat) : Bool := bitsOf w 44 1 == 1
def fDrnOtstr (x : Nat) : Nat := bitsOf x 0 12
def fDrnSigw (x : Nat) : Nat := bitsOf x 12 16
def fDrnSrt (x : Nat) : Nat := bitsOf x 28 32

/-! ### Matrix-vector unit (Table 6.3) -/

def fMvmA (w : Nat) : Nat := bitsOf w 0 12
def fMvmM (w : Nat) : Nat := bitsOf w 12 2
def fMvmNkt (w : Nat) : Nat := bitsOf w 14 6
def fMvmN (w : Nat) : Nat := bitsOf w 20 8
def fMvmCol0 (w : Nat) : Nat := bitsOf w 28 8
def fMvmAD (w : Nat) : Nat := bitsOf w 36 4
def fMvmBD (w : Nat) : Nat := bitsOf w 40 4
def fMvmStart (w : Nat) : Bool := bitsOf w 44 1 == 1
def fMvmKeep (w : Nat) : Bool := bitsOf w 45 1 == 1
def fMvmB (x : Nat) : Nat := bitsOf x 0 12
def fMvmBk (x : Nat) : Nat := bitsOf x 12 12
def fMvmBn (x : Nat) : Nat := bitsOf x 24 12
def fMvmAk (x : Nat) : Nat := bitsOf x 36 12
def fMvdRow (w : Nat) : Nat := bitsOf w 0 2
def fMvdCol0 (w : Nat) : Nat := bitsOf w 2 8
def fMvdCnt (w : Nat) : Nat := bitsOf w 10 8
def fMvdO (w : Nat) : Nat := bitsOf w 18 12
def fMvdD (w : Nat) : Nat := bitsOf w 30 4
def fMvdOpos (w : Nat) : Nat := bitsOf w 34 5
def fMvdSrt (w : Nat) : Nat := bitsOf w 39 12

/-! ### Vector instructions (Table 6.4) -/

def fVFn (w : Nat) : Nat := bitsOf w 0 4
def fVSrc (w : Nat) : Nat := bitsOf w 4 12
def fVDst (w : Nat) : Nat := bitsOf w 16 12
def fVCnt (w : Nat) : Nat := bitsOf w 28 12
def fVSr (w : Nat) : Bool := bitsOf w 40 1 == 1
def fVDr (w : Nat) : Bool := bitsOf w 41 1 == 1
def fVRb (x : Nat) : Nat := bitsOf x 0 5
def fVRn (x : Nat) : Nat := bitsOf x 5 5
def fVRc (x : Nat) : Nat := bitsOf x 10 5
def fVId (x : Nat) : Nat := bitsOf x 15 4
def fVOd (x : Nat) : Nat := bitsOf x 19 4
def fVImm (x : Nat) : Nat := bitsOf x 23 32
def fRngTile (x : Nat) : Nat := bitsOf x 0 24
def fRngKind (x : Nat) : Nat := bitsOf x 24 2
def fRngThr (x : Nat) : Nat := bitsOf x 26 32

/-! ### Transfers (Table 6.6) -/

def fXLine (w : Nat) : Nat := bitsOf w 0 12
def fXLen (w : Nat) : Nat := bitsOf w 12 10
def fXSeq (w : Nat) : Nat := bitsOf w 22 16
def fXCnt (w : Nat) : Nat := bitsOf w 38 6
def fXSem (w : Nat) : Nat := bitsOf w 44 5
def fXBank (w : Nat) : Nat := bitsOf w 49 1
def fXHinge (w : Nat) : Bool := bitsOf w 50 1 == 1
def fXPa (x : Nat) : Nat := bitsOf x 0 34 * 64
def fXTd (x : Nat) : Nat := bitsOf x 34 4
def fXSd (x : Nat) : Nat := bitsOf x 38 4
def fSendDst (w : Nat) : Nat := bitsOf w 0 16
def fSendDl (w : Nat) : Nat := bitsOf w 16 12
def fSendSl (w : Nat) : Nat := bitsOf w 28 12
def fSendCnt (w : Nat) : Nat := bitsOf w 40 6
def fSendSem (w : Nat) : Nat := bitsOf w 46 5
def fSendLen (x : Nat) : Nat := bitsOf x 0 10
def fSendBank (x : Nat) : Nat := bitsOf x 10 1
def fHStream (w : Nat) : Nat := bitsOf w 0 16
def fHSeq (w : Nat) : Nat := bitsOf w 16 16
def fHSl (w : Nat) : Nat := bitsOf w 32 12
def fHLen (x : Nat) : Nat := bitsOf x 0 10
def fHTile (x : Nat) : Nat := bitsOf x 10 24
def fCCtx (w : Nat) : Nat := bitsOf w 0 3
def fCKind (w : Nat) : Nat := bitsOf w 3 3
def fCSl (w : Nat) : Nat := bitsOf w 6 12
def fCLen (w : Nat) : Nat := bitsOf w 18 10
def fCArr (w : Nat) : Bool := bitsOf w 28 1 == 1
def fCSeg (x : Nat) : Nat := bitsOf x 0 24
def fCRl (x : Nat) : Nat := bitsOf x 24 12
def fCCnt (x : Nat) : Nat := bitsOf x 36 6
def fCSem (x : Nat) : Nat := bitsOf x 42 5
def fCBank (x : Nat) : Nat := bitsOf x 47 1
def fPCmd (w : Nat) : Nat := bitsOf w 0 4
def fPSl (w : Nat) : Nat := bitsOf w 4 12
def fPLen (w : Nat) : Nat := bitsOf w 16 10
def fPSeq (w : Nat) : Nat := bitsOf w 26 16
def fPTensor (x : Nat) : Nat := bitsOf x 34 16
def fIPa (w : Nat) : Nat := bitsOf w 0 34 * 64
def fIPark (w : Nat) : Bool := bitsOf w 34 1 == 1
def fISeq (w : Nat) : Nat := bitsOf w 35 16
def fSPart (w : Nat) : Nat := bitsOf w 0 2
def fSBnk (w : Nat) : Nat := bitsOf w 2 3
def fSSeq (w : Nat) : Nat := bitsOf w 5 16
def fTCyc (w : Nat) : Nat := bitsOf w 0 16
def fTDesc (w : Nat) : Nat := bitsOf w 16 4

/-- Beats of a context part (R160). -/
def partBeats (part : Nat) : Nat :=
  match part with
  | 0 => 256 | 1 => 384 | 2 => 384 | _ => 4

/-- Offset of a context part in the image (Table 3.5); banks follow one another in the mask's order. -/
def partOffset (part : Nat) : Nat :=
  match part with
  | 0 => 256 | 1 => 16640 | 2 => 41216 | _ => 0

end Sys2Proof.Machine
end

