-- ==== Sys2Proof/Machine/Engine.lean ====
section
/-! DEFINITION. What every instruction of a core shares: issue and fetch (R82, R83, R94, R95), the
Bell board (R96 to R99), the local store (R86 to R90), descriptors (R85), and the common group. -/

namespace Sys2Proof.Machine

/-! ### Core faults (R109, Table 3.4) -/

/-- Partition whose plan runs on the core: the filler's in a bubble tick (R380), else that which binds it. -/
def corePart (c : Core) : Nat := if c.fill = 0 then c.bound - 1 else c.fill

/-- A fault of a core; its partition is that of the plan that runs on it. -/
def coreFault (s : State) (c code cls cyc detail : Nat) : FaultRec :=
  { mkFault code cls uCore c cyc detail with part := corePart (getCore s c) }

/-! ### The Bell board (R96 to R99) -/

def semKey (bank sem : Nat) : Nat := 32 * bank + sem

/-- The combined value of a semaphore at the end of the cycle whose changes are held (R98), before limits. -/
def semRaw (c : Core) (k : Nat) : Int :=
  ((smGet 0 c.sem k : Nat) : Int) + smGet 0 c.semDelta k - ((smGet 0 c.semTake k : Nat) : Int)

/-- The value a later cycle sees (R98, R99). -/
def semVal (c : Core) (k : Nat) : Nat := (clampInt 0 4095 (semRaw c k)).toNat

/-- Semaphores that the held cycle changes. -/
def semTouched (c : Core) : List Nat := (c.semDelta.map (·.1) ++ c.semTake.map (·.1)).dedup

/-- Close the held cycle: every change enters its semaphore (R98). -/
def semClose (c : Core) : Core :=
  let ks := semTouched c
  { c with sem := ks.foldl (fun m k => smSet 0 m k (semVal c k)) c.sem, semDelta := [], semWaits := [], semTake := [] }

/-- The held cycle is `cyc`: an earlier one is closed first. -/
def semAt (cyc : Nat) (c : Core) : Core :=
  if c.semCyc = cyc then c else { semClose c with semCyc := cyc }

/-- Faults of closing the held cycle (R99): SEM_OVF, SEM_UNF with the semaphore in DETAIL. -/
def semFaults (s : State) (c : Nat) : List FaultRec :=
  let co := getCore s c
  (semTouched co).filterMap fun k =>
    if semRaw co k > 4095 then some (coreFault s c 0x11 clPlan co.semCyc k)
    else if semRaw co k < 0 then some (coreFault s c 0x12 clPlan co.semCyc k)
    else none

/-- Bring a core's Bell board to a cycle, taking the faults of the cycle closed. -/
def semSync (c cyc : Nat) (s : State) : State :=
  if (getCore s c).semCyc = cyc then s
  else
    let fs := semFaults s c
    takeFaults fs (updCore s c (semAt cyc))

/-- Add to a semaphore in a cycle (R97): SADD, SSUB, a post. -/
def semAdd (c cyc key : Nat) (n : Int) (s : State) : State :=
  updCore (semSync c cyc s) c fun co => { co with semDelta := smUpd 0 co.semDelta key (· + n) }

/-- Is a WAIT's condition met: the start value less the takes granted to WAITs before it in the cycle (R98)? -/
def waitMet (c : Core) (taken : SMap Nat) (key n : Nat) : Bool := decide (n + smGet 0 taken key ≤ smGet 0 c.sem key)

/-- The WAITs of a cycle evaluated in engine order, with the takes granted (R98). -/
def judgeWaits (c : Core) : List WaitRec → SMap Nat → List WaitRec × SMap Nat
  | [], t => ([], t)
  | r :: rs, t =>
    let ok := waitMet c t r.key r.n
    let (l, t') := judgeWaits c rs (if ok && r.take then smUpd 0 t r.key (· + r.n) else t)
    ({ r with granted := ok } :: l, t')

/-- A WAIT takes its place among those of its cycle, in engine order; an engine has one. -/
def addWait (r : WaitRec) (l : List WaitRec) : List WaitRec :=
  l.filter (fun x => decide (x.eng < r.eng)) ++ r :: l.filter fun x => decide (r.eng < x.eng)

/-! ### Descriptors (R85) -/

/-- A descriptor as an instruction of cycle `cyc` reads it. -/
def rdDesc (c : Core) (cyc d : Nat) : Nat :=
  if c.descCyc < cyc then
    match smGet none c.descNew d with
    | some v => v
    | none => smGet 0 c.desc d
  else smGet 0 c.desc d

/-- The values written in the held cycle enter force. -/
def descAt (cyc : Nat) (c : Core) : Core :=
  if c.descCyc = cyc then c
  else
    { c with
      desc := c.descNew.foldl (fun m e => match e.2 with | some v => smSet 0 m e.1 v | none => m) c.desc,
      descWhen := c.descNew.foldl (fun m e => smSet 0 m e.1 (c.descCyc + 1)) c.descWhen,
      descNew := [], descBad := [], descCyc := cyc }

/-! ### The local store (R86, R90) -/

def lsBytes : Nat := 196608
def lsLines : Nat := 3072

/-- Lines whose access was lost: a conflict or an uncorrectable error (R88, R90). -/
def lostLines (acc : List LsAcc) : List Nat :=
  acc.filterMap fun a =>
    match a.kind with
    | .conflict _ _ _ => some a.line
    | .uncorrectable => some a.line
    | _ => none

/-- Lines whose beat is pending (R151). -/
def pendLines (acc : List LsAcc) : List Nat :=
  acc.filterMap fun a => match a.kind with | .pending => some a.line | _ => none

/-- Byte of the local store. -/
def lsByte (c : Core) (a : Nat) : Byte := smGet 0 c.ls a

/-- Bytes from an address. -/
def lsRead (c : Core) (a n : Nat) : List Byte := smGetList 0 c.ls a n

/-- What a unit reads when some lines are lost and the spec gives no substitute: each byte of a lost
line, and each byte beyond the store, is free (log 13). -/
def lsView (s : State) (c : Core) (lost : List Nat) (a : Nat) : Byte :=
  if lost.contains (a / 64) ∨ lsBytes ≤ a then BitVec.ofNat 8 (Config.freeValue (s.freeCtr + a)).toNat
  else lsByte c a

/-- The counter moves past the values that `lsView` may have read. -/
def usedFree (lost : List Nat) (s : State) : State :=
  if lost.isEmpty then s else { s with freeCtr := s.freeCtr + 2 * lsBytes }

/-- Write bytes, but for lines that are lost or beyond the store; the lines become fresh. -/
def lsPut (lost : List Nat) : Core → Nat → List Byte → Core
  | c, _, [] => c
  | c, a, b :: bs =>
    if lost.contains (a / 64) ∨ lsBytes ≤ a then lsPut lost c (a + 1) bs
    else lsPut lost { c with ls := smSet 0 c.ls a b, fresh := smSet false c.fresh (a / 64) true } (a + 1) bs

/-- The lines from `l`, `n` of them, enter the core's write signature: LSA and 64 bytes each (R322). -/
def sigLines : Core → Nat → Nat → Core
  | c, _, 0 => c
  | c, l, n + 1 =>
    sigLines { c with sig := crc64Run c.sig (leBytes 4 (64 * l) ++ lsRead c (64 * l) 64) } (l + 1) n

/-- A write through a port that counts in the signature (R322). -/
def lsWrite (lost : List Nat) (c : Core) (a : Nat) (bs : List Byte) : Core :=
  if bs.isEmpty then c
  else sigLines (lsPut lost c a bs) (a / 64) ((a + bs.length - 1) / 64 + 1 - a / 64)

/-- An uncorrectable error in a line: LS_UE_FRESH or LS_UE_HELD by its fresh bit (R90). -/
def ueFault (s : State) (c cyc line : Nat) : FaultRec :=
  if smGet false (getCore s c).fresh line then coreFault s c 0x17 clVoid cyc (64 * line)
  else { coreFault s c 0x18 clHard cyc (64 * line) with flag := 4 }

/-- The faults of a step's accesses, each with its cycle (R88, R90, R151): SLOT_CONFLICT with bank and ports, LS_CE, the
uncorrectable errors, FEED_DRY with the unit for a pending line in normal service (log 116). -/
def accFaults (s : State) (c : Nat) (dry : Option Nat) (acc : List LsAcc) : List FaultRec :=
  acc.filterMap fun a =>
    match a.kind with
    | .conflict b p q => some (coreFault s c 0x10 clPlan a.cyc (b + p * 2 ^ 4 + q * 2 ^ 8))
    | .corrected => some (coreFault s c 0x16 clLogged a.cyc (64 * a.line))
    | .uncorrectable => some (ueFault s c a.cyc a.line)
    | .pending => dry.map fun unit => coreFault s c 0x1D clPlan a.cyc (64 * a.line + unit * 2 ^ 32)
    | .edge slot => some (coreFault s c 0x10 clPlan a.cyc slot)

/-- Stall mode: a replayed tick (R151; TST, ballast and the self-test read no bank). -/
def stallMode (s : State) : Bool := s.tick.replay == .running

/-! ### Issue (R82, R83, R94, R95) -/

/-- May planned work issue: a tick runs, the package neither drains nor waits for a replay (R32, R307, R309)? -/
def issueOpen (s : State) : Bool :=
  running s && !s.tick.draining && !s.tick.faultDrain && s.tick.replay != .quiescing &&
  s.tick.replay != .ready

/-- Does the core execute: not fenced (R312), gated (R333) or being zeroed (R374)? -/
def coreOpen (c : Core) : Bool := !c.fenced && !c.gated

/-- May the engine issue in the cycle? -/
def canIssue (s : State) (i : Issue) : Bool :=
  let c := getCore s i.core.lcid
  let g := getEng c i.eng.no
  issueOpen s && coreOpen c && g.mode == .running && decide (g.free ≤ i.cyc)

/-- A core in a park runs its park list (R110). -/
def inPark (c : Core) : Bool := c.parkLeft != 0

/-- Words that an engine can fetch: a half, or the park buffer (R92, R169). -/
def listLen (c : Core) : Nat := if inPark c then 32 else 1536

/-- The word at an index of the active half, or of the park buffer. -/
def fetchWord (c : Core) (idx : Nat) : Nat :=
  if inPark c then smGet 0 c.park idx
  else smGet 0 c.ib ((if c.activeB then 1536 else 0) + idx)

/-- Is the word one that the engine may issue where it stands (R82, R111)? -/
def wordLegal (c : Core) (e : Engine) (w : Nat) : Bool :=
  if inPark c then opParked e (wOp w) && !wP w else opAllowed e (wOp w)

/-- An engine stops where it stands. -/
def stopEngine (c e : Nat) (s : State) : State :=
  updCore s c fun co => updEng co e fun g => { g with mode := .stopped }

/-- The count at which the cycles of the running tick or of its replay start (R35). -/
def cycleZero (s : State) : Nat :=
  if s.tick.replay = .running then s.tick.r0 else s.tick.nominal + s.tick.job * tickLen s

/-- The cycle in which the tick stands by the counter, at the grade's core clock (R17, R35). -/
def nowCyc (s : State) : Nat := (s.counter - cycleZero s) * gradeF s / 10

/-! ### Blocked engines and the deadlock report (R105, R107, R108) -/

/-- Has the engine reached TEND, or counts as such (R84, R110)? -/
def atRest (m : EngMode) : Bool := m == .atTend || m == .halted || m == .parked

/-- Blocked in the sense of R105. -/
def isBlocked (m : EngMode) : Bool :=
  match m with
  | .blocked _ _ _ _ _ => true
  | .stalled _ => true
  | _ => false

def engModes (c : Core) : List EngMode := (List.range 6).map fun e => (getEng c e).mode

/-- Is a run one whose data goes to a core? -/
def feedsCore (r : Run) (l : Nat) : Bool :=
  r.core == l && match r.kind with | .read | .ild _ | .crst _ _ => true | _ => false

/-- No inbound transfer is in progress (R105): none of its runs is being served, and none whose data is complete has
still to post (log 117). -/
def noInbound (s : State) (l : Nat) : Bool :=
  !(getCore s l).landing.any (·.landed) &&
  !s.chans.any fun e => match e.2.cur with | some r => feedsCore r l | none => false

/-- The condition of R105 on a core. -/
def stuck (s : State) (l : Nat) : Bool := (engModes (getCore s l)).all isBlocked && noInbound s l

/-- The first cycle from which the condition of R105 has held: every engine's WAIT or held instruction has issued, and
the last inbound transfer has ended. -/
def stuckSince (c : Core) : Nat :=
  ((List.range 6).map fun e => (getEng c e).free - 1).foldl max c.inboundEnd

/-- Consecutive cycles of the condition at the end of a cycle (R105). -/
def deadCount (s : State) (l cyc : Nat) : Nat := if stuck s l then cyc + 1 - stuckSince (getCore s l) else 0

/-- The whole-die condition (R108): every core of the die with work left reports DEADLOCK, and one does. -/
def wholeDie (s : State) (die : Nat) : Bool :=
  let busy := s.cores.filter fun e => e.1 / 2 ^ 14 == die && !(engModes e.2).all atRest
  !busy.isEmpty && busy.all fun e => e.2.dead

/-- DIE_DEADLOCK_STA.WHOLE follows the condition; its rise is an event (R108, Table 11.3). -/
def judgeDie (d cyc : Nat) (s : State) : State :=
  if wholeDie s d then
    if flagF s (R.DIE_DEADLOCK_STA.WHOLE d) then s
    else logOnly 0x48 uPkg 0 cyc d (raise (E.DIE.DIE_DEADLOCK d) (setB s (R.DIE_DEADLOCK_STA.WHOLE d) true))
  else setB s (R.DIE_DEADLOCK_STA.WHOLE d) false

/-- A core whose condition has lapsed reports DEADLOCK no more (R105, R108). -/
def lapse (l cyc : Nat) (s : State) : State :=
  if (getCore s l).dead && !stuck s l then
    let d := l / 2 ^ 14
    let s := updCore s l fun c => { c with dead := false }
    judgeDie d cyc (setF s (R.DIE_DEADLOCK_STA.CORES d) (getF s (R.DIE_DEADLOCK_STA.CORES d) - 1))
  else s

/-- The inbound transfers of a core that ended in a cycle are over. -/
def endInbound (l cyc : Nat) (s : State) : State :=
  updCore s l fun c => { c with inboundEnd := max c.inboundEnd (cyc + 1) }

/-- ILLEGAL_OP (R82, R95, R100, R111). -/
def illegalOp (c cyc : Nat) (s : State) : State := takeFault (coreFault s c 0x13 clPlan cyc 0) s

/-- The engine has issued: past its words, so that the word index of a blocked engine is that of the next word (R107;
DESIGN CHOICE, log 118); the V mark counted (R47, R158). Of a stopped filler's segment
only LD's first word runs (R381). -/
def issued (i : Issue) (w : Nat) (s : State) : State :=
  let s := updCore s i.core.lcid fun co => updEng co i.eng.no fun g =>
    { g with idx := g.idx + (if twoWord (wOp w) then 2 else 1), free := i.cyc + 1,
             mode := if co.lone then .atTend else g.mode }
  if wV w then incSat s R.TOP_VARIANCE_CNT.COUNT 1 else s

/-- An engine issues its next instruction, which must be `op`; `eff` is what that instruction does.
A word the engine may not issue, the end of the list, or a parity error at fetch is met in its
place: R94 stops the engine on the last of these; on the others, of which R82 and R95 name the fault alone, the model
stops it too (DESIGN CHOICE, log 118). A command that names another instruction than the engine's next has no effect. -/
def issueOp (i : Issue) (op : Nat) (eff : Nat → Nat → State → State) (s : State) : State :=
  let c := getCore s i.core.lcid
  let g := getEng c i.eng.no
  if !canIssue s i then s
  else if listLen c ≤ g.idx then illegalOp i.core.lcid i.cyc (stopEngine i.core.lcid i.eng.no s)
  else if i.parity then
    takeFault (coreFault s i.core.lcid 0x15 clVoid i.cyc g.idx) (stopEngine i.core.lcid i.eng.no s)
  else
    let w := fetchWord c g.idx
    if !wordLegal c i.eng w then illegalOp i.core.lcid i.cyc (stopEngine i.core.lcid i.eng.no s)
    else if wOp w ≠ op then s
    else if twoWord op && decide (listLen c ≤ g.idx + 1) then
      illegalOp i.core.lcid i.cyc (stopEngine i.core.lcid i.eng.no s)
    else eff w (if twoWord op then fetchWord c (g.idx + 1) else 0) (issued i w s)

/-- The engine is held to cycle `cyc + n − 1` (Table 6.1). -/
def holdFor (i : Issue) (n : Nat) (s : State) : State :=
  updCore s i.core.lcid fun co => updEng co i.eng.no fun g => { g with free := i.cyc + n }

/-- The instruction will complete in cycle `due` (R83). -/
def completes (i : Issue) (w due : Nat) (s : State) : State :=
  updCore s i.core.lcid fun co =>
    { co with outst := co.outst ++ [{ eng := i.eng.no, due := some due, p := wP w, ps := wPS w, run := none }] }

/-- The instruction completes with a memory run (R83). -/
def completesWith (i : Issue) (w stack tick seq : Nat) (s : State) : State :=
  updCore s i.core.lcid fun co =>
    { co with outst := co.outst ++
        [{ eng := i.eng.no, due := none, p := wP w, ps := wPS w, run := some (stack, tick, seq) }] }

/-- Take the faults of the instruction's accesses. -/
def chargeAcc (i : Issue) (s : State) : State :=
  takeFaults (accFaults s i.core.lcid (if stallMode s then none else some i.eng.no) i.acc) s

/-- An instruction as stall mode holds it: with the descriptors of its issue cycle (R85). -/
def heldOf (i : Issue) (w x first : Nat) (s : State) : Held :=
  { issue := i, w := w, x := x, first := first,
    descs := (List.range 16).map fun d => rdDesc (getCore s i.core.lcid) i.cyc d }

/-- Does a pending line displace accesses of the instruction: in stall mode (R151)? -/
def displaced (i : Issue) (s : State) : Bool := stallMode s && !(pendLines i.acc).isEmpty

/-- In stall mode a pending line holds the engine until FEEDER_RESUME (R151, R152); else `eff` acts
and the accesses' faults are taken. -/
def orStall (i : Issue) (w x first : Nat) (eff : State → State) (s : State) : State :=
  if displaced i s then
    updCore s i.core.lcid fun co => updEng co i.eng.no fun g => { g with mode := .stalled (heldOf i w x first s) }
  else chargeAcc i (eff s)

/-- Change the issuing core. -/
def onCore (i : Issue) (f : Core → Core) (s : State) : State := updCore s i.core.lcid f

/-! ### The common group (R160, R161) -/

/-- NOP: holds CYC + 1 cycles, completes in the last. -/
def nopEff (i : Issue) (w _x : Nat) (s : State) : State :=
  completes i w (i.cyc + fNopCyc w) (holdFor i (fNopCyc w + 1) s)

/-- NOP (R160); also what any engine meets at an illegal word. -/
def execNop (i : Issue) (s : State) : Host.Outcome State Fault Refusal :=
  .next (issueOp i opNop (nopEff i) s)

/-- Remove the first instruction of an engine that completes in a cycle. -/
def popDue (e cyc : Nat) : List Outst → Option (Outst × List Outst)
  | [] => none
  | o :: os =>
    if o.eng = e ∧ o.due = some cyc then some (o, os)
    else match popDue e cyc os with
      | some (r, rest) => some (r, o :: rest)
      | none => none

/-- A granted WAIT lets its engine go on; it completes in the cycle. -/
def grantWait (cyc : Nat) (r : WaitRec) (co : Core) : Core :=
  { updEng co r.eng (fun g => { g with mode := if co.lone then .atTend else .running, free := cyc + 1 }) with
    outst := co.outst ++ [{ eng := r.eng, due := some cyc, p := r.p, ps := r.ps, run := none }] }

/-- A refused WAIT holds its engine. -/
def holdWait (r : WaitRec) (co : Core) : Core :=
  updEng co r.eng fun g => { g with mode := .blocked r.sem r.n r.take r.p r.ps }

/-- A WAIT that stood granted until one before it in engine order took its counts is refused after all. -/
def revokeWait (cyc : Nat) (r : WaitRec) (co : Core) : Core :=
  holdWait r (match popDue r.eng cyc co.outst with | some (_, rest) => { co with outst := rest } | none => co)

/-- The outcome of every WAIT of the cycle, as it was (`old`) and as it is now. -/
def settleWaits (cyc : Nat) (old new : List WaitRec) (co : Core) : Core :=
  new.foldl (fun co r =>
    match (old.find? fun x => x.eng == r.eng).map (·.granted) with
    | some true => if r.granted then co else revokeWait cyc r co
    | _ => if r.granted then grantWait cyc r co else holdWait r co) co

/-- Evaluate a WAIT in a cycle (R97, R98) with the others of its cycle, in engine order whatever the order in which the
commands came: granted, the engine goes on and the take counts; refused, it waits. -/
def waitTry (c e cyc sem n : Nat) (take p : Bool) (ps : Nat) (s : State) : State :=
  let s := semSync c cyc s
  lapse c cyc <| updCore s c fun co =>
    let old := co.semWaits.filter fun x => x.eng != e
    let r : WaitRec := { eng := e, sem := sem, key := semKey co.bank sem, n := n, take := take, p := p, ps := ps, granted := false }
    let (new, t) := judgeWaits co (addWait r old) []
    settleWaits cyc old new { co with semWaits := new, semTake := t }

/-- WAIT. -/
def waitEff (i : Issue) (w _x : Nat) (s : State) : State :=
  waitTry i.core.lcid i.eng.no i.cyc (fWaitS w) (fWaitN w) (fWaitT w) (wP w) (wPS w) s

/-- WAIT (R97, R98). -/
def execWait (i : Issue) (s : State) : Host.Outcome State Fault Refusal :=
  .next (issueOp i opWait (waitEff i) s)

/-- A waiting WAIT is evaluated again (R98). -/
def execWaitGrant (c : CoreId) (e : Engine) (cyc : Nat) (s : State) : Host.Outcome State Fault Refusal :=
  .next <|
    let co := getCore s c.lcid
    if !issueOpen s || !coreOpen co then s
    else
      match (getEng co e.no).mode with
      | .blocked sem n take p ps =>
        if (getEng co e.no).free ≤ cyc then waitTry c.lcid e.no cyc sem n take p ps s else s
      | _ => s

/-- SADD. -/
def saddEff (i : Issue) (w _x : Nat) (s : State) : State :=
  semAdd i.core.lcid i.cyc (semKey (getCore s i.core.lcid).bank (fSemS w)) (fSemK w) (completes i w i.cyc s)

/-- SADD (R97). -/
def execSadd (i : Issue) (s : State) : Host.Outcome State Fault Refusal :=
  .next (issueOp i opSadd (saddEff i) s)

/-- SSUB. -/
def ssubEff (i : Issue) (w _x : Nat) (s : State) : State :=
  semAdd i.core.lcid i.cyc (semKey (getCore s i.core.lcid).bank (fSemS w)) (-(fSemK w : Int)) (completes i w i.cyc s)

/-- SSUB (R97). -/
def execSsub (i : Issue) (s : State) : Host.Outcome State Fault Refusal :=
  .next (issueOp i opSsub (ssubEff i) s)

/-- TEND. The whole-die condition may rise with it (R108). -/
def tendEff (i : Issue) (w _x : Nat) (s : State) : State :=
  judgeDie i.core.die.val i.cyc
    (onCore i (fun co => updEng co i.eng.no fun g => { g with mode := .atTend }) (completes i w i.cyc s))

/-- TEND (R84). -/
def execTend (i : Issue) (s : State) : Host.Outcome State Fault Refusal :=
  .next (issueOp i opTend (tendEff i) s)

/-- HALT. -/
def haltEff (i : Issue) (w _x : Nat) (s : State) : State :=
  judgeDie i.core.die.val i.cyc
    (onCore i (fun co => updEng co i.eng.no fun g => { g with mode := .halted }) (completes i w i.cyc s))

/-- HALT (R84). -/
def execHalt (i : Issue) (s : State) : Host.Outcome State Fault Refusal :=
  .next (issueOp i opHalt (haltEff i) s)

/-- FMT: the value is in force from the next cycle; two writes of one descriptor in one cycle are a
SLOT_CONFLICT and neither takes effect (R85). -/
def fmtEff (i : Issue) (w _x : Nat) (s : State) : State :=
  let d := fFmtD w
  let s := onCore i (descAt i.cyc) (completes i w i.cyc s)
  let co := getCore s i.core.lcid
  if co.descBad.contains d then s
  else if (smGet none co.descNew d).isSome then
    takeFault (coreFault s i.core.lcid 0x10 clPlan i.cyc d)
      (onCore i (fun co => { co with descNew := smSet none co.descNew d none, descBad := d :: co.descBad }) s)
  else onCore i (fun co => { co with descNew := smSet none co.descNew d (some (fFmtV w)) }) s

/-- FMT (R85). -/
def execFmt (i : Issue) (s : State) : Host.Outcome State Fault Refusal :=
  .next (issueOp i opFmt (fmtEff i) s)

/-- TST: the engine runs test content for CYC + 1 cycles (R314). Its blocks write no bank, no
semaphore and no memory (R315); their signatures reach the comparison row. -/
def tstEff (i : Issue) (w _x : Nat) (s : State) : State :=
  completes i w (i.cyc + fTCyc w) (holdFor i (fTCyc w + 1) s)

/-- TST (R314). -/
def execTst (i : Issue) (s : State) : Host.Outcome State Fault Refusal :=
  .next (issueOp i opTst (tstEff i) s)

/-- An instruction completes; with P = 1 it posts +1 to PS of the active bank (R83). -/
def execInstructionComplete (c : CoreId) (e : Engine) (cyc : Nat) (s : State) :
    Host.Outcome State Fault Refusal :=
  .next <|
    let co := getCore s c.lcid
    match popDue e.no cyc co.outst with
    | none => s
    | some (o, rest) =>
      let s := updCore s c.lcid fun co => { co with outst := rest }
      if o.p then semAdd c.lcid cyc (semKey co.bank o.ps) 1 s else s

end Sys2Proof.Machine
end

