-- ==== Sys2Proof/Machine/Array.lean ====
section
/-! DEFINITION. The matrix arrays: LDW, SWW, MMA, DRN, PAIR (R142 to R153, R161, R162, R429). -/

namespace Sys2Proof.Machine

/-- ARRAY_HAZARD (R153, Table 5.6): the instruction is not carried out (log 14). -/
def arrayHazard (i : Issue) (s : State) : State :=
  takeFault (coreFault s i.core.lcid 0x1C clPlan i.cyc i.eng.no) s

/-- Array of the issuing engine. -/
def arrNo (i : Issue) : Nat := if i.eng = .ae1 then 1 else 0

def actSet (c : Core) (n : Nat) : WSet := if n = 0 then c.act0 else c.act1
def shSet (c : Core) (n : Nat) : WSet := if n = 0 then c.sh0 else c.sh1

def setSh (n : Nat) (v : WSet) (c : Core) : Core := if n = 0 then { c with sh0 := v } else { c with sh1 := v }

/-- Exchange the active and shadow set of an array, with their full state (R145). -/
def swapSets (n : Nat) (c : Core) : Core :=
  if n = 0 then { c with act0 := c.sh0, sh0 := c.act0 } else { c with act1 := c.sh1, sh1 := c.act1 }

/-- The set is full in a cycle (R144). -/
def setFull (v : WSet) (cyc : Nat) : Bool :=
  match v.full with
  | some f => decide (f ≤ cyc)
  | none => false

/-- An LDW is still delivering to the set in a cycle. -/
def delivering (v : WSet) (cyc : Nat) : Bool :=
  match v.full with
  | some f => decide (cyc < f)
  | none => false

/-- The descriptor an instruction reads in its issue cycle (R85). -/
def issueDesc (i : Issue) (s : State) (d : Nat) : Nat := rdDesc (getCore s i.core.lcid) i.cyc d

/-- Lines that an element's bits lie in, and its scale's line, are among those lost. -/
def elemLost (lost : List Nat) (d t q p : Nat) : Bool :=
  let w := elemWidth d
  let a := 8 * t + (32 * q + p) * w
  lost.contains (a / 512) || lost.contains ((a + w - 1) / 512) ||
  (dBlock d != 0 && lost.contains ((t + 128 * w + scaleIndex d q p) / 64))

/-- Lines that a feeder does not get: lost, and in normal service pending (Table 5.5). -/
def feederLost (s : State) (acc : List LsAcc) : List Nat :=
  lostLines acc ++ (if stallMode s then [] else pendLines acc)

/-- Does a tile reach beyond the end of the local store, so that some of its bytes are free (log 13)? -/
def tileOver (d t : Nat) : Bool := decide (lsBytes < t + tileBytes d)

/-- The counter moves past the free bytes of tiles beyond the store. -/
def usedOver (beyond : Bool) (s : State) : State := usedFree (if beyond then [0] else []) s

/-- A weight set as the feeder loads it (R144): cells beyond the extents, or whose access was lost, hold zero. -/
def loadSet (rd : Nat → Byte) (lost : List Nat) (d w : Nat) (full : Nat) : WSet :=
  let cells := (List.range (fLdwN w + 1)).flatMap fun col => (List.range (fLdwK w + 1)).map fun k => (col, k)
  cells.foldl
    (fun v e =>
      let t := 64 * (if e.2 < 32 then fLdwB w else fLdwB2 w)
      let q := 8 * fLdwF w + e.1
      let p := e.2 % 32
      if elemLost lost d t q p then v
      else { v with
        elems := smSet 0 v.elems (64 * e.1 + e.2) (elemAt rd d t q p),
        scales := smSet 0 v.scales (64 * e.1 + e.2) (if dBlock d = 0 then 0 else scaleAt rd d t q p) })
    { elems := [], scales := [], desc := d, kext := fLdwK w + 1, full := some full }

/-- Cycles of delivery L_w (R144). -/
def loadCycles (d w : Nat) : Nat := ceilDiv ((if 32 ≤ fLdwK w then 64 else 32) * elemWidth d) 32

/-- Is an LDW of an array held for a pending beat (R151)? -/
def ldwHeld (c : Core) (n : Nat) : Bool := (smGet none c.heldLdw n).isSome

/-- Is an LDW delivering to the shadow set of an array, or in paired mode to either? -/
def anyDelivering (c : Core) (n cyc : Nat) : Bool :=
  delivering (shSet c n) cyc || ldwHeld c n || (c.paired && (delivering c.sh1 cyc || ldwHeld c 0))

/-- The feeder delivers a set from the cycle after `cyc` on (R144). -/
def ldwLoad (i : Issue) (w : Nat) (s : State) : State :=
  let c := getCore s i.core.lcid
  let d := issueDesc i s (fLdwD w)
  let l := loadCycles d w
  let v := loadSet (lsView s c []) (feederLost s i.acc) d w (i.cyc + l + 1)
  let beyond := tileOver d (64 * fLdwB w) || (decide (32 ≤ fLdwK w) && tileOver d (64 * fLdwB2 w))
  chargeAcc i <| usedOver beyond <| completes i w (i.cyc + l)
    (onCore i (fun co => if co.paired then setSh 1 v (setSh 0 v co) else setSh (arrNo i) v co) s)

/-- The shadow set that an LDW will fill is not full until then. -/
def unfill (n : Nat) (co : Core) : Core := setSh n { shSet co n with full := none } co

/-- LDW: a pending beat in stall mode delays the moment the set is full and does not hold the engine (R151). -/
def ldwEff (i : Issue) (w x : Nat) (s : State) : State :=
  let c := getCore s i.core.lcid
  let n := arrNo i
  if (c.paired && n == 1) || anyDelivering c n i.cyc then arrayHazard i s
  else if displaced i s then
    onCore i (fun co =>
      let co := if co.paired then unfill 1 (unfill 0 co) else unfill n co
      { co with heldLdw := smSet none co.heldLdw n (some (heldOf i w x i.cyc s)) }) s
  else ldwLoad i w s

/-- LDW (R144). -/
def execLdw (i : Issue) (s : State) : Host.Outcome State Fault Refusal :=
  .next (issueOp i opLdw (ldwEff i) s)

/-- Does an MMA hold the engine of an array in a cycle: issued, or held in stall mode (R150)? -/
def mmaHolds (c : Core) (n cyc : Nat) : Bool :=
  decide (cyc < smGet 0 c.mmaUntil n) ||
  match (getEng c n).mode with
  | .stalled h => wOp h.w == opMma
  | _ => false

/-- SWW: swaps when the shadow set is full; in stall mode it waits for a delivery (R145, R150, R151). -/
def swwEff (i : Issue) (w x : Nat) (s : State) : State :=
  let c := getCore s i.core.lcid
  let n := arrNo i
  if c.paired && (n == 1 || mmaHolds c 0 i.cyc || mmaHolds c 1 i.cyc) then arrayHazard i s
  else if setFull (shSet c n) i.cyc && (!c.paired || setFull c.sh1 i.cyc) then
    completes i w i.cyc (onCore i (fun co => if co.paired then swapSets 1 (swapSets 0 co) else swapSets n co) s)
  else if stallMode s && anyDelivering c n i.cyc then
    onCore i (fun co => updEng co i.eng.no fun g => { g with mode := .stalled (heldOf i w x i.cyc s) }) s
  else arrayHazard i s

/-- SWW (R145). -/
def execSww (i : Issue) (s : State) : Host.Outcome State Fault Refusal :=
  .next (issueOp i opSww (swwEff i) s)

/-! ### MMA -/

/-- The rate class of two operands (Table 5.1): 16, 32 or 64. -/
def rateClass (da db : Nat) : Nat :=
  if elemWidth da = 16 ∨ elemWidth db = 16 then 16
  else if elemWidth da = 4 ∧ elemWidth db = 4 then 64
  else 32

/-- Cycles per row. -/
def rowCycles (cls : Nat) : Nat := if cls = 16 then 2 else 1

/-- Groups per row. -/
def rowGroups (cls : Nat) : Nat := if cls = 64 then 2 else 1

/-- Accumulator key of array, row, column. -/
def accKey (n row col : Nat) : Nat := 2048 * n + 8 * (row % 256) + col
def accRowKey (n row : Nat) : Nat := 256 * n + row % 256

/-- Byte address of the tile that group g of row j reads (R146, R161). -/
def mmaTile (w x j g : Nat) : Nat := 64 * (fMmaA w + j / 32 * fMmaMstr x + g * fMmaKoff x)

/-- The 32 A values of group g of row j. -/
def mmaA (rd : Nat → Byte) (d w x j g : Nat) : List Val :=
  (List.range 32).map fun k => tileVal rd d (mmaTile w x j g) (j % 32) k

/-- The 32 B values of column n of group g of a weight set. -/
def setB32 (v : WSet) (n g : Nat) : List Val :=
  (List.range 32).map fun k =>
    decodeScaled v.desc (smGet 0 v.scales (64 * n + 32 * g + k)) (smGet 0 v.elems (64 * n + 32 * g + k))

/-- Does the row enter as a bubble: masked off, or an access of it lost (R147, Table 5.5)? -/
def mmaBubble (rd : Nat → Byte) (lost : List Nat) (da gs w x j : Nat) : Bool :=
  let masked := fMmaMask w &&
    (lost.contains (fMmaMline x) ||
     (rd (64 * fMmaMline x + j / 8)).toNat / 2 ^ (j % 8) % 2 == 0)
  masked || (List.range gs).any fun g =>
    (List.range 32).any fun k => elemLost lost da (mmaTile w x j g) (j % 32) k

/-- One element of a row: every group in increasing k order (R143, R128, R130). -/
def mmaElem (int : Bool) (as bs : List (List Val)) (a : Word × Bool) : Word × Bool :=
  (List.zip as bs).foldl
    (fun a g => if int then (let r := groupInt a.1 g.1 g.2; (r.1, a.2 || r.2)) else (groupAcc a.1 g.1 g.2, a.2)) a

/-- One row of an MMA into the accumulator file (R143, R147). -/
def mmaRow (rd : Nat → Byte) (lost : List Nat) (n da db cls : Nat) (cyc w x : Nat) (c : Core) (j : Nat) : Core :=
  let gs := rowGroups cls
  let r := rowCycles cls
  let row := fMmaS w + j
  let int := intPath da db
  let bubble := mmaBubble rd lost da gs w x j
  let as := (List.range gs).map fun g => mmaA rd da w x j g
  let c := (List.range 8).foldl
    (fun c col =>
      let k := accKey n row col
      let a0 : Word × Bool := if fMmaStart w then (0#32, false) else (smGet 0#32 c.acc k, smGet false c.accOvf k)
      let a1 := if bubble then a0
                else mmaElem int as ((List.range gs).map fun g => setB32 (actSet c n) col g) a0
      { c with acc := smSet 0#32 c.acc k a1.1, accOvf := smSet false c.accOvf k a1.2 }) c
  { c with accReady := smSet 0 c.accReady (accRowKey n row) (cyc + j * r + r - 1 + 12),
           accInt := smSet false c.accInt (accRowKey n row) int }

/-- Is a row written before a drain already issued has read it (Table 5.6)? The start flag clears
the row when it enters, an accumulation reaches it at the end of e + 11 (Table 5.2). -/
def mmaEarly (c : Core) (n cls cyc w j : Nat) : Bool :=
  let r := rowCycles cls
  let e := cyc + j * r + r - 1
  decide (smGet 0 c.accRead (accRowKey n (fMmaS w + j)) > (if fMmaStart w then cyc + j * r else e + 11))

/-- A descriptor the MMA names changed between its first feeder access and its issue (R429). -/
def descMoved (c : Core) (first cyc d : Nat) : Bool :=
  let v := smGet 0 c.descWhen d
  decide (first < v) && decide (v ≤ cyc) && v != 0

/-- MMA. -/
def mmaEff (i : Issue) (first : Nat) (w x : Nat) (s : State) : State :=
  let s := onCore i (fun c => if c.descCyc < i.cyc then descAt i.cyc c else c) s
  let c := getCore s i.core.lcid
  let n := arrNo i
  let da := issueDesc i s (fMmaAD w)
  let db := (actSet c n).desc
  let cls := rateClass da (issueDesc i s (fMmaBD w))
  let m := fMmaM w + 1
  let rows := List.range m
  if rows.any (mmaEarly c n cls i.cyc w) || descMoved c first i.cyc (fMmaAD w) ||
     descMoved c first i.cyc (fMmaBD w) then arrayHazard i s
  else
    orStall i w x first (fun s =>
      let lost := feederLost s i.acc
      let hold := m * rowCycles cls
      let rd := lsView s c []
      let beyond := (fMmaMask w && decide (lsLines ≤ fMmaMline x)) ||
        rows.any fun j => (List.range (rowGroups cls)).any fun g => tileOver da (mmaTile w x j g)
      usedOver beyond <| completes i w (i.cyc + hold + 10) <| holdFor i hold <|
        onCore i (fun c =>
          let c := rows.foldl (fun c j => mmaRow rd lost n da db cls i.cyc w x c j) c
          { c with mmaUntil := smSet 0 c.mmaUntil n (i.cyc + hold) }) s) s

/-- MMA (R143). -/
def execMma (i : Issue) (first : Nat) (s : State) : Host.Outcome State Fault Refusal :=
  .next (issueOp i opMma (mmaEff i first) s)

/-! ### DRN -/

/-- FP32 word of an accumulator element as the drain converts it (R132 steps 2 and 3). -/
def drainVal (int : Bool) (sigma : Option Word) (a : Word) : Word :=
  let v := if int then intToFp32 (toSigned 32 a.toNat) else a
  match sigma with
  | some g => mul32 v g
  | none => v

/-- Cycles that line l takes (R149): ⌈G × w / 32⌉, two for a 6-bit line that crosses 64 bytes. -/
def drnLineCycles (d g l : Nat) : Nat :=
  if elemWidth d = 6 ∧ (l % 8 = 2 ∨ l % 8 = 5) then 2 else ceilDiv (g * elemWidth d) 32

/-- Extra cycles at the first line of a tile: the pass that finds each position's amax (R149). -/
def drnPassCycles (d g l : Nat) : Nat :=
  if dBlock d ≠ 0 ∧ dDir d = 1 ∧ l % 32 = 0 then 8 * g else 0

/-- Extra cycle after the last line of a tile: the trailer (R149). -/
def drnTrailCycles (d last l : Nat) : Nat :=
  if dBlock d ≠ 0 ∧ (l % 32 = 31 ∨ l = last) then 1 else 0

/-- Cycle, from the first after issue, in which line l's rows are read. -/
def drnLineStart (d g last : Nat) : Nat → Nat
  | 0 => drnPassCycles d g 0
  | l + 1 => drnLineStart d g last l + drnLineCycles d g l + drnTrailCycles d last l + drnPassCycles d g (l + 1)

/-- Cycle of a line in which group q's row is read: as many groups a cycle as fill 32 B (R149). -/
def drnGroupAt (d q : Nat) : Nat := q * elemWidth d / 32

/-- Cycle, from the first after issue, in which the row of group q of line l is first read: with blocks across lines that
of the tile's first pass, which reads four rows a cycle in the order of lines and groups (R149; log 119). -/
def drnFirstRead (d g last l q : Nat) : Nat :=
  if dBlock d ≠ 0 ∧ dDir d = 1 then
    let t := l / 32 * 32
    drnLineStart d g last t - drnPassCycles d g t + ((l - t) * g + q) / 4
  else drnLineStart d g last l + drnGroupAt d q

/-- Accumulator row of group g of line l. -/
def drnRow (w l g : Nat) : Nat := (fDrnBase w + l + g * fDrnRstr w) % 256

/-- The elements of a line as (position, FP32 or raw word, integer row). -/
def drnLineVals (c : Core) (n w l : Nat) : List (Nat × Word × Bool) :=
  (List.range (fDrnG w + 1)).flatMap fun g => (List.range 8).map fun col =>
    (8 * (fDrnPos w + g) + col, smGet 0#32 c.acc (accKey n (drnRow w l g) col),
     smGet false c.accInt (accRowKey n (drnRow w l g)))

/-- Byte address of output line l (R162). -/
def drnLineAddr (d w x l : Nat) : Nat :=
  64 * (fDrnO w + l / 32 * fDrnOtstr x) + l % 32 * elemWidth d * 4

/-- The draw of an element (R135). -/
def drnDraw (s : State) (i : Issue) (x l p : Nat) : Nat :=
  srDraw (jobSeed s) (32 * (l % 32) + p) (fDrnSrt x + l / 32) i.core.lcid (trainStep s)

/-- Elements of line l after conversion, and the scale bytes it brings, each with its trailer place (R132 to R134). An
INT32 output takes each row's 32 bits as they stand, of a row fed by the FP path too, and no drain scale: the spec
forbids both and gives no result (DESIGN CHOICE, log 120). -/
def drnLineOut (s : State) (i : Issue) (c : Core) (sigma : Option Word) (d w x l : Nat) :
    List Nat × List (Nat × Nat) :=
  let n := arrNo i
  let vals := drnLineVals c n w l
  let fp := vals.map fun e => drainVal e.2.2 sigma e.2.1
  let draws := vals.map fun e => if dRnd d = 2 then drnDraw s i x l e.1 else 0
  if dElem d = 10 then (vals.map fun e => e.2.1.toNat, [])
  else if dBlock d = 0 then (List.zipWith (fun r v => convElem d r v) draws fp, [])
  else if dDir d = 0 then
    let b := min (blockSize d) 32
    let n := ceilDiv fp.length b
    let blocks := (List.range n).map fun j =>
      quantBlock d ((draws.drop (j * b)).take b) (((fp.drop (j * b)).take b).map val32)
    (blocks.flatMap (·.2),
     (List.range n).map fun j => (scaleIndex d (l % 32) (8 * fDrnPos w + j * b), (blocks.getD j (0, [])).1))
  else
    -- blocks across lines: the lines of this DRN that lie in the block of line l
    let b := min (blockSize d) 32
    let lo := l / b * b
    let ls := (List.range b).map (lo + ·) |>.filter fun k => decide (k ≤ fDrnL w)
    let cols := (List.range fp.length).map fun p =>
      quantBlock d (ls.map fun k => if dRnd d = 2 then drnDraw s i x k (8 * fDrnPos w + p) else 0)
        (ls.map fun k =>
          let e := (drnLineVals c n w k).getD p (0, 0#32, false)
          val32 (drainVal e.2.2 sigma e.2.1))
    (cols.map fun q => q.2.getD (l - lo) 0,
     (List.range fp.length).map fun p => (scaleIndex d (l % 32) (8 * fDrnPos w + p), (cols.getD p (0, [])).1))

/-- A masked write of whole 8-byte words around some bytes; the rest of those words is zero (R149, R162). -/
def wordMasked (a : Nat) (bs : List Byte) : Nat × List Byte :=
  let lo := a / 8 * 8
  let hi := ceilDiv (a + bs.length) 8 * 8
  (lo, List.replicate (a - lo) 0#8 ++ bs ++ List.replicate (hi - (a + bs.length)) 0#8)

/-- The trailer bytes of a tile: the scales brought by its lines, 0 elsewhere (R127). -/
def trailerBytes (scs : List (Nat × Nat)) : List Byte :=
  (List.range 64).map fun k =>
    match scs.find? (fun e => e.1 == k) with
    | some e => BitVec.ofNat 8 e.2
    | none => 0#8

/-- INT_SAT of the rows read whose element has its saturation bit set: array and row (R130). -/
def drnSat (s : State) (i : Issue) (c : Core) (w : Nat) : List FaultRec :=
  let n := arrNo i
  let rows := (List.range (fDrnL w + 1)).flatMap fun l => (List.range (fDrnG w + 1)).map fun g => drnRow w l g
  (rows.dedup).filterMap fun r =>
    if (List.range 8).any fun col => smGet false c.accOvf (accKey n r col) then
      some (coreFault s i.core.lcid 0x1B clLogged i.cyc (n * 2 ^ 8 + r))
    else none

/-- DRN. -/
def drnEff (i : Issue) (w x : Nat) (s : State) : State :=
  let c := getCore s i.core.lcid
  let n := arrNo i
  let d := issueDesc i s (fDrnD w)
  let g := fDrnG w + 1
  let last := fDrnL w
  let lines := List.range (last + 1)
  let readAt := fun l q => i.cyc + 1 + drnLineStart d g last l + drnGroupAt d q
  -- a row read before it is readable (Table 5.6)
  if lines.any fun l => (List.range g).any fun q =>
      decide (i.cyc + 1 + drnFirstRead d g last l q < smGet 0 c.accReady (accRowKey n (drnRow w l q))) then arrayHazard i s
  else
    orStall i w x i.cyc (fun s =>
      let lost := lostLines i.acc
      let rd := lsView s c []
      let sigma : Option Word :=
        if fDrnSig w ∧ !(feederLost s i.acc).contains (fDrnSigw x / 16) then
          some (BitVec.ofNat 32 (leNat ((List.range 4).map fun b => rd (4 * fDrnSigw x + b))))
        else none
      let outs := lines.map fun l => (l, drnLineOut s i c sigma d w x l)
      let done := i.cyc + 1 + drnLineStart d g last last + drnLineCycles d g last + drnTrailCycles d last last + 2
      let s := takeFaults (drnSat s i c w) s
      usedOver (fDrnSig w && decide (lsLines ≤ fDrnSigw x / 16)) <| completes i w done <| onCore i (fun c =>
        let c := outs.foldl (fun c o =>
          let (a, bs) := wordMasked (drnLineAddr d w x o.1 + fDrnPos w * elemWidth d)
            (packElems (elemWidth d) o.2.1)
          lsWrite lost c a bs) c
        let c := if dBlock d = 0 then c else
          (List.range (last / 32 + 1)).foldl (fun c t =>
            lsWrite lost c (64 * (fDrnO w + t * fDrnOtstr x) + 128 * elemWidth d)
              (trailerBytes ((outs.filter fun o => o.1 / 32 == t).flatMap fun o => o.2.2))) c
        lines.foldl (fun c l => (List.range g).foldl (fun c q =>
          { c with accRead := smUpd 0 c.accRead (accRowKey n (drnRow w l q)) (max (readAt l q)) }) c) c) s) s

/-- DRN (R149). -/
def execDrn (i : Issue) (s : State) : Host.Outcome State Fault Refusal :=
  .next (issueOp i opDrn (drnEff i) s)

/-- PAIR: both array engines issue it in the same cycle with one operand; otherwise it is an
ARRAY_HAZARD and the mode stays (R150). Of two that differ, AE0's records the hazard. -/
def pairEff (other : Option Bool) (i : Issue) (w _x : Nat) (s : State) : State :=
  match other with
  | some o =>
    if o = fPairOn w then completes i w i.cyc (onCore i (fun c => { c with paired := o }) s)
    else if arrNo i = 0 then arrayHazard i s else s
  | none => arrayHazard i s

/-- PAIR (R150). -/
def execPair (i : Issue) (other : Option Bool) (s : State) : Host.Outcome State Fault Refusal :=
  .next (issueOp i opPair (pairEff other i) s)

end Sys2Proof.Machine
end

