-- ==== Sys2Proof/Machine/Dies.lean ====
section
/-! DEFINITION. The floorplan, discovery of dies and stacks, the cross-connect, and the flits of a bundle (R50 to R58). -/

namespace Sys2Proof.Machine

/-! ### The floorplan (R50) -/

/-- Left and right neighbour of a die. -/
def leftOf (d : Nat) : Nat := (d + 3) % 4
def rightOf (d : Nat) : Nat := (d + 1) % 4

/-- The stack on memory port p of a die, and the die and port of a stack. -/
def stackOn (d p : Nat) : Nat := 3 * d + p
def dieOfStack (k : Nat) : Nat := k / 3

/-- The optical engine of a port, and the fibre connector of an engine. -/
def engineOf (port : Nat) : Nat := port / 4
def connectorOf (engine : Nat) : Nat := engine / 3

/-- The ports of a fibre connector. -/
def connectorPorts (j : Nat) : List Nat := (List.range 48).filter fun p => connectorOf (engineOf p) == j

/-! ### Discovery (R51, R52) -/

/-- Key of a die's or a stack's discovery. -/
def discKey (d : Nat) (port : Option (Fin 3)) : Nat :=
  match port with
  | none => d
  | some p => 4 + stackOn d p.val

def getDisc (s : State) (k : Nat) : Disc := smGet disc0 s.bu.disc k
def updDisc (s : State) (k : Nat) (f : Disc → Disc) : State :=
  { s with bu := { s.bu with disc := smUpd disc0 s.bu.disc k f } }

/-- Is a discovery frame whole: 32 bytes with a good CRC (R52)? -/
def discGood (f : List Byte) : Bool := f.length == 32 && crc32c (f.take 28) == leNat (f.drop 28)

/-- A discovery frame (Table 2.2). -/
def discFrame (type cls id port : Nat) (u : UnitId) : List Byte :=
  let b := leBytes 1 type ++ leBytes 1 cls ++ leBytes 1 id ++ leBytes 1 port ++ leBytes 4 u.part ++
    leBytes 4 u.digest ++ leBytes 2 u.rev ++ leBytes 2 u.lanes ++ leBytes 8 u.serial ++ leBytes 4 0
  b ++ leBytes 4 (crc32c b)

/-- What a die or stack says of itself. -/
def dieId (s : State) (d : Nat) : UnitId := s.fuse.dieIds.getD d unitId0
def stackId (s : State) (k : Nat) : UnitId := s.fuse.stackIds.getD k unitId0

/-- The hub's request to the die on a face, and a die's request to the stack on a memory port of it (R51). -/
def hubReq (s : State) (f : Nat) : List Byte := discFrame 1 0 f f s.fuse.hub
def dieReq (s : State) (d id p : Nat) : List Byte := discFrame 1 1 (stackOn id p) p (dieId s d)

/-- The hub probes its four faces in parallel, each on B00 (R51). -/
def startDiscovery (s : State) : State :=
  (List.range 4).foldl (fun s d => updDisc s d fun _ => { disc0 with req := hubReq s d, tries := 1 }) s

/-- Is discovery under way: P2 runs? -/
def probing (s : State) : Bool := s.hearth.closed && s.bu.next == 2

/-- A die that has taken its number probes its memory ports that have not answered (R51). -/
def probePorts (d id : Nat) (s : State) : State :=
  (List.range 3).foldl (fun s p => updDisc s (4 + stackOn d p) fun q =>
    if q.answered then q else { q with req := dieReq s d id p, tries := max 1 q.tries }) s

/-- The request sent to a die or stack reaches it whole: it takes the identity and answers (R51); a die then probes its
memory ports. Any other frame is one spoilt on its way, and discarded (R52). The PORT byte of the answer repeats the
request's: Table 2.2 gives the sender's port, and no number to an answering die's or stack's (DESIGN CHOICE, log 111). -/
def execDiscReq (d : DieNo) (port : Option (Fin 3)) (frame : List Byte) (s : State) : Host.Outcome State Fault Refusal :=
  .next <|
    let k := discKey d port
    if !probing s || !discGood frame || frame != (getDisc s k).req then s
    else
      let id := leNat ((frame.drop 2).take 1)
      let p := leNat ((frame.drop 3).take 1)
      match port with
      | some x => updDisc s k fun q => { q with taken := some id, rsp := discFrame 2 2 id p (stackId s (stackOn d x.val)) }
      | none => probePorts d id (updDisc s k fun q => { q with taken := some id, rsp := discFrame 2 1 id p (dieId s d) })

/-- The answer that a die or stack sent reaches the sender of the request whole: its discovery is complete (R51). -/
def execDiscRsp (d : DieNo) (port : Option (Fin 3)) (frame : List Byte) (s : State) : Host.Outcome State Fault Refusal :=
  .next <|
    let k := discKey d port
    if !probing s || !discGood frame || frame != (getDisc s k).rsp then s
    else updDisc s k fun q => if q.gaveUp then q else { q with answered := true, ident := frame }

/-- A bundle is marked failed (R51, R54). -/
def failBundle (d b : Nat) (s : State) : State :=
  if bitsOf (getF s (R.EDGE_FAIL.FAILED d)) b 1 = 1 then s
  else raise (E.EDGE.BUNDLE_FAIL d) (setF s (R.EDGE_FAIL.FAILED d) (getF s (R.EDGE_FAIL.FAILED d) ||| 2 ^ b))

/-- 100 µs without an answer: another try; with ten made, 1 ms after the first, the next bundle, or none (R51, R52;
log 111). -/
def execDiscRetry (d : DieNo) (port : Option (Fin 3)) (s : State) : Host.Outcome State Fault Refusal :=
  .next <|
    let k := discKey d port
    let q := getDisc s k
    if !probing s || q.tries = 0 || q.answered || q.gaveUp then s
    else if q.tries < 10 then updDisc s k fun q => { q with tries := q.tries + 1 }
    else if port.isSome then updDisc s k fun q => { q with gaveUp := true }
    else
      let s := failBundle d q.bundle s
      updDisc s k fun q => { q with tries := 1, bundle := q.bundle + 1, gaveUp := q.bundle == 23 }

/-! ### Roles and the cross-connect (R55, R56, R431) -/

/-- Role code of a bundle (R80). -/
def bundleRole (s : State) (d b : Nat) : Nat :=
  if b < 16 then bitsOf (getF s (R.EDGE_ROLE_LO.ROLE d)) (2 * b) 2 else bitsOf (getF s (R.EDGE_ROLE_HI.ROLE d)) (2 * b - 32) 2

/-- Bundles of a die that hold a role, ascending: 1 hub, 2 left, 3 right. -/
def roleBundles (s : State) (d role : Nat) : List Nat := (List.range 24).filter fun b => bundleRole s d b == role

/-- The cross-connect: bundle b of die d, when it has the left or right role, is joined to a bundle of that neighbour (R56). -/
def crossConnect (s : State) (d b : Nat) : Option (Nat × Nat) :=
  let role := bundleRole s d b
  let j := (roleBundles s d role).takeWhile (fun x => x != b) |>.length
  if role = 2 then (roleBundles s (leftOf d) 3)[j]?.map fun x => (leftOf d, x)
  else if role = 3 then (roleBundles s (rightOf d) 2)[j]?.map fun x => (rightOf d, x)
  else none

/-- Edge slots of a role in a core cycle on a fit die: four for each of its bundles, 48 hub, 20 left, 20 right (R431). -/
def edgeSlots (role : Nat) : Nat := 4 * (if role = 1 then 12 else 5)

/-- The role on the sending edge of a beat from one die toward another: toward a neighbour the left or right one, toward
the diagonal die the hub's; none within a die (R431). -/
def sendRole (src dst : Nat) : Option Nat :=
  if src = dst then none else if dst = leftOf src then some 2 else if dst = rightOf src then some 3 else some 1

/-- The role on the receiving edge: the hub's for a beat that leaves the Hall, a diagonal one; none otherwise (R431). -/
def recvRole (src dst : Nat) : Option Nat := if sendRole src dst = some 1 then some 1 else none

/-- Is a slot one that a role offers? -/
def slotOk (role : Option Nat) (slot : Nat) : Bool :=
  match role with
  | some r => decide (slot < edgeSlots r)
  | none => false

/-! ### Bundles (R58) -/

def bundleKey (d b : Nat) : Nat := 32 * d + b

/-- Counts of a bundle: resends, beyond, P5 errors (EDGE_BER). -/
def berOf (s : State) (k : Nat) : List Nat :=
  match smGet [] s.bu.ber k with
  | [] => [0, 0, 0]
  | l => l

def addBer (k i n : Nat) (s : State) : State :=
  let l := berOf s k
  let l' := l.set i (satAdd 255 (l.getD i 0) n)
  { s with bu := { s.bu with ber := smSet [] s.bu.ber k (if l' = [0, 0, 0] then [] else l') } }

/-- Sequence numbers of a bundle whose resend is awaited. -/
def resendsOf (s : State) (k : Nat) : List Nat := smGet [] s.bu.resend k

def setResends (k : Nat) (l : List Nat) (s : State) : State := { s with bu := { s.bu with resend := smSet [] s.bu.resend k l } }

/-- The sender's replay buffer: the last 64 flits of a bundle. -/
def flitsOf (s : State) (k : Nat) : List Nat := smGet [] s.bu.flits k

/-- A new flit enters the buffer; the oldest of 65 leaves. -/
def holdFlit (k q : Nat) (s : State) : State :=
  let l := (flitsOf s k).filter (fun x => x != q) ++ [q]
  { s with bu := { s.bu with flits := smSet [] s.bu.flits k (l.drop (l.length - 64)) } }

/-- A link CRC error beyond link replay (R58). -/
def beyondReplay (d k : Nat) (s : State) : State :=
  takeFault (mkFault 0x38 clVoid uBundle k 0 0) (raise (E.EDGE.BEYOND_REPLAY d) (addBer k 1 1 s))

/-- Awaited flits that have left the replay buffer can be resent no more: a second resend of theirs never comes (log 112). -/
def expireResends (d k : Nat) (s : State) : State :=
  let l := resendsOf s k
  let l' := l.filter fun x => (flitsOf s k).contains x
  if l'.length = l.length then s else beyondReplay d k (setResends k l' s)

/-- A flit of a bundle is received (R58): a bad CRC asks for one resend; a second is beyond link replay. -/
def execBundleFlit (d : DieNo) (b : Fin 24) (seq : Nat) (bad : Bool) (s : State) : Host.Outcome State Fault Refusal :=
  .next <|
    let k := bundleKey d b
    let q := seq % 1024
    let due := resendsOf s k
    if due.contains q then
      let s := setResends k (due.filter fun x => x != q) s
      if bad then beyondReplay d k s else s
    else
      let s := expireResends d k (holdFlit k q s)
      if bad then addBer k 0 1 (setResends k (resendsOf s k ++ [q]) s) else s

end Sys2Proof.Machine
end

