-- ==== Sys2Proof/Machine/GuestLink.lean ====
section
/-! DEFINITION. The link of the Guest room: sequence, replay buffer, acknowledgement and retraining
(R68, R71). -/

namespace Sys2Proof.Machine


/-- Header bytes 0 to 11 of a guest flit (Table 2.6). -/
def gHeader (f : GFlit) : Nat :=
  f.type % 16 + f.len % 8 * 2 ^ 8 + f.seq % 4096 * 2 ^ 12 + f.tag % 4096 * 2 ^ 24 + f.addr % 2 ^ 40 * 2 ^ 40 +
  f.stream % 2 ^ 16 * 2 ^ 80

/-- CRC of a guest flit (Table 2.6). -/
def gCrc (f : GFlit) : Nat := crc32c (leBytes 12 (gHeader f) ++ f.payload)

def gflit0 : GFlit := { type := 0, len := 0, seq := 0, tag := 0, addr := 0, stream := 0, payload := [], crc := 0 }

/-- A flit goes out with its CRC. -/
def emitFlit (f : GFlit) (s : State) : State := onGuest (fun g => { g with sent := g.sent ++ [{ f with crc := gCrc f }] }) s

/-- A LINK flit: ACK, ACKV and NAK in ADDR (R71). -/
def linkFlit (g : Guest) : GFlit :=
  { gflit0 with type := 8, addr := g.e + 2 ^ 12 + (if g.nakNext then 2 ^ 13 else 0) }

/-- Send a LINK flit. -/
def sendLink (s : State) : State :=
  onGuest (fun g => { g with nakNext := false, ackDue := false }) (emitFlit (linkFlit s.guest) s)

/-- Is the link up and not retraining? -/
def guestUp (s : State) : Bool := flagF s R.GST_STA.LINK_UP && !s.guest.retraining

/-- First transmission of a sequenced flit (R71, R255). -/
def sendSeq (f : GFlit) (s : State) : State :=
  let h := { f with seq := s.guest.seq }
  emitFlit h (onGuest (fun g => { g with seq := (g.seq + 1) % 4096, held := g.held ++ [(h, 1)] }) s)

/-- A sequenced flit is to be sent: it waits while the replay buffer is full or the link is down. -/
def sendFlit (f : GFlit) (s : State) : State :=
  if guestUp s ∧ s.guest.wait = [] ∧ s.guest.held.length < 1024 then sendSeq f s
  else onGuest (fun g => { g with wait := g.wait ++ [f] }) s

/-- Send what waits, as far as the buffer has room. -/
def sendWaiting : List GFlit → State → State
  | [], s => s
  | f :: fs, s =>
    if guestUp s ∧ s.guest.held.length < 1024 then
      sendWaiting fs (sendSeq f (onGuest (fun g => { g with wait := fs }) s))
    else s

/-- SEQ of the oldest held flit. -/
def gOldest (g : Guest) : Nat := match g.held with | (f, _) :: _ => f.seq | [] => g.seq

def gDist (a b : Nat) : Nat := subMod 12 a b

/-- Go-back replay from a held flit: every held flit from it is sent again; a fifth send retrains both
modules (R71, R258). -/
def guestGoback (a : Nat) (s : State) : State :=
  let hs := s.guest.held.drop (gDist a (gOldest s.guest))
  if hs.any fun h => decide (4 ≤ h.2) then onGuest (fun g => { g with retraining := true }) s
  else
    let s := hs.foldl (fun s h => emitFlit h.1 s) s
    onGuest (fun g => { g with held := g.held.map fun h => if hs.contains h then (h.1, h.2 + 1) else h }) s

/-- A LINK flit from the guest: its ACK when valid, and a go-back replay on NAK (R71, R257). -/
def takeLink (f : GFlit) (s : State) : State :=
  let a := f.addr % 4096
  if bitsOf f.addr 12 1 = 0 ∨ s.guest.held.length < gDist a (gOldest s.guest) then s
  else
    let s := onGuest (fun g => { g with held := g.held.drop (gDist a (gOldest g)) }) s
    let s := if bitsOf f.addr 13 1 = 1 then guestGoback a s else s
    sendWaiting s.guest.wait s

/-- The link rule of a sequenced flit from the guest (R71, R256): accepted or not, and the state after. -/
def takeGSeq (f : GFlit) (s : State) : Bool × State :=
  let d := gDist f.seq s.guest.e
  if d = 0 then (true, onGuest (fun g => { g with e := (g.e + 1) % 4096, gap := false, ackDue := true }) s)
  else if d < 0x800 then
    (false, if s.guest.gap then s else sendLink (onGuest (fun g => { g with gap := true, nakNext := true }) s))
  else (false, sendLink s)

/-- A module is down (R68). -/
def moduleDown (m : Nat) (s : State) : State :=
  let f := if m = 0 then R.GST_STA.MOD0_UP else R.GST_STA.MOD1_UP
  if !flagF s f then s
  else
    let s := raise E.GUEST.MODULE_LOST (setB s f false)
    if flagF s R.GST_STA.MOD0_UP || flagF s R.GST_STA.MOD1_UP then s else setB s R.GST_STA.LINK_UP false

/-- A guest module goes down at training or in service (R68). -/
def execModuleLost (m : Fin 2) (s : State) : Host.Outcome State Fault Refusal := .next (moduleDown m s)

/-- The oldest held flit has been neither acknowledged nor resent for 1 µs (R71). -/
def execGuestReplayTimeout (s : State) : Host.Outcome State Fault Refusal :=
  .next (if s.guest.held.isEmpty || !guestUp s then s else guestGoback (gOldest s.guest) s)

/-- Both sequence states are reset and the held flits are lost; a lost STRM_IN, or a STRM_OUT that the guest lost,
voids this package's tick (R71; log 22). -/
def guestReset (lostOut : Bool) (s : State) : State :=
  let lost := lostOut || s.guest.held.any fun h => h.1.type == 6
  let s := onGuest (fun g => { g with seq := 0, e := 0, held := [], nakNext := false, gap := false,
                                      ackDue := false, retraining := false }) s
  if lost then takeFault (mkFault 0x39 clVoid uGuest 0 0 0) s else s

/-- The retrain of both modules ends (R71): a module whose retrain fails is down (R68). -/
def retrainGuest (m0 m1 lostOut : Bool) (s : State) : State :=
  let s := guestReset lostOut s
  let s := if m0 then s else moduleDown 0 s
  let s := if m1 then s else moduleDown 1 s
  sendWaiting s.guest.wait s

/-- A retrain ends that this package's fifth send of a flit, or the guest's, asked for (R71). -/
def execGuestRetrain (m0 m1 byGuest lostOut : Bool) (s : State) : Host.Outcome State Fault Refusal :=
  .next (if flagF s R.GST_STA.LINK_UP && (s.guest.retraining || byGuest) then retrainGuest m0 m1 lostOut s else s)

/-- A LINK flit is due (R71): while a gap stands and nothing has come in since the last one, it repeats the NAK (R256). -/
def execGuestAckTimer (s : State) : Host.Outcome State Fault Refusal :=
  .next <|
    if !guestUp s then s
    else sendLink (onGuest (fun g => { g with nakNext := g.nakNext || (g.gap && !g.ackDue) }) s)

end Sys2Proof.Machine
end

