-- ==== Sys2Proof/Machine/Mv.lean ====
section
/-! DEFINITION. The matrix-vector unit: MVM and MVD (R154, R155, R163). -/

namespace Sys2Proof.Machine

def mvKey (row col : Nat) : Nat := 256 * row + col

/-- Byte address of the A tile of K-tile i, and of the B tile of K-tile i and N-tile j (R163). -/
def mvmATile (w x t : Nat) : Nat := 64 * (fMvmA w + t * fMvmAk x)
def mvmBTile (x t j : Nat) : Nat := 64 * (fMvmB x + t * fMvmBk x + j * fMvmBn x)

/-- Load the activation register: rows 0 to M − 1 of every K-tile (R154 phase 1). -/
def mvLoad (rd : Nat → Byte) (d w x : Nat) (c : Core) : Core :=
  let cells := (List.range (fMvmM w + 1)).flatMap fun r =>
    (List.range (fMvmNkt w + 1)).flatMap fun t => (List.range 32).map fun k => (r, t, k)
  let c := cells.foldl (fun c e =>
    let (r, t, k) := e
    let key := 2048 * r + 32 * t + k
    { c with mvElems := smSet 0 c.mvElems key (elemAt rd d (mvmATile w x t) r k),
             mvScales := smSet 0 c.mvScales key
               (if dBlock d = 0 then 0 else scaleAt rd d (mvmATile w x t) r k) }) c
  { c with mvRows := fMvmM w + 1, mvTiles := fMvmNkt w + 1, mvDesc := d }

/-- The 32 activations of row r, K-tile t. -/
def mvA (c : Core) (r t : Nat) : List Val :=
  (List.range 32).map fun k =>
    decodeScaled c.mvDesc (smGet 0 c.mvScales (2048 * r + 32 * t + k)) (smGet 0 c.mvElems (2048 * r + 32 * t + k))

/-- The 32 weights of column n, K-tile t. -/
def mvB (rd : Nat → Byte) (d x t n : Nat) : List Val :=
  (List.range 32).map fun k => tileVal rd d (mvmBTile x t (n / 32)) (n % 32) k

/-- Columns per chunk (R154). -/
def mvChunkCols (da db : Nat) : Nat := if elemWidth da = 16 ∨ elemWidth db = 16 then 1 else 2

/-- Cycles of the activation phase. -/
def mvActCycles (da w : Nat) : Nat :=
  if fMvmKeep w then 0
  else (fMvmNkt w + 1) * (ceilDiv ((fMvmM w + 1) * lineBytes da) 64 + (if dBlock da = 0 then 0 else 1))

/-- Cycles of one K-tile of the weight phase. -/
def mvTileCycles (da db w : Nat) : Nat :=
  (if dBlock db = 0 then 0 else 1) + ceilDiv (fMvmN w + 1) (mvChunkCols da db) * (fMvmM w + 1)

/-- Cycle of the last use of a column's chunk for a row. -/
def mvLastUse (cyc da db w r n : Nat) : Nat :=
  cyc + mvActCycles da w + fMvmNkt w * mvTileCycles da db w + (if dBlock db = 0 then 0 else 1) +
  n / mvChunkCols da db * (fMvmM w + 1) + r

/-- Cycle of a column's first use, for row r (R154). -/
def mvFirstUse (cyc da db w r n : Nat) : Nat :=
  cyc + mvActCycles da w + (if dBlock db = 0 then 0 else 1) + n / mvChunkCols da db * (fMvmM w + 1) + r

/-- Does the group of row r, column n and K-tile t enter as a bubble: an access of its weights or of its activations was
lost, or its line is pending (Table 5.5)? -/
def mvBubble (lost : List Nat) (da db w x r n t : Nat) : Bool :=
  (List.range 32).any fun k =>
    elemLost lost db (mvmBTile x t (n / 32)) (n % 32) k || (!fMvmKeep w && elemLost lost da (mvmATile w x t) r k)

/-- One row and column of an MVM (R154, R128, R130). -/
def mvElem (rd : Nat → Byte) (lost : List Nat) (c0 : Core) (da db cyc w x : Nat) (c : Core) (r n : Nat) : Core :=
  let k := mvKey r ((fMvmCol0 w + n) % 256)
  let int := intPath da db
  let a0 : Word × Bool := if fMvmStart w then (0#32, false) else (smGet 0#32 c.mvAcc k, smGet false c.mvOvf k)
  let ts := (List.range (fMvmNkt w + 1)).filter fun t => !mvBubble lost da db w x r n t
  let a1 := mmaElem int (ts.map fun t => mvA c0 r t) (ts.map fun t => mvB rd db x t n) a0
  { c with mvAcc := smSet 0#32 c.mvAcc k a1.1, mvOvf := smSet false c.mvOvf k a1.2,
           mvInt := smSet false c.mvInt k int,
           mvReady := smSet 0 c.mvReady k (mvLastUse cyc da db w r n + 8) }

/-- MVM. -/
def mvmEff (i : Issue) (w x : Nat) (s : State) : State :=
  let c := getCore s i.core.lcid
  let da := if fMvmKeep w then c.mvDesc else issueDesc i s (fMvmAD w)
  let db := issueDesc i s (fMvmBD w)
  let rows := List.range (fMvmM w + 1)
  let cols := List.range (fMvmN w + 1)
  let early := rows.any fun r => cols.any fun n =>
    decide (smGet 0 c.mvRead (mvKey r ((fMvmCol0 w + n) % 256)) > mvFirstUse i.cyc da db w r n)
  let keepBad := fMvmKeep w && (decide (c.mvRows < fMvmM w + 1) || decide (c.mvTiles < fMvmNkt w + 1))
  if early || keepBad then arrayHazard i s
  else
    orStall i w x i.cyc (fun s =>
      let lost := feederLost s i.acc
      let rd := lsView s c lost
      let hold := mvActCycles da w + (fMvmNkt w + 1) * mvTileCycles da db w
      let beyond := (List.range (fMvmNkt w + 1)).any fun t => (!fMvmKeep w && tileOver da (mvmATile w x t)) ||
        cols.any fun n => tileOver db (mvmBTile x t (n / 32))
      usedFree (if beyond then [0] else lost) <|
      completes i w (i.cyc + hold - 1 + 7) <| holdFor i hold <| onCore i (fun c =>
        let c := if fMvmKeep w then c else mvLoad rd da w x c
        let c0 := c
        rows.foldl (fun c r => cols.foldl (fun c n => mvElem rd lost c0 da db i.cyc w x c r n) c) c) s) s

/-- MVM (R154). -/
def execMvm (i : Issue) (s : State) : Host.Outcome State Fault Refusal :=
  .next (issueOp i opMvm (mvmEff i) s)

/-- Place of value c of an MVD as a bit address in the local store (R163). -/
def mvdBit (d w : Nat) : Nat := 512 * fMvdO w + fMvdOpos w * elemWidth d

/-- The draw of value c (R135). -/
def mvdDraw (s : State) (i : Issue) (w c : Nat) : Nat :=
  srDraw (jobSeed s) (fMvdOpos w + c) (fMvdSrt w) i.core.lcid (trainStep s)

/-- MVD. Values are converted under R132 without a drain scale; the write covers whole 8-byte words
(log 15); a block-scaled output's trailer follows the tile at OLINE. -/
def mvdEff (veToo : Bool) (i : Issue) (w x : Nat) (s : State) : State :=
  let c := getCore s i.core.lcid
  let d := issueDesc i s (fMvdD w)
  let n := fMvdCnt w + 1
  let keyOf := fun k => mvKey (fMvdRow w) ((fMvdCol0 w + k) % 256)
  let readAt := fun k => i.cyc + 1 + k / 16
  let idx := List.range n
  if idx.any fun k => decide (readAt k < smGet 0 c.mvReady (keyOf k)) then arrayHazard i s
  else
    orStall i w x i.cyc (fun s =>
      let lost := lostLines i.acc
      let vals := idx.map fun k => (smGet 0#32 c.mvAcc (keyOf k), smGet false c.mvInt (keyOf k))
      let fp := vals.map fun e => drainVal e.2 none e.1
      let draws := idx.map fun k => if dRnd d = 2 then mvdDraw s i w k else 0
      let b := min (blockSize d) 32
      let blkOf := fun k => (fMvdOpos w + k) / b
      let blocks := (idx.map blkOf).dedup.map fun j =>
        let mine := idx.filter fun k => blkOf k == j
        (j, mine, quantBlock d (mine.map fun k => draws.getD k 0) (mine.map fun k => val32 (fp.getD k 0#32)))
      let els :=
        if dElem d = 10 then vals.map fun e => e.1.toNat
        else if dBlock d = 0 then List.zipWith (fun r v => convElem d r v) draws fp
        else blocks.flatMap fun e => e.2.2.2
      let sats := idx.filterMap fun k =>
        if smGet false c.mvOvf (keyOf k) then some (coreFault s i.core.lcid 0x1B clLogged i.cyc (2 * 2 ^ 8 + fMvdRow w))
        else none
      let bit := mvdBit d w
      let (a, bs) := wordMasked (bit / 8) (packBits (bit % 8) (elemWidth d) els)
      let s := if veToo then arrayHazard i s else s
      let s := takeFaults (sats.take 1) s
      completes i w (readAt (n - 1) + 3 + (if dBlock d = 0 then 0 else 1)) <| onCore i (fun c =>
        let c := lsWrite lost c a bs
        let c := if dBlock d = 0 then c
                 else lsWrite lost c (64 * fMvdO w + 128 * elemWidth d)
                   (trailerBytes (blocks.map fun e =>
                     (scaleIndex d ((fMvdOpos w + e.2.1.headD 0) / 32 % 32) ((fMvdOpos w + e.2.1.headD 0) % 32), e.2.2.1)))
        idx.foldl (fun c k => { c with mvRead := smUpd 0 c.mvRead (keyOf k) (max (readAt k)) }) c) s) s

/-- MVD (R155). -/
def execMvd (i : Issue) (veToo : Bool) (s : State) : Host.Outcome State Fault Refusal :=
  .next (issueOp i opMvd (mvdEff veToo i) s)

end Sys2Proof.Machine
end

