-- ==== Sys2Proof/Machine/Special.lean ====
section
/-! DEFINITION. The special functions (R137, Table 4.8). Each is computed as an enclosure of the
exact value in fixed point with 320 fraction bits; when both ends of the enclosure round to one
FP32 value, that is the correctly rounded result. Exact cases are taken apart first. An enclosure
whose ends round apart leaves the result open (log 11); its width is below 2⁻²⁰⁰ of the value. -/

namespace Sys2Proof.Machine

/-- Fraction bits of the enclosures. -/
def fxBits : Nat := 320

/-- 1.0 in fixed point. -/
def fxOne : Nat := 2 ^ fxBits

/-- Width added on each side of a computed value, far above the sum of its truncations. -/
def fxSlack : Nat := 2 ^ 96

/-- Σ zᵏ⁺¹ terms of atanh: z, then each power times z², over 1, 3, 5 … (z in fixed point). -/
def atanhSum (z2 : Nat) : Nat → Nat → Nat → Nat → Nat
  | 0, _, _, acc => acc
  | n + 1, p, k, acc => atanhSum z2 n (p * z2 / fxOne) (k + 2) (acc + p / k)

/-- atanh(a / b) for 0 ≤ a / b ≤ 1/3. -/
def fxAtanh (a b : Nat) : Nat :=
  let z := a * fxOne / b
  atanhSum (z * z / fxOne) 120 z 1 0

/-- ln 2 = 2 atanh(1/3). -/
def fxLn2 : Nat := 2 * fxAtanh 1 3

/-- Taylor sum of exp: term, next index. -/
def expSum (y : Nat) : Nat → Nat → Nat → Nat → Nat
  | 0, _, _, acc => acc
  | n + 1, t, k, acc => expSum y n (t * y / fxOne / k) (k + 1) (acc + t)

/-- exp(y) for 0 ≤ y < 1 in fixed point. -/
def fxExp (y : Nat) : Nat := expSum y 90 fxOne 1 0

/-- Square `n` times. -/
def fxSquare : Nat → Nat → Nat
  | 0, x => x
  | n + 1, x => fxSquare n (x * x / fxOne)

/-- The two ends of an enclosure, as values times 2^e; the result both round to, else open. -/
def fxDecide (fn : Nat) (x : Word) (neg : Bool) (lo hi : Nat) (e : Int) : Word :=
  let a := round32 (.fin neg lo e)
  let b := round32 (.fin neg hi e)
  if a = b then a else Config.openFn fn x 0#32

def nan32 : Word := BitVec.ofNat 32 (fmtNan fmtFP32)

/-- exp2 (Table 4.8). -/
def vsfExp2 (x : Word) : Word :=
  match val32 x with
  | .nan => nan32
  | .inf s => if s then 0#32 else 0x7F800000#32
  | .fin s m e =>
    if m = 0 then 0x3F800000#32
    else if !s && decide (8 ≤ e + (bitLen m : Int)) then 0x7F800000#32   -- x ≥ 128
    else if 9 ≤ e + (bitLen m : Int) then 0#32                            -- x ≤ −256
    else
      let x' : Int := if s then -(m : Int) else m
      if 0 ≤ e then round32 (.fin false 1 (x' * 2 ^ e.toNat))
      else
        let q := (-e).toNat
        let n := x' / (2 ^ q : Nat)
        let f := (x' % (2 ^ q : Nat)).toNat
        if f = 0 then round32 (.fin false 1 n)
        else
          let v := fxExp (f * fxLn2 / 2 ^ q)
          fxDecide 0 x false (v - fxSlack) (v + fxSlack) (n - fxBits)

/-- log2 (Table 4.8). -/
def vsfLog2 (x : Word) : Word :=
  match val32 x with
  | .nan => nan32
  | .inf s => if s then nan32 else 0x7F800000#32
  | .fin s m e =>
    if m = 0 then 0xFF800000#32
    else if s then nan32
    else
      let b := bitLen m - 1
      let n : Int := e + b
      if m = 2 ^ b then round32 (.fin (decide (n < 0)) n.natAbs 0)
      else
        let l := 2 * fxAtanh (m - 2 ^ b) (m + 2 ^ b) * fxOne / fxLn2
        let v : Int := n * (fxOne : Nat) + (l : Nat)
        let lo := v - (fxSlack : Nat)
        let hi := v + (fxSlack : Nat)
        let a := round32 (.fin (decide (lo < 0)) lo.natAbs (-(fxBits : Int)))
        let c := round32 (.fin (decide (hi < 0)) hi.natAbs (-(fxBits : Int)))
        if a = c then a else Config.openFn 1 x 0#32

/-- Reciprocal. -/
def vsfRecip (x : Word) : Word := round32 (divVal (.fin false 1 0) (val32 x))

/-- Reciprocal square root: the root of 2^256 / m with its last bit 1 when the exact value lies beyond. -/
def vsfRsqrt (x : Word) : Word :=
  match val32 x with
  | .nan => nan32
  | .inf s => if s then nan32 else 0#32
  | .fin s m e =>
    if m = 0 then (if s then 0xFF800000#32 else 0x7F800000#32)
    else if s then nan32
    else
      let m' := if e % 2 = 0 then m else 2 * m
      let e' := if e % 2 = 0 then e else e - 1
      let q := Nat.sqrt (2 ^ 256 / m')
      let sticky := if q * q * m' = 2 ^ 256 then 0 else 1
      round32 (.fin false (2 * q + sticky) (-129 - e' / 2))

/-- tanh: (E − 1) / (E + 1) with E = exp(2|x|). Below 2⁻¹³ the exact value lies within a quarter
unit of x; from 16 on within a quarter unit of 1. -/
def vsfTanh (x : Word) : Word :=
  match val32 x with
  | .nan => nan32
  | .inf s => if s then 0xBF800000#32 else 0x3F800000#32
  | .fin s m e =>
    if m = 0 then x
    else if e + (bitLen m : Int) ≤ -13 then x
    else if 5 ≤ e + (bitLen m : Int) then (if s then 0xBF800000#32 else 0x3F800000#32)
    else
      let y := (m * 2 ^ (fxBits + 40)) / 2 ^ (40 - 1 + 6 - e).toNat   -- 2|x| / 64
      let ee := fxSquare 6 (fxExp y)
      let lo := ((ee - fxSlack - fxOne) * fxOne) / (ee - fxSlack + fxOne)
      let hi := ((ee + fxSlack - fxOne) * fxOne) / (ee + fxSlack + fxOne) + 1
      fxDecide 4 x s lo hi (-(fxBits : Int))

/-- atan(1/k) by its alternating series. -/
def atanSum (k2 : Nat) : Nat → Nat → Nat → Bool → Int → Int
  | 0, _, _, _, acc => acc
  | n + 1, p, d, sub, acc =>
    atanSum k2 n (p / k2) (d + 2) (!sub) (if sub then acc - (p / d : Nat) else acc + (p / d : Nat))

/-- π by Machin's formula. -/
def fxPi : Nat :=
  (16 * atanSum 25 80 (fxOne / 5) 1 false 0 - 4 * atanSum 57121 40 (fxOne / 239) 1 false 0).toNat

/-- 2 / √π. -/
def fxTwoOverSqrtPi : Nat := 2 * fxOne * fxOne / Nat.sqrt (fxPi * fxOne)

/-- Σ (−x²)ⁿ / (n! (2n + 1)): the term xⁿ/n!, its index. -/
def erfSum (x2 : Nat) : Nat → Nat → Nat → Bool → Int → Int
  | 0, _, _, _, acc => acc
  | k + 1, t, n, sub, acc =>
    let u : Int := (t / (2 * n + 1) : Nat)
    erfSum x2 k (t * x2 / fxOne / (n + 1)) (n + 1) (!sub) (if sub then acc - u else acc + u)

/-- erf; from 4 on the exact value lies within a quarter unit of 1. -/
def vsfErf (x : Word) : Word :=
  match val32 x with
  | .nan => nan32
  | .inf s => if s then 0xBF800000#32 else 0x3F800000#32
  | .fin s m e =>
    if m = 0 then x
    else if 3 ≤ e + (bitLen m : Int) then (if s then 0xBF800000#32 else 0x3F800000#32)
    else
      let x2 := if 0 ≤ 2 * e then m * m * 2 ^ (2 * e).toNat * fxOne
                else m * m * fxOne / 2 ^ (-(2 * e)).toNat
      let sm := (erfSum x2 260 fxOne 0 false 0).toNat
      let v := sm * fxTwoOverSqrtPi / fxOne
      fxDecide 5 x s ((v - fxSlack) * m) ((v + fxSlack) * m) (e - fxBits)

/-- VSF by function code (Table 6.5); an unlisted code leaves its value open (log 11). -/
def vsf (fn : Nat) (x : Word) : Word :=
  match fn with
  | 0 => vsfExp2 x
  | 1 => vsfLog2 x
  | 2 => vsfRecip x
  | 3 => vsfRsqrt x
  | 4 => vsfTanh x
  | 5 => vsfErf x
  | _ => Config.openFn fn x 1#32

end Sys2Proof.Machine
end

