-- ==== Sys2Proof/Machine/Vector.lean ====
section
/-! DEFINITION. The vector unit: VOP, VSF, VRED, VQNT, VRNG, VCVT, VSEL (R136 to R138, R156, R164, R230). -/

namespace Sys2Proof.Machine

/-- Lane l of vector register r, 64 bytes each (R156). -/
def vLane (c : Core) (r l : Nat) : Word := smGet 0#32 c.vreg (16 * (r % 32) + l)

def setLane (c : Core) (r l : Nat) (v : Word) : Core :=
  { c with vreg := smSet 0#32 c.vreg (16 * (r % 32) + l) v }

/-- Element i of the streamed input, `w` bits wide (R164). -/
def vIn (rd : Nat → Byte) (c : Core) (w0 wIn i : Nat) : Nat :=
  if fVSr w0 then (vLane c (fVSrc w0 % 32 + i / 16) (i % 16)).toNat % 2 ^ wIn
  else bitsAt rd (512 * fVSrc w0 + i * wIn) wIn

/-- FP32 element i of the input. -/
def vInF (rd : Nat → Byte) (c : Core) (w0 i : Nat) : Word := BitVec.ofNat 32 (vIn rd c w0 32 i)

/-- The second and third operand of element i (R164). -/
def vB (c : Core) (x i : Nat) : Word := vLane c (fVRb x + i / 16 % (fVRn x + 1)) (i % 16)
def vC (c : Core) (x i : Nat) : Word := vLane c (fVRc x + i / 16 % (fVRn x + 1)) (i % 16)

/-- Store results `w` bits wide from a place: registers when DR = 1, else lines (R164). -/
def vOut (lost : List Nat) (w0 wOut dst : Nat) (els : List Nat) (c : Core) : Core :=
  if fVDr w0 then
    (els.zipIdx).foldl (fun c e => setLane c (dst % 32 + e.2 / 16) (e.2 % 16) (BitVec.ofNat 32 e.1)) c
  else lsWrite lost c (64 * dst) (packElems wOut els)

/-- Hold and completion of a vector instruction: ⌈n / rate⌉ cycles, the last result `lat` cycles
after its input (Table 5.7). -/
def vTime (i : Issue) (w n rate lat : Nat) (s : State) : State :=
  let h := ceilDiv n rate
  completes i w (i.cyc + h - 1 + lat) (holdFor i h s)

/-- What every vector instruction shares: `f` maps the core and the view of the local store to the new core. -/
def vecOp (i : Issue) (w x rate lat : Nat) (f : (Nat → Byte) → List Nat → Core → Core) (s : State) : State :=
  orStall i w x i.cyc (fun s =>
    let lost := lostLines i.acc
    let rd := lsView s (getCore s i.core.lcid) lost
    usedFree lost <| vTime i w (fVCnt w + 1) rate lat <| onCore i (f rd lost) s) s

/-- Elements 0 to CNT. -/
def vIdx (w : Nat) : List Nat := List.range (fVCnt w + 1)

/-- VOP by function (Table 6.5); an unlisted code leaves its values open (log 11). FN 5 moves x and keeps the bits of a
NaN, where R120 has every NaN that the device produces canonical: a move produces none (DESIGN CHOICE, log 122). -/
def vopFn (fn : Nat) (x b c : Word) : Word :=
  match fn with
  | 0 => add32 x b
  | 1 => mul32 x b
  | 2 => fma32 x b c
  | 3 => max32 x b
  | 4 => min32 x b
  | 5 => x
  | _ => Config.openFn (0x100 + fn) x b

/-- VOP. -/
def vopEff (i : Issue) (w x : Nat) (s : State) : State :=
  vecOp i w x 16 4 (fun rd lost c =>
    vOut lost w 32 (fVDst w)
      ((vIdx w).map fun k => (vopFn (fVFn w) (vInF rd c w k) (vB c x k) (vC c x k)).toNat) c) s

/-- VOP (R136). -/
def execVop (i : Issue) (s : State) : Host.Outcome State Fault Refusal :=
  .next (issueOp i opVop (vopEff i) s)

/-- VSF. -/
def vsfEff (i : Issue) (w x : Nat) (s : State) : State :=
  vecOp i w x (if fVFn w = 4 ∨ fVFn w = 5 then 8 else 16) (if fVFn w = 4 ∨ fVFn w = 5 then 14 else 10)
    (fun rd lost c =>
      vOut lost w 32 (fVDst w) ((vIdx w).map fun k => (vsf (fVFn w) (vInF rd c w k)).toNat) c) s

/-- VSF (R137). -/
def execVsf (i : Issue) (s : State) : Host.Outcome State Fault Refusal :=
  .next (issueOp i opVsf (vsfEff i) s)

/-- VRED by function; an unlisted code leaves its value open (log 11). -/
def vredFn (fn : Nat) (xs : List Word) : Word :=
  match fn with
  | 0 => reduceRow add32 0x80000000#32 xs
  | 1 => reduceRow max32 0xFF800000#32 xs
  | 2 => reduceRow min32 0x7F800000#32 xs
  | _ => Config.openFn (0x200 + fn) (xs.headD 0#32) 0#32

/-- VRED: one FP32 at position IMM[3:0] of the DST line, or lane of the DST register. -/
def vredEff (i : Issue) (w x : Nat) (s : State) : State :=
  vecOp i w x 16 6 (fun rd lost c =>
    let r := vredFn (fVFn w) ((vIdx w).map fun k => vInF rd c w k)
    let pos := fVImm x % 16
    if fVDr w then setLane c (fVDst w % 32) pos r
    else lsWrite lost c (64 * fVDst w + 4 * pos) (leBytes 4 r.toNat)) s

/-- VRED (R138). -/
def execVred (i : Issue) (s : State) : Host.Outcome State Fault Refusal :=
  .next (issueOp i opVred (vredEff i) s)

/-- The draw of element k of a VQNT or VCVT (R135). -/
def vDraw (s : State) (i : Issue) (srt k : Nat) : Nat :=
  srDraw (jobSeed s) (k % 1024) (srt + k / 1024) i.core.lcid (trainStep s)

/-- Place of element k in the tiles of a VQNT: K-tile, line, position (R164). -/
def vqntPlace (t k : Nat) : Nat × Nat × Nat := (k / 32 % t, k / (32 * t), k % 32)

/-- VQNT: blocks of consecutive elements; each K-tile gets its lines and its trailer (R134, R164, R127); an output without
blocks is converted under R133 (R132). Of more than 32 lines in a K-tile, which R164 does not shut out, the one trailer
keeps the first scale of each index (DESIGN CHOICE, log 122). -/
def vqntEff (i : Issue) (w x : Nat) (s : State) : State :=
  let d := issueDescV i s (fVOd x)
  vecOp i w x 16 4 (fun rd lost c =>
    let bs := blockSize d
    let t := max 1 (bs / 32)
    let n := fVCnt w + 1
    let stride := fVImm x % 2 ^ 12
    let srt := fVImm x / 2 ^ 12 % 2 ^ 20
    let nb := ceilDiv n (max 1 bs)
    let blocks := (List.range nb).map fun j =>
      let ks := (List.range bs).map (j * bs + ·) |>.filter fun k => decide (k < n)
      quantBlock d (ks.map fun k => if dRnd d = 2 then vDraw s i srt k else 0) (ks.map fun k => val32 (vInF rd c w k))
    let elem := fun k => ((blocks.getD (k / max 1 bs) (0, [])).2).getD (k % max 1 bs) 0
    if bs = 0 then
      vOut lost w (elemWidth d) (fVDst w)
        ((vIdx w).map fun k => convElem d (if dRnd d = 2 then vDraw s i srt k else 0) (vInF rd c w k)) c
    else if fVDr w then vOut lost w (elemWidth d) (fVDst w) ((vIdx w).map elem) c
    else
      (List.range t).foldl (fun c kt =>
        let base := 64 * (fVDst w + kt * stride)
        let mine := (vIdx w).filter fun k => (vqntPlace t k).1 == kt
        let c := lsWrite lost c base (packElems (elemWidth d) (mine.map elem))
        lsWrite lost c (base + 128 * elemWidth d)
          (trailerBytes (mine.map fun k => (scaleIndex d ((vqntPlace t k).2.1 % 32) (k % 32), (blocks.getD (k / bs) (0, [])).1)))) c) s
where
  issueDescV (i : Issue) (s : State) (d : Nat) : Nat := rdDesc (getCore s i.core.lcid) i.cyc d
  trailerBytes (scs : List (Nat × Nat)) : List Byte :=
    (List.range 64).map fun k =>
      match scs.find? (fun e => e.1 == k) with
      | some e => BitVec.ofNat 8 e.2
      | none => 0#8

/-- VQNT (R134). -/
def execVqnt (i : Issue) (s : State) : Host.Outcome State Fault Refusal :=
  .next (issueOp i opVqnt (vqntEff i) s)

/-- Generator word of element e (R230). -/
def vrngWord (s : State) (lcid x e : Nat) : Nat :=
  philoxWord (jobSeed s) (e % 1024 / 4) (fRngTile x + e / 1024) (fRngKind x * 2 ^ 16 + lcid) (trainStep s) (e % 4)

/-- VRNG: FN 0 words, FN 1 a keep mask (R230). -/
def vrngEff (i : Issue) (w x : Nat) (s : State) : State :=
  let words := (vIdx w).map fun e => vrngWord s i.core.lcid x e
  vecOp i w x 4 12 (fun _ lost c =>
    match fVFn w with
    | 0 => vOut lost w 32 (fVDst w) words c
    | 1 =>
      let bits := words.map fun v => if fRngThr x ≤ v then 1 else 0
      let lanes := (List.range (ceilDiv bits.length 32)).map fun l =>
        ((bits.drop (32 * l)).take 32).foldr (fun b a => 2 * a + b) 0
      if fVDr w then vOut lost w 32 (fVDst w) lanes c
      else lsWrite lost c (64 * fVDst w) ((leBytes (4 * lanes.length) (lanes.foldr (fun v a => a * 2 ^ 32 + v) 0)).take
        (ceilDiv bits.length 8))
    | fn => vOut lost w 32 (fVDst w) (words.map fun v => (Config.openFn (0x400 + fn) (BitVec.ofNat 32 v) 0#32).toNat) c) s

/-- VRNG (R230). -/
def execVrng (i : Issue) (s : State) : Host.Outcome State Fault Refusal :=
  .next (issueOp i opVrng (vrngEff i) s)

/-- VCVT: conversion between formats through FP32 (R133), or the BF16 split (R131). An output descriptor with BLOCK ≠ 0 or
INT32, which Tables 6.5 and 4.1 shut out, leaves the elements open (logs 10 and 122). -/
def vcvtEff (i : Issue) (w x : Nat) (s : State) : State :=
  let core := getCore s i.core.lcid
  let sd := rdDesc core i.cyc (fVId x)
  let td := rdDesc core i.cyc (fVOd x)
  vecOp i w x 16 4 (fun rd lost c =>
    match fVFn w with
    | 0 =>
      let wi := elemWidth sd
      let vin := fun k =>
        let sc := if dBlock sd = 0 ∨ fVSr w then 0x7F
                  else scaleAt rd sd (64 * fVSrc w + k / 1024 * 128 * wi) (k / 32 % 32) (k % 32)
        round32 (decodeScaled sd sc (vIn rd c w wi k))
      vOut lost w (elemWidth td) (fVDst w)
        ((vIdx w).map fun k => convElem td (if dRnd td = 2 then vDraw s i (fVImm x) k else 0) (vin k)) c
    | 1 =>
      let c := vOut lost w 16 (fVDst w) ((vIdx w).map fun k => splitHi (vInF rd core w k)) c
      vOut lost w 16 (fVDst w + fVImm x % 2 ^ 12) ((vIdx w).map fun k => splitLo (vInF rd core w k)) c
    | fn => vOut lost w (elemWidth td) (fVDst w)
        ((vIdx w).map fun k => (Config.openFn (0x500 + fn) (vInF rd c w k) 0#32).toNat) c) s

/-- VCVT (R133). -/
def execVcvt (i : Issue) (s : State) : Host.Outcome State Fault Refusal :=
  .next (issueOp i opVcvt (vcvtEff i) s)

/-- Mask bit of element k: bit (k mod 512) of register RC + ⌊k / 512⌋ (Table 6.5). -/
def vMask (c : Core) (x k : Nat) : Bool :=
  (vLane c (fVRc x + k / 512) (k % 512 / 32)).toNat / 2 ^ (k % 32) % 2 == 1

/-- VSEL; an unlisted code leaves its values open (log 11). A NaN it selects keeps its bits (DESIGN CHOICE, log 122). -/
def vselEff (i : Issue) (w x : Nat) (s : State) : State :=
  vecOp i w x 16 2 (fun rd lost c =>
    vOut lost w 32 (fVDst w)
      ((vIdx w).map fun k =>
        if fVFn w = 0 then (if vMask c x k then (vInF rd c w k).toNat else (vB c x k).toNat)
        else (Config.openFn (0x600 + fVFn w) (vInF rd c w k) (vB c x k)).toNat) c) s

/-- VSEL (R164). -/
def execVsel (i : Issue) (s : State) : Host.Outcome State Fault Refusal :=
  .next (issueOp i opVsel (vselEff i) s)

end Sys2Proof.Machine
end

