-- ==== Sys2Proof/Machine/Transfer.lean ====
section
/-! DEFINITION. The transfer opcodes that use memory, the mesh and the Doorway: MRD, MWR, SEND, PAN,
ILD, CSAV, CRST, and the arrivals, posts, deadlock and gating of a core (R100 to R114, R165 to R169,
R194, R223, R333, R430, R431). -/

namespace Sys2Proof.Machine

/-! ### Ownership of cores (R371, R373) -/

/-- A partition's resources as of the last enable: dies, rows, columns, LAND, EN, FILLER, BANKS; before
any enable, the First power-on values. -/
def partVals (s : State) (n : Nat) : List Nat :=
  match smFind s.hif.partAt n with
  | some l => l
  | none => if n = 0 then [0xF, 0, 79, 0, 79, 0, 1, 0, 0] else [0, 0, 0, 0, 0, 0, 0, 0, 0]

def partVal (s : State) (n i : Nat) : Nat := (partVals s n).getD i 0

/-- Is the partition a filler (R380)? -/
def isFiller (s : State) (n : Nat) : Bool := n != 0 && partVal s n 6 == 1 && partVal s n 7 == 1

/-- Partition whose rectangle a partition's plan runs in: a filler runs in the primary's (R380). -/
def rectPart (s : State) (n : Nat) : Nat := if isFiller s n then 0 else n

/-- Does the LCID name a core (R62)? -/
def lcidOk (l : Nat) : Bool := decide (l < 2 ^ 16) && decide (l / 2 ^ 7 % 128 < 80) && decide (l % 128 < 80)

/-- Does the core lie in the partition's rectangle (R371)? -/
def inRect (s : State) (n l : Nat) : Bool :=
  let p := rectPart s n
  lcidOk l && bitsOf (partVal s p 0) (l / 2 ^ 14) 1 == 1 && (p == 0 || partVal s p 6 == 1) &&
  decide (partVal s p 1 ≤ l / 2 ^ 7 % 128) && decide (l / 2 ^ 7 % 128 ≤ partVal s p 2) &&
  decide (partVal s p 3 ≤ l % 128) && decide (l % 128 ≤ partVal s p 4)

/-- Banks of a core's slice (R371): a filler's BANKS, the rest for the primary, all for others. -/
def sliceMask (s : State) (n : Nat) : Nat :=
  if isFiller s n then partVal s n 8
  else if n = 0 then
    ([1, 2, 3].filter fun q => isFiller s q).foldl (fun m q => m - (m &&& partVal s q 8)) 255
  else 255

/-! ### Addresses (R190, R210) -/

/-- Does a span of memory lie where memory exists: stacks 0 to 11, channels that are not mapped out? -/
def spanOk (s : State) (pa bytes : Nat) : Bool :=
  decide (pa + bytes ≤ memTop) &&
  bitsOf (getF s (R.STK_MAPOUT.MAPPED (pa / 2 ^ 36))) (pa / 2 ^ 31 % 32) 1 == 0

/-- Would the row issue its instruction: the engine may issue and its next word is that opcode, legal, with no parity error? -/
def willIssue (i : Issue) (op : Nat) (s : State) : Bool :=
  let c := getCore s i.core.lcid
  let g := getEng c i.eng.no
  canIssue s i && decide (g.idx + (if twoWord op then 1 else 0) < listLen c) && !i.parity &&
  wordLegal c i.eng (fetchWord c g.idx) && wOp (fetchWord c g.idx) == op

/-- Issue a transfer that names memory; `span` gives the address and bytes. An address that names no
memory is a fault (R190): the spec gives the transfer no effect. -/
def issueMem (i : Issue) (op : Nat) (span : Nat → Nat → Nat × Nat) (eff : Nat → Nat → State → State) (s : State) :
    Host.Outcome State Fault Refusal :=
  let c := getCore s i.core.lcid
  let g := getEng c i.eng.no
  let sp := span (fetchWord c g.idx) (fetchWord c (g.idx + 1))
  if willIssue i op s && !spanOk s sp.1 sp.2 then .fault (.noMemory sp.1)
  else .next (issueOp i op eff s)

/-! ### Beats read through the ST port (R430, R431) -/

/-- Lines whose beat was discarded in an edge slot (R431). -/
def edgeLines (acc : List LsAcc) : List Nat :=
  acc.filterMap fun a => match a.kind with | .edge _ => some a.line | _ => none

/-- The bytes of `n` lines from a line as an outbound transfer carries them: a read that was not served
is 64 zero bytes (R430); what reaches its end of a beat discarded on the edge is free (log 13). -/
def outBytes (s : State) (i : Issue) (line n : Nat) : List Byte :=
  let c := getCore s i.core.lcid
  let lost := lostLines i.acc
  (List.range n).flatMap fun k =>
    if lost.contains (line + k) then List.replicate 64 0#8
    else (List.range 64).map fun b => lsView s c (edgeLines i.acc) (64 * (line + k) + b)

/-- The accesses of an outbound transfer whose beats take slots of a role on the sending edge: an edge slot that the role
does not offer loses no beat (R431). -/
def onEdge (role : Option Nat) (i : Issue) : Issue :=
  { i with acc := i.acc.filter fun a => match a.kind with | .edge slot => slotOk role slot | _ => true }

/-- The role of a beat from a core to a stack: that of the die pair (R59, R431). -/
def memRole (i : Issue) (pa : Nat) : Option Nat := sendRole i.core.die.val (dieOfStack (pa / 2 ^ 36))

/-- What every outbound transfer does: its engine is held one cycle a beat, it completes when its last
beat is read (Table 6.1), and its accesses' faults are taken. -/
def outbound (i : Issue) (w beats : Nat) (s : State) : State :=
  usedFree (edgeLines i.acc) <| chargeAcc i <| completes i w (i.cyc + beats - 1) (holdFor i beats s)

/-- Is it a transfer whose beats go to the channel (Table 7.2)? -/
def isWrite : RunKind → Bool
  | .write | .csav _ _ | .pan _ _ | .unit _ _ | .copy => true
  | .host _ wr => wr
  | .read | .ild _ | .crst _ _ => false

/-- Cycles of Table 2.4 between a core and memory of a die's stacks: none within the die (R59, R194). -/
def pairLeg (src dst : Nat) : Nat :=
  match sendRole src dst with
  | none => 0
  | some r => if r = 1 then 96 else 72

/-- Cycles from issue until the last of `n` beats is at the channel controller (R194, Table 7.2). -/
def memLeg (i : Issue) (pa n : Nat) : Nat := n - 1 + 24 + pairLeg i.core.die.val (dieOfStack (pa / 2 ^ 36))

/-- First byte time at or after a cycle at the grade's frequency (R192). -/
def btOfCyc (s : State) (cyc : Nat) : Nat := ceilDiv (768 * cyc) (gradeF s)

/-- A run of a core, not yet at its channel (R39, R191). -/
def newRun (s : State) (i : Issue) (kind : RunKind) (pa beats seq : Nat) (data : List Byte) : Run :=
  { kind := kind, pa := pa, beats := beats, tick := tickNum s, seq := seq, core := i.core.lcid, line := 0,
    cnt := 0, sem := 0, bank := 0, hinge := none, data := data, part := corePart (getCore s i.core.lcid),
    retries := 0, arr := btOfCyc s (i.cyc + memLeg i pa (if isWrite kind then beats else 1)) }

def addRun (r : Run) (s : State) : State := { s with transit := s.transit ++ [r] }

/-- The run's data is awaited at the core's Doorway (R104, R105). -/
def await (r : Run) (s : State) : State :=
  updCore s r.core fun c => { c with landing := c.landing ++
    [{ stack := r.pa / 2 ^ 36, tick := r.tick, seq := r.seq, cnt := r.cnt, sem := r.sem, bank := r.bank, landed := false }] }

/-- Source and target descriptors of a Hinge run (R205). -/
def hingeOf (s : State) (i : Issue) (w x : Nat) : Option (Nat × Nat) :=
  if fXHinge w then some (issueDesc i s (fXSd x), issueDesc i s (fXTd x)) else none

/-! ### MRD, MWR -/

def mrdEff (i : Issue) (w x : Nat) (s : State) : State :=
  let r : Run := { newRun s i .read (fXPa x) (fXLen w + 1) (fXSeq w) [] with
                   line := fXLine w, cnt := fXCnt w, sem := fXSem w, bank := fXBank w, hinge := hingeOf s i w x }
  chargeAcc i (completesWith i w (r.pa / 2 ^ 36) r.tick r.seq (await r (addRun r s)))

/-- MRD (R194). -/
def execMrd (i : Issue) (s : State) : Host.Outcome State Fault Refusal :=
  issueMem i opMrd (fun w x => (fXPa x, 64 * (fXLen w + 1))) (mrdEff i) s

def mwrEff (i : Issue) (w x : Nat) (s : State) : State :=
  let i := onEdge (memRole i (fXPa x)) i
  let n := fXLen w + 1
  let r : Run := { newRun s i .write (fXPa x) n (fXSeq w) (outBytes s i (fXLine w) n) with
                   line := fXLine w, hinge := hingeOf s i w x }
  outbound i w n (addRun r s)

/-- MWR (R194). -/
def execMwr (i : Issue) (s : State) : Host.Outcome State Fault Refusal :=
  issueMem i opMwr (fun w x => (fXPa x, 64 * (fXLen w + 1))) (mwrEff i) s

/-! ### SEND -/

/-- Cycles that a distance along one axis takes: express hops of eight, then single hops (R101). -/
def axisHops (a b : Nat) : Nat := (a - b + (b - a)) / 8 + (a - b + (b - a)) % 8

/-- Latency of the first beat between two cores, from the mesh of the one to the local store of the other (R59, R101). -/
def sendLatency (a b : Nat) : Nat :=
  if a / 2 ^ 14 = b / 2 ^ 14 then 4 + axisHops (a % 2 ^ 7) (b % 2 ^ 7) + axisHops (a / 2 ^ 7 % 2 ^ 7) (b / 2 ^ 7 % 2 ^ 7)
  else pairLeg (a / 2 ^ 14) (b / 2 ^ 14)

/-- SEND: a destination outside the sender's rectangle is ILLEGAL_OP, one cycle, no beat, no post (R100). Its first beat
is on the mesh in its issue cycle, so that the last is written `beats − 1` cycles after the latency (R59, R103). -/
def sendEff (i : Issue) (w x : Nat) (s : State) : State :=
  if !inRect s (corePart (getCore s i.core.lcid)) (fSendDst w) then illegalOp i.core.lcid i.cyc s
  else
    let i := onEdge (sendRole i.core.die.val (fSendDst w / 2 ^ 14)) i
    let n := fSendLen x + 1
    let t : Xfer := { src := i.core.lcid, dst := fSendDst w, due := i.cyc + sendLatency i.core.lcid (fSendDst w) + n - 1,
                      gone := (edgeLines i.acc).map fun l => l - fSendSl w, line := fSendDl w, cnt := fSendCnt w,
                      sem := fSendSem w, bank := fSendBank x, data := outBytes s i (fSendSl w) n }
    outbound i w n { s with mesh := s.mesh ++ [t] }

/-- SEND (R101). -/
def execSend (i : Issue) (s : State) : Host.Outcome State Fault Refusal :=
  .next (issueOp i opSend (sendEff i) s)

/-- May a transfer's last beat be written in a cycle? In Fixed mode in its fixed cycle alone; in Boost mode the figure
bounds the arrival, whose cycle is another clock's (R60, R103). -/
def arrivesAt (s : State) (cyc : Nat) (t : Xfer) : Bool := flagF s R.TOP_MODE.BOOST || t.due == cyc

/-- The first transfer on its way to a core that arrives in a cycle, and the rest. -/
def takeXfer (s : State) (dst cyc : Nat) : List Xfer → Option (Xfer × List Xfer)
  | [] => none
  | t :: ts =>
    if t.dst == dst && arrivesAt s cyc t then some (t, ts)
    else match takeXfer s dst cyc ts with
      | some (r, rest) => some (r, t :: rest)
      | none => none

/-- Post an arrival's count (R97, R103); a post to a parked core is ILLEGAL_OP (R111). -/
def doorPost (c cyc bank sem cnt : Nat) (s : State) : State :=
  if cnt = 0 then s
  else if inPark (getCore s c) then illegalOp c cyc s
  else semAdd c cyc (semKey bank sem) cnt s

/-- Beats of an arrival that were not discarded, written line by line. -/
def doorWrite (lostBeats lostL : List Nat) (line : Nat) (data : List Byte) (c : Core) : Core :=
  (List.range (data.length / 64)).foldl
    (fun c b => if lostBeats.contains b then c else lsWrite lostL c (64 * (line + b)) ((data.drop (64 * b)).take 64)) c

/-- Is the place one that a beat passes on its way to a core: any link, and a slot of the role that it takes on the
receiving edge (R102, R431)? -/
def placeOn (role : Option Nat) : LossPlace → Bool
  | .link _ _ => true
  | .edge slot => slotOk role slot

/-- Does a loss befall a beat of the transfer: one that it has, in favour of a lower source (R102)? -/
def beatLost (t : Xfer) (z : BeatLoss) : Bool :=
  decide (z.winner.lcid < t.src) && decide (z.beat < t.data.length / 64) &&
  placeOn (recvRole (t.src / 2 ^ 14) (t.dst / 2 ^ 14)) z.place

/-- SLOT_CONFLICT of a discarded beat: on a link the core whose router holds it records the link and both sources
(their places in DETAIL: log 16); in an edge slot the beat's source core records the slot (R102, R431). -/
def lossFault (s : State) (t : Xfer) (cyc : Nat) (z : BeatLoss) : FaultRec :=
  match z.place with
  | .link router n => coreFault s router.lcid 0x10 clPlan cyc (n % 2 ^ 16 + z.winner.lcid * 2 ^ 16 + t.src * 2 ^ 32)
  | .edge slot => coreFault s t.src 0x10 clPlan cyc slot

/-- The source that a beat of memory-run data or of the Landing comes from, as a link conflict names it: a stack's or a
Hall context's station (R173; log 16). -/
def stackStation (k : Nat) : Nat := 0x3F80 + k
def hallStation : Nat := 0x3FA0

/-- SLOT_CONFLICT of such a beat: as R102 gives on a link; in an edge slot, where no core is its source, the core that it
was for records the slot (R102, R431; log 16). -/
def lineFault (s : State) (dst src cyc : Nat) (z : LineLoss) : FaultRec :=
  match z.place with
  | .link router n => coreFault s router.lcid 0x10 clPlan cyc (n % 2 ^ 16 + z.winner % 2 ^ 16 * 2 ^ 16 + src * 2 ^ 32)
  | .edge slot => coreFault s dst 0x10 clPlan cyc slot

/-- The oldest transfer to a core arrives: DW-IN writes the beats that were not discarded, and the Doorway posts
(R102, R103, R431). An access to a parked core's banks is ILLEGAL_OP, and is not made (R111; log 118). -/
def execDoorwayArrival (c : CoreId) (cyc : Nat) (lost : List BeatLoss) (acc : List LsAcc) (s : State) :
    Host.Outcome State Fault Refusal :=
  .next <|
    match takeXfer s c.lcid cyc s.mesh with
    | none => s
    | some (t, rest) =>
      let s := { s with mesh := rest }
      if inPark (getCore s c.lcid) then illegalOp c.lcid cyc s
      else
        let zs := lost.filter (beatLost t)
        let s := updCore s c.lcid (doorWrite (t.gone ++ zs.map fun z => z.beat) (lostLines acc) t.line t.data)
        let s := takeFaults (zs.map (lossFault s t cyc) ++ accFaults s c.lcid none acc) s
        lapse c.lcid cyc (endInbound c.lcid cyc (doorPost c.lcid cyc t.bank t.sem t.cnt s))

/-- The inbound run that may post: its data is complete and no lower SEQ of its sequence waits (R104). -/
def mayPost (l : List Inbound) (k tick seq : Nat) : Option Inbound :=
  match l.find? fun r => r.stack == k && r.tick == tick && r.seq == seq && r.landed with
  | none => none
  | some r =>
    if l.any fun q => q.stack == k && q.tick == tick && decide (q.seq < seq) then none else some r

/-- A memory run posts (R104); the instruction that issued it completes in this cycle (R83). -/
def execMemoryRunPost (c : CoreId) (k : StackNo) (tick seq cyc : Nat) (s : State) : Host.Outcome State Fault Refusal :=
  .next <|
    let co := getCore s c.lcid
    match mayPost co.landing k.val tick seq with
    | none => s
    | some r =>
      let s := updCore s c.lcid fun co =>
        { co with
          landing := co.landing.filter fun q => !(q.stack == k.val && q.tick == tick && q.seq == seq),
          outst := co.outst.map fun o =>
            if o.run = some (k.val, tick, seq) then { o with due := some cyc, run := none } else o }
      lapse c.lcid cyc (endInbound c.lcid cyc (doorPost c.lcid cyc r.bank r.sem r.cnt s))

/-! ### PAN, ILD, CSAV, CRST -/

def panEff (i : Issue) (w x : Nat) (s : State) : State :=
  let i := onEdge (memRole i (fXPa x)) i
  let n := fPLen w + 1
  outbound i w n
    (addRun (newRun s i (.pan (fPCmd w) (fPTensor x)) (fXPa x) n (fPSeq w) (outBytes s i (fPSl w) n)) s)

/-- PAN (R223). -/
def execPan (i : Issue) (s : State) : Host.Outcome State Fault Refusal :=
  issueMem i opPan (fun w x => (fXPa x, 64 * (fPLen w + 1))) (panEff i) s

/-- Are fetches redirected in the tick: from T − 1 onward, until a stop at U from U − 1 onward (R381)? -/
def redirecting (s : State) : Bool :=
  [1, 2, 3].any fun n => isFiller s n &&
    match smGet none s.secs n with
    | some q => decide (q.start ≤ s.tick.job + 1) && (match q.stop with | some u => decide (s.tick.job + 1 < u) | none => true)
    | none => false

/-- The address that an ILD fetches from (R381). -/
def ildAddr (s : State) (pa : Nat) : Nat := if redirecting s then smGet pa s.redirect pa else pa

/-- ILD: its length is set at the base die from the header (R168); an address in the redirect table
fetches the filler's segment (R381). -/
def ildEff (i : Issue) (w _x : Nat) (s : State) : State :=
  let r : Run := newRun s i (.ild (fIPark w)) (ildAddr s (fIPa w)) 1 (fISeq w) []
  chargeAcc i (completesWith i w (r.pa / 2 ^ 36) r.tick r.seq (await r (addRun r s)))

/-- ILD (R168). -/
def execIld (i : Issue) (s : State) : Host.Outcome State Fault Refusal :=
  issueMem i opIld (fun w _ => (fIPa w, 64)) (ildEff i) s

/-- The words of a store, little-endian, 4 or 8 bytes each. -/
def wordsLE (bytes : Nat) (ws : List Nat) : List Byte := ws.flatMap fun v => leBytes bytes v

/-- The header of the context image (Table 3.5), bytes 0 to 251. -/
def ctxHeader (s : State) (lcid : Nat) (c : Core) : List Byte :=
  let r (n : Nat) : List Byte := List.replicate n 0#8
  [0x4D#8, 0x51#8, 0x43#8, 0x58#8] ++ leBytes 2 lcid ++ leBytes 1 (corePart c) ++
  leBytes 1 (b2n (!c.activeB) + 2 * b2n c.ready + 4 * c.bank) ++ leBytes 4 c.parkTick ++
  leBytes 1 c.savMask ++ r 3 ++
  wordsLE 2 ((List.range 32).map fun k => semVal c (semKey c.bank k)) ++
  wordsLE 2 c.pendEntries ++ r 4 ++ wordsLE 4 ((List.range 16).map fun d => smGet 0 c.desc d) ++
  leBytes 4 (regWord s 0 0x48) ++ leBytes 4 (regWord s 0 0x4C) ++ r 84

/-- The bytes of one part of the image. -/
def ctxPart (s : State) (lcid part bank : Nat) (c : Core) : List Byte :=
  match part with
  | 0 => wordsLE 4 ((smGetList 0#32 c.acc 0 4096).map (·.toNat))
  | 1 => wordsLE 8 (smGetList 0 c.ib 0 3072)
  | 2 => lsRead c (24576 * bank) 24576
  | _ =>
    let h := ctxHeader s lcid c
    h ++ leBytes 4 (crc32Run 0x82F63B78 c.savCrc h ^^^ 0xFFFFFFFF)

def csavEff (i : Issue) (w x : Nat) (s : State) : State :=
  let i := onEdge (memRole i (fXPa x)) i
  let c := getCore s i.core.lcid
  let data := ctxPart s i.core.lcid (fSPart w) (fSBnk w) c
  let n := partBeats (fSPart w)
  let lost := if fSPart w = 2 then lostLines i.acc else []
  let data := if lost.isEmpty then data else outBytes s i (384 * fSBnk w) n
  let s := onCore i (fun c =>
    { c with
      savCrc := crc32Run 0x82F63B78 (if fSPart w = 0 then 0xFFFFFFFF else c.savCrc) data,
      savMask := if fSPart w = 0 then 0 else if fSPart w = 2 then c.savMask ||| 2 ^ fSBnk w else c.savMask }) s
  outbound i w n (addRun (newRun s i (.csav (fSPart w) (fSBnk w)) (fXPa x) n (fSSeq w) data) s)

/-- CSAV (R112, R113). -/
def execCsav (i : Issue) (s : State) : Host.Outcome State Fault Refusal :=
  issueMem i opCsav (fun w x => (fXPa x, 64 * partBeats (fSPart w))) (csavEff i) s

def crstEff (i : Issue) (w x : Nat) (s : State) : State :=
  let r := newRun s i (.crst (fSPart w) (fSBnk w)) (fXPa x) (partBeats (fSPart w)) (fSSeq w) []
  chargeAcc i (completesWith i w (r.pa / 2 ^ 36) r.tick r.seq (await r (addRun r s)))

/-- CRST (R112, R113). -/
def execCrst (i : Issue) (s : State) : Host.Outcome State Fault Refusal :=
  issueMem i opCrst (fun w x => (fXPa x, 64 * partBeats (fSPart w))) (crstEff i) s

/-! ### What a completed run brings to the core -/

/-- Words of a segment's body that a fetch brings: a BODY out of range counts as the largest (R168). -/
def bodyLen (park : Bool) (body : Nat) : Nat :=
  let top := if park then 32 else 1536
  if body = 0 ∨ top < body then top else body

/-- The length of a segment's fetch in bytes, from the header at its address: whole lines of 64 (R168). -/
def segBytes (s : State) (pa : Nat) (park : Bool) : Nat :=
  ceilDiv (64 + 8 * bodyLen park (leNat (rdMems s (pa + 4) 2))) 64 * 64

/-- The words of a body. -/
def bodyWords : Nat → List Byte → List Nat
  | 0, _ => []
  | n + 1, bs => leNat (bs.take 8) :: bodyWords n (bs.drop 8)

/-- Does a segment pass its check: BODY in range and the CRC-32C of the body (R168)? -/
def segOk (park : Bool) (seg : List Byte) : Bool :=
  let body := leNat ((seg.drop 4).take 2)
  decide (1 ≤ body) && decide (body ≤ if park then 32 else 1536) &&
  crc32c ((seg.drop 64).take (8 * body)) == leNat ((seg.drop 24).take 4)

/-- Entry points of a segment header. -/
def segEntries (seg : List Byte) : List Nat :=
  (List.range 6).map fun e => leNat ((seg.drop (8 + 2 * e)).take 2) % 2 ^ 11

/-- Where the body of a segment goes: the pending half, or the park buffer (R92, R169). -/
def writeBody (park : Bool) (seg : List Byte) (c : Core) : Core :=
  let ws := bodyWords (bodyLen park (leNat ((seg.drop 4).take 2))) (seg.drop 64)
  if park then { c with park := smSetList 0 c.park 0 ws }
  else { c with ib := smSetList 0 c.ib (if c.activeB then 0 else 1536) ws }

/-- Place a segment: the body in the pending half with READY, or in the park buffer with the park count (R92, R168, R169). -/
def placeSeg (park : Bool) (seg : List Byte) (c : Core) : Core :=
  let c := writeBody park seg c
  if park then { c with parkEntries := segEntries seg, parkPend := some (leNat ((seg.drop 7).take 1)) }
  else { c with pendEntries := segEntries seg, pendBank := leNat ((seg.drop 6).take 1) % 2, ready := true }

/-- The filler whose segment lies at an address of the redirect table; 0 none (R381). -/
def fillerAt (s : State) (pa : Nat) : Nat :=
  if s.redirect.any fun e => e.2 == pa then ([1, 2, 3].find? fun n => isFiller s n).getD 0 else 0

/-- Data of an ILD arrives: its words are written as its beats come, and SEG_BAD is recorded when the check fails (R168). -/
def ildLand (r : Run) (park : Bool) (seg : List Byte) (cyc : Nat) (s : State) : State :=
  if segOk park seg then
    updCore s r.core fun c => if park then placeSeg park seg c else { placeSeg park seg c with pendFill := fillerAt s r.pa }
  else takeFault (coreFault s r.core 0x1E clVoid cyc 0) (updCore s r.core (writeBody park seg))

/-- A restored header takes its place at once but for the entry points and the half, which wait for the
boundary that ends the park (R113, R114). -/
def crstHeader (c : Core) (h : List Byte) : Core :=
  let bank := leNat ((h.drop 7).take 1) / 4 % 2
  { c with
    rstHdr := some h,
    sem := (List.range 32).foldl
      (fun m k => smSet 0 m (semKey bank k) (leNat ((h.drop (16 + 2 * k)).take 2) % 4096)) c.sem,
    desc := (List.range 16).foldl (fun m d => smSet 0 m d (leNat ((h.drop (96 + 4 * d)).take 4))) c.desc }

/-- Data of a CRST arrives (R113). -/
def crstLand (lost : List Nat) (r : Run) (part bank : Nat) (data : List Byte) (cyc : Nat) (s : State) : State :=
  let run := fun c : Core => crc32Run 0x82F63B78 (if part = 0 then 0xFFFFFFFF else c.rstCrc)
  match part with
  | 0 => updCore s r.core fun c =>
      { c with rstCrc := run c data, rstMask := 0, rstHdr := none,
               acc := (List.range 4096).foldl (fun m k =>
                 smSet 0#32 m k (BitVec.ofNat 32 (leNat ((data.drop (4 * k)).take 4)))) c.acc }
  | 1 => updCore s r.core fun c =>
      { c with rstCrc := run c data, ib := smSetList 0 c.ib 0 (bodyWords 3072 data) }
  | 2 => updCore s r.core fun c =>
      lsWrite lost { c with rstCrc := run c data, rstMask := c.rstMask ||| 2 ^ bank } (24576 * bank) data
  | _ =>
    let c := getCore s r.core
    let ok := (crc32Run 0x82F63B78 c.rstCrc (data.take 252) ^^^ 0xFFFFFFFF) == leNat ((data.drop 252).take 4)
    let mask := leNat ((data.drop 12).take 1)
    if ok && (mask &&& (255 - sliceMask s (corePart c))) == 0 then updCore s r.core fun c => crstHeader c data
    else takeFault (coreFault s r.core 0x1A clPlan cyc 0) s

/-- The data of a read run is complete at the core (R104). An ILD or CRST completes with it, in this cycle (R83). -/
def landed (r : Run) (cyc : Nat) (s : State) : State :=
  let k := r.pa / 2 ^ 36
  updCore s r.core fun c =>
    { c with
      landing := c.landing.map fun q => if q.stack = k ∧ q.tick = r.tick ∧ q.seq = r.seq then { q with landed := true } else q,
      outst :=
        if r.kind = .read then c.outst
        else c.outst.map fun o => if o.run = some (k, r.tick, r.seq) then { o with due := some cyc, run := none } else o }

/-! ### Stall mode, deadlock, gating -/

/-- Run the effect of an instruction held in stall mode. -/
def heldOp (i : Issue) (w x first : Nat) (s : State) : State :=
  let op := wOp w
  if op = opSww then swwEff i w x s
  else if op = opMma then mmaEff i first w x s
  else if op = opDrn then drnEff i w x s
  else if op = opMvm then mvmEff i w x s
  else if op = opMvd then mvdEff false i w x s
  else if op = opVop then vopEff i w x s
  else if op = opVsf then vsfEff i w x s
  else if op = opVred then vredEff i w x s
  else if op = opVqnt then vqntEff i w x s
  else if op = opVrng then vrngEff i w x s
  else if op = opVcvt then vcvtEff i w x s
  else if op = opVsel then vselEff i w x s
  else s

/-- Runs on their way to a core: in transit, queued, being served or waiting for a retry. -/
def pendingRuns (s : State) (l : Nat) : List Run :=
  (s.transit ++ s.chans.flatMap fun e => e.2.queue ++ e.2.cur.toList ++ e.2.retry.toList).filter fun r => feedsCore r l

/-- Is a line's beat still undelivered (R151)? -/
def lineAwaited (s : State) (l line : Nat) : Bool :=
  (pendingRuns s l).any fun r =>
    match r.kind with
    | .read => decide (r.line ≤ line) && decide (line < r.line + r.beats)
    | .crst part bank => part == 2 && decide (384 * bank ≤ line) && decide (line < 384 * bank + 384)
    | _ => false

/-- The pending beats of a held instruction have been written, its resumption comes after its issue (R152; log 121). -/
def mayResume (s : State) (h : Held) (cyc : Nat) : Bool :=
  decide (h.issue.cyc < cyc) && !(pendLines h.issue.acc).any fun l => lineAwaited s h.issue.core.lcid l

/-- The held instruction's issue as its displaced accesses are made: its other accesses keep their outcomes. -/
def resumedIssue (h : Held) (cyc : Nat) : Issue :=
  { h.issue with cyc := cyc, acc := h.issue.acc.filter fun a => a.kind != .pending }

/-- A held instruction goes on, with the descriptors of its issue cycle (R85). -/
def resumeHeld (h : Held) (cyc : Nat) (eff : Issue → State → State) (s : State) : State :=
  let l := h.issue.core.lcid
  let c0 := getCore s l
  let s := updCore s l fun c => { c with desc := smSetList 0 [] 0 h.descs, descNew := [], descCyc := cyc }
  updCore (eff (resumedIssue h cyc) s) l fun c =>
    { c with desc := c0.desc, descNew := c0.descNew, descCyc := c0.descCyc, descBad := c0.descBad, descWhen := c0.descWhen }

/-- The instruction that stall mode holds on an engine goes on. -/
def resumeEngine (c : CoreId) (e : Engine) (h : Held) (cyc : Nat) (s : State) : State :=
  lapse c.lcid cyc <| resumeHeld h cyc (fun i s => heldOp i h.w h.x h.first s)
    (updCore s c.lcid fun co => updEng co e.no fun g => { g with mode := .running, free := cyc + 1 })

/-- The displaced accesses of a weight feeder are made: its set is delivered (R151). -/
def resumeLoad (n : Nat) (h : Held) (cyc : Nat) (s : State) : State :=
  resumeHeld h cyc (fun i s => ldwLoad i h.w s)
    (updCore s h.issue.core.lcid fun co => { co with heldLdw := smSet none co.heldLdw n none })

/-- The displaced accesses of an engine, or of an array's weight feeder, held in stall mode are made (R152). -/
def execFeederResume (c : CoreId) (e : Engine) (wgt : Bool) (cyc : Nat) (s : State) : Host.Outcome State Fault Refusal :=
  .next <|
    let co := getCore s c.lcid
    if !issueOpen s || !coreOpen co then s
    else if wgt then
      match smGet none co.heldLdw e.no with
      | some h => if mayResume s h cyc then resumeLoad e.no h cyc s else s
      | none => s
    else match (getEng co e.no).mode with
      | .stalled h => if mayResume s h cyc then resumeEngine c e h cyc s else s
      | _ => s

/-- A core reports DEADLOCK (R105, R107, R108): the condition has held for DIE_DEADLOCK_WIN cycles. By V of the tick the
fault is a plan fault, after it logged only. -/
def execDeadlock (c : CoreId) (cyc : Nat) (s : State) : Host.Outcome State Fault Refusal :=
  .next <|
    let co := getCore s c.lcid
    let d := c.die.val
    if co.dead || !running s || !stuck s c.lcid || decide (deadCount s c.lcid cyc < getF s (R.DIE_DEADLOCK_WIN.WIN d)) then s
    else
      let s := updCore s c.lcid fun co => { co with dead := true }
      let s := setF s (R.DIE_DEADLOCK_STA.CORES d) (getF s (R.DIE_DEADLOCK_STA.CORES d) + 1)
      let s := raise (E.DIE.DEADLOCK d) s
      let ix := fun e => (getEng co e).idx % 2 ^ 11
      let detail := ix 0 + ix 1 * 2 ^ 11 + ix 2 * 2 ^ 22 + ix 3 * 2 ^ 33 + ix 4 * 2 ^ 44
      let s := takeFault { coreFault s c.lcid 0x14 (if s.tick.atV then clLogged else clPlan) cyc detail with extra := ix 5 } s
      judgeDie d cyc s

/-- A core is gated for lending (R333). -/
def execCoreGate (c : CoreId) (s : State) : Host.Outcome State Fault Refusal :=
  .next <|
    let ms := engModes (getCore s c.lcid)
    if flagF s R.TOP_MODE.BOOST && flagF s R.HTH_BOOST_EN.LEND && ms.all (fun m => atRest m || isBlocked m) &&
       ms.any isBlocked && noInbound s c.lcid then
      updCore s c.lcid fun co => { co with gated := true }
    else s

/-- A gated core is ungated (R333). -/
def execCoreUngate (c : CoreId) (s : State) : Host.Outcome State Fault Refusal :=
  .next (updCore s c.lcid fun co => { co with gated := false })

end Sys2Proof.Machine
end

