-- ==== Sys2Proof/Machine/Memory.lean ====
section
/-! DEFINITION. The memory stacks: the queue of a channel, when a run starts, refresh and make-up
windows, retries, storage errors, the Hinge, margining and the zeroing of a changed channel (R189 to
R213). Byte times count from the tick's opening boundary, or from replay start; while no tick runs, from any one moment. -/

namespace Sys2Proof.Machine

/-! ### Channel time (R192, R195, R213) -/

/-- Byte times that L bytes occupy a channel (R192). -/
def occOf (bytes : Nat) : Nat := max bytes 256 + 131

/-- Bytes that a run moves; a segment's length stands in its header (R168). -/
def runBytes (s : State) (r : Run) : Nat :=
  match r.kind with
  | .ild park => segBytes s r.pa park
  | _ => 64 * r.beats

/-- Byte times of a Pantry access that reads R and writes W bytes (R227). -/
def panOcc (r w : Nat) : Nat := ceilDiv (768 * (r + w)) 1000 + 131

/-- Byte times of a run, or of the write of a working copy (R192, R227). -/
def runOcc (s : State) (r : Run) : Nat :=
  match r.kind with
  | .copy => panOcc 0 r.data.length
  | _ => occOf (runBytes s r)

/-- A refresh window in byte times (R195). -/
def windowOcc : Nat := 19968

/-- Offset in ns of a channel's first window of the tick in planned time (R195; log 17). -/
def firstWindow (s : State) (k c : Nat) : Nat :=
  let phase := (getF s (R.STK_REF_PHASE.PHASE k) + c * getF s (R.STK_REF_PHASE.STAGGER k)) % 3900
  (phase + 3900 - s.tick.job * tickLen s % 3900) % 3900

/-- Offsets in ns of the windows that the tick's planned time holds (R195). -/
def tickWindows (s : State) (k c : Nat) : List Nat :=
  ((List.range (tickLen s / 3900 + 1)).map fun j => firstWindow s k c + 3900 * j).filter fun w =>
    decide (w < tickLen s)

/-- Fixed mode, a tick in progress that is not waiting for its replay: planned windows stand (R195, R198). -/
def windowsStand (s : State) : Bool :=
  running s && !flagF s R.TOP_MODE.BOOST && s.tick.replay != .quiescing && s.tick.replay != .ready

/-- Does a span of byte times meet no planned window of the tick (R193, R195)? -/
def clearOfWindows (s : State) (k c bt occ : Nat) : Bool :=
  !windowsStand s ||
  (tickWindows s k c).all fun w =>
    decide (10 * (bt + occ) ≤ 768 * w) || decide (768 * w + 10 * windowOcc ≤ 10 * bt)

/-- The period of a channel's windows in Boost mode in ns: shorter while STK_TEMP exceeds 85 °C (R199). -/
def boostPeriod (s : State) (k : Nat) : Nat :=
  if 1360 < getF s (R.STK_TEMP.TEMP k) ∧ getF s (R.STK_TEMP.TEMP k) < 2 ^ 15 then 3900 else 7800

/-- When after the launch's opening boundary the next window of a channel falls due in Boost mode (R199; log 123). -/
def boostDue (s : State) (k c : Nat) : Nat := smGet 0 s.refresh.due (chanKey k c) + boostPeriod s k

/-- Is a window of Boost mode due at a byte time (R199)? -/
def windowDue (s : State) (k c bt : Nat) : Bool :=
  running s && flagF s R.TOP_MODE.BOOST &&
  decide (768 * (s.refresh.since + boostDue s k c) ≤ 768 * cycleZero s + 10 * bt)

/-- The secondary window of a stack, first and last byte time but one (R213). -/
def secWindow (s : State) (k : Nat) : Nat × Nat :=
  (64 * getF s (R.STK_SEC_WIN.START k),
   64 * (getF s (R.STK_SEC_WIN.START k) + getF s (R.STK_SEC_WIN.LEN k)))

/-- Tokens that a span costs (R213). -/
def tokensOf (occ : Nat) : Nat := ceilDiv occ 64

/-- Does the regulator let a run start (R193, R213)? A primary run keeps clear of the secondary
window; a secondary run lies in it and its bucket holds its tokens. -/
def regulatorOk (s : State) (k part bt occ : Nat) : Bool :=
  let (a, b) := secWindow s k
  if part = 0 then a == b || decide (bt + occ ≤ a) || decide (b ≤ bt)
  else decide (a ≤ bt) && decide (bt + occ ≤ b) && decide (tokensOf occ ≤ smGet 0 (getStk s k).tokens part)

/-- The tokens of a secondary run are taken (R213). -/
def takeTokens (k part occ : Nat) (s : State) : State :=
  if part = 0 then s
  else updStk s k fun q => { q with tokens := smUpd 0 q.tokens part (· - tokensOf occ) }

/-- Cycle offset of a byte time at the grade's frequency. -/
def cycOfBt (s : State) (bt : Nat) : Nat := bt * gradeF s / 768

/-- The first byte time from `t` at which an access fits (R193): windows put it off. -/
def nextFit (s : State) (k c part occ : Nat) : Nat → Nat → Nat
  | 0, t => t
  | fuel + 1, t =>
    if clearOfWindows s k c t occ then
      let (a, b) := secWindow s k
      if part = 0 ∧ a ≠ b ∧ a < t + occ ∧ t < b then nextFit s k c part occ fuel b else t
    else
      match (tickWindows s k c).find? fun w =>
        decide (768 * w < 10 * (t + occ)) && decide (10 * t < 768 * w + 10 * windowOcc) with
      | some w => nextFit s k c part occ fuel (ceilDiv (768 * w + 10 * windowOcc) 10)
      | none => t

/-! ### The queue (R193) -/

/-- Does a run arrive before another of the same tick: by its byte time; in one byte time by its partition where both
are secondary ones, else by its source (R193, R213)? -/
def arrives (x y : Run) : Bool :=
  decide (x.arr < y.arr) || (x.arr == y.arr &&
    (if x.part ≠ 0 ∧ y.part ≠ 0 ∧ x.part ≠ y.part then decide (x.part < y.part) else decide (x.core < y.core)))

/-- Remove a run from a list. -/
def dropRun (r : Run) : List Run → List Run
  | [] => []
  | x :: xs => if x = r then xs else x :: dropRun r xs

/-- The run in transit that arrives next at a channel: of the oldest tick the first (R193). -/
def nextArrival (ch : Nat) (l : List Run) : Option Run :=
  match l.filter fun r => chanOf r.pa == ch with
  | [] => none
  | r :: rs => some ((rs.filter fun x => x.tick == r.tick).foldl (fun b x => if arrives x b then x else b) r)

/-- A margining step in progress on a channel gives way (R212, R318). -/
def abortMargin (k c : Nat) (s : State) : State :=
  if (getStk s k).stepOn ∧ getF s (R.STK_MARGIN_CTL.CHAN k) = c then
    updStk s k (fun q => { q with stepOn := false })
    |> (fun s => setB s (R.STK_MARGIN_RES.ABORTED k) true)
    |> raise (E.STACK.TEST_ABORT k)
    |> logOnly 0x45 uChan (chanKey k c) 0 0
    |> (fun s => incSat s R.TST_ABORTS.COUNT 1)
    |> raise E.TEST.TEST_ABORT
  else s

/-- Is the channel free at a byte time? -/
def chanFree (s : State) (ch bt : Nat) : Bool :=
  (getChan s ch).cur.isNone && decide ((getChan s ch).freeAt ≤ bt)

/-- Is the run an access of a Pantry command (served by the Pantry's rows)? -/
def isPan (r : Run) : Bool := match r.kind with | .pan _ _ | .unit _ _ => true | _ => false

/-! ### The Hinge (R205) -/

/-- Whole tiles of a Hinge run; none where its two descriptors name tiles of different sizes (R205). -/
def hingeTiles (sd td n : Nat) : Nat := if tileBytes sd = tileBytes td then n / tileBytes sd else 0

/-- Bytes moved through the Hinge: each whole tile is transposed; bytes that are no whole tile, and those of a run whose
descriptors name tiles of different sizes, which the loader rejects, are free (log 10). -/
def hinge (s : State) (h : Option (Nat × Nat)) (bs : List Byte) : List Byte :=
  match h with
  | none => bs
  | some (sd, td) =>
    let t := tileBytes sd
    let n := hingeTiles sd td bs.length
    ((List.range n).flatMap fun i =>
      let tile := (bs.drop (t * i)).take t
      hingeTile (fun a => tile.getD a 0) sd td 0) ++
    (List.range (bs.length - n * t)).map fun i => BitVec.ofNat 8 (Config.freeValue (s.freeCtr + i)).toNat

/-- The counter moves past the bytes that `hinge` left free. -/
def hingeUsed (h : Option (Nat × Nat)) (n : Nat) (s : State) : State :=
  match h with
  | none => s
  | some (sd, td) => { s with freeCtr := s.freeCtr + (n - hingeTiles sd td n * tileBytes sd) }

/-! ### The end of a run (R201 to R204) -/

/-- Class of a channel: cellar (R207). -/
def isCellar (s : State) (k c : Nat) : Bool := bitsOf (getF s (R.STK_CHAN_CLASS.CELLAR k)) c 1 == 1

/-- Byte times that retries of one channel may take in a tick (R202). -/
def resv (s : State) (k : Nat) : Nat := tickLen s * 768 * getF s (R.STK_RETRY_RESV.PERMILLE k) / 10000

/-- A fault of a channel. -/
def chanFault (k c code cls cyc pa part : Nat) : FaultRec :=
  { mkFault code cls uChan (chanKey k c) cyc pa with part := part }

/-- A run has failed (R202): `lim` a fourth retry needed, else no reserve left. -/
def runFailed (k c : Nat) (lim : Bool) (r : Run) (s : State) : State :=
  let cyc := cycOfBt s (getChan s (chanKey k c)).freeAt
  let s := incSat s (R.STK_RETRY_CNT.FAILED k) 1
  let s := if lim then raise (E.STACK.RETRY_LIMIT k) s else raise (E.STACK.RESV_EXHAUSTED k) s
  takeFault (chanFault k c (if lim then 0x22 else 0x21) clVoid cyc r.pa r.part) s

/-- Count one retry of a channel (R201). -/
def countRetry (k c : Nat) (r : Run) (s : State) : State :=
  let cyc := cycOfBt s (getChan s (chanKey k c)).freeAt
  incSat s (R.STK_RETRY_CNT.RETRIES k) 1
  |> (fun s => setF s (R.STK_RETRY_CNT.LAST_CHAN k) c)
  |> raise (E.STACK.RETRY k)
  |> logOnly 0x20 uChan (chanKey k c) cyc r.pa

/-- Parity failed: the run is retried or has failed (R201, R202). -/
def parityFailed (k c : Nat) (r : Run) (s : State) : State :=
  let ch := chanKey k c
  let occ := runOcc s r
  if r.retries ≥ 3 then runFailed k c true r s
  else if running s ∧ (getChan s ch).retryOcc + occ > resv s k then runFailed k c false r s
  else
    countRetry k c r (updChan s ch fun q =>
      { q with retry := some { r with retries := r.retries + 1 }, retryOcc := q.retryOcc + occ })

/-- Losses that befall a run's data on its way to its core: of a stack on another die in a slot of the receiving edge
(R102, R431). -/
def runLosses (r : Run) (lost : List LineLoss) : List LineLoss :=
  lost.filter fun z => placeOn (recvRole (dieOfStack (r.pa / 2 ^ 36)) (r.core / 2 ^ 14)) z.place

/-- The words of a fetched segment whose beats were discarded do not arrive: lines numbered from the header's. -/
def dropBeats (gone : List Nat) (bs : List Byte) : List Byte :=
  bs.zipIdx.map fun e => if gone.contains (e.2 / 64) then 0#8 else e.1

/-- Deliver a completed run: a write reaches the DRAM, a read's data its core, but for the beats that were discarded or
not served at the LD port. -/
def deliver (r : Run) (gone : List Nat) (cyc : Nat) (s : State) : State :=
  let data := rdMems s r.pa (runBytes s r)
  match r.kind with
  | .read =>
    let bs := hinge s r.hinge data
    landed r cyc (hingeUsed r.hinge data.length (updCore s r.core fun co => lsWrite gone co (64 * r.line) bs))
  | .write => hingeUsed r.hinge r.data.length (wrMems s r.pa (hinge s r.hinge r.data))
  | .csav _ _ | .copy => wrMems s r.pa r.data
  | .ild park => ildLand r park (dropBeats gone data) cyc (landed r cyc s)
  | .crst part bank => crstLand gone r part bank (if part = 2 then data else dropBeats gone data) cyc (landed r cyc s)
  | .pan _ _ | .unit _ _ | .host _ _ => s

/-- A completed run reaches its core with what befell its beats (R88, R90, R102); the core's condition of R105 lapses. -/
def deliverTo (r : Run) (acc : List LsAcc) (lost : List LineLoss) (cyc : Nat) (s : State) : State :=
  if !feedsCore r r.core then deliver r [] cyc s
  else
    let zs := runLosses r lost
    let s := deliver r (lostLines acc ++ zs.map fun z => z.line) cyc s
    let fs := zs.map (lineFault s r.core (stackStation (r.pa / 2 ^ 36)) cyc) ++ accFaults s r.core none acc
    lapse r.core cyc (takeFaults fs s)

/-- Is the run a read of the DRAM? -/
def isRead (r : Run) : Bool := !isWrite r.kind

/-- Count a corrected read (R204). -/
def eccCorrected (k c cyc pa : Nat) (s : State) : State :=
  logOnly 0x23 uChan (chanKey k c) cyc pa (raise (E.STACK.ECC_CE k) (incSat s (R.STK_ECC.CE k) 1))

/-- An uncorrectable read: the outcome of its channel's class (R204, Table 7.4). -/
def eccLost (k c cyc pa part : Nat) (s : State) : State :=
  let s := setF (incSat s (R.STK_ECC.UE k) 1) (R.STK_ECC.LAST_CHAN k) c
  let s := raise (E.STACK.ECC_UE k) s
  if isCellar s k c then takeFault (chanFault k c 0x25 clVoid cyc pa part) s
  else takeFault { chanFault k c 0x24 clHard cyc pa part with flag := 3 } s

/-- A lane failed in service beyond its spares (Table 7.4). -/
def laneLost (k c lane cyc pa : Nat) (s : State) : State :=
  takeFault { mkFault 0x26 clHard uLane (k * 2 ^ 12 + c * 2 ^ 7 + lane) cyc pa with flag := 5 } s

/-- What the end of a run's occupancy brings (R201, R204). -/
def runOutcome (k c : Nat) (r : Run) (parity : Bool) (ecc : EccOut) (acc : List LsAcc) (lost : List LineLoss) (cyc : Nat)
    (s : State) : State :=
  match ecc with
  | .laneLost lane => laneLost k c lane cyc r.pa s
  | .uncorrectable =>
    if parity then parityFailed k c r s
    else if isRead r then eccLost k c cyc r.pa r.part s
    else deliverTo r acc lost cyc s
  | .corrected =>
    if parity then parityFailed k c r s
    else if isRead r then deliverTo r acc lost cyc (eccCorrected k c cyc r.pa s)
    else deliverTo r acc lost cyc s
  | .clean => if parity then parityFailed k c r s else deliverTo r acc lost cyc s

/-! ### An access served in its row (R200, R201, R204, R227) -/

/-- The partition whose regulator an access passes: host and guest accesses pass none (R213, R227). -/
def tokenPart (r : Run) : Nat := if isPan r then r.part else 0

/-- The attempts after one that failed its parity check: `errs` of them in all fail, `n` retries are made (R201, R202).
Says whether one has passed. -/
def retryAccess (k c occ : Nat) (r : Run) : Nat → Nat → State → State × Bool
  | 0, _, s => (s, true)
  | e + 1, n, s =>
    let ch := chanKey k c
    if 3 ≤ n then (runFailed k c true r s, false)
    else if running s ∧ (getChan s ch).retryOcc + occ > resv s k then (runFailed k c false r s, false)
    else
      let s := countRetry k c r (updChan s ch fun q => { q with retryOcc := q.retryOcc + occ })
      let t := nextFit s k c (tokenPart r) occ 40 (getChan s ch).freeAt
      retryAccess k c occ r e (n + 1) (takeTokens k (tokenPart r) occ (updChan s ch fun q => { q with freeAt := t + occ }))

/-- What the storage code finds in an access that passed: says whether its data is good (R204). -/
def accessEcc (k c : Nat) (reads : Bool) (r : Run) (ecc : EccOut) (cyc : Nat) (s : State) : State × Bool :=
  match ecc with
  | .corrected => (if reads then eccCorrected k c cyc r.pa s else s, true)
  | .uncorrectable => if reads then (eccLost k c cyc r.pa r.part s, false) else (s, true)
  | .laneLost _ | .clean => (s, true)

/-- An access takes its channel from its byte time on, with its retries; says whether it has passed. -/
def serveAccess (k c occ : Nat) (reads : Bool) (r : Run) (sv : Served) (s : State) : State × Bool :=
  let ch := chanKey k c
  let cyc := cycOfBt s sv.bt
  let s := takeTokens k (tokenPart r) occ (abortMargin k c (updChan s ch fun q => { q with start := sv.bt, freeAt := sv.bt + occ }))
  match sv.ecc with
  | .laneLost lane => (laneLost k c lane cyc r.pa s, false)
  | e =>
    let (s, ok) := retryAccess k c occ r sv.errs 0 s
    if ok then accessEcc k c reads r e cyc s else (s, false)

/-! ### Refresh (R195, R197 to R199) -/

/-- Make-up windows that a channel owes (R197). -/
def debt (s : State) (ch : Nat) : Nat := s.refresh.owed - smGet 0 s.refresh.paid ch

/-- A window takes the channel (R195). -/
def takeWindow (k c bt : Nat) (s : State) : State :=
  abortMargin k c <| updChan s (chanKey k c) fun q => { q with freeAt := max q.freeAt (bt + windowOcc) }

/-- The window of Boost mode that is due opens (R199). -/
def takeDue (k c bt : Nat) (s : State) : State :=
  let d := boostDue s k c
  takeWindow k c bt { s with refresh := { s.refresh with due := smSet 0 s.refresh.due (chanKey k c) d } }

/-- A refresh window opens (R195): in Fixed mode at a planned byte time of the tick, in Boost mode when it is due and
the channel is free (R199). -/
def execRefreshWindow (k : StackNo) (c : ChanNo) (bt : Nat) (s : State) : Host.Outcome State Fault Refusal :=
  .next <|
    if !running s then s
    else if flagF s R.TOP_MODE.BOOST then (if chanFree s (chanKey k c) bt && windowDue s k c bt then takeDue k c bt s else s)
    else if windowsStand s && ((tickWindows s k c).map fun w => ceilDiv (768 * w) 10).contains bt then
      takeWindow k c bt s
    else s

/-- Length in ns of the tick, as it has been lengthened, or of its replay. -/
def closeOffset (s : State) : Nat := closing s - cycleZero s

/-- Is a window at a byte time in time that no planned run takes: it begins at or after the tick's decision point and ends
by the boundary as that now stands, or a replay waits (R197, R198)? The decision point is that of the tick as planned: a
stretch adds free time behind it. -/
def makeupSpan (s : State) (bt : Nat) : Bool :=
  running s && (s.tick.replay == .quiescing || s.tick.replay == .ready ||
    (decide (768 * (tickLen s - getF s R.TICK_GUARD.GUARD) ≤ 10 * bt) && decide (10 * (bt + windowOcc) ≤ 768 * closeOffset s)))

/-- A make-up window (R197). -/
def execMakeupWindow (k : StackNo) (c : ChanNo) (bt : Nat) (s : State) : Host.Outcome State Fault Refusal :=
  .next <|
    let ch := chanKey k c
    if makeupSpan s bt && decide (0 < debt s ch) && chanFree s ch bt && clearOfWindows s k c bt windowOcc then
      let s := takeWindow k c bt s
      let s := { s with refresh := { s.refresh with paid := smUpd 0 s.refresh.paid ch (· + 1) } }
      incSat s (R.STK_REF_STA.MAKEUPS k) 1
    else s

/-! ### Margining (R211, R212) -/

/-- Steps that a lane needs on an axis (R211). -/
def marginNeed (lane axis : Nat) : Nat :=
  if lane < 70 then (if axis = 0 then 20 else 10) else (if axis = 0 then 12 else 8)

/-- Begin a measurement (R212); lanes 0 to 80 exist (Table 7.6). -/
def marginStart (k : Nat) (s : State) : State :=
  if 80 < getF s (R.STK_MARGIN_CTL.LANE k) then s
  else setB (updStk s k fun q => { q with margin := true, stepOn := false }) (R.STK_MARGIN_RES.DONE k) false

/-- STK_MARGIN_CTL.START takes effect (R212). -/
def execStkMarginStart (k : StackNo) (s : State) : Host.Outcome State Fault Refusal :=
  .next (marginStart k s)

/-- A measurement ends: DONE rises with its result (R211, R212). -/
def marginDone (k low high : Nat) (s : State) : State :=
  let need := marginNeed (getF s (R.STK_MARGIN_CTL.LANE k)) (getF s (R.STK_MARGIN_CTL.AXIS k))
  raise (E.STACK.MARGIN_DONE k) <|
    setFs (updStk s k fun q => { q with margin := false, stepOn := false })
      [(R.STK_MARGIN_RES.LOW k, low), (R.STK_MARGIN_RES.HIGH k, high), (R.STK_MARGIN_RES.DONE k, 1),
       (R.STK_MARGIN_RES.ABORTED k, 0), (R.STK_MARGIN_RES.PASS k, if need ≤ low + high then 1 else 0)]

/-! ### A change of class (R207, R208) -/

/-- Bad data and parity lanes, and bad command/address lanes, of a channel's bad lanes (Table 7.6 numbering). -/
def badDq (l : List Nat) : List Nat := l.filter fun x => decide (x < 68)
def badCa (l : List Nat) : List Nat := l.filter fun x => decide (70 ≤ x) && decide (x < 80)

/-- The spare data lanes that are good themselves. -/
def goodSpares (l : List Nat) : List Nat := [68, 69].filter fun x => !l.contains x

/-- More bad lanes than the channel can replace (R210): three data or parity, two command/address, or more than
the spares that are good. -/
def pastRepair (l : List Nat) : Bool :=
  decide ((goodSpares l).length < (badDq l).length) || decide (2 ≤ (badCa l).length) || (l.contains 80 && !(badCa l).isEmpty)

/-- The lane that a spare replaces (R209). -/
def replacedBy (l : List Nat) (spare : Nat) : Option Nat :=
  if spare = 80 then (if l.contains 80 then none else (badCa l).head?)
  else ((goodSpares l).zip (badDq l)).find? (fun e => e.1 == spare) |>.map (·.2)

def badLanesOf (s : State) (k c : Nat) : List Nat := smGet [] (getStk s k).spares c

/-- Is a channel beyond repair (R210)? -/
def beyond (s : State) (k c : Nat) : Bool := pastRepair (badLanesOf s k c)

/-- PART_MEM.REGIONS of every partition, counted from the ownership table (R375, R376). -/
def countRegions (s : State) : State :=
  [0, 1, 2, 3].foldl (fun s n =>
    setF s (R.PART_MEM.REGIONS n)
      (if n = 0 then 3072 - s.hif.owner.length else (s.hif.owner.filter fun e => e.2 == n).length)) s

/-- Give a region to an owner: 0 to 3 partitions, 7 free. -/
def setOwner (r o : Nat) (s : State) : State := { s with hif := { s.hif with owner := smSet 0 s.hif.owner r o } }

/-- The regions of a channel are released (R208, R376). -/
def freeChannel (k c : Nat) (s : State) : State :=
  (List.range 8).foldl (fun s j => setOwner (256 * k + 8 * c + j) 7 s) s

/-- STK_CHAN_CLASS takes a value: every channel that changes class is zeroed before the page can be
enabled, and its regions are released; a channel beyond repair is not zeroed (R208, R210). -/
def writeClass (k v : Nat) (s : State) : State :=
  let diff := (getF s (R.STK_CHAN_CLASS.CELLAR k)) ^^^ v
  let cs := (List.range 32).filter fun c => bitsOf diff c 1 == 1
  let zs := (cs.filter fun c => !beyond s k c).foldl (fun m c => m ||| 2 ^ c) 0
  let s := setF s (R.STK_CHAN_CLASS.CELLAR k) v
  let s := countRegions (cs.foldl (fun s c => freeChannel k c s) s)
  if zs = 0 then s
  else setB (updStk s k fun q => { q with zeroMask := q.zeroMask ||| zs }) (R.PG_STA.ZEROING (0x30 + k)) true

/-- Every byte of a channel reads 0. -/
def zeroChannel (k c : Nat) (s : State) : State :=
  { s with mem := smClear s.mem (k * 2 ^ 36 + c * 2 ^ 31) (2 ^ 31) }

/-- The zeroing of the changed channels of a stack ends (R208). -/
def execChannelZeroingDone (k : StackNo) (s : State) : Host.Outcome State Fault Refusal :=
  .next <|
    let cs := (List.range 32).filter fun c => bitsOf (getStk s k).zeroMask c 1 == 1
    setB (updStk (cs.foldl (fun s c => zeroChannel k c s) s) k fun q => { q with zeroMask := 0 })
      (R.PG_STA.ZEROING (0x30 + k)) false

end Sys2Proof.Machine
end

