-- ==== Sys2Proof/Machine/PanMath.lean ====
section
/-! DEFINITION. The arithmetic of the Pantry: moment codes (R220 to R222), the exact accumulators
(R231), the clip factor (R234), the update rules and micro-sequences (R239, R240), and working
copies (R241). -/

namespace Sys2Proof.Machine

/-! ### Moment codes -/

/-- BF16 bits of a non-negative value, rounded once (R220 step 3). -/
def roundBf16 (v : Val) : Nat :=
  match v with
  | .fin s m e => joinSign fmtBF16 s (min (roundMag fmtBF16 .rne m e) 0x7F80)
  | .inf s => joinSign fmtBF16 s 0x7F80
  | .nan => 0x7FC0

/-- The FP32 word of a BF16 scale. -/
def bf16Word (b : Nat) : Word := BitVec.ofNat 32 (b % 2 ^ 16 * 2 ^ 16)

/-- Magnitude bits of an FP32 word. -/
def magBits (x : Word) : Nat := x.toNat % 2 ^ 31

/-- Largest magnitude of a block of finite words. -/
def amaxBits (xs : List Word) : Nat := xs.foldl (fun a x => max a (magBits x)) 0

/-- RNI of x / s clamped; a scale that rounded to 0 leaves the quotient open (log 19). -/
def momentCode (lo hi : Int) (s : Nat) (x : Word) : Int :=
  match divVal (val32 x) (val32 (bf16Word s)) with
  | .fin n m e => clampInt lo hi (roundInt .rne n m e 0)
  | _ => clampInt lo hi (toSigned 32 (Config.openFn 300 x (bf16Word s)).toNat)

/-- Scale and codes of a block of 64 values already in the form that is coded; `top` is 127 or 255. -/
def codeBlock (lo top : Int) (xs : List Word) : Nat × List Nat :=
  if xs.any nonFinite32 then (0x7FC0, xs.map fun _ => 0)
  else
    let a := amaxBits xs
    if a = 0 then (0, xs.map fun _ => 0)
    else
      let s := roundBf16 (divVal (val32 (BitVec.ofNat 32 a)) (.fin false top.toNat 0))
      (s, xs.map fun x => ofSigned 8 (momentCode lo top s x))

/-- First moments of a block (R220). -/
def codeFirst (ms : List Word) : Nat × List Nat := codeBlock (-127) 127 ms

/-- Second moments of a block, through their square roots (R221). -/
def codeSecond (vs : List Word) : Nat × List Nat := codeBlock 0 255 (vs.map sqrt32)

/-- First moment of a code and scale (R222). -/
def decodeFirst (c s : Nat) : Word := mul32 (intToFp32 (toSigned 8 c)) (bf16Word s)

/-- Second moment of a code and scale (R222). -/
def decodeSecond (d t : Nat) : Word :=
  let r := mul32 (intToFp32 (d % 256 : Nat)) (bf16Word t)
  mul32 r r

/-! ### Exact accumulators (R231) -/

/-- The term of an FP32 value in units of 2⁻⁸⁰; none for NaN and infinities. -/
def normTerm (x : Word) : Option Nat :=
  match val32 x with
  | .fin _ m e =>
    let sh := 2 * e + 80
    some (if sh ≥ 0 then m * m * 2 ^ sh.toNat else m * m / 2 ^ (-sh).toNat)
  | _ => none

/-- Add a term, saturating at 2¹²⁸ − 1. -/
def sat128 (a b : Nat) : Nat × Bool :=
  if a + b ≥ 2 ^ 128 then (2 ^ 128 - 1, true) else (a + b, false)

/-! ### Clip factor (R234) -/

def one32 : Word := 0x3F800000#32

/-- C from the global sum, its SAT flag and MAXNORM. -/
def clipFactor (sum : Nat) (gsat : Bool) (maxnorm : Word) : Word :=
  if magBits maxnorm = 0 then one32
  else if gsat then 0#32
  else
    let n := sqrt32 (round32 (.fin false sum (-80)))
    if val32 maxnorm ≠ .nan ∧ rank32 n ≤ rank32 maxnorm then one32 else div32 maxnorm n

/-! ### Updates (R238 to R240) -/

/-- What one element of a sweep reads: hyper slots, clip factor, w, ĝ, m, v. -/
structure Elem where
  p : List Word
  clip : Word
  w : Word
  g : Word
  m : Word
  v : Word
  deriving DecidableEq, Repr

def hyp (x : Elem) (i : Nat) : Word := x.p.getD i 0#32
/-- a1 = RNE(1 − P1), a2 = RNE(1 − P2), ηλ = RNE(P0 × P4) (R237). -/
def hypA1 (x : Elem) : Word := sub32 one32 (hyp x 1)
def hypA2 (x : Elem) : Word := sub32 one32 (hyp x 2)
def hypEl (x : Elem) : Word := mul32 (hyp x 0) (hyp x 4)

/-- The moments and step of Adam and AdamW from d: m′, v′, u (Table 8.4). -/
def adamStep (x : Elem) (d : Word) : Word × Word × Word :=
  let m' := fma32 (hyp x 1) x.m (mul32 (hypA1 x) d)
  let v' := fma32 (hyp x 2) x.v (mul32 (hypA2 x) (mul32 d d))
  let q := mul32 (sqrt32 v') (hyp x 6)
  let r := add32 q (hyp x 3)
  (m', v', div32 (mul32 m' (hyp x 5)) r)

/-- Operand of a micro-sequence word (R240); codes 28 to 31, which the loader rejects, are open. -/
def mseqOperand (x : Elem) (r : List Word) (c : Nat) : Word :=
  if c ≤ 7 then r.getD c 0#32
  else if c ≤ 21 then hyp x (c - 8)
  else match c with
    | 22 => x.clip
    | 23 => one32
    | 24 => 0#32
    | 25 => hypA1 x
    | 26 => hypA2 x
    | 27 => hypEl x
    | _ => Config.openFn 301 (BitVec.ofNat 32 c) 0#32

/-- What DST receives (Table 8.5); an OP not listed, which the loader rejects, is open. -/
def mseqOp (op : Nat) (a b c : Word) : Word :=
  match op with
  | 1 => add32 a b
  | 2 => mul32 a b
  | 3 => fma32 a b c
  | 4 => div32 a b
  | 5 => sqrt32 a
  | 6 => sign32 a
  | 7 => max32 a b
  | 8 => min32 a b
  | 9 => a
  | 10 => neg32 a
  | _ => Config.openFn (302 + op) a b

/-- Run the words until END or the last (R240). -/
def mseqRun (x : Elem) : List Nat → List Word → List Word
  | [], r => r
  | w :: ws, r =>
    if bitsOf w 0 4 = 0 then r
    else
      mseqRun x ws (r.set (bitsOf w 4 3)
        (mseqOp (bitsOf w 0 4) (mseqOperand x r (bitsOf w 7 5)) (mseqOperand x r (bitsOf w 12 5))
          (mseqOperand x r (bitsOf w 17 5))))

/-- One element under an algorithm: w′, m′, v′ (Table 8.4). -/
def updElem (alg : Nat) (mseq : List Nat) (x : Elem) : Word × Word × Word :=
  match alg with
  | 0 => (fma32 (neg32 (hyp x 0)) (fma32 (hyp x 4) x.w x.g) x.w, x.m, x.v)
  | 1 =>
    let d := fma32 (hyp x 4) x.w x.g
    let m' := fma32 (hyp x 1) x.m d
    (fma32 (neg32 (hyp x 0)) m' x.w, m', x.v)
  | 2 =>
    let (m', v', u) := adamStep x (fma32 (hyp x 4) x.w x.g)
    (fma32 (neg32 (hyp x 0)) u x.w, m', v')
  | 3 =>
    let (m', v', u) := adamStep x x.g
    let w1 := fma32 (neg32 (hypEl x)) x.w x.w
    (fma32 (neg32 (hyp x 0)) u w1, m', v')
  | 4 =>
    let k := fma32 (hyp x 1) x.m (mul32 (hypA1 x) x.g)
    let w1 := fma32 (neg32 (hypEl x)) x.w x.w
    (fma32 (neg32 (hyp x 0)) (sign32 k) w1, fma32 (hyp x 2) x.m (mul32 (hypA2 x) x.g), x.v)
  | _ =>
    let r := mseqRun x (mseq.take 16) [x.w, x.g, x.m, x.v, 0#32, 0#32, 0#32, 0#32]
    (r.getD 0 0#32, r.getD 2 0#32, r.getD 3 0#32)

/-- Does an algorithm store first and second moments (Table 8.4)? -/
def algM (alg : Nat) : Bool := alg != 0
def algV (alg : Nat) : Bool := alg != 0 && alg != 1 && alg != 4

/-! ### Working copies (R241) -/

/-- Descriptor of a working-copy code: BF16, or MXFP8 in E4M3 or E5M2 with BLOCK 2. -/
def wcDesc (wc : Nat) : Nat := if wc = 1 then 1 else if wc = 2 then 3 + 2 * 16 else 4 + 2 * 16

/-- The tile of 1 024 master values in the working-copy format (R126, R127, R133, R134). -/
def wcTile (wc : Nat) (ws : List Word) : List Byte :=
  if wc = 1 then ws.flatMap fun w => leBytes 2 (convElem 1 0 w)
  else
    let d := wcDesc wc
    let lines := (List.range 32).map fun q => quantBlock d (List.replicate 32 0) (((ws.drop (32 * q)).take 32).map val32)
    (lines.flatMap fun l => l.2.map fun e => BitVec.ofNat 8 e) ++ (lines.map fun l => BitVec.ofNat 8 l.1) ++
    List.replicate 32 0#8

end Sys2Proof.Machine
end

