-- ==== Sys2Proof/Machine/Pantry.lean ====
section
/-! DEFINITION. The Pantry: unit records, flag store, gradient commands, scatter-add, sweeps, the
journal, the norm and gradient-noise accumulators, export and import (R216 to R248). A Pantry
command stands in its channel's queue as its accesses, each served when its turn comes (R227, log 20). -/

namespace Sys2Proof.Machine

/-! ### Units (R216 to R219) -/

def unitBytes : Nat := 10304

/-- Unit number of a record's address (R217). -/
def unitNo (pa : Nat) : Nat := pa / 2 ^ 31 % 32 * 2 ^ 18 + pa % 2 ^ 31 / unitBytes

/-- Is the address that of a record in a state channel (R217)? -/
def unitOk (s : State) (pa : Nat) : Bool :=
  pa % 2 ^ 31 % unitBytes == 0 && decide (pa % 2 ^ 31 + unitBytes ≤ 2 ^ 31) &&
  !isCellar s (pa / 2 ^ 36) (pa / 2 ^ 31 % 32)

/-- Flag byte of a unit: W and CNT (R218). -/
def flagByte (s : State) (k u : Nat) : Nat := smGet 0 (getPan s k).flags u
def fW (b : Nat) : Bool := b % 2 == 1
def fCnt (b : Nat) : Nat := b / 2 % 16
def mkFlag (cnt : Nat) : Nat := 1 + 2 * cnt

def setFlag (k u b : Nat) (s : State) : State := updPan s k fun p => { p with flags := smSet 0 p.flags u b }

/-- The FP32 words of bytes. -/
def wordsOf : Nat → List Byte → List Word
  | 0, _ => []
  | n + 1, bs => BitVec.ofNat 32 (leNat (bs.take 4)) :: wordsOf n (bs.drop 4)

def bytesOf (ws : List Word) : List Byte := ws.flatMap fun w => leBytes 4 w.toNat

def masterAt (s : State) (pa : Nat) : List Word := wordsOf 1024 (rdMems s pa 4096)
def gradAt (s : State) (pa : Nat) : List Word := wordsOf 1024 (rdMems s (pa + 4096) 4096)

/-- Flags of a tensor entry (Table 8.8). -/
def tNorm (t : TensorE) : Bool := bitsOf t.flags 0 1 == 1
def tGns (t : TensorE) : Bool := bitsOf t.flags 1 1 == 1
def tScatter (t : TensorE) : Bool := bitsOf t.flags 2 1 == 1
def tSkip (t : TensorE) : Bool := bitsOf t.flags 3 1 == 1
def tWc (t : TensorE) : Nat := bitsOf t.flags 4 2

/-- The PANTRY section of the plan that issued a command. -/
def panSec (s : State) (part : Nat) : Option PanSec :=
  match getPlan s part with
  | some p => p.pantry
  | none => none

/-- The extent that holds `n` units from an address (R244). -/
def extentOf (s : State) (part k tensor pa n : Nat) : Option TensorE :=
  match panSec s part with
  | none => none
  | some q => q.tensors.find? fun t =>
      t.tensor == tensor && t.stack == k && decide (t.pa ≤ pa) && (pa - t.pa) % unitBytes == 0 &&
      decide (pa + n * unitBytes ≤ t.pa + t.nunits * unitBytes)

/-! ### Faults (R247) -/

def panFault (k code cls cyc unit part : Nat) : FaultRec :=
  { mkFault code cls uPantry k cyc unit with part := part }

/-- A malformed or reserved command (Table 8.10). -/
def panBad (k cyc : Nat) (r : Run) (s : State) : State :=
  takeFault (panFault k 0x2E clPlan cyc (unitNo r.pa) r.part) s

/-! ### The journal (R242) -/

def journalBytes (p : Pan) : Nat := p.journal.foldl (fun a e => a + e.bytes) 0

/-- Bytes that a sweep writes (Table 8.2). -/
def sweepW (alg : Nat) : Nat := if algV alg then 6208 else if algM alg then 5152 else 4096
def sweepR (alg : Nat) : Nat := if algV alg then 10304 else if algM alg then 9248 else 8192

/-- The pieces of an area: offset in the record and length. Area 0 is the gradient area; else the area
of a sweep by `alg`. -/
def areaPieces (grad : Bool) (alg : Nat) : List (Nat × Nat) :=
  if grad then [(4096, 4096)]
  else [(0, 4096)] ++ (if algM alg then [(8192, 1024), (10240, 32)] else []) ++
    (if algV alg then [(9216, 1024), (10272, 32)] else [])

/-- Copy an area's pre-image before its first change of the tick; none: the journal is full. -/
def journal (k pa : Nat) (grad : Bool) (alg : Nat) (s : State) : Option State :=
  let p := getPan s k
  let key := 2 * pa + (if grad then 0 else 1)
  if p.journal.any fun e => e.key == key then some s
  else
    let n := 64 + (if grad then 4096 else sweepW alg)
    let use := journalBytes p + n
    if 2 ^ 24 < use then none
    else
      let e : JEntry :=
        { key := key, pa := pa, pre := (areaPieces grad alg).map fun a => (pa + a.1, rdMems s (pa + a.1) a.2),
          flag := flagByte s k (unitNo pa), bytes := n }
      let s := updPan s k fun p => { p with journal := p.journal ++ [e] }
      let s := setF s (R.PAN_JOURNAL_USE.CUR k) (ceilDiv use 1024)
      some (peakF s (R.PAN_JOURNAL_USE.PEAK k) (ceilDiv use 1024))

/-! ### Accumulators (R231, R236) -/

/-- Add the terms of values to an accumulator; says whether a non-finite value was seen. -/
def addTerms (a : Acc128) (xs : List Word) : Acc128 :=
  xs.foldl (fun a x =>
    match normTerm x with
    | some t => let r := sat128 a.v t; { a with v := r.1, sat := a.sat || r.2 }
    | none => { a with nonfin := true }) a

/-- The terms of a final unit enter the norm accumulator; a non-finite term is logged (R231, Table 8.10). -/
def addNorm (k cyc u part : Nat) (xs : List Word) (s : State) : State :=
  let s' := updPan s k fun p => { p with norm := addTerms p.norm xs }
  if xs.any nonFinite32 then
    raise (E.PANTRY.NONFINITE k) (takeFault (panFault k 0x2D clLogged cyc u part) s')
  else s'

def gnsOn (s : State) (k : Nat) (t : TensorE) : Bool := tGns t && flagF s (R.PAN_OPT.GNS_EN k)

/-- What a gradient command adds for a unit (R231, R236): `xs` the values carried, `acc` the area after. -/
def unitTerms (k cyc u part : Nat) (t : TensorE) (final : Bool) (xs acc : List Word) (s : State) : State :=
  let s := if gnsOn s k t then
      updPan s k fun p => { p with small := addTerms p.small xs,
                                   big := if final then addTerms p.big acc else p.big } else s
  if final && tNorm t then addNorm k cyc u part acc s else s

/-! ### GRAD_WR and GRAD_ADD (R223 to R225) -/

/-- Source mark of a unit in the tick: LCID + 1; 2¹⁷ for scatter-add. -/
def srcOf (s : State) (k u : Nat) : Nat := smGet 0 (getPan s k).src u

/-- One unit of a gradient command. -/
def gradUnit (k cyc : Nat) (add : Bool) (t : TensorE) (r : Run) (pa : Nat) (xs : List Word) (s : State) : State :=
  let u := unitNo pa
  let b := flagByte s k u
  let fresh := !add || !fW b
  let cnt := if fresh then 1 else fCnt b + 1
  if smGet false (getPan s k).swept u || (srcOf s k u != 0 && srcOf s k u != r.core + 1) then
    takeFault (panFault k 0x28 clPlan cyc u r.part) s
  else if cnt > t.mb ∨ cnt > 15 then takeFault (panFault k 0x29 clPlan cyc u r.part) s
  else match journal k pa true 0 s with
    | none => takeFault (panFault k 0x2B clPlan cyc u r.part) s
    | some s =>
      let acc := if fresh then xs else List.zipWith add32 (gradAt s pa) xs
      let s := wrMems s (pa + 4096) (bytesOf acc)
      let s := setFlag k u (mkFlag cnt) s
      let s := updPan s k fun p => { p with src := smSet 0 p.src u (r.core + 1) }
      unitTerms k cyc u r.part t (cnt == t.mb) xs acc s

/-- The tensor that a command names. -/
def panTensor (r : Run) : Nat := match r.kind with | .pan _ t | .unit _ t => t | _ => 0

/-- The accesses of a gradient command, one a unit (R223, R227); none: it is malformed. -/
def gradUnits (s : State) (k cmd : Nat) (r : Run) : Option (List Run) :=
  let n := r.beats / 64
  if r.beats % 64 ≠ 0 ∨ 16 < n ∨ !unitOk s r.pa ∨ (extentOf s r.part k (panTensor r) r.pa n).isNone then none
  else some ((List.range n).map fun i =>
    { r with kind := .unit cmd (panTensor r), pa := r.pa + i * unitBytes, beats := 64, data := (r.data.drop (4096 * i)).take 4096 })

/-- One access of a gradient command. -/
def gradCmd (add : Bool) (k cyc : Nat) (r : Run) (s : State) : State :=
  match extentOf s r.part k (panTensor r) r.pa 1 with
  | some t => gradUnit k cyc add t r r.pa (wordsOf 1024 r.data) s
  | none => panBad k cyc r s

/-! ### SCATTER_ADD (R226) -/

/-- The rows of a payload in order: index and values; none: the payload ends within a group. -/
def scatterRows (nc : Nat) : Nat → List Byte → Option (List (Nat × List Word))
  | 0, _ => none
  | fuel + 1, bs =>
    if bs.isEmpty then some []
    else
      let idx := (wordsOf 16 bs).map (·.toNat)
      let used := idx.filter (· != 0xFFFFFFFF)
      let rest := bs.drop 64
      let need := used.length * nc * 4
      if rest.length < need then none
      else
        let rows := (List.range used.length).map fun j => (used.getD j 0, wordsOf nc (rest.drop (4 * nc * j)))
        match scatterRows nc fuel (rest.drop need) with
        | none => none
        | some l => some (rows ++ l)

/-- The 32 values of a row that fall in a unit are added into line `q` of its gradient area. -/
def scatterUnit (k cyc : Nat) (r : Run) (pa q : Nat) (xs : List Word) (s : State) : State :=
  let u := unitNo pa
  if smGet false (getPan s k).swept u then takeFault (panFault k 0x28 clPlan cyc u r.part) s
  else match journal k pa true 0 s with
    | none => takeFault (panFault k 0x2B clPlan cyc u r.part) s
    | some s =>
      let b := flagByte s k u
      let s := if fW b then s else setFlag k u (mkFlag (fCnt b)) (wrMems s (pa + 4096) (List.replicate 4096 0#8))
      let s := updPan s k fun p => { p with src := smSet 0 p.src u (2 ^ 17) }
      let a := pa + 4096 + 128 * q
      wrMems s a (bytesOf (List.zipWith add32 (wordsOf 32 (rdMems s a 128)) xs))

/-- The extent that begins at an address (R226). -/
def extentAt (s : State) (part k tensor pa : Nat) : Option TensorE :=
  match extentOf s part k tensor pa 1 with
  | some t => if t.pa = pa then some t else none
  | none => none

/-- The accesses of one row, one a unit that it touches; an index beyond the extent has one without beats (R226). -/
def rowUnits (r : Run) (t : TensorE) (row : Nat × List Word) : List Run :=
  let w := t.nc / 32
  let u0 := row.1 / 32 * w
  if t.nunits ≤ u0 + w - 1 then [{ r with kind := .unit 2 (panTensor r), beats := 0, data := [] }]
  else (List.range w).map fun c =>
    { r with kind := .unit 2 (panTensor r), pa := t.pa + (u0 + c) * unitBytes, line := row.1 % 32, beats := 2,
             data := bytesOf ((row.2.drop (32 * c)).take 32) }

/-- The accesses of a scatter-add, in order of its rows (R226, R227); none: it is malformed. -/
def scatterUnits (s : State) (k : Nat) (r : Run) : Option (List Run) :=
  match extentAt s r.part k (panTensor r) r.pa with
  | none => none
  | some t =>
    if !tScatter t || t.nc == 0 then none
    else match scatterRows t.nc (r.beats + 1) r.data with
      | none => none
      | some rows => some (rows.flatMap (rowUnits r t))

/-- One access of a scatter-add (R226): an index beyond the extent is dropped with its values. -/
def scatterCmd (k cyc : Nat) (r : Run) (s : State) : State :=
  if r.beats = 0 then
    raise (E.PANTRY.SCATTER_RANGE k) (takeFault (panFault k 0x2C clLogged cyc (unitNo r.pa) r.part) s)
  else scatterUnit k cyc r r.pa r.line (wordsOf 32 r.data) s

/-! ### SWEEP (R234, R235, R237 to R241) -/

/-- Words 0 to 3 of a 128-bit register quantity. -/
def get128 (s : State) (f : Nat → Fld) : Nat :=
  getF s (f 0) + 2 ^ 32 * getF s (f 1) + 2 ^ 64 * getF s (f 2) + 2 ^ 96 * getF s (f 3)

def set128 (f : Nat → Fld) (v : Nat) (s : State) : State :=
  setFs s [(f 0, v), (f 1, v / 2 ^ 32), (f 2, v / 2 ^ 64), (f 3, v / 2 ^ 96)]

/-- Moments of a block as they decode (R222). -/
def momentsAt (s : State) (pa codes scales : Nat) (dec : Nat → Nat → Word) : List Word :=
  (List.range 1024).map fun i =>
    dec (rdMem s (pa + codes + i)).toNat (leNat (rdMems s (pa + scales + 2 * (i / 64)) 2))

/-- Write the moments of a unit, block by block (R220, R221, R241). -/
def writeMoments (code : List Word → Nat × List Nat) (pa codes scales : Nat) (xs : List Word) (s : State) : State :=
  (List.range 16).foldl (fun s b =>
    let e := code ((xs.drop (64 * b)).take 64)
    wrMems (wrMems s (pa + codes + 64 * b) (e.2.map fun c => BitVec.ofNat 8 c)) (pa + scales + 2 * b) (leBytes 2 e.1)) s

/-- Is a unit passed over: SKIP_UNWRITTEN and not written (R238)? -/
def passedOver (s : State) (k : Nat) (t : TensorE) (pa : Nat) : Bool :=
  tSkip t && !fW (flagByte s k (unitNo pa))

/-- An export of the tensor under way is torn (R245). -/
def tearExport (k tensor : Nat) (s : State) : State :=
  updPan s k fun p => match p.xfer with
    | some (false, t, c, a, _) => if t = tensor then { p with xfer := some (false, t, c, a, true) } else p
    | _ => p

/-- The write of a unit's working copy comes to its own channel when the unit's access ends (R227, R241). -/
def sendCopy (t : TensorE) (r : Run) (ws : List Word) (s : State) : State :=
  let bs := wcTile (tWc t) ws
  addRun { r with kind := .copy, pa := t.wcPa + (r.pa - t.pa) / unitBytes * tileBytes (wcDesc (tWc t)), data := bs,
                  beats := bs.length / 64, arr := (getChan s (chanOf r.pa)).freeAt } s

/-- The update of one unit (R238 to R241). -/
def sweepApply (k : Nat) (r : Run) (t : TensorE) (mseq : List Nat) (p : List Word) (clip : Word) (s : State) : State :=
  let pa := r.pa
  let w := masterAt s pa
  let g := if fW (flagByte s k (unitNo pa)) then gradAt s pa else List.replicate 1024 0#32
  let m := momentsAt s pa 8192 10240 decodeFirst
  let v := momentsAt s pa 9216 10272 decodeSecond
  let res := (List.range 1024).map fun i =>
    updElem t.alg mseq { p := p, clip := clip, w := w.getD i 0, g := mul32 (g.getD i 0) clip,
                         m := m.getD i 0, v := v.getD i 0 }
  let s := wrMems s pa (bytesOf (res.map fun e => e.1))
  let s := if algM t.alg then writeMoments codeFirst pa 8192 10240 (res.map fun e => e.2.1) s else s
  let s := if algV t.alg then writeMoments codeSecond pa 9216 10272 (res.map fun e => e.2.2) s else s
  let s := if tWc t = 0 then s else sendCopy t r (res.map fun e => e.1) s
  tearExport k t.tensor s

/-- The tick's sweeps cover a unit (R243). -/
def cover (k u : Nat) (s : State) : State := updPan s k fun p => { p with swept := smSet false p.swept u true }

/-- One unit of a sweep (R238, R243). -/
def sweepUnit (k cyc : Nat) (r : Run) (t : TensorE) (mseq : List Nat) (p : List Word) (clip : Word) (s : State) : State :=
  let u := unitNo r.pa
  let cnt := fCnt (flagByte s k u)
  if 0 < cnt ∧ cnt < t.mb then takeFault (panFault k 0x29 clPlan cyc u r.part) s
  else if passedOver s k t r.pa then s
  else match journal k r.pa false t.alg s with
    | none => takeFault (panFault k 0x2B clPlan cyc u r.part) s
    | some s => sweepApply k r t mseq p clip s

/-- Are the step's sweeps skipped (R235)? -/
def sweepSkipped (s : State) (k : Nat) : Bool :=
  flagF s (R.PAN_STA.GVALID k) && (flagF s (R.PAN_STA.GSAT k) || flagF s (R.PAN_STA.GNONFIN k)) &&
  !flagF s (R.PAN_OPT.NONFIN k)

/-- STEP_SKIPPED, recorded once per step (R235). -/
def noteSkip (k : Nat) (s : State) : State :=
  let s := setB s (R.PAN_STA.SKIPPED k) true
  if (getPan s k).skipRec then s
  else raise (E.PANTRY.STEP_SKIPPED k) (updPan s k fun p => { p with skipRec := true })

/-- PAN_HYPER_0 to 15 show the record (R237). -/
def showHyper (k : Nat) (p : List Word) (s : State) : State :=
  (List.range 16).foldl (fun s i => setF s (R.PAN_HYPER.P k i) (p.getD i 0).toNat) s

/-- Hyper record and unit count of a SWEEP: LEN = 0 and P14 from 1 to 65 535 (R237, Table 8.3). -/
def hyperOf (r : Run) : Option (List Word × Nat) :=
  let p := wordsOf 16 r.data
  let n := (p.getD 14 0).toNat
  if r.beats = 1 ∧ 1 ≤ n ∧ n ≤ 65535 then some (p, n) else none

/-- A SWEEP's hyper record, units and extent, when it is well formed (R237). -/
def sweepOf (s : State) (k : Nat) (r : Run) : Option (List Word × Nat × TensorE) :=
  match hyperOf r with
  | none => none
  | some (p, n) =>
    match extentOf s r.part k (panTensor r) r.pa n with
    | some t => if unitOk s r.pa then some (p, n, t) else none
    | none => none

/-- The accesses of a sweep, one a unit (R227, R237); none: it is malformed. -/
def sweepUnits (s : State) (k : Nat) (r : Run) : Option (List Run) :=
  match sweepOf s k r with
  | none => none
  | some (_, n, _) => some ((List.range n).map fun i => { r with kind := .unit 3 (panTensor r), pa := r.pa + i * unitBytes })

/-- The clip factor of a sweep (R234). -/
def sweepClip (s : State) (k : Nat) (t : TensorE) (p : List Word) : Word :=
  if tNorm t then clipFactor (get128 s (R.PAN_NORM_GLB.SUM k)) (flagF s (R.PAN_STA.GSAT k)) (p.getD 7 0) else one32

/-- One access of a sweep (R234 to R238). -/
def sweepCmd (k cyc : Nat) (r : Run) (s : State) : State :=
  let u := unitNo r.pa
  match extentOf s r.part k (panTensor r) r.pa 1 with
  | none => panBad k cyc r s
  | some t =>
    if srcOf s k u ≠ 0 then takeFault (panFault k 0x28 clPlan cyc u r.part) s
    else
      let s := cover k u s
      if sweepSkipped s k then noteSkip k s
      else if tNorm t && !flagF s (R.PAN_STA.GVALID k) then takeFault (panFault k 0x2A clPlan cyc u r.part) s
      else
        let p := wordsOf 16 r.data
        let c := sweepClip s k t p
        let s := setF (showHyper k p s) (R.PAN_CLIP.C k) c.toNat
        let s := raiseIf (decide (val32 c ≠ .nan ∧ rank32 c < rank32 one32)) (E.PANTRY.CLIPPED k) s
        let mseq := match panSec s r.part with | some q => q.mseq | none => []
        sweepUnit k cyc r t mseq p c s

/-! ### The accesses of a command (R227, Table 8.2) -/

/-- A Pantry command as its accesses, when its last beat arrives (R227); a malformed or reserved one stays whole. -/
def panUnits (s : State) (r : Run) : List Run :=
  let k := r.pa / 2 ^ 36
  match r.kind with
  | .pan cmd _ =>
    (if cmd = 0 ∨ cmd = 1 then gradUnits s k cmd r else if cmd = 2 then scatterUnits s k r
     else if cmd = 3 then sweepUnits s k r else none).getD [r]
  | _ => [r]

/-- Bytes that an access of a command reads and writes (Table 8.2); none of a unit passed over or a sweep skipped. -/
def panBytes (s : State) (r : Run) : Nat × Nat :=
  let k := r.pa / 2 ^ 36
  let w := fW (flagByte s k (unitNo r.pa))
  match r.kind with
  | .unit 0 _ => (0, 4096)
  | .unit 1 _ => (if w then 4096 else 0, 4096)
  | .unit 2 _ => if r.beats = 0 then (0, 0) else (4096, 4096)
  | .unit _ tn =>
    match extentOf s r.part k tn r.pa 1 with
    | none => (0, 0)
    | some t => if sweepSkipped s k || passedOver s k t r.pa then (0, 0) else (sweepR t.alg, sweepW t.alg)
  | _ => (0, 0)

/-- Byte times that a run or access takes its channel; none where it makes no access (R192, R227). -/
def accessOcc (s : State) (r : Run) : Nat :=
  if isPan r then (if panBytes s r = (0, 0) then 0 else panOcc (panBytes s r).1 (panBytes s r).2) else runOcc s r

/-! ### Service of a command by its channel (R227) -/

/-- Has a run arrived by a byte time of the tick (R193)? -/
def arrived (s : State) (bt : Nat) (r : Run) : Bool := r.tick != tickNum s || decide (r.arr ≤ bt)

/-- May a run start at a byte time (R193, R199, R213)? -/
def mayStart (s : State) (k c bt : Nat) (r : Run) : Bool :=
  arrived s bt r && clearOfWindows s k c bt (accessOcc s r) && !windowDue s k c bt && regulatorOk s k r.part bt (accessOcc s r)

/-- The run that starts next: a retry goes ahead of every run (R201); else the head of the queue, which holds the runs
behind it while it waits (R193). The regulator is no such wait: a secondary run that it holds holds the secondary runs
behind it, not the primary's (R213; log 18). -/
def nextRun (s : State) (k c bt : Nat) : Option Run :=
  let q := getChan s (chanKey k c)
  match q.retry with
  | some r => some r
  | none =>
    match q.queue with
    | [] => none
    | r :: rs =>
      if r.part = 0 ∨ regulatorOk s k r.part bt (accessOcc s r) then some r else rs.find? fun x => x.part == 0

/-- A run starts: the channel is its own until its occupancy ends (R192, R193). -/
def startRun (k c bt : Nat) (r : Run) (s : State) : State :=
  let occ := accessOcc s r
  takeTokens k r.part occ <| abortMargin k c <| updChan s (chanKey k c) fun q =>
    { q with
      cur := some r, start := bt, freeAt := bt + occ,
      queue := if q.retry.isSome then q.queue else dropRun r q.queue,
      retry := none }

/-- Does the code of a row serve the command: its own PCMD, or a reserved one (Table 6.6)? -/
def pcmdFor (want : Nat) (r : Run) : Bool :=
  match r.kind with
  | .pan cmd _ => cmd == want || decide (3 < cmd)
  | .unit cmd _ => cmd == want
  | _ => false

/-- The access leaves its queue. -/
def leaveQueue (ch : Nat) (r : Run) (s : State) : State := updChan s ch fun q => { q with queue := dropRun r q.queue }

/-- The access of a command takes its channel and has its effect once it has passed (R201, R204, R227); a malformed
command makes none. -/
def panAccess (k c : Nat) (sv : Served) (r : Run) (eff : Nat → Run → State → State) (s : State) : State :=
  let cyc := cycOfBt s sv.bt
  let s1 := leaveQueue (chanKey k c) r s
  match r.kind with
  | .unit _ _ =>
    if accessOcc s r = 0 then eff cyc r s1
    else
      let (s2, ok) := serveAccess k c (accessOcc s r) ((panBytes s r).1 != 0) r sv s1
      if ok then eff cyc r s2 else s2
  | _ => panBad k cyc r s1

/-- Serve the access of a command that starts next on a channel: `eff` its effect. -/
def panServe (want : Nat) (k : StackNo) (c : ChanNo) (sv : Served) (eff : Nat → Run → State → State) (s : State) :
    Host.Outcome State Fault Refusal :=
  .next <|
    match nextRun s k c sv.bt with
    | none => s
    | some r =>
      if s.tick.draining || (getChan s (chanKey k c)).retry.isSome || !pcmdFor want r || !chanFree s (chanKey k c) sv.bt ||
         !mayStart s k c sv.bt r then s
      else panAccess k c sv r eff s

/-- GRAD_WR (R223). -/
def execGradWr (k : StackNo) (c : ChanNo) (sv : Served) (s : State) : Host.Outcome State Fault Refusal :=
  panServe 0 k c sv (gradCmd false k) s

/-- GRAD_ADD (R224). -/
def execGradAdd (k : StackNo) (c : ChanNo) (sv : Served) (s : State) : Host.Outcome State Fault Refusal :=
  panServe 1 k c sv (gradCmd true k) s

/-- SCATTER_ADD (R226). -/
def execScatterAdd (k : StackNo) (c : ChanNo) (sv : Served) (s : State) : Host.Outcome State Fault Refusal :=
  panServe 2 k c sv (scatterCmd k) s

/-- SWEEP (R237). -/
def execSweep (k : StackNo) (c : ChanNo) (sv : Served) (s : State) : Host.Outcome State Fault Refusal :=
  panServe 3 k c sv (sweepCmd k) s

/-! ### Boundaries (R228, R232, R236, R243) -/

def allStacks : List Nat := List.range 12

/-- The norm accumulator is latched (R232). -/
def latchNorm (k : Nat) (s : State) : State :=
  let a := (getPan s k).norm
  set128 (R.PAN_NORM_ACC.SUM k) a.v s
  |> (fun s => setB s (R.PAN_STA.LSAT k) a.sat)
  |> (fun s => setB s (R.PAN_STA.LNONFIN k) a.nonfin)
  |> (fun s => updPan s k fun p => { p with norm := acc128z })
  |> raise (E.PANTRY.NORM_LATCHED k)

/-- The package's contribution: the exact saturating sum of the latched values, their flags joined (R232). -/
def hubNorm (s : State) : Acc128 :=
  allStacks.foldl (fun a k =>
    let r := sat128 a.v (get128 s (R.PAN_NORM_ACC.SUM k))
    { v := r.1, sat := a.sat || r.2 || flagF s (R.PAN_STA.LSAT k), nonfin := a.nonfin || flagF s (R.PAN_STA.LNONFIN k) })
    acc128z

/-- The global norm lands on every PANTRY page (R232). -/
def landNorm (a : Acc128) (s : State) : State :=
  allStacks.foldl (fun s k =>
    set128 (R.PAN_NORM_GLB.SUM k) a.v s
    |> (fun s => setB s (R.PAN_STA.GVALID k) true)
    |> (fun s => setB s (R.PAN_STA.GSAT k) a.sat)
    |> (fun s => setB s (R.PAN_STA.GNONFIN k) a.nonfin)
    |> raise (E.PANTRY.NORM_GLOBAL k)) s

/-- The totals clear where GNS_CLR was written (R236). -/
def clearGns (k : Nat) (s : State) : State :=
  if !(getPan s k).gnsClr then s
  else
    set128 (R.PAN_GNS_SMALL.SUM k) 0 s
    |> set128 (R.PAN_GNS_BIG.SUM k) 0
    |> (fun s => setFs s [(R.PAN_MB_COUNT.MB k, 0), (R.PAN_MB_COUNT.STEPS k, 0), (R.PAN_STA.GNS_SAT k, 0)])
    |> (fun s => updPan s k fun p => { p with gnsClr := false })

/-- The per-step accumulators enter the totals (R236). -/
def addGns (k mbatch : Nat) (s : State) : State :=
  if !flagF s (R.PAN_OPT.GNS_EN k) then s
  else
    let p := getPan s k
    let sm := sat128 (get128 s (R.PAN_GNS_SMALL.SUM k)) p.small.v
    let bg := sat128 (get128 s (R.PAN_GNS_BIG.SUM k)) p.big.v
    let sat := sm.2 || bg.2 || p.small.sat || p.big.sat
    let rose := sat && !flagF s (R.PAN_STA.GNS_SAT k)
    set128 (R.PAN_GNS_SMALL.SUM k) sm.1 s
    |> set128 (R.PAN_GNS_BIG.SUM k) bg.1
    |> (fun s => incSat s (R.PAN_MB_COUNT.MB k) mbatch)
    |> (fun s => incSat s (R.PAN_MB_COUNT.STEPS k) 1)
    |> (fun s => if sat then setB s (R.PAN_STA.GNS_SAT k) true else s)
    |> raiseIf rose (E.PANTRY.GNS_SAT k)

/-- What a Pantry does when the step advances (R218, R228, R232, R236). -/
def stepPan (k mbatch : Nat) (s : State) : State :=
  addGns k mbatch s
  |> (fun s => setFs s [(R.PAN_STA.GVALID k, 0), (R.PAN_STA.SKIPPED k, 0)])
  |> (fun s => updPan s k fun p => { p with flags := [], small := acc128z, big := acc128z, skipRec := false })

/-- PAN_STEP advances, on every page that shows it (R228, R229). -/
def stepAdvance (mbatch : Nat) (s : State) : State :=
  let n := trainStep s + 1
  allStacks.foldl (fun s k => stepPan k mbatch (setF s (R.PAN_STEP.STEP k) n)) s

/-- A tick closes: entries are released and the accumulators are copied (R243). -/
def closePan (k : Nat) (s : State) : State :=
  updPan (setF s (R.PAN_JOURNAL_USE.CUR k) 0) k fun p =>
    { p with journal := [], src := [], swept := [], norm0 := p.norm, small0 := p.small, big0 := p.big }

/-- The pre-images of a tick's entries stand again (R243): the entries stay as the tick's pre-images. -/
def restorePan (k : Nat) (s : State) : State :=
  let p := getPan s k
  let s := p.journal.foldl (fun s e =>
    setFlag k (unitNo e.pa) e.flag (e.pre.foldl (fun s w => wrMems s w.1 w.2) s)) s
  updPan s k fun p => { p with src := [], swept := [], norm := p.norm0, small := p.small0, big := p.big0 }

/-! ### Export and import (R245, R246) -/

/-- The extents of a tensor's shard in a stack, in order of FIRST_UNIT. -/
def shardOf (s : State) (k tensor : Nat) : List TensorE :=
  match panSec s 0 with
  | none => []
  | some q =>
    sortBy (fun a b => decide (a.first ≤ b.first)) (q.tensors.filter fun t => t.tensor == tensor && t.stack == k)

/-- Addresses of the shard's units, in order. -/
def shardUnits (l : List TensorE) : List Nat :=
  l.flatMap fun t => (List.range t.nunits).map fun i => t.pa + i * unitBytes

/-- Bytes per unit of a record's body. -/
def bodyBytes (content : Nat) : Nat :=
  4096 + (if bitsOf content 1 1 = 1 then 2112 else 0) + (if bitsOf content 2 1 = 1 then 4096 else 0)

/-- Do all bytes lie in owned cellar regions (Table 8.11)? -/
def inCellar (s : State) (pa n : Nat) : Bool :=
  spanOk s pa n &&
  (List.range ((pa + n - 1) / 2 ^ 28 + 1 - pa / 2 ^ 28)).all fun i =>
    let r := pa / 2 ^ 28 + i
    isCellar s (r / 256) (r % 256 / 8) && smGet 0 s.hif.owner r != 7 &&
    bitsOf (getF s (R.STK_MAPOUT.MAPPED (r / 256))) (r % 256 / 8) 1 == 0

/-- A transfer ends without success (Table 8.11). -/
def exportFail (k cause : Nat) (s : State) : State :=
  raise (E.PANTRY.EXPORT_FAIL k) <|
    setFs (updPan s k fun p => { p with xfer := none })
      [(R.PAN_EXP_STA.BUSY k, 0), (R.PAN_EXP_STA.DONE k, 0), (R.PAN_EXP_STA.FAIL k, 1), (R.PAN_EXP_STA.CAUSE k, cause)]

/-- A transfer ends. -/
def exportOk (k units : Nat) (s : State) : State :=
  raise (E.PANTRY.EXPORT_DONE k) <|
    setFs (updPan s k fun p => { p with xfer := none })
      [(R.PAN_EXP_STA.BUSY k, 0), (R.PAN_EXP_STA.DONE k, 1), (R.PAN_EXP_STA.FAIL k, 0), (R.PAN_EXP_STA.CAUSE k, 0),
       (R.PAN_EXP_STA.UNITS k, units)]

def expTensor (s : State) (k : Nat) : Nat := getF s (R.PAN_EXP_CTL.TENSOR k)
def expAddr (s : State) (k : Nat) : Nat := 256 * getF s (R.PAN_EXP_ADDR.ADDR k)

/-- GNS_CLR takes effect: the totals clear at the next boundary (R236). -/
def execGnsClr (k : StackNo) (s : State) : Host.Outcome State Fault Refusal :=
  .next (updPan s k fun p => { p with gnsClr := true })

end Sys2Proof.Machine
end

