-- ==== Sys2Proof/Machine/Channel.lean ====
section
/-! DEFINITION. A channel's rows: the arrival, start and end of its runs, host work in unplanned time, the transfers of
a Pantry, and margining steps (R193, R200 to R204, R212, R245, R246, R386, R387). -/

namespace Sys2Proof.Machine

/-! ### Arrival (R193, R227) -/

/-- The run that arrives next at a channel joins its queue, a Pantry command as its accesses. The queue takes 32; what it
does not take arrives when there is room (log 20). -/
def joinQueue (ch : Nat) (s : State) : State :=
  match nextArrival ch s.transit with
  | none => s
  | some r =>
    let us := panUnits s r
    let room := 32 - (getChan s ch).queue.length
    updChan { s with transit := us.drop room ++ dropRun r s.transit } ch fun q => { q with queue := q.queue ++ us.take room }

/-- A run or Pantry command arrives at its channel's controller; a full queue takes none (R193). -/
def execRunRequest (k : StackNo) (c : ChanNo) (s : State) : Host.Outcome State Fault Refusal :=
  .next (if 32 ≤ (getChan s (chanKey k c)).queue.length then s else joinQueue (chanKey k c) s)

/-! ### Unplanned time (R200) -/

/-- May unplanned work take a channel from a byte time: while a tick runs only between D and V, ending by V, clear of
windows and behind the make-ups (R197, R200)? -/
def unplanned (s : State) (k c bt occ : Nat) : Bool :=
  !running s ||
  (s.tick.atD && !s.tick.atV && debt s (chanKey k c) == 0 && clearOfWindows s k c bt occ && !windowDue s k c bt &&
   decide (10 * (bt + occ) ≤ 768 * (closeOffset s - 1000)))

/-! ### Host work (R386, R387) -/

def getJob (s : State) (j : Nat) : Option HostJob := smGet none s.hif.jobs j
def setJob (j : Nat) (q : Option HostJob) (s : State) : State :=
  { s with hif := { s.hif with jobs := smSet none s.hif.jobs j q } }

/-- Host work of DMA channels, of exports and imports by stack, and of plan loads by function. -/
def expJob (k : Nat) : Nat := 16 + k
def loadJob (f : Nat) : Nat := 28 + f

/-- Host work is accepted, behind all that waits (R200). -/
def newJob (j : Nat) (q : HostJob) (s : State) : State :=
  setJob j (some { q with order := s.hif.accepted }) { s with hif := { s.hif with accepted := s.hif.accepted + 1 } }

def job0 : HostJob := { order := 0, part := 0, haddr := 0, todo := [], got := [], head := [], tries := 0, phase := 0, fault := 0 }

/-- A read of the package. -/
def readAcc (pa n : Nat) : HostAcc := { pa := pa, len := n, wr := false, data := [] }

/-- A write of bytes that stand already. -/
def writeAcc (pa : Nat) (bs : List Byte) : HostAcc := { pa := pa, len := bs.length, wr := true, data := bs }

/-- The longest run of host work (R386). -/
def hostLimit (s : State) : Nat :=
  if running s then min 65536 (((getF s R.TICK_GUARD.GUARD - 1000) * 768 - 1310) / 2560 * 256) else 65536

/-- Bytes of the next run: within one channel (R386). -/
def hostLen (s : State) (a : HostAcc) : Nat := min (min a.len (hostLimit s)) (2 ^ 31 - a.pa % 2 ^ 31)

/-- The next run of a piece of host work; `host`: what host memory returns (R386). -/
def hostRun (s : State) (j : Nat) (host : List Byte) (q : HostJob) (a : HostAcc) : Run :=
  { kind := .host j a.wr, pa := a.pa, beats := ceilDiv (hostLen s a) 64, tick := tickNum s, seq := 0, core := 0, line := 0,
    cnt := 0, sem := 0, bank := 0, hinge := none,
    data := if !a.wr then [] else (if j < 16 then host else a.data).take (hostLen s a),
    part := q.part, retries := q.tries, arr := 0 }

/-- Is a run of the host work in service on a channel? -/
def hostServed (s : State) (ch j : Nat) : Bool :=
  match (getChan s ch).cur with
  | some r => r.kind == .host j true || r.kind == .host j false
  | none => false

/-- The host work that may take a channel at a byte time: its number, retries, place in the order, and next run. -/
def hostReady (s : State) (k c bt : Nat) (host : List Byte) : List (Nat × HostJob × Run) :=
  (List.range 32).filterMap fun j =>
    match getJob s j with
    | none => none
    | some q =>
      match q.todo with
      | [] => none
      | a :: _ =>
        let r := hostRun s j host q a
        if q.fault = 0 ∧ chanOf a.pa = chanKey k c ∧ !hostServed s (chanKey k c) j ∧ unplanned s k c bt (runOcc s r) then some (j, q, r)
        else none

/-- Goes one before another: a retry before every other run, else in order of acceptance (R200, R201). -/
def hostBefore (x y : Nat × HostJob × Run) : Bool :=
  (decide (0 < x.2.1.tries) && y.2.1.tries == 0) || (decide (0 < x.2.1.tries) == decide (0 < y.2.1.tries) && decide (x.2.1.order < y.2.1.order))

/-- The host run that goes first on a channel at a byte time. -/
def hostFirst (s : State) (k c bt : Nat) (host : List Byte) : Option (Nat × HostJob × Run) :=
  match hostReady s k c bt host with
  | [] => none
  | x :: l => some (l.foldl (fun b y => if hostBefore y b then y else b) x)

/-- Does a guest request accepted before a place in the order take the channel first (R200)? -/
def guestFirst (s : State) (k c bt order : Nat) : Bool :=
  s.guest.reqs.any fun q => chanOf q.addr == chanKey k c && decide (q.order < order) && unplanned s k c bt (occOf (64 * q.len))

/-- Host memory returned too little for a DMA write (Table 14.7). -/
def hostShort (s : State) (j : Nat) (q : HostJob) (r : Run) : Bool :=
  decide (j < 16) && (match q.todo with | a :: _ => a.wr && decide (r.data.length < hostLen s a) | [] => false)

/-- A run of host work starts, if one may (R200, R386). -/
def startHost (k c bt : Nat) (host : List Byte) (s : State) : State :=
  match hostFirst s k c bt host with
  | none => s
  | some (j, q, r) =>
    if q.tries = 0 ∧ guestFirst s k c bt q.order then s
    else if hostShort s j q r then setJob j (some { q with fault := 1 }) s
    else abortMargin k c (updChan s (chanKey k c) fun x => { x with cur := some r, start := bt, freeAt := bt + runOcc s r })

/-- A planned run or a retry starts; where none may, one of host work (R193, R200, R201, R213). -/
def execRunStart (k : StackNo) (c : ChanNo) (bt : Nat) (host : List Byte) (s : State) : Host.Outcome State Fault Refusal :=
  .next <|
    if s.tick.draining || !chanFree s (chanKey k c) bt then s
    else match nextRun s k c bt with
      | none => startHost k c bt host s
      | some r =>
        if !mayStart s k c bt r then startHost k c bt host s
        else if isPan r then s
        else
          let s := startRun k c bt r s
          if feedsCore r r.core then lapse r.core (cycOfBt s bt) s else s

/-! ### Export and import (R245, R246) -/

/-- The first 60 bytes of the shard record (Table 8.9). -/
def recordHead (s : State) (content step n : Nat) (t : TensorE) : List Byte :=
  [0x4D#8, 0x51#8, 0x53#8, 0x48#8] ++ leBytes 2 1 ++ leBytes 2 t.tensor ++ leBytes 4 t.r0 ++ leBytes 4 t.c0 ++
    leBytes 4 t.nr ++ leBytes 4 t.nc ++ leBytes 4 t.tr ++ leBytes 4 t.tc ++ leBytes 1 0 ++ leBytes 1 content ++
    leBytes 1 1 ++ leBytes 1 0 ++ leBytes 4 step ++ leBytes 8 n ++ leBytes 1 t.alg ++
    leBytes 1 (getF s R.TOP_NUMID_HI.PANQ_REV) ++ leBytes 10 0

/-- The record of a head and a body (Table 8.9). -/
def shardRecord (h body : List Byte) : List Byte := h ++ leBytes 4 (crc32c (h ++ body)) ++ body

/-- The reads of an export: of each unit in order what the record carries of it (Table 8.9). -/
def exportReads (content : Nat) (units : List Nat) : List HostAcc :=
  units.flatMap fun pa =>
    [readAcc pa 4096] ++ (if bitsOf content 1 1 = 1 then [readAcc (pa + 8192) 2112] else []) ++
    (if bitsOf content 2 1 = 1 then [readAcc (pa + 4096) 4096] else [])

/-- The work of a transfer that begins. -/
def exportJob (s : State) (dir : Bool) (k content : Nat) (t : TensorE) (units : List Nat) : HostJob :=
  if dir then { job0 with todo := [readAcc (expAddr s k) 64] }
  else { job0 with todo := exportReads content units,
                   head := recordHead s content (trainStep s) (units.length * bodyBytes content) t }

/-- A transfer begins (R245, R246), or is refused at once. -/
def exportStart (dir : Bool) (k : Nat) (s : State) : State :=
  let tn := expTensor s k
  let content := 1 + 2 * getF s (R.PAN_EXP_CTL.MOM k) + (if dir then 0 else 4 * getF s (R.PAN_EXP_CTL.GRAD k))
  if flagF s (R.PAN_EXP_STA.BUSY k) then s
  else if dir && running s then exportFail k 5 s
  else match shardOf s k tn with
  | [] => exportFail k 6 s
  | t :: l =>
    let units := shardUnits (t :: l)
    let bytes := if dir then 64 else 64 + units.length * bodyBytes content
    if units.isEmpty then exportFail k 6 s
    else if !inCellar s (expAddr s k) bytes then exportFail k 4 s
    else
      setFs (newJob (expJob k) (exportJob s dir k content t units)
          (updPan s k fun p => { p with xfer := some (dir, tn, content, expAddr s k, false) }))
        [(R.PAN_EXP_STA.BUSY k, 1), (R.PAN_EXP_STA.DONE k, 0), (R.PAN_EXP_STA.FAIL k, 0),
         (R.PAN_EXP_STA.CAUSE k, 0), (R.PAN_EXP_STA.UNITS k, 0)]

/-- Export START (R245). -/
def execPanExport (k : StackNo) (s : State) : Host.Outcome State Fault Refusal := .next (exportStart false k s)

/-- Import START (R246). -/
def execPanImport (k : StackNo) (s : State) : Host.Outcome State Fault Refusal := .next (exportStart true k s)

def field (bs : List Byte) (off n : Nat) : Nat := leNat ((bs.drop off).take n)

/-- Cause for which an import fails its checks, if any (R246). -/
def importCheck (h body : List Byte) (t : TensorE) (nunits : Nat) : Option Nat :=
  if field h 0 4 ≠ 0x4853514D ∨ field h 4 2 ≠ 1 ∨ field h 40 8 ≠ nunits * bodyBytes (field h 33 1) ∨
     field h 60 4 ≠ crc32c (h.take 60 ++ body) then some 2
  else if field h 6 2 ≠ t.tensor ∨ field h 8 4 ≠ t.r0 ∨ field h 12 4 ≠ t.c0 ∨ field h 16 4 ≠ t.nr ∨
     field h 20 4 ≠ t.nc then some 3
  else none

/-- The writes of an imported unit (R246): master values, gradient area, moments. -/
def importWrites (content pa : Nat) (bs : List Byte) : List HostAcc :=
  [writeAcc pa (bs.take 4096), writeAcc (pa + 4096) (List.replicate 4096 0#8),
   writeAcc (pa + 8192) (if bitsOf content 1 1 = 1 then (bs.drop 4096).take 2112 else List.replicate 2112 0#8)]

/-- The writes of an import, unit by unit. -/
def importAll (content : Nat) : List Nat → List Byte → List HostAcc
  | [], _ => []
  | pa :: pas, bs => importWrites content pa bs ++ importAll content pas (bs.drop (bodyBytes content))

/-- Why an import ends without success, at a stage of its reading. -/
def failJob (q : HostJob) (cause : Nat) : HostJob := { q with todo := [], fault := cause }

/-- What an import does when the reads of its stage are done (R246). -/
def importStage (s : State) (pa : Nat) (t : TensorE) (units : List Nat) (q : HostJob) : HostJob :=
  if q.phase = 0 then
    let n := units.length * bodyBytes (field q.got 33 1)
    if !inCellar s pa (64 + n) then failJob q 4
    else { q with todo := [readAcc (pa + 64) n], head := q.got, got := [], phase := 1 }
  else match importCheck q.head q.got t units.length with
    | some cause => failJob q cause
    | none => { q with todo := importAll (field q.head 33 1) units q.got, got := [], phase := 2 }

/-- What a transfer does when its last access of a stage is done: an export writes its record, unless it is torn. -/
def exportStage (s : State) (k : Nat) (q : HostJob) : HostJob :=
  match (getPan s k).xfer with
  | none => q
  | some (dir, tensor, _, pa, torn) =>
    match shardOf s k tensor with
    | [] => failJob q 6
    | t :: l =>
      if dir then (if q.phase < 2 then importStage s pa t (shardUnits (t :: l)) q else q)
      else if q.phase = 0 then
        { q with todo := if torn then [] else [writeAcc pa (shardRecord q.head q.got)], got := [], phase := 1 }
      else q

/-- Has a transfer no more to do? -/
def exportOver (dir : Bool) (q : HostJob) : Bool :=
  q.fault != 0 || (q.todo.isEmpty && q.phase == (if dir then 2 else 1))

/-- A transfer ends with success: an import has cleared the flag bytes of its units (R246). -/
def exportEnd (dir torn : Bool) (k : Nat) (units : List Nat) (s : State) : State :=
  if torn then exportFail k 1 s
  else exportOk k units.length (if dir then units.foldl (fun s pa => setFlag k (unitNo pa) 0 s) s else s)

/-- A transfer's accesses have been served, or one of them failed (R245, R246). -/
def execExportDone (k : StackNo) (s : State) : Host.Outcome State Fault Refusal :=
  .next <|
    match (getPan s k).xfer, getJob s (expJob k) with
    | some (dir, tensor, _, _, torn), some q =>
      if !exportOver dir q then s
      else
        let t := setJob (expJob k) none s
        if q.fault ≠ 0 then exportFail k q.fault t else exportEnd dir torn k (shardUnits (shardOf s k tensor)) t
    | _, _ => s

/-! ### The end of a run of host work (R202, R387) -/

/-- The front of a list of accesses is done for `n` bytes. -/
def advance (n : Nat) : List HostAcc → List HostAcc
  | [] => []
  | a :: l => if a.len ≤ n then l else { a with pa := a.pa + n, len := a.len - n, data := a.data.drop n } :: l

/-- A run has passed: its bytes have moved (R387). -/
def hostMoved (j : Nat) (r : Run) (s : State) : State :=
  match getJob s j with
  | none => s
  | some q =>
    let n := match q.todo with | a :: _ => if a.wr then r.data.length else min a.len (64 * r.beats) | [] => 0
    let data := rdMems s r.pa n
    let s := if isWrite r.kind then serveWrite r.pa r.data s
      else if j < 16 then { s with out := { s.out with host := smSetList 0 s.out.host q.haddr data } } else s
    let q := { q with todo := advance n q.todo, tries := 0, haddr := if j < 16 then q.haddr + n else q.haddr,
                      got := if 16 ≤ j ∧ j < 28 ∧ !isWrite r.kind then q.got ++ data else q.got }
    setJob j (some (if q.todo.isEmpty ∧ 16 ≤ j ∧ j < 28 then exportStage s (j - 16) q else q)) s

/-- A run has failed for good: with no tick its work fails (R202); in a tick, which is voided, it is made again later
(log 125). `idle`: no tick ran. -/
def hostLost (j : Nat) (idle : Bool) (s : State) : State :=
  match getJob s j with
  | none => s
  | some q => setJob j (some (if idle then { q with fault := if j < 16 then 1 else 2 } else { q with tries := 0 })) s

/-- Parity failed on a run of host work: it is retried or has failed (R201, R202). -/
def hostParity (k c j : Nat) (r : Run) (s : State) : State :=
  let ch := chanKey k c
  let occ := runOcc s r
  let idle := !running s
  if r.retries ≥ 3 then hostLost j idle (runFailed k c true r s)
  else if !idle ∧ (getChan s ch).retryOcc + occ > resv s k then hostLost j idle (runFailed k c false r s)
  else
    let s := countRetry k c r (updChan s ch fun x => { x with retryOcc := x.retryOcc + occ })
    match getJob s j with
    | none => s
    | some q => setJob j (some { q with tries := r.retries + 1 }) s

/-- What the end of a host run's occupancy brings (R201, R204). -/
def hostOutcome (k c j : Nat) (r : Run) (parity : Bool) (ecc : EccOut) (cyc : Nat) (s : State) : State :=
  let idle := !running s
  match ecc with
  | .laneLost lane => hostLost j idle (laneLost k c lane cyc r.pa s)
  | .uncorrectable =>
    if parity then hostParity k c j r s
    else if isRead r then hostLost j idle (eccLost k c cyc r.pa r.part s)
    else hostMoved j r s
  | .corrected =>
    if parity then hostParity k c j r s
    else if isRead r then hostMoved j r (eccCorrected k c cyc r.pa s)
    else hostMoved j r s
  | .clean => if parity then hostParity k c j r s else hostMoved j r s

/-- The occupancy of the run being served ends (R201, R204); with it the inbound transfer that it was (R105). -/
def execRunEnd (k : StackNo) (c : ChanNo) (parity : Bool) (ecc : EccOut) (acc : List LsAcc) (lost : List LineLoss)
    (s : State) : Host.Outcome State Fault Refusal :=
  .next <|
    let ch := chanKey k c
    match (getChan s ch).cur with
    | none => s
    | some r =>
      let cyc := cycOfBt s (getChan s ch).freeAt
      let s := updChan s ch fun q => { q with cur := none }
      match r.kind with
      | .host j _ => hostOutcome k c j r parity ecc cyc s
      | _ => runOutcome k c r parity ecc acc lost cyc (if feedsCore r r.core then endInbound r.core cyc s else s)

/-! ### Margining steps (R200, R212) -/

/-- May a margining step begin: while a tick runs, only between D and V and behind make-ups, guest requests and host work
(R200, R212)? -/
def marginOpen (s : State) (k bt : Nat) : Bool :=
  let c := getF s (R.STK_MARGIN_CTL.CHAN k)
  (getStk s k).margin && chanFree s (chanKey k c) bt &&
  (!running s || (s.tick.atD && !s.tick.atV && debt s (chanKey k c) == 0)) &&
  (hostFirst s k c bt []).isNone && !guestFirst s k c bt s.hif.accepted

/-- A margining step (R212). -/
def execMarginStep (k : StackNo) (bt : Nat) (fin : Option (Nat × Nat)) (s : State) :
    Host.Outcome State Fault Refusal :=
  .next <|
    if !marginOpen s k bt then s
    else match fin with
      | some (low, high) => marginDone k low high s
      | none => setB (updStk s k fun q => { q with stepOn := true }) (R.STK_MARGIN_RES.ABORTED k) false

end Sys2Proof.Machine
end

