-- ==== Sys2Proof/Machine/Port.lean ====
section
/-! DEFINITION. The ports: sequence numbers, acknowledgement, go-back replay, retraining, light,
hot rebinding, identity and the slots of an egress (R249 to R269). -/

namespace Sys2Proof.Machine

/-! ### Dropped frames (R270, R378, R379) -/

/-- Partition of a frame by its SEQ: with slots granted to a secondary, SEQ from 0xC000 up (R378). -/
def framePart (s : State) (seq : Nat) : Nat :=
  if [1, 2, 3].any (fun n => getF s (R.PART_FAB.COUNT n) != 0) && decide (0xC000 ≤ seq) then
    min 3 (seq / 2 ^ 12 % 4 + 1)
  else 0

/-- A frame is dropped: counted, reported, and its source's tick is voided (R270, R32; log 22). -/
def dropFrame (full : Bool) (f : Frame) (s : State) : State :=
  incSat s R.HALL_LAND_ERR.MISROUTE 1
  |> raise (if full then E.HALL.LAND_FULL else E.HALL.MISROUTE)
  |> sourceFault (mkFault 0x3C clVoid uPkg 0 0 f.src) [(f.src, f.tick)]

/-! ### Acknowledgement and go-back replay (R255 to R258) -/

/-- Distance of sequence numbers, mod 4 096. -/
def lseqDist (a b : Nat) : Nat := subMod 12 a b

/-- LSEQ of the oldest held frame. -/
def oldest (q : Port) : Nat := match q.held with | (f, _) :: _ => f.lseq | [] => q.lseq

/-- Is an ACK valid (R257)? -/
def ackValid (q : Port) (a : Nat) : Bool := decide (lseqDist a (oldest q) ≤ q.held.length)

/-- A valid ACK frees every held frame before a (R257). -/
def freeHeld (a : Nat) (q : Port) : Port :=
  let q' := { q with held := q.held.drop (lseqDist a (oldest q)) }
  match q.goback with
  | some g => if q'.held.any fun h => h.1.lseq == g then q'
              else { q' with goback := match q'.held with | (f, _) :: _ => some f.lseq | [] => none }
  | none => q'

/-! ### Going down, rebinding, retraining (R259, R260, R269) -/

/-- A port fails with nothing to carry its traffic: the package fences it and drains (R260). -/
def portFault (p : Nat) (s : State) : State :=
  takeFault (mkFault 0x3A clHard uPort p 0 0) s

/-- Marks of a port that is down. -/
def markDown (p : Nat) (s : State) : State :=
  raise (E.PORCH.PORT_DOWN p)
    (setFs s [(R.PORT_STA.DOWN p, 1), (R.PORT_STA.UP p, 0), (R.PORT_STA.ACTIVE p, 0)])

/-- The number that the port's frames carry as PORT: 2 bytes, the receive state e (log 23). -/
def rebindFrame (s : State) (kind e : Nat) : Frame := ctrlFrame s kind 0 1 (leBytes 2 e)

/-- The Hall stops k and sends REBIND on its duplicate j (R269 step 1). -/
def startRebind (k j : Nat) (s : State) : State :=
  let s := setFs s [(R.PORT_STA.DOWN k, 1), (R.PORT_STA.UP k, 0), (R.PORT_STA.ACTIVE k, 0)]
  let s := updPort s k fun q => { q with rebinding := true, goback := none }
  queueCtrl j (rebindFrame s 2 (getPort s k).e) s

/-- Does the port carry planned traffic: a usable dimension port, or a duplicate in use (R260, R268)? -/
def inService (s : State) (p : Nat) : Bool :=
  flagF s (R.PORT_STA.USABLE p) && !flagF s (R.PORT_STA.DOWN p) &&
  (getF s (R.PORT_BIND.ROLE p) == 1 || (getF s (R.PORT_BIND.ROLE p) == 2 && flagF s (R.PORT_STA.ACTIVE p)))

/-- A port goes down (R260): it rebinds to a usable duplicate, or is fenced and the package drains. An
idle duplicate becomes unusable (R268); a port in no service only goes down. -/
def portDown (p : Nat) (s : State) : State :=
  if flagF s (R.PORT_STA.DOWN p) then s
  else if !inService s p then
    let dup := getF s (R.PORT_BIND.ROLE p) == 2 && flagF s (R.PORT_STA.USABLE p)
    raiseIf dup (E.PORCH.DUP_LOST p) (setB (markDown p s) (R.PORT_STA.USABLE p) false)
  else if getF s (R.PORT_BIND.ROLE p) = 1 then
    match usableDup s p with
    | some j => raise (E.PORCH.PORT_DOWN p) (startRebind p j s)
    | none => portFault p (markDown p s)
  else portFault p (markDown p s)

/-- The distinct sources and ticks of held frames. -/
def heldSources (q : Port) : List (Nat × Nat) := (q.held.map fun h => (h.1.src, h.1.tick)).dedup

/-- What both ends of a retrain do (R259 steps 2 to 5). -/
def retrainReset (p : Nat) (s : State) : State :=
  let lost := heldSources (getPort s p)
  let s := updPort s p fun q =>
    { q with lseq := 0, e := 0, held := [], goback := none, nakNext := false, gap := false }
  let s := raise (E.PORCH.RETRAIN p) (incSat s (R.PORT_REPLAY_CNT.RETRAINS p) 1)
  if lost.isEmpty then s
  else sourceFault (mkFault 0x39 clVoid uPort p 0 0) lost (raise (E.PORCH.FLITS_LOST p) s)

/-- Was the last retrain less than 1 ms ago (R260)? -/
def retrainedLately (s : State) (p : Nat) : Bool :=
  match (getPort s p).lastRetrain with
  | some t => decide (s.counter < t + 1000000)
  | none => false

/-- A frame would be sent for the fifth time: rebind, go down, or retrain (R259, R260). -/
def escalate (p : Nat) (s : State) : State :=
  match (if getF s (R.PORT_BIND.ROLE p) = 1 then usableDup s p else none) with
  | some j => startRebind p j s
  | none =>
    if retrainedLately s p then portDown p s
    else retrainReset p (updPort s p fun q => { q with retraining := true, lastRetrain := some s.counter })

/-- A go-back replay from a held frame (R257 to R259). -/
def startGoback (p a : Nat) (s : State) : State :=
  match (getPort s p).held.find? fun h => h.1.lseq == a with
  | none => s
  | some h =>
    if 4 ≤ h.2 then escalate p s
    else incSat (updPort s p fun q => { q with goback := some a }) (R.PORT_REPLAY_CNT.REPLAYS p) 1

/-- The ACK of a frame that passed its CRC (R257). -/
def takeAck (p : Nat) (f : Frame) (s : State) : State :=
  if !f.ackv || !ackValid (getPort s p) f.ack then s
  else
    let s := updPort s p (freeHeld f.ack)
    if f.nak then startGoback p f.ack s else s

/-- The link rule of a sequenced frame (R256): whether it is accepted, and the port after. -/
def takeSeq (f : Frame) (q : Port) : Bool × Port :=
  let d := lseqDist f.lseq q.e
  if d = 0 then (true, { q with e := (q.e + 1) % 4096, gap := false })
  else if d < 0x800 then (false, if q.gap then q else { q with gap := true, nakNext := true })
  else (false, q)

/-- 1 µs without the expected frame: NAK again (R256). -/
def execNakTimeout (p : PortNo) (s : State) : Host.Outcome State Fault Refusal :=
  .next (updPort s p fun q => if q.gap then { q with nakNext := true } else q)

/-- The oldest held frame has neither been acknowledged nor resent for 1 µs (R257). -/
def execReplayTimeout (p : PortNo) (s : State) : Host.Outcome State Fault Refusal :=
  .next <|
    let q := getPort s p
    if q.held.isEmpty || q.goback.isSome || q.retraining then s
    else startGoback p (oldest q) (incSat s (R.PORT_REPLAY_CNT.TIMEOUTS p) 1)

/-- The fibre pair is trained again (R259): of a retrain that the other end began, this end's part follows now. -/
def execRetrainDone (p : PortNo) (s : State) : Host.Outcome State Fault Refusal :=
  .next <|
    if flagF s (R.PORT_STA.DOWN p) then s
    else if (getPort s p).retraining then updPort s p fun q => { q with retraining := false }
    else if retrainedLately s p then portDown p s
    else retrainReset p (updPort s p fun q => { q with lastRetrain := some s.counter })

/-- A retrain has not completed within 4 µs (R260). -/
def execRetrainTimeout (p : PortNo) (s : State) : Host.Outcome State Fault Refusal :=
  .next (if (getPort s p).retraining then portDown p (updPort s p fun q => { q with retraining := false }) else s)

/-- No light for 100 ns (R260). -/
def execLossOfLight (p : PortNo) (s : State) : Host.Outcome State Fault Refusal :=
  .next (portDown p (updPort s p fun q => { q with light := false }))

/-- No light for 1 ms: the laser goes to its safe bursts (Table 9.9). -/
def execLaserSafe (p : PortNo) (s : State) : Host.Outcome State Fault Refusal :=
  .next (if flagF s (R.PORT_LASER.SAFE p) then s
         else raise (E.PORCH.LASER_SAFE p) (setB s (R.PORT_LASER.SAFE p) true))

/-- Light returns (Table 9.9). -/
def execLightReturns (p : PortNo) (s : State) : Host.Outcome State Fault Refusal :=
  .next (setB (updPort s p fun q => { q with light := true }) (R.PORT_LASER.SAFE p) false)

/-- PORT_LASER.EN takes a value: cleared on an active port it counts as a loss of light (R260). -/
def laserPut (p : Nat) (en : Bool) (s : State) : State :=
  let act := flagF s (R.PORT_STA.ACTIVE p)
  let s := setB (setB s (R.PORT_LASER.EN p) en) (R.PORT_LASER.ON p) en
  if !en && act then portDown p s else s

/-- A write of PORT_LASER.EN; the field is Kept (R364). -/
def laserWrite (p : Nat) (en : Bool) (s : State) : State :=
  queueRec (recSettings (0x20 + p / 4)) (laserPut p en s)

/-- PORT_LASER.EN is written (R260). -/
def execPortLaserWrite (p : PortNo) (en : Bool) (s : State) : Host.Outcome State Fault Refusal :=
  .next (laserWrite p en s)

/-! ### Rebinding (R269) -/

/-- Port k that a duplicate stands for. -/
def dupTarget (s : State) (j : Nat) : Nat := getF s (R.PORT_BIND.DUPOF j)

/-- Is j the duplicate of its k, in use or usable? -/
def isDup (s : State) (j : Nat) : Bool :=
  getF s (R.PORT_BIND.ROLE j) == 2 && dupOf s (dupTarget s j) == some j && flagF s (R.PORT_STA.USABLE j)

/-- The link of k moves to j: numbers, held and waiting frames; a go-back replay starts from the other
end's e (R269 step 3). -/
def moveLink (k j peerE : Nat) (s : State) : State :=
  let q := getPort s k
  let s := updPort s j fun r =>
    { r with lseq := q.lseq, e := q.e, held := q.held, gap := q.gap, nakNext := q.nakNext,
             syncQ := q.syncQ ++ r.syncQ, planned := q.planned }
  let s := updPort s k fun r =>
    { r with held := [], goback := none, syncQ := [], planned := [], rebinding := false, retraining := false }
  let s := setFs s [(R.PORT_STA.DOWN k, 1), (R.PORT_STA.UP k, 0), (R.PORT_STA.ACTIVE k, 0),
                    (R.PORT_STA.REBOUND k, 1), (R.PORT_STA.ACTIVE j, 1), (R.PORT_STA.NOWFOR j, k)]
  let s := updPort s j (freeHeld peerE)
  let s := startGoback j peerE s
  logOnly 0x3B uPort k 0 j (raise (E.PORCH.REBOUND k) s)

/-- A REBIND is received on a duplicate: both directions of the link move and REBIND_ACK answers (R269 step 2). -/
def rebindRx (j e : Nat) (s : State) : State :=
  let k := dupTarget s j
  if !isDup s j then s
  else if flagF s (R.PORT_STA.ACTIVE j) then
    if getF s (R.PORT_STA.NOWFOR j) = k then queueCtrl j (rebindFrame s 3 (getPort s j).e) s else s
  else
    let own := (getPort s k).e
    moveLink k j e (queueCtrl j (rebindFrame s 3 own) s)

/-- REBIND (R269). -/
def execRebind (p : PortNo) (e : Nat) (s : State) : Host.Outcome State Fault Refusal := .next (rebindRx p e s)

/-- REBIND_ACK arrives on the duplicate (R269 step 3). -/
def rebindAckRx (j e : Nat) (s : State) : State :=
  let k := dupTarget s j
  if isDup s j && (getPort s k).rebinding then moveLink k j e s else s

/-- REBIND_ACK (R269). -/
def execRebindAck (p : PortNo) (e : Nat) (s : State) : Host.Outcome State Fault Refusal := .next (rebindAckRx p e s)

/-- 100 ns without REBIND_ACK: REBIND again on the duplicate of p (R269 step 1). -/
def execRebindRepeat (p : PortNo) (s : State) : Host.Outcome State Fault Refusal :=
  .next <|
    if !(getPort s p).rebinding then s
    else match dupOf s p with
      | some j => queueCtrl j (rebindFrame s 2 (getPort s p).e) s
      | none => s

/-- 20 µs without REBIND_ACK: p is down with no duplicate (R269). -/
def execRebindTimeout (p : PortNo) (s : State) : Host.Outcome State Fault Refusal :=
  .next (if (getPort s p).rebinding then portFault p (updPort s p fun q => { q with rebinding := false }) else s)

/-! ### Identity (R266, R267) -/

/-- PORT_BIND as a word. -/
def bindWord (s : State) (p : Nat) : Nat :=
  getF s (R.PORT_BIND.ROLE p) + 2 ^ 2 * getF s (R.PORT_BIND.DIM p) + 2 ^ 4 * getF s (R.PORT_BIND.PEERC p) +
  2 ^ 8 * getF s (R.PORT_BIND.DUPOF p)

/-- HEARD of a port: package and port, or 0xFFFF (R266). -/
def heardOf (s : State) (p : Nat) : Nat × Nat :=
  match (getPort s p).heard with
  | some l => (l.getD 0 0, l.getD 1 0)
  | none => (0xFFFF, 0xFFFF)

/-- Payload of an IDENT in the order in which R266 names its fields: package 2 bytes, port 2, serial 8,
PORT_BIND 4, HEARD 2 and 2 (log 23). -/
def identPayload (s : State) (p : Nat) : List Byte :=
  leBytes 2 (myId s) ++ leBytes 2 p ++ leBytes 8 s.fuse.serial ++ leBytes 4 (bindWord s p) ++
  leBytes 2 (heardOf s p).1 ++ leBytes 2 (heardOf s p).2

/-- The message of such a payload. -/
def identOf (bs : List Byte) : IdentMsg :=
  let f := fun off n => leNat ((bs.drop off).take n)
  { pkg := f 0 2, port := f 2 2, serial := f 4 8, bind := f 12 4, heardPkg := f 16 2, heardPort := f 18 2 }

/-- An IDENT is sent on a port (R266). -/
def sendIdent (p : Nat) (s : State) : State := queueCtrl p (ctrlFrame s 1 0 1 (identPayload s p)) s

/-- 1 ms: an IDENT is sent on a port that is up (R266). -/
def execIdentTimer (p : PortNo) (s : State) : Host.Outcome State Fault Refusal :=
  .next (if flagF s (R.PORT_STA.UP p) then sendIdent p s else s)

/-- An IDENT is heard (R266); a changed identity takes a port in service down (R267). -/
def identRx (p : Nat) (m : IdentMsg) (s : State) : State :=
  let changed := match (getPort s p).heard with
    | some l => l.take 3 != [m.pkg, m.port, m.serial]
    | none => false
  let serving := inService s p
  let s := updPort s p fun q =>
    { q with heard := some [m.pkg, m.port, m.serial, m.bind, m.heardPkg, m.heardPort] }
  let s := setFs s [(R.PORT_PEER_ID.PKG p, m.pkg), (R.PORT_PEER_ID.PORT p, m.port),
                    (R.PORT_PEER_ID.ROLE p, m.bind), (R.PORT_PEER_ID.VALID p, 1)]
  if changed && serving then portDown p s else s

/-- IDENT (R266). -/
def execIdent (p : PortNo) (m : IdentMsg) (s : State) : Host.Outcome State Fault Refusal := .next (identRx p m s)

/-- The package expected at the other end of port p, with its dimension (Table 9.6). -/
def expectedPeer (s : State) (p : Nat) : Nat × Nat :=
  let q := if getF s (R.PORT_BIND.ROLE p) = 2 then dupTarget s p else p
  let d := getF s (R.PORT_BIND.DIM q)
  let c := getF s (R.PORT_BIND.PEERC q)
  let x := fun i => if i = d then c else coord s (myId s) i
  (pkgAt s (x 0) (x 1) (x 2), d)

/-- Does the peer's PORT_BIND point back (Table 9.6)? The peer of a duplicate is a duplicate (log 25). -/
def pointsBack (s : State) (p bind : Nat) : Bool :=
  if getF s (R.PORT_BIND.ROLE p) = 2 then bitsOf bind 0 2 == 2
  else
    let d := getF s (R.PORT_BIND.DIM p)
    bitsOf bind 0 2 == 1 && bitsOf bind 2 2 == d && bitsOf bind 4 4 == coord s (myId s) d

/-- The class of a bound port: the first entry of Table 9.6 that applies; one that has heard no IDENT is OPEN (log 25). -/
def portClass (s : State) (p : Nat) : Nat :=
  match (getPort s p).heard with
  | none => 1
  | some l =>
    if !flagF s (R.PORT_STA.UP p) then 1
    else if l.getD 2 0 = s.fuse.serial then 2
    else if l.getD 4 0 ≠ myId s ∨ l.getD 5 0 ≠ p then 3
    else if l.getD 0 0 ≠ (expectedPeer s p).1 then 4
    else if !pointsBack s p (l.getD 3 0) then 5
    else if (getPort s p).ber then 6
    else if 75 < getF s (R.PORT_STA.FLIGHT p) then 7
    else 0

/-- TOP_PKG_ID fits the dimensions (R273). -/
def idFits (s : State) : Bool := decide (myId s < nPkg s)

/-- Is the binding one that can be usable: a dimension link, or the lowest duplicate of one (R266, R268)? -/
def bindOk (s : State) (p : Nat) : Bool :=
  let r := getF s (R.PORT_BIND.ROLE p)
  r == 1 || (r == 2 && getF s (R.PORT_BIND.ROLE (dupTarget s p)) == 1 && dupOf s (dupTarget s p) == some p)

/-- Class a port and set what follows (R266, R268, R273). -/
def classify (p : Nat) (s : State) : State :=
  let s := updPort s p fun q => { q with bindAt := bindWord s p }
  if getF s (R.PORT_BIND.ROLE p) = 0 ∨ getF s (R.PORT_BIND.ROLE p) = 3 then
    setFs s [(R.PORT_STA.USABLE p, 0), (R.PORT_STA.ACTIVE p, 0), (R.PORT_STA.FAULT p, 0)]
  else
    let c := portClass s p
    let ok := c == 0 && bindOk s p && idFits s
    raiseIf (c != 0) (E.PORCH.MISWIRE p) <|
      setFs s [(R.PORT_STA.FAULT p, c), (R.PORT_STA.USABLE p, b2n ok),
               (R.PORT_STA.ACTIVE p, b2n (ok && getF s (R.PORT_BIND.ROLE p) == 1))]

/-! ### The slots of an egress (R251, R254, R263) -/

/-- Slots of a tick (R251). -/
def tickSlots (s : State) : Nat := 10 * tickLen s / 14

/-- The port whose route entries leave from port p: p, or the port it carries for (R269 step 4). -/
def logicalPort (s : State) (p : Nat) : Nat :=
  if getF s (R.PORT_BIND.ROLE p) = 2 ∧ flagF s (R.PORT_STA.ACTIVE p) then getF s (R.PORT_STA.NOWFOR p) else p

/-- Route entries of the tick that reserve slots of a port: those of every running plan. -/
def portRoutes (s : State) (p : Nat) : List FabE :=
  [0, 1, 2, 3].flatMap fun n =>
    match getPlan s n with
    | some pl => if partRuns s n then pl.fabric.filter fun e => e.port == logicalPort s p && e.ptick == periodTick s n else []
    | none => []

/-- Does an entry hold a slot? Slots of added time are reserved by no plan (R251). -/
def holdsSlot (s : State) (slot : Nat) (e : FabE) : Bool :=
  decide (slot < tickSlots s) && decide (e.slot0 ≤ slot) && decide (slot < e.slot0 + e.nslot)

/-- A REPLAY mark (R35). -/
def isMark (f : Frame) : Bool := f.cls == clsData && f.kind == 1

/-- Does a frame belong to an entry (R263, R287)? -/
def matchesRoute (f : Frame) (e : FabE) : Bool :=
  f.cls == e.cls && f.stream == e.stream && !isMark f && (if f.bc then e.dest == 0xFFFF else f.dst == e.dest)

/-- Slots still to come, this one among them, that entries give the frame's stream and destination. -/
def slotsLeft (s : State) (p slot : Nat) (f : Frame) : Nat :=
  ((portRoutes s p).filter (matchesRoute f)).foldl (fun a e => a + (min (e.slot0 + e.nslot) (tickSlots s) - max e.slot0 slot)) 0

/-- The first planned frame that is late (R263): more frames of its stream and destination wait than
slots are left; a REPLAY mark, once no frame waits before it on its path. -/
def lateFrame (s : State) (p slot : Nat) : List Frame → List Frame → Option Frame
  | _, [] => none
  | before, f :: fs =>
    let late :=
      if isMark f then !before.any fun g => g.bc || g.dst == f.dst
      else decide (slotsLeft s p slot f < ((f :: fs).filter fun g => g.cls == f.cls && g.stream == f.stream &&
        g.dst == f.dst && g.bc == f.bc && !isMark g).length)
    if late then some f else lateFrame s p slot (before ++ [f]) fs

/-- May planned frames leave (R307, R309)? -/
def plannedOpen (s : State) : Bool := !s.tick.faultDrain && !s.tick.draining

/-- Trailer and CRC of a frame as the port sends it (R252, R256). -/
def stampLink (q : Port) (f : Frame) : Frame :=
  let f := { f with ackv := true, ack := q.e, nak := q.nakNext }
  { f with crc := frameCrc f }

/-- A frame leaves a port. -/
def sendFrame (p : Nat) (f : Frame) (s : State) : State :=
  let g := stampLink (getPort s p) f
  let s := updPort s p fun q => { q with nakNext := false }
  { s with out := { s.out with frames := smSet none s.out.frames p (some g) } }

/-- Remove the first occurrence of a frame. -/
def dropOne (f : Frame) : List Frame → List Frame
  | [] => []
  | g :: gs => if g = f then gs else g :: dropOne f gs

/-- First transmission of a sequenced frame (R255). -/
def sendNew (p : Nat) (f : Frame) (s : State) : State :=
  let g := { f with lseq := (getPort s p).lseq, seqv := true }
  sendFrame p g <| updPort s p fun q =>
    { q with planned := dropOne f q.planned, lseq := (q.lseq + 1) % 4096, held := q.held ++ [(g, 1)] }

/-- Count one more send of a held frame. -/
def countSend (l : Nat) (h : List (Frame × Nat)) : List (Frame × Nat) :=
  h.map fun e => if e.1.lseq = l then (e.1, e.2 + 1) else e

/-- Resend the frame that the go-back replay has reached (R258, R259). -/
def resend (p g : Nat) (s : State) : State :=
  match (getPort s p).held.find? fun h => h.1.lseq == g with
  | none => updPort s p fun q => { q with goback := none }
  | some h =>
    if 4 ≤ h.2 then escalate p s
    else
      let next := (g + 1) % 4096
      sendFrame p h.1 <| updPort s p fun q =>
        { q with held := countSend g q.held,
                 goback := if q.held.any fun e => e.1.lseq == next then some next else none }

/-- CTRL, then TEST, otherwise IDLE (R263). -/
def sendIdle (p : Nat) (s : State) : State :=
  match (getPort s p).ctrlQ with
  | f :: fs => sendFrame p f (updPort s p fun q => { q with ctrlQ := fs })
  | [] =>
    match (getPort s p).testQ with
    | f :: fs => sendFrame p f (updPort s p fun q => { q with testQ := fs })
    | [] => sendFrame p (ctrlFrame s 0 0 0 []) s

/-- An unreserved slot (R263). -/
def unreserved (p slot : Nat) (s : State) : State :=
  let q := getPort s p
  if plannedOpen s ∧ q.held.length < 1024 then
    match lateFrame s p slot [] q.planned with
    | some f => sendNew p f s
    | none => sendIdle p s
  else sendIdle p s

/-- A service slot: the next copy of the oldest SYNC frame (R254, R263). -/
def serviceSlot (p slot : Nat) (s : State) : State :=
  match (getPort s p).syncQ with
  | [] => match (getPort s p).goback with
    | some g => resend p g s
    | none => unreserved p slot s
  | t :: ts =>
    let f := { t.frame with copy := t.sent == 1 }
    sendFrame p f (updPort s p fun q =>
      { q with syncQ := if t.sent = 0 then { t with sent := 1 } :: ts else ts })

/-- A slot of an egress (R263). -/
def execEgressSlot (p : PortNo) (slot : Nat) (s : State) : Host.Outcome State Fault Refusal :=
  .next <|
    let q := getPort s p
    if !flagF s (R.PORT_STA.UP p) || q.retraining || !flagF s (R.PORT_LASER.EN p) then s
    else if slot % 16 = 15 then serviceSlot p slot s
    else match q.goback with
      | some g => resend p g s
      | none =>
        match (portRoutes s p).find? (holdsSlot s slot) with
        | some e =>
          match (if plannedOpen s ∧ q.held.length < 1024 then q.planned.find? fun f => matchesRoute f e else none) with
          | some f => sendNew p f s
          | none => unreserved p slot s
        | none => unreserved p slot s

end Sys2Proof.Machine
end

