-- ==== Sys2Proof/Machine/Hall.lean ====
section
/-! DEFINITION. The Hall: HSND, where a frame goes next, the Landing and its commit (R40 to R42, R166,
R174, R270 to R272). -/

namespace Sys2Proof.Machine

/-! ### Streams and routes (R174, R176) -/

/-- Source number of the guest's arrivals: its station id (R173). -/
def guestSrc : Nat := 0x3FC0

/-- Package that a stream entry of a source names for its consumer (R174, R261). -/
def destOf (pl : Plan) (src : Nat) (e : StreamE) : Nat :=
  if e.rel then (src + e.dest) % max 1 pl.npkg else e.dest

/-- Consumers on this package of a stream that a source sends (R271). -/
def consumers (s : State) (part src stream : Nat) : List StreamE :=
  match getPlan s part with
  | none => []
  | some pl => pl.streams.filter fun e =>
      e.num == stream &&
      (if src = guestSrc then e.transport == 4 else e.transport == 2 && destOf pl src e == myId s)

/-- Route entry that carries a frame onward (R176); a mark goes the way of any frame to its destination (R35 step 2). -/
def routeOf (s : State) (part : Nat) (f : Frame) : Option FabE :=
  match getPlan s part with
  | none => none
  | some pl => pl.fabric.find? fun e =>
      (isMark f || (e.cls == f.cls && e.stream == f.stream)) && (if f.bc then e.dest == 0xFFFF else e.dest == f.dst)

/-- The port on which a frame leaves: that of its route entry, or the one that carries for it now (R262, R269). -/
def routePort (s : State) (part : Nat) (f : Frame) : Option Nat :=
  match routeOf s part f with
  | some e => carrier s e.port
  | none => none

def queuePlanned (p : Nat) (f : Frame) (s : State) : State :=
  updPort s p fun q => { q with planned := q.planned ++ [f] }

/-- A planned frame leaves this package, or is dropped for want of a route or a port (R270). -/
def forward (part : Nat) (f : Frame) (s : State) : State :=
  match routePort s part f with
  | some p => queuePlanned p f s
  | none => dropFrame false f s

/-- The dimension ports of dimensions from `lo` on, by binding (R262). -/
def boundFrom (s : State) (lo : Nat) : List Nat :=
  allPorts.filter fun p => getF s (R.PORT_BIND.ROLE p) == 1 && decide (lo ≤ getF s (R.PORT_BIND.DIM p))

/-- A broadcast frame leaves on every dimension port of dimensions from `lo` on (R262); where no port carries
it, it is dropped (R270). -/
def forwardAll (lo : Nat) (f : Frame) (s : State) : State :=
  (boundFrom s lo).foldl (fun s k =>
    match carrier s k with
    | some p => queuePlanned p f s
    | none => dropFrame false f s) s

/-- Note a path used in the tick (R35). -/
def notePath (dst : Nat) (s : State) : State :=
  if s.tick.paths.contains dst then s else { s with tick := { s.tick with paths := s.tick.paths ++ [dst] } }

/-! ### The Landing (R41, R42, R270, R378, R379) -/

/-- Units of 64 Landing entries of a secondary that exists (R371). -/
def landUnits (s : State) (n : Nat) : Nat := partVal s n 6 * partVal s n 5

/-- Landing entries of a partition (R371, R378). -/
def landShare (s : State) (part : Nat) : Nat :=
  if part = 0 then 65536 - 64 * (landUnits s 1 + landUnits s 2 + landUnits s 3) else 64 * landUnits s part

def landUse (s : State) (part : Nat) : Nat := (s.hall.land.filter fun f => framePart s f.seq == part).length

/-- HALL_LAND_USE follows the entries held. -/
def showLanding (s : State) : State :=
  let u := min 65535 (s.hall.land.length / 2)
  peakF (setF s R.HALL_LAND_USE.CUR u) R.HALL_LAND_USE.PEAK u

/-- Same contents: all that the source put into the frame (R42). -/
def sameFrame (f g : Frame) : Bool :=
  f.cls == g.cls && f.kind == g.kind && f.beats == g.beats && f.bc == g.bc && f.dst == g.dst &&
  f.stream == g.stream && f.tile == g.tile && f.foff == g.foff && f.payload == g.payload

/-- The package whose tick a frame's fault voids: the guest's arrivals are this package's own (R71). -/
def voidOwner (s : State) (src : Nat) : Nat := if src = guestSrc then myId s else src

/-- Place an accepted frame (R41), or treat it as R42 and R270 give. -/
def landPlace (f : Frame) (part : Nat) (s : State) : State :=
  match s.hall.land.find? fun g => g.src == f.src && g.tick == f.tick && g.seq == f.seq with
  | some g =>
    if sameFrame f g.toFrame then incSat s R.HALL_LAND_ERR.DUP 1
    else
      sourceFault (mkFault 0x3D clVoid uPkg 0 0 f.src) [(voidOwner s f.src, f.tick)] (raise E.TICK.DUP_DIFF s)
  | none =>
    if landShare s part ≤ landUse s part then
      if part = 0 then dropFrame true f s
      else
        raise E.HALL.LAND_FULL (incSat { s with secStop := smSet 0 s.secStop part 4 } R.HALL_LAND_ERR.MISROUTE 1)
    else
      showLanding { s with hall := { s.hall with land := s.hall.land ++ [{ f with came := s.counter }] } }

/-- A DATA or COLL frame for this package arrives (R33, R41, R270, R379). Outside a run it is dropped (log 28). -/
def landArrival (f : Frame) (s : State) : State :=
  let part := framePart s f.seq
  if !running s then s
  else if part ≠ 0 ∧ !secRunning s part then incSat s R.HALL_LAND_ERR.MISROUTE 1
  else if s.tick.voidedSrcs.contains f.src ∧ f.tick = tickNum s then s
  else match tickCmp f.tick (tickNum s) with
    | .older _ => raise E.TICK.LATE (incSat s R.HALL_LAND_ERR.LATE 1)
    | .far => declareOverrun 3 (raise E.TICK.STAMP_FAR s)
    | .newer d =>
      if 2 ≤ d then declareOverrun 3 (raise E.TICK.STAMP_FAR s)
      else if f.cls = clsData ∧ (consumers s part f.src f.stream).isEmpty then dropFrame false f s
      else landPlace f part s
    | .same =>
      if f.cls = clsData ∧ (consumers s part f.src f.stream).isEmpty then dropFrame false f s
      else landPlace f part s

/-- A REPLAY mark ends the dropping of R33 for its source and tick (R35). -/
def markRx (src tick : Nat) (s : State) : State :=
  if tick = tickNum s then
    { s with tick := { s.tick with voidedSrcs := s.tick.voidedSrcs.filter fun x => x != src } }
  else s

/-- REPLAY mark (R35). -/
def execReplayMark (src tick : Nat) (s : State) : Host.Outcome State Fault Refusal := .next (markRx src tick s)

/-! ### Commit (R271, R272, Table 3.3) -/

/-- The order of R41: by source, then by TICK, then by SEQ. -/
def landOrder (cur : Nat) (a b : Frame) : Bool :=
  let t := fun f : Frame => if f.tick = cur then 0 else 1
  decide (a.src < b.src) || (a.src == b.src &&
    (decide (t a < t b) || (t a == t b && decide (a.seq ≤ b.seq))))

/-- Frames per tile of a guest stream (R175; log 27). -/
def gTileFlits (fmt : Nat) : Nat := ceilDiv (tileBytes fmt) 256

/-- Line at which a frame's data starts for a consumer (R271). -/
def frameLine (e : StreamE) (f : Frame) : Nat := e.base + f.tile % max 1 e.ring * e.stride + 4 * f.foff

/-- The beats that a frame carries. -/
def frameBeats (f : Frame) : List Byte := f.payload.take (64 * f.beats)

/-- A write of the commit: core, byte address, bytes (R271, R278). -/
abbrev CommitW := Nat × Nat × List Byte

/-- The writes of a DATA frame, one for every consumer (R271). -/
def dataWrites (s : State) (f : Frame) : List CommitW :=
  (consumers s (framePart s f.seq) f.src f.stream).map fun e => (e.consumer, 64 * frameLine e f, frameBeats f)

/-- The posts of a DATA frame, made at the boundary (R271, R272, Table 3.3). -/
def dataPosts (s : State) (f : Frame) : List (Nat × Nat × Nat × Nat) :=
  ((consumers s (framePart s f.seq) f.src f.stream).filter fun e => f.foff == 0 && e.cnt != 0).map fun e =>
    (e.consumer, e.sem / 32 % 2, e.sem % 32, e.cnt)

/-- What befell the commit's beats of a core. -/
def commitAcc (dw : List CommitAcc) (c : Nat) : List LsAcc := (dw.filter fun a => a.core.lcid == c).flatMap (·.acc)

/-- Those of them that were discarded on their way: on a link, or in a hub slot of the die's edge, since they leave the
Hall (R102, R431). -/
def commitLosses (dw : List CommitAcc) (c : Nat) : List LineLoss :=
  ((dw.filter fun a => a.core.lcid == c).flatMap (·.lost)).filter fun z => placeOn (some 1) z.place

/-- DW-IN writes committed bytes, but for the beats lost; they do not enter the signature (R91, R322). A parked core's
banks take none (R111; log 118). -/
def commitWrite (dw : List CommitAcc) (s : State) (w : CommitW) : State :=
  if inPark (getCore s w.1) then s
  else updCore s w.1 fun co => lsPut (lostLines (commitAcc dw w.1) ++ (commitLosses dw w.1).map (·.line)) co w.2.1 w.2.2

/-- The faults of a commit, detected together: an access to a parked core's banks (R111), conflicts and errors of DW-IN's
accesses, beats discarded on their way (R88, R90, R102). -/
def commitFaults (dw : List CommitAcc) (ws : List CommitW) (s : State) : List FaultRec :=
  ((ws.map (·.1)).dedup).flatMap fun c =>
    if inPark (getCore s c) then [coreFault s c 0x13 clPlan (nowCyc s) 0]
    else accFaults s c none (commitAcc dw c) ++ (commitLosses dw c).map (lineFault s c hallStation (nowCyc s))

/-- The Landing's entries of the tick, in order. -/
def tickEntries (s : State) : List Frame :=
  sortBy (landOrder (tickNum s)) ((s.hall.land.filter fun f => f.tick == tickNum s).map (·.toFrame))

/-- The changes of a core's held cycle enter its Bell board, with their faults (R98, R99). -/
def closeSem (c : Nat) (s : State) : State := takeFaults (semFaults s c) (updCore s c semClose)

/-- A boundary post enters the held cycle, but of a parked core. -/
def boundaryPost (s : State) (p : Nat × Nat × Nat × Nat) : State :=
  if inPark (getCore s p.1) then s
  else updCore s p.1 fun co => { co with semDelta := smUpd 0 co.semDelta (semKey p.2.1 p.2.2.1) (· + (p.2.2.2 : Int)) }

/-- The boundary's posts (Table 3.3): applied at the boundary itself, before cycle 0 (R98), their faults detected
together. They come before the park of a core begins or ends, so that those of the boundary that ends a park are posts to
a parked core, and those of the boundary that begins it are not (R110, R111; DESIGN CHOICE, log 118). -/
def boundaryPosts (s : State) : State :=
  let cs := (s.hall.posts.map fun p => p.1).dedup
  let s := cs.foldl (fun s c => closeSem c s) s
  let s := s.hall.posts.foldl boundaryPost s
  let fs := cs.flatMap fun c => if inPark (getCore s c) then [coreFault s c 0x13 clPlan 0 0] else semFaults s c
  takeFaults fs (cs.foldl (fun s c => updCore s c semClose) { s with hall := { s.hall with posts := [] } })

/-- Committed entries are freed; entries of the next tick stay and count for it (R272). -/
def freeLanding (s : State) : State :=
  showLanding { s with hall := { s.hall with land := s.hall.land.filter fun f => f.tick != tickNum s } }

/-- Frames of the tick that have landed from other packages, less those discarded by VOID, of a partition:
the count that R271 sets against the FABRIC entries (log 32). -/
def landedFrames (s : State) (part : Nat) : Nat :=
  (s.hall.land.filter fun f => f.tick == tickNum s && framePart s f.seq == part && f.src != myId s && f.src != guestSrc).length

/-- Flits of the guest's streams that have landed for the tick, of a partition. -/
def guestLanded (s : State) (part : Nat) : Nat :=
  (s.hall.land.filter fun f => f.tick == tickNum s && framePart s f.seq == part && f.src == guestSrc).length

/-- Streams that the guest feeds under a plan, one entry of each. -/
def guestStreams (pl : Plan) : List StreamE :=
  (pl.streams.filter fun e => e.transport == 4).foldl
    (fun l e => if l.any fun x => x.num == e.num then l else l ++ [e]) []

/-- Flits of the guest's streams that the tick needs: TILES of each, the one count that the image gives (R174, R175;
log 115). -/
def guestDue (s : State) (part : Nat) : Nat :=
  match getPlan s part with
  | some pl => ((guestStreams pl).map fun e => e.tiles * gTileFlits e.fmt).sum
  | none => 0

/-! ### HSND (R166) -/

/-- The frames of an HSND to a destination. -/
def hsndFrames (s : State) (w x dst : Nat) (data : List Byte) : List Frame :=
  let n := fHLen x + 1
  (List.range (ceilDiv n 4)).map fun f =>
    { frame0 with cls := clsData, kind := 0, beats := min 4 (n - 4 * f), src := myId s, dst := dst,
                  tick := tickNum s, seq := (fHSeq w + f) % 2 ^ 16, stream := fHStream w, tile := fHTile x,
                  foff := f, payload := (data.drop (256 * f)).take 256 }

/-- Packages that a stream's entries name for its consumers (R166). -/
def hsndDests (s : State) (pl : Plan) (stream : Nat) : List Nat :=
  ((pl.streams.filter fun e => e.num == stream && e.transport == 2).map fun e => destOf pl (myId s) e).dedup

/-- A frame of this package goes to its own Landing or out on its route. -/
def sendOut (part : Nat) (f : Frame) (s : State) : State :=
  if f.bc then forwardAll 0 f (notePath 0xFFFF s)
  else if f.dst = myId s then landArrival f s
  else forward part f (notePath f.dst s)

/-- STRM_IN flits to the guest: the stamp in ADDR (Table 2.6). -/
def strmIn (fs : List Frame) (s : State) : State :=
  fs.foldl (fun s f =>
    sendFlit { gflit0 with type := 6, len := f.beats, addr := f.seq + 2 ^ 16 * f.tick, stream := f.stream,
                           payload := frameBeats f } s) s

/-- HSND: one copy of each flit to every package that consumes the stream, or to the guest. -/
def hsndEff (i : Issue) (w x : Nat) (s : State) : State :=
  let i := onEdge (some 1) i
  let part := corePart (getCore s i.core.lcid)
  let n := fHLen x + 1
  let data := outBytes s i (fHSl w) n
  let go := fun s =>
    match getPlan s part with
    | none => s
    | some pl =>
      let s := (hsndDests s pl (fHStream w)).foldl (fun s d =>
        (hsndFrames s w x d data).foldl (fun s f => sendOut part f s) s) s
      if pl.streams.any fun e => e.num == fHStream w && e.transport == 3 then
        strmIn (hsndFrames s w x (myId s) data) s
      else s
  outbound i w n (go s)

/-- HSND (R166). -/
def execHsnd (i : Issue) (s : State) : Host.Outcome State Fault Refusal := .next (issueOp i opHsnd (hsndEff i) s)

end Sys2Proof.Machine
end

