-- ==== Sys2Proof/Machine/Guest.lean ====
section
/-! DEFINITION. The Guest room: the Vestibule's checks, memory requests, streams, power and reset (R67
to R78, R175). -/

namespace Sys2Proof.Machine

/-! ### The fence (R69, R70, R76) -/

/-- The guest is fenced: GST_STA.FENCED, the fence map and the log (Table 11.3). Of the flits that wait to be sent only
stream flits stay: it is sent no further response and no credit (R76). -/
def fenceGuest (s : State) : State :=
  let s := onGuest (fun g => { g with wait := g.wait.filter fun f => f.type == 6 }) s
  logOnly 0x42 uGuest 0 0 0 (setB (fenceUnit uGuest 0 s) R.GST_STA.FENCED true)

def guestFenced (s : State) : Bool := flagF s R.GST_STA.FENCED

/-- A violation (R76): the first is recorded. Causes 0 FORMAT to 6 CLASS (Table 2.11). -/
def violation (cause win : Nat) (f : GFlit) (s : State) : State :=
  let s := if flagF s R.GST_VIOL_INFO.VALID then s
    else setFs s [(R.GST_VIOL_ADDR.ADDR, f.addr / 2 ^ 8), (R.GST_VIOL_INFO.ADDR_LO, f.addr / 2 ^ 6),
      (R.GST_VIOL_INFO.CAUSE, cause), (R.GST_VIOL_INFO.WIN, win), (R.GST_VIOL_INFO.TYPE, f.type),
      (R.GST_VIOL_INFO.TAG, f.tag), (R.GST_VIOL_INFO.VALID, 1)]
  raise E.GUEST.GUEST_VIOL (fenceGuest s)

/-! ### The checks (R74, R75) -/

/-- FORMAT. -/
def formatOk (f : GFlit) : Bool :=
  match f.type with
  | 1 | 2 => decide (f.len ≤ 4) && f.addr % 64 == 0 && decide (f.addr % 4096 + 64 * f.len ≤ 4096) && decide (f.addr < 2 ^ 40)
  | 5 => decide (f.len ≤ 4)
  | 8 => f.len == 0
  | _ => false

/-- The lowest-numbered enabled window that holds an address (R75). -/
def guestWindow (s : State) (addr : Nat) : Option Nat :=
  (List.range 16).find? fun n =>
    flagF s (R.GST_WIN_PERM.EN n) && decide (getF s (R.GST_WIN_BASE.BASE n) ≤ addr / 2 ^ 12) &&
    decide (addr / 2 ^ 12 ≤ getF s (R.GST_WIN_LIMIT.LIMIT n))

/-- The checks of a memory request from CREDIT on: the cause and window of the first that fails. An address that names
no memory, of which R74 says nothing, is a violation of OWNER: no partition owns it (DESIGN CHOICE, log 114). -/
def requestCheck (s : State) (wr : Bool) (f : GFlit) : Option (Nat × Nat) :=
  if s.guest.credits < f.len then some (2, 0)
  else match guestWindow s f.addr with
    | none => some (3, 0)
    | some w =>
      if !flagF s (if wr then R.GST_WIN_PERM.WR w else R.GST_WIN_PERM.RD w) then some (4, w)
      else if !spanOk s f.addr (64 * f.len) || smGet 0 s.hif.owner (f.addr / 2 ^ 28) != getF s R.GST_CTL.OWNER then some (5, w)
      else if wr && !isCellar s (f.addr / 2 ^ 36) (f.addr / 2 ^ 31 % 32) then some (6, w)
      else none

/-- The stream entry of a running plan that the guest feeds (R74, R175), with its partition. -/
def guestStream (s : State) (stream : Nat) : Option (Nat × StreamE) :=
  [0, 1, 2, 3].findSome? fun n =>
    if !partRuns s n then none
    else match getPlan s n with
      | none => none
      | some pl => (pl.streams.find? fun e => e.num == stream && e.transport == 4).map fun e => (n, e)

/-- Does a running plan bind streams to the guest (R77, R78)? -/
def guestBound (s : State) : Bool :=
  [0, 1, 2, 3].any fun n => partRuns s n &&
    (match getPlan s n with
      | some pl => pl.streams.any fun e => e.transport == 3 || e.transport == 4
      | none => false)

/-! ### Flits from the guest -/

/-- What every flit of a row meets first: it is dropped with the link down, with a bad CRC or behind a
fence (R71, R76); a TYPE or LEN that no flit may have is a FORMAT violation, met in sequence; else, when
the link accepts it, `eff`. A flit of another row's type has no effect. -/
def guestRx (want : Nat) (f : GFlit) (eff : State → State) (s : State) : State :=
  if !guestUp s || gCrc f != f.crc || guestFenced s then s
  else if f.type = 8 then
    if want ≠ 8 then s else if formatOk f then eff s else violation 0 0 f s
  else
    let legal := f.type == 1 || f.type == 2 || f.type == 5
    if legal && f.type != want then s
    else
      let (acc, s) := takeGSeq f s
      if !acc then s else if formatOk f then eff s else violation 0 0 f s

/-- A memory request is accepted (R72, R73), or is a violation (R74); with the page disabled none is (R81). -/
def guestRequest (wr : Bool) (f : GFlit) (s : State) : State :=
  if !flagF s (R.PG_CTL.EN 0x40) then s
  else match requestCheck s wr f with
    | some (c, w) => violation c w f s
    | none =>
      onGuest (fun g => { g with
        credits := g.credits - f.len,
        reqs := g.reqs ++ [{ data := if wr then some f.payload else none, addr := f.addr, len := f.len, tag := f.tag,
                             tick := s.tick.job, order := s.hif.accepted }] })
        { s with hif := { s.hif with accepted := s.hif.accepted + 1 } }

/-- RD (R74). -/
def execGuestRd (f : GFlit) (s : State) : Host.Outcome State Fault Refusal :=
  .next (guestRx 1 f (guestRequest false f) s)

/-- WR (R74). -/
def execGuestWr (f : GFlit) (s : State) : Host.Outcome State Fault Refusal :=
  .next (guestRx 2 f (guestRequest true f) s)

/-- A stream flit as a Landing arrival: flit f of the tick is tile ⌊f / flits per tile⌋ (R175; log 27). -/
def strmFrame (e : StreamE) (f : GFlit) : Frame :=
  let seq := f.addr % 2 ^ 16
  let n := subMod 16 seq e.seq0
  let t := max 1 (gTileFlits e.fmt)
  { frame0 with cls := clsData, kind := 0, beats := f.len, src := guestSrc, dst := 0, tick := f.addr / 2 ^ 16 % 2 ^ 24,
                seq := seq, stream := f.stream, tile := n / t, foff := n % t, payload := f.payload }

/-- STRM_OUT: the STREAM check, then the Landing (R74). -/
def strmRx (f : GFlit) (s : State) : State :=
  match guestStream s f.stream with
  | none => violation 1 0 f s
  | some (_, e) =>
    let seen := smGet 0 s.guest.seen f.stream
    if e.tiles * gTileFlits e.fmt ≤ seen then violation 1 0 f s
    else
      landArrival (strmFrame e f) (onGuest (fun g => { g with seen := smSet 0 g.seen f.stream (seen + 1) }) s)

/-- STRM_OUT (R71, R74). -/
def execStrmOut (f : GFlit) (s : State) : Host.Outcome State Fault Refusal := .next (guestRx 5 f (strmRx f) s)

/-- LINK (R71). -/
def execGuestLink (f : GFlit) (s : State) : Host.Outcome State Fault Refusal := .next (guestRx 8 f (takeLink f) s)

/-! ### Requests in the guard (R72, R200) -/

/-- A guest request as a run of its channel. -/
def guestRun (s : State) (q : GReq) : Run :=
  { kind := .host 32 q.data.isSome, pa := q.addr, beats := q.len, tick := tickNum s, seq := 0, core := 0, line := 0, cnt := 0,
    sem := 0, bank := 0, hinge := none, data := q.data.getD [], part := getF s R.GST_CTL.OWNER, retries := 0, arr := 0 }

/-- Does host work accepted before a place in the order, or a retry of it, take a channel first (R200, R201)? -/
def hostAhead (s : State) (k c bt order : Nat) : Bool :=
  match hostFirst s k c bt [] with
  | none => false
  | some (_, q, _) => decide (0 < q.tries) || decide (q.order < order)

/-- A request has been served: its write stands, its response is sent unless the guest is fenced (R72, R76). -/
def answerGuest (q : GReq) (s : State) : State :=
  match q.data with
  | some bs =>
    let s := serveWrite q.addr bs s
    if guestFenced s then s else sendFlit { gflit0 with type := 4, tag := q.tag } s
  | none =>
    if guestFenced s then s
    else sendFlit { gflit0 with type := 3, len := q.len, tag := q.tag, payload := rdMems s q.addr (64 * q.len) } s

/-- The oldest request is served between D and V, when it would end by V (R72, R200). One whose access fails waits: the
tick is voided (log 125). -/
def execGuestRequestServe (sv : Served) (s : State) : Host.Outcome State Fault Refusal :=
  .next <|
    match s.guest.reqs with
    | [] => s
    | q :: rest =>
      let ch := chanOf q.addr
      let occ := occOf (64 * q.len)
      if !running s || !chanFree s ch sv.bt || !unplanned s (ch / 32) (ch % 32) sv.bt occ ||
         hostAhead s (ch / 32) (ch % 32) sv.bt q.order then s
      else
        let (s, ok) := serveAccess (ch / 32) (ch % 32) occ q.data.isNone (guestRun s q) sv s
        if ok then answerGuest q (onGuest (fun g => { g with reqs := rest }) s) else s

/-- Credits at a boundary (R73, R81): the grant, less the units that waiting requests will use. -/
def grantCredits (s : State) : State :=
  if !flagF s (R.PG_CTL.EN 0x40) || guestFenced s || !flagF s R.GST_STA.LINK_UP then
    onGuest (fun g => { g with credits := 0, seen := [] }) s
  else
    let used := s.guest.reqs.foldl (fun a q => a + q.len) 0
    let n := getF s R.GST_RATE.UNITS - used
    sendFlit { gflit0 with type := 7, addr := n } (onGuest (fun g => { g with credits := n, seen := [] }) s)

/-! ### Power and reset (R69, R78) -/

/-- The rails are removed (R69). -/
def execGuestPwr (s : State) : Host.Outcome State Fault Refusal :=
  .next (if s.fuse.guestOption then raise E.GUEST.GUEST_PWR (fenceGuest (setB s R.GST_STA.POWER_ON false)) else s)

/-- GST_RESET.RESET (R78, R81). -/
def guestResetCmd (s : State) : State :=
  if !s.fuse.guestOption then s
  else if running s && guestBound s then raise E.GUEST.RESET_REFUSED s
  else
    let s := setFs s [(R.GST_STA.IN_RESET, 1), (R.GST_STA.POWER_ON, 1), (R.GST_STA.LINK_UP, 0),
                      (R.GST_STA.MOD0_UP, 0), (R.GST_STA.MOD1_UP, 0)]
    onGuest (fun g => { guest0 with ownerAt := g.ownerAt, wrote := g.wrote, undone := g.undone }) s

/-- GST_RESET (R78). -/
def execGstReset (s : State) : Host.Outcome State Fault Refusal := .next (guestResetCmd s)

/-- Did the guest answer when its identity was last read (R70)? -/
def guestAnswered (s : State) : Bool := s.guest.ident != []

/-- The modules train: LINK_UP with at least one of them (R68); none does with a guest that did not answer (R70). -/
def trainGuest (t0 t1 : Bool) (s : State) : State :=
  let m0 := t0 && guestAnswered s
  let m1 := t1 && guestAnswered s
  let up := m0 || m1
  let was := flagF s R.GST_STA.LINK_UP
  let s := setFs s [(R.GST_STA.MOD0_UP, b2n m0), (R.GST_STA.MOD1_UP, b2n m1), (R.GST_STA.LINK_UP, b2n up)]
  let s := raiseIf (up && !was) E.GUEST.GUEST_UP s
  raiseIf (!m0 || !m1) E.GUEST.MODULE_LOST s

/-- Is a frame the identity of a guest die: whole, with CLASS 3 (R70, Table 2.2)? -/
def guestFrame (f : List Byte) : Bool := discGood f && leNat ((f.drop 1).take 1) == 3

/-- The registration number of an identity: PART_ID[9:0] (R70). -/
def guestRegNo (f : List Byte) : Nat := leNat ((f.drop 4).take 4) % 1024

/-- The identity read over the sideband (R70): a frame that is no guest's identity counts as no answer (R52); another
number than the fused one fences the guest. -/
def readIdentity (frame : Option (List Byte)) (s : State) : State :=
  match frame with
  | none => onGuest (fun g => { g with ident := [] }) s
  | some f =>
    if !guestFrame f then onGuest (fun g => { g with ident := [] }) s
    else
      let s := setF (onGuest (fun g => { g with ident := f }) s) R.GST_STA.REG_NO (guestRegNo f)
      if guestRegNo f = s.fuse.guestReg then s else raise E.GUEST.GUEST_ID (fenceGuest s)

/-- The fence of the guest is lifted (R78). -/
def unfenceGuest (s : State) : State :=
  setFs s [(R.GST_STA.FENCED, 0), (R.FLT_FENCE_MAP.GUEST, 0), (R.PG_STA.FENCED 0x40, 0), (R.GST_VIOL_INFO.VALID, 0)]

/-- A guest reset completes (R78). -/
def execResetDone (m0 m1 : Bool) (guest : Option (List Byte)) (s : State) : Host.Outcome State Fault Refusal :=
  .next <|
    if !flagF s R.GST_STA.IN_RESET then s
    else
      let s := readIdentity guest (unfenceGuest (setB s R.GST_STA.IN_RESET false))
      raise E.GUEST.RESET_DONE (trainGuest m0 m1 s)

end Sys2Proof.Machine
end

