-- ==== Sys2Proof/Machine/Reduce.lean ====
section
/-! DEFINITION. Collectives: pieces and their frames, stamps, the reduction engine, results and the
norm context (R275 to R298). -/

namespace Sys2Proof.Machine

/-! ### Lists of a tick (for the stamps of R288) -/

/-- The instructions of a list from an index up to TEND or HALT: word and extension word. -/
def walkList (c : Core) : Nat → Nat → List (Nat × Nat)
  | 0, _ => []
  | fuel + 1, idx =>
    let w := smGet 0 c.ib ((if c.activeB then 1536 else 0) + idx)
    let x := smGet 0 c.ib ((if c.activeB then 1536 else 0) + idx + 1)
    if 1536 ≤ idx ∨ wOp w = opTend ∨ wOp w = opHalt then []
    else if twoWord (wOp w) then (w, x) :: walkList c fuel (idx + 2)
    else (w, 0) :: walkList c fuel (idx + 1)

/-- The ST lists of a partition's cores in the tick. -/
def stLists (s : State) (part : Nat) : List (Nat × Nat) :=
  s.cores.flatMap fun e =>
    if e.2.bound ≠ 0 ∧ corePart e.2 = part then walkList e.2 1536 (e.2.entries.getD 5 0) else []

def collEntry (pl : Plan) (ctx : Nat) : Option CollE := pl.colls.find? fun e => e.ctx == ctx

/-- Segment and step of a SEGMENT field (R276). -/
def segOf (v : Nat) : Nat := v / 4096
def stepOf (v : Nat) : Nat := v % 4096

/-- Frames of a piece of `n` beats (R286). -/
def pieceFrames (n : Nat) : Nat := ceilDiv n 4

/-- Sort key of a collective frame: PHASE, CTX, segment, step, FOFF (R288). -/
def collKey (phase ctx seg k foff : Nat) : Nat :=
  (((phase * 8 + ctx) * 4096 + seg) * 4096 + k) * 256 + foff

/-- The formats whose result returns in a second phase (Table 10.1). -/
def twoPhase (kind fmt : Nat) : Bool := kind == 0 && decide (fmt ≤ 3)

/-- Sums of the tick before, whose second phase runs in this tick (R279). -/
def phaseSums (s : State) (part : Nat) (pl : Plan) : List RSum :=
  s.reduce.sums.filter fun m => m.part == part && m.tick + 1 == s.tick.job &&
    (match collEntry pl m.ctx with | some e => twoPhase e.kind e.format | none => false)

/-- Beats of a sum's result (R278). -/
def resultBeats (fmt n : Nat) : Nat :=
  ceilDiv (n * (if fmt = 2 then 2 else if fmt ≤ 3 then 4 else 32)) 64

/-- The norm contribution of the tick: its context, unless the section names none (R232, R298). -/
def normCtx (s : State) (part : Nat) : Option Nat :=
  if part = 0 ∧ s.tick.norm then
    match panSec s 0 with
    | some q => if q.normCtx = 0xFF then none else some q.normCtx
    | none => none
  else none

/-- DATA frames that the plan stamps for a destination in the tick (R288). -/
def dataCount (s : State) (part dst : Nat) (pl : Plan) : Nat :=
  (stLists s part).foldl (fun a e =>
    if wOp e.1 = opHsnd ∧ (hsndDests s pl (fHStream e.1)).contains dst then a + ceilDiv (fHLen e.2 + 1) 4 else a) 0

/-- Keys of the unicast collective frames to a destination in the tick (R288). -/
def collKeys (s : State) (part dst : Nat) (pl : Plan) : List Nat :=
  let n := max 1 pl.npkg
  (stLists s part).flatMap (fun e =>
    if wOp e.1 = opColl ∧ (fCKind e.1 = 5 → stepOf (fCSeg e.2) = 0) ∧ (pl.pos + stepOf (fCSeg e.2)) % n = dst then
      (List.range (pieceFrames (fCLen e.1 + 1))).map fun f =>
        collKey 0 (fCCtx e.1) (segOf (fCSeg e.2)) (stepOf (fCSeg e.2)) f
    else []) ++
  (match normCtx s part with
    | some c => [collKey 0 c 0 ((dst + n - pl.pos % n) % n) 0]
    | none => []) ++
  (phaseSums s part pl).flatMap fun m =>
    let fmt := match collEntry pl m.ctx with | some e => e.format | none => 0
    let k := (pl.pos + n - dst % n) % n
    if k = 0 then [] else
      (List.range (pieceFrames (resultBeats fmt m.acc.length))).map fun f => collKey 1 m.ctx m.seg k f

/-- First SEQ of a partition (R378). -/
def seqBase (part : Nat) : Nat := if part = 0 then 0 else 0xC000 + 0x1000 * (part - 1)

/-- SEQ of a unicast collective frame (R288). -/
def collSeq (s : State) (part dst : Nat) (pl : Plan) (key : Nat) : Nat :=
  (seqBase part + dataCount s part dst pl + ((collKeys s part dst pl).filter fun x => decide (x < key)).length) % 2 ^ 16

/-- SEQ of a root's broadcast frame: from 0x8000 upward (R287); a secondary's from 0x800 above its base (log 29). -/
def bcastSeq (s : State) (part key : Nat) : Nat :=
  let keys := (stLists s part).flatMap fun e =>
    if wOp e.1 = opColl ∧ fCKind e.1 = 5 ∧ stepOf (fCSeg e.2) = 0 then
      (List.range (pieceFrames (fCLen e.1 + 1))).map fun f => collKey 0 (fCCtx e.1) (segOf (fCSeg e.2)) 0 f
    else []
  ((if part = 0 then 0x8000 else seqBase part + 0x800) + (keys.filter fun x => decide (x < key)).length) % 2 ^ 16

/-! ### Pieces (R276, R277, R286, R287) -/

/-- The frames of a piece before their stamps: header fields of R286. -/
def collFrames (s : State) (part ctx kind phase seg k dst : Nat) (data : List Byte) : List Frame :=
  let n := data.length / 64
  (List.range (pieceFrames n)).map fun f =>
    { frame0 with cls := clsColl, kind := kind, beats := min 4 (n - 4 * f), src := myId s, dst := dst,
                  tick := tickNum s, stream := ctx + 8 * part + 32 * phase, tile := seg * 4096 + k, foff := f,
                  payload := (data.drop (256 * f)).take 256 }

/-- Stamp unicast frames and send them (R277, R288). -/
def sendColl (part : Nat) (pl : Plan) (fs : List Frame) (s : State) : State :=
  fs.foldl (fun t f =>
    let key := collKey (f.stream / 32 % 2) (f.stream % 8) (segOf f.tile) (stepOf f.tile) f.foff
    sendOut part { f with seq := collSeq s part f.dst pl key } t) s

/-- A root's broadcast frames (R287). -/
def sendBcast (part : Nat) (fs : List Frame) (s : State) : State :=
  fs.foldl (fun t f =>
    sendOut part { f with bc := true, dst := 0,
                          seq := bcastSeq s part (collKey 0 (f.stream % 8) (segOf f.tile) 0 f.foff) } t) s

/-- What the Hall does with a piece (R276 to R278, R287). -/
def issuePiece (q : Piece) (pl : Plan) (data : List Byte) (s : State) : State :=
  let s := { s with reduce := { s.reduce with pieces := s.reduce.pieces ++ [q] } }
  let n := max 1 pl.npkg
  if q.kind = 5 then
    if q.step ≠ 0 then s
    else
      let fs := collFrames s q.part q.ctx 5 0 q.seg 0 (myId s) data
      sendBcast q.part fs (sendColl q.part pl fs s)
  else sendColl q.part pl (collFrames s q.part q.ctx q.kind 0 q.seg q.step ((pl.pos + q.step) % n) data) s

/-- COLL: the piece is read and handed to the Hall. -/
def collEff (i : Issue) (w x : Nat) (s : State) : State :=
  let i := onEdge (some 1) i
  let part := corePart (getCore s i.core.lcid)
  let n := fCLen w + 1
  let q : Piece :=
    { core := i.core.lcid, part := part, ctx := fCCtx w, kind := fCKind w, seg := segOf (fCSeg x), step := stepOf (fCSeg x),
      rline := fCRl x, cnt := fCCnt x, sem := fCSem x, bank := fCBank x, len := n, arr := fCArr w, tick := s.tick.job }
  let go := fun s =>
    match getPlan s part with
    | some pl => issuePiece q pl (outBytes s i (fCSl w) n) s
    | none => s
  outbound i w n (go s)

/-- COLL (R276). -/
def execColl (i : Issue) (s : State) : Host.Outcome State Fault Refusal := .next (issueOp i opColl (collEff i) s)

/-! ### Reduction formats (R281, R283, R284) -/

/-- Bytes of an input element. -/
def inBytes (fmt : Nat) : Nat := if fmt = 1 ∨ fmt = 2 then 2 else if fmt ≤ 3 then 4 else 32

/-- The elements of a piece, widened, and their flags. -/
def redElems (fmt : Nat) : Nat → List Byte → List (Nat × Nat)
  | 0, _ => []
  | n + 1, bs =>
    let b := inBytes fmt
    let v := leNat (bs.take b)
    (if fmt = 1 ∨ fmt = 2 then (v * 2 ^ 16, 0)
     else if fmt ≤ 3 then (v, 0)
     else (v % 2 ^ 128, v / 2 ^ 128 % 4)) :: redElems fmt n (bs.drop b)

/-- Add two elements: the sum, and whether it saturated (Table 10.3). -/
def redAdd (fmt a b : Nat) : Nat × Bool :=
  if fmt ≤ 2 then ((add32 (BitVec.ofNat 32 a) (BitVec.ofNat 32 b)).toNat, false)
  else if fmt = 4 then sat128 a b
  else
    let w := if fmt = 3 then 32 else 128
    let t := toSigned w a + toSigned w b
    let lim : Int := (2 ^ (w - 1) : Nat)
    let r := clampInt (-lim) (lim - 1) t
    (ofSigned w r, decide (r ≠ t))

/-- Add a contribution to a sum; the first is taken as it is (R281). -/
def redStep (fmt : Nat) (m : RSum) (k : Nat) (xs : List (Nat × Nat)) : RSum × Bool :=
  if m.added = [] then ({ m with added := [k], acc := xs.map (·.1), flags := xs.map (·.2) }, false)
  else
    let rs := List.zipWith (fun a x => redAdd fmt a x.1) m.acc xs
    let fl := List.zipWith (fun f (x : (Nat × Nat) × (Nat × Bool)) => (f ||| x.1.2) ||| (if x.2.2 then 1 else 0))
      m.flags (List.zip xs rs)
    ({ m with added := m.added ++ [k], acc := rs.map (·.1), flags := fl }, rs.any (·.2))

/-- The bytes of a sum's result (R281, R284). -/
def redResult (fmt : Nat) (m : RSum) : List Byte :=
  (List.zip m.acc m.flags).flatMap fun e =>
    if fmt = 2 then leBytes 2 (convElem 1 0 (BitVec.ofNat 32 e.1))
    else if fmt ≤ 3 then leBytes 4 e.1
    else leBytes 16 e.1 ++ leBytes 16 e.2

/-! ### The reduction engine (R281, R282, R289, R294) -/

/-- Frames of a piece that have landed in the tick: from a source, PHASE, segment and step. -/
def landedPiece (s : State) (part ctx phase seg k src : Nat) : List Landed :=
  sortBy (fun a b => decide (a.foff ≤ b.foff)) <|
    s.hall.land.filter fun f => f.cls == clsColl && f.tick == tickNum s && f.src == src &&
      f.stream == ctx + 8 * part + 32 * phase && f.tile == seg * 4096 + k

/-- The bytes of a piece of `n` beats once all of its frames have landed. -/
def pieceData (s : State) (part ctx phase seg k src n : Nat) : Option (List Byte) :=
  let fs := landedPiece s part ctx phase seg k src
  if fs.length = pieceFrames n ∧ n ≠ 0 then some (fs.flatMap fun f => frameBeats f.toFrame) else none

/-- When the last of a piece's frames came. -/
def cameAt (fs : List Landed) : Nat := (fs.map (·.came)).foldl max 0

/-- This package's own piece of a segment's step in a job tick. -/
def ownPiece (s : State) (part ctx seg k tick : Nat) : Option Piece :=
  s.reduce.pieces.find? fun q => q.part == part && q.ctx == ctx && q.seg == seg && q.step == k && q.tick == tick

def rsum0 (part ctx seg tick : Nat) : RSum :=
  { part := part, ctx := ctx, seg := seg, tick := tick, added := [], acc := [], flags := [], sat := false, doneAt := 0 }

def isSum (part ctx seg tick : Nat) (m : RSum) : Bool :=
  m.part == part && m.ctx == ctx && m.seg == seg && m.tick == tick

def getSum (s : State) (part ctx seg tick : Nat) : RSum :=
  (s.reduce.sums.find? (isSum part ctx seg tick)).getD (rsum0 part ctx seg tick)

def putSum (m : RSum) (s : State) : State :=
  { s with reduce := { s.reduce with
      sums := (s.reduce.sums.filter fun x => !isSum m.part m.ctx m.seg m.tick x) ++ [m] } }

/-- Is step k next for a sum: in order, or with ARR any step once x₀ is in (R281, R282)? -/
def stepReady (arr : Bool) (m : RSum) (k : Nat) : Bool :=
  !m.added.contains k && (if arr then k == 0 || m.added.contains 0 else k == m.added.length)

/-- A mismatch of a check (R294). -/
def redBad (part ctx seg : Nat) (exp : Bool) (s : State) : State :=
  let s := setFs (incSat s R.RED_RESIDUE_ERR.COUNT 1)
    [(R.RED_RESIDUE_ERR.CTX, ctx), (R.RED_RESIDUE_ERR.PART, part), (R.RED_RESIDUE_ERR.EXP, b2n exp),
     (R.RED_RESIDUE_ERR.VALID, 1)]
  takeFault { mkFault 0x30 clVoid uReduce 0 0 (ctx + 8 * seg) with part := part } (raise E.REDUCE.RESIDUE s)

/-- A segment saturated, recorded once (R284). -/
def redSat (part ctx seg : Nat) (s : State) : State :=
  let s := setFs (incSat s R.RED_SAT.COUNT 1) [(R.RED_SAT.CTX, ctx), (R.RED_SAT.PART, part)]
  logOnly 0x31 uReduce 0 0 (ctx + 8 * seg) (raise E.REDUCE.RED_SAT s)

/-- A contribution that is ready: context, segment, step, its bytes, when it came and when it was ready. -/
structure Ready where
  ctx : Nat
  seg : Nat
  k : Nat
  bytes : List Byte
  came : Nat
  at_ : Nat
  arr : Bool
  deriving DecidableEq, Repr

/-- The ready contributions of a segment (R281, R282, R289): all of its frames have landed, and the steps before it are
added. -/
def readyOf (s : State) (pl : Plan) (q : Piece) : List Ready :=
  let n := max 1 pl.npkg
  let m := getSum s q.part q.ctx q.seg q.tick
  (List.range n).filterMap fun k =>
    let src := (pl.pos + n - k % n) % n
    if !stepReady q.arr m k then none
    else (pieceData s q.part q.ctx 0 q.seg k src q.len).map fun bs =>
      let came := cameAt (landedPiece s q.part q.ctx 0 q.seg k src)
      { ctx := q.ctx, seg := q.seg, k := k, bytes := bs, came := came, at_ := max came m.doneAt, arr := q.arr }

/-- Every ready contribution of a partition. -/
def readyAll (s : State) (part : Nat) (pl : Plan) : List Ready :=
  (s.reduce.pieces.filter fun q => q.part == part && q.tick == s.tick.job && q.step == 0 && decide (q.kind ≤ 1)).flatMap
    (readyOf s pl)

/-- The order in which the engine takes them: by readiness; ties go to the lower context, segment and step; within an
arrival-order segment by landing first (R282, R289). -/
def readyKey (r : Ready) : List Nat := [r.at_, r.ctx, r.seg, if r.arr then r.came else 0, r.k]

/-- Is no other ready contribution before it? -/
def isFirst (l : List Ready) (r : Ready) : Bool := l.all fun x => !decide (readyKey x < readyKey r)

/-- Lanes of a partition (R289). -/
def lanesOf (s : State) (part : Nat) : Nat := getF s (R.RED_ALLOT.LANES part)

/-- When a partition's lanes have added the frames of a contribution, one frame a lane and nanosecond, in lane-nanoseconds
of the counter (R289). -/
def laneEnd (s : State) (part : Nat) (r : Ready) (frames : Nat) : Nat :=
  max (r.at_ * lanesOf s part) (s.reduce.laneAt.getD part 0) + frames

/-- Has the engine finished a contribution by now? A fenced engine adds nothing (R289, R294). -/
def engineDone (s : State) (part : Nat) (r : Ready) (frames : Nat) : Bool :=
  !flagF s R.FLT_FENCE_MAP.REDUCE && lanesOf s part != 0 &&
  decide (laneEnd s part r frames ≤ s.counter * lanesOf s part)

/-- Add the contribution of a step; its lanes have worked until `endAt`. -/
def addContribution (part ctx seg k fmt endAt : Nat) (bs : List Byte) (s : State) : State :=
  let m := getSum s part ctx seg s.tick.job
  let (m', sat) := redStep fmt m k (redElems fmt (bs.length / inBytes fmt) bs)
  let s := putSum { m' with sat := m.sat || sat, doneAt := ceilDiv endAt (lanesOf s part) } s
  let s := { s with reduce := { s.reduce with laneAt := s.reduce.laneAt.set part endAt } }
  if sat && !m.sat then redSat part ctx seg s else s

/-- The engine has added the ready contribution that it took first, or its check fails (R281, R282, R289, R294). -/
def execReductionAdd (part : Fin 4) (ctx : Fin 8) (seg k : Nat) (bad : Option Bool) (s : State) :
    Host.Outcome State Fault Refusal :=
  .next <|
    match getPlan s part with
    | none => s
    | some pl =>
      let l := readyAll s part pl
      match collEntry pl ctx, l.find? fun r => r.ctx == ctx.val && r.seg == seg && r.k == k with
      | some e, some r =>
        let frames := pieceFrames (r.bytes.length / 64)
        if !isFirst l r || !engineDone s part r frames then s
        else match bad with
          | some exp => redBad part ctx seg exp s
          | none => addContribution part ctx seg k e.format (laneEnd s part r frames) r.bytes s
      | _, _ => s

/-- Is every sum of the tick complete? -/
def sumsComplete (s : State) (part : Nat) : Bool :=
  match getPlan s part with
  | none => true
  | some pl =>
    s.reduce.pieces.all fun q =>
      q.part != part || q.tick != s.tick.job || q.step != 0 || decide (2 ≤ q.kind) ||
      (getSum s part q.ctx q.seg q.tick).added.length == max 1 pl.npkg

/-! ### Results (Table 10.1) -/

/-- The result of a piece at the boundary that closes job tick `t`, if the table gives one there. -/
def pieceResult (s : State) (q : Piece) (pl : Plan) (e : CollE) : Option (List Byte) :=
  let n := max 1 pl.npkg
  let t := s.tick.job
  let sum := fun tick =>
    let m := getSum s q.part q.ctx q.seg tick
    if m.added.length = n then some (redResult e.format m) else none
  if twoPhase q.kind e.format then
    if q.tick + 1 ≠ t then none
    else if q.step = 0 then sum q.tick
    else
      pieceData s q.part q.ctx 1 q.seg q.step ((pl.pos + q.step) % n)
        (ceilDiv (q.len * (if e.format = 1 then 2 else 1)) 1)
  else if q.tick ≠ t then none
  else if q.kind ≤ 1 then (if q.step = 0 then sum t else none)
  else if q.kind = 5 then
    let root := (pl.pos + n - q.step % n) % n
    let fs := landedPiece s q.part q.ctx 0 q.seg 0 root
    if fs.isEmpty then none else some (fs.flatMap fun f => frameBeats f.toFrame)
  else
    let fs := landedPiece s q.part q.ctx 0 q.seg q.step ((pl.pos + n - q.step % n) % n)
    if fs.isEmpty then none else some (fs.flatMap fun f => frameBeats f.toFrame)

/-- The bytes of the result that a piece brings its core in the closing tick (R278). -/
def pieceBytes (s : State) (q : Piece) : Option (List Byte) :=
  match getPlan s q.part with
  | none => none
  | some pl =>
    match collEntry pl q.ctx with
    | none => none
    | some e => if lcidOk q.core then pieceResult s q pl e else none

/-- A result is committed to the issuing core (R278). -/
def pieceWrites (s : State) (q : Piece) : List CommitW :=
  match pieceBytes s q with
  | some bs => [(q.core, 64 * q.rline, bs)]
  | none => []

/-- It is posted at the boundary (R278). -/
def piecePosts (s : State) (q : Piece) : List (Nat × Nat × Nat × Nat) :=
  if (pieceBytes s q).isSome ∧ q.cnt ≠ 0 then [(q.core, q.bank, q.sem, q.cnt)] else []

/-- Is a partition's work of the tick carried to its end: the primary's, and a running secondary's that does not stop at
the closing boundary (R379)? -/
def served (s : State) (part : Nat) : Bool := part == 0 || (secRunning s part && smGet 0 s.secStop part == 0)

/-- DATA frames of the tick that are committed, in the order of R41. -/
def dueFrames (s : State) : List Frame :=
  (tickEntries s).filter fun f => f.cls == clsData && served s (framePart s f.seq)

/-- Pieces whose results are committed. -/
def duePieces (s : State) : List Piece := s.reduce.pieces.filter fun q => served s q.part

/-- The commit of the tick in the guard: the Landing's entries, then the results of collectives (R91, R271, R272, R278). -/
def commitTick (dw : List CommitAcc) (s : State) : State :=
  let ws := (dueFrames s).flatMap (dataWrites s) ++ (duePieces s).flatMap (pieceWrites s)
  takeFaults (commitFaults dw ws s) (ws.foldl (commitWrite dw) s)

/-- The posts of the commit wait for the boundary's own place (R98, R272). -/
def duePosts (s : State) : State :=
  let ps := (dueFrames s).flatMap (dataPosts s) ++ (duePieces s).flatMap (piecePosts s)
  { s with hall := { s.hall with posts := s.hall.posts ++ ps } }

/-- Does a piece or sum of the closing tick live on for its second phase (R279, R292)? -/
def livesOn (s : State) (part ctx tick : Nat) : Bool :=
  tick == s.tick.job &&
  match getPlan s part with
  | some pl => match collEntry pl ctx with | some e => twoPhase e.kind e.format | none => false
  | none => false

/-- RED_LOAD: lane-nanoseconds of partition 0 in the closing tick, divided by 8 (Table 10.5). -/
def redLoad (s : State) : Nat :=
  (s.reduce.sums.foldl (fun a m =>
    if m.part = 0 ∧ m.tick = s.tick.job then
      match ownPiece s 0 m.ctx m.seg 0 m.tick with
      | some q => a + m.added.length * pieceFrames q.len
      | none => a
    else a) 0) / 8

/-- The engine at a boundary: load, and what is not needed again. -/
def closeReduce (s : State) : State :=
  let l := redLoad s
  let s' := peakF (setF s R.RED_LOAD.LAST l) R.RED_LOAD.PEAK l
  { s' with reduce := { s'.reduce with
      pieces := s.reduce.pieces.filter fun q => livesOn s q.part q.ctx q.tick,
      sums := s.reduce.sums.filter fun m => livesOn s m.part m.ctx m.tick } }

/-! ### Second phase and norm (R279, R298) -/

/-- The second-phase frames of a partition's sums leave in this tick. -/
def sendPhase2 (part : Nat) (s : State) : State :=
  match getPlan s part with
  | none => s
  | some pl =>
    let n := max 1 pl.npkg
    (phaseSums s part pl).foldl (fun t m =>
      match collEntry pl m.ctx with
      | none => t
      | some e =>
        (List.range n).foldl (fun t k =>
          if k = 0 then t
          else sendColl part pl (collFrames s part m.ctx 0 1 m.seg k ((pl.pos + n - k) % n) (redResult e.format m)) t) t) s

/-- The hub issues the norm contribution: segment 0, every step, one beat (R298). -/
def issueNorm (s : State) : State :=
  match getPlan s 0, normCtx s 0 with
  | some pl, some ctx =>
    let a := hubNorm s
    let data := leBytes 16 a.v ++ leBytes 16 (b2n a.sat + 2 * b2n a.nonfin) ++ List.replicate 32 0#8
    (List.range (max 1 pl.npkg)).foldl (fun s k =>
      issuePiece { core := 2 ^ 16, part := 0, ctx := ctx, kind := 0, seg := 0, step := k, rline := 0, cnt := 0,
                   sem := 0, bank := 0, len := 1, arr := false, tick := s.tick.job } pl data s) s
  | _, _ => s

/-- The global norm of the closing tick, when its sum is complete (R232, R298). -/
def normResult (s : State) : Option Acc128 :=
  match getPlan s 0, normCtx s 0 with
  | some pl, some ctx =>
    let m := getSum s 0 ctx 0 s.tick.job
    if m.added.length = max 1 pl.npkg then
      let f := m.flags.getD 0 0
      some { v := m.acc.getD 0 0, sat := f % 2 == 1, nonfin := f / 2 % 2 == 1 }
    else none
  | _, _ => none

end Sys2Proof.Machine
end

