-- ==== Sys2Proof/Machine/PlanOps.lean ====
section
/-! DEFINITION. What load, restart, release and drain do to the cores that a plan binds (R169, R170,
R184, R187, R310), and the stopping of a secondary (R377, R379, R381). -/

namespace Sys2Proof.Machine

/-- The cores that a plan binds: LCID and Bell-board bank of each core station (R173). -/
def planCores (pl : Plan) : List (Nat × Nat) :=
  pl.stations.filterMap fun e => if e.2.1 = 0 then some (e.1, e.2.2.2) else none

/-- The placement entry of the tick segment of a core and period tick (R170, R184). -/
def placeOf (pl : Plan) (c ptick : Nat) : Option SegE :=
  pl.segs.find? fun e => e.kind == 0 && e.lcid == c && e.ptick == ptick

/-- A placed segment is brought to its core, if it passes its check. -/
def bringSeg (pl : Plan) (c ptick : Nat) (s : State) : State :=
  match placeOf pl c ptick with
  | none => s
  | some e =>
    let seg := rdMems s e.pa (segBytes s e.pa false)
    if segOk false seg then updCore s c fun co => { placeSeg false seg co with pendFill := 0 } else s

/-- A core bound by a plan that is not a filler, cleared (R184 step 3). -/
def clearBound (c : Core) : Core :=
  { c with
    sem := [], semDelta := [], semWaits := [], semTake := [], heldLdw := [], inboundEnd := 0, desc := [], descNew := [], descBad := [], descWhen := [],
    acc := [], accOvf := [], accInt := [], accReady := [], accRead := [], engs := [], outst := [],
    parkLeft := 0, parkPend := none, landing := [], dead := false, ready := false, fill := 0, pendFill := 0,
    lone := false }

/-- One Bell-board bank cleared. -/
def clearBank (b : Nat) (c : Core) : Core := { c with sem := smClear c.sem (32 * b) 32 }

/-- Clear the cores of a plan and place period tick 0 (R184 step 3); of a filler only the bank that each
station names. -/
def prepareCores (pl : Plan) (s : State) : State :=
  (planCores pl).foldl (fun s e =>
    if pl.filler then updCore s e.1 (clearBank e.2)
    else bringSeg pl e.1 0 (updCore s e.1 fun c => { clearBound c with bound := pl.part + 1 })) s

/-- PLAN_RESUME of the primary's page (R310). -/
def setResume (m : Nat) (s : State) : State :=
  setFs s [(R.PLAN_RESUME_LO.TICK 0, m), (R.PLAN_RESUME_HI.TICK 0, m / 2 ^ 32)]

def resumeTick (s : State) : Nat := getF s (R.PLAN_RESUME_LO.TICK 0) + 2 ^ 32 * getF s (R.PLAN_RESUME_HI.TICK 0)

/-- The copies of the entry points hold this for an engine that has halted. -/
def haltMark : Nat := 4096

/-- Engines as a release leaves them: at rest until the launch, the halted ones halted (R84, R310): as the copies of R25
have it, or after a planned drain as they stand. -/
def releaseEngs (planned : Bool) (co : Core) : Core :=
  (List.range 6).foldl (fun c e =>
    if (if planned then (getEng co e).mode == .halted else co.copyEntries.getD e 0 == haltMark) then
      updEng c e fun _ => { mode := .halted, idx := (getEng co e).idx, free := 0 }
    else c) { co with engs := [] }

/-- The core as a release leaves it for tick m (R310): the Bell board and the entry points of the boundary,
the segment of the period tick in the pending half. -/
def releaseCore (pl : Plan) (m c : Nat) (planned : Bool) (s : State) : State :=
  bringSeg pl c (m % max 1 pl.period) <| updCore s c fun co =>
    let co := releaseEngs planned co
    { (if planned then co else { co with sem := co.copySem, bank := co.copyBank, entries := co.copyEntries }) with
      semDelta := [], semWaits := [], semTake := [], heldLdw := [], outst := [], landing := [], inboundEnd := 0,
      dead := false }

/-- The engines of a core issue nothing more. -/
def stopCore (c : Core) : Core :=
  { (List.range 6).foldl (fun c e => updEng c e fun g => if g.mode = .halted then g else { g with mode := .atTend }) c with
    outst := [], landing := [] }

/-- A secondary stops (R379): RUN clears, the cause is shown, its engines and runs are given up; a filler's
fetches are redirected no more (R381). -/
def stopSec (n cause : Nat) (s : State) : State :=
  if !flagF s (R.PART_RUN_STA.RUN n) && !flagF s (R.PART_RUN_STA.PENDING n) then s
  else
    raiseSec n E.PART.SEC_STOPPED <|
      mapCores (fun _ c => if c.bound = n + 1 ∨ c.fill = n then stopCore c else c) <|
      setFs { s with secs := smSet none s.secs n none, secStop := smSet 0 s.secStop n 0,
                     transit := s.transit.filter fun r => r.part != n,
                     mesh := s.mesh.filter fun t => (getCore s t.src).bound != n + 1 }
        [(R.PART_RUN_STA.RUN n, 0), (R.PART_RUN_STA.PENDING n, 0), (R.PART_RUN_STA.CAUSE n, cause)]

end Sys2Proof.Machine
end

