-- ==== Sys2Proof/Machine/Drain.lean ====
section
/-! DEFINITION. Drain and release, the comparison of test content, lock-step signatures and the
reading of the log (R303, R307 to R310, R313 to R317, R322, R323). -/

namespace Sys2Proof.Machine

/-! ### Drain requests (R308) -/

/-- A planned drain begins at boundary t; one of a boundary that is not at least two ticks ahead is a fault
drain, and a fault drain that runs takes precedence (R308). -/
def planDrain (t : Nat) (s : State) : State :=
  match tickCmp t (tickNum s) with
  | .newer d =>
    if d < 2 then faultDrain s
    else if s.tick.faultDrain then s
    else { s with tick := { s.tick with planned := some (s.tick.job + d) } }
  | _ => faultDrain s

/-- A drain request is logged (R308). -/
def noteDrain (t : Nat) (s : State) : State := raise E.FAULT.DRAIN_REQ (logOnly 0x46 uPkg 0 0 t s)

/-- A drain is requested; `at_` names the tick of a planned drain. Outside a run it is only logged. -/
def drainRequest (at_ : Option Nat) (s : State) : State :=
  if !running s || s.tick.draining then noteDrain (at_.getD 0) s
  else match at_ with
    | none => faultDrain (noteDrain 0 s)
    | some t => planDrain t (noteDrain t s)

/-- DRAIN_REQ_N held low for 1 µs (R308). -/
def execDrainReqPin (s : State) : Host.Outcome State Fault Refusal := .next (drainRequest none s)

/-- The drain that FLT_DRAIN_CMD's AT_TICK and TICK ask for. -/
def drainCmd (s : State) : State :=
  drainRequest (if flagF s R.FLT_DRAIN_CMD.AT_TICK then some (getF s R.FLT_DRAIN_CMD.TICK) else none) s

/-- FLT_DRAIN_CMD.DRAIN (R308). -/
def execFltDrainCmdDrain (s : State) : Host.Outcome State Fault Refusal := .next (drainCmd s)

/-! ### The drain sequence (R309) -/

/-- The working copy of a unit whose sweep is undone is written again from the restored master (R241, R309 step 4). -/
def rewriteCopy (k : Nat) (e : JEntry) (s : State) : State :=
  let ts := [0, 1, 2, 3].flatMap fun n => match panSec s n with | some q => q.tensors | none => []
  match ts.find? fun t => t.stack == k && decide (t.pa ≤ e.pa) && decide (e.pa < t.pa + t.nunits * unitBytes) with
  | none => s
  | some t =>
    if tWc t = 0 ∨ e.key % 2 = 0 then s
    else wrMems s (t.wcPa + (e.pa - t.pa) / unitBytes * tileBytes (wcDesc (tWc t))) (wcTile (tWc t) (masterAt s e.pa))

/-- A Pantry as it stood at the opening boundary (R309 step 4). -/
def drainPan (k : Nat) (s : State) : State :=
  let es := (getPan s k).journal
  closePan k (es.foldl (fun s e => rewriteCopy k e s) (restorePan k s))

/-- Runs not completed are abandoned (R309 step 2). -/
def dropRuns (s : State) : State :=
  mapChans (fun c => { c with queue := [], cur := none, retry := none }) { s with transit := [], mesh := [] }

/-- The Landing keeps nothing (R309 step 3); the halves of R292 that the resumed tick needs stay. -/
def dropLanding (s : State) : State :=
  let keep := fun t => decide (t < s.tick.job) || (s.tick.drainPlanned && t == s.tick.job)
  let s := showLanding { s with hall := { s.hall with land := [], posts := [] } }
  { s with reduce := { s.reduce with pieces := s.reduce.pieces.filter (fun q => keep q.tick),
                                     sums := s.reduce.sums.filter fun m => keep m.tick } }

/-- What the tick's own state is after a drain. -/
def restTick (s : State) : State :=
  { s with tick := { s.tick with
      draining := false, replay := .none, voidCode := none, voidedSrcs := [], faultDrain := false, planned := none,
      haltNext := false, pend := none, armed := false, atD := false, atV := false, paths := [], earlyVoids := [] } }

/-- The sequence of R309 completes. -/
def finishDrain (s : State) : State :=
  let s := dropLanding (dropRuns (settleGuest s))
  let s := allStacks.foldl (fun s k => drainPan k s) s
  let s := [1, 2, 3].foldl (fun s n => stopSec n 6 s) s
  let s := setFs (restTick s) [(R.TICK_NUM.RUN, 0), (R.PG_CTL.EN 0x03, 0), (R.PG_STA.ENABLED 0x03, 0)]
  let s := raise E.FAULT.DRAINED (setB (setTop stDrain s) R.FLT_STA.DRAINED true)
  if flagF s R.FLT_SUSPECT.FLAGGED then goFlagged s else s

/-- DRAINED (R309). -/
def execDrained (s : State) : Host.Outcome State Fault Refusal :=
  .next (if s.tick.draining then finishDrain s else s)

/-! ### Release (R310) -/

/-- The resume tick of a drained package. -/
def drainTick (s : State) : Nat := if s.tick.drainPlanned then s.tick.job + 1 else s.tick.job

/-- DRAIN to READY (R310). -/
def releaseDrain (s : State) : State :=
  if topState s ≠ stDrain ∨ !flagF s R.FLT_STA.DRAINED then s
  else
    let m := drainTick s
    let s := setTop stReady (setB s R.FLT_STA.DRAINED false)
    match primary s with
    | none => s
    | some pl =>
      setResume m ((planCores pl).foldl (fun t e => releaseCore pl m e.1 s.tick.drainPlanned t) s)

/-- FLT_DRAIN_CMD.RELEASE (R310). -/
def execFltDrainCmdRelease (s : State) : Host.Outcome State Fault Refusal := .next (releaseDrain s)

/-! ### Test content (R313 to R317) -/

/-- The partner of a core (R313). -/
def partner (s : State) (c : CoreId) : Nat :=
  if flagF s R.TST_PAIRING.AXIS then c.die.val * 2 ^ 14 + (c.row.val ^^^ 1) * 2 ^ 7 + c.col.val
  else c.die.val * 2 ^ 14 + c.row.val * 2 ^ 7 + (c.col.val ^^^ 1)

/-- Is the core the leader of its pair (R313)? -/
def isLeader (s : State) (c : CoreId) : Bool := decide (c.lcid < partner s c)

/-- TST_MISMATCH's number of an engine that runs test content (Table 11.12). -/
def testEngine : Engine → Option Nat
  | .ae0 => some 0 | .ae1 => some 1 | .mv => some 2 | .ve => some 3
  | _ => none

/-- SILENT_MISMATCH (R316). -/
def silentMismatch (c n : Nat) (s : State) : State :=
  let s := raise E.TEST.TST_MISMATCH <| setFs s
    [(R.TST_MISMATCH.LCID, c), (R.TST_MISMATCH.ENGINE, n), (R.TST_MISMATCH.VALID, 1), (R.TST_MISMATCH_TICK.TICK, tickNum s)]
  takeFault { mkFault 0x3E clHard uPair c 0 n with flag := 1 } (setSuspect s)

/-- Is a unit's core fenced (R312)? -/
def coreFenced (s : State) (c : Nat) : Bool := (getCore s c).fenced

/-- Are a pair's signatures compared? Those of ballast, which an engine runs once it has reached TEND, only with
TST_CTL.EN; those of TST always (R314, R317). -/
def testCompared (s : State) (c n : Nat) : Bool :=
  flagF s R.TST_CTL.EN || (running s && (getEng (getCore s c) n).mode == .running)

/-- The leader compares the signatures of a block that both cores have completed (R315, R317). -/
def execTestBlockCompare (lead : CoreId) (e : Engine) (j sigLead sigOther : Nat) (s : State) :
    Host.Outcome State Fault Refusal :=
  .next <|
    match testEngine e with
    | none => s
    | some n =>
      if !isLeader s lead || !testCompared s lead.lcid e.no || coreFenced s lead.lcid || coreFenced s (partner s lead) ||
         (getCore s lead.lcid).tests.any (fun t => t.1 == n && t.2.1 == j) then s
      else
        let s := updCore s lead.lcid fun c => { c with tests := (n, j, sigLead) :: c.tests }
        let s := incSat s R.TST_COUNT.BLOCKS 1
        if sigLead = sigOther then s else silentMismatch lead.lcid n s

/-! ### Lock-step (R322, R323) -/

/-- CRC-64 of the core CRCs of a group, in ascending LCID (R322). -/
def groupSig (s : State) (d g : Nat) : Nat :=
  crc64Run 0 ((List.range 64).flatMap fun i =>
    leBytes 8 (getCore s (d * 2 ^ 14 + (g / 10 * 8 + i / 8) * 2 ^ 7 + (g % 10 * 8 + i % 8))).sig)

/-- The group signatures of the package, 400 of 8 bytes (R322). -/
def ownSigs (s : State) : List Byte :=
  (List.range 400).flatMap fun x => leBytes 8 (groupSig s (x / 100) (x % 100))

/-- The other package of a lock-step pair. -/
def peerOf (s : State) : Nat := 1 - myId s

def lockstepOn (s : State) : Bool := flagF s R.FLT_LOCKSTEP_CTL.EN && flagF s R.FLT_LOCKSTEP_STA.ACTIVE

/-- The 13 frames to the peer (R322). -/
def lockstepFrames (s : State) : List Frame :=
  let bs := ownSigs s
  (List.range 13).map fun f =>
    { ctrlFrame s 4 (peerOf s) (if f = 12 then 2 else 4) ((bs.drop (256 * f)).take (if f = 12 then 128 else 256)) with
      foff := f }

/-- They are queued toward the peer, between D and V (R322). -/
def sendLockstep (s : State) : State :=
  if !lockstepOn s then s
  else match egressPort s (peerOf s) with
    | none => s
    | some p => (lockstepFrames s).foldl (fun s f => queueCtrl p f s) s

/-- A frame of the peer's signatures for the tick in progress. -/
def lockstepRx (tick f : Nat) (data : List Byte) (s : State) : State :=
  if !lockstepOn s || !running s || tick != tickNum s || decide (12 < f) then s
  else
    { s with flt := { s.flt with
        peerSig := smSetList 0 s.flt.peerSig (256 * f) (data.take (if f = 12 then 128 else 256)),
        peerGot := if s.flt.peerGot.contains f then s.flt.peerGot else f :: s.flt.peerGot } }

/-- LOCKSTEP (R322). -/
def execLockstep (tick f : Nat) (data : List Byte) (s : State) : Host.Outcome State Fault Refusal :=
  .next (lockstepRx tick f data s)

/-- The first group that differs or whose frame is missing: die and group; whether frames are missing (R323). -/
def lockstepDiff (s : State) : Option (Nat × Nat × Bool) :=
  let own := ownSigs s
  let peer := smGetList 0 s.flt.peerSig 0 3200
  match (List.range 400).find? fun x =>
      !s.flt.peerGot.contains (x / 32) || (own.drop (8 * x)).take 8 != (peer.drop (8 * x)).take 8 with
  | some x => some (x / 100, x % 100, decide (s.flt.peerGot.length < 13))
  | none => none

/-- The comparison at V (R323): a mismatch halts the package at the closing boundary. -/
def lockstepVerdict (s : State) : State :=
  if !lockstepOn s || s.tick.haltNext || s.tick.replay == .quiescing || s.tick.replay == .ready then s
  else match lockstepDiff s with
    | none => s
    | some (d, g, late) =>
      let s := setFs s [(R.FLT_LOCKSTEP_STA.MISMATCH, 1), (R.FLT_LOCKSTEP_STA.LATE, b2n late), (R.FLT_LOCKSTEP_STA.DIE, d),
                        (R.FLT_LOCKSTEP_STA.GROUP, g), (R.FLT_LOCKSTEP_TICK.TICK, tickNum s)]
      let s := logOnly 0x3F uPkg 0 0 (peerOf s) (raise E.FAULT.LOCKSTEP_MISMATCH s)
      { s with tick := { s.tick with haltNext := true } }

/-- The signatures of an attempt are discarded (R323). -/
def clearSigs (s : State) : State :=
  mapCores (fun _ c => { c with sig := 0 }) { s with flt := { s.flt with peerSig := [], peerGot := [] } }

end Sys2Proof.Machine
end

