-- ==== Sys2Proof/Machine/Rights.lean ====
section
/-! DEFINITION. Who may write a register, and what becomes of a write that may not be made (R354, R376,
R389, R395, R402, R405). -/

namespace Sys2Proof.Machine

/-! ### Where a requester's registers stand -/

/-- The page number under which a requester's header of a page stands: each function has its own PLAN
view (R183); the SMBus window sees PF0's. -/
def hdrPage (r : Req) (pg : Nat) : Nat :=
  if pg = 0x52 then match r with | .pf n => reqPage pg n.val | .smb => pg
  else pg

/-- The page number under which a requester's block registers stand: PLAN views, and CORE_WIN sets of
every requester (R115, R397). -/
def blkPage (r : Req) (pg : Nat) : Nat := if pg = 0x50 then reqPage pg r.no else hdrPage r pg

/-- BAR0 offset of a register in a view (R395). -/
def barOffset (pg view off : Nat) : Nat := pg * 0x10000 + view * 0x1000 + off

/-! ### Write rights (R376, R389) -/

/-- May function n ≥ 1 write a word of the page? `w` is the word as it would stand. -/
def pfMayWrite (s : State) (n pg off w : Nat) : Bool :=
  if pg = 0x52 then true
  else if off = 0x14 ∨ off = 0x18 then pg == 0x06 || pg == 0x41 || pg == 0x50
  else if pg = 0x06 then off == 0x88 && w % 4 == n
  else if pg = 0x50 then decide (0x40 ≤ off)
  else if pg = 0x41 then
    decide (0x100 ≤ off) && decide (off < 0x300) && getF s (R.HIF_PF_MAP.CH ((off - 0x100) / 0x20)) == n
  else false

/-- May the SMBus window write the word (R389)? From a hub in its boot ROM it reaches three pages (R388). -/
def smbMayWrite (s : State) (pg off : Nat) : Bool :=
  pg == 0x42 || pg == 0x02 || pg == 0x01 ||
  (!s.bu.bootRom && (pg == 0x04 || (pg == 0x00 && off == 0x64) || (pg == 0x05 && off == 0x54)))

/-- May the requester write the word? -/
def mayWrite (s : State) (r : Req) (pg off w : Nat) : Bool :=
  match r with
  | .pf n => n == 0 || pfMayWrite s n.val pg off w
  | .smb => smbMayWrite s pg off

/-- Until P3 has restored the Kept fields only the ATTIC and BRINGUP pages take writes (R354). -/
def pageOpen (s : State) (pg : Nat) : Bool := flagF s R.ATTIC_RESTORE_STA.DONE || pg == 0x01 || pg == 0x02

/-- A write outside the requester's rights is dropped and recorded (R376, R389). -/
def denyWrite (r : Req) (pg view off : Nat) (s : State) : State :=
  match r with
  | .pf n =>
    raise E.HOSTIF.ACCESS_DENIED
      (setFs s [(R.HIF_DENIED.OFFSET, barOffset pg view off), (R.HIF_DENIED.PF, n.val)])
  | .smb => { s with hif := { s.hif with winDrop := true } }

/-! ### Rejected writes (R405) -/

/-- A rejected write: CFG_REJECT and its record. -/
def rejectWrite (r : Req) (pg view off : Nat) (s : State) : State :=
  let p := hdrPage r pg
  setFs s [(R.PG_STA.CFG_REJECT p, 1), (R.PG_CFGREJ_ADDR.OFFSET p, off), (R.PG_CFGREJ_ADDR.VIEW p, view),
           (R.PG_CFGREJ_ADDR.PF p, match r with | .pf n => n.val | .smb => 0),
           (R.PG_CFGREJ_ADDR.SMB p, match r with | .pf _ => 0 | .smb => 1)]

/-- A write to PG_CTL that takes effect clears the record. -/
def clearReject (p : Nat) (s : State) : State :=
  setFs s [(R.PG_STA.CFG_REJECT p, 0), (R.PG_CFGREJ_ADDR.OFFSET p, 0), (R.PG_CFGREJ_ADDR.VIEW p, 0),
           (R.PG_CFGREJ_ADDR.PF p, 0), (R.PG_CFGREJ_ADDR.SMB p, 0)]

/-- PG_CTL.EN and PG_STA.ENABLED of a page take a value together. -/
def setEnable (p : Nat) (b : Bool) (s : State) : State :=
  setFs s [(R.PG_CTL.EN p, b2n b), (R.PG_STA.ENABLED p, b2n b)]

end Sys2Proof.Machine
end

