-- ==== Sys2Proof/Machine/Tick.lean ====
section
/-! DEFINITION. Time and launch: the sync exchange, the launch checks and the collection at the root, the
decision and verdict points, and the SYNC messages of a running system (R10 to R37). -/

namespace Sys2Proof.Machine

/-! ### The sync exchange (R10 to R14; log 5) -/

/-- LOCK takes a value; its rise is an event. -/
def setLock (b : Bool) (s : State) : State :=
  raiseIf (b && !flagF s R.TICK_SYNC_STA.LOCK) E.TICK.SYNC_LOCK (setB s R.TICK_SYNC_STA.LOCK b)

/-- The port toward the root, if a route reaches it. -/
def syncRoute (s : State) : Option Nat :=
  let root := getF s R.TICK_ROOT.ROOT
  if root < nPkg s then egressPort s root else none

/-- A sync period begins (R10): a TIME_REQ leaves for the next package toward the root; its t1 is the count at which it
is queued (log 108). A root that no route reaches leaves LOCK at 0 (R14). -/
def execSyncPeriod (s : State) : Host.Outcome State Fault Refusal :=
  .next <|
    if isRoot s then s
    else
      let t := setF { s with sync := { s.sync with xchg := none } }
        R.TICK_SYNC_STA.HOPS (hopsTo s (getF s R.TICK_ROOT.ROOT))
      match syncRoute s with
      | none => setB t R.TICK_SYNC_STA.LOCK false
      | some p =>
        queueSync p (syncFrame s 0 (expectedPeer s p).1 false (leBytes 8 s.counter))
          { t with sync := { t.sync with xchg := some s.counter } }

/-- The receive timestamp of a TIME frame: 22.4 ns earlier for a second copy (R254; whole ns, log 31). -/
def rxStamp (copy : Bool) (s : State) : Nat := s.counter - (if copy then 22 else 0)

/-- A TIME_REQ is answered on the port it came by (R10, Table 9.5); t3 is the count at which the answer is queued (log 108). -/
def timeReqRx (p t1 : Nat) (copy : Bool) (s : State) : State :=
  queueSync p (syncFrame s 1 (expectedPeer s p).1 false
    (leBytes 8 t1 ++ leBytes 8 (rxStamp copy s) ++ leBytes 8 s.counter)) s

/-- TIME_REQ (R10). -/
def execTimeReq (p : PortNo) (t1 : Nat) (copy : Bool) (s : State) : Host.Outcome State Fault Refusal :=
  .next (timeReqRx p t1 copy s)

/-- The offset of R10 from the four timestamps; a half is dropped toward zero (log 31). -/
def syncOffset (t1 t2 t3 t4 : Nat) : Int :=
  Int.tdiv (((t2 : Int) - (t1 : Int)) - ((t4 : Int) - (t3 : Int))) 2

/-- A 32-bit two's-complement field of a number. -/
def twos32 (x : Int) : Nat := (x % (2 ^ 32 : Nat)).toNat

/-- The counter moved by a measured offset (R12). -/
def stepCounter (d : Int) (s : State) : State :=
  { s with counter := (((s.counter : Int) + d) % (2 ^ 64 : Nat)).toNat,
           bu := { s.bu with started := (((s.bu.started : Int) + d) % (2 ^ 64 : Nat)).toNat } }

/-- What a measured offset does (R11 to R13): before the first lock it steps the counter; after it, and while RUN = 1,
it is slewed, and LOCK follows the bound of R11. -/
def applyOffset (d : Int) (s : State) : State :=
  if !s.sync.locked && !running s then
    setLock true (stepCounter d { s with sync := { s.sync with locked := true, slew := 0 } })
  else
    let s := setLock (decide (d.natAbs ≤ 25)) { s with sync := { s.sync with slew := d } }
    if running s && decide (200 < d.natAbs) then declareOverrun 4 s else s

/-- A TIME_RSP completes the exchange that its t1 names (R10). The residual is an estimate: free (log 2). -/
def timeRspRx (t1 t2 t3 : Nat) (copy : Bool) (s : State) : State :=
  if isRoot s || s.sync.xchg != some t1 then s
  else
    let d := syncOffset t1 t2 t3 (rxStamp copy s)
    let (r, s) := takeFree { s with sync := { s.sync with xchg := none } }
    applyOffset d (setFs s [(R.TICK_OFFSET.OFFSET, twos32 d), (R.TICK_SYNC_STA.MISSED, 0), (R.TICK_SYNC_STA.RESID, r.toNat)])

/-- TIME_RSP (R12). -/
def execTimeRsp (_p : PortNo) (t1 t2 t3 : Nat) (copy : Bool) (s : State) : Host.Outcome State Fault Refusal :=
  .next (timeRspRx t1 t2 t3 copy s)

/-- A sync period passes without an exchange (R13). -/
def execSyncPeriodMissed (s : State) : Host.Outcome State Fault Refusal :=
  .next <|
    if isRoot s then s
    else
      let s := incSat { s with sync := { s.sync with xchg := none } } R.TICK_SYNC_STA.MISSED 1
      let n := getF s R.TICK_SYNC_STA.MISSED
      let s := if n = 4 then logOnly 0x44 uPkg 0 0 0 (raise E.TICK.SYNC_LOST s) else s
      if n < 16 then s
      else if running s then declareOverrun 4 s
      else setB s R.TICK_SYNC_STA.LOCK false

/-! ### The launch checks (R21, R185, R196, R322, R343, R411) -/

/-- The launch count written to TICK_LAUNCH is far enough ahead (R21). -/
def launchAhead (s : State) : Bool := decide (s.counter + 1000000 ≤ tickLaunch s)

/-- The primary's header agrees with the tick settings (R185). -/
def planFits (s : State) : Bool :=
  match primary s with
  | none => false
  | some pl => pl.tickLen == tickLen s && pl.guard == getF s R.TICK_GUARD.GUARD

/-- Refresh phases and retry reserves stand as at load (R196). -/
def refreshFits (s : State) : Bool :=
  allStacks.all fun k =>
    getF s (R.STK_REF_PHASE.PHASE k) + 2 ^ 16 * getF s (R.STK_REF_PHASE.STAGGER k) == (getStk s k).refAt &&
    getF s (R.STK_RETRY_RESV.PERMILLE k) == (getStk s k).resvAt

/-- Lock-step asks for a system of two packages (R322). -/
def lockstepFits (s : State) : Bool :=
  !flagF s R.FLT_LOCKSTEP_CTL.EN || (dimD s 0 == 2 && dimD s 1 == 1 && dimD s 2 == 1)

/-- The coolant has been checked and flows the right way, not too cold (R343). -/
def coolantFits (s : State) : Bool :=
  flagF s R.HTH_COOLANT_STA.CHECKED && !flagF s R.HTH_COOLANT_STA.REVERSED && !flagF s R.HTH_COOLANT_STA.INLET_COLD

/-- The mode is the one that the primary plan declares (R411). -/
def modeFits (s : State) : Bool := flagF s R.TOP_MODE.BOOST == flagF s (R.PLAN_STA.BOOST 0)

/-- Every check that an enable of the TICK page makes. -/
def launchOk (s : State) : Bool :=
  topState s == stReady && launchAhead s && lockNow s && planFits s && refreshFits s && lockstepFits s &&
  coolantFits s && modeFits s

/-- The digest of R21. -/
def launchDigest (s : State) (l : Nat) : Nat :=
  crc64Run 0 (leBytes 8 (tickLen s) ++ leBytes 8 (getF s R.TICK_GUARD.GUARD) ++ leBytes 8 (getF s R.TICK_STRETCH_Q.Q) ++
    leBytes 8 (getF s R.TICK_STRETCH_MAX.MAX) ++ leBytes 8 l ++ leBytes 8 (resumeTick s) ++
    leBytes 8 (match primary s with | some pl => pl.id | none => 0) ++
    leBytes 8 (regWord s 0 0x4C * 2 ^ 32 + regWord s 0 0x48) ++ leBytes 8 (regWord s 0 0x50))

/-- The root notes a package's digest. -/
def noteDigest (src digest : Nat) (s : State) : State :=
  { s with tick := { s.tick with digests := (src, digest) :: s.tick.digests.filter fun e => e.1 != src } }

/-- A successful enable: the launch is pending, its digest goes to the root, and TICK_LAUNCH becomes L − m × TICK_LEN
(R21, R22). -/
def beginLaunch (s : State) : State :=
  let l := tickLaunch s
  let d := launchDigest s l
  let n := subMod 64 l (resumeTick s * tickLen s)
  let t := setLaunch n (setEnable 0x03 true (clearReject 0x03 s))
  let t := { t with tick := { t.tick with pend := some (l, d), armed := false, nominal := n } }
  if isRoot s then noteDigest (myId s) d t
  else
    match egressPort s (getF s R.TICK_ROOT.ROOT) with
    | some p => queueSync p (syncFrame s 2 (getF s R.TICK_ROOT.ROOT) false (leBytes 8 d)) t
    | none => t

/-- PG_CTL.EN of the TICK page is set (R21). -/
def tickEnable (s : State) : State :=
  if flagF s (R.PG_CTL.EN 0x03) then clearReject 0x03 s
  else if launchOk s then beginLaunch s
  else raise E.TICK.LAUNCH_PAST (setB (clearReject 0x03 s) (R.PG_CTL.EN 0x03) false)

/-- A requester sets PG_CTL.EN of the TICK page (R21, R376). -/
def execLaunchEnable (r : Req) (s : State) : Host.Outcome State Fault Refusal :=
  .next <|
    if !pageOpen s 0x03 then s
    else if !mayWrite s r 0x03 0x04 1 then denyWrite r 0x03 0 0x04 s
    else tickEnable s

/-! ### Collection and GO (R22) -/

/-- A LAUNCH frame reaches the root. -/
def launchRx (src digest : Nat) (s : State) : State := if isRoot s then noteDigest src digest s else s

/-- LAUNCH (R22). -/
def execLaunch (src digest : Nat) (s : State) : Host.Outcome State Fault Refusal := .next (launchRx src digest s)

/-- The launch is given up (R22). -/
def abortLaunch (s : State) : State :=
  raise E.TICK.LAUNCH_ABORT
    (setEnable 0x03 false { s with tick := { s.tick with pend := none, armed := false, digests := [] } })

/-- Every package that the plan image lists has sent the root's own digest (R22). -/
def allAgree (s : State) (own : Nat) : Bool :=
  match primary s with
  | none => false
  | some pl => (List.range (max 1 pl.npkg)).all fun i => s.tick.digests.any fun e => e.1 == i && e.2 == own

/-- L − 200 000 ns at the root: GO or NOGO (R22). -/
def execGoDeadline (s : State) : Host.Outcome State Fault Refusal :=
  .next <|
    match s.tick.pend with
    | none => s
    | some (_, own) =>
      if !isRoot s || s.tick.armed || running s then s
      else if allAgree s own then
        broadcast 3 (leBytes 8 (tickLaunch s)) { s with tick := { s.tick with armed := true } }
      else abortLaunch (broadcast 4 (leBytes 8 (tickLaunch s)) s)

/-- A GO frame for the pending launch. -/
def goRx (l : Nat) (s : State) : State :=
  if s.tick.pend.isSome && !running s && l == tickLaunch s then { s with tick := { s.tick with armed := true } } else s

/-- GO (R22). -/
def execGo (l : Nat) (s : State) : Host.Outcome State Fault Refusal := .next (goRx l s)

/-- A NOGO frame ends the pending launch. -/
def nogoRx (s : State) : State := if s.tick.pend.isSome && !running s then abortLaunch s else s

/-- NOGO (R22). The count that it carries takes no part in its effect. -/
def execNogo (_l : Nat) (s : State) : Host.Outcome State Fault Refusal := .next (nogoRx s)

/-- L − 100 000 ns: without a GO the launch is given up (R22). -/
def execLaunchGoTimeout (s : State) : Host.Outcome State Fault Refusal :=
  .next (if s.tick.pend.isSome && !running s && !s.tick.armed then abortLaunch s else s)

/-! ### The decision and verdict points (R18, R26, R34, R322, R379) -/

/-- The changes of every core's held cycle enter its Bell board. -/
def closeSems (s : State) : State :=
  ((s.cores.filter fun e => !(semTouched e.2).isEmpty).map (·.1)).foldl (fun s c => closeSem c s) s

/-- Have all engines of a partition's cores reached TEND (R26)? A park that goes on has until its last tick (R110, R111). -/
def partAtRest (s : State) (part : Nat) : Bool :=
  s.cores.all fun e => e.2.bound == 0 || corePart e.2 != part || decide (1 < e.2.parkLeft) || (engModes e.2).all atRest

/-- A running secondary will stop at the closing boundary (R379). -/
def stopLater (n cause : Nat) (s : State) : State :=
  if secRunning s n && smGet 0 s.secStop n == 0 then { s with secStop := smSet 0 s.secStop n cause } else s

/-- May the package go on to the next tick: no fault drain and no replay that has not begun? -/
def tickBlocked (s : State) : Bool :=
  s.tick.faultDrain || s.tick.replay == .quiescing || s.tick.replay == .ready

/-- D (R26, R34, R379). A fault that the last held cycle brings to light has moved the boundary: D lies
ahead again. -/
def decision (s : State) : State :=
  let s := closeSems (redoGuest { s with tick := { s.tick with atD := true } })
  let s := [1, 2, 3].foldl (fun s n => if partAtRest s n then s else stopLater n 2 s) s
  if !s.tick.atD then s
  else if !partAtRest s 0 || tickBlocked s then needStretch s
  else if flagF s R.TICK_STRETCH_CNT.VOIDED && !sumsComplete s 0 then declareOverrun 1 s
  else sendLockstep s

/-- The decision point (R26). -/
def execDecisionPoint (s : State) : Host.Outcome State Fault Refusal :=
  .next (if running s && !s.tick.draining && !s.tick.atD then decision s else s)

/-- Frames that the plan expects for the tick (R271). -/
def landingDue (s : State) (n : Nat) : Nat :=
  match getPlan s n with
  | some pl => smGet 0 pl.landing (periodTick s n)
  | none => 0

/-- The Landing still lacks arrivals of the tick that a partition's plan expects: frames of other packages, or flits of the
guest's streams (R26, R77, R271). -/
def landingShort (s : State) (n : Nat) : Bool :=
  decide (landedFrames s n < landingDue s n) || decide (guestLanded s n < guestDue s n)

/-- The replayed tick has not reached TEND (R34). -/
def replayLate (s : State) : Bool := s.tick.replay == .running && !partAtRest s 0

/-- V (R26, R34, R91, R323, R379): the Landing is complete and its commit made, or the boundary moves; a fault of the
commit may move it too. -/
def verdict (dw : List CommitAcc) (s : State) : State :=
  let s := [1, 2, 3].foldl (fun s n => if landingShort s n then stopLater n 3 s else s) s
  if landingShort s 0 || !sumsComplete s 0 || tickBlocked s || replayLate s then needStretch s
  else
    let s := commitTick dw s
    if tickBlocked s || s.tick.draining then s
    else lockstepVerdict { s with tick := { s.tick with atV := true } }

/-- The verdict point (R26). -/
def execVerdictPoint (dw : List CommitAcc) (s : State) : Host.Outcome State Fault Refusal :=
  .next (if running s && !s.tick.draining && s.tick.atD && !s.tick.atV then verdict dw s else s)

/-! ### STRETCH, ABORT, VOID (R27 to R34) -/

/-- A STRETCH frame (R27, R30, R34). -/
def stretchRx (tick k : Nat) (s : State) : State :=
  if !running s || s.tick.draining then s
  else if tick % 2 ^ 24 = nextNum s then
    if !flagF s R.TICK_STRETCH_CNT.VOIDED && k == getF s R.TICK_STRETCH_CNT.CUR + 1 then applyStretch s else s
  else match tickCmp tick (nextNum s) with
    | .older _ => declareOverrun 2 (raise E.TICK.STRETCH_LATE s)
    | _ => s

/-- STRETCH (R27). The originating package takes no part in its effect. -/
def execStretch (tick k _src : Nat) (s : State) : Host.Outcome State Fault Refusal := .next (stretchRx tick k s)

/-- An ABORT frame (R29). -/
def abortRx (pkg cause : Nat) (s : State) : State := if running s then recordOverrun pkg cause s else s

/-- ABORT (R29). Its tick number takes no part in its effect. -/
def execAbort (pkg cause _tick : Nat) (s : State) : Host.Outcome State Fault Refusal := .next (abortRx pkg cause s)

/-- A VOID frame (R30, R32, R33, R37). -/
def voidRx (pkg tick : Nat) (s : State) : State :=
  if !running s || s.tick.draining then s
  else if tick ≠ tickNum s then declareOverrun 2 (raise E.TICK.STRETCH_LATE s)
  else if pkg = myId s then
    if secondFault s then declareOverrun 5 s else withdraw none s
  else dropSource pkg tick (postpone s)

/-- VOID (R33). -/
def execVoid (pkg tick : Nat) (s : State) : Host.Outcome State Fault Refusal := .next (voidRx pkg tick s)

end Sys2Proof.Machine
end

