-- ==== Sys2Proof/Machine/Boundary.lean ====
section
/-! DEFINITION. The boundary and the replay: what closes a tick, what opens one, the segment swap, the
start of a launch, and the re-execution of a voided tick (R16, R25, R35, R93, R110, R114, R377, R381). -/

namespace Sys2Proof.Machine

/-! ### A core at a boundary -/

/-- What a core loses at every boundary: weights and pairing (R145, R150), fresh bits (R90), the marks of
the closed tick, its DEADLOCK report (R105) and its signature (R322). Descriptors written last enter force. -/
def newTickCore (c : Core) : Core :=
  { descAt (c.descCyc + 1) c with
    descCyc := 0, descBad := [], descWhen := [], fresh := [],
    accReady := [], accRead := [], mvReady := [], mvRead := [], mmaUntil := [],
    act0 := wset0, sh0 := wset0, act1 := wset0, sh1 := wset0, paired := false, heldLdw := [],
    semCyc := 0, semWaits := [], inboundEnd := 0, dead := false, gated := false, sig := 0, blocks := [], tests := [] }

/-- The copies of R25. -/
def takeCopies (c : Core) : Core :=
  { c with
    copySem := c.sem, copyBank := c.bank,
    copyEntries := (List.range 6).map fun e =>
      let g := getEng c e
      if g.mode = .halted then haltMark else g.idx }

/-- An engine at its entry point; a halted one stays so (R84). -/
def entryEng (lone : Bool) (e idx : Nat) (g : Eng) : Eng :=
  if g.mode = .halted then g
  else { mode := if lone ∧ e ≠ 4 then .atTend else .running, idx := idx, free := 0 }

/-- All engines at their entry points. -/
def startEngines (c : Core) : Core :=
  (List.range 6).foldl (fun c e => updEng c e (entryEng c.lone e (c.entries.getD e 0))) c

/-- The pending half becomes active (R92, R93, R96); a stopped filler's segment runs LD's first word only (R381). -/
def swapHalves (s : State) (c : Core) : Core :=
  startEngines { c with
    activeB := !c.activeB, ready := false, bank := c.pendBank, entries := c.pendEntries,
    fill := c.pendFill, pendFill := 0, lone := c.pendFill != 0 && !secRunning s c.pendFill }

/-- Every engine holds at its entry point (R93). -/
def holdEngines (c : Core) : Core :=
  (List.range 6).foldl (fun c e => updEng c e fun g =>
    if g.mode = .halted then g else { mode := .holding, idx := g.idx, free := 0 }) c

/-- An engine as the park begins: a halted one stays so (R84); LD and ST start at their entry points (R110). -/
def parkEng (e idx : Nat) (g : Eng) : Eng :=
  if g.mode = .halted then g
  else if e < 4 then { mode := .parked, idx := 0, free := 0 }
  else { mode := .running, idx := idx, free := 0 }

/-- The park list begins in tick `n`, whose opening boundary is the park's first (R110, Table 3.5). -/
def beginPark (n k : Nat) (c : Core) : Core :=
  let c := { c with parkLeft := k, parkPend := none, parkTick := n }
  (List.range 6).foldl (fun c e => updEng c e (parkEng e (c.parkEntries.getD e 0))) c

/-- A park goes on: LD and ST do not start again (R110). -/
def goOnParked (c : Core) : Core :=
  let c := { c with parkLeft := c.parkLeft - 1 }
  updEng (updEng c 4 fun g => { g with free := 0 }) 5 fun g => { g with free := 0 }

/-- A restored context takes its place at the boundary that ends the park (R114). -/
def applyContext (c : Core) : Core :=
  match c.rstHdr with
  | none => c
  | some h =>
    let b := leNat ((h.drop 7).take 1)
    { c with
      rstHdr := none, activeB := b % 2 == 0, ready := b / 2 % 2 == 1, bank := b / 4 % 2, pendBank := b / 4 % 2,
      pendEntries := (List.range 6).map fun e => leNat ((h.drop (80 + 2 * e)).take 2) % 2 ^ 11 }

/-- The park is over: its engines are at TEND until they start; a halted one stays so (R84). -/
def endPark (c : Core) : Core :=
  (List.range 6).foldl (fun c e => updEng c e fun g => if g.mode = .halted then g else eng0)
    { applyContext c with parkLeft := 0 }

/-- The core as the tick opens: it parks, goes on parked, or swaps its halves or holds (R93, R110). -/
def openCore (s : State) (c : Core) : Core :=
  takeCopies <|
    if 1 < c.parkLeft then goOnParked c
    else
      let c := if c.parkLeft = 1 then endPark c else c
      match c.parkPend with
      | some k => beginPark (tickNum s) k c
      | none => if c.ready then swapHalves s c else holdEngines c

/-- Does a loaded plan run on the core in this tick? -/
def coreRuns (s : State) (c : Core) : Bool := c.bound != 0 && partRuns s (c.bound - 1)

/-- Do engines of the core hold at their entry points (R93)? -/
def holds (c : Core) : Bool := (engModes c).any (· == .holding)

/-- IB_LATE (R93): an entry for a core whose engines hold. -/
def lateCore (s : State) (c : Core) : Bool := coreRuns s c && c.parkLeft == 0 && holds c

/-- Every core of a running plan opens the tick. -/
def openCores (s : State) : State :=
  let s := mapCores (fun _ c => newTickCore c) s
  let s := mapCores (fun _ c => if coreRuns s c then openCore s c else c) s
  ((s.cores.filter fun e => lateCore s e.2).map (·.1)).foldl (fun s c => logOnly 0x19 uCore c 0 0 s) s

/-- The swap takes place in the cycle after READY rises (R93). -/
def execIbLateSwap (c : CoreId) (s : State) : Host.Outcome State Fault Refusal :=
  .next <|
    let co := getCore s c.lcid
    if issueOpen s && lateCore s co && co.ready then
      updCore s c.lcid fun co =>
        let d := swapHalves s co
        { d with copyEntries := (takeCopies d).copyEntries, copyBank := d.bank }
    else s

/-! ### What closes a tick -/

/-- The secondaries that stop at the boundary by R379 stop before the commit. -/
def stopSecs (s : State) : State :=
  [1, 2, 3].foldl (fun s n =>
    let cause := smGet 0 s.secStop n
    if cause = 0 then s else stopSec n cause s) s

/-- The secondaries whose STOP names the opening tick end after the commit (R377). -/
def endSecs (s : State) : State :=
  [1, 2, 3].foldl (fun s n =>
    match smGet none s.secs n with
    | some q => if q.stop = some (s.tick.job + 1) then stopSec n 1 s else s
    | none => s) s

/-- The collective work of stopped secondaries is given up. -/
def dropUnserved (s : State) (r : Reduce) : Reduce :=
  { r with
    pieces := r.pieces.filter fun q => served s q.part
    sums := r.sums.filter fun m => served s m.part }

/-- The posts of the committed tick; the work of stopped secondaries is given up (R272, R379). -/
def closeCommit (s : State) : State := duePosts { s with reduce := dropUnserved s s.reduce }

/-- The collective engine and the Landing after the commit (R272, R292, R298). -/
def closeHall (s : State) : State :=
  let r := normResult s
  let s := freeLanding (closeReduce s)
  match r with
  | some a => landNorm a s
  | none => s

/-- Period ticks of the primary's PANTRY section at which the norm is latched and the step advances. -/
def panTicks (s : State) : Option (Nat × Nat × Nat) :=
  match panSec s 0 with
  | some q => some (q.normPtick, q.stepPtick, q.mbatch)
  | none => none

/-- The Pantries at a boundary (R228, R232, R236, R243). -/
def closePantries (s : State) : State :=
  let pt := periodTick s 0
  let s := allStacks.foldl (fun s k => clearGns k s) s
  let s := match panTicks s with
    | some (n, st, mb) =>
      let s := if pt = n then allStacks.foldl (fun s k => latchNorm k s) s else s
      if pt = st then stepAdvance mb s else s
    | none => s
  allStacks.foldl (fun s k => closePan k s) s

/-- Does the closing tick latch the norm, so that its contribution is issued in the next (R232)? -/
def normNext (s : State) : Bool :=
  match panTicks s with
  | some (n, _, _) => periodTick s 0 == n
  | none => false

/-- The largest refresh debt of a stack's channels. -/
def stackDebt (s : State) (k : Nat) : Nat := (List.range 32).foldl (fun m c => max m (debt s (chanKey k c))) 0

/-- Debts seen and tokens granted (R197, R213); a margining step gives way to the opening tick (R212). -/
def closeStacks (s : State) : State :=
  allStacks.foldl (fun s k =>
    let s := abortMargin k (getF s (R.STK_MARGIN_CTL.CHAN k)) (peakF s (R.STK_REF_STA.DEBT_MAX k) (stackDebt s k))
    updStk s k fun q => { q with tokens := [1, 2, 3].foldl (fun m n =>
      smSet 0 m n (min (getF s (R.STK_REG.BURST k n)) (smGet 0 m n + getF s (R.STK_REG.RATE k n)))) q.tokens }) s

/-- Byte times count from the new boundary (R192). -/
def rebaseChans (s : State) : State :=
  let d := 768 * closeOffset s / 10
  mapChans (fun c => { c with freeAt := c.freeAt - d, start := c.start - d, retryOcc := 0 }) s

/-- The Hearth's boundary registers (Table 12.5); ballast leaves (R335). What share of the cycles ran ballast no rule computes: free (log 2). -/
def closeHearth (s : State) : State :=
  let (v, s) := if flagF s R.HTH_BALLAST.EN then takeFree s else (0#32, s)
  let s := setFs s [(R.HTH_TICK_E.E, s.tick.energy), (R.HTH_BALLAST.LEVEL, s.hearth.ballast / 1000),
                    (R.HTH_BALLAST.SHARE, v.toNat % 101)]
  { s with hearth := { s.hearth with limited := false, ballast := 0, resync := true } }

/-- No core reports DEADLOCK any more (R107, R108). -/
def closeDies (s : State) : State :=
  [0, 1, 2, 3].foldl (fun s d => setFs s [(R.DIE_DEADLOCK_STA.CORES d, 0), (R.DIE_DEADLOCK_STA.WHOLE d, 0)]) s

/-- The tick's own marks clear (Table 1.1). -/
def clearTick (s : State) : State :=
  setFs { s with tick := { s.tick with
      nominal := tickLaunch s, atD := false, atV := false, replay := .none, voidCode := none, voidedSrcs := [],
      stretchSeen := [], paths := [], norm := normNext s } }
    [(R.TICK_STRETCH_CNT.CUR, 0), (R.TICK_STRETCH_CNT.VOIDED, 0)]

/-- Everything that closes the tick. -/
def closeTick (s : State) : State :=
  stopSecs s |> closeCommit |> closeHall |> closePantries |> closeStacks |> rebaseChans |> closeHearth |> closeDies
  |> clearSigs |> endSecs |> settleGuest |> clearTick

/-! ### What opens a tick -/

/-- Secondaries whose start tick is the opening one run (R377). -/
def startSecs (n : Nat) (s : State) : State :=
  [1, 2, 3].foldl (fun s i =>
    match smGet none s.secs i with
    | some q =>
      if q.start = n ∧ !secRunning s i then
        raiseSec i E.PART.SEC_STARTED (setFs s [(R.PART_RUN_STA.RUN i, 1), (R.PART_RUN_STA.PENDING i, 0)])
      else s
    | none => s) s

/-- Job tick n opens (R16, Table 1.1): the boundary's posts come before its copies and its cycle 0 (R96, R98). -/
def openTick (n : Nat) (s : State) : State :=
  let early := s.tick.earlyVoids
  let s := setFs { s with tick := { s.tick with job := n, earlyVoids := [] } }
    [(R.TICK_NUM.NUM, n % 2 ^ 24), (R.TICK_JOB_LO.JOB, n), (R.TICK_JOB_HI.JOB, n / 2 ^ 32)]
  let s := grantCredits (openCores (startSecs n (boundaryPosts s)))
  let s := early.foldl (fun s e => voidOther none e.1 e.2 s) s
  issueNorm ([0, 1, 2, 3].foldl (fun s i => if partRuns s i then sendPhase2 i s else s) s)

/-- The boundary that closes the running tick. -/
def boundary (s : State) : State :=
  let n := s.tick.job + 1
  let s := closeSems s
  if !s.tick.atV then s
  else if s.tick.haltNext || s.tick.planned == some n then enterDrain true (boundaryPosts (closeTick s))
  else openTick n (closeTick s)

/-! ### The launch's first tick (R22) -/

/-- Counts that run from launch. -/
def clearSince (s : State) : State :=
  let s := setFs s [(R.TICK_STRETCH_CNT.CUR, 0), (R.TICK_STRETCH_CNT.VOIDED, 0), (R.TICK_STRETCH_CNT.TOTAL, 0), (R.TICK_OVR_SRC.VALID, 0), (R.FLT_REPLAY_CNT.TX, 0), (R.FLT_REPLAY_CNT.RX, 0),
    (R.TOP_VARIANCE_CNT.COUNT, 0), (R.TST_COUNT.BLOCKS, 0), (R.TST_ABORTS.COUNT, 0), (R.RED_RESIDUE_ERR.COUNT, 0),
    (R.RED_RESIDUE_ERR.VALID, 0), (R.RED_SAT.COUNT, 0), (R.RED_LOAD.PEAK, 0), (R.HALL_LAND_USE.PEAK, 0),
    (R.HTH_POWER_W.PEAK, 0), (R.HTH_LIMIT.COUNT, 0), (R.FLT_LOCKSTEP_STA.ACTIVE, getF s R.FLT_LOCKSTEP_CTL.EN)]
  let s := allStacks.foldl (fun s k => setFs s [(R.STK_REF_STA.DEBT_MAX k, 0), (R.STK_REF_STA.MAKEUPS k, 0),
    (R.STK_RETRY_CNT.RETRIES k, 0), (R.STK_RETRY_CNT.FAILED k, 0), (R.PAN_JOURNAL_USE.PEAK k, 0)]) s
  let s := allPorts.foldl (fun s p => setFs s [(R.PORT_BER.CORR p, 0), (R.PORT_BER.UNCORR p, 0), (R.PORT_BER.CRCERR p, 0),
    (R.PORT_REPLAY_CNT.REPLAYS p, 0), (R.PORT_REPLAY_CNT.RETRAINS p, 0)]) s
  { s with bu := { s.bu with
      ber := (s.bu.ber.map fun e => (e.1, [0, 0, e.2.getD 2 0])).filter fun e => decide (e.2 ≠ [0, 0, 0]) } }

/-- The tick's own state as a launch begins (R22). -/
def launchState (s : State) : State :=
  { s with
    tick := { s.tick with pend := none, armed := false, digests := [], nominal := tickLaunch s, norm := false,
                          atD := false, atV := false, planned := none, faultDrain := false, haltNext := false,
                          stretchSeen := [], paths := [], earlyVoids := [] },
    refresh := { owed := 0, paid := [], since := tickLaunch s + resumeTick s * tickLen s, due := [] } }

/-- The first tick of the launch begins (R22). -/
def launchTick (s : State) : State :=
  let s := mapChans (fun c => { c with freeAt := 0, start := 0, retryOcc := 0 }) s
  let t := setTop stRun (setB (clearSince (launchState s)) R.TICK_NUM.RUN true)
  raise E.TICK.LAUNCHED (openTick (resumeTick s) (closeStacks t))

/-- A boundary (R16, R22). A boundary of a running tick follows its V; the launch count follows GO. -/
def execTickBoundary (s : State) : Host.Outcome State Fault Refusal :=
  .next <|
    if running s then
      if s.tick.atV && !s.tick.draining && s.tick.replay != .quiescing && s.tick.replay != .ready then boundary s else s
    else if s.tick.pend.isSome && s.tick.armed then
      if topState s = stReady then launchTick s else abortLaunch s
    else s

/-! ### Replay (R35) -/

/-- The first partition whose plan gives a frame a route. -/
def markPart (s : State) (f : Frame) : Nat := ([0, 1, 2, 3].find? fun n => (routePort s n f).isSome).getD 0

/-- The REPLAY mark of a path; 0xFFFF is a broadcast. -/
def markFrame (s : State) (dst : Nat) : Frame :=
  { frame0 with cls := clsData, kind := 1, src := myId s, dst := if dst = 0xFFFF then 0 else dst, bc := dst == 0xFFFF,
                tick := tickNum s, seq := 0 }

/-- A mark on every path that the tick used (R35 step 2). -/
def sendMarks (s : State) : State :=
  s.tick.paths.foldl (fun s d =>
      let f := markFrame s d
      if f.bc then forwardAll 0 f s else forward (markPart s f) f s)
    { s with tick := { s.tick with paths := [] } }

/-- The tick's own segment in the active half again, from its placement (R35 step 4). A core that still
held takes the segment's entry points as well. -/
def reloadActive (s : State) (lcid : Nat) (c : Core) : Core :=
  let part := corePart c
  match getPlan s part with
  | none => c
  | some pl =>
    match placeOf pl lcid (periodTick s part) with
    | none => c
    | some e =>
      let seg := rdMems s e.pa (segBytes s e.pa false)
      if !segOk false seg then c
      else
        let d := placeSeg false seg { c with activeB := !c.activeB }
        let held := holds c
        { d with
          activeB := c.activeB, ready := false, pendEntries := c.pendEntries, pendBank := c.pendBank,
          copyEntries := if held then d.pendEntries else c.copyEntries,
          copyBank := if held then d.pendBank else c.copyBank }

/-- A core restored from its copies (R35 step 4). -/
def restoreCore (s : State) (lcid : Nat) (c : Core) : Core :=
  let c := if c.parkLeft = 0 then { reloadActive s lcid c with parkPend := none, pendFill := 0 } else c
  let c := { c with sem := c.copySem, bank := c.copyBank, entries := c.copyEntries, semDelta := [], semTake := [],
                    semWaits := [], heldLdw := [], outst := [], landing := [], savMask := 0, savCrc := 0 }
  (List.range 6).foldl (fun c e => updEng c e fun g =>
    let i := c.copyEntries.getD e 0
    if i = haltMark then { mode := .halted, idx := g.idx, free := 0 }
    else if 0 < c.parkLeft ∧ e < 4 then { mode := .parked, idx := 0, free := 0 }
    else { mode := if c.lone ∧ e ≠ 4 then .atTend else .running, idx := i, free := 0 }) c

/-- Steps 1 to 4 of R35. -/
def prepareReplay (s : State) : State :=
  let s := allStacks.foldl (fun s k => restorePan k s) (sendMarks (dropRuns s))
  let s := mapCores (fun l c => if coreRuns s c then restoreCore s l c else c) s
  { s with tick := { s.tick with replay := .ready } }

/-- The engines are quiet and every run has ended (R35). -/
def execReplayQuiesced (s : State) : Host.Outcome State Fault Refusal :=
  .next (if running s && !s.tick.draining && s.tick.replay == .quiescing then prepareReplay s else s)

/-- A frame of this package's own in the tick. -/
def ownFrame (s : State) (f : Frame) : Bool := f.src == myId s && f.tick == tickNum s

/-- The Landing without this package's own frames of the tick. -/
def dropOwnFrames (s : State) : State :=
  showLanding { s with hall := { s.hall with land := s.hall.land.filter fun f => !ownFrame s f.toFrame } }

/-- The tick's own work in the Hall is done again: its pieces, its sums, and its frames to itself (R295). -/
def dropOwn (s : State) : State :=
  let ps := s.reduce.pieces.filter fun q => q.tick != s.tick.job
  let ms := s.reduce.sums.filter fun m => m.tick != s.tick.job
  dropOwnFrames { s with reduce := { s.reduce with pieces := ps, sums := ms } }

/-- R0 (R35 step 5). -/
def beginReplay (s : State) : State :=
  let s := incSat (undoGuest { s with tick := { s.tick with replay := .running, r0 := s.counter } }) R.FLT_REPLAY_CNT.TX 1
  let s := mapCores (fun _ c => if coreRuns s c then newTickCore c else c) (clearSigs (dropOwn s))
  let s := mapChans (fun c => { c with freeAt := 0, start := 0, retryOcc := 0 }) s
  raise E.TICK.VOID_TX (issueNorm ([0, 1, 2, 3].foldl (fun s i => if partRuns s i then sendPhase2 i s else s) s))

/-- Replay start (R35). -/
def execReplayStart (s : State) : Host.Outcome State Fault Refusal :=
  .next (if running s && !s.tick.draining && s.tick.replay == .ready then beginReplay s else s)

end Sys2Proof.Machine
end

