-- ==== Sys2Proof/Machine/Hearth.lean ====
section
/-! DEFINITION. The Hearth and the sensor bus: caps, limiter, ballast, clocks, temperatures, coolant
(R327 to R346, R390, R391). -/

namespace Sys2Proof.Machine

/-! ### Faults of the Hearth (R344, R346) -/

/-- Unit of a Hearth fault: TJ_TRIP and CONV_FAULT are the Hearth's, the others the package's (R344; log 36). -/
def hearthUnit (code : Nat) : Nat := if code = 0x53 ∨ code = 0x5F then uHearth else uPkg

/-- A logged-only code of Table 12.2. -/
def hearthLog (code detail : Nat) (s : State) : State := logOnly code (hearthUnit code) 0 0 detail s

/-- A not-recoverable code of Table 12.2 with its flag cause; while running a fault drain follows (R307). -/
def hearthFault (code flag detail : Nat) (s : State) : State :=
  takeFault { mkFault code clHard (hearthUnit code) 0 0 detail with flag := flag } s

def onHearth (f : Hearth → Hearth) (s : State) : State := { s with hearth := f s.hearth }

/-! ### The effective cap (R329) -/

/-- A cap less 20 % for each kelvin of the inlet above 40 °C (R342). -/
def inletCap (cap : Nat) (inlet : Int) : Nat := cap - cap * (inlet - 640).toNat / 80

/-- The caps that stand, each with its code of HTH_CAP_EFF.BY; parts of a watt are dropped (log 37). -/
def capList (s : State) : List (Nat × Nat) :=
  let cap := getF s R.HTH_CAP_W.CAP
  let h := s.hearth
  [(cap, 0), (cap * h.thermal / 100, 1)] ++
  (if h.dramHot then [(cap * 80 / 100, 2)] else []) ++
  (match h.flow with
   | some f => if f < 800 then [(cap * f / 800, 3)] else []
   | none => []) ++
  (match h.inlet with
   | some x => if 640 < x then [(inletCap cap x, 4)] else []
   | none => []) ++
  (if flagF s R.HTH_COOLANT_STA.FALLBACK then [(cap * 50 / 100, 5)] else [])

/-- The lowest of the caps; of equals the first. -/
def lowestCap : List (Nat × Nat) → Nat × Nat
  | [] => (0, 0)
  | [a] => a
  | a :: l => let b := lowestCap l; if b.1 < a.1 then b else a

/-- HTH_CAP_EFF follows the caps; CAP_REDUCED when it falls below HTH_CAP_W (Table 12.6). -/
def updateCap (s : State) : State :=
  let (w, by_) := lowestCap (capList s)
  let low := decide (w < getF s R.HTH_CAP_W.CAP)
  raiseIf (low && !s.hearth.reduced) E.HEARTH.CAP_REDUCED <|
    setFs (onHearth (fun h => { h with reduced := low }) s) [(R.HTH_CAP_EFF.CAP, w), (R.HTH_CAP_EFF.BY, by_)]

/-! ### The limiter (R329 to R331) -/

/-- The tick's energy bound in µJ (R180, R382): the running plans' ENERGY, at most HTH_CAP_W over the tick. -/
def energyBound (s : State) : Nat :=
  min (getF s R.HTH_CAP_W.CAP * tickLen s / 1000)
    ([0, 1, 2, 3].foldl (fun a n =>
      match getPlan s n with
      | some p => if partRuns s n then a + smGet 0 p.energy (periodTick s n) else a
      | none => a) 0)

/-- The first limit of R329 that would be exceeded, by its cause code. -/
def limitCause (m : Meter) (s : State) : Option Nat :=
  if 5600 < m.avg10us then some 0
  else if m.above10ms then some 1
  else if getF s R.HTH_CAP_EFF.CAP < m.avg100ms then some 2
  else if !flagF s R.TOP_MODE.BOOST && running s && decide (energyBound s ≤ m.energy) then some 3
  else none

/-- HTH_CLK of a die (R332). -/
def clkFld (d : Nat) : Fld :=
  match d with
  | 0 => R.HTH_CLK.DIE0
  | 1 => R.HTH_CLK.DIE1
  | 2 => R.HTH_CLK.DIE2
  | _ => R.HTH_CLK.DIE3

/-- Every die's clock takes a value, in 10 MHz. -/
def setClocks (f : Nat → Nat) (s : State) : State := setFs s ([0, 1, 2, 3].map fun d => (clkFld d, f d))

/-- Bottom and top of the Boost range in 10 MHz: the top is the highest step not above 1.035 GHz at grade -09 (R332). -/
def boostLo (s : State) : Nat := if gradeF s = 9 then 81 else 90
def boostHi (s : State) : Nat := if gradeF s = 9 then 103 else 115

/-- In Boost mode, is some clock above the bottom of the range? -/
def clockHigh (s : State) : Bool := flagF s R.TOP_MODE.BOOST && [0, 1, 2, 3].any fun d => decide (boostLo s < getF s (clkFld d))

/-- An engagement is logged when it begins and in every tick in which it stands; COUNT counts ticks (R331, R347). -/
def engage (cause : Nat) (s : State) : State :=
  let new := !s.hearth.engaged || !s.hearth.limited
  let s := if new then raise E.HEARTH.LIMIT (hearthLog 0x50 cause s) else s
  let s := if running s && !s.hearth.limited then incSat s R.HTH_LIMIT.COUNT 1 else s
  setF (onHearth (fun h => { h with engaged := true, limited := true }) s) R.HTH_LIMIT.CAUSE cause

/-- The limiter acts: in Boost mode first the clocks, then the pulses (R331). -/
def limit (cause need : Nat) (s : State) : State :=
  let s := engage cause s
  if clockHigh s then setF (setClocks (fun _ => boostLo s) s) R.HTH_LIMIT.DEPTH 0 else setF s R.HTH_LIMIT.DEPTH need

/-- Every 100 ns (R331): ballast gives way first (R330); then the limiter is engaged, or released. -/
def execLimiterEval (m : Meter) (s : State) : Host.Outcome State Fault Refusal :=
  .next <|
    let s := peakF (setFs { s with tick := { s.tick with energy := m.energy } }
      [(R.HTH_POWER_W.AVG, m.avg1ms), (R.HTH_VIN.VOLT, m.volt), (R.HTH_VIN.AMP, m.amp)]) R.HTH_POWER_W.PEAK m.avg10us
    match limitCause m s with
    | none => setF (onHearth (fun h => { h with atLimit := false, engaged := false }) s) R.HTH_LIMIT.DEPTH 0
    | some c =>
      if s.hearth.ballast = 0 then limit c m.need.val (onHearth (fun h => { h with atLimit := true }) s)
      else onHearth (fun h => { h with atLimit := true, ballast := 0 }) s

/-! ### Clocks (R332) -/

/-- The highest step in a die's range that its budget allows. -/
def boostClock (s : State) (d fit : Nat) : Nat :=
  let hi := if bitsOf (getF s R.HTH_BOOST_EN.DIE) d 1 = 1 then boostHi s else 10 * gradeF s
  max (boostLo s) (min hi fit)

/-- Every 1 µs (R332): in Boost mode each die's clock; while the limiter holds the clocks down they stay at the
bottom. In Fixed mode the clock is the grade's. -/
def execBoostClockUpdate (fit : Vector Nat 4) (s : State) : Host.Outcome State Fault Refusal :=
  .next <|
    if !flagF s R.TOP_MODE.BOOST then setClocks (fun _ => 10 * gradeF s) s
    else if s.hearth.engaged then setClocks (fun _ => boostLo s) s
    else setClocks (fun d => boostClock s d (fit.toList.getD d 0)) s

/-! ### Ballast (R334 to R336) -/

/-- Power of a period tick in mW: its ENERGY over TICK_LEN (R335). -/
def tickPower (s : State) (pl : Plan) (ptick : Nat) : Nat := smGet 0 pl.energy ptick * 1000000 / max 1 (tickLen s)

/-- Does a tick follow this one: the package runs, drains in no way, and not every engine has halted (R335)? -/
def tickFollows (s : State) : Bool :=
  running s && !s.tick.draining && !s.tick.faultDrain && !s.tick.haltNext && s.tick.planned != some (s.tick.job + 1) &&
  !(s.cores.all fun e => e.2.bound == 0 || (engModes e.2).all (· == .halted))

/-- Does planned work still issue? In a drain it does not (R307, R309). -/
def workIssues (s : State) : Bool :=
  running s && !s.tick.draining && !s.tick.faultDrain && [0, 1, 2, 3].any fun n => !partAtRest s n

/-- Before launch the set-point rises from ⌈(P₀ − P_idle) / ramp⌉ µs ahead of it (R335). -/
def launchGoal (idle : Nat) (s : State) : Nat :=
  match s.tick.pend, primary s with
  | some (l, _), some pl =>
    let p0 := tickPower s pl (resumeTick s % max 1 pl.period)
    let rise := ceilDiv (p0 - idle) (getF s R.HTH_RAMP_LIMIT.RAMP * 48000)
    if s.tick.armed && decide (l ≤ s.counter + 1000 * rise) then p0 else idle
  | _, _ => idle

/-- The set-point's goal in mW (R335). -/
def ballastGoal (d : Draw) (s : State) : Nat :=
  if workIssues s then d.work
  else if !running s then launchGoal d.idle s
  else if !tickFollows s then d.idle
  else match flagF s R.HTH_BALLAST.HOLD, primary s with
    | true, some pl => tickPower s pl ((s.tick.job + 1) % max 1 pl.period)
    | _, _ => d.idle

/-- Move toward a goal by at most a step. -/
def moveToward (x goal d : Nat) : Nat := if x < goal then min goal (x + d) else max goal (x - d)

/-- The change of current between the last two averages of 1 µs is above the limit (R336). -/
def rampCheck (d : Draw) (s : State) : State :=
  match d.currents with
  | none => s
  | some (a, b) =>
    if getF s R.HTH_RAMP_LIMIT.RAMP * 1000 < max a b - min a b then raise E.HEARTH.RAMP (hearthLog 0x51 0 s) else s

/-- Every 10 ns (R335): the set-point moves by at most the ramp limit over 48 V, and ballast fills the gap up to
3 200 W (R334), unless a limit keeps it down (R330). -/
def execBallastStep (d : Draw) (s : State) : Host.Outcome State Fault Refusal :=
  .next <|
    let s := rampCheck d s
    if !flagF s R.HTH_BALLAST.EN || s.hearth.atLimit || s.hearth.resync then
      onHearth (fun h => { h with setPoint := d.work, ballast := 0, resync := false }) s
    else
      let sp := moveToward s.hearth.setPoint (ballastGoal d s) (getF s R.HTH_RAMP_LIMIT.RAMP * 480)
      onHearth (fun h => { h with setPoint := sp, ballast := min 3200000 (sp - d.work) }) s

/-! ### Temperatures (R337 to R340) -/

/-- A 16-bit two's-complement field of a reading. -/
def twos16 (x : Int) : Nat := (x % (2 ^ 16 : Nat)).toNat

/-- The reading that a 16-bit two's-complement field holds. -/
def ofTwos16 (n : Nat) : Int := if n < 2 ^ 15 then n else (n : Int) - 2 ^ 16

/-- A temperature register and its peak take a reading. -/
def showTemp (t p : Fld) (x : Int) (s : State) : State :=
  setFs s [(t, twos16 x), (p, twos16 (max (ofTwos16 (getF s p)) x))]

/-- The largest of some readings. -/
def maxInt : List Int → Int → Int
  | [], a => a
  | x :: l, a => maxInt l (max a x)

/-- Whole degrees of a reading, 0 to 255. -/
def degrees (x : Int) : Nat := min 255 (x.toNat / 16)

def tjMax (s : State) : Int := 16 * getF s R.HTH_TJ_MAX.TJMAX

/-- Does a die or hub sensor read above TJMAX; does every one read at least 3 °C below it (R338)? -/
def tjHot (s : State) : Bool := decide (tjMax s < s.hearth.hottest)
def tjCool (s : State) : Bool := decide (s.hearth.hottest ≤ tjMax s - 48)

/-- An episode begins at the first reading above TJMAX and ends 3 °C below it (R338). -/
def tjEpisode (s : State) : State :=
  if tjHot s && !s.hearth.episode then
    raise E.HEARTH.TJ_HIGH (hearthLog 0x52 (degrees s.hearth.hottest) (onHearth (fun h => { h with episode := true }) s))
  else if tjCool s then onHearth (fun h => { h with episode := false }) s
  else s

/-- STK_TEMP and STK_STA.HOT of a stack (Table 7.6). -/
def stackTemp (k : Nat) (x : Int) (s : State) : State :=
  let hot := decide (85 * 16 < x)
  raiseIf (hot && !flagF s (R.STK_STA.HOT k)) (E.STACK.HOT k) <|
    setB (showTemp (R.STK_TEMP.TEMP k) (R.STK_TEMP.PEAK k) x s) (R.STK_STA.HOT k) hot

/-- The DRAM cap comes at 95 °C and goes once every stack reads below 92 °C (R340). -/
def dramCap (xs : List Int) (s : State) : State :=
  if xs.any (fun x => decide (95 * 16 ≤ x)) then
    let s' := onHearth (fun h => { h with dramHot := true }) s
    if s.hearth.dramHot then s' else raise E.HEARTH.DRAM_HOT (hearthLog 0x54 0 s')
  else if xs.all (fun x => decide (x < 92 * 16)) then onHearth (fun h => { h with dramHot := false }) s
  else s

/-! ### Coolant (R342 to R344) -/

/-- The sensor bus serves: enabled, not fenced (R390, R391). -/
def busServes (s : State) : Bool := flagF s R.SNS_BUS_CTL.EN && !flagF s R.SNS_BUS_STA.FENCED

/-- The lowest-numbered target of a kind that answers (R390). -/
def target (s : State) (kind : Nat) : Option Nat :=
  if !busServes s then none
  else (List.range 8).find? fun n => getF s (R.SNS_TARGET.KIND n) == kind && getF s (R.SNS_TARGET.STATE n) == 1

/-- The readings in use: flow from its target or else the estimate that stands; inlet from its target or else the
CIN sensor (R342, R344; log 38). -/
def useReadings (s : State) : State :=
  let own := s.hearth.inlet.map fun _ => ofTwos16 (getF s R.HTH_COOLANT_T.INLET)
  let inlet := match target s 2 with | some n => some (ofTwos16 (getF s (R.SNS_TARGET.VALUE n))) | none => own
  let s := onHearth (fun h => { h with inlet := inlet }) s
  match target s 1 with
  | some n => setB (onHearth (fun h => { h with flow := some (getF s (R.SNS_TARGET.VALUE n)) }) s) R.HTH_COOLANT_STA.BUSFLOW true
  | none => setB s R.HTH_COOLANT_STA.BUSFLOW false

/-- A condition bit of HTH_COOLANT_STA follows its condition; its rise is logged and raises COOLANT (R342). -/
def coolantBit (f : Fld) (on : Bool) (code : Nat) (s : State) : State :=
  if on && !flagF s f then raise E.HEARTH.COOLANT (hearthLog code 0 (setB s f true)) else setB s f on

/-- Does the inlet in use satisfy a condition? -/
def inletIs (p : Int → Bool) (s : State) : Bool :=
  match s.hearth.inlet with
  | some x => p x
  | none => false

/-- The flow and inlet rules (R342), and the caps that follow from them. -/
def coolantRules (s : State) : State :=
  let s := useReadings s
  let f := s.hearth.flow
  let s := setF s R.HTH_COOLANT_STA.FLOW (min 255 (f.getD 0 / 10))
  let s := coolantBit R.HTH_COOLANT_STA.FLOW_LOW (match f with | some x => decide (x < 800) | none => false) 0x56 s
  let s := coolantBit R.HTH_COOLANT_STA.INLET_HOT (inletIs (fun x => decide (640 < x)) s) 0x58 s
  updateCap (coolantBit R.HTH_COOLANT_STA.INLET_COLD (inletIs (fun x => decide (x < 272)) s) 0x5A s)

/-- Every 10 µs (R337): every sensor is read. -/
def execSensorScan (r : Scan) (s : State) : Host.Outcome State Fault Refusal :=
  .next <|
    let ds := r.dies.toList
    let ks := r.drams.toList
    let hot := maxInt ds r.hub
    let s := (List.range 4).foldl (fun s d => showTemp (R.DIE_TEMP.TEMP d) (R.DIE_TEMP.PEAK d) (ds.getD d 0) s) s
    let s := (List.range 12).foldl (fun s k => stackTemp k (ks.getD k 0) s) s
    let s := setFs s [(R.HTH_TJ_MAX.HOTTEST, degrees hot), (R.HTH_TJ_MAX.PEAK, max (getF s R.HTH_TJ_MAX.PEAK) (degrees hot)),
                      (R.HTH_COOLANT_T.INLET, twos16 r.cin), (R.HTH_COOLANT_T.OUTLET, twos16 r.cout)]
    coolantRules (dramCap ks (tjEpisode (onHearth (fun h => { h with hottest := hot, inlet := some r.cin }) s)))

/-- Every 100 µs (R338): the thermal cap falls or rises by 2 % of HTH_CAP_W. -/
def execThermalCapStep (s : State) : Host.Outcome State Fault Refusal :=
  .next <|
    let s := tjEpisode s
    if tjHot s then updateCap (onHearth (fun h => { h with thermal := h.thermal - 2 }) s)
    else if tjCool s then updateCap (onHearth (fun h => { h with thermal := min 100 (h.thermal + 2) }) s)
    else s

/-- The comparators act (R339): the latch, its record in the Attic and the flagged drain. -/
def execTjTrip (site : Fin 5) (t : Nat) (s : State) : Host.Outcome State Fault Refusal :=
  .next <|
    if s.hearth.trip then s
    else
      let s := onHearth (fun h => { h with trip := true }) s
      let s := setFs s [(R.HTH_TRIP_STA.TRIPPED, 1), (R.HTH_TRIP_STA.SITE, site.val), (R.HTH_TRIP_STA.TJ, t)]
      hearthFault 0x53 8 (site.val + 256 * t) (raise E.HEARTH.TRIP s)

/-- A stack has read 100 °C or above for 1 ms (R340). -/
def execDramCrit (k : StackNo) (s : State) : Host.Outcome State Fault Refusal :=
  .next (if 1600 ≤ ofTwos16 (getF s (R.STK_TEMP.TEMP k)) then hearthFault 0x55 0 k.val s else s)

/-- Volumetric heat capacity of the fluid in J/(L·K) (R342). -/
def heatCap (s : State) : Nat := if flagF s R.HTH_COOLANT_CTL.FLUID then 3906 else 4167

/-- Every 100 ms (R342): without a flow target a new estimate, while the power is at least 400 W and the rise at
least 0.3 K; then the rules. `rise` is in 1/16 K. -/
def execFlowEstimate (power : Nat) (rise : Int) (s : State) : Host.Outcome State Fault Refusal :=
  .next <|
    if (target s 1).isNone && decide (400 ≤ power) && decide (48 ≤ 10 * rise) then
      coolantRules (onHearth (fun h => { h with flow := some (96000 * power / (heatCap s * rise.toNat)) }) s)
    else coolantRules s

/-- Flow below 4 L/min for 1 s (R342). -/
def execCoolantLoss (s : State) : Host.Outcome State Fault Refusal :=
  .next <|
    match s.hearth.flow with
    | some f => if f < 400 then hearthFault 0x57 0 f s else s
    | none => s

/-- Inlet above 45 °C for 1 s (R342). -/
def execInletCrit (s : State) : Host.Outcome State Fault Refusal :=
  .next (if inletIs (fun x => decide (720 < x)) s then hearthFault 0x59 0 0 s else s)

/-- The comparison of the couplings runs from the end of P1 while the package is powered (R343). -/
def checkRuns (s : State) : Bool := s.hearth.closed && getF s R.BU_PHASE.PHASE != 0

/-- The two coupling sensors are compared after 2 s at 400 W or more (R343): a reversal clears CHECKED (log 39). -/
def execCoolantCheck (power : Nat) (s : State) : Host.Outcome State Fault Refusal :=
  .next <|
    let d := ofTwos16 (getF s R.HTH_COOLANT_T.OUTLET) - ofTwos16 (getF s R.HTH_COOLANT_T.INLET)
    if !checkRuns s || decide (power < 400) then s
    else if 48 ≤ 10 * d then
      raiseIf (!flagF s R.HTH_COOLANT_STA.CHECKED) E.HEARTH.CHECKED
        (setFs s [(R.HTH_COOLANT_STA.CHECKED, 1), (R.HTH_COOLANT_STA.REVERSED, 0)])
    else if 10 * d ≤ -48 && !flagF s R.HTH_COOLANT_STA.REVERSED then
      hearthFault 0x5B 0 0 <| raise E.HEARTH.REVERSED
        (setFs s [(R.HTH_COOLANT_STA.CHECKED, 0), (R.HTH_COOLANT_STA.REVERSED, 1)])
    else s

/-- A conversion stage fails its own check (Table 12.2). -/
def execConvFault (stage : Nat) (s : State) : Host.Outcome State Fault Refusal := .next (hearthFault 0x5F 8 stage s)

/-! ### The sensor bus (R390, R391) -/

def setNacks (n v : Nat) (s : State) : State := { s with sns := { s.sns with nacks := smSet 0 s.sns.nacks n v } }

/-- PRESENT bit of a target. -/
def setPresent (n : Nat) (b : Bool) (s : State) : State :=
  setF s R.SNS_BUS_STA.PRESENT (putBits (getF s R.SNS_BUS_STA.PRESENT) n 1 (b2n b))

/-- A target answers. -/
def targetAnswers (n : Nat) (v : BitVec 16) (s : State) : State :=
  setPresent n true (setNacks n 0 (setFs s [(R.SNS_TARGET.STATE n, 1), (R.SNS_TARGET.VALUE n, v.toNat)]))

/-- A target NACKs a poll: the third in succession loses it (R390). -/
def targetNacks (n : Nat) (s : State) : State :=
  let k := smGet 0 s.sns.nacks n + 1
  let s := setPresent n false (setNacks n (min 3 k) s)
  if k < 3 then s else raise E.MGMT.SNS_TARGET_LOST (setF s (R.SNS_TARGET.STATE n) 2)

/-- A target is polled. -/
def pollOne (n : Nat) (a : Option (BitVec 16)) (s : State) : State :=
  if getF s (R.SNS_TARGET.KIND n) = 0 ∨ getF s (R.SNS_TARGET.STATE n) = 2 then s
  else match a with
    | some v => targetAnswers n v s
    | none => targetNacks n s

/-- A leak target reports a leak (R344): kept until the next bring-up. -/
def leakCheck (s : State) : State :=
  let leak := busServes s && (List.range 8).any fun n =>
    getF s (R.SNS_TARGET.KIND n) == 5 && getF s (R.SNS_TARGET.STATE n) == 1 && getF s (R.SNS_TARGET.VALUE n) != 0
  if leak && !flagF s R.HTH_COOLANT_STA.LEAK then
    hearthFault 0x5C 0 0 (raise E.HEARTH.LEAK (setB s R.HTH_COOLANT_STA.LEAK true))
  else s

/-- Every 50 ms (R390): each configured target that is not lost is read, and the Hearth uses the values. -/
def execSensorPoll (answers : Vector (Option (BitVec 16)) 8) (s : State) : Host.Outcome State Fault Refusal :=
  .next <|
    if !busServes s then s
    else leakCheck (coolantRules ((List.range 8).foldl (fun s n => pollOne n (answers.toList.getD n none) s) s))

/-- Every 1 s (R390): a lost target is polled again. -/
def execSensorRepoll (n : Fin 8) (answer : Option (BitVec 16)) (s : State) : Host.Outcome State Fault Refusal :=
  .next <|
    if !busServes s || getF s (R.SNS_TARGET.STATE n) != 2 then s
    else match answer with
      | some v => leakCheck (coolantRules (raise E.MGMT.SNS_TARGET_BACK (targetAnswers n v s)))
      | none => s

/-- A recovery of the bus ends (R391): SDA released after some pulses, or a fence, under which the Hearth falls
back on its own sensors (R344). A bus that is not fenced recovers by itself; a fenced one only when SNS_BUS_CTL.RETRY has asked. -/
def execSnsBusRetry (pulses : Option (Fin 10)) (s : State) : Host.Outcome State Fault Refusal :=
  .next <|
    if flagF s R.SNS_BUS_STA.FENCED && !s.sns.asked then s
    else
    let s := { s with sns := { s.sns with asked := false } }
    match pulses with
    | some p => coolantRules (setFs s [(R.SNS_BUS_STA.FENCED, 0), (R.SNS_BUS_STA.PULSES, p.val), (R.HTH_COOLANT_STA.FALLBACK, 0)])
    | none =>
      let s' := raise E.MGMT.SNS_BUS_STUCK (setFs s [(R.SNS_BUS_STA.FENCED, 1), (R.SNS_BUS_STA.PULSES, 9), (R.HTH_COOLANT_STA.FALLBACK, 1)])
      coolantRules (if flagF s R.HTH_COOLANT_STA.FALLBACK then s' else hearthLog 0x5D 0 s')

end Sys2Proof.Machine
end

