-- ==== Sys2Proof/Machine/Ranges.lean ====
section
/-! DEFINITION. The values that a field accepts (R15, R261, R299, R329, R405 and the ranges of the register tables), and
the First power-on values that depend on the grade. A value outside any stated range is rejected (log 40). -/

namespace Sys2Proof.Machine

/-- The grade's cap in W (R329). -/
def gradeCap (s : State) : Nat := if gradeF s = 9 then 4500 else 5000

/-- First power-on value of a field (R7): HTH_CAP_W's follows the grade (Table 12.5), the fused fields' are fused (Table 15.5). -/
def firstVal (s : State) (f : Fld) : Nat := if f = R.HTH_CAP_W.CAP then gradeCap s else (fusedVal s f).getD f.por

def within (v lo hi : Nat) : Bool := decide (lo ≤ v) && decide (v ≤ hi)

/-- Ranges of the fields that stand once. -/
def ownRange (s : State) : List (Fld × Nat × Nat × Nat) :=
  [(R.TICK_LEN.LEN, 4000, 20000, 100), (R.TICK_GUARD.GUARD, 1500, 5000, 100), (R.TICK_STRETCH_Q.Q, 500, 10000, 100),
   (R.TICK_STRETCH_MAX.MAX, 1, 15, 1), (R.HTH_CAP_W.CAP, 1000, gradeCap s, 1), (R.HTH_LEND_WAIT.WAIT, 256, 65535, 1),
   (R.HTH_RAMP_LIMIT.RAMP, 10, 200, 1), (R.HTH_TJ_MAX.TJMAX, 70, 105, 1), (R.GST_RATE.UNITS, 0, 16384, 1)] ++
  ((List.range 4).flatMap fun d => [(R.DIE_SPARE_PTR.ROW d, 0, 79, 1), (R.EDGE_BER.SEL d, 0, 23, 1)]) ++
  [(R.HALL_PORTMAP.D0, 1, 16, 1), (R.HALL_PORTMAP.D1, 1, 16, 1), (R.HALL_PORTMAP.D2, 1, 16, 1)] ++
  ((List.range 4).flatMap fun n =>
    [(R.DIE_DEADLOCK_WIN.WIN n, 256, 65535, 1), (R.RED_ALLOT.UNITS n, 0, 1024, 1), (R.RED_ALLOT.LANES n, 0, 8, 1),
     (R.PART_CORES.ROW0 n, 0, 79, 1), (R.PART_CORES.ROW1 n, 0, 79, 1), (R.PART_CORES.COL0 n, 0, 79, 1),
     (R.PART_CORES.COL1 n, 0, 79, 1)]) ++
  ((List.range 12).flatMap fun k =>
    [(R.STK_REF_PHASE.PHASE k, 0, 3899, 1), (R.STK_REF_PHASE.STAGGER k, 0, 3899, 1), (R.STK_RETRY_RESV.PERMILLE k, 0, 100, 1)])

/-- Does a field accept a value? -/
def fieldOk (s : State) (f : Fld) (v : Nat) : Bool :=
  match (ownRange s).find? fun e => e.1 == f with
  | some (_, lo, hi, step) => within v lo hi && v % step == 0
  | none => true

/-- The limits that bind several fields, on the state that a write would leave (R15, R213, R261, R299, R392). -/
def crossOk (s : State) (pg : Nat) : Bool :=
  if pg = 0x03 then decide (2 * getF s R.TICK_GUARD.GUARD ≤ getF s R.TICK_LEN.LEN)
  else if pg = 0x18 then
    (decide (getF s R.HALL_PORTMAP.D1 ≤ 1) || decide (1 < getF s R.HALL_PORTMAP.D0)) &&
    (decide (getF s R.HALL_PORTMAP.D2 ≤ 1) || decide (1 < getF s R.HALL_PORTMAP.D1))
  else if pg = 0x19 then
    decide (((List.range 4).map fun n => getF s (R.RED_ALLOT.UNITS n)).sum ≤ 1024) &&
    decide (((List.range 4).map fun n => getF s (R.RED_ALLOT.LANES n)).sum ≤ 8)
  else if pg = 0x06 then
    (List.range 4).all fun n =>
      decide (getF s (R.PART_CORES.ROW0 n) ≤ getF s (R.PART_CORES.ROW1 n)) &&
      decide (getF s (R.PART_CORES.COL0 n) ≤ getF s (R.PART_CORES.COL1 n))
  else if 0x30 ≤ pg ∧ pg ≤ 0x3B then
    let k := pg - 0x30
    ([1, 2, 3].all fun n => decide (getF s (R.STK_REG.RATE k n) ≤ getF s (R.STK_REG.BURST k n))) &&
    decide (640 * (getF s (R.STK_SEC_WIN.START k) + getF s (R.STK_SEC_WIN.LEN k)) ≤
      768 * (getF s R.TICK_LEN.LEN - getF s R.TICK_GUARD.GUARD))
  else true

end Sys2Proof.Machine
end

