-- ==== Sys2Proof/Machine/Power.lean ====
section
/-! DEFINITION. The input switch, the loss of power, and the start of a bring-up (R327, R328, R349, R365, R368,
R412, R417). -/

namespace Sys2Proof.Machine

/-! ### What stays when everything volatile goes -/

/-- Every volatile part at its First power-on value; the commands that wait, the model's counter, the outputs and the
fuses stay. -/
def volatileReset (s : State) : State :=
  { State.reset with pending := s.pending, freeCtr := s.freeCtr, out := s.out, fuse := s.fuse }

/-- The Hearth's latches outlast power and resets (R327, R339). -/
def keepLatches (s : State) : Hearth :=
  { hearth0 with pwrEn := s.hearth.pwrEn, ocLatch := s.hearth.ocLatch, trip := s.hearth.trip,
                 lossCause := s.hearth.lossCause, lost := s.hearth.lost }

/-- Is a record's write waiting or going on? -/
def recWaiting (s : State) (r : Nat) : Bool :=
  s.attic.queue.any (fun e => e.1 == r) || (match s.attic.writing with | some (q, _) => q == r | none => false)

/-- A history as its record holds it. -/
def histRecorded (a : ARec) : Hist :=
  match recValue a with
  | some l => histOf l
  | none => hist0

/-- A record's history joins the others, unless its write still waits. -/
def loadHist (s : State) (m : SMap Hist) (e : Nat × ARec) : SMap Hist :=
  if e.1 < 2 ^ 32 ∨ recWaiting s e.1 then m else smSet hist0 m (e.1 - 2 ^ 32) (histRecorded e.2)

/-- The histories come from their records; one whose write still waits stays as it is (R319, R361, R364). -/
def loadHists (s : State) : State :=
  let kept := s.hist.filter fun e => recWaiting s (recHistory e.1)
  { s with hist := s.attic.recs.foldl (loadHist s) kept }

/-! ### The switch opens (R327, R365) -/

/-- The record being written completes; no other write starts (R365). -/
def finishWrite (a : Attic) : Attic :=
  match a.writing with
  | none => { a with queue := [], sync := [] }
  | some (r, c) =>
    { recs := smUpd arec0 a.recs r (writeRec c), queue := [], writing := none, sync := [] }

/-- The PACKAGE record is written with the loss cause and the powered time (R365). -/
def writePackage (s : State) : State :=
  if recSaturated s recPackage then s
  else { s with attic := { s.attic with recs := smUpd arec0 s.attic.recs recPackage (writeRec (packageContent s)) } }

/-- A power loss: the switch opens, the Attic's last two writes complete, the rest is lost (R327, R365, R368). A
latched trip is the cause that shows. -/
def powerLoss (cause : Nat) (s : State) : State :=
  if !s.hearth.closed then s
  else
    let s := onHearth (fun h => { h with lossCause := if h.trip then 1 else cause, lost := true }) s
    let s := writePackage { s with attic := finishWrite s.attic }
    { volatileReset s with attic := s.attic, hearth := keepLatches s }

/-- The latch of a trip is released when P48V is removed or PWR_EN is cycled (R339). -/
def releaseTrip (s : State) : State := onHearth (fun h => { h with trip := false }) s

/-- P48V below 38 V for 10 µs, or the input removed (R327). -/
def execInputUndervoltage (removed : Bool) (s : State) : Host.Outcome State Fault Refusal :=
  .next (if removed then releaseTrip (powerLoss 2 s) else powerLoss 2 s)

/-- P48V above 63 V for 1 µs (R327). -/
def execInputOvervoltage (s : State) : Host.Outcome State Fault Refusal := .next (powerLoss 3 s)

/-- More than 150 A for 20 µs: the switch stays open until PWR_EN is cycled (R327). -/
def execInputOvercurrent (s : State) : Host.Outcome State Fault Refusal :=
  .next (if s.hearth.closed then onHearth (fun h => { h with ocLatch := true }) (powerLoss 4 s) else s)

/-- The input is shorted at the rack: blocked, then as for under-voltage with the input gone (R327). -/
def execInputReverseCurrent (s : State) : Host.Outcome State Fault Refusal := .next (releaseTrip (powerLoss 2 s))

/-- PWR_EN falls: the switch opens and both latches go; the Attic and the management port stay alive, so that the
Attic's queue runs on (R327, R328, R339, R417). The PACKAGE record takes the powered time. -/
def execPwrEnLow (s : State) : Host.Outcome State Fault Refusal :=
  .next <|
    let s := onHearth (fun h => { h with pwrEn := false, ocLatch := false, trip := false }) s
    if !s.hearth.closed then s
    else
      let s := queueRec recPackage s
      { volatileReset s with attic := s.attic, hist := s.hist, hearth := keepLatches s }

/-! ### A bring-up begins (R349) -/

/-- A phase begins (Table 13.9). -/
def beginPhase (k : Nat) (s : State) : State :=
  raise E.BRINGUP.PHASE (setF { s with bu := { s.bu with next := k } } R.BU_PHASE.PHASE k)

/-- COLD_NEXT as the PACKAGE record holds it (Table 13.5). -/
def recordedCold (s : State) : Bool := ((recValue (getRec s recPackage)).getD []).getD 3 0 == 1

/-- The switch closes and P0 begins (R328, R349). An over-current latch keeps it open (R327). -/
def execInputSwitchClose (s : State) : Host.Outcome State Fault Refusal :=
  .next <|
    if s.hearth.closed || s.hearth.ocLatch then s
    else
      let cold := recordedCold s
      let t := { volatileReset s with
        attic := s.attic, hist := s.hist, hearth := { keepLatches s with pwrEn := true, closed := true },
        bu := { bringup0 with coldNext := cold, wantCold := cold } }
      beginPhase 0 (showAttic (loadHists t))

/-- Fields that a reset leaves as they are: the host link stays powered (R349); a latched trip shows until it is
released (R339); powered time does not stand still (R319). -/
def resetKeeps (s : State) : List (Fld × Nat) :=
  (([R.HIF_LINK_STA.UP, R.HIF_LINK_STA.GEN, R.HIF_LINK_STA.WIDTH, R.HIF_LINK_STA.FLIT, R.HIF_LINK_STA.REVERSED,
     R.HIF_LINK_STA.IDE, R.HIF_LINK_STA.INVERTED, R.ATTIC_POWERED.SECONDS] ++
    if s.hearth.trip then [R.HTH_TRIP_STA.TRIPPED, R.HTH_TRIP_STA.SITE, R.HTH_TRIP_STA.TJ] else []).map
    fun f => (f, getF s f))

/-- An accepted reset starts a bring-up (R349, R412): TOP_STATE turns to BRINGUP, every other volatile register takes
its First power-on value; the Attic, the management port and the host interface stay powered. -/
def startReset (s : State) : State :=
  let s := setTop stBringup s
  let t := { volatileReset s with
    attic := s.attic, hist := s.hist, hearth := { keepLatches s with closed := true, flow := s.hearth.flow },
    hif := { hif0 with win := s.hif.win, winDrop := s.hif.winDrop, winNone := s.hif.winNone },
    bu := { bringup0 with coldNext := s.bu.coldNext, wantCold := s.bu.coldNext } }
  beginPhase 0 (showAttic (setFs t (resetKeeps s)))

/-- A normal-view write of TOP_RESET_CMD (R412). -/
def resetCmd (w : Nat) (s : State) : State :=
  let st := topState s
  if w % 2 = 1 ∧ w / 2 ^ 16 % 2 ^ 16 = 0xA5A5 ∧ (st = stReady ∨ st = stDrain ∨ st = stFlagged) then startReset s
  else raise E.TOP.RESET_REFUSED s

/-- Are registers served: the switch closed and P0 ended (R369, R388)? -/
def regsServed (s : State) : Bool := s.hearth.closed && s.bu.next != 0

/-- TOP_RESET_CMD: only its normal view acts (R398, R412). -/
def execTopResetCmd (view : Fin 4) (w : Word) (s : State) : Host.Outcome State Fault Refusal :=
  .next (if regsServed s && view.val == 0 then resetCmd w.toNat s else s)

end Sys2Proof.Machine
end

