-- ==== Sys2Proof/Machine/Bringup.lean ====
section
/-! DEFINITION. The phases of bring-up and the commands of the Attic (R51 to R70, R207 to R211, R319 to R321, R349 to
R367, R402). -/

namespace Sys2Proof.Machine

/-! ### Phases (R350, R352) -/

/-- Microseconds since P0 (Table 13.8). -/
def bringupTime (s : State) : Nat := subMod 64 s.counter s.bu.started / 1000 % 2 ^ 32

/-- The bring-up is over: BU_TIME_US is frozen (Table 13.8). -/
def endBringup (s : State) : State :=
  { setF s R.BU_TIME_US.TIME (bringupTime s) with bu := { s.bu with next := 9 } }

/-- The bring-up stops at the end of a phase (R352). -/
def stopBringup (k reason : Nat) (s : State) : State :=
  raise E.BRINGUP.BU_FLAGGED (goFlagged (endBringup (setFs s [(R.BU_PHASE.STOP, k), (R.BU_PHASE.REASON, reason)])))

/-- A phase ends: with an outcome of Table 13.2 the bring-up stops, otherwise the next phase begins (R352). -/
def endPhase (k reason : Nat) (s : State) : State :=
  if reason ≠ 0 then stopBringup k reason s
  else if flagF s R.FLT_SUSPECT.FLAGGED then stopBringup k 9 s
  else if k = 1 then startDiscovery (beginPhase 2 s)
  else beginPhase (k + 1) s

/-- Run the work of phase k when it is the phase that runs. -/
def phase (k : Nat) (work : State → Nat × State) (s : State) : State :=
  if s.hearth.closed && s.bu.next == k then endPhase k (work s).1 (work s).2 else s

/-- P0's work: rails; the trip latch is read (R353). -/
def railsWork (s : State) : Nat × State := (if s.hearth.trip then 7 else 0, s)

/-- P0 (R353). -/
def execBringupP0 (s : State) : Host.Outcome State Fault Refusal := .next (phase 0 railsWork s)

/-- P1's work: the first slot that authenticates is run; with neither the hub stays in its boot ROM (R353). -/
def fwWork (slot0 slot1 : Bool) (s : State) : Nat × State :=
  if slot0 || slot1 then (0, s) else (1, { s with bu := { s.bu with bootRom := true } })

/-- P1 (R353). -/
def execFwAuth (slot0 slot1 : Bool) (s : State) : Host.Outcome State Fault Refusal :=
  .next (phase 1 (fwWork slot0 slot1) s)

/-! ### P2: discovery (R51, R52, R69, R70) -/

/-- A die did not answer, or one of its stacks did not. -/
def dieSilent (s : State) (d : Nat) : Bool :=
  !(getDisc s d).answered || [0, 1, 2].any fun p => !(getDisc s (4 + stackOn d p)).answered

/-- P2's end: the guest's rails come up and its identity is read (R69, R70); a silent die stops the bring-up (R52). -/
def discoveryWork (guest : Option (List Byte)) (s : State) : Nat × State :=
  let s := if s.fuse.guestOption then readIdentity guest (setB s R.GST_STA.POWER_ON true) else s
  let bad := [0, 1, 2, 3].filter fun d => dieSilent s d
  (if bad.isEmpty then 0 else 2, bad.foldl (fun s d => raise (E.DIE.DISC_FAIL d) s) s)

/-- P2 ends (R51). -/
def execDiscovery (guest : Option (List Byte)) (s : State) : Host.Outcome State Fault Refusal :=
  .next (phase 2 (discoveryWork guest) s)

/-! ### P3: the Attic is read (R354, R366) -/

/-- A copy that does not read as valid is not there (R362). -/
def dropCopy (e : Nat × Bool) (a : ARec) : ARec := if e.2 then { a with b := none } else { a with a := none }

/-- The records as they read, the unreadable copies dropped. -/
def readRecs (bad : List (Nat × Bool)) (m : SMap ARec) : SMap ARec :=
  bad.foldl (fun m e => smUpd arec0 m e.1 (dropCopy e)) m

/-- Records of which a copy stood and none reads as valid: lost (R354). -/
def lostRecs (bad : List (Nat × Bool)) (m : SMap ARec) : List Nat :=
  ((bad.map (·.1)).dedup).filter fun r => smGet arec0 m r != arec0 && smGet arec0 (readRecs bad m) r == arec0

/-- A record with one valid copy. -/
def halfValid (a : ARec) : Bool := a.a.isSome != a.b.isSome

/-- The invalid copy takes the valid one's contents (R354). -/
def repairRec (a : ARec) : ARec :=
  match a.a, a.b with
  | some x, none => { a with b := some x }
  | none, some y => { a with a := some y }
  | _, _ => a

/-- Apply a state change n times. -/
def repeatN (n : Nat) (f : State → State) (s : State) : State := (List.range n).foldl (fun s _ => f s) s

/-- Steps 1 and 2 of R354: repairs and losses. -/
def repairAttic (bad : List (Nat × Bool)) (s : State) : State :=
  let lost := (lostRecs bad s.attic.recs).length
  let m := readRecs bad s.attic.recs
  let fixed := (m.filter fun e => halfValid e.2).length
  let s := { s with attic := { s.attic with recs := m.map fun e => (e.1, repairRec e.2) } }
  let s := setFs s [(R.ATTIC_RESTORE_STA.REPAIRED, min 4095 fixed), (R.ATTIC_RESTORE_STA.LOST, min 4095 lost),
                    (R.ATTIC_RESTORE_STA.FIRST, b2n m.isEmpty)]
  raiseIf (lost != 0) E.ATTIC.RECORD_LOST (repeatN fixed (raise E.ATTIC.RECORD_REPAIRED) s)

/-- A Kept field takes its recorded value; absent or out of its range, its First power-on value (R366). -/
def restoreField (f : Fld) (v : Option Nat) (s : State) : State :=
  match v with
  | some x => if fieldOk s f x then setF s f x else setB (setF s f (firstVal s f)) R.ATTIC_RESTORE_STA.DEFAULTED true
  | none => setB (setF s f (firstVal s f)) R.ATTIC_RESTORE_STA.DEFAULTED true

/-- The Kept fields that come from a SETTINGS record (Table 15.7). -/
def fromSettings (f : Fld) : Bool :=
  f != R.TOP_PKG_ID.ID && f != R.HTH_TRIP_STA.PREV && f != R.FLT_SUSPECT.SUSPECT

/-- The values on record for a page's Kept fields; none when the record is absent or LEN is 0 (R366, R367). -/
def settingsOf (s : State) (p : Nat) : Option (List Nat) :=
  match recValue (getRec s (recSettings p)) with
  | some [] => none
  | v => v

/-- A page's Kept fields are restored (R366). -/
def restorePage (p : Nat) (s : State) : State :=
  let v := settingsOf s p
  ((keptFlds p).zipIdx).foldl (fun s e =>
    if fromSettings e.1 then restoreField e.1 (v.bind fun l => l[e.2]?) s else s) s

/-- Package ID, powered time, loss cause and SUSPECT come from the PACKAGE record (Table 15.7). -/
def restorePackage (s : State) : State :=
  match recValue (getRec s recPackage) with
  | none => setB s R.ATTIC_RESTORE_STA.DEFAULTED true
  | some l =>
    setFs (restoreField R.TOP_PKG_ID.ID l[0]? s)
      [(R.ATTIC_POWERED.SECONDS, max (getF s R.ATTIC_POWERED.SECONDS) (l.getD 1 0)), (R.HTH_TRIP_STA.PREV, l.getD 2 0),
       (R.FLT_SUSPECT.SUSPECT, l.getD 4 0)]

/-- The first bring-up after a power loss logs it (R327). -/
def logLoss (s : State) : State :=
  if !s.hearth.lost then s
  else
    let s := onHearth (fun h => { h with lost := false }) s
    let v := getF s R.HTH_TRIP_STA.PREV
    if v = 0 then s else logOnly 0x5E uPkg 0 0 v s

/-! ### Identities (R53) -/

/-- What R53 compares of an identity: FUSE_DIGEST and SERIAL of the discovery frame. -/
def idKey (n : Nat) : Nat × Nat := (n / 2 ^ 32 % 2 ^ 32, n / 2 ^ 96 % 2 ^ 64)

/-- Identities of this package: the guest's where one answered. -/
def identities (s : State) : List Nat :=
  List.range 17 ++ (if s.fuse.guestOption && guestAnswered s then [17] else [])

/-- An IDENTITY record's value. -/
def idRecord (s : State) (i : Nat) : Option Nat := (recValue (getRec s (recIdentity i))).bind fun l => l[0]?

/-- Is no IDENTITY record committed (R351 case 1)? -/
def noIdentity (s : State) : Bool := (List.range 18).all fun i => (idRecord s i).isNone

/-- Identities that differ from their record (R53). -/
def differing (s : State) : List Nat :=
  (identities s).filter fun i => (idRecord s i).map idKey != some (idKey (identityOf s i))

/-- Does a unit history belong to the hub, a die or a stack? -/
def unitOfDie (i key : Nat) : Bool :=
  let u := key / 2 ^ 24
  let id := key % 2 ^ 24
  if i = 0 then u == uReduce || u == uHub
  else if i ≤ 4 then
    (u == uCore && id / 2 ^ 14 == i - 1) || (u == uBundle && id / 32 == i - 1) || (u == 12 && id / 2 ^ 12 == i - 1)
  else if i ≤ 16 then
    (u == uChan && id / 32 == i - 5) || (u == uLane && id / 2 ^ 12 == i - 5) || ((u == uPantry || u == 13) && id == i - 5)
  else false

/-- The histories of a replaced die or stack start afresh (R53). -/
def freshHists (i : Nat) (s : State) : State :=
  ((s.hist.filter fun e => unitOfDie i e.1).map (·.1)).foldl (fun s k =>
    queueRec (recHistory k) { s with hist := smErase s.hist k }) s

/-! ### Warm or cold (R351) -/

/-- Units that train: bundles, channels and ports, and with a guest its two modules (Table 13.5). -/
def trainingUnits (s : State) : Nat := if s.fuse.guestOption then 530 else 528

/-- A TRAINING or MARGINS record of a unit has no valid copy (R351 case 4). -/
def trainingMissing (s : State) : Bool :=
  (List.range (trainingUnits s)).any fun u =>
    (recValue (getRec s (recTraining u))).isNone || (recValue (getRec s (recMargins u))).isNone

/-- BU_MODE.WHY (R351). -/
def whyCold (s : State) : Nat :=
  if noIdentity s then 1
  else if !(differing s).isEmpty then 2
  else if s.bu.wantCold then 3
  else if trainingMissing s then 4
  else 0

/-- The bring-up is warm or cold from here on (R351); COLD_NEXT has served (Table 13.8). -/
def chooseMode (s : State) : State :=
  let why := whyCold s
  let s := setFs s [(R.BU_MODE.WHY, why), (R.BU_PHASE.COLD, b2n (why != 0))]
  let s := raiseIf (why != 0) E.BRINGUP.COLD_RUN s
  if s.bu.wantCold then queueRec recPackage { s with bu := { s.bu with coldNext := false, wantCold := false } } else s

/-- The pages of Table 15.8 are restored, and the PACKAGE record's values. -/
def restoreAll (s : State) : State :=
  let s := restorePackage (pages.foldl (fun s p => restorePage p s) s)
  raise E.ATTIC.RESTORED (setB s R.ATTIC_RESTORE_STA.DONE true)

/-- Histories are read from their records; those of replaced units start afresh (R53, R319). -/
def restoreHists (s : State) : State :=
  let s := loadHists s
  if noIdentity s then s else (differing s).foldl (fun s i => freshHists i s) s

/-- A warm bring-up restores what was trained and margined (R211, R351). -/
def restoreTraining (s : State) : State :=
  if flagF s R.BU_PHASE.COLD then s
  else (List.range (trainingUnits s)).foldl (fun s u =>
    { s with bu := { s.bu with coef := smSet [] s.bu.coef u ((recValue (getRec s (recTraining u))).getD []),
                               marg := smSet [] s.bu.marg u ((recValue (getRec s (recMargins u))).getD []) } }) s

/-- P3's work: repairs, losses, the Kept fields, the histories; then warm or cold is known (R354). -/
def restoreWork (bad : List (Nat × Bool)) (s : State) : Nat × State :=
  let s := restoreHists (restoreAll (repairAttic bad s))
  let s := setFs s [(R.FLT_STA.PENDING, pendingTests s), (R.HALL_PORTMAP.USED, usedPorts s)]
  let s := restoreTraining (raiseIf (isRoot s) E.TICK.SYNC_LOCK (chooseMode (updateCap (logLoss s))))
  (if flagF s R.FLT_SUSPECT.SUSPECT then 3 else 0, s)

/-- P3 (R354). -/
def execAtticRestore (bad : List (Nat × Bool)) (s : State) : Host.Outcome State Fault Refusal :=
  .next (phase 3 (restoreWork bad) s)

/-! ### P4: training (R54, R61, R68, R209, R210, R249, R266, R355) -/

/-- Is a unit permanent in its history? -/
def permanent (s : State) (unit id : Nat) : Bool := (getHist s (unit * 2 ^ 24 + id)).cls == 2

/-- Bundles that the fuses list, or whose history is permanent (R54). -/
def knownBad (s : State) (d b : Nat) : Bool :=
  s.fuse.badBundles.contains (d, b) || permanent s uBundle (bundleKey d b)

/-- Bad data lanes of a bundle: those that training finds and those whose history is permanent (R54; Table 13.10). -/
def badDataLanes (t : TrainRes) (s : State) (d b : Nat) : Nat :=
  ((List.range 64).filter fun l => t.dataLanes.contains (24 * d + b, l) || permanent s 12 (d * 2 ^ 12 + b * 2 ^ 7 + l)).length

/-- Bundles that fail at training, have more than two bad data lanes, or are bad by the fuses or their history (R54). -/
def trainBundles (t : TrainRes) (s : State) : State :=
  (List.range 96).foldl (fun s i =>
    if knownBad s (i / 24) (i % 24) || t.bundles.contains i || decide (2 < badDataLanes t s (i / 24) (i % 24)) then
      failBundle (i / 24) (i % 24) s
    else s) s

/-- Role codes of a die's bundles (R55, R80); none with fewer than 22 usable. -/
def rolesOf (failed : Nat) : Option Nat :=
  let usable := (List.range 24).filter fun b => bitsOf failed b 1 == 0
  if usable.length < 22 then none
  else some <| (usable.zipIdx).foldl (fun w e =>
    w + (if e.2 < 12 then 1 else if e.2 < 17 then 2 else if e.2 < 22 then 3 else 0) * 4 ^ e.1) 0

/-- A bundle's latency with the allowance of one resend, in core cycles (R61). -/
def latency (t : TrainRes) (d b : Nat) : Nat := (t.raw.toList.getD d []).getD b 0 + t.resend

/-- The figure of a bundle's path by its role: the Hall's for the hub role, the neighbour's for left and right (R61). -/
def pathFigure (s : State) (d role : Nat) : Nat :=
  if role = 1 then getF s (R.EDGE_LAT.HUB d) else getF s (R.EDGE_LAT.NBR d)

/-- Bundles of a die that would be in use with those failed so far, with the margin of each (R61; log 113). -/
def margins (t : TrainRes) (s : State) (d : Nat) : List (Nat × Int) :=
  let w := (rolesOf (getF s (R.EDGE_FAIL.FAILED d))).getD 0
  ((List.range 24).filter fun b => bitsOf w (2 * b) 2 != 0).map fun b =>
    (b, (pathFigure s d (bitsOf w (2 * b) 2) : Int) - latency t d b)

/-- Bundles beyond their figure are failed, until every bundle in use keeps it (R61). -/
def failLate (t : TrainRes) (d : Nat) : Nat → State → State
  | 0, s => s
  | fuel + 1, s =>
    match (margins t s d).find? fun e => decide (e.2 < 0) with
    | some e => failLate t d fuel (failBundle d e.1 s)
    | none => s

/-- P4 measures a die's bundles: late ones are failed, and SLACK_MIN shows the smallest margin (R61). -/
def measureBundles (t : TrainRes) (d : Nat) (s : State) : State :=
  let s := failLate t d 24 s
  match (margins t s d).map (·.2) with
  | [] => s
  | m :: ms => setF s (R.EDGE_LAT.SLACK_MIN d) (min 255 (ms.foldl min m).toNat)

/-- A unit trained and margined in P4 takes what was found (R355). -/
def noteTrained (e : Nat × List Nat × List (Nat × Nat × Nat)) (s : State) : State :=
  { s with bu := { s.bu with coef := smSet [] s.bu.coef e.1 e.2.1,
                             marg := smSet [] s.bu.marg e.1 (e.2.2.flatMap fun m => [m.1, m.2.1, m.2.2]) } }

/-- The margins of a unit's lanes: lane, timing steps, voltage steps. -/
def laneMargins : List Nat → List (Nat × Nat × Nat)
  | l :: t :: v :: rest => (l, t, v) :: laneMargins rest
  | _ => []

def unitMargins (s : State) (u : Nat) : List (Nat × Nat × Nat) := laneMargins (smGet [] s.bu.marg u)

/-- The number of a channel in the TRAINING region (Table 13.5; log 30). -/
def chanUnit (k c : Nat) : Nat := 96 + chanKey k c

/-- Does a stack lane fall short of a margin that R211 asks for? -/
def laneShort (s : State) (k c l : Nat) : Bool :=
  (unitMargins s (chanUnit k c)).any fun m => m.1 == l && (decide (m.2.1 < marginNeed l 0) || decide (m.2.2 < marginNeed l 1))

/-- Bad lanes of a channel by training, margins, fuses and history, ascending (R209, R211). -/
def trainedBad (found : List (Nat × Nat)) (s : State) (k c : Nat) : List Nat :=
  (List.range 81).filter fun l =>
    found.contains (chanKey k c, l) || laneShort s k c l || s.fuse.badLanes.contains (k, c, l) || permanent s uLane (k * 2 ^ 12 + c * 2 ^ 7 + l)

/-- Lanes that spares replace. -/
def replacedLanes (l : List Nat) : List Nat := [68, 69, 80].filterMap fun x => replacedBy l x

/-- A channel's bad lanes become these; LANE_SPARED for every lane replaced anew (R209). -/
def setBadLanes (k c : Nat) (l : List Nat) (s : State) : State :=
  let new := (replacedLanes l).length - (replacedLanes (badLanesOf s k c)).length
  repeatN new (raise (E.STACK.LANE_SPARED k)) (updStk s k fun q => { q with spares := smSet [] q.spares c l })

/-- More bad lanes of a channel, behind those that spares already replace. -/
def addBadLanes (k c : Nat) (more : List Nat) (s : State) : State :=
  let l := badLanesOf s k c
  let l' := l ++ more.filter fun x => !l.contains x
  if l' = l then s else setBadLanes k c l' s

/-- Every channel of the twelve stacks. -/
def allChans : List (Nat × Nat) := (List.range 384).map fun i => (i / 32, i % 32)

/-- Lanes are spared in every channel (R209). -/
def trainLanes (found : List (Nat × Nat)) (s : State) : State :=
  allChans.foldl (fun s e => addBadLanes e.1 e.2 (trainedBad found s e.1 e.2) s) s

/-- A port trains, or does not; one that does sends an IDENT (R249, R266, R355). TXPWR is a measurement: free (log 2). -/
def trainPort (t : TrainRes) (p : Nat) (s : State) : State :=
  let (x, s) := takeFree s
  let s := setFs s [(R.PORT_LASER.ON p, getF s (R.PORT_LASER.EN p)), (R.PORT_LASER.TXPWR p, x.toNat)]
  match t.ports.find? fun e => e.1.val == p with
  | none => s
  | some (_, flight, ok) =>
    sendIdent p <| raise (E.PORCH.PORT_UP p) <|
      setFs (updPort s p fun q => { q with light := true, ber := !ok })
        [(R.PORT_STA.UP p, 1), (R.PORT_STA.FLIGHT p, min 255 flight)]

/-- Every port's class is fixed at the end of P4, when the IDENT frames have gone: as P5's row begins (R266, R355; log 25). -/
def classifyAll (s : State) : State :=
  raiseIf (!idFits s) E.HALL.PORTMAP_BAD (allPorts.foldl (fun s p => classify p s) s)

/-- P4's work (R355). -/
def trainWork (t : TrainRes) (s : State) : Nat × State :=
  let s := t.units.foldl (fun s e => noteTrained e s) s
  let s := [0, 1, 2, 3].foldl (fun s d => measureBundles t d s) (trainBundles t s)
  let s := allPorts.foldl (fun s p => trainPort t p s) (trainLanes t.lanes s)
  (0, if s.fuse.guestOption then trainGuest t.mods.1 t.mods.2 s else s)

/-- P4 (R355). -/
def execTraining (t : TrainRes) (s : State) : Host.Outcome State Fault Refusal := .next (phase 4 (trainWork t) s)

/-! ### P5: the error-rate check, re-tests, roles (R55, R210, R321, R356, R357) -/

/-- Errors counted for a bundle, a stack channel or lane, a stack quarter, a port. -/
def bundleErr (r : CheckRes) (i : Nat) : Nat := ((r.bundles.filter fun e => e.1 == i).map (·.2)).sum
def laneErr (r : CheckRes) (p : Nat → Nat → Bool) : Nat := ((r.lanes.filter fun e => p e.1 e.2.1).map (·.2.2)).sum
def portErr (r : CheckRes) (p : Nat) : Nat := ((r.ports.filter fun e => e.1.val == p).map (·.2)).sum

/-- Errors attributed to a link unit in P5 (R357). -/
def linkErrors (r : CheckRes) (unit id : Nat) : Nat :=
  if unit = uBundle then bundleErr r (24 * (id / 32) + id % 32)
  else if unit = 12 then bundleErr r (24 * (id / 2 ^ 12) + id / 2 ^ 7 % 32)
  else if unit = uChan then laneErr r fun k _ => k == id
  else if unit = uLane then laneErr r fun k l => k == id / 2 ^ 7 && l == id % 2 ^ 7
  else if unit = 13 then laneErr r fun k _ => k / 32 == id
  else portErr r id

/-- Link units: bundle, channel, stack lane, port, die-to-die lane, stack (Table 13.4). -/
def linkUnit (unit : Nat) : Bool := [uBundle, uChan, uLane, uPort, 12, 13].contains unit

/-- A re-test ends: failed, the unit is permanent; passed, its flag clears (R321, R357). -/
def retested (key : Nat) (fail : Bool) (s : State) : State :=
  let s := { s with hist := smUpd hist0 s.hist key fun h => if fail then { h with cls := 2 } else { h with retest := false } }
  raiseIf fail E.BRINGUP.RETEST_FAIL (queueRec (recHistory key) s)

/-- Units with their re-test flag set that satisfy a condition. -/
def flaggedUnits (s : State) (p : Nat → Bool) : List Nat :=
  (s.hist.filter fun e => e.2.retest && p (e.1 / 2 ^ 24)).map (·.1)

/-- Bundles that show an error are failed; EDGE_BER counts (R54, R356). -/
def checkBundles (r : CheckRes) (s : State) : State :=
  (List.range 96).foldl (fun s i =>
    let n := bundleErr r i
    if n = 0 then s else failBundle (i / 24) (i % 24) (addBer (bundleKey (i / 24) (i % 24)) 2 n s)) s

/-- Ports that show an error are classed BER (R266, R356). -/
def checkPorts (r : CheckRes) (s : State) : State :=
  allPorts.foldl (fun s p => if portErr r p = 0 then s else classify p (updPort s p fun q => { q with ber := true })) s

/-- The units of a lane group, by number of the TRAINING region (Table 13.3; log 30). -/
def groupUnits (kind i : Nat) : List Nat :=
  if kind = 1 then (List.range 8).map fun j => 96 + 8 * i + j
  else [if kind = 0 then i else if kind = 2 then 480 + i else 528 + i]

/-- The smallest of some margins; 0 where there is none. -/
def leastMargin : List Nat → Nat
  | [] => 0
  | m :: ms => ms.foldl min m

/-- Word 2 of a lane group: TMIN and VMIN (Table 13.8). -/
def marginWord (s : State) (kind i : Nat) : Nat :=
  let ms := (groupUnits kind i).flatMap (unitMargins s)
  min 255 (leastMargin (ms.map (·.2.1))) + 2 ^ 8 * min 255 (leastMargin (ms.map (·.2.2)))

/-- Bundles and lanes that the re-tests made permanent are failed and replaced in the same bring-up (R357). -/
def applyPermanent (s : State) : State :=
  let s := (List.range 96).foldl (fun s i =>
    if permanent s uBundle (bundleKey (i / 24) (i % 24)) then failBundle (i / 24) (i % 24) s else s) s
  trainLanes [] s

/-- A channel beyond repair: mapped out if it is cellar class, else the package is unfit (R210). -/
def judgeChannel (k c : Nat) (s : State) : State :=
  if !beyond s k c then s
  else if isCellar s k c then
    raise (E.STACK.MAPPED_OUT k)
      (freeChannel k c (setF s (R.STK_MAPOUT.MAPPED k) (getF s (R.STK_MAPOUT.MAPPED k) ||| 2 ^ c)))
  else if flagF s (R.STK_STA.UNFIT k) then s
  else raise (E.STACK.STATE_UNFIT k) (setB s (R.STK_STA.UNFIT k) true)

/-- STK_STA of a stack: UP, and the channels mapped out. -/
def showStack (k : Nat) (s : State) : State :=
  setFs s [(R.STK_STA.UP k, 1 - getF s (R.STK_STA.UNFIT k)),
           (R.STK_STA.NMAP k, ((List.range 32).filter fun c => bitsOf (getF s (R.STK_MAPOUT.MAPPED k)) c 1 == 1).length)]

/-- Roles of a die are assigned (R55). -/
def assignRoles (d : Nat) (s : State) : State :=
  match rolesOf (getF s (R.EDGE_FAIL.FAILED d)) with
  | none => raise (E.EDGE.ROLE_SHORT d) s
  | some w =>
    raise (E.EDGE.ROLES_SET d) (setFs s [(R.EDGE_ROLE_LO.ROLE d, w), (R.EDGE_ROLE_HI.ROLE d, w / 2 ^ 32)])

/-- Does a group hold a unit whose re-test flag is set (Table 13.8)? -/
def groupRetested (s : State) (kind i : Nat) : Bool :=
  s.hist.any fun e =>
    let u := e.1 / 2 ^ 24
    let id := e.1 % 2 ^ 24
    e.2.retest &&
    (if kind = 0 then (u == uBundle && 24 * (id / 32) + id % 32 == i) ||
       (u == 12 && 24 * (id / 2 ^ 12) + id / 2 ^ 7 % 32 == i)
     else if kind = 1 then (u == uChan && id / 8 == i) || (u == uLane && id / 2 ^ 10 == i) || (u == 13 && id == i / 4)
     else kind == 2 && u == uPort && id == i)

/-- A lane group's result (Table 13.8): passed, errors, bad lanes found. -/
def linkWord (s : State) (kind i : Nat) (ok : Bool) (errs bad : Nat) : Nat :=
  b2n (ok && errs == 0) + 2 * b2n (flagF s R.BU_PHASE.COLD) + 4 * b2n (groupRetested s kind i) +
  2 ^ 8 * min 255 errs + 2 ^ 16 * (bad % 256)

/-- Bad lanes of a channel with those that show an error in P5 (Table 13.8). -/
def checkedBad (r : CheckRes) (s : State) (k c : Nat) : List Nat :=
  (List.range 81).filter fun l =>
    (badLanesOf s k c).contains l || laneErr r (fun x m => x == chanKey k c && m == l) != 0

/-- One group's word. BADLANES of a group other than a stack quarter is free (log 2). -/
def noteGroup (kind i : Nat) (ok : Bool) (errs : Nat) (bad : Option Nat) (s : State) : State :=
  let (x, s) := takeFree s
  let w := linkWord s kind i ok errs (bad.getD x.toNat)
  { s with bu := { s.bu with links := smSet 0 s.bu.links (256 * kind + i) w } }

/-- The results of all lane groups (Table 13.3); word 1 is read from free values (log 2). -/
def noteGroups (r : CheckRes) (s : State) : State :=
  let s := { s with bu := { s.bu with linkBase := s.freeCtr }, freeCtr := s.freeCtr + 2048 }
  let s := (List.range 96).foldl (fun s i =>
    noteGroup 0 i (bitsOf (getF s (R.EDGE_FAIL.FAILED (i / 24))) (i % 24) 1 == 0) (bundleErr r i) none s) s
  let s := (List.range 48).foldl (fun s i =>
    let cs := (List.range 8).map fun j => (i / 4, 8 * (i % 4) + j)
    noteGroup 1 i (cs.all fun e => !beyond s e.1 e.2) (laneErr r fun k _ => k / 8 == i)
      (some ((cs.map fun e => (checkedBad r s e.1 e.2).length).sum)) s) s
  let s := allPorts.foldl (fun s p => noteGroup 2 p (flagF s (R.PORT_STA.UP p)) (portErr r p) none s) s
  if !s.fuse.guestOption then s
  else noteGroup 3 1 (flagF s R.GST_STA.MOD1_UP) r.mods.2 none (noteGroup 3 0 (flagF s R.GST_STA.MOD0_UP) r.mods.1 none s)

/-- The outcomes of the check (R356). -/
def applyCheck (r : CheckRes) (s : State) : State :=
  let s := allChans.foldl (fun s e =>
    addBadLanes e.1 e.2 ((List.range 81).filter fun l => laneErr r (fun k m => k == chanKey e.1 e.2 && m == l) != 0) s) s
  let s := checkPorts r (checkBundles r s)
  let s := if r.mods.1 = 0 then s else moduleDown 0 s
  if r.mods.2 = 0 then s else moduleDown 1 s

/-- The link re-tests (R357). -/
def retestLinks (r : CheckRes) (s : State) : State :=
  (flaggedUnits s linkUnit).foldl (fun s k => retested k (linkErrors r (k / 2 ^ 24) (k % 2 ^ 24) != 0) s) s

/-- The channels that cannot be repaired, the stacks' status and the dies' roles (R55, R210). -/
def judgeLinks (s : State) : State :=
  let s := allChans.foldl (fun s e => judgeChannel e.1 e.2 s) (applyPermanent s)
  let s := countRegions ((List.range 12).foldl (fun s k => showStack k s) s)
  let s := [0, 1, 2, 3].foldl (fun s d => assignRoles d s) s
  setF s R.FLT_STA.PENDING (pendingTests s)

/-- P5's outcome in Table 13.2: a die short of bundles, else a stack that is unfit. -/
def checkReason (s : State) : Nat :=
  if [0, 1, 2, 3].any fun d => (rolesOf (getF s (R.EDGE_FAIL.FAILED d))).isNone then 4
  else if (List.range 12).any fun k => flagF s (R.STK_STA.UNFIT k) then 5 else 0

/-- P5's work: the check, the link re-tests, the channels that cannot be repaired, the roles (R356, R357). -/
def checkWork (r : CheckRes) (s : State) : Nat × State :=
  let s := judgeLinks (retestLinks r (applyCheck r (noteGroups r (classifyAll s))))
  (checkReason s, s)

/-- P5 (R356, R357). -/
def execErrorRateCheck (r : CheckRes) (s : State) : Host.Outcome State Fault Refusal := .next (phase 5 (checkWork r) s)

/-! ### P6: self-test and map (R63 to R66, R320, R321, R357, R358) -/

/-- Key of a physical core's history. -/
def coreKey (d row col : Nat) : Nat := d * 2 ^ 14 + row * 2 ^ 7 + col

/-- A core that fails its known-answer test is permanent (R358); a fused core is not tested. -/
def failCore (d row col : Nat) (s : State) : State :=
  if 80 ≤ row ∨ 84 ≤ col ∨ s.fuse.badCores.contains (d, row, col) then s
  else queueRec (recHistory (coreKey d row col))
    { s with hist := smUpd hist0 s.hist (coreKey d row col) fun h => { h with cls := 2 } }

/-- Did a unit of Table 13.4 fail its P6 re-test? -/
def selfFailed (r : SelfRes) (key : Nat) : Bool :=
  if key / 2 ^ 24 = uCore then r.cores.any fun e => coreKey e.1.val e.2.1 e.2.2 == key % 2 ^ 24
  else r.units.contains (key / 2 ^ 24, key % 2 ^ 24)

/-- A transient unit without an event for 86 400 s of powered time returns to class none (R321). -/
def ageHist (now : Nat) (h : Hist) : Bool := h.cls == 1 && decide (h.times.headD 0 + 86400 < now)

def ageHists (s : State) : State :=
  ((s.hist.filter fun e => ageHist (powered s) e.2).map (·.1)).foldl (fun s k =>
    queueRec (recHistory k) { s with hist := smUpd hist0 s.hist k fun h => { h with cls := 0 } }) s

/-- Bad physical columns of a row: fused, or permanent in the history (R63). -/
def badCols (s : State) (d row : Nat) : List Nat :=
  (List.range 84).filter fun c => s.fuse.badCores.contains (d, row, c) || permanent s uCore (coreKey d row c)

/-- The map of a die's rows (R63). -/
def dieMap (s : State) (d : Nat) : List (List Nat) := (List.range 80).map fun row => badCols s d row

/-- A row that cannot present 80 columns, or a bypass path that failed (R66). -/
def dieSpent (s : State) (r : SelfRes) (d : Nat) : Bool :=
  (dieMap s d).any (fun l => decide (5 ≤ l.length)) || r.bypass.any fun x => x.val == d

/-- The maps are loaded (R65). -/
def loadMap (d : Nat) (s : State) : State :=
  let m := dieMap s d
  let s := { s with rowMaps := (m.zipIdx).foldl (fun t e => smSet [] t (128 * d + e.2) e.1) s.rowMaps }
  raise (E.DIE.MAP_LOADED d)
    (setFs s [(R.DIE_MAP_STA.LOADED d, 1), (R.DIE_MAP_STA.MAXBAD d, (m.map List.length).foldl max 0),
              (R.DIE_MAP_STA.TOTAL d, (m.map List.length).sum)])

/-- Is some history of these units permanent? -/
def anyPermanent (s : State) (us : List Nat) : Bool := s.hist.any fun e => e.2.cls == 2 && us.contains (e.1 / 2 ^ 24)

/-- The re-tests of P6, the known-answer test of every core, and the histories that age (R321, R357, R358). -/
def testUnits (r : SelfRes) (s : State) : State :=
  let s := (flaggedUnits s fun u => !linkUnit u).foldl (fun s k => retested k (selfFailed r k) s) s
  let s := ageHists (r.cores.foldl (fun s e => failCore e.1.val e.2.1 e.2.2 s) s)
  setF s R.FLT_STA.PENDING (pendingTests s)

/-- P6's work: the tests, then the maps, unless a die has no spare left (R66, R358). -/
def selfWork (r : SelfRes) (s : State) : Nat × State :=
  let s := testUnits r s
  let spent := [0, 1, 2, 3].filter fun d => dieSpent s r d
  if !spent.isEmpty then (6, spent.foldl (fun s d => raise (E.DIE.SPARE_EXHAUSTED d) s) s)
  else
    (if anyPermanent s [uHearth] then 7 else if anyPermanent s [uPantry, uReduce, uHub] then 8 else 0,
     [0, 1, 2, 3].foldl (fun s d => loadMap d s) s)

/-- P6 (R358). -/
def execSelfTest (r : SelfRes) (s : State) : Host.Outcome State Fault Refusal := .next (phase 6 (selfWork r) s)

/-! ### P7 and P8 (R359, R360, R402) -/

/-- Everything that R359 names reads 0. -/
def zeroAll (s : State) : State :=
  { s with cores := [], mem := [], mesh := [], transit := [], pans := [], hall := { s.hall with land := [], posts := [] },
           reduce := { s.reduce with pieces := [], sums := [] } }

/-- P7's work (R359). -/
def zeroWork (s : State) : Nat × State := (0, zeroAll s)

/-- P7 (R359). -/
def execBringupZeroing (s : State) : Host.Outcome State Fault Refusal :=
  .next (phase 7 zeroWork s)

/-- The pages that P8 enables: all but TICK, and GUEST only on option G (R402). -/
def readyPages (s : State) : List Nat :=
  (pages.filter fun p => p != 0x03 && (p != 0x40 || s.fuse.guestOption)) ++ [1, 2, 3].map fun f => reqPage 0x52 f

/-- A partition's resources as its registers stand (R371, R373). -/
def partRegs (s : State) (n : Nat) : List Nat :=
  [getF s (R.PART_CORES.DIES n), getF s (R.PART_CORES.ROW0 n), getF s (R.PART_CORES.ROW1 n),
   getF s (R.PART_CORES.COL0 n), getF s (R.PART_CORES.COL1 n), getF s (R.PART_MEM.LAND n),
   if n = 0 then 1 else getF s (R.PART_REG.EN n), getF s (R.PART_REG.FILLER n), getF s (R.PART_REG.BANKS n)]

/-- The resources in force become those of the registers. -/
def snapParts (s : State) : State :=
  [0, 1, 2, 3].foldl (fun s n => { s with hif := { s.hif with partAt := smSet [] s.hif.partAt n (partRegs s n) } }) s

/-- The allotments in force become those of the registers (R300). -/
def snapAllot (s : State) : State :=
  { s with reduce := { s.reduce with allotAt := [0, 1, 2, 3].map fun n => getF s (R.RED_ALLOT.UNITS n) } }

/-- The records that P8 writes where they differ from what is committed (R360). -/
def bringupRecs (s : State) : List Nat :=
  (identities s).map recIdentity ++ [recFuse] ++ (List.range 16).map recRoles ++
  (List.range (trainingUnits s)).map recTraining ++ (List.range (trainingUnits s)).map recMargins ++
  (List.range 80).map fun i => recMap (i / 20) (i % 20)

/-- A record is queued when its content differs from its committed value (R360). -/
def queueIfNew (r : Nat) (s : State) : State :=
  if recValue (getRec s r) = some (recContent s r) then s else enqueue r false s

/-- P8 (R350, R360, R402). -/
def reachReady (s : State) : State :=
  let s := (readyPages s).foldl (fun s p => setEnable p true s) s
  let s := onGuest (fun g => { g with ownerAt := getF s R.GST_CTL.OWNER }) (snapAllot (snapParts s))
  let s := setClocks (fun _ => 10 * gradeF s) (endBringup s)
  let s := atticGo ((bringupRecs s).foldl (fun s r => queueIfNew r s) s)
  raise E.BRINGUP.READY (setTop stReady s)

/-- P8 (R350). -/
def execReady (s : State) : Host.Outcome State Fault Refusal :=
  .next (if s.hearth.closed && s.bu.next == 8 then reachReady s else s)

/-! ### The Attic's commands (R351, R363, R364, R367) -/

/-- A record commits and the next write starts (R363, R364). -/
def execAtticWriteCommit (s : State) : Host.Outcome State Fault Refusal := .next (commitRec s)

/-- 64 s of powered time (R319, R364). -/
def execAtticPackageTimer (s : State) : Host.Outcome State Fault Refusal :=
  .next <|
    if !s.hearth.closed then s
    else queueRec recPackage (setF s R.ATTIC_POWERED.SECONDS (satAdd (2 ^ 32 - 1) (powered s) 64))

/-- ATTIC_CMD takes effect from the end of P3 (R354). -/
def atticOpen (s : State) : Bool := flagF s R.ATTIC_RESTORE_STA.DONE

/-- SYNC: SYNCED follows when every request that waits now has committed (Table 13.10). -/
def syncCmd (s : State) : State :=
  if !atticOpen s then s
  else
    let l := (match s.attic.writing with | some (r, _) => [r] | none => []) ++ s.attic.queue.map (·.1)
    if l.isEmpty then raise E.ATTIC.SYNCED s else { s with attic := { s.attic with sync := s.attic.sync ++ [l] } }

/-- ATTIC_CMD.SYNC (R364). -/
def execAtticSync (s : State) : Host.Outcome State Fault Refusal := .next (syncCmd s)

/-- CLEAR_SETTINGS: every SETTINGS record is written with LEN = 0 (R367). -/
def clearCmd (s : State) : State :=
  if !atticOpen s || topState s == stRun || topState s == stBringup then s
  else atticGo ((pages.filter fun p => !(keptFlds p).isEmpty).foldl (fun s p => enqueue (recSettings p) true s) s)

/-- ATTIC_CMD.CLEAR_SETTINGS (R367). -/
def execClearSettings (s : State) : Host.Outcome State Fault Refusal := .next (clearCmd s)

/-- BU_MODE.COLD_NEXT is recorded in the PACKAGE record (R351, R364). -/
def coldCmd (s : State) : State :=
  if !regsServed s then s else queueRec recPackage { s with bu := { s.bu with coldNext := true } }

/-- BU_MODE.COLD_NEXT (R351). -/
def execColdNext (s : State) : Host.Outcome State Fault Refusal := .next (coldCmd s)

end Sys2Proof.Machine
end

