-- ==== Sys2Proof/Machine/Frame.lean ====
section
/-! DEFINITION. The frames that a port receives: the link check, forwarding, and what each class and kind does
(R252 to R258, R261, R262, R270; log 21). -/

namespace Sys2Proof.Machine

/-! ### SYNC frames (R254, R262, Table 9.5) -/

/-- A number in a frame's payload. -/
def payNum (f : Frame) (off n : Nat) : Nat := leNat ((f.payload.drop off).take n)

/-- A SYNC frame without what differs between its copies and hops. -/
def bareSync (f : Frame) : Frame :=
  { f with copy := false, lseq := 0, seqv := false, ackv := false, nak := false, ack := 0, crc := 0 }

/-- The first copy that passes its CRC counts (R254): whether this one does, and the port after. -/
def takeSync (f : Frame) (q : Port) : Bool × Port :=
  if f.copy then
    if q.syncSeen == some (bareSync f) then (false, { q with syncSeen := none }) else (true, q)
  else (true, { q with syncSeen := some (bareSync f) })

/-- The Hall has already forwarded a STRETCH for the boundary and index (R27). -/
def stretchDone (s : State) (f : Frame) : Bool :=
  f.kind == 5 && s.tick.stretchSeen.contains (payNum f 0 3, payNum f 3 1)

/-- The STRETCH is noted as forwarded. -/
def noteStretch (f : Frame) (s : State) : State :=
  if f.kind = 5 then { s with tick := { s.tick with stretchSeen := (payNum f 0 3, payNum f 3 1) :: s.tick.stretchSeen } }
  else s

/-- What a SYNC frame for this package does (Table 9.5). -/
def syncAct (p : Nat) (f : Frame) (s : State) : State :=
  match f.kind with
  | 0 => timeReqRx p (payNum f 0 8) f.copy s
  | 1 => timeRspRx (payNum f 0 8) (payNum f 8 8) (payNum f 16 8) f.copy s
  | 2 => launchRx f.src (payNum f 0 8) s
  | 3 => goRx (payNum f 0 8) s
  | 4 => nogoRx s
  | 5 => stretchRx (payNum f 0 3) (payNum f 3 1) s
  | 6 => voidRx (payNum f 0 2) (payNum f 2 3) s
  | 7 => abortRx (payNum f 0 2) (payNum f 2 1) s
  | _ => s

/-- A SYNC frame: a broadcast is forwarded and acts, a unicast acts here or goes on (R262). -/
def syncRx (p : Nat) (f : Frame) (s : State) : State :=
  let (ok, q) := takeSync f (getPort s p)
  let s := updPort s p fun _ => q
  if !ok then s
  else
    let s := raiseIf f.copy E.HALL.SYNC_COPY s
    let g := bareSync f
    if f.bc then
      if stretchDone s f then s
      else syncAct p f (queueSyncs g (noteStretch f s) (dimPorts s (portDim s p + 1)))
    else if f.dst = myId s then syncAct p f s
    else match egressPort s f.dst with
      | some e => queueSync e g s
      | none => s

/-! ### DATA and COLL frames (R35, R262, R270) -/

/-- A sequenced frame for this package. -/
def dataAct (f : Frame) (s : State) : State := if isMark f then markRx f.src f.tick s else landArrival f s

/-- An accepted sequenced frame goes on, or lands. -/
def dataRx (p : Nat) (f : Frame) (s : State) : State :=
  let g := { f with lseq := 0, seqv := false, ackv := false, nak := false, ack := 0, crc := 0 }
  if f.bc then dataAct g (forwardAll (portDim s p + 1) g s)
  else if f.dst = myId s then dataAct g s
  else forward (if isMark f then markPart s g else framePart s f.seq) g s

/-! ### CTRL frames (Table 9.4) -/

def ctrlRx (p : Nat) (f : Frame) (s : State) : State :=
  match f.kind with
  | 1 => identRx p (identOf f.payload) s
  | 2 => rebindRx p (payNum f 0 2) s
  | 3 => rebindAckRx p (payNum f 0 2) s
  | 4 => if f.dst = myId s then lockstepRx f.tick f.foff f.payload s else s
  | _ => s

/-! ### A frame is received (R250, R252, R256) -/

/-- What a frame that passed its CRC does. Planned and SYNC frames count on a port in service only (R266, R268). -/
def frameAct (p : Nat) (f : Frame) (s : State) : State :=
  if f.cls = clsCtrl then ctrlRx p f s
  else if !inService s p then s
  else if f.cls = clsSync then syncRx p f s
  else if f.cls ≤ clsColl then
    let (ok, q) := takeSeq f (getPort s p)
    let s := updPort s p fun _ => q
    if ok then dataRx p f s else s
  else s

/-- A frame arrives at a port; one with a byte in a codeword that could not be corrected fails its CRC (R250, R256, Table 9.9). -/
def frameRx (p : Nat) (f : Frame) (corr uncorr : Nat) (s : State) : State :=
  let s := incSat (incSat s (R.PORT_BER.CORR p) corr) (R.PORT_BER.UNCORR p) uncorr
  if f.crc ≠ frameCrc f ∨ uncorr ≠ 0 then incSat s (R.PORT_BER.CRCERR p) 1
  else frameAct p f (takeAck p f s)

/-- A frame is received (R256). -/
def execFrameReceive (p : PortNo) (f : Frame) (corr uncorr : Nat) (s : State) : Host.Outcome State Fault Refusal :=
  .next (if flagF s (R.PORT_STA.UP p) && !(getPort s p).retraining then frameRx p f corr uncorr s else s)

end Sys2Proof.Machine
end

