-- ==== Sys2Proof/Machine/Image.lean ====
section
/-! DEFINITION. The plan image as it lies in memory: header, directory, sections and segments (R168 to R180,
R244), and the plan that a role takes from it. -/

namespace Sys2Proof.Machine

/-! ### Header and directory (R171) -/

/-- A number of `n` bytes at an offset of the image at address `pa`. -/
def imgN (s : State) (pa off n : Nat) : Nat := leNat (rdMems s (pa + off) n)

def hMagic (s : State) (pa : Nat) : Nat := imgN s pa 0 4
def hVersion (s : State) (pa : Nat) : Nat := imgN s pa 4 2
def hSize (s : State) (pa : Nat) : Nat := imgN s pa 6 2
def hId (s : State) (pa : Nat) : Nat := imgN s pa 8 8
def hLength (s : State) (pa : Nat) : Nat := imgN s pa 16 8
def hVariance (s : State) (pa : Nat) : Bool := bitsOf (imgN s pa 24 4) 0 1 == 1
def hBoost (s : State) (pa : Nat) : Bool := bitsOf (imgN s pa 24 4) 1 1 == 1
def hFiller (s : State) (pa : Nat) : Bool := bitsOf (imgN s pa 24 4) 2 1 == 1
def hGuest (s : State) (pa : Nat) : Bool := bitsOf (imgN s pa 24 4) 3 1 == 1
def hPartition (s : State) (pa : Nat) : Nat := imgN s pa 28 1
def hSections (s : State) (pa : Nat) : Nat := imgN s pa 30 2
def hNumid (s : State) (pa : Nat) : Nat := imgN s pa 32 8
def hTimid (s : State) (pa : Nat) : Nat := imgN s pa 40 4
def hTickLen (s : State) (pa : Nat) : Nat := imgN s pa 44 2
def hGuard (s : State) (pa : Nat) : Nat := imgN s pa 46 2
def hPeriod (s : State) (pa : Nat) : Nat := imgN s pa 48 4
def hNpkg (s : State) (pa : Nat) : Nat := imgN s pa 52 2
def hPrimary (s : State) (pa : Nat) : Nat := imgN s pa 56 8
def hGuestTbl (s : State) (pa : Nat) : Nat := imgN s pa 64 8
def hCrc (s : State) (pa : Nat) : Nat := imgN s pa 120 4

/-- The image CRC: bytes 120 to 123 count as 0 (Table 6.9). -/
def imgCrc (s : State) (pa : Nat) : Nat :=
  crc32c (rdMems s pa 120 ++ [0#8, 0#8, 0#8, 0#8] ++ rdMems s (pa + 124) (hLength s pa - 124))

/-- A directory entry (Table 6.10). -/
structure Sect where
  idx : Nat
  ty : Nat
  role : Nat
  all : Bool
  off : Nat
  len : Nat
  deriving DecidableEq, Repr

/-- The directory; at most 64 entries are read. -/
def sections (s : State) (pa : Nat) : List Sect :=
  (List.range (min 64 (hSections s pa))).map fun i =>
    let o := 128 + 16 * i
    { idx := i, ty := imgN s pa o 2, role := imgN s pa (o + 2) 1, all := bitsOf (imgN s pa (o + 3) 1) 0 1 == 1,
      off := imgN s pa (o + 4) 8, len := imgN s pa (o + 12) 4 }

/-- The section of a type that serves a role. -/
def sectFor (s : State) (pa ty role : Nat) : Option Sect :=
  (sections s pa).find? fun q => q.ty == ty && (q.all || q.role == role)

/-- Entries of `n` bytes in a section. -/
def entries (n : Nat) (q : Sect) : List Nat := (List.range (q.len / n)).map fun i => q.off + n * i

/-- Offsets of the entries of a role's section of a type; none where the section is absent. -/
def roleEntries (s : State) (pa ty role n : Nat) : List Nat :=
  match sectFor s pa ty role with
  | some q => entries n q
  | none => []

/-! ### Sections (R172 to R180) -/

def tyPackages : Nat := 1
def tyStations : Nat := 2
def tyStreams : Nat := 3
def tySegments : Nat := 4
def tyFabric : Nat := 5
def tyColl : Nat := 6
def tyPantry : Nat := 7
def tyMemory : Nat := 8
def tyBubbles : Nat := 9
def tyEnergy : Nat := 10

/-- PACKAGES: package ID and role of each position (R172). -/
def packagesOf (s : State) (pa : Nat) : List (Nat × Nat) :=
  (roleEntries s pa tyPackages 0 4).map fun o => (imgN s pa o 2 % 2 ^ 12, imgN s pa (o + 2) 1)

/-- The role that the package takes: position p is the package with ID p (R172, R261). -/
def roleOf (s : State) (pa : Nat) : Nat := ((packagesOf s pa).getD (myId s) (0, 0)).2

/-- STATIONS: ID, KIND, BANKS, BBANK (R173). -/
def stationsOf (s : State) (pa role : Nat) : List (Nat × Nat × Nat × Nat) :=
  (roleEntries s pa tyStations role 8).map fun o =>
    (imgN s pa o 2, imgN s pa (o + 2) 1, imgN s pa (o + 4) 1, imgN s pa (o + 5) 1)

/-- STREAMS (Table 6.11). -/
def streamAt (s : State) (pa o : Nat) : StreamE :=
  { num := imgN s pa o 2, transport := imgN s pa (o + 2) 1, rel := bitsOf (imgN s pa (o + 3) 1) 0 1 == 1,
    producer := imgN s pa (o + 4) 2, consumer := imgN s pa (o + 6) 2, dest := imgN s pa (o + 8) 2,
    tiles := imgN s pa (o + 10) 2, fmt := imgN s pa (o + 12) 4, base := imgN s pa (o + 16) 2,
    stride := imgN s pa (o + 18) 2, ring := imgN s pa (o + 20) 2, sem := imgN s pa (o + 22) 1 % 64,
    cnt := imgN s pa (o + 23) 1 % 64, seq0 := imgN s pa (o + 24) 2 }

def streamsOf (s : State) (pa role : Nat) : List StreamE := (roleEntries s pa tyStreams role 32).map (streamAt s pa)

/-- A placement entry (R184). -/
def segAt (s : State) (pa o : Nat) : SegE :=
  { lcid := imgN s pa o 2, kind := imgN s pa (o + 2) 1, ptick := imgN s pa (o + 4) 4, imgOff := imgN s pa (o + 8) 8,
    pa := imgN s pa (o + 16) 8 }

/-- Placement entries lie before the first segment data, and an entry of zeros, which would place the image's own
header, ends them (R184; log 33). `base` is the section's offset. -/
def segList (s : State) (pa base : Nat) : Nat → Nat → Nat → List SegE
  | 0, _, _ => []
  | fuel + 1, o, limit =>
    if limit < o + 24 ∨ (rdMems s (pa + o) 24).all (· == 0#8) then []
    else
      let e := segAt s pa o
      e :: segList s pa base fuel (o + 24) (if e.imgOff < base then limit else min limit e.imgOff)

/-- Placement entries of a SEGMENTS section. -/
def segsIn (s : State) (pa : Nat) (q : Sect) : List SegE := segList s pa q.off (q.len / 24) q.off (q.off + q.len)

def segsOf (s : State) (pa role : Nat) : List SegE :=
  match sectFor s pa tySegments role with
  | some q => segsIn s pa q
  | none => []

/-- FABRIC entries (R176). -/
def fabAt (s : State) (pa o : Nat) : FabE :=
  { ptick := imgN s pa o 4, slot0 := imgN s pa (o + 4) 2, nslot := imgN s pa (o + 6) 2, port := imgN s pa (o + 8) 1,
    cls := imgN s pa (o + 9) 1, stream := imgN s pa (o + 10) 2, dest := imgN s pa (o + 12) 2 }

def fabricOf (s : State) (pa role : Nat) : List FabE := (roleEntries s pa tyFabric role 16).map (fabAt s pa)

/-- The 16 bytes of an entry, as the route table shows them (R176, R273). -/
def fabBytes (e : FabE) : List Byte :=
  leBytes 4 e.ptick ++ leBytes 2 e.slot0 ++ leBytes 2 e.nslot ++ leBytes 1 e.port ++ leBytes 1 e.cls ++
  leBytes 2 e.stream ++ leBytes 2 e.dest ++ leBytes 2 0

/-- COLLECTIVE entries (R177). -/
def collsOf (s : State) (pa role : Nat) : List CollE :=
  (roleEntries s pa tyColl role 16).map fun o =>
    { ctx := imgN s pa o 1, kind := imgN s pa (o + 1) 1, format := imgN s pa (o + 2) 1, allot := imgN s pa (o + 4) 4,
      segmax := imgN s pa (o + 8) 4, npart := imgN s pa (o + 12) 2 }

/-- Tensor extents (Table 8.8). -/
def tensorAt (s : State) (pa o : Nat) : TensorE :=
  { tensor := imgN s pa o 2, stack := imgN s pa (o + 2) 1, alg := imgN s pa (o + 3) 1, mb := imgN s pa (o + 4) 1,
    flags := imgN s pa (o + 5) 1, pa := imgN s pa (o + 8) 8, nunits := imgN s pa (o + 16) 4, first := imgN s pa (o + 20) 4,
    wcPa := imgN s pa (o + 24) 8, r0 := imgN s pa (o + 32) 4, c0 := imgN s pa (o + 36) 4, nr := imgN s pa (o + 40) 4,
    nc := imgN s pa (o + 44) 4, tr := imgN s pa (o + 48) 4, tc := imgN s pa (o + 52) 4 }

/-- The PANTRY section (R244). -/
def pantryOf (s : State) (pa role : Nat) : Option PanSec :=
  match sectFor s pa tyPantry role with
  | none => none
  | some q =>
    some { stepPtick := imgN s pa (q.off + 4) 4, normPtick := imgN s pa (q.off + 8) 4, normCtx := imgN s pa (q.off + 12) 1,
           mbatch := imgN s pa (q.off + 13) 1, mseq := (List.range 16).map fun i => imgN s pa (q.off + 16 + 4 * i) 4,
           tensors := (List.range (imgN s pa q.off 4)).map fun i => tensorAt s pa (q.off + 80 + 64 * i) }

/-- MEMORY entries: region and class (R178). -/
def memoryOf (s : State) (pa role : Nat) : List (Nat × Nat) :=
  (roleEntries s pa tyMemory role 4).map fun o => (imgN s pa o 2 % 2 ^ 12, imgN s pa (o + 2) 1)

/-- BUBBLES: period tick, die, first row, first column, last row, last column (R179). -/
def bubblesOf (s : State) (pa role : Nat) : List (Nat × Nat × Nat × Nat × Nat × Nat) :=
  (roleEntries s pa tyBubbles role 12).map fun o =>
    (imgN s pa o 4, imgN s pa (o + 4) 1, imgN s pa (o + 5) 1, imgN s pa (o + 6) 1, imgN s pa (o + 7) 1, imgN s pa (o + 8) 1)

/-- ENERGY by period tick (R180). -/
def energyOf (s : State) (pa role : Nat) : SMap Nat :=
  smSetList 0 [] 0 ((roleEntries s pa tyEnergy role 4).map fun o => imgN s pa o 4)

/-! ### What lands here (R271) -/

/-- Does the entry of position p deliver its frames to this package: a unicast to it over its last hop, or a
broadcast on the port that this package hears? -/
def deliversHere (s : State) (p : Nat) (e : FabE) : Bool :=
  decide (e.cls ≤ 1) && p != myId s && hopsTo s p == 1 &&
  (e.dest == myId s ||
   (e.dest == 0xFFFF && allPorts.any fun q =>
      flagF s (R.PORT_PEER_ID.VALID q) && getF s (R.PORT_PEER_ID.PKG q) == p && getF s (R.PORT_PEER_ID.PORT q) == e.port))

/-- Frames that land in each period tick, from the final-hop entries of every position (R271). -/
def landingOf (s : State) (pa : Nat) : SMap Nat :=
  let ps := packagesOf s pa
  (List.range ps.length).foldl (fun m p =>
    (fabricOf s pa (ps.getD p (0, 0)).2).foldl (fun (m : SMap Nat) e =>
      if deliversHere s p e then smUpd 0 m e.ptick (· + e.nslot) else m) m) []

/-- The plan that the package takes from an image. -/
def planOf (s : State) (pa : Nat) : Plan :=
  let r := roleOf s pa
  { id := hId s pa, variance := hVariance s pa, boost := hBoost s pa, filler := hFiller s pa, part := hPartition s pa,
    role := r, pos := myId s, npkg := hNpkg s pa, period := hPeriod s pa, tickLen := hTickLen s pa, guard := hGuard s pa,
    primaryId := hPrimary s pa, guestTbl := hGuestTbl s pa, stations := stationsOf s pa r, streams := streamsOf s pa r,
    segs := segsOf s pa r, fabric := fabricOf s pa r, landing := landingOf s pa, colls := collsOf s pa r,
    pantry := pantryOf s pa r, memory := memoryOf s pa r, bubbles := bubblesOf s pa r, energy := energyOf s pa r }

/-! ### Segments (R168) -/

/-- A segment's bytes in the image: header and a body of its BODY words. -/
def imgSeg (s : State) (pa : Nat) (e : SegE) : List Byte := rdMems s (pa + e.imgOff) (segBytes s (pa + e.imgOff) (e.kind == 1))

/-- The words of its body. -/
def imgWords (s : State) (pa : Nat) (e : SegE) : List Nat :=
  let seg := imgSeg s pa e
  bodyWords (min ((seg.length - 64) / 8) (leNat ((seg.drop 4).take 2))) (seg.drop 64)

/-- A list from a word index to its TEND or HALT: index, word and extension word of each instruction; false
when it runs past the body, or its last word wants an extension (R95). -/
def walkWords (ws : List Nat) : Nat → Nat → List (Nat × Nat × Nat) × Bool
  | 0, _ => ([], false)
  | fuel + 1, i =>
    match ws[i]? with
    | none => ([], false)
    | some w =>
      if wOp w = opTend ∨ wOp w = opHalt then ([(i, w, 0)], true)
      else if twoWord (wOp w) then
        match ws[i + 1]? with
        | none => ([(i, w, 0)], false)
        | some x => let r := walkWords ws fuel (i + 2); ((i, w, x) :: r.1, r.2)
      else let r := walkWords ws fuel (i + 1); ((i, w, 0) :: r.1, r.2)

/-- The engines in the order of ENTRY. -/
def engineList : List Engine := [.ae0, .ae1, .mv, .ve, .ld, .st]

/-- Engines whose lists a segment holds: all six, or LD and ST of a park segment (R169). -/
def segEngines (e : SegE) : List Engine := if e.kind = 1 then [.ld, .st] else engineList

/-- The list of an engine in a segment. -/
def segWalk (s : State) (pa : Nat) (e : SegE) (g : Engine) : List (Nat × Nat × Nat) × Bool :=
  let ws := imgWords s pa e
  walkWords ws (ws.length + 1) ((segEntries (imgSeg s pa e)).getD g.no 0)

end Sys2Proof.Machine
end

