-- ==== Sys2Proof/Machine/Checks.lean ====
section
/-! DEFINITION. The loader's checks (Table 6.13) that the image and the package's state decide. A check answers every
place at which it fails; the loader reports the lowest (R183). The checks that need the loader's exact cycle model are
not here: the row's operand stands for them (log 34). -/

namespace Sys2Proof.Machine

/-! ### Places (R183, Table 6.15) -/

/-- A failing place: an entry or word index of a section, the station and the period tick concerned. -/
def failAt (code sect entry station ptick : Nat) : LoadErr :=
  { code := code, sect := sect, station := station, entry := entry, ptick := ptick, cycle := 0 }

/-- A failure of the header: section 0xFF. -/
def hdrFail (code : Nat) (bad : Bool) : List LoadErr := if bad then [failAt code 0xFF 0 0 0] else []

/-- The order of R183: section, entry, station, period tick, cycle. -/
def errKey (e : LoadErr) : List Nat := [e.sect, e.entry, e.station, e.ptick, e.cycle]

/-- Is the first list lower, element by element? -/
def keyBefore : List Nat → List Nat → Bool
  | a :: l, b :: m => decide (a < b) || (a == b && keyBefore l m)
  | _, _ => false

/-- The lowest of some failing places. -/
def leastErr : List LoadErr → Option LoadErr
  | [] => none
  | e :: l =>
    match leastErr l with
    | none => some e
    | some m => some (if keyBefore (errKey m) (errKey e) then m else e)

/-- The lowest failing place of the first check that fails. -/
def firstErr : List (Unit → List LoadErr) → Option LoadErr
  | [] => none
  | c :: cs =>
    match leastErr (c ()) with
    | some e => some e
    | none => firstErr cs

/-- The failing entries of a section: `f` answers the station and period tick of one that fails. -/
def entryFails {α : Type} (code sect : Nat) (l : List α) (f : α → Option (Nat × Nat)) : List LoadErr :=
  l.zipIdx.filterMap fun a => (f a.1).map fun p => failAt code sect a.2 p.1 p.2

/-- Directory index of a role's section of a type. -/
def sectIdx (s : State) (pa ty role : Nat) : Nat :=
  match sectFor s pa ty role with
  | some q => q.idx
  | none => 0xFF

/-! ### Placement entries and instructions -/

/-- A placement entry where it stands in the image. -/
structure Placed where
  sect : Nat
  entry : Nat
  e : SegE
  deriving DecidableEq, Repr

/-- An instruction of a segment's list: its engine, word index and words. -/
structure LIns where
  p : Placed
  eng : Engine
  idx : Nat
  w : Nat
  x : Nat
  deriving DecidableEq, Repr

def placedIn (s : State) (pa : Nat) (q : Sect) : List Placed :=
  (segsIn s pa q).zipIdx.map fun a => { sect := q.idx, entry := a.2, e := a.1 }

/-- The placement entries of every role. -/
def placedAll (s : State) (pa : Nat) : List Placed :=
  ((sections s pa).filter fun q => q.ty == tySegments).flatMap (placedIn s pa)

/-- The placement entries of a role. -/
def placedOf (s : State) (pa role : Nat) : List Placed :=
  match sectFor s pa tySegments role with
  | some q => placedIn s pa q
  | none => []

/-- The list of an engine in a placed segment, and whether it ends well (R95). -/
def listOf (s : State) (pa : Nat) (p : Placed) (g : Engine) : List LIns :=
  (segWalk s pa p.e g).1.map fun i => { p := p, eng := g, idx := i.1, w := i.2.1, x := i.2.2 }

/-- Every instruction of a placed segment. -/
def insOf (s : State) (pa : Nat) (p : Placed) : List LIns := (segEngines p.e).flatMap (listOf s pa p)

/-- Every instruction of a role. -/
def roleIns (s : State) (pa role : Nat) : List LIns := (placedOf s pa role).flatMap (insOf s pa)

def failSeg (code : Nat) (p : Placed) : LoadErr := failAt code p.sect p.entry p.e.lcid p.e.ptick
def failIns (code : Nat) (i : LIns) : LoadErr := failAt code i.p.sect i.idx i.p.e.lcid i.p.e.ptick

/-- The placed segments, or the instructions, of a role that fail a check. -/
def segFails (s : State) (pa role code : Nat) (bad : SegE → Bool) : List LoadErr :=
  ((placedOf s pa role).filter fun p => bad p.e).map (failSeg code)
def insFails (s : State) (pa role code : Nat) (bad : LIns → Bool) : List LoadErr :=
  ((roleIns s pa role).filter bad).map (failIns code)

/-! ### 0x0001 to 0x0005: the image -/

def badMagic (s : State) (pa : Nat) : List LoadErr :=
  hdrFail 1 (hMagic s pa != 0x4C50514D) ++
  ((placedAll s pa).filter fun p => leNat ((imgSeg s pa p.e).take 4) != 0x4753514D).map (failSeg 1)

def badCrc (s : State) (pa : Nat) : List LoadErr :=
  hdrFail 3 (imgCrc s pa != hCrc s pa) ++
  ((placedAll s pa).filter fun p =>
    let seg := imgSeg s pa p.e
    crc32c ((seg.drop 64).take (8 * leNat ((seg.drop 4).take 2))) != leNat ((seg.drop 24).take 4)).map (failSeg 3)

/-- Bytes of an entry of a section type (Table 6.10); 0 where the section is not a list of entries. -/
def entrySize (ty : Nat) : Nat :=
  match ty with
  | 1 => 4 | 2 => 8 | 3 => 32 | 5 => 16 | 6 => 16 | 8 => 4 | 9 => 12 | 10 => 4 | _ => 0

/-- Does a section break its own bounds, alignment or type (R171, R244)? -/
def sectBad (s : State) (pa : Nat) (q : Sect) : Bool :=
  q.off % 64 != 0 || decide (q.off < 128 + 16 * hSections s pa) || decide (hLength s pa < q.off + q.len) ||
  (q.ty == 0 || (decide (10 < q.ty) && decide (q.ty < 0x8000))) || (q.ty == tyPackages && !q.all) ||
  (entrySize q.ty != 0 && q.len % entrySize q.ty != 0) || (q.ty == tyEnergy && q.len != 4 * hPeriod s pa) ||
  (q.ty == tyPantry && (decide (q.len < 80) || decide (q.len < 80 + 64 * imgN s pa q.off 4)))

/-- Does a section repeat or overlap an earlier one? -/
def sectClash (q r : Sect) : Bool :=
  (q.ty == r.ty && decide (q.ty < 0x8000) && (q.all || r.all || q.role == r.role)) ||
  (decide (0 < q.len) && decide (0 < r.len) && decide (q.off < r.off + r.len) && decide (r.off < q.off + q.len))

/-- Does a segment's data lie outside its section? -/
def segOutside (s : State) (pa : Nat) (q : Sect) (e : SegE) : Bool :=
  decide (e.imgOff < q.off) || decide (q.off + q.len < e.imgOff + 64 + 8 * imgN s pa (e.imgOff + 4) 2)

/-- The sections that a role must have: four always, two where its lists use them (Table 6.10). -/
def neededSects (s : State) (pa role : Nat) : List Nat :=
  [tyStations, tySegments, tyMemory, tyEnergy] ++
  (if (roleIns s pa role).any fun i => wOp i.w == opColl then [tyColl] else []) ++
  (if (roleIns s pa role).any fun i => wOp i.w == opPan then [tyPantry] else [])

/-- BAD_SECTION. -/
def badSection (s : State) (pa : Nat) : List LoadErr :=
  let qs := sections s pa
  let roles := ((packagesOf s pa).map (·.2)).dedup
  hdrFail 4 (hSections s pa == 0 || decide (64 < hSections s pa) || (sectFor s pa tyPackages 0).isNone ||
    (roles.any fun r => (neededSects s pa r).any fun t => (sectFor s pa t r).isNone) ||
    ((roles.any fun r => (streamsOf s pa r).any fun e => e.transport == 2) && !qs.any fun q => q.ty == tyFabric)) ++
  (qs.filter fun q => sectBad s pa q || qs.any fun r => decide (r.idx < q.idx) && sectClash q r).map
    (fun q => failAt 4 q.idx 0 0 0) ++
  (qs.filter fun q => q.ty == tySegments).flatMap fun q =>
    ((placedIn s pa q).filter fun p => segOutside s pa q p.e).map (failSeg 4)

/-- NOT_IN_PLAN (R172, R261). -/
def notInPlan (s : State) (pa : Nat) : List LoadErr :=
  let ps := packagesOf s pa
  (if hNpkg s pa != ps.length || decide (ps.length ≤ myId s) || !idFits s then
     [failAt 5 (sectIdx s pa tyPackages 0) 0 0 0] else []) ++
  (ps.zipIdx.filter fun a => a.1.1 != a.2).map fun a => failAt 5 (sectIdx s pa tyPackages 0) a.2 0 0

/-! ### 0x0008 to 0x000B: what the image asks for -/

/-- PARTITION: the function's own, that exists; stations and sends within what it owns (R100, R173, R371). -/
def badPartition (s : State) (pa role f : Nat) : List LoadErr :=
  hdrFail 8 (hPartition s pa != f || (f != 0 && partVal s f 6 != 1)) ++
  entryFails 8 (sectIdx s pa tyStations role) (stationsOf s pa role) (fun e =>
    let bad :=
      if e.2.1 = 0 then lcidOk e.1 && (!inRect s f e.1 || e.2.2.1 &&& (255 - sliceMask s f) != 0)
      else if e.2.1 = 1 then decide (e.1 < 0x3F80) || decide (0x3F80 + 11 < e.1)
      else if e.2.1 = 2 then decide (e.1 < 0x3FA0 + 8 * f) || decide (0x3FA0 + 8 * f + 7 < e.1)
      else e.2.1 == 3 && (s.guest.ownerAt != f || e.1 != 0x3FC0)
    if bad then some (e.1, 0) else none) ++
  insFails s pa role 8 fun i => wOp i.w == opSend && lcidOk (fSendDst i.w) && !inRect s f (fSendDst i.w)

/-- TICK_PARAM (R15, R377). -/
def badTick (s : State) (pa f : Nat) : List LoadErr :=
  let l := hTickLen s pa
  let g := hGuard s pa
  let own := decide (4000 ≤ l) && decide (l ≤ 20000) && l % 100 == 0 && decide (1500 ≤ g) && decide (g ≤ 5000) &&
    g % 100 == 0 && decide (2 * g ≤ l) && decide (1 ≤ hPeriod s pa) && decide (hPeriod s pa ≤ 1048576)
  let same := f == 0 || (match primary s with | some pl => pl.tickLen == l && pl.guard == g | none => false)
  hdrFail 9 (!(own && same))

/-- Is a region listed with a class? -/
def listed (l : List (Nat × Nat)) (r cls : Nat) : Bool := l.any fun e => e.1 == r && e.2 == cls

/-- A region that the partition may use: it exists, is owned, and has the listed class (R178, R210). -/
def regionOk (s : State) (f : Nat) (e : Nat × Nat) : Bool :=
  let k := e.1 / 256
  let c := e.1 % 256 / 8
  decide (e.1 < 3072) && decide (e.2 ≤ 1) && smGet 0 s.hif.owner e.1 == f && bitsOf (getF s (R.STK_MAPOUT.MAPPED k)) c 1 == 0 &&
  isCellar s k c == (e.2 == 1)

/-- Does a span lie in one channel, in listed regions (R165, R178)? -/
def spanListed (ms : List (Nat × Nat)) (pa n : Nat) : Bool :=
  decide (pa / 2 ^ 36 < 12) && pa / 2 ^ 31 == (pa + n - 1) / 2 ^ 31 &&
  (List.range ((pa + n - 1) / 2 ^ 28 - pa / 2 ^ 28 + 1)).all fun r => ms.any fun e => e.1 == pa / 2 ^ 28 + r

/-- Units that a gradient command covers (R223). -/
def gradUnitsOf (i : LIns) : Nat := (fPLen i.w + 1) / 64

/-- Bytes of the run of an ILD: those of the segment that is placed there for the core, else the most of its kind (R168). -/
def ildBytes (s : State) (pa role : Nat) (i : LIns) : Nat :=
  match (segsOf s pa role).find? fun e => e.lcid == i.p.e.lcid && e.pa == fIPa i.w && (e.kind == 1) == fIPark i.w with
  | some e => (imgSeg s pa e).length
  | none => 64 + 8 * (if fIPark i.w then 32 else 1536)

/-- Does an instruction name memory outside the listed regions, or a unit that R217 forbids? -/
def insOutside (s : State) (pa role : Nat) (i : LIns) : Bool :=
  let ms := memoryOf s pa role
  let op := wOp i.w
  if op = opMrd ∨ op = opMwr then !spanListed ms (fXPa i.x) (64 * (fXLen i.w + 1))
  else if op = opIld then !spanListed ms (fIPa i.w) (ildBytes s pa role i)
  else if op = opCsav ∨ op = opCrst then !spanListed ms (fXPa i.x) (64 * partBeats (fSPart i.w))
  else if op = opPan then
    let n := if fPCmd i.w ≤ 1 then max 1 (gradUnitsOf i) else 1
    fXPa i.x % 2 ^ 31 % unitBytes != 0 || !spanListed ms (fXPa i.x) (n * unitBytes) || !listed ms (fXPa i.x / 2 ^ 28) 0
  else false

/-- Bytes of a working-copy tile (R241). -/
def wcBytes (t : TensorE) : Nat := if tWc t = 1 then 2048 else 1088

/-- A tensor extent outside the listed state regions, or its working copy outside the listed regions. -/
def tensorOutside (ms : List (Nat × Nat)) (t : TensorE) : Bool :=
  t.pa % 2 ^ 31 % unitBytes != 0 || t.pa / 2 ^ 36 != t.stack || !listed ms (t.pa / 2 ^ 28) 0 ||
  (decide (0 < t.nunits) && !spanListed ms t.pa (t.nunits * unitBytes)) ||
  (tWc t != 0 && decide (0 < t.nunits) && !spanListed ms t.wcPa (t.nunits * wcBytes t))

/-- Bytes of the guest stream table: the entries that name the guest (R175). -/
def guestTblBytes (s : State) (pa role : Nat) : Nat :=
  32 * ((streamsOf s pa role).filter fun e => e.transport == 3 || e.transport == 4).length

/-- Does an enabled GUEST window let the guest read a page of 4 KiB (R75)? -/
def guestReads (s : State) (page : Nat) : Bool :=
  match (List.range 16).find? fun n =>
    flagF s (R.GST_WIN_PERM.EN n) && decide (getF s (R.GST_WIN_BASE.BASE n) ≤ page) && decide (page ≤ getF s (R.GST_WIN_LIMIT.LIMIT n)) with
  | some n => flagF s (R.GST_WIN_PERM.RD n)
  | none => false

/-- A guest stream table that does not lie in listed cellar regions of one channel, or that the guest may not read (R175). -/
def badGuestTbl (s : State) (pa role : Nat) : Bool :=
  let n := guestTblBytes s pa role
  let at_ := hGuestTbl s pa
  at_ != 0 && n != 0 &&
  (!spanListed ((memoryOf s pa role).filter fun m => m.2 == 1) at_ n ||
   (List.range ((at_ + n - 1) / 2 ^ 12 - at_ / 2 ^ 12 + 1)).any fun k => !guestReads s (at_ / 2 ^ 12 + k))

/-- MEMORY: the listed regions, and every address that the role uses (R165, R175, R178, R190, R217). -/
def badMemory (s : State) (pa role f : Nat) : List LoadErr :=
  let ms := memoryOf s pa role
  let ts := match pantryOf s pa role with | some q => q.tensors | none => []
  entryFails 10 (sectIdx s pa tyMemory role) ms (fun e => if regionOk s f e then none else some (0, 0)) ++
  segFails s pa role 10 (fun e => !listed ms (e.pa / 2 ^ 28) 1 || e.pa % 64 != 0) ++
  insFails s pa role 10 (insOutside s pa role) ++
  entryFails 10 (sectIdx s pa tyPantry role) ts (fun t => if tensorOutside ms t then some (0x3F80 + t.stack, 0) else none) ++
  hdrFail 10 (badGuestTbl s pa role)

/-- Entries of the redirect table that a filler needs: primary PA and filler PA (R381). -/
def redirectsOf (s : State) (pa role : Nat) : List (Nat × Nat) :=
  match primary s with
  | none => []
  | some pl => (segsOf s pa role).filterMap fun e =>
      match placeOf pl e.lcid e.ptick with
      | some q => some (q.pa, e.pa)
      | none => none

/-- TOO_BIG (R273, R381, Table 6.13). -/
def tooBig (s : State) (pa role : Nat) : List LoadErr :=
  let ms := memoryOf s pa role
  segFails s pa role 11 (fun e => !spanListed (ms.filter fun m => m.2 == 1) e.pa (imgSeg s pa e).length) ++
  (if 262144 < (fabricOf s pa role).length then [failAt 11 (sectIdx s pa tyFabric role) 262144 0 0] else []) ++
  hdrFail 11 (hFiller s pa && decide (65536 < (redirectsOf s pa role).dedup.length))

/-! ### 0x0010: opcodes (R82, R111) -/

/-- The opcodes of Table 6.1. -/
def opKnown (op : Nat) : Bool :=
  decide (op ≤ 0x06) || (decide (0x10 ≤ op) && decide (op ≤ 0x14)) || op == 0x18 || op == 0x19 ||
  (decide (0x20 ≤ op) && decide (op ≤ 0x26)) || (decide (0x30 ≤ op) && decide (op ≤ 0x38)) || op == 0x3E

def badOpcode (s : State) (pa role : Nat) : List LoadErr :=
  insFails s pa role 0x10 fun i =>
    opKnown (wOp i.w) && (if i.p.e.kind = 1 then !opParked i.eng (wOp i.w) else !opAllowed i.eng (wOp i.w))

/-! ### 0x0011: reserved opcodes, bits and values (R117, R119, R122, R159) -/

/-- Operand bits that Tables 6.2 to 6.6 list, of the word and of its extension: place and width of each run of bits. -/
def opFields (op : Nat) : List (Nat × Nat) × List (Nat × Nat) :=
  if op = opNop then ([(0, 16)], []) else if op = opWait then ([(0, 18)], [])
  else if op = opSadd ∨ op = opSsub then ([(0, 17)], []) else if op = opFmt then ([(0, 36)], [])
  else if op = opPair then ([(0, 1)], []) else if op = opLdw then ([(0, 40)], [])
  else if op = opMma then ([(0, 39)], [(0, 36)]) else if op = opDrn then ([(0, 45), (46, 1)], [(0, 60)])
  else if op = opMvm then ([(0, 46)], [(0, 48)]) else if op = opMvd then ([(0, 51)], [])
  else if op = opVrng then ([(0, 42)], [(0, 58)]) else if 0x20 ≤ op ∧ op ≤ 0x26 then ([(0, 42)], [(0, 55)])
  else if op = opMrd then ([(0, 51)], [(0, 42)]) else if op = opMwr then ([(0, 38), (50, 1)], [(0, 42)])
  else if op = opSend then ([(0, 51)], [(0, 11)]) else if op = opHsnd then ([(0, 44)], [(0, 34)])
  else if op = opColl then ([(0, 29)], [(0, 48)]) else if op = opPan then ([(0, 42)], [(0, 50)])
  else if op = opIld then ([(0, 51)], []) else if op = opCsav ∨ op = opCrst then ([(0, 21)], [(0, 34)])
  else if op = opTst then ([(0, 20)], []) else ([], [])

/-- The bits of a word that some runs of bits cover. -/
def keepBits (l : List (Nat × Nat)) (w : Nat) : Nat := l.foldl (fun a f => a + bitsOf w f.1 f.2 * 2 ^ f.1) 0

/-- Is an unlisted operand bit set? -/
def reservedBit (i : LIns) : Bool :=
  let f := opFields (wOp i.w)
  keepBits f.1 i.w != i.w % 2 ^ 51 || (twoWord (wOp i.w) && keepBits f.2 i.x != i.x)

/-- The local-store lines that an instruction names (R161, R163 to R166). -/
def linesOf (i : LIns) : List Nat :=
  let op := wOp i.w
  if op = opLdw then [fLdwB i.w, fLdwB2 i.w]
  else if op = opMma then fMmaA i.w :: (if fMmaMask i.w then [fMmaMline i.x] else [])
  else if op = opDrn then fDrnO i.w :: (if fDrnSig i.w then [fDrnSigw i.x / 16] else [])
  else if op = opMvm then [fMvmA i.w, fMvmB i.x]
  else if op = opMvd then [fMvdO i.w]
  else if 0x20 ≤ op ∧ op ≤ 0x26 then
    (if fVSr i.w ∨ op = opVrng then [] else [fVSrc i.w]) ++ (if fVDr i.w then [] else [fVDst i.w])
  else if op = opMrd ∨ op = opMwr then [fXLine i.w]
  else if op = opSend then [fSendDl i.w, fSendSl i.w]
  else if op = opHsnd then [fHSl i.w]
  else if op = opColl then [fCSl i.w, fCRl i.x]
  else if op = opPan then [fPSl i.w]
  else []

/-- The last local-store line of a transfer's side (R165). -/
def lastLines (i : LIns) : List Nat :=
  let op := wOp i.w
  if op = opMrd ∨ op = opMwr then [fXLine i.w + fXLen i.w]
  else if op = opSend then [fSendDl i.w + fSendLen i.x, fSendSl i.w + fSendLen i.x]
  else if op = opHsnd then [fHSl i.w + fHLen i.x]
  else if op = opColl then [fCSl i.w + fCLen i.w]
  else if op = opPan then [fPSl i.w + fPLen i.w]
  else []

/-- The highest vector registers that a vector instruction names (R164). -/
def regsOf (i : LIns) : List Nat :=
  let op := wOp i.w
  let n := fVCnt i.w / 16
  let rn := min (fVRn i.x) n
  (if fVSr i.w ∧ op ≠ opVrng then [fVSrc i.w % 32 + n] else []) ++
  (if fVDr i.w then
    [fVDst i.w % 32 + (if op = opVred then 0 else if op = opVrng ∧ fVFn i.w = 1 then fVCnt i.w / 512 else n)] else []) ++
  (if op = opVsel ∨ (op = opVop ∧ fVFn i.w ≤ 4) then [fVRb i.x + rn] else []) ++
  (if op = opVop ∧ fVFn i.w = 2 then [fVRc i.x + rn] else []) ++
  (if op = opVsel then [fVRc i.x + fVCnt i.w / 512] else [])

/-- The highest function code of a vector opcode (Table 6.5). -/
def fnTop (op : Nat) : Nat :=
  if op = opVop ∨ op = opVsf then 5 else if op = opVred then 2 else if op = opVrng ∨ op = opVcvt then 1 else 0

/-- Is an operand out of the range that its table gives? -/
def badValue (i : LIns) : Bool :=
  let op := wOp i.w
  (linesOf i ++ lastLines i).any (fun l => decide (3072 ≤ l)) ||
  (if op = opFmt then !descLegal (fFmtV i.w)
   else if op = opLdw then decide (fLdwK i.w < 32) && fLdwB2 i.w != 0
   else if op = opMma then decide (256 < fMmaS i.w + fMmaM i.w + 1)
   else if op = opDrn then bitsOf i.w 46 1 == 1 && !fDrnSig i.w
   else if op = opMvm then decide (256 < fMvmCol0 i.w + fMvmN i.w + 1)
   else if 0x20 ≤ op ∧ op ≤ 0x26 then
     decide (fnTop op < fVFn i.w) || (op == opVrng && decide (2 ≤ fRngKind i.x)) || (regsOf i).any fun r => decide (32 ≤ r)
   else if op = opColl then decide (6 ≤ fCKind i.w)
   else if op = opPan then decide (4 ≤ fPCmd i.w)
   else false)

/-- Are the listed bytes of an entry at an offset not all 0? -/
def nonZero (s : State) (pa o : Nat) (l : List Nat) : Bool := l.any fun b => imgN s pa (o + b) 1 != 0

/-- Does a section's entry hold a reserved bit or value (R172 to R179, R244, R283)? -/
def entryReserved (s : State) (pa ty o : Nat) : Bool :=
  let b := fun i => imgN s pa (o + i) 1
  match ty with
  | 1 => nonZero s pa o [3] || decide (16 ≤ b 1)
  | 2 => nonZero s pa o [3, 6, 7] || decide (4 ≤ b 2) || decide (2 ≤ b 5)
  | 3 => nonZero s pa o [26, 27, 28, 29, 30, 31] || decide (5 ≤ b 2) || decide (2 ≤ b 3) || decide (64 ≤ b 22) ||
         decide (64 ≤ b 23) || !descLegal (imgN s pa (o + 12) 4) || imgN s pa (o + 20) 2 == 0 ||
         decide (4096 < imgN s pa (o + 20) 2)
  | 5 => nonZero s pa o [14, 15] || decide (5 ≤ b 9)
  | 6 => nonZero s pa o [3, 14, 15] || decide (8 ≤ b 0) || decide (6 ≤ b 1) ||
         (if b 1 ≤ 1 then decide (6 ≤ b 2) else b 2 != 0xFF)
  | 8 => nonZero s pa o [3] || decide (16 ≤ b 1) || decide (2 ≤ b 2)
  | 9 => nonZero s pa o [9, 10, 11]
  | _ => false

/-- The entries of a role's section that hold a reserved bit or value. -/
def reservedEntries (s : State) (pa role ty : Nat) : List LoadErr :=
  entryFails 0x11 (sectIdx s pa ty role) (roleEntries s pa ty role (entrySize ty)) fun o =>
    if entryReserved s pa ty o then some (0, 0) else none

/-- Is a word of a micro-sequence reserved: its OP, an operand code, or bits [31:22] (R240, Table 8.5)? -/
def badMseq (w : Nat) : Bool :=
  decide (0xA < bitsOf w 0 4) || decide (28 ≤ bitsOf w 7 5) || decide (28 ≤ bitsOf w 12 5) || decide (28 ≤ bitsOf w 17 5) ||
  bitsOf w 22 10 != 0

/-- Reserved bits and values of the PANTRY section (Tables 8.7, 8.8). -/
def reservedPantry (s : State) (pa role : Nat) : List LoadErr :=
  match sectFor s pa tyPantry role, pantryOf s pa role with
  | some q, some p =>
    (if nonZero s pa q.off [14, 15] || (decide (8 ≤ p.normCtx) && p.normCtx != 0xFF) || p.mbatch == 0 || decide (16 ≤ p.mbatch) ||
        p.mseq.any badMseq then [failAt 0x11 q.idx 0 0 0] else []) ++
    entryFails 0x11 q.idx p.tensors.zipIdx (fun a =>
      let o := q.off + 80 + 64 * a.2
      if nonZero s pa o [6, 7, 56, 57, 58, 59, 60, 61, 62, 63] || decide (64 ≤ a.1.flags) || decide (6 ≤ a.1.alg) ||
         decide (12 ≤ a.1.stack) || decide (16 ≤ a.1.mb) then some (0x3F80 + a.1.stack, 0) else none)
  | _, _ => []

/-- Reserved bits of a segment header (Table 6.8). -/
def segReserved (s : State) (pa : Nat) (e : SegE) : Bool :=
  let b := fun i => imgN s pa (e.imgOff + i) 1
  decide (2 ≤ e.kind) || decide (4 ≤ b 6) || (List.range 36).any (fun i => b (28 + i) != 0) ||
  (List.range 6).any fun g => decide (2048 ≤ imgN s pa (e.imgOff + 8 + 2 * g) 2)

/-- Does a descriptor stand where Table 4.1 allows a matrix operand (R117)? -/
def matrixDesc (v : Nat) : Bool := descLegal v && dElem v != 0 && dElem v != 10

/-- The descriptors that an instruction takes for its matrix operands. -/
def operandDescs (i : LIns) : List Nat :=
  let op := wOp i.w
  if op = opLdw then [fLdwD i.w]
  else if op = opMma then [fMmaAD i.w, fMmaBD i.w]
  else if op = opMvm then [fMvmAD i.w, fMvmBD i.w]
  else []

/-- The values that the FMTs of a list give a descriptor, in list order. -/
def fmtVals (l : List LIns) (d : Nat) : List Nat := (l.filter fun j => wOp j.w == opFmt && fFmtD j.w == d).map fun j => fFmtV j.w

/-- What a descriptor may hold at the end of a segment that writes it: the last value of some list; none where no list writes it. -/
def lastVals (s : State) (pa : Nat) (p : Placed) (d : Nat) : List Nat :=
  (segEngines p.e).filterMap fun g => (fmtVals (listOf s pa p g) d).getLast?

/-- What a core's descriptor may hold at the opening boundary of a period tick: what the nearest earlier segment that writes
it left, on the first pass from the 0 of the load on (R184), on a later pass around the period; and what a park list leaves. -/
def carriedVals (s : State) (pa role c pt d : Nat) (first : Bool) : List Nat :=
  let ps := (placedOf s pa role).filter fun p => p.e.lcid == c
  let ticks := sortBy (fun (a b : Placed) => decide (b.e.ptick ≤ a.e.ptick)) (ps.filter fun p => p.e.kind == 0)
  let before := (ticks.filter fun p => decide (p.e.ptick < pt)) ++ (if first then [] else ticks.filter fun p => decide (pt ≤ p.e.ptick))
  ((before.map fun p => lastVals s pa p d).find? fun l => !l.isEmpty).getD [0] ++
    (ps.filter fun p => p.e.kind == 1).flatMap fun p => lastVals s pa p d

/-- Does some list of the core's segments halt its engine, so that its later lists do not run (R84)? -/
def coreHalts (s : State) (pa role c : Nat) : Bool :=
  (roleIns s pa role).any fun j => j.p.e.lcid == c && wOp j.w == opHalt

/-- The values that a descriptor may hold when an instruction issues, on each pass through the period: what its own list
wrote last in the tick, else what the tick began with, and what the tick's other lists write, whose order only the cycle model
shows. None is known where a tick begins with what another plan or a halted engine leaves. -/
def descMay (s : State) (pa role : Nat) (i : LIns) (d : Nat) : List (List Nat) :=
  let others := ((segEngines i.p.e).filter fun g => g != i.eng).flatMap fun g => fmtVals (listOf s pa i.p g) d
  match (fmtVals ((listOf s pa i.p i.eng).filter fun j => decide (j.idx < i.idx)) d).getLast? with
  | some v => [v :: others]
  | none =>
    if hFiller s pa || i.p.e.kind != 0 || coreHalts s pa role i.p.e.lcid then []
    else [true, false].map fun first => carriedVals s pa role i.p.e.lcid i.p.e.ptick d first ++ others

/-- On some pass every value that a descriptor may hold breaks a rule. -/
def descBad (s : State) (pa role : Nat) (i : LIns) (d : Nat) (bad : Nat → Bool) : Bool :=
  (descMay s pa role i d).any fun vs => vs.all bad

/-- The values of a pass; of a descriptor that the tick itself settles those of every pass. -/
def onPass (l : List (List Nat)) (k : Nat) : List Nat := l.getD k (l.headD [])

/-- On some pass every pair of values that two descriptors may hold breaks a rule. -/
def descsBad (s : State) (pa role : Nat) (i : LIns) (d e : Nat) (bad : Nat → Nat → Bool) : Bool :=
  let ds := descMay s pa role i d
  let es := descMay s pa role i e
  !ds.isEmpty && !es.isEmpty && [0, 1].any fun k => (onPass ds k).all fun a => (onPass es k).all fun b => bad a b

/-- Does a matrix operand's descriptor hold no format that may stand there (R117)? -/
def badOperand (s : State) (pa role : Nat) (i : LIns) : Bool :=
  (operandDescs i).any fun d => descBad s pa role i d fun v => !matrixDesc v

/-- A COLLECTIVE entry of a role. -/
def collOf (s : State) (pa role ctx : Nat) : Option CollE := (collsOf s pa role).find? fun e => e.ctx == ctx

/-- Does a COLL without a result name a line or a count for one (R278)? -/
def strayResult (s : State) (pa role : Nat) (i : LIns) : Bool :=
  wOp i.w == opColl && fCSeg i.x % 4096 != 0 && (fCRl i.x != 0 || fCCnt i.x != 0) &&
  (fCKind i.w == 1 || (fCKind i.w == 0 && match collOf s pa role (fCCtx i.w) with | some e => decide (4 ≤ e.format) | none => false))

/-- Elements of a block (Table 4.3). -/
def blockElems (v : Nat) : Nat := match dBlock v with | 0 => 1 | 1 => 16 | 2 => 32 | 3 => 64 | _ => 128

/-- A descriptor against the instruction that names it: a K extent above 32 without 4-bit weights, K-tiles outside class 64
(R161), an odd column count without a 16-bit operand (R154), and outputs that R117, R132, R155 and Table 6.5 do not allow. -/
def badUse (s : State) (pa role : Nat) (i : LIns) : Bool :=
  let op := wOp i.w
  if op = opLdw then decide (32 ≤ fLdwK i.w) && descBad s pa role i (fLdwD i.w) fun v => elemWidth v != 4
  else if op = opMma then
    fMmaKoff i.x != 0 && descsBad s pa role i (fMmaAD i.w) (fMmaBD i.w) fun a b => elemWidth a != 4 || elemWidth b != 4
  else if op = opDrn then fDrnSig i.w && descBad s pa role i (fDrnD i.w) fun v => dElem v == 10
  else if op = opMvm then
    fMvmN i.w % 2 == 0 && descsBad s pa role i (fMvmAD i.w) (fMvmBD i.w) fun a b => elemWidth a != 16 && elemWidth b != 16
  else if op = opMvd then descBad s pa role i (fMvdD i.w) fun v => decide (2 < dBlock v)
  else if op = opVqnt then
    descBad s pa role i (fVOd i.x) fun v => dDir v != 0 || dElem v == 10 || (fVCnt i.w + 1) % blockElems v != 0
  else if op = opVcvt ∧ fVFn i.w = 0 then descBad s pa role i (fVOd i.x) fun v => dBlock v != 0 || dElem v == 10
  else false

/-! What list order shows of the arrays and of MV (R130, R144, R145, R150) -/

/-- MMAs and SWWs of a list, each with the LDW of the active set and of the shadow set as it finds them: every tick begins with
neither full, and an SWW exchanges the two (R145). -/
def withSets : Option LIns → Option LIns → List LIns → List (LIns × Option LIns × Option LIns)
  | _, _, [] => []
  | act, sh, i :: l =>
    if wOp i.w = opLdw then withSets act (some i) l
    else if wOp i.w = opSww then (i, act, sh) :: withSets sh act l
    else if wOp i.w = opMma then (i, act, sh) :: withSets act sh l
    else withSets act sh l

/-- The PAIR operands of a list. -/
def pairOps (l : List LIns) : List Bool := (l.filter fun i => wOp i.w == opPair).map fun i => fPairOn i.w

/-- The lists of the arrays whose weight sets their own order shows: AE1's only where the tick pairs no arrays (R150). -/
def setLists (s : State) (pa : Nat) (p : Placed) : List (List LIns) :=
  let l0 := listOf s pa p .ae0
  let l1 := listOf s pa p .ae1
  if p.e.kind != 0 then [] else if (pairOps l0 ++ pairOps l1).contains true then [l0] else [l0, l1]

/-- The LDWs, SWWs of AE1 between its PAIR on and off (R150). -/
def pairedLoads : Bool → List LIns → List LIns
  | _, [] => []
  | on, i :: l =>
    if wOp i.w = opPair then pairedLoads (fPairOn i.w) l
    else if on && (wOp i.w == opLdw || wOp i.w == opSww) then i :: pairedLoads on l
    else pairedLoads on l

/-- MVMs with KEEP that ask for more rows or K-tiles than the last MVM of the list that loaded activations (Table 5.6). -/
def keepsBeyond : Option LIns → List LIns → List LIns
  | _, [] => []
  | ld, i :: l =>
    if wOp i.w = opMvm then
      if fMvmKeep i.w then
        (match ld with
          | some j => if fMvmM j.w < fMvmM i.w ∨ fMvmNkt j.w < fMvmNkt i.w then [i] else []
          | none => []) ++ keepsBeyond ld l
      else keepsBeyond (some i) l
    else keepsBeyond ld l

/-- Is an MMA's BDESC another than that of the LDW that loaded its set (Table 6.2)? -/
def otherSet (s : State) (pa : Nat) (i : LIns) : Bool :=
  wOp i.w == opMma && (setLists s pa i.p).any fun l =>
    (withSets none none l).any fun q => q.1 == i && match q.2.1 with | some w => fMmaBD i.w != fLdwD w.w | none => false

/-- Does an operand pair take the integer path (R130)? -/
def intPair (a b : Nat) : Bool := (dElem a == 8 || dElem a == 9) && dBlock a == 0 && (dElem b == 8 || dElem b == 9) && dBlock b == 0

/-- The one value that a descriptor holds on every pass, where the lists show it. -/
def descIs (s : State) (pa role : Nat) (i : LIns) (d : Nat) : Option Nat :=
  match (descMay s pa role i d).flatten with
  | [] => none
  | v :: l => if l.all (· == v) then some v else none

/-- The path of an MMA or MVM, where the lists show it: true the integer path (R130). -/
def pathIs (s : State) (pa role : Nat) (i : LIns) : Option Bool :=
  let (a, b) := if wOp i.w = opMma then (fMmaAD i.w, fMmaBD i.w) else (fMvmAD i.w, fMvmBD i.w)
  match descIs s pa role i a, descIs s pa role i b with
  | some x, some y => some (intPair x y)
  | _, _ => none

/-- Accumulator places that an instruction feeds or drains: rows of an array, values of MV. -/
def accPlaces (i : LIns) : List Nat :=
  let op := wOp i.w
  if op = opMma then (List.range (fMmaM i.w + 1)).map (fMmaS i.w + ·)
  else if op = opDrn then (List.range (fDrnL i.w + 1)).flatMap fun l => (List.range (fDrnG i.w + 1)).map fun g => drnRow i.w l g
  else if op = opMvm then
    (List.range (fMvmM i.w + 1)).flatMap fun r => (List.range (fMvmN i.w + 1)).map fun n => 256 * r + fMvmCol0 i.w + n
  else if op = opMvd then (List.range (fMvdCnt i.w + 1)).map fun n => 256 * fMvdRow i.w + fMvdCol0 i.w + n
  else []

/-- A list's feeds and drains, each with the path by which its places have been fed since their start. -/
def withPaths (s : State) (pa role : Nat) : SMap (Option Bool) → List LIns → List (LIns × List (Option Bool))
  | _, [] => []
  | m, i :: l =>
    let op := wOp i.w
    let ps := accPlaces i
    if op = opMma ∨ op = opMvm then
      let m := if (if op = opMma then fMmaStart i.w else fMvmStart i.w) then ps.foldl (fun m p => smSet none m p none) m else m
      (i, ps.map (smGet none m)) ::
        withPaths s pa role (match pathIs s pa role i with
          | some b => ps.foldl (fun m p => smSet none m p (some b)) m
          | none => m) l
    else if op = opDrn ∨ op = opMvd then (i, ps.map (smGet none m)) :: withPaths s pa role m l
    else withPaths s pa role m l

/-- Does a DRN or MVD to INT32 drain a row or value that the floating-point path feeds (R117, R132)? -/
def intOfFloat (s : State) (pa role : Nat) (i : LIns) : Bool :=
  (wOp i.w == opDrn || wOp i.w == opMvd) &&
  descBad s pa role i (if wOp i.w = opDrn then fDrnD i.w else fMvdD i.w) (fun v => dElem v == 10) &&
  (withPaths s pa role [] (listOf s pa i.p i.eng)).any fun q => q.1 == i && q.2.contains (some false)

/-- RESERVED_FIELD, but for the places of a descriptor that only the cycle model shows (R117). -/
def badField (s : State) (pa role : Nat) : List LoadErr :=
  hdrFail 0x11 (decide (16 ≤ imgN s pa 24 4) || nonZero s pa 0 ([29, 54, 55, 124, 125, 126, 127] ++ (List.range 48).map (72 + ·))) ++
  ((sections s pa).filter fun q =>
    let b := imgN s pa (128 + 16 * q.idx + 3) 1
    decide (2 ≤ b) || (q.all && q.role != 0)).map (fun q => failAt 0x11 q.idx 0 0 0) ++
  ([1, 2, 3, 5, 6, 8, 9].flatMap (reservedEntries s pa role)) ++ reservedPantry s pa role ++
  segFails s pa role 0x11 (segReserved s pa) ++
  ((placedOf s pa role).filter fun p =>
    match sectFor s pa tySegments role with
    | some q => nonZero s pa (q.off + 24 * p.entry) [3]
    | none => false).map (failSeg 0x11) ++
  insFails s pa role 0x11 fun i => !opKnown (wOp i.w) || reservedBit i || badValue i || strayResult s pa role i || badOperand s pa role i ||
    badUse s pa role i || otherSet s pa i || intOfFloat s pa role i

/-! ### 0x0012 to 0x0014: the segments -/

/-- SEG_FORMAT (R95, R168, R169): a header out of range, or a list that does not end. -/
def badSeg (s : State) (pa role : Nat) : List LoadErr :=
  segFails s pa role 0x12 (fun e =>
    let seg := imgSeg s pa e
    let body := leNat ((seg.drop 4).take 2)
    let ticks := leNat ((seg.drop 7).take 1)
    let es := segEntries seg
    body == 0 || decide ((if e.kind = 1 then 32 else 1536) < body) ||
    (leNat ((seg.drop 6).take 1) / 2 % 2 != e.kind % 2) || ((ticks == 0) == (e.kind == 1)) ||
    (e.kind == 1 && (es.take 4).any (· != 0))) ++
  (placedOf s pa role).flatMap fun p =>
    (segEngines p.e).flatMap fun g =>
      let r := segWalk s pa p.e g
      let ent := (segEntries (imgSeg s pa p.e)).getD g.no 0
      if r.2 then []
      else [failAt 0x12 p.sect (match r.1.getLast? with | some i => i.1 | none => ent) p.e.lcid p.e.ptick]

/-- Is the chain of R170 whole at a segment: an ILD of the next period tick's segment, or of a park segment? -/
def chained (s : State) (pa : Nat) (l : List SegE) (e : SegE) : Bool :=
  (segWalk s pa e .ld).1.any fun i =>
    wOp i.2.1 == opIld && l.any fun n => n.lcid == e.lcid && n.pa == fIPa i.2.1 &&
      (if fIPark i.2.1 then n.kind == 1 else n.kind == 0 && n.ptick == (e.ptick + 1) % max 1 (hPeriod s pa))

/-- SEG_CHAIN (R170): a tick that disagrees or repeats, no segment for period tick 0, or a broken chain; a filler's chain
is the primary's (R382). -/
def badChain (s : State) (pa role : Nat) : List LoadErr :=
  let l := segsOf s pa role
  (((placedOf s pa role).filter fun p =>
    let e := p.e
    imgN s pa (e.imgOff + 20) 4 != e.ptick ||
    (e.kind == 0 && (decide (hPeriod s pa ≤ e.ptick) ||
      ((l.take p.entry).any fun n => n.kind == 0 && n.lcid == e.lcid && n.ptick == e.ptick) ||
      (!hFiller s pa &&
        (!chained s pa l e || !l.any fun n => n.kind == 0 && n.lcid == e.lcid && n.ptick == 0))))).map (failSeg 0x13))

/-- LCID_INVALID (R62). -/
def badLcid (s : State) (pa role : Nat) : List LoadErr :=
  entryFails 0x14 (sectIdx s pa tyStations role) (stationsOf s pa role)
    (fun e => if e.2.1 = 0 ∧ !lcidOk e.1 then some (e.1, 0) else none) ++
  segFails s pa role 0x14 (fun e => !lcidOk e.lcid) ++
  insFails s pa role 0x14 fun i => wOp i.w == opSend && !lcidOk (fSendDst i.w)

/-! ### 0x001B to 0x0023: orders within a list -/

/-- MMAs that write a row which no MMA of the list has started (R148). -/
def unstarted : List Nat → List LIns → List LIns
  | _, [] => []
  | seen, i :: l =>
    if wOp i.w = opMma then
      let rows := (List.range (fMmaM i.w + 1)).map (fMmaS i.w + ·)
      if fMmaStart i.w then unstarted (rows ++ seen) l
      else if rows.all seen.contains then unstarted seen l
      else i :: unstarted seen l
    else unstarted seen l

/-- ACC_START. -/
def badStart (s : State) (pa role : Nat) : List LoadErr :=
  (placedOf s pa role).flatMap fun p =>
    if p.e.kind = 0 then ([Engine.ae0, Engine.ae1].flatMap fun g => unstarted [] (listOf s pa p g)).map (failIns 0x1B) else []

/-- PATH_MIX (R130): a place fed by the other path since its start. -/
def badMix (s : State) (pa role : Nat) : List LoadErr :=
  (placedOf s pa role).flatMap fun p =>
    if p.e.kind != 0 then []
    else [Engine.ae0, Engine.ae1, Engine.mv].flatMap fun g =>
      ((withPaths s pa role [] (listOf s pa p g)).filter fun q =>
        wOp q.1.w != opDrn && wOp q.1.w != opMvd && match pathIs s pa role q.1 with
          | some b => q.2.contains (some !b)
          | none => false).map fun q => failIns 0x1C q.1

/-- ARRAY_HAZARD, as far as list order shows it: an SWW of an array that has loaded no shadow set in the tick (R145), LDW or
SWW of a paired AE1 and PAIRs that do not agree (R150), an MVM with KEEP beyond the loaded activations (R153), and a set wider than the
class's K_set (R144). -/
def badArray (s : State) (pa role : Nat) : List LoadErr :=
  (placedOf s pa role).flatMap fun p =>
    let l1 := listOf s pa p .ae1
    if p.e.kind != 0 then []
    else
      ((setLists s pa p).flatMap fun l => ((withSets none none l).filter fun q =>
        match wOp q.1.w == opSww, q.2.1, q.2.2 with
        | true, _, sh => sh.isNone
        | false, some w, _ => descsBad s pa role q.1 (fMmaAD q.1.w) (fMmaBD q.1.w) fun a b => decide ((if rateClass a b = 64 then 64 else 32) ≤ fLdwK w.w)
        | false, none, _ => false).map fun q => failIns 0x1D q.1) ++
      (pairedLoads false l1 ++ keepsBeyond none (listOf s pa p .mv)).map (failIns 0x1D) ++
      (if pairOps (listOf s pa p .ae0) = pairOps l1 then [] else [failSeg 0x1D p])

/-- Does a drain with the word break R149 or R162 under an output descriptor? -/
def drainBad (w v : Nat) : Bool :=
  let g := fDrnG w + 1
  let whole := fDrnPos w == 0 && g == 4
  let odd := fDrnPos w % 2 == 1 || g % 2 == 1
  decide (2 < dBlock v) || (elemWidth v == 4 && odd) || (elemWidth v == 6 && !whole) ||
  (dDir v == 0 && ((dBlock v == 2 && !whole) || (dBlock v == 1 && odd)))

/-- DRAIN_FORMAT (R149, R162). -/
def badDrain (s : State) (pa role : Nat) : List LoadErr :=
  insFails s pa role 0x1E fun i => wOp i.w == opDrn &&
    (decide (4 < fDrnPos i.w + fDrnG i.w + 1) || descBad s pa role i (fDrnD i.w) (drainBad i.w))

/-- Does a Hinge run break R139, R140 or R205 under its source and target descriptors? -/
def hingeBad (i : LIns) (sd td : Nat) : Bool :=
  let e := dElem sd
  e == 0 || e == 5 || e == 6 || e == 10 || elemWidth sd != elemWidth td ||
  fXPa i.x % tileBytes sd != 0 || 64 * (fXLen i.w + 1) % tileBytes sd != 0 ||
  (dBlock sd != 0 && (dElem td != e || dSigned td != dSigned sd || !(dBlock td == 1 || dBlock td == 2) || dRnd td != 0))

/-- TRANSPOSE. -/
def badHinge (s : State) (pa role : Nat) : List LoadErr :=
  insFails s pa role 0x1F fun i => (wOp i.w == opMrd || wOp i.w == opMwr) && fXHinge i.w &&
    descsBad s pa role i (fXSd i.x) (fXTd i.x) (hingeBad i)

/-- SEQ of a memory run's instruction, and its stack; `wr` for the runs toward memory (R166). -/
def runSeq (wr : Bool) (i : LIns) : Option (Nat × Nat) :=
  let op := wOp i.w
  if wr then
    if op = opMwr then some (fXPa i.x / 2 ^ 36, fXSeq i.w)
    else if op = opPan then some (fXPa i.x / 2 ^ 36, fPSeq i.w)
    else if op = opCsav then some (fXPa i.x / 2 ^ 36, fSSeq i.w)
    else none
  else if op = opMrd then some (fXPa i.x / 2 ^ 36, fXSeq i.w)
  else if op = opIld then some (fIPa i.w / 2 ^ 36, fISeq i.w)
  else if op = opCrst then some (fXPa i.x / 2 ^ 36, fSSeq i.w)
  else none

/-- The instructions of a list whose stamp is not the next of its stack. -/
def seqGaps (wr : Bool) : SMap Nat → List LIns → List LIns
  | _, [] => []
  | m, i :: l =>
    match runSeq wr i with
    | none => seqGaps wr m l
    | some (k, q) =>
      let rest := seqGaps wr (smSet 0 m k (q + 1)) l
      if q = smGet 0 m k then rest else i :: rest

/-- Frames of an HSND (R166). -/
def hsndCount (i : LIns) : Nat := ceilDiv (fHLen i.x + 1) 4

/-- Positions that a role's stream goes to from this package (R166, R174). -/
def streamDests (s : State) (pa role stream : Nat) : List Nat :=
  (((streamsOf s pa role).filter fun e => e.num == stream && e.transport == 2).map fun e =>
    if e.rel then (myId s + e.dest) % max 1 (hNpkg s pa) else e.dest).dedup

/-- The HSNDs of a period tick that go to a position. -/
def hsndsTo (s : State) (pa role pt dst : Nat) : List LIns :=
  (roleIns s pa role).filter fun i =>
    i.p.e.kind == 0 && i.p.e.ptick == pt && wOp i.w == opHsnd && (streamDests s pa role (fHStream i.w)).contains dst

/-- The COLLs of a role in a period tick. -/
def collsIn (s : State) (pa role pt : Nat) : List LIns :=
  (roleIns s pa role).filter fun i => i.p.e.kind == 0 && i.p.e.ptick == pt && wOp i.w == opColl

/-- Frames of a COLL's piece (R286). -/
def collFramesOf (i : LIns) : Nat := pieceFrames (fCLen i.w + 1)

/-- Frames of the result that returns for a COLL in a second phase (R278, R279). -/
def resultFrames (s : State) (pa role : Nat) (i : LIns) : Nat :=
  let fmt := match collOf s pa role (fCCtx i.w) with | some e => e.format | none => 0
  pieceFrames (resultBeats fmt ((fCLen i.w + 1) * 64 / inBytes fmt))

/-- Is a COLL the root's piece of a BROADCAST (R287)? -/
def isBcast (i : LIns) : Bool := fCKind i.w == 5 && fCSeg i.x % 4096 == 0

/-- Does a COLL send its piece to another package or to this one (R277)? -/
def sendsPiece (i : LIns) : Bool := fCKind i.w != 5 || fCSeg i.x % 4096 == 0

/-- Step whose piece goes to a position, or whose second-phase result does (R277, R279). -/
def stepTo (s : State) (pa dst : Nat) : Nat := (dst + hNpkg s pa - myId s % max 1 (hNpkg s pa)) % max 1 (hNpkg s pa)
def stepFrom (s : State) (pa dst : Nat) : Nat := (myId s + hNpkg s pa - dst % max 1 (hNpkg s pa)) % max 1 (hNpkg s pa)

/-- The second-phase results that this package returns to a position in a period tick: COLLs of the period tick before
(R279). -/
def secondPhase (s : State) (pa role pt dst : Nat) : List LIns :=
  let n := max 1 (hPeriod s pa)
  (collsIn s pa role ((pt + n - 1) % n)).filter fun i =>
    fCKind i.w == 0 && fCSeg i.x % 4096 == stepFrom s pa dst && dst != myId s &&
    (match collOf s pa role (fCCtx i.w) with | some e => decide (e.format ≤ 3) | none => false)

/-- Frames that the Hall stamps for a position after the DATA frames of a period tick (R288). -/
def collStamps (s : State) (pa role pt dst : Nat) : Nat :=
  (((collsIn s pa role pt).filter fun i => sendsPiece i && fCSeg i.x % 4096 == stepTo s pa dst).foldl
    (fun a i => a + collFramesOf i) 0) +
  (secondPhase s pa role pt dst).foldl (fun a i => a + resultFrames s pa role i) 0

/-- Frames that a partition may stamp for a position in a period tick (R39, R287, R378). -/
def seqRoom (s : State) (pa role f pt dst : Nat) : Nat :=
  if f ≠ 0 then 0x1000
  else if (collsIn s pa role pt).any isBcast then 0x8000
  else if dst ≠ myId s ∧ ([1, 2, 3].any fun n => getF s (R.PART_FAB.COUNT n) != 0) then 0xC000
  else 0x10000

/-- Do the HSNDs of one list stand in the order of their stamps (R166)? -/
def seqRises : List LIns → Bool
  | i :: j :: l => (i.p != j.p || decide (fHSeq i.w + hsndCount i ≤ fHSeq j.w)) && seqRises (j :: l)
  | _ => true

/-- The stamps of the frames of a period tick to a position: the DATA frames number from the partition's first SEQ without
gap, once each, in the order of each list, and all fit (R166, R288). -/
def frameSeqsOk (s : State) (pa role f pt dst : Nat) : Bool :=
  let qs := (hsndsTo s pa role pt dst).flatMap fun i => (List.range (hsndCount i)).map (fHSeq i.w + ·)
  (List.range qs.length).all (fun j => qs.contains (seqBase f + j)) && seqRises (hsndsTo s pa role pt dst) &&
  decide (qs.length + collStamps s pa role pt dst ≤ seqRoom s pa role f pt dst)

/-- SEQ_RANGE (R39, R166, R287, R378). A park list's runs fall in ticks that only the cycle model shows. -/
def badSeq (s : State) (pa role f : Nat) : List LoadErr :=
  ((placedOf s pa role).flatMap fun p =>
    if p.e.kind = 0 then (seqGaps false [] (listOf s pa p .ld) ++ seqGaps true [] (listOf s pa p .st)).map (failIns 0x22) else []) ++
  insFails s pa role 0x22 fun i =>
    i.p.e.kind == 0 && (if wOp i.w = opHsnd then
      (streamDests s pa role (fHStream i.w)).any fun d => !frameSeqsOk s pa role f i.p.e.ptick d
    else if wOp i.w = opColl ∧ sendsPiece i then
      !frameSeqsOk s pa role f i.p.e.ptick ((myId s + fCSeg i.x % 4096) % max 1 (hNpkg s pa))
    else false)

/-- Place of a context part in the order of R113. -/
def partRank (i : LIns) : Nat :=
  match fSPart i.w with
  | 0 => 0 | 1 => 1 | 2 => 2 + fSBnk i.w | _ => 10

/-- The parts of a list that come out of their order; a new image begins after a header. -/
def partGaps : Option Nat → List LIns → List LIns
  | _, [] => []
  | last, i :: l =>
    if wOp i.w = opCsav ∨ wOp i.w = opCrst then
      let r := partRank i
      let rest := partGaps (if r = 10 then none else some r) l
      match last with
      | some q => if q < r then rest else i :: rest
      | none => rest
    else partGaps last l

/-- CTX_ORDER (R111, R113): parts out of order, or a P-bit post in a park list. -/
def badCtx (s : State) (pa role : Nat) : List LoadErr :=
  ((placedOf s pa role).flatMap fun p =>
    ((segEngines p.e).flatMap fun g => partGaps none (listOf s pa p g)).map (failIns 0x23)) ++
  insFails s pa role 0x23 fun i => i.p.e.kind == 1 && wP i.w

/-! ### 0x0024 to 0x0028: variance, journal, collectives, queues, streams -/

/-- VARIANCE_FLAG (R47, R167): the flag against every instruction of the image, and what must carry V = 1. -/
def badVariance (s : State) (pa role : Nat) : List LoadErr :=
  hdrFail 0x24 (hVariance s pa != (placedAll s pa).any fun p => (insOf s pa p).any fun i => wV i.w) ++
  insFails s pa role 0x24 fun i =>
    !wV i.w && ((wOp i.w == opPan && fPCmd i.w == 2) || (wOp i.w == opColl && fCArr i.w))

/-- The unit records that the gradient commands of a period tick change in a stack. -/
def gradAreas (s : State) (pa role pt k : Nat) : List Nat :=
  ((roleIns s pa role).flatMap fun i =>
    if i.p.e.kind = 0 ∧ i.p.e.ptick = pt ∧ wOp i.w = opPan ∧ fPCmd i.w ≤ 1 ∧ fXPa i.x / 2 ^ 36 = k then
      (List.range (gradUnitsOf i)).map fun u => fXPa i.x + u * unitBytes
    else []).dedup

/-- JOURNAL, as far as gradient commands show it (R242): the units of a SWEEP are data. -/
def badJournal (s : State) (pa role : Nat) : List LoadErr :=
  insFails s pa role 0x25 fun i =>
    i.p.e.kind == 0 && wOp i.w == opPan && fPCmd i.w ≤ 1 &&
    decide (2 ^ 24 < 4160 * (gradAreas s pa role i.p.e.ptick (fXPa i.x / 2 ^ 36)).length)

/-! ### What passes through (R264) -/

/-- Start of a slot in units of 0.1 ns (R251), and the hop allowance. -/
def slotAt (slot : Nat) : Nat := 14 * slot
def hopAllowance : Nat := 3100

/-- Does the port of the package at a position lead to this package? -/
def leadsHere (s : State) (p port : Nat) : Bool :=
  p != myId s && allPorts.any fun q =>
    flagF s (R.PORT_PEER_ID.VALID q) && getF s (R.PORT_PEER_ID.PKG q) == p && getF s (R.PORT_PEER_ID.PORT q) == port

/-- The slots of some entries, in order. -/
def slotsOf (l : List FabE) : List Nat := sortBy (fun a b => decide (a ≤ b)) (l.flatMap fun e => (List.range e.nslot).map (e.slot0 + ·))

/-- When frames of an entry's stream and destination that this package forwards are at its Hall in the entry's period tick:
those of other positions' entries whose ports lead here (R264). -/
def passing (s : State) (pa : Nat) (e : FabE) : List Nat :=
  if e.dest = myId s ∨ e.dest = 0xFFFF then []
  else
    let ps := packagesOf s pa
    (slotsOf ((List.range ps.length).flatMap fun p =>
      (fabricOf s pa (ps.getD p (0, 0)).2).filter fun g =>
        g.ptick == e.ptick && g.cls == e.cls && g.stream == e.stream && g.dest == e.dest && leadsHere s p g.port)).map
      fun t => slotAt t + hopAllowance

/-- The slots of this role's own entries for the same frames. -/
def leaving (s : State) (pa role : Nat) (e : FabE) : List Nat :=
  slotsOf ((fabricOf s pa role).filter fun g =>
    g.ptick == e.ptick && g.cls == e.cls && g.stream == e.stream && g.dest == e.dest)

/-- Does each frame that passes through find a slot no earlier than it comes: the last slots for the last frames (R264)? -/
def forwardsInTime (s : State) (pa role : Nat) (e : FabE) : Bool :=
  let ins := (passing s pa e).reverse
  let outs := (leaving s pa role e).reverse
  decide (ins.length ≤ outs.length) && (List.zip ins outs).all fun a => decide (a.1 ≤ slotAt a.2)

/-- Frames that wait in the hop buffer of a port at a time of a period tick. -/
def hopHeld (s : State) (pa role port pt t : Nat) : Nat :=
  let es := (fabricOf s pa role).filter fun e => e.port == port && e.ptick == pt
  let keys := (es.map fun e => { e with slot0 := 0, nslot := 0 }).dedup
  keys.foldl (fun a e =>
    a + (((passing s pa e).filter fun u => decide (u ≤ t)).length - ((leaving s pa role e).filter fun u => decide (slotAt u < t)).length)) 0

/-- Entries with whose frames a hop buffer holds more than 256 (R264). -/
def hopOverflow (s : State) (pa role : Nat) : List LoadErr :=
  entryFails 0x27 (sectIdx s pa tyFabric role) (fabricOf s pa role) fun e =>
    if (passing s pa e).any fun t => decide (256 < hopHeld s pa role e.port e.ptick t) then some (0, e.ptick) else none

/-- Entries whose final hop reaches its destination after D (R264). -/
def lateHop (s : State) (pa role : Nat) : List LoadErr :=
  entryFails 0x19 (sectIdx s pa tyFabric role) (fabricOf s pa role) fun e =>
    if decide (e.cls ≤ 1) && (e.dest == 0xFFFF || hopsTo s e.dest == 1) && decide (0 < e.nslot) &&
       decide (10 * (hTickLen s pa - hGuard s pa) < slotAt (e.slot0 + e.nslot - 1) + hopAllowance) then some (0, e.ptick) else none

/-- Size of a COLL's segment in the reduction SRAM (R291). -/
def collSize (e : CollE) (n : Nat) : Nat :=
  if 2 ≤ e.kind then 0 else if e.format = 1 ∨ e.format = 2 then 128 * n else 64 * n

/-- Bytes of the segments of a context in a period tick. -/
def tickSize (s : State) (pa role pt : Nat) (e : CollE) : Nat :=
  (((collsIn s pa role pt).filter fun i => fCCtx i.w == e.ctx).map fun i =>
    (fCSeg i.x / 4096, collSize e (fCLen i.w + 1))).dedup.foldl (fun a x => a + x.2) 0

/-- COLL_SEG_TOO_BIG (R177, R291, R299). -/
def badColl (s : State) (pa role f : Nat) : List LoadErr :=
  let cs := collsOf s pa role
  let sect := sectIdx s pa tyColl role
  let two := fun e : CollE => e.kind == 0 && decide (e.format ≤ 3)
  entryFails 0x26 sect cs (fun e =>
    let bad := decide (e.allot < e.segmax) || (decide (2 ≤ e.kind) && e.segmax != 0) ||
      (decide (e.kind ≤ 1) && decide (getF s R.RED_SEG_MAX.MAX < e.segmax)) || (two e && decide (e.allot < 2 * e.segmax))
    if bad then some (0x3FA0 + 8 * f + e.ctx, 0) else none) ++
  (if s.reduce.allotAt.getD f 0 * 65536 < cs.foldl (fun a e => a + e.allot) 0 then [failAt 0x26 sect 0 0 0] else []) ++
  insFails s pa role 0x26 fun i =>
    i.p.e.kind == 0 && wOp i.w == opColl &&
    (match collOf s pa role (fCCtx i.w) with
     | none => false
     | some e =>
       decide (e.segmax < collSize e (fCLen i.w + 1)) || decide (getF s R.RED_SEG_MAX.MAX < collSize e (fCLen i.w + 1)) ||
       decide ((if two e then e.allot / 2 else e.allot) < tickSize s pa role i.p.e.ptick e))

/-- Flits of the guest's streams that land in a tick at most: TILES tiles of their format (R174, R175). -/
def guestFlits (s : State) (pa role : Nat) : Nat :=
  ((streamsOf s pa role).filter fun e => e.transport == 4).foldl (fun a e => a + e.tiles * ceilDiv (tileBytes e.fmt) 256) 0

/-- Frames that land at this package in a period tick: those of the final hops, its own HSNDs' and pieces to itself, and the
guest's flits (Table 6.12, R271, R290). -/
def landCount (s : State) (pa role pt : Nat) : Nat :=
  smGet 0 (landingOf s pa) pt +
  (hsndsTo s pa role pt (myId s)).foldl (fun a i => a + hsndCount i) 0 +
  ((collsIn s pa role pt).filter fun i => fCSeg i.x % 4096 == 0).foldl (fun a i => a + collFramesOf i) 0 +
  guestFlits s pa role

/-- The period ticks in which something may land. -/
def landTicks (s : State) (pa role : Nat) : List Nat :=
  ((landingOf s pa).map (·.1) ++ (placedOf s pa role).map (·.e.ptick)).dedup

/-- QUEUE_DEPTH of what lands in a tick (Table 6.12), and of the hop buffers (R264). -/
def badQueue (s : State) (pa role : Nat) : List LoadErr :=
  ((landTicks s pa role).filter fun pt => decide (49152 < landCount s pa role pt)).map
    (fun pt => failAt 0x27 (sectIdx s pa tyFabric role) 0 0 pt) ++
  hopOverflow s pa role

/-- A COLL of the image: the position that issues it, its period tick, context, segment, step, LEN, ARR, and the
instruction. -/
def allColls (s : State) (pa : Nat) : List (Nat × LIns) :=
  (packagesOf s pa).zipIdx.flatMap fun a =>
    ((roleIns s pa a.1.2).filter fun i => i.p.e.kind == 0 && wOp i.w == opColl).map fun i => (a.2, i)

/-- Do two COLLs belong to one segment? -/
def sameSegment (i j : LIns) : Bool :=
  i.p.e.ptick == j.p.e.ptick && fCCtx i.w == fCCtx j.w && fCSeg i.x / 4096 == fCSeg j.x / 4096

/-- Does a segment break Table 10.1: the steps that each position issues, their LEN and ARR (R280, R282)? -/
def segmentBad (n : Nat) (kind : Nat) (l : List (Nat × LIns)) : Bool :=
  let step := fun i : LIns => fCSeg i.x % 4096
  let stepsAt := fun p => (l.filter fun a => a.1 == p).map fun a => step a.2
  let lens := (l.map fun a => fCLen a.2.w).dedup
  let first := stepsAt ((l.map (·.1)).headD 0)
  let same := (List.range n).all fun p =>
    (stepsAt p).length == first.length && (stepsAt p).all first.contains && first.all (stepsAt p).contains && (stepsAt p).Nodup
  let bad :=
    if kind ≤ 1 then !same || first.length != n || lens.length != 1
    else if kind ≤ 3 then !same || lens.length != 1
    else if kind = 4 then !same
    else
      match l.find? fun a => step a.2 == 0 with
      | none => true
      | some root => (List.range n).any (fun q => stepsAt q != [(q + n - root.1 % n) % n]) ||
          l.any fun a => step a.2 != 0 && fCLen a.2.w != 0
  bad || (l.map fun a => fCArr a.2.w).dedup.length != 1

/-- COLLs whose segment breaks Table 10.1, on every role of the image (R280). -/
def badSegments (s : State) (pa role : Nat) : List LoadErr :=
  let all := allColls s pa
  (all.filter fun a =>
    match collOf s pa role (fCCtx a.2.w) with
    | none => false
    | some e => segmentBad (max 1 (hNpkg s pa)) e.kind (all.filter fun b => sameSegment a.2 b.2)).map fun a => failIns 0x28 a.2

/-- A COLL that names no context, another kind, a step beyond N, or an ARR that its context does not allow (R275, R276,
R282, R298). -/
def collUnbound (s : State) (pa role : Nat) (i : LIns) : Bool :=
  match collOf s pa role (fCCtx i.w) with
  | none => true
  | some e =>
    e.kind != fCKind i.w || decide (hNpkg s pa ≤ fCSeg i.x % 4096) || (fCArr i.w && !(decide (e.kind ≤ 1) && decide (e.format ≤ 3))) ||
    (match pantryOf s pa role with | some q => q.normCtx == fCCtx i.w | none => false)

/-- An HSND whose core feeds no fabric stream of that number; more tiles in the tick than the stream declares; or a slot
of the ring that an earlier tile of the tick takes (R174; log 34). -/
def hsndUnbound (s : State) (pa role : Nat) (i : LIns) : Bool :=
  let es := (streamsOf s pa role).filter fun e => e.num == fHStream i.w && e.producer == i.p.e.lcid
  let sent := (((insOf s pa i.p).filter fun j => wOp j.w == opHsnd && fHStream j.w == fHStream i.w).map fun j => fHTile j.x).dedup
  es.isEmpty || es.any fun e => (e.transport != 2 && e.transport != 3) || decide (e.tiles < sent.length) ||
    sent.any fun t => t != fHTile i.x && t % max 1 e.ring == fHTile i.x % max 1 e.ring

/-- Position of a period tick in its step: 0 for the tick after STEP_PTICK (R228). -/
def stepPos (s : State) (pa stepPt pt : Nat) : Nat :=
  let n := max 1 (hPeriod s pa)
  (pt + n - (stepPt + 1) % n) % n

/-- A PAN that names no extent of its stack, or a NORM tensor on the wrong side of NORM_PTICK (R233, R244). -/
def panUnbound (s : State) (pa role : Nat) (i : LIns) : Bool :=
  match pantryOf s pa role with
  | none => true
  | some q =>
    match q.tensors.find? fun t => t.tensor == fPTensor i.x && t.stack == fXPa i.x / 2 ^ 36 with
    | none => true
    | some t =>
      let at_ := stepPos s pa q.stepPtick i.p.e.ptick
      let norm := stepPos s pa q.stepPtick q.normPtick
      tNorm t && (if fPCmd i.w = 3 then decide (at_ < norm + 2) else decide (norm < at_))

/-- The PANs of a role in a period tick. -/
def pansIn (s : State) (pa role pt : Nat) : List LIns :=
  (roleIns s pa role).filter fun i => i.p.e.kind == 0 && i.p.e.ptick == pt && wOp i.w == opPan

/-- Does a PAN touch units with another that it may not meet in a tick: two sources' gradient commands on one unit, or a
sweep that begins on a unit with a gradient command (R225, R243)? Its further units are data of the hyper record. -/
def panClash (s : State) (pa role : Nat) (i : LIns) : Bool :=
  i.p.e.kind == 0 && (pansIn s pa role i.p.e.ptick).any fun j =>
    let touch := decide (fXPa i.x < fXPa j.x + max 1 (gradUnitsOf j) * unitBytes) && decide (fXPa j.x < fXPa i.x + max 1 (gradUnitsOf i) * unitBytes)
    (decide (fPCmd i.w ≤ 1) && decide (fPCmd j.w ≤ 1) && touch && i.p.e.lcid != j.p.e.lcid) ||
    (fPCmd i.w == 3 && decide (fPCmd j.w ≤ 1) && touch)

/-- Does NORM_CTX name a context of the 128-bit exact format for an ALLREDUCE just where a tensor has NORM (R232, R298, Table 8.7)? -/
def normUnbound (s : State) (pa role : Nat) : Bool :=
  match pantryOf s pa role with
  | none => false
  | some q =>
    if q.normCtx = 0xFF then q.tensors.any tNorm
    else match collOf s pa role q.normCtx with
      | some e => e.format != 4 || e.kind != 0 || e.segmax != 64 || decide (e.allot < 64)
      | none => true

/-- STREAM_BIND (R70, R174, R233, R244, R275 to R282, R298). -/
def badStream (s : State) (pa role f : Nat) : List LoadErr :=
  entryFails 0x28 (sectIdx s pa tyStreams role) (streamsOf s pa role) (fun e =>
    if ((e.transport == 3 || e.transport == 4) && !flagF s R.GST_STA.LINK_UP) ||
       (e.transport == 2 && !e.rel && decide (hNpkg s pa ≤ e.dest)) then some (e.consumer, 0) else none) ++
  entryFails 0x28 (sectIdx s pa tyColl role) (collsOf s pa role)
    (fun e => if e.npart = hNpkg s pa then none else some (0x3FA0 + 8 * f + e.ctx, 0)) ++
  insFails s pa role 0x28 (fun i =>
    if wOp i.w = opHsnd then hsndUnbound s pa role i
    else if wOp i.w = opColl then collUnbound s pa role i
    else if wOp i.w = opPan then panUnbound s pa role i || panClash s pa role i
    else false) ++
  (if normUnbound s pa role then [failAt 0x28 (sectIdx s pa tyPantry role) 0 0 0] else []) ++
  badSegments s pa role

/-! ### 0x0029: slots (R176, R251, R286, R298, R378) -/

/-- Slots of secondary n. -/
def secSlots (s : State) (n : Nat) : Nat × Nat :=
  (getF s (R.PART_FAB.FIRST n), getF s (R.PART_FAB.FIRST n) + getF s (R.PART_FAB.COUNT n))

/-- Do two slot ranges meet? -/
def rangesMeet (a b : Nat × Nat) : Bool := decide (a.1 < b.2) && decide (b.1 < a.2)

/-- Slots of an entry. -/
def fabRange (e : FabE) : Nat × Nat := (e.slot0, e.slot0 + e.nslot)

/-- An entry that may not stand: its port, its slots, or an earlier entry's; `l` is the entries before it. -/
def fabBad (s : State) (pa f : Nat) (l : List FabE) (e : FabE) : Bool :=
  decide (48 ≤ e.port) || !flagF s (R.PORT_STA.USABLE e.port) || getF s (R.PORT_BIND.ROLE e.port) != 1 ||
  (List.range e.nslot).any (fun i => (e.slot0 + i) % 16 == 15) || decide (hTickLen s pa * 5 / 7 < e.slot0 + e.nslot) ||
  (if f = 0 then [1, 2, 3].any fun n => rangesMeet (fabRange e) (secSlots s n)
   else decide (e.slot0 < (secSlots s f).1) || decide ((secSlots s f).2 < e.slot0 + e.nslot)) ||
  l.any fun g => g.port == e.port && g.ptick == e.ptick && rangesMeet (fabRange e) (fabRange g)

/-- Slots reserved in a period tick for a class, stream and destination; a broadcast has them on every dimension port. -/
def slotsFor (s : State) (l : List FabE) (pt cls stream dst : Nat) : Nat :=
  let es := l.filter fun e => e.ptick == pt && e.cls == cls && e.stream == stream && e.dest == dst
  if dst = 0xFFFF then
    match (boundFrom s 0).map fun p => (es.filter fun e => e.port == p).foldl (fun a e => a + e.nslot) 0 with
    | [] => 0x10000
    | n :: ns => ns.foldl min n
  else es.foldl (fun a e => a + e.nslot) 0

/-- Frames that the HSNDs of a stream send to a position in a period tick. -/
def streamFrames (s : State) (pa role pt stream dst : Nat) : Nat :=
  ((hsndsTo s pa role pt dst).filter fun i => fHStream i.w == stream).foldl (fun a i => a + hsndCount i) 0

/-- Frames of a context's pieces to a position in a period tick; 0xFFFF: a root's broadcast. -/
def ctxFrames (s : State) (pa role pt ctx dst : Nat) : Nat :=
  ((collsIn s pa role pt).filter fun i => fCCtx i.w == ctx &&
    (if dst = 0xFFFF then isBcast i else fCKind i.w != 5 && fCSeg i.x % 4096 == stepTo s pa dst)).foldl
    (fun a i => a + collFramesOf i) 0

/-- Does a COLL lack slots for its first phase, or for the results that this package returns for it in the next tick? -/
def collSlotless (s : State) (pa role f : Nat) (l : List FabE) (i : LIns) : Bool :=
  let n := max 1 (hNpkg s pa)
  let st := fCCtx i.w + 8 * f
  let pt := i.p.e.ptick
  if fCKind i.w = 5 then
    isBcast i && decide (1 < n) && decide (slotsFor s l pt clsColl st 0xFFFF < ctxFrames s pa role pt (fCCtx i.w) 0xFFFF)
  else
    let dst := (myId s + fCSeg i.x % 4096) % n
    let back := (myId s + n - fCSeg i.x % 4096 % n) % n
    let next := (pt + 1) % max 1 (hPeriod s pa)
    (dst != myId s && decide (slotsFor s l pt clsColl st dst < ctxFrames s pa role pt (fCCtx i.w) dst)) ||
    (back != myId s &&
      decide (slotsFor s l next clsColl (st + 32) back <
        ((secondPhase s pa role next back).filter fun j => fCCtx j.w == fCCtx i.w).foldl (fun a j => a + resultFrames s pa role j) 0))

/-- A norm frame without a slot (R298). -/
def normSlotless (s : State) (pa role f : Nat) (l : List FabE) : Bool :=
  match pantryOf s pa role with
  | none => false
  | some q =>
    q.normCtx != 0xFF && (List.range (hNpkg s pa)).any fun d =>
      d != myId s && slotsFor s l ((q.normPtick + 1) % max 1 (hPeriod s pa)) clsColl (q.normCtx + 8 * f) d == 0

/-- FABRIC_SLOT; when the package's own frames reach its Hall only the cycle model shows (R176). -/
def badSlot (s : State) (pa role f : Nat) : List LoadErr :=
  let l := fabricOf s pa role
  entryFails 0x29 (sectIdx s pa tyFabric role) l.zipIdx (fun a =>
    if fabBad s pa f (l.take a.2) a.1 || !forwardsInTime s pa role a.1 then some (0, a.1.ptick) else none) ++
  insFails s pa role 0x29 (fun i =>
    i.p.e.kind == 0 && (if wOp i.w = opHsnd then
      (streamDests s pa role (fHStream i.w)).any fun d =>
        d != myId s && decide (slotsFor s l i.p.e.ptick clsData (fHStream i.w) d <
          streamFrames s pa role i.p.e.ptick (fHStream i.w) d)
    else if wOp i.w = opColl then collSlotless s pa role f l i
    else false)) ++
  (if normSlotless s pa role f l then [failAt 0x29 (sectIdx s pa tyPantry role) 0 0 0] else [])

/-! ### 0x002A, 0x002B: fillers and energy -/

/-- Is a core published idle in a period tick (R179)? -/
def published (pl : Plan) (c pt : Nat) : Bool :=
  pl.bubbles.any fun b =>
    b.1 == pt && b.2.1 == c / 2 ^ 14 && decide (b.2.2.1 ≤ c / 2 ^ 7 % 128) && decide (b.2.2.2.1 ≤ c % 128) &&
    decide (c / 2 ^ 7 % 128 ≤ b.2.2.2.2.1) && decide (c % 128 ≤ b.2.2.2.2.2)

/-- The list of an engine in a primary segment where it stands in memory: words and extension words. -/
def placedList (s : State) (e : SegE) (g : Engine) : List (Nat × Nat) :=
  let seg := rdMems s e.pa (segBytes s e.pa false)
  let ws := bodyWords ((seg.length - 64) / 8) (seg.drop 64)
  (walkWords ws (ws.length + 1) ((segEntries seg).getD g.no 0)).1.map (·.2)

/-- The ILD addresses of a primary segment where it stands in memory. -/
def placedIlds (s : State) (e : SegE) : List Nat :=
  ((placedList s e .ld).filter fun i => wOp i.1 == opIld).map fun i => fIPa i.1

/-- The descriptors that an instruction reads (R85). -/
def descUses (w x : Nat) : List Nat :=
  let op := wOp w
  if op = opLdw then [fLdwD w]
  else if op = opMma then [fMmaAD w, fMmaBD w]
  else if op = opDrn then [fDrnD w]
  else if op = opMvm then [fMvmAD w, fMvmBD w]
  else if op = opMvd then [fMvdD w]
  else if op = opVqnt then [fVOd x]
  else if op = opVcvt then (if fVFn w = 0 then [fVId x, fVOd x] else [])
  else if op = opMrd ∨ op = opMwr then (if fXHinge w then [fXTd x, fXSd x] else [])
  else []

/-- Descriptors that a list reads before it has written them. -/
def readsFirst : List Nat → List (Nat × Nat) → List Nat
  | _, [] => []
  | ds, (w, x) :: l =>
    if wOp w = opFmt then readsFirst (fFmtD w :: ds) l else ((descUses w x).filter fun d => !ds.contains d) ++ readsFirst ds l

/-- Does a segment use a descriptor that none of its other lists writes before writing it (R382)? -/
def descFirst (ls : List (List (Nat × Nat))) : Bool :=
  ls.zipIdx.any fun a => (readsFirst [] a.1).any fun d =>
    ls.zipIdx.all fun b => b.2 == a.2 || !b.1.any fun q => wOp q.1 == opFmt && fFmtD q.1 == d

/-- Vector registers that an instruction reads, and that it writes (R164). -/
def vregReads (w x : Nat) : List Nat :=
  let op := wOp w
  let n := fVCnt w / 16 + 1
  let run := fun r k => (List.range k).map fun j => r + j
  let rn := min (fVRn x + 1) n
  (if fVSr w ∧ op ≠ opVrng then run (fVSrc w % 32) n else []) ++
  (if op = opVsel ∨ (op = opVop ∧ fVFn w ≤ 4) then run (fVRb x) rn else []) ++
  (if op = opVop ∧ fVFn w = 2 then run (fVRc x) rn else []) ++
  (if op = opVsel then run (fVRc x) (fVCnt w / 512 + 1) else [])
def vregWrites (w : Nat) : List Nat :=
  let op := wOp w
  let n := if op = opVred then 1 else if op = opVrng ∧ fVFn w = 1 then fVCnt w / 512 + 1 else fVCnt w / 16 + 1
  if fVDr w then (List.range n).map fun j => fVDst w % 32 + j else []

/-- Does a VE list read a vector register that it has not written? -/
def vregCarried : List Nat → List (Nat × Nat) → Bool
  | _, [] => false
  | rs, (w, x) :: l =>
    if 0x20 ≤ wOp w ∧ wOp w ≤ 0x26 then
      (vregReads w x).any (fun r => !rs.contains r) || vregCarried (vregWrites w ++ rs) l
    else vregCarried rs l

/-- Does an MV list use the activation register before loading it, or a column of the accumulator before starting it? -/
def mvCarried : Bool → List Nat → List (Nat × Nat) → Bool
  | _, _, [] => false
  | kept, cs, (w, x) :: l =>
    if wOp w = opMvm then
      let cols := (List.range (fMvmN w + 1)).map (fMvmCol0 w + ·)
      (fMvmKeep w && !kept) || (!fMvmStart w && cols.any fun k => !cs.contains k) || mvCarried true (cols ++ cs) l
    else if wOp w = opMvd then
      ((List.range (fMvdCnt w + 1)).any fun j => !cs.contains (fMvdCol0 w + j)) || mvCarried kept cs l
    else mvCarried kept cs l

/-- Does a segment, by its VE and MV lists, take a register from the tick before it (R382)? -/
def regsCarried (ve mv : List (Nat × Nat)) : Bool := vregCarried [] ve || mvCarried false [] mv

/-- Does the primary's segment behind a bubble tick, unless it is a bubble itself, rely on what the filler overwrites (R382)? -/
def staleAfter (s : State) (pl : Plan) (e : SegE) : Bool :=
  let next := (e.ptick + 1) % max 1 pl.period
  !published pl e.lcid next && match placeOf pl e.lcid next with
    | some q => descFirst (engineList.map (placedList s q)) || regsCarried (placedList s q .ve) (placedList s q .mv)
    | none => false

/-- Does a filler segment begin its LD list with the ILD of the segment that it replaces (R382)? -/
def firstIldOk (s : State) (pa : Nat) (pl : Plan) (e : SegE) : Bool :=
  match placeOf pl e.lcid e.ptick, (segWalk s pa e .ld).1 with
  | some q, i :: _ => wOp i.2.1 == opIld && (placedIlds s q).contains (fIPa i.2.1)
  | _, _ => false

/-- BUBBLE (R179, R380, R382), as far as the entries and the order of the lists show it. -/
def badBubble (s : State) (pa role f : Nat) : List LoadErr :=
  hdrFail 0x2A (hFiller s pa != isFiller s f) ++
  if !hFiller s pa then []
  else match primary s with
    | none => hdrFail 0x2A true
    | some pl =>
      hdrFail 0x2A (hPrimary s pa != pl.id || hPeriod s pa != pl.period) ++
      entryFails 0x2A (sectIdx s pa tyStations role) (stationsOf s pa role) (fun e =>
        if e.2.1 = 0 ∧ (planCores pl).any (fun q => q.1 == e.1 && q.2 == e.2.2.2) then some (e.1, 0) else none) ++
      segFails s pa role 0x2A fun e =>
        !published pl e.lcid e.ptick || !firstIldOk s pa pl e || staleAfter s pl e ||
        regsCarried ((segWalk s pa e .ve).1.map (·.2)) ((segWalk s pa e .mv).1.map (·.2)) ||
        (match placeOf pl e.lcid e.ptick with
         | some q => pl.segs.any fun r => r.pa == q.pa && !published pl r.lcid r.ptick
         | none => true)

/-- ENERGY (R180). -/
def badEnergy (s : State) (pa role : Nat) : List LoadErr :=
  let top := getF s R.HTH_CAP_W.CAP * hTickLen s pa / 1000
  ((roleEntries s pa tyEnergy role 4).zipIdx.filter fun a => decide (top < imgN s pa a.1 4)).map fun a =>
    failAt 0x2B (sectIdx s pa tyEnergy role) a.2 0 a.2

/-! ### 0x0016, 0x0019, 0x001A, 0x002C, 0x002D: what no schedule of the lists could keep

What the exact cycle model must find whatever the schedule: the operand of the row stands for the rest (log 34). -/

/-- The channel and least byte times of each access that an instruction makes (R192, R227). -/
def insOccs (s : State) (pa role : Nat) (i : LIns) : List (Nat × Nat) :=
  let op := wOp i.w
  if op = opMrd ∨ op = opMwr then [(chanOf (fXPa i.x), occOf (64 * (fXLen i.w + 1)))]
  else if op = opIld then [(chanOf (fIPa i.w), occOf (ildBytes s pa role i))]
  else if op = opCsav ∨ op = opCrst then [(chanOf (fXPa i.x), occOf (64 * partBeats (fSPart i.w)))]
  else if op = opPan ∧ fPCmd i.w ≤ 1 then List.replicate (gradUnitsOf i) (chanOf (fXPa i.x), panOcc 0 4096)
  else []

/-- The accesses of the tick segments of a period tick. -/
def tickOccs (s : State) (pa role pt : Nat) : List (Nat × Nat) :=
  ((placedOf s pa role).filter fun p => p.e.kind == 0 && p.e.ptick == pt).flatMap fun p =>
    (insOf s pa p).flatMap (insOccs s pa role)

/-- The decision point in cycles of the planned clock, in Boost mode of the lowest (R18, R43). -/
def planCycles (s : State) (pa : Nat) : Nat :=
  (hTickLen s pa - hGuard s pa) * gradeF s * (if hBoost s pa then 9 else 10) / 100

/-- The least number of cycles for which an instruction holds its engine (Table 6.1). -/
def leastHold (i : LIns) : Nat :=
  let op := wOp i.w
  if op = opNop then fNopCyc i.w + 1
  else if op = opTst then fTCyc i.w + 1
  else if op = opMma then fMmaM i.w + 1
  else if op = opMwr then fXLen i.w + 1
  else if op = opSend then fSendLen i.x + 1
  else if op = opHsnd then fHLen i.x + 1
  else if op = opColl then fCLen i.w + 1
  else if op = opPan then fPLen i.w + 1
  else if op = opCsav then partBeats (fSPart i.w)
  else 1

/-- The first instruction of a list that cannot have left its engine by a cycle, `t` cycles of the tick being past. -/
def pastCycle (d : Nat) : Nat → List LIns → Option LIns
  | _, [] => none
  | t, i :: l => if d < t + leastHold i then some i else pastCycle d (t + leastHold i) l

/-- GUARD of a list whose holds alone reach past D (R18, R43). -/
def badGuard (s : State) (pa role : Nat) : List LoadErr :=
  let d := planCycles s pa
  ((placedOf s pa role).filter fun p => p.e.kind == 0).flatMap fun p =>
    (segEngines p.e).filterMap fun g =>
      (pastCycle d 0 (listOf s pa p g)).map fun i => { failIns 0x19 i with cycle := d }

/-- RETRY_ROOM of a channel whose runs in a tick leave less than RESV before D, however they lie (R203). -/
def badRoom (s : State) (pa role : Nat) : List LoadErr :=
  ((placedOf s pa role).map (·.e.ptick)).dedup.flatMap fun pt =>
    let os := tickOccs s pa role pt
    ((os.map (·.1)).dedup.filter fun ch =>
      let room := hTickLen s pa * 768 * getF s (R.STK_RETRY_RESV.PERMILLE (ch / 32)) / 10000
      decide (768 * (hTickLen s pa - hGuard s pa) < 10 * ((os.filter fun o => o.1 == ch).foldl (fun a o => a + o.2) room))).map fun ch =>
      failAt 0x16 (sectIdx s pa tySegments role) (ch % 32) (0x3F80 + ch / 32) pt

/-- Lines whose first byte a vector instruction is sure to read, or to write: of the narrowest elements it has (R164). -/
def sureLines (w first : Nat) : List Nat := (List.range (fVCnt w / 128 + 1)).map (first + ·)
def sureReads (i : LIns) : List Nat :=
  if [opVop, opVsf, opVred, opVqnt, opVcvt, opVsel].contains (wOp i.w) && !fVSr i.w then sureLines i.w (fVSrc i.w) else []
def sureWrites (i : LIns) : List Nat :=
  if [opVop, opVsf, opVcvt, opVsel].contains (wOp i.w) && !fVDr i.w && (wOp i.w != opVcvt || fVFn i.w == 0) then sureLines i.w (fVDst i.w)
  else []

/-- Might an instruction of a core's tick write a line of the core's own store? -/
def mayWriteLine (l : Nat) (i : LIns) : Bool :=
  let op := wOp i.w
  if op = opDrn then decide (fDrnO i.w ≤ l)
  else if op = opMvd then decide (fMvdO i.w ≤ l)
  else if 0x20 ≤ op ∧ op ≤ 0x26 then !fVDr i.w && decide (fVDst i.w ≤ l)
  else if op = opMrd then decide (fXLine i.w ≤ l) && decide (l ≤ fXLine i.w + fXLen i.w)
  else op == opCrst || op == opColl

/-- Might something but the VE list write a line of a core in a tick: another of its engines, a transfer from a core, a
stream? -/
def otherWriter (s : State) (pa role : Nat) (p : Placed) (l : Nat) : Bool :=
  ((insOf s pa p).any fun i => i.eng != .ve && mayWriteLine l i) ||
  ((roleIns s pa role).any fun i => wOp i.w == opSend && fSendDst i.w == p.e.lcid) ||
  (streamsOf s pa role).any fun e => e.consumer == p.e.lcid

/-- Vector instructions that read a line which the rest of their list writes and nothing has written before: each with
those before it. -/
def readsBefore (other : Nat → Bool) : List LIns → List LIns → List LIns
  | _, [] => []
  | before, i :: l =>
    let bad := (sureReads i).any fun m =>
      ((i :: l).any fun j => (sureWrites j).contains m) && !(before.any (mayWriteLine m)) && !other m
    (if bad then [i] else []) ++ readsBefore other (i :: before) l

/-- IDEMPOTENCE where the order of the VE list alone shows it (R24). -/
def badIdem (s : State) (pa role : Nat) : List LoadErr :=
  ((placedOf s pa role).filter fun p => p.e.kind == 0).flatMap fun p =>
    (readsBefore (otherWriter s pa role p) [] (listOf s pa p .ve)).map (failIns 0x1A)

/-- REFRESH of a Boost plan: a channel whose runs leave less than 6.67 % of a tick free (R199). -/
def badBoost (s : State) (pa role : Nat) : List LoadErr :=
  if !hBoost s pa then []
  else ((placedOf s pa role).map (·.e.ptick)).dedup.flatMap fun pt =>
    let os := tickOccs s pa role pt
    ((os.map (·.1)).dedup.filter fun ch =>
      decide (14 * 768 * hTickLen s pa < 15 * 10 * (os.filter fun o => o.1 == ch).foldl (fun a o => a + o.2) 0)).map fun ch =>
      failAt 0x2C (sectIdx s pa tySegments role) (ch % 32) (0x3F80 + ch / 32) pt

/-- REGULATOR of a secondary plan (R214): rates above the window, or more tokens in a tick on a stack than RATE. -/
def badRegulator (s : State) (pa role f : Nat) : List LoadErr :=
  if f = 0 then []
  else
    ((List.range 12).filter fun k => decide (getF s (R.STK_SEC_WIN.LEN k) <
      ([1, 2, 3].filter fun n => n == f || (getPlan s n).isSome).foldl (fun a n => a + getF s (R.STK_REG.RATE k n)) 0)).map
      (fun k => failAt 0x2D 0xFF 0 (0x3F80 + k) 0) ++
    ((placedOf s pa role).map (·.e.ptick)).dedup.flatMap fun pt =>
      let os := tickOccs s pa role pt
      ((List.range 12).filter fun k => decide (getF s (R.STK_REG.RATE k f) <
        (os.filter fun o => o.1 / 32 == k).foldl (fun a o => a + ceilDiv o.2 64) 0)).map fun k =>
        failAt 0x2D (sectIdx s pa tySegments role) 0 (0x3F80 + k) pt

/-! ### All checks -/

/-- The checks in ascending code order (R183). -/
def loadChecks (s : State) (pa f : Nat) : Option LoadErr :=
  let r := roleOf s pa
  firstErr [
    fun _ => badMagic s pa,
    fun _ => hdrFail 2 (hVersion s pa != 1 || hSize s pa != 128),
    fun _ => badCrc s pa,
    fun _ => badSection s pa,
    fun _ => notInPlan s pa,
    fun _ => hdrFail 6 (hTimid s pa != regWord s 0 0x50),
    fun _ => hdrFail 7 (hBoost s pa != flagF s R.TOP_MODE.BOOST),
    fun _ => badPartition s pa r f,
    fun _ => badTick s pa f,
    fun _ => badMemory s pa r f,
    fun _ => tooBig s pa r,
    fun _ => badOpcode s pa r,
    fun _ => badField s pa r,
    fun _ => badSeg s pa r,
    fun _ => badChain s pa r,
    fun _ => badLcid s pa r,
    fun _ => badRoom s pa r,
    fun _ => lateHop s pa r ++ badGuard s pa r,
    fun _ => badIdem s pa r,
    fun _ => badStart s pa r,
    fun _ => badMix s pa r,
    fun _ => badArray s pa r,
    fun _ => badDrain s pa r,
    fun _ => badHinge s pa r,
    fun _ => badSeq s pa r f,
    fun _ => badCtx s pa r,
    fun _ => badVariance s pa r,
    fun _ => badJournal s pa r,
    fun _ => badColl s pa r f,
    fun _ => badQueue s pa r,
    fun _ => badStream s pa r f,
    fun _ => badSlot s pa r f,
    fun _ => badBubble s pa r f,
    fun _ => badEnergy s pa r,
    fun _ => badBoost s pa r,
    fun _ => badRegulator s pa r f]

/-- The failure that the loader stops at: the lowest code, and place, of its own checks and of the cycle model (R183; log 34). -/
def loadErr (s : State) (pa f : Nat) (model : Option LoadErr) : Option LoadErr :=
  match loadChecks s pa f, model with
  | none, m => m
  | some e, none => some e
  | some e, some m => if m.code < e.code ∨ (m.code = e.code ∧ keyBefore (errKey m) (errKey e)) then some m else some e

end Sys2Proof.Machine
end

