-- ==== Sys2Proof/Machine/Loader.lean ====
section
/-! DEFINITION. The loader: what a successful load does, and LOAD, UNLOAD and RESTART (R182 to R187, R377, R381). -/

namespace Sys2Proof.Machine

/-! ### A successful load (R184) -/

/-- Copy every segment of the role to its place (R184 step 1). -/
def copySegs (pa : Nat) (l : List SegE) (s : State) : State :=
  l.foldl (fun t e => wrMems t e.pa (imgSeg s pa e)) s

/-- The route table: the entries of every loaded plan, partition by partition (R176, R273). -/
def writeRoutes (s : State) : State :=
  let es := [0, 1, 2, 3].flatMap fun n => match getPlan s n with | some pl => pl.fabric | none => []
  setF { s with hall := { s.hall with routes := smSetList [] [] 0 (es.map fabBytes) } } R.HALL_ROUTE_STA.COUNT es.length

/-- The guest stream table (R175): the image's own entries that name the guest, one after another. `s0` is the state
that held the image when it was checked. -/
def writeGuestTbl (s0 : State) (pa role : Nat) (s : State) : State :=
  if hGuestTbl s0 pa = 0 then s
  else
    let os := (roleEntries s0 pa tyStreams role 32).filter fun o => 3 ≤ imgN s0 pa (o + 2) 1 ∧ imgN s0 pa (o + 2) 1 ≤ 4
    wrMems s (hGuestTbl s0 pa) (os.flatMap fun o => rdMems s0 (pa + o) 32)

/-- No core is bound by the partition any more. -/
def unbind (f : Nat) (s : State) : State := mapCores (fun _ c => if c.bound = f + 1 then { c with bound := 0 } else c) s

/-- Refresh phases and reserves that the loader planned with (R196). -/
def noteRefresh (s : State) : State :=
  allStacks.foldl (fun s k =>
    let ph := getF s (R.STK_REF_PHASE.PHASE k) + 2 ^ 16 * getF s (R.STK_REF_PHASE.STAGGER k)
    let rv := getF s (R.STK_RETRY_RESV.PERMILLE k)
    updStk s k fun q => { q with refAt := ph, resvAt := rv }) s

/-- PLAN_STA and the identity of the loaded plan (R184 step 4). -/
def showPlan (f : Nat) (pl : Plan) (numDiff : Bool) (s : State) : State :=
  setFs s [(R.PLAN_STA.BUSY f, 0), (R.PLAN_STA.LOADED f, 1), (R.PLAN_STA.NUMID_DIFF f, b2n numDiff),
    (R.PLAN_STA.VARIANCE f, b2n pl.variance), (R.PLAN_STA.BOOST f, b2n pl.boost), (R.PLAN_STA.FILLER f, b2n pl.filler),
    (R.PLAN_STA.ROLE f, pl.role), (R.PLAN_STA.POSITION f, pl.pos), (R.PLAN_PERIOD.PERIOD f, pl.period),
    (R.PLAN_ID_LO.ID f, pl.id), (R.PLAN_ID_HI.ID f, pl.id / 2 ^ 32)]

/-- Partition f's loaded plan, and the redirect table (R381). -/
def putPlan (f : Nat) (pl : Option Plan) (table : SMap Nat) (s : State) : State :=
  { s with plans := smSet none s.plans f pl, redirect := table }

/-- The redirect table once the image at `pa` is loaded: a filler's own (R381). -/
def loadTable (s : State) (pa : Nat) (pl : Plan) : SMap Nat :=
  if pl.filler then (redirectsOf s pa pl.role).foldl (fun m e => smSet 0 m e.1 e.2) [] else s.redirect

/-- Segments, routes and guest table of a loading image take their places (R184 steps 1 to 3). -/
def placePlan (f pa : Nat) (pl : Plan) (s : State) : State :=
  let t := putPlan f (some pl) (loadTable s pa pl) (copySegs pa pl.segs s)
  prepareCores pl (unbind f (writeGuestTbl s pa pl.role (raise E.HALL.ROUTES_LOADED (writeRoutes t))))

/-- The steps of R184. -/
def loadPlan (f pa : Nat) (s : State) : State :=
  let pl := planOf s pa
  let diff := hNumid s pa != regWord s 0 0x4C * 2 ^ 32 + regWord s 0 0x48
  let s := showPlan f pl diff (placePlan f pa pl s)
  raise (E.PLAN.PLAN_DONE f) (if f = 0 then noteRefresh (setResume 0 s) else s)

/-- A failed load changes nothing but its record (R183). -/
def loadFail (f : Nat) (e : LoadErr) (s : State) : State :=
  raise (E.PLAN.PLAN_FAIL f) <| setFs s
    [(R.PLAN_STA.BUSY f, 0), (R.PLAN_ERR.CODE f, e.code), (R.PLAN_ERR.SECTION f, e.sect), (R.PLAN_ERR.VALID f, 1),
     (R.PLAN_ERR_LOC.STATION f, e.station), (R.PLAN_ERR_LOC.ENTRY f, e.entry), (R.PLAN_ERR_TICK.PTICK f, e.ptick),
     (R.PLAN_ERR_CYC.CYCLE f, e.cycle)]

/-! ### The rows -/

/-- Address of the image that a function's LOAD names. -/
def loadAddr (s : State) (f : Nat) : Nat := 256 * getF s (R.PLAN_LOAD_ADDR.ADDR f)

/-- Partitions with a rectangle of their own: the primary, and every enabled secondary that is no filler. -/
def rectParts (s : State) : List Nat := [0, 1, 2, 3].filter fun n => (n == 0 || partVal s n 6 == 1) && !isFiller s n

/-- Owner + 1 of a core; 0: none (R371). -/
def coreOwner (s : State) (l : Nat) : Nat :=
  match (rectParts s).find? fun n => inRect s n l with
  | some n => n + 1
  | none => 0

/-- The filler that owns a bank; 0: none (R380). -/
def bankOwner (s : State) (b : Nat) : Nat :=
  ([1, 2, 3].find? fun n => isFiller s n && bitsOf (partVal s n 8) b 1 == 1).getD 0

/-- Is a resource being zeroed for its new owner f (R374)? -/
def zeroingFor (s : State) (f : Nat) : Bool :=
  (s.hif.zeroCores.any fun l => coreOwner s l == f + 1) || bitsOf s.hif.zeroLand f 1 == 1 ||
  ((List.range 8).any fun b => bitsOf s.hif.zeroBanks b 1 == 1 && bankOwner s b == f) ||
  s.hif.zeroing.any fun r => smGet 0 s.hif.owner r == f

/-- Is zeroing for the partition, or of the reduction SRAM, in progress (R300, R374)? -/
def loadZeroing (s : State) (f : Nat) : Bool := zeroingFor s f || flagF s (R.PG_STA.ZEROING 0x19)

/-- A LOAD is refused (R182, R300, R374, R377). -/
def loadRefused (s : State) (f : Nat) : Bool :=
  flagF s (R.PLAN_STA.BUSY f) || loadZeroing s f || (running s && hPartition s (loadAddr s f) == 0) || (f != 0 && secRunning s f)

def refusePlan (f : Nat) (s : State) : State := raise (E.PLAN.PLAN_REFUSED f) s

/-- The reading of an image; what of it names no memory is not read (R182; log 125). -/
def imageJob (s : State) (f : Nat) : HostJob :=
  let pa := loadAddr s f
  let n := 64 * ceilDiv (hLength s pa) 64
  { job0 with part := f, todo := if n ≠ 0 ∧ spanOk s pa n then [readAcc pa n] else [] }

/-- LOAD of a function's view (R182). -/
def loadCmd (f : Nat) (s : State) : State :=
  if loadRefused s f then refusePlan f s
  else setFs (newJob (loadJob f) (imageJob s f) s) [(R.PLAN_STA.BUSY f, 1), (R.PLAN_ERR.VALID f, 0)]

/-- Has the image been read whole, or can it not be (R202)? -/
def imageRead (s : State) (f : Nat) : Bool :=
  match getJob s (loadJob f) with
  | some q => q.fault != 0 || q.todo.isEmpty
  | none => true

/-- BAD_CRC of the image (Table 6.13). -/
def badImage : LoadErr := failAt 3 0xFF 0 0 0

/-- A run of the image's reading has failed for good (R202). -/
def imageLost (s : State) (f : Nat) : Bool := match getJob s (loadJob f) with | some q => q.fault != 0 | none => false

/-- LOAD (R182). -/
def execPlanLoad (f : Fin 4) (s : State) : Host.Outcome State Fault Refusal := .next (loadCmd f s)

/-- The loader finishes, once it has read the image (R183, R184); an image that cannot be read whole fails with BAD_CRC
(R202). -/
def execPlanLoadDone (f : Fin 4) (model : Option LoadErr) (s : State) : Host.Outcome State Fault Refusal :=
  .next <|
    if !flagF s (R.PLAN_STA.BUSY f) || !imageRead s f then s
    else
      let t := setJob (loadJob f) none s
      if imageLost s f then loadFail f badImage t
      else match loadErr s (loadAddr s f) f model with
        | some e => loadFail f e t
        | none => loadPlan f (loadAddr s f) t

/-- UNLOAD of a function's view (R186); a running secondary's plan is kept as a running primary's is (log 35). -/
def unloadCmd (f : Nat) (s : State) : State :=
  if flagF s (R.PLAN_STA.BUSY f) || (f == 0 && running s) || (f != 0 && secRunning s f) then refusePlan f s
  else
    let filler := match getPlan s f with | some pl => pl.filler | none => false
    let s := putPlan f none (if filler then [] else s.redirect) s
    raise (E.PLAN.UNLOADED f) (setB (writeRoutes (unbind f s)) (R.PLAN_STA.LOADED f) false)

/-- UNLOAD (R186). -/
def execUnload (f : Fin 4) (s : State) : Host.Outcome State Fault Refusal := .next (unloadCmd f s)

/-- RESTART (R187). A page acts for its own partition, and on a secondary's no primary plan is loaded. -/
def restartCmd (f : Nat) (s : State) : State :=
  match primary s with
  | none => refusePlan f s
  | some pl =>
    if f != 0 || running s || flagF s (R.PLAN_STA.BUSY f) then refusePlan f s
    else prepareCores pl (setResume 0 s)

/-- RESTART (R187). -/
def execRestart (f : Fin 4) (s : State) : Host.Outcome State Fault Refusal := .next (restartCmd f s)

end Sys2Proof.Machine
end

