-- ==== Sys2Proof/Machine/Partition.lean ====
section
/-! DEFINITION. Partitions and their resources, host DMA and BAR2, and the host link (R371 to R387). -/

namespace Sys2Proof.Machine

/-! ### Enabling the PART page (R372 to R374) -/

/-- A partition with the resources that the registers name, seen as if they were in force. -/
def withRegs (s : State) : State := snapParts s

/-- Two rectangles with resources in force overlap on some die (R372). -/
def rectsMeet (s : State) (n m : Nat) : Bool :=
  ([0, 1, 2, 3].any fun d => bitsOf (partVal s n 0) d 1 == 1 && bitsOf (partVal s m 0) d 1 == 1) &&
  decide (partVal s n 1 ≤ partVal s m 2) && decide (partVal s m 1 ≤ partVal s n 2) &&
  decide (partVal s n 3 ≤ partVal s m 4) && decide (partVal s m 3 ≤ partVal s n 4)

/-- The resources break a rule of R372. -/
def partsClash (s : State) : Bool :=
  let ps := rectParts s
  let fs := [1, 2, 3].filter fun n => isFiller s n
  (ps.any fun n => ps.any fun m => decide (n < m) && rectsMeet s n m) || decide (1 < fs.length) ||
  fs.any fun n => partVal s n 8 == 0 || partVal s n 8 == 0xFF

/-- Every LCID that names a core (R62). -/
def allLcids : List Nat := (List.range (2 ^ 16)).filter lcidOk

/-- Cores whose owner differs between two states, and the mask of the primary's banks that change hands. -/
def coreChanges (s t : State) : List Nat := allLcids.filter fun l => coreOwner s l != coreOwner t l
def bankChanges (s t : State) : Nat :=
  ((List.range 8).filter fun b => bankOwner s b != bankOwner t b).foldl (fun m b => m + 2 ^ b) 0

/-- Landing entries of a partition that leave it. -/
def landLeaves (s t : State) (n : Nat) : Bool := decide (landShare t n < landShare s n)

/-- A partition whose resources may not change: its plan binds them, or it runs (R373). -/
def bindsLanding (s : State) (n : Nat) : Bool :=
  (match getPlan s n with | some pl => !pl.landing.isEmpty | none => false) || (n != 0 && secRunning s n)

/-- A resource that would change owner is bound, or its partition runs (R373). -/
def changeBarred (s t : State) : Bool :=
  ((coreChanges s t).any fun l => (getCore s l).bound != 0 || (decide (1 < coreOwner s l) && secRunning s (coreOwner s l - 1))) ||
  ((List.range 8).any fun b => bankOwner s b != bankOwner t b &&
    ((getPlan s (bankOwner s b)).isSome || secRunning s (bankOwner s b))) ||
  [0, 1, 2, 3].any fun n => landLeaves s t n && bindsLanding s n

/-- Zeroing is due for a change of owner (R374). -/
def partZero (s t : State) : State :=
  let cs := coreChanges s t
  let bm := bankChanges s t
  let land := [0, 1, 2, 3].any fun n => landShare s n != landShare t n
  let gains := ([0, 1, 2, 3].filter fun n => decide (landShare s n < landShare t n)).foldl (fun m n => m + 2 ^ n) 0
  let cores := !cs.isEmpty || bm != 0
  let u := { t with hif := { t.hif with zeroCores := t.hif.zeroCores ++ cs, zeroBanks := t.hif.zeroBanks ||| bm,
                                        zeroLand := t.hif.zeroLand ||| gains } }
  let u := setB (setB u R.PART_ZERO_STA.CORES (flagF t R.PART_ZERO_STA.CORES || cores)) R.PART_ZERO_STA.LANDING
    (flagF t R.PART_ZERO_STA.LANDING || land)
  if cores || land then
    setFs u [(R.PG_STA.ZEROING 0x06, 1), (R.PG_CTL.EN 0x06, 1), (R.PG_STA.ENABLED 0x06, 0)]
  else setEnable 0x06 true u

/-- PG_CTL.EN of the PART page is set (R372, R373, R401). -/
def partEnable (s : State) : State :=
  let s := clearReject 0x06 s
  let t := withRegs s
  if partsClash t || changeBarred s t then raise E.PART.PART_CONFLICT (setEnable 0x06 false s)
  else partZero s t

/-- A core of the new owner holds zeros (Table 14.2); a fence stays (R312). -/
def zeroCore (l : Nat) (s : State) : State := updCore s l fun c => { core0 with fenced := c.fenced }

/-- The banks that changed hands are zeroed in every core of the primary rectangle (Table 14.2). -/
def zeroBanks (m : Nat) (s : State) : State :=
  mapCores (fun l c => if inRect s 0 l then
    { c with ls := ((List.range 8).filter fun b => bitsOf m b 1 == 1).foldl (fun t b => smClear t (24576 * b) 24576) c.ls }
    else c) s

/-- Cores, banks and Landing entries are zeroed: the enable has taken effect (R374, R401). -/
def coresZeroed (s : State) : State :=
  let s := zeroBanks s.hif.zeroBanks (s.hif.zeroCores.foldl (fun s l => zeroCore l s) s)
  let s := { s with hif := { s.hif with zeroCores := [], zeroBanks := 0, zeroLand := 0 } }
  setFs s [(R.PART_ZERO_STA.CORES, 0), (R.PART_ZERO_STA.LANDING, 0), (R.PG_STA.ENABLED 0x06, getF s (R.PG_CTL.EN 0x06))]

/-- The regions of an owner command are zeroed (R374). -/
def regionsZeroed (s : State) : State :=
  setFs { s with hif := { s.hif with zeroing := [] } } [(R.PART_ZERO_STA.REGIONS, 0), (R.PART_ZERO_STA.REGIONS_LEFT, 0)]

/-- Is a zeroing of cores or Landing entries, or of regions, in progress? -/
def coresPending (s : State) : Bool := flagF s R.PART_ZERO_STA.CORES || flagF s R.PART_ZERO_STA.LANDING
def regionsPending (s : State) : Bool := flagF s R.PART_ZERO_STA.REGIONS

/-- A zeroing completes (R374): that of cores before that of regions. -/
def execZeroed (s : State) : Host.Outcome State Fault Refusal :=
  .next <|
    if coresPending s then
      raise E.PART.ZEROED (setB (coresZeroed s) (R.PG_STA.ZEROING 0x06) (regionsPending s))
    else if regionsPending s then raise E.PART.ZEROED (setB (regionsZeroed s) (R.PG_STA.ZEROING 0x06) false)
    else s

/-! ### Regions (R375) -/

/-- Does a region name memory: a stack of the package and a channel that is not mapped out (R190, R210)? -/
def regionExists (s : State) (r : Nat) : Bool :=
  decide (r < 3072) && bitsOf (getF s (R.STK_MAPOUT.MAPPED (r / 256))) (r % 256 / 8) 1 == 0

/-- Does a loaded plan list the region in its MEMORY section? -/
def planLists (s : State) (r : Nat) : Bool :=
  [0, 1, 2, 3].any fun n => match getPlan s n with | some pl => pl.memory.any fun e => e.1 == r | none => false

/-- PART_OWNER_CMD.GO (R375). A new owner that the table does not list is refused (log 40). The fill reaches a region
before its new owner can read it: it reads 0 from here on. -/
def ownerCmd (s : State) : State :=
  let first := getF s R.PART_OWNER_CMD.FIRST
  let owner := getF s R.PART_OWNER_CMD.TO
  let rs := (List.range (getF s R.PART_OWNER_CMD.COUNT)).map (first + ·)
  if regionsPending s || (decide (3 < owner) && owner != 7) || rs.any (fun r => !regionExists s r || planLists s r) then
    raise E.PART.PART_CONFLICT s
  else
    let ch := rs.filter fun r => smGet 0 s.hif.owner r != owner
    if ch.isEmpty then s
    else
      let s := ch.foldl (fun s r => setOwner r owner { s with mem := smClear s.mem (r * 2 ^ 28) (2 ^ 28) }) s
      countRegions (setFs { s with hif := { s.hif with zeroing := ch } }
        [(R.PART_ZERO_STA.REGIONS, 1), (R.PART_ZERO_STA.REGIONS_LEFT, ch.length), (R.PG_STA.ZEROING 0x06, 1)])

/-- PART_OWNER_CMD.GO (R375). -/
def execPartOwnerCmd (s : State) : Host.Outcome State Fault Refusal := .next (ownerCmd s)

/-! ### Running a secondary (R377, R381) -/

/-- The job tick that a TICK value names: newer than the current one (R40, R377). -/
def namedTick (s : State) (least : Nat) : Option Nat :=
  match tickCmp (getF s R.PART_RUN.TICK) (tickNum s) with
  | .newer d => if least ≤ d then some (s.tick.job + d) else none
  | _ => none

/-- May partition n start at job tick t? It exists, holds a plan, does not run; a filler starts with the primary's period (R381). -/
def mayRun (s : State) (n t : Nat) : Bool :=
  n != 0 && partVal s n 6 == 1 && (getPlan s n).isSome && !secRunning s n &&
  !(isFiller s n && (match primary s with | some pl => t % max 1 pl.period != 0 | none => true))

def runConflict (s : State) : State := raise E.PART.PART_CONFLICT s

/-- PART_RUN.START (R377). -/
def runStart (s : State) : State :=
  let n := getF s R.PART_RUN.PART
  match (if running s then namedTick s 2 else none) with
  | none => runConflict s
  | some t =>
    if mayRun s n t then
      setB { s with secs := smSet none s.secs n (some { start := t, stop := none }) } (R.PART_RUN_STA.PENDING n) true
    else runConflict s

/-- PART_RUN.STOP (R377). -/
def runStop (s : State) : State :=
  let n := getF s R.PART_RUN.PART
  match (if running s then namedTick s 1 else none), smGet none s.secs n with
  | some u, some q => { s with secs := smSet none s.secs n (some { q with stop := some u }) }
  | _, _ => runConflict s

/-- PART_RUN.START (R377). -/
def execPartRunStart (s : State) : Host.Outcome State Fault Refusal := .next (runStart s)

/-- PART_RUN.STOP (R377). -/
def execPartRunStop (s : State) : Host.Outcome State Fault Refusal := .next (runStop s)

/-! ### Host DMA (R386, R387) -/

/-- Does the partition exist (R371)? -/
def partExists (s : State) (n : Nat) : Bool := n == 0 || partVal s n 6 == 1

/-- Is the region one of the partition's cellar regions? -/
def ownCellar (s : State) (n r : Nat) : Bool :=
  regionExists s r && isCellar s (r / 256) (r % 256 / 8) && smGet 0 s.hif.owner r == n

/-- Do `n` bytes at `pa` lie wholly within cellar regions of the partition? -/
def spanOwned (s : State) (p pa n : Nat) : Bool :=
  (List.range ((pa + n - 1) / 2 ^ 28 + 1 - pa / 2 ^ 28)).all fun i => ownCellar s p (pa / 2 ^ 28 + i)

/-- The transfer of a DMA channel, and where it stands (R386). -/
def dmaJob (p dir haddr pa len : Nat) : HostJob :=
  { job0 with part := p, haddr := haddr, todo := [{ pa := pa, len := len, wr := dir == 0, data := [] }] }

/-- HIF_DMA_n CTL.START (R386, R387). -/
def dmaStart (n : Nat) (s : State) : State :=
  let p := getF s (R.HIF_PF_MAP.CH n)
  let pa := 256 * getF s (R.HIF_DMA_PA.PA n)
  let len := 256 * getF s (R.HIF_DMA_LEN.LEN n)
  if flagF s (R.HIF_DMA_STA.BUSY n) then s
  else if len = 0 ∨ !partExists s p ∨ !spanOwned s p pa len then
    raise E.HOSTIF.DMA_ERR (setB s (R.HIF_DMA_STA.ERR n) true)
  else
    let haddr := getF s (R.HIF_DMA_HADDR_LO.HADDR n) + 2 ^ 32 * getF s (R.HIF_DMA_HADDR_HI.HADDR n)
    setFs (newJob n (dmaJob p (getF s (R.HIF_DMA_CTL.DIR n)) haddr pa len) s)
      [(R.HIF_DMA_STA.BUSY n, 1), (R.HIF_DMA_STA.DONE n, 0), (R.HIF_DMA_STA.ERR n, 0)]

/-- DMA_START (R386). -/
def execDmaStart (n : Fin 16) (s : State) : Host.Outcome State Fault Refusal := .next (dmaStart n.val s)

/-- The completion vector of a channel, to the function that owns it (R385). -/
def dmaSignal (n f : Nat) (s : State) : State :=
  if bitsOf (getF s (R.PG_EVT_EN.EN (reqPage 0x41 f))) 0 1 = 1 then
    { s with out := { s.out with msix := s.out.msix ++ [(f, 1728 + n)] } }
  else s

/-- The end of a transfer shows (R202, R387). -/
def dmaShow (n : Nat) (failed : Bool) (s : State) : State :=
  let s := setB s (R.HIF_DMA_STA.BUSY n) false
  if failed then raise E.HOSTIF.DMA_ERR (setB s (R.HIF_DMA_STA.ERR n) true)
  else dmaSignal n (getF s (R.HIF_PF_MAP.CH n)) (raise E.HOSTIF.DMA_DONE (setB s (R.HIF_DMA_STA.DONE n) true))

/-- A transfer ends when its last run has completed, or with a run that failed (R202, R387). -/
def dmaEnd (n : Nat) (s : State) : State :=
  match getJob s n with
  | some q => if q.fault = 0 ∧ !q.todo.isEmpty then s else dmaShow n (q.fault != 0) (setJob n none s)
  | none => s

/-- DMA_DONE (R387). -/
def execDmaDone (n : Fin 16) (s : State) : Host.Outcome State Fault Refusal := .next (dmaEnd n.val s)

/-! ### BAR2 (R384, R387) -/

/-- The cellar regions that a partition reaches through BAR2, in ascending order; none while it does not exist. -/
def bar2Regions (s : State) (f : Nat) : List Nat :=
  if partExists s f then (List.range 3072).filter fun r => ownCellar s f r else []

/-- PA of an offset of BAR2 (R384). -/
def bar2Addr (l : List Nat) (off : Nat) : Option Nat := (l[off / 2 ^ 28]?).map fun r => r * 2 ^ 28 + off % 2 ^ 28

/-- The addresses of an access; none when some byte lies beyond the owned regions. -/
def bar2Span (l : List Nat) (off len : Nat) : Option (List Nat) := ((List.range len).map fun i => bar2Addr l (off + i)).mapM id

/-- A completion of BAR2: its status and data. -/
def complete (sta : Nat) (data : List Byte) (s : State) : State := { s with out := { s.out with bar2 := data, bar2Sta := sta } }

/-- The runs of an access: one for each region it touches, address and bytes (R384). -/
def bar2Runs (l : List Nat) (off n : Nat) : List (Nat × Nat) :=
  let m := min n (2 ^ 28 - off % 2 ^ 28)
  ([(off, m), (off + m, n - m)].filter fun e => decide (0 < e.2)).filterMap fun e => (bar2Addr l e.1).map fun a => (a, e.2)

/-- A run of a BAR2 access. -/
def bar2Run (s : State) (f : Nat) (wr : Bool) (e : Nat × Nat) : Run :=
  { kind := .host 33 wr, pa := e.1, beats := ceilDiv e.2 64, tick := tickNum s, seq := 0, core := 0, line := 0, cnt := 0,
    sem := 0, bank := 0, hinge := none, data := [], part := f, retries := 0, arr := 0 }

/-- May a run of a BAR2 access take its channel: none is ahead of it in unplanned work (R200, R384)? -/
def bar2May (s : State) (r : Run) (bt : Nat) : Bool :=
  let ch := chanOf r.pa
  chanFree s ch bt && unplanned s (ch / 32) (ch % 32) bt (runOcc s r) &&
  (hostFirst s (ch / 32) (ch % 32) bt []).isNone && !guestFirst s (ch / 32) (ch % 32) bt s.hif.accepted

/-- The runs of an access are served one after another, and whether all have passed; none: one of them may not go. -/
def bar2Serve (f : Nat) (wr : Bool) : List (Nat × Nat) → List Served → State → Option (State × Bool)
  | [], _, s => some (s, true)
  | _ :: _, [], _ => none
  | e :: es, v :: vs, s =>
    let r := bar2Run s f wr e
    if !bar2May s r v.bt then none
    else
      let ch := chanOf r.pa
      let (s, ok) := serveAccess (ch / 32) (ch % 32) (runOcc s r) (!wr) r v s
      match bar2Serve f wr es vs s with
      | none => none
      | some (s, ok') => some (s, ok && ok')

/-- The bytes of a write, run by run. -/
def bar2Write : List (Nat × Nat) → List Byte → State → State
  | [], _, s => s
  | e :: es, bs, s => bar2Write es (bs.drop e.2) (serveWrite e.1 (bs.take e.2) s)

/-- An access whose runs have been served completes (R384, R387). One that failed: with no tick a read ends with Completer
Abort, a write is lost (R202); in a tick, which is voided, the access waits (log 125). -/
def bar2End (idle ok : Bool) (runs : List (Nat × Nat)) (wr : Option (List Byte)) (s : State) : State :=
  match wr with
  | some bs => if ok then complete 0 [] (bar2Write runs bs s) else if idle then complete 0 [] s else s
  | none => if ok then complete 0 (runs.flatMap fun e => rdMems s e.1 e.2) s else if idle then complete 2 [] s else s

/-- BAR2 (R384, R387). -/
def bar2 (f off len : Nat) (wr : Option (List Byte)) (sv : List Served) (s : State) : State :=
  let n := match wr with | some bs => bs.length | none => len
  let l := bar2Regions s f
  match bar2Span l off n with
  | none => raise E.HOSTIF.BAR2_UR (complete 1 [] s)
  | some _ =>
    match bar2Serve f wr.isSome (bar2Runs l off n) sv s with
    | none => s
    | some (t, ok) => bar2End (!running s) ok (bar2Runs l off n) wr t

/-- BAR2_ACCESS (R384). -/
def execBar2Access (f : Fin 4) (off len : Nat) (wr : Option (List Byte)) (sv : List Served) (s : State) :
    Host.Outcome State Fault Refusal :=
  .next (if regsServed s then bar2 f.val off len wr sv s else s)

/-! ### The host link and its resets (R349, R383) -/

/-- HIF_LINK_STA takes a value; a change of UP is an event. -/
def setLink (l : LinkInfo) (s : State) : State :=
  let was := flagF s R.HIF_LINK_STA.UP
  let v := fun n => if l.up then n else 0
  raiseIf (was != l.up) E.HOSTIF.LINK_CHANGE <|
    setFs s [(R.HIF_LINK_STA.UP, b2n l.up), (R.HIF_LINK_STA.GEN, v l.gen), (R.HIF_LINK_STA.WIDTH, v l.width),
             (R.HIF_LINK_STA.FLIT, v (b2n l.flit)), (R.HIF_LINK_STA.REVERSED, v (b2n l.reversed)),
             (R.HIF_LINK_STA.IDE, v (b2n l.ide)), (R.HIF_LINK_STA.INVERTED, v l.inverted)]

/-- The link trains or drops: only ×8 and ×16 come up (R383). -/
def execLinkChange (l : LinkInfo) (s : State) : Host.Outcome State Fault Refusal :=
  .next (if s.hearth.closed then setLink { l with up := l.up && (l.width == 8 || l.width == 16) } s else s)

/-- The registers of a DMA channel. -/
def dmaFlds (n : Nat) : List Fld :=
  [R.HIF_DMA_HADDR_LO.HADDR n, R.HIF_DMA_HADDR_HI.HADDR n, R.HIF_DMA_PA.PA n, R.HIF_DMA_LEN.LEN n, R.HIF_DMA_CTL.DIR n,
   R.HIF_DMA_STA.BUSY n, R.HIF_DMA_STA.DONE n, R.HIF_DMA_STA.ERR n]

/-- A DMA channel starts afresh; its transfer is given up. -/
def resetDma (n : Nat) (s : State) : State :=
  (dmaFlds n).foldl (fun s f => resetF s f) (setJob n none s)

/-- The read latches of a requester go (R397). -/
def clearLatches (f : Nat) (s : State) : State := { s with latch := smClear s.latch (f * 2 ^ 32) (2 ^ 32) }

/-- The host interface is reset, and nothing else (R349, R383). -/
def hostReset (s : State) : State :=
  let s := setLink { up := false, gen := 0, width := 0, flit := false, reversed := false, ide := false, inverted := 0 } s
  let s := (List.range 16).foldl (fun s n => resetDma n s) s
  [0, 1, 2, 3].foldl (fun s f => clearLatches f s) (setFs s [(R.HIF_DENIED.OFFSET, 0), (R.HIF_DENIED.PF, 0)])

/-- PERST_N (R349). -/
def execPerstN (s : State) : Host.Outcome State Fault Refusal := .next (if s.hearth.closed then hostReset s else s)

/-- A PCIe hot reset (R383). -/
def execHotReset (s : State) : Host.Outcome State Fault Refusal := .next (if s.hearth.closed then hostReset s else s)

/-- A function-level reset (R383): the function's DMA channels and latches. -/
def execFunctionLevelReset (f : Fin 4) (s : State) : Host.Outcome State Fault Refusal :=
  .next <|
    if !s.hearth.closed then s
    else clearLatches f.val (((List.range 16).filter fun n => getF s (R.HIF_PF_MAP.CH n) == f.val).foldl
      (fun s n => resetDma n s) s)

end Sys2Proof.Machine
end

