-- ==== Sys2Proof/Machine/Register.lean ====
section
/-! DEFINITION. Register access: reads with their side effects, writes through the views, the common header, posted
writes, and the CORE_WIN page (R6 to R8, R115, R116, R181, R354, R376, R389, R395 to R409). -/

namespace Sys2Proof.Machine

/-! ### Words that show a selected entry -/

/-- DIE_SPARE_DATA: up to four bad columns of the selected row (Table 2.8). -/
def spareWord (s : State) (d : Nat) : Nat :=
  leNat (((smGet [] s.rowMaps (128 * d + getF s (R.DIE_SPARE_PTR.ROW d))).take 4).map fun c => BitVec.ofNat 8 (128 + c))

/-- EDGE_BER: the selected bundle's counts (Table 2.10). -/
def berWord (s : State) (e : Nat) : Nat :=
  let b := getF s (R.EDGE_BER.SEL e)
  let l := if b < 24 then berOf s (bundleKey e b) else [0, 0, 0]
  b + l.getD 0 0 * 2 ^ (R.EDGE_BER.RESENDS e).lo + l.getD 1 0 * 2 ^ (R.EDGE_BER.BEYOND e).lo +
    l.getD 2 0 * 2 ^ (R.EDGE_BER.P5_ERR e).lo

/-- STK_SPARE_LANES: the selected channel's spares (Table 7.6). -/
def spareLanes (s : State) (k : Nat) : Nat :=
  let c := getF s (R.STK_SPARE_LANES.SEL k)
  let l := badLanesOf s k c
  c + (replacedBy l 68).getD 0x7F * 2 ^ 8 + (replacedBy l 69).getD 0x7F * 2 ^ 16 +
    (match replacedBy l 80 with | some x => x - 70 | none => 0xF) * 2 ^ 24 + b2n (pastRepair l) * 2 ^ 31

/-- BU_LINK_DATA: the selected word of the selected group (Table 13.8); before P5 0. -/
def linkData (s : State) : Nat :=
  let key := 256 * getF s R.BU_LINK_PTR.KIND + getF s R.BU_LINK_PTR.INDEX
  let w := getF s R.BU_LINK_PTR.WORD
  match smFind s.bu.links key with
  | none => 0
  | some x =>
    if w = 0 then x
    else if w = 1 then (Config.freeValue (s.bu.linkBase + 2 * key)).toNat
    else if w = 2 then marginWord s (getF s R.BU_LINK_PTR.KIND) (getF s R.BU_LINK_PTR.INDEX)
    else 0

/-- A log entry's 32 bytes as a number (Table 11.4). -/
def logBytes (e : LogEntry) : Nat :=
  e.seq % 2 ^ 16 + e.code % 2 ^ 8 * 2 ^ 16 + e.flags % 2 ^ 8 * 2 ^ 24 + e.unit % 2 ^ 8 * 2 ^ 32 + e.unitId % 2 ^ 16 * 2 ^ 48 +
  e.tick % 2 ^ 24 * 2 ^ 64 + e.cycle % 2 ^ 16 * 2 ^ 96 + e.extra % 2 ^ 16 * 2 ^ 112 + e.time % 2 ^ 64 * 2 ^ 128 +
  e.detail % 2 ^ 64 * 2 ^ 192

/-- FLT_LOG_DATA: the selected word of the ring's place of the selected entry (R303); an unwritten place reads 0. -/
def logWord (s : State) : Nat :=
  match smGet none s.flt.log (getF s R.FLT_LOG_PTR.SEQ % 1024) with
  | some e => bitsOf (logBytes e) (32 * getF s R.FLT_LOG_PTR.WORD) 32
  | none => 0

/-- A history's 16 bytes as a number (R362). -/
def histBytes (h : Hist) : Nat :=
  h.times.getD 0 0 % 2 ^ 32 + h.times.getD 1 0 % 2 ^ 32 * 2 ^ 32 + h.times.getD 2 0 % 2 ^ 32 * 2 ^ 64 +
  h.total % 2 ^ 16 * 2 ^ 96 + h.cls % 2 ^ 8 * 2 ^ 112 + b2n h.retest * 2 ^ 120

/-- ATTIC_HIST_DATA (R370). -/
def histWord (s : State) : Nat :=
  bitsOf (histBytes (getHist s (getF s R.ATTIC_HIST_PTR.UNIT * 2 ^ 24 + getF s R.ATTIC_HIST_PTR.ID)))
    (32 * getF s R.ATTIC_HIST_PTR.WORD) 32

/-- HALL_ROUTE_DATA (R273). -/
def routeWord (s : State) : Nat :=
  leNat (((smGet [] s.hall.routes (getF s R.HALL_ROUTE_PTR.ENTRY)).drop (4 * getF s R.HALL_ROUTE_PTR.WORD)).take 4)

/-! ### The map of the pages (R395, R400) -/

/-- Is the offset one of a word that shows a selected entry and has no field of its own? -/
def shownOffset (pg off : Nat) : Bool :=
  (pg == 0x01 && off == 0x50) || (pg == 0x02 && off == 0x50) || (pg == 0x05 && off == 0x48) ||
  (decide (0x08 ≤ pg) && decide (pg ≤ 0x0B) && off == 0x44) || (pg == 0x18 && off == 0x48)

/-- Is the offset assigned on the page (R395, R400)? -/
def assigned (pg off : Nat) : Bool :=
  pageExists pg && off % 4 == 0 &&
  (decide (off < 0x20) || shownOffset pg off || (pageFlds pg).any fun f => f.off == off)

/-- A register of the common header, as a requester sees it (Table 15.3). -/
def headerWord (s : State) (r : Req) (pg off : Nat) : Nat :=
  if off = 0x14 then 0
  else if off = 0x18 then getF s (R.PG_EVT_EN.EN (reqPage pg r.no))
  else (hdrFlds (hdrPage r pg)).foldl (fun w f => if f.off = off then w + getF s f * 2 ^ f.lo else w) 0

/-- A register of the block as it stands. -/
def blockWord (s : State) (r : Req) (pg off : Nat) : Nat :=
  if pg = 0x01 ∧ off = 0x50 then histWord s
  else if pg = 0x02 ∧ off = 0x50 then linkData s
  else if pg = 0x05 ∧ off = 0x48 then logWord s
  else if 0x08 ≤ pg ∧ pg ≤ 0x0B ∧ off = 0x44 then spareWord s (pg - 0x08)
  else if 0x10 ≤ pg ∧ pg ≤ 0x13 ∧ off = 0x4C then berWord s (pg - 0x10)
  else if pg = 0x18 ∧ off = 0x48 then routeWord s
  else if 0x30 ≤ pg ∧ pg ≤ 0x3B ∧ off = 0x48 then spareLanes s (pg - 0x30)
  else if pg = 0x06 ∧ off = 0x48 then regWord s pg off ||| 1
  else regWord s (blkPage r pg) off

/-- A register's First power-on value (R354). PART_0_REG.EN reads 1 at all times (R392). -/
def firstWord (s : State) (pg off : Nat) : Nat :=
  (if off < 0x20 then hdrFlds pg else pageFlds pg).foldl (fun w f =>
    if f.off = off ∧ f.acc ≠ .cmd then w + firstVal s f * 2 ^ f.lo else w) (if pg = 0x06 ∧ off = 0x48 then 1 else 0)

/-! ### Reads (R354, R396, R397) -/

/-- Do the page's registers read as they stand? Until P3 ends only BRINGUP and ATTIC do; a bring-up that stopped before
leaves every page readable, but for a hub in its boot ROM, where MGMT is served as well (R353, R354; log 41). -/
def readOpen (s : State) (pg : Nat) : Bool :=
  pageOpen s pg || (s.bu.next == 9 && (!s.bu.bootRom || pg == 0x42))

/-- Key of a latched word: requester, page and offset (R397). -/
def latchKey (r : Req) (pg off : Nat) : Nat := r.no * 2 ^ 32 + pg * 0x1000 + off

/-- The words that a read of a register latches (R49, R236, R248). -/
def latches (pg off : Nat) : List Nat :=
  if pg = 0x03 ∧ off = 0x40 then [0x44]
  else if pg = 0x03 ∧ off = 0x54 then [0x58]
  else if pg = 0x03 ∧ off = 0x78 then [0x7C]
  else if 0x60 ≤ pg ∧ pg ≤ 0x6B then
    if off = 0x60 ∨ off = 0x70 ∨ off = 0x90 then [off + 4, off + 8, off + 12]
    else if off = 0x80 then [0x84, 0x88, 0x8C, 0x90, 0x94, 0x98, 0x9C, 0x58]
    else []
  else []

/-- The word that a read returns: a latched one where the requester holds it (R397). -/
def readWord (s : State) (r : Req) (pg off : Nat) : Nat :=
  if !assigned pg off then 0
  else if !readOpen s pg then firstWord s pg off
  else if off < 0x20 then headerWord s r pg off
  else match smGet none s.latch (latchKey r pg off) with
    | some v => v
    | none => blockWord s r pg off

/-- A read captures the words it latches. -/
def takeLatches (r : Req) (pg off : Nat) (s : State) : State :=
  { s with latch := (latches pg off).foldl (fun m o => smSet none m (latchKey r pg o) (some (blockWord s r pg o))) s.latch }

/-- Add 1 to a field that wraps. -/
def bump (f : Fld) (s : State) : State := setF s f (getF s f + 1)

/-! ### CORE_WIN (R115, R116) -/

def cwLcid (q : List Nat) : Nat := bitsOf (q.getD 0 0) 0 16
def cwTarget (q : List Nat) : Nat := bitsOf (q.getD 0 0) 16 3
def cwBank (q : List Nat) : Nat := bitsOf (q.getD 0 0) 19 1
def cwAddr (q : List Nat) : Nat := q.getD 1 0
def cwWrite (q : List Nat) : Bool := q.getD 2 0 == 1
def cwData (q : List Nat) : Nat := q.getD 3 0

/-- Bytes of a target (Table 3.8). -/
def cwSpan (t : Nat) : Nat :=
  match t with
  | 0 => 0x30000
  | 1 => 0x4000
  | 2 => 0x80
  | 3 => 0x6000
  | 4 => 0x40
  | 5 => 0x18
  | _ => 0

/-- Does the LCID name a usable core: one of the grid, under a loaded map (R62, R64, R116)? -/
def cwUsable (s : State) (q : List Nat) : Bool := lcidOk (cwLcid q) && flagF s (R.DIE_MAP_STA.LOADED (cwLcid q / 2 ^ 14))

/-- Does a running plan bind the core, or is it parked, while the package runs (R116)? -/
def cwBound (s : State) (l : Nat) : Bool :=
  let c := getCore s l
  running s && ((c.bound != 0 && partRuns s (c.bound - 1)) || c.parkLeft != 0)

/-- May function n reach the target (R116, R376)? A filler's function reaches its banks and the status only. -/
def cwRight (s : State) (r : Req) (q : List Nat) : Bool :=
  match r with
  | .smb => true
  | .pf n =>
    n == 0 || (inRect s n.val (cwLcid q) && partVal s n.val 6 == 1 &&
      (!isFiller s n.val || cwTarget q == 5 ||
        (cwTarget q == 0 && bitsOf (sliceMask s n.val) (cwAddr q / 24576) 1 == 1)))

/-- Is the access one that R116 refuses? -/
def cwRefused (s : State) (r : Req) (q : List Nat) : Bool :=
  !cwUsable s q || decide (cwSpan (cwTarget q) ≤ cwAddr q) || cwAddr q % 4 != 0 || (cwWrite q && cwTarget q == 5) ||
  s.hif.zeroCores.contains (cwLcid q) || (s.hif.zeroBanks != 0 && inRect s 0 (cwLcid q)) || !cwRight s r q ||
  (cwWrite q && cwBound s (cwLcid q))

/-- The access is refused (R116). -/
def cwRefuse (n : Nat) (s : State) : State := raise E.CORE_WIN.CW_REFUSED (setB s (R.CW_STA.REFUSED n) true)

/-- An access starts, or is refused (R115, R116). -/
def cwStart (r : Req) (wr : Option Nat) (s : State) : State :=
  let n := r.no
  let q := [regWord s (blkPage r 0x50) 0x40, getF s (R.CW_ADDR.ADDR n), if wr.isSome then 1 else 0, wr.getD 0]
  if flagF s (R.CW_STA.BUSY n) then cwRefuse n s
  else
    let s := setB s (R.CW_STA.BYPASS n) (!cwUsable s q)
    if cwRefused s r q then cwRefuse n s
    else setB { s with hif := { s.hif with cw := smSet none s.hif.cw n (some q), cwOrder := s.hif.cwOrder ++ [n] } }
      (R.CW_STA.BUSY n) true

/-- Code of an engine's state (Table 3.8); none where the table has no code for it. -/
def engCode (m : EngMode) : Option Nat :=
  match m with
  | .running => some 0
  | .blocked _ _ _ _ _ => some 1
  | .atTend => some 2
  | .halted => some 3
  | .parked => some 4
  | .holding => some 5
  | .stopped => none
  | .stalled _ => some 0

/-- The deadlock counter (R105): none runs outside a tick; in Boost mode, where the core's clock is no fixed one, it is
the free value `x` (log 117). -/
def deadWord (s : State) (l x : Nat) : Nat :=
  if !running s then 0
  else if flagF s R.TOP_MODE.BOOST then (if stuck s l then x % 2 ^ 16 else 0)
  else min (2 ^ 16 - 1) (deadCount s l (nowCyc s))

/-- The status words of a core (Table 3.8); `x` is a free value for what the table leaves open: the state of an engine
that an error stopped, and the deadlock counter in Boost mode (log 2). -/
def cwStatus (s : State) (l : Nat) (x : Nat) (a : Nat) : Nat :=
  let c := getCore s l
  let pair := fun e => (getEng c e).idx % 2 ^ 11 + (getEng c (e + 1)).idx % 2 ^ 11 * 2 ^ 16
  match a / 4 with
  | 0 => ((List.range 6).map fun e => ((engCode (getEng c e).mode).getD (x / 16 ^ e % 16)) * 16 ^ e).sum
  | 1 => pair 0
  | 2 => pair 2
  | 3 => pair 4
  | 4 => b2n c.activeB + 2 * b2n c.ready + 4 * b2n (c.parkLeft != 0) + 8 * c.bank + c.parkLeft % 2 ^ 8 * 2 ^ 8
  | _ => deadWord s l x

/-- The word that a read returns (Table 3.8). -/
def cwRead (s : State) (q : List Nat) (x : Nat) : Nat :=
  let c := semClose (getCore s (cwLcid q))
  let a := cwAddr q
  match cwTarget q with
  | 0 => leNat (lsRead c a 4)
  | 1 => (smGet 0 c.acc (a / 4)).toNat
  | 2 => smGet 0 c.sem (32 * cwBank q + a / 4) % 2 ^ 12
  | 3 => smGet 0 c.ib (a / 8) / 2 ^ (a % 8 * 8) % 2 ^ 32
  | 4 => (smGet none c.descNew (a / 4)).getD (smGet 0 c.desc (a / 4))
  | _ => cwStatus s (cwLcid q) x a

/-- A write to a target (Table 3.8). -/
def cwPut (q : List Nat) (c : Core) : Core :=
  let a := cwAddr q
  let v := cwData q
  match cwTarget q with
  | 0 => lsPut [] c a (leBytes 4 v)
  | 1 => { c with acc := smSet 0 c.acc (a / 4) (BitVec.ofNat 32 v) }
  | 2 =>
    let c := semClose c
    { c with sem := smSet 0 c.sem (32 * cwBank q + a / 4) (v % 2 ^ 12) }
  | 3 => { c with ib := smUpd 0 c.ib (a / 8) fun w => putBits w (a % 8 * 8) 32 v }
  | 4 => { c with desc := smSet 0 c.desc (a / 4) v, descNew := smSet none c.descNew (a / 4) none }
  | _ => c

/-- CW_ADDR advances after a CW_DATA access when INC is 1 (R115). -/
def cwAdvance (n : Nat) (s : State) : State :=
  if flagF s (R.CW_SEL.INC n) then setF s (R.CW_ADDR.ADDR n) (getF s (R.CW_ADDR.ADDR n) + 4) else s

/-- The faults of a read's access to the local store (R90): LS_CE, LS_UE_FRESH, LS_UE_HELD. -/
def cwFaults (s : State) (q : List Nat) (ecc : WinEcc) : List FaultRec :=
  let c := cwLcid q
  let line := cwAddr q / 64
  if cwTarget q ≠ 0 then []
  else match ecc with
    | .clean => []
    | .corrected => [coreFault s c 0x16 clLogged (nowCyc s) (64 * line)]
    | .uncorrectable => [ueFault s c (nowCyc s) line]

/-- A read ends: DATA, or UE (R90, Table 3.7). While the compute rails are off what it returns is free (R339). -/
def cwReadDone (n : Nat) (q : List Nat) (ecc : WinEcc) (s : State) : State :=
  let (x, s) := takeFree s
  let ue := ecc == .uncorrectable
  let v := if s.hearth.trip then x.toNat else cwRead s q x.toNat
  let s := raiseIf ue E.CORE_WIN.CW_UE (setFs s [(R.CW_DATA.DATA n, if ue then 0 else v), (R.CW_STA.UE n, b2n ue)])
  takeFaults (cwFaults s q ecc) s

/-- May an access be served now: one of a core that a running plan binds, or of a parked one, waits for the guard, but
for the status (R91, R116)? -/
def cwServable (s : State) (q : List Nat) : Bool :=
  !cwBound s (cwLcid q) || cwTarget q == 5 || cwWrite q || (s.tick.atD && !s.tick.draining)

/-- The hub serves one access at a time, in the order of arrival (R115, R397): is there an earlier one that may be served? -/
def cwTurn (s : State) (n : Nat) : Bool :=
  (s.hif.cwOrder.find? fun k => match smGet none s.hif.cw k with | some q => cwServable s q | none => false) == some n

/-- The access leaves the window. -/
def cwClose (n : Nat) (s : State) : State :=
  setB { s with hif := { s.hif with cw := smSet none s.hif.cw n none, cwOrder := s.hif.cwOrder.filter fun k => k != n } }
    (R.CW_STA.BUSY n) false

/-- An access completes (R115, R116). A write whose core a launch has bound meanwhile is refused (log 118). -/
def cwDone (n : Nat) (ecc : WinEcc) (s : State) : State :=
  match smGet none s.hif.cw n with
  | none => s
  | some q =>
    if !cwTurn s n then s
    else if cwWrite q && cwBound s (cwLcid q) then cwRefuse n (cwClose n s)
    else
      let s := setB (cwClose n s) (R.CW_STA.REFUSED n) false
      if cwWrite q then cwAdvance n (updCore s (cwLcid q) (cwPut q)) else cwReadDone n q ecc s

/-- CORE_WIN_ACCESS_DONE (R116). -/
def execCoreWinAccessDone (r : Req) (ecc : WinEcc) (s : State) : Host.Outcome State Fault Refusal :=
  .next (cwDone r.no ecc s)

/-! ### A read with its side effects (R396) -/

/-- What a read of a register does besides returning it (R115, R303, R370, R407). -/
def readEffect (r : Req) (pg off : Nat) (s : State) : State :=
  if off = 0x10 then { s with hif := { s.hif with lapped := smSet false s.hif.lapped (hdrPage r pg) false } }
  else if pg = 0x05 ∧ off = 0x48 then bump R.FLT_LOG_PTR.WORD s
  else if pg = 0x01 ∧ off = 0x50 then bump R.ATTIC_HIST_PTR.WORD s
  else if pg = 0x50 ∧ off = 0x48 ∧ flagF s (R.CW_SEL.INC r.no) then cwStart r none (cwAdvance r.no s)
  else takeLatches r pg off s

/-- A requester reads a register (R396, R397). -/
def readReg (r : Req) (pg off : Nat) (s : State) : State :=
  if !regsServed s then s
  else
    let v := readWord s r pg off
    let s := if assigned pg off && readOpen s pg then readEffect r pg off s else s
    { s with out := { s.out with rd := smSet 0 s.out.rd r.no (BitVec.ofNat 32 v) } }

/-- PG_EVT_SEQ (R407). -/
def execPgEvtSeqRead (r : Req) (pg : Nat) (s : State) : Host.Outcome State Fault Refusal := .next (readReg r pg 0x10 s)
/-- TICK_COUNT_LO (R49). -/
def execTickCountLoRead (r : Req) (s : State) : Host.Outcome State Fault Refusal := .next (readReg r 0x03 0x40 s)
/-- TICK_LAUNCH_LO (R49). -/
def execTickLaunchLoRead (r : Req) (s : State) : Host.Outcome State Fault Refusal := .next (readReg r 0x03 0x54 s)
/-- TICK_JOB_LO (R49). -/
def execTickJobLoRead (r : Req) (s : State) : Host.Outcome State Fault Refusal := .next (readReg r 0x03 0x78 s)
/-- The low word of PAN_NORM_ACC, PAN_NORM_GLB or PAN_GNS_BIG (R248). -/
def execPanLowWordRead (r : Req) (k : StackNo) (q : Fin 3) (s : State) : Host.Outcome State Fault Refusal :=
  .next (readReg r (0x60 + k.val) (if q = 0 then 0x60 else if q = 1 then 0x70 else 0x90) s)
/-- PAN_GNS_SMALL0 (R236). -/
def execPanGnsSmall0Read (r : Req) (k : StackNo) (s : State) : Host.Outcome State Fault Refusal :=
  .next (readReg r (0x60 + k.val) 0x80 s)
/-- FLT_LOG_DATA (R303). -/
def execFltLogDataRead (r : Req) (s : State) : Host.Outcome State Fault Refusal := .next (readReg r 0x05 0x48 s)
/-- ATTIC_HIST_DATA (R370). -/
def execAtticHistDataRead (r : Req) (s : State) : Host.Outcome State Fault Refusal := .next (readReg r 0x01 0x50 s)
/-- CW_DATA (R115). -/
def execCwDataRead (r : Req) (s : State) : Host.Outcome State Fault Refusal := .next (readReg r 0x50 0x48 s)

/-! ### What a write makes of a field (Table 15.1) -/

/-- The value of a field after a write of `v` through a view. -/
def viewed (view cur v : Nat) : Nat :=
  match view with
  | 0 => v
  | 1 => cur ||| v
  | 2 => cur - (cur &&& v)
  | _ => cur ^^^ v

/-- The part of a written word that a field takes. -/
def fieldOf (f : Fld) (w : Nat) : Nat := bitsOf w f.lo f.width

/-- A field's value after a write. -/
def fieldAfter (s : State) (view w : Nat) (f : Fld) : Nat := viewed view (getF s f) (fieldOf f w)

/-- The fields of a register, and those of an access kind. -/
def regFlds (r : Req) (pg off : Nat) : List Fld := (pageFlds (blkPage r pg)).filter fun f => f.off == off
def ofAcc (a : Acc) (l : List Fld) : List Fld := l.filter fun f => f.acc == a

/-! ### PG_EVT_ACK and PG_EVT_EN (R407, R408) -/

/-- An acknowledgement (R407). -/
def ackEvents (p w : Nat) (s : State) : State :=
  if w / 2 ^ 16 % 2 ^ 16 = getF s (R.PG_EVT_SEQ.SEQ p) ∧ !smGet false s.hif.lapped p then
    setFs s [(R.PG_EVT.EVT p, getF s (R.PG_EVT.EVT p) - (getF s (R.PG_EVT.EVT p) &&& w % 2 ^ 16)), (R.PG_STA.ACK_STALE p, 0)]
  else setB s (R.PG_STA.ACK_STALE p) true

/-- May event b of a page signal function f at all (R385)? -/
def mayHear (pg b f : Nat) : Bool :=
  f == 0 || pg == 0x52 || (pg == 0x06 && (b == 2 || b == 3))

/-- A bit of PG_EVT_EN set while its event is pending signals once (R408). -/
def signalNew (r : Req) (pg new : Nat) (s : State) : State :=
  match r with
  | .smb => s
  | .pf n =>
    (List.range 16).foldl (fun s b =>
      if bitsOf new b 1 = 1 ∧ bitsOf (getF s (R.PG_EVT.EVT (hdrPage r pg))) b 1 = 1 ∧ mayHear pg b n.val then
        signal pg b n.val s else s) s

/-- PG_EVT_EN of a requester takes a value. -/
def writeEvtEn (r : Req) (pg view w : Nat) (s : State) : State :=
  let f := R.PG_EVT_EN.EN (reqPage pg r.no)
  let old := getF s f
  let v := fieldAfter s view w f
  signalNew r pg (v - (v &&& old)) (setF s f v)

/-! ### PG_CTL.EN (R401 to R404) -/

/-- The ports of a PORCH page whose binding changed are classed again (R267). -/
def porchEnable (o : Nat) (s : State) : State :=
  [0, 1, 2, 3].foldl (fun s j =>
    let p := 4 * o + j
    if bindWord s p = (getPort s p).bindAt then s else classify p s) s

/-- The reduction SRAM's allotments come into force: bytes that change partition are zeroed (R300; log 42). -/
def reduceEnable (s : State) : State :=
  let new := [0, 1, 2, 3].map fun n => getF s (R.RED_ALLOT.UNITS n)
  if new = s.reduce.allotAt then s
  else raise E.REDUCE.ALLOT_ZEROED { s with reduce := { s.reduce with allotAt := new, sums := [], pieces := [] } }

/-- A change of the guest's owner discards the requests held (Table 14.2). -/
def guestEnable (s : State) : State :=
  let o := getF s R.GST_CTL.OWNER
  onGuest (fun g => if g.ownerAt = o then g else { g with ownerAt := o, reqs := [] }) s

/-- PG_CTL.EN goes from 0 to 1: the checks and actions of the owning chapter (R401). -/
def enablePage (r : Req) (pg : Nat) (s : State) : State :=
  let p := hdrPage r pg
  if pg = 0x03 then tickEnable s
  else if pg = 0x06 then partEnable s
  else if pg = 0x40 ∧ !s.fuse.guestOption then s
  else if 0x30 ≤ pg ∧ pg ≤ 0x3B ∧ flagF s (R.PG_STA.ZEROING pg) then s
  else
    let s := setEnable p true (clearReject p s)
    if pg = 0x19 then reduceEnable s
    else if 0x20 ≤ pg ∧ pg ≤ 0x2B then porchEnable (pg - 0x20) s
    else if pg = 0x40 then guestEnable s
    else s

/-- PG_CTL.EN goes from 1 to 0 (R401, R403). -/
def disablePage (r : Req) (pg view : Nat) (s : State) : State :=
  let p := hdrPage r pg
  if (running s && !enClearRunning pg) || (pg == 0x03 && s.tick.pend.isSome) then rejectWrite r pg view 0x04 s
  else setEnable p false (clearReject p s)

/-- A write of PG_CTL. One that leaves EN as it is takes effect too and clears the record (R405). -/
def writeCtl (r : Req) (pg view w : Nat) (s : State) : State :=
  let f := R.PG_CTL.EN (hdrPage r pg)
  let v := fieldAfter s view w f
  if pg = 0x40 ∧ !s.fuse.guestOption then s
  else if getF s f = 0 ∧ v = 1 then enablePage r pg s
  else if getF s f = 1 ∧ v = 0 then disablePage r pg view s
  else clearReject (hdrPage r pg) s

/-! ### Commands of the registers -/

/-- The action that a 1 written to a command bit starts. RETRY of the sensor bus starts the recovery whose end is the
SNS_BUS_RETRY row (R391); TOP_RESET_CMD is judged whole (R412). -/
def startCmd (f : Fld) (s : State) : State :=
  if f = R.ATTIC_CMD.SYNC then syncCmd s
  else if f = R.ATTIC_CMD.CLEAR_SETTINGS then clearCmd s
  else if f = R.BU_MODE.COLD_NEXT then coldCmd s
  else if f = R.FLT_DRAIN_CMD.DRAIN then drainCmd s
  else if f = R.FLT_DRAIN_CMD.RELEASE then releaseDrain s
  else if f = R.PART_OWNER_CMD.GO then ownerCmd s
  else if f = R.PART_RUN.START then runStart s
  else if f = R.PART_RUN.STOP then runStop s
  else if f = R.GST_RESET.RESET then guestResetCmd s
  else if f = R.SNS_BUS_CTL.RETRY then { s with sns := { s.sns with asked := true } }
  else if f.page % 0x1000 = 0x52 then
    let n := f.page / 0x1000
    if f = R.PLAN_LOAD_CMD.LOAD n then loadCmd n s
    else if f = R.PLAN_LOAD_CMD.UNLOAD n then unloadCmd n s
    else restartCmd n s
  else if f.page = 0x41 then dmaStart ((f.off - 0x110) / 0x20) s
  else if 0x30 ≤ f.page ∧ f.page ≤ 0x3B then marginStart (f.page - 0x30) s
  else if 0x60 ≤ f.page ∧ f.page ≤ 0x6B then
    let k := f.page - 0x60
    if f = R.PAN_OPT.GNS_CLR k then updPan s k fun p => { p with gnsClr := true }
    else exportStart (flagF s (R.PAN_EXP_CTL.DIR k)) k s
  else s

/-- The command bits written 1 start their actions, in the order of the bits; the CLR and TGL views start none (Table 15.1). -/
def startCmds (view w : Nat) (fs : List Fld) (s : State) : State :=
  if 1 < view then s
  else (ofAcc .cmd fs).foldl (fun s f => if fieldOf f w = 1 then startCmd f s else s) s

/-! ### What a write to a block register does -/

/-- Registers that hardware or another page holds: writes to them are ignored (R81, R229, R392). -/
def writeIgnored (s : State) (pg off : Nat) : Bool :=
  (pg == 0x40 && !s.fuse.guestOption) ||
  (decide (0x61 ≤ pg) && decide (pg ≤ 0x6B) && (off == 0x48 || off == 0x4C || off == 0x50)) ||
  (pg == 0x06 && (off == 0x44 || off == 0x48 || off == 0x4C))

/-- The step and the seed of PANTRY0 are those of every Pantry (R229). -/
def mirrorPan (off : Nat) (s : State) : State :=
  let f := fun k => if off = 0x48 then R.PAN_STEP.STEP k else if off = 0x4C then R.PAN_SEED_LO.SEED k else R.PAN_SEED_HI.SEED k
  setFs s ((List.range 12).map fun k => (f k, getF s (f 0)))

/-- A field takes the value written. Some fields bring more with them: a channel's class (R208), a laser (R260). -/
def takeField (e : Fld × Nat) (s : State) : State :=
  let f := e.1
  if 0x30 ≤ f.page ∧ f.page ≤ 0x3B ∧ f.off = 0x40 then writeClass (f.page - 0x30) e.2 s
  else if 0x20 ≤ f.page ∧ f.page ≤ 0x2B ∧ (f.off - 0x40) % 0x20 = 0x14 then
    laserPut (4 * (f.page - 0x20) + (f.off - 0x40) / 0x20) (e.2 == 1) s
  else setF s f e.2

/-- A write to Kept fields queues their record (R364). -/
def queueKept (pg : Nat) (es : List (Fld × Nat)) (s : State) : State :=
  if es.any fun e => e.1 == R.TOP_PKG_ID.ID then queueRec recPackage s
  else if es.any fun e => e.1.kept then queueRec (recSettings pg) s
  else s

/-- What follows from the fields of a register once they are written. Any write of PART_RUN while the package does not run is
refused (R377): one without a command here, one with START or STOP by the command. -/
def afterWrite (r : Req) (pg off w : Nat) (s : State) : State :=
  if pg = 0x60 ∧ (off = 0x48 ∨ off = 0x4C ∨ off = 0x50) then mirrorPan off s
  else if pg = 0x04 ∧ off = 0x40 then updateCap s
  else if pg = 0x18 ∧ off = 0x40 then setF s R.HALL_PORTMAP.USED (usedPorts s)
  else if pg = 0x06 ∧ off = 0x88 ∧ !running s ∧ bitsOf w 2 2 = 0 then runConflict s
  else if pg = 0x50 ∧ off = 0x44 then cwStart r none s
  else if pg = 0x50 ∧ off = 0x48 then cwStart r (some w) s
  else s

/-- Does the write reach an RWD field that it may not change: any through the normal view, a changed bit through an
alias (R398, R405)? -/
def rwdHit (s : State) (view w : Nat) (fs : List Fld) : Bool :=
  (ofAcc .rwd fs).any fun f => view == 0 || fieldAfter s view w f != getF s f

/-- The fields that a write changes: RW always, RWD while the page is disabled. -/
def takenFields (s : State) (en : Bool) (view w : Nat) (fs : List Fld) : List (Fld × Nat) :=
  (ofAcc .rw fs ++ (if en then [] else ofAcc .rwd fs)).map fun f => (f, fieldAfter s view w f)

/-- CW_DATA keeps the data of the last read; a write to it only starts an access (Table 3.7). -/
def storedOnly (pg off : Nat) : Bool := !(pg == 0x50 && off == 0x48)

/-- A write reaches a register of the block (R6, R398, R405). -/
def writeBlock (r : Req) (pg view off w : Nat) (s : State) : State :=
  if writeIgnored s pg off then s
  else
    let fs := regFlds r pg off
    let en := flagF s (R.PG_CTL.EN (hdrPage r pg))
    let es := if storedOnly pg off then takenFields s en view w fs else []
    if !(es.all fun e => fieldOk s e.1 e.2) || !crossOk (setFs s es) pg then rejectWrite r pg view off s
    else
      let s := if en && rwdHit s view w fs then rejectWrite r pg view off s else s
      let s := queueKept pg es (noteRoot (pg == 0x03) s (es.foldl (fun s e => takeField e s) s))
      startCmds view w fs (afterWrite r pg off (if storedOnly pg off then w else fieldAfter s view w (R.CW_DATA.DATA r.no)) s)

/-! ### Writes (R376, R389, R395, R398, R409) -/

/-- A write takes effect. -/
def applyWrite (r : Req) (pg view off w : Nat) (s : State) : State :=
  if off = 0x04 then writeCtl r pg view w s
  else if off < 0x20 then s
  else writeBlock r pg view off w s

/-- The WDROP event of a posted-write page (R409). -/
def wdrop (pg : Nat) (r : Req) (s : State) : State :=
  let s := raise ⟨pg, 15⟩ s
  match r with
  | .smb => { s with hif := { s.hif with winDrop := true } }
  | .pf _ => s

/-- A write to a posted-write page waits, or is dropped while one waits (R409). -/
def postWrite (r : Req) (pg view off w : Nat) (s : State) : State :=
  if flagF s (R.PG_STA.WBUSY pg) then wdrop pg r s
  else setB { s with hif := { s.hif with posted := smSet none s.hif.posted pg (some (r.no, view, off, w)) } }
    (R.PG_STA.WBUSY pg) true

/-- A write that the requester may make. -/
def admitted (r : Req) (pg view off w : Nat) (s : State) : State :=
  if off = 0x14 then (if view = 0 then ackEvents (hdrPage r pg) w s else s)
  else if off = 0x18 then writeEvtEn r pg view w s
  else if pg = 0x00 ∧ off = 0x64 then (if view = 0 then resetCmd w s else s)
  else if postedPage pg then postWrite r pg view off w s
  else applyWrite r pg view off w s

/-- The word as a write would leave it: the rights of PART_RUN depend on it (R376). -/
def wordAfter (s : State) (pg view off w : Nat) : Nat := viewed view (regWord s pg off) w % 2 ^ 32

/-- A requester writes a word (R376, R389, R395, R396, R354). TOP_RESET_CMD is judged at any time (R412; log 41). Rights are
judged before the page's own rules: a function without rights that writes a GUEST register of a package without a guest is
denied and recorded, though R81 ignores writes to that page (the model's choice, log 66). -/
def writeReg (r : Req) (addr w : Nat) (s : State) : State :=
  let pg := addr / 2 ^ 16
  let view := addr / 2 ^ 12 % 16
  let off := addr % 2 ^ 12
  if !regsServed s || decide (3 < view) || !assigned pg off then s
  else if !pageOpen s pg && !(pg == 0x00 && off == 0x64) then s
  else if !mayWrite s r pg off (wordAfter s pg view off w) then denyWrite r pg view off s
  else admitted r pg view off w s

/-- The requester of a number (R397). -/
def reqOf (n : Nat) : Req := if h : n < 4 then .pf ⟨n, h⟩ else .smb

/-- A posted write takes effect (R409). -/
def postedDone (pg : Nat) (s : State) : State :=
  match smGet none s.hif.posted pg with
  | none => s
  | some (n, view, off, w) =>
    applyWrite (reqOf n) pg view off w
      (setB { s with hif := { s.hif with posted := smSet none s.hif.posted pg none } } (R.PG_STA.WBUSY pg) false)

/-- REGISTER_WRITE (R6). -/
def execRegisterWrite (r : Req) (addr : Nat) (w : Word) (s : State) : Host.Outcome State Fault Refusal :=
  .next (writeReg r addr w.toNat s)

/-- POSTED_WRITE_DONE (R409). -/
def execPostedWriteDone (pg : Nat) (s : State) : Host.Outcome State Fault Refusal := .next (postedDone pg s)

/-- PG_CTL.EN is set (R401). -/
def execPageEnable (r : Req) (pg : Nat) (s : State) : Host.Outcome State Fault Refusal :=
  .next (writeReg r (barOffset pg 0 0x04) 1 s)

/-- PG_CTL.EN is cleared (R403). -/
def execPageDisable (r : Req) (pg : Nat) (s : State) : Host.Outcome State Fault Refusal :=
  .next (writeReg r (barOffset pg 0 0x04) 0 s)

/-- PG_EVT_ACK (R407). -/
def execPgEvtAck (r : Req) (pg : Nat) (w : Word) (s : State) : Host.Outcome State Fault Refusal :=
  .next (writeReg r (barOffset pg 0 0x14) w.toNat s)

/-- CW_ADDR (R115). -/
def execCwAddrWrite (r : Req) (w : Word) (s : State) : Host.Outcome State Fault Refusal :=
  .next (writeReg r (barOffset 0x50 0 0x44) w.toNat s)

/-- CW_DATA (R115). -/
def execCwDataWrite (r : Req) (w : Word) (s : State) : Host.Outcome State Fault Refusal :=
  .next (writeReg r (barOffset 0x50 0 0x48) w.toNat s)

end Sys2Proof.Machine
end

