-- ==== Sys2Proof/Machine/Smbus.lean ====
section
/-! DEFINITION. The SMBus target (R388, R389). -/

namespace Sys2Proof.Machine

/-- The target answers a transfer. -/
def smbAnswer (bs : List Byte) (s : State) : State := { s with out := { s.out with smb := bs, smbNack := false } }

/-- The target does not acknowledge. -/
def smbNack (s : State) : State := { s with out := { s.out with smb := [], smbNack := true } }

/-- A write whose PEC is wrong or missing is discarded (R388). -/
def withPec (ok : Bool) (f : State → State) (s : State) : State :=
  if !regsServed s then smbNack s
  else if ok then smbAnswer [] (f s)
  else smbNack (raise E.MGMT.SMB_PEC s)

def setWin (a : Nat) (s : State) : State := { s with hif := { s.hif with win := a % 2 ^ 28 / 4 * 4 } }

/-- WIN_ADDR: the window's offset, 4 B aligned (Table 14.4). -/
def execWinAddr (bs : List Byte) (pec : Bool) (s : State) : Host.Outcome State Fault Refusal :=
  .next (withPec pec (setWin (leNat (bs.take 4))) s)

/-- Does the window name a register that the port reaches? A hub in its boot ROM reaches three pages (R388). -/
def winNames (s : State) (a : Nat) : Bool :=
  decide (a / 2 ^ 12 % 16 ≤ 3) && assigned (a / 2 ^ 16) (a % 2 ^ 12) &&
  (!s.bu.bootRom || a / 2 ^ 16 == 0x42 || a / 2 ^ 16 == 0x02 || a / 2 ^ 16 == 0x01)

/-- The word at the window is read, and WIN_STATUS bit 1 notes whether the window names a register. -/
def winFetch (s : State) : Nat × State :=
  let a := s.hif.win
  let t := { s with hif := { s.hif with winNone := !winNames s a } }
  if winNames s a then
    let v := readWord s .smb (a / 2 ^ 16) (a % 2 ^ 12)
    (v, readReg .smb (a / 2 ^ 16) (a % 2 ^ 12) t)
  else (0, t)

/-- WIN_READ (Table 14.4). -/
def execWinRead (s : State) : Host.Outcome State Fault Refusal :=
  .next <|
    if !regsServed s then smbNack s
    else
      let (v, t) := winFetch s
      setWin (s.hif.win + 4) (smbAnswer (leBytes 4 v) t)

/-- WIN_WRITE: bit 0 of WIN_STATUS tells whether the last one was dropped (R389). -/
def execWinWrite (bs : List Byte) (pec : Bool) (s : State) : Host.Outcome State Fault Refusal :=
  .next (withPec pec (fun s =>
    let t := { s with hif := { s.hif with winDrop := false, winNone := !winNames s s.hif.win } }
    setWin (s.hif.win + 4) (writeReg .smb s.hif.win (leNat (bs.take 4)) t)) s)

/-- ALERT_N is low while an enabled MGMT event is pending (R388, R408). -/
def alertLow (s : State) : Bool := getF s (R.PG_EVT.EVT 0x42) &&& getF s (R.PG_EVT_EN.EN (reqPage 0x42 4)) != 0

/-- STATE (Table 14.4). -/
def execState (s : State) : Host.Outcome State Fault Refusal :=
  .next (if regsServed s then smbAnswer [BitVec.ofNat 8 (topState s + 128 * b2n (alertLow s))] s else smbNack s)

/-- WIN_STATUS (Table 14.4). -/
def execWinStatus (s : State) : Host.Outcome State Fault Refusal :=
  .next (if regsServed s then smbAnswer [BitVec.ofNat 8 (b2n s.hif.winDrop + 2 * b2n s.hif.winNone)] s else smbNack s)

/-- The Alert Response Address is answered while ALERT_N is low (R388): with the target's address in the upper seven
bits (PRESUMED from SMBus; log 43). -/
def execAlertResponse (s : State) : Host.Outcome State Fault Refusal :=
  .next (if regsServed s && alertLow s then smbAnswer [BitVec.ofNat 8 (2 * getF s R.MGT_SMB_ADDR.ADDR)] s else smbNack s)

end Sys2Proof.Machine
end

