-- ==== Sys2Proof/Machine/Dispatch.lean ====
section
/-! DEFINITION. One arm per command (spec/opcode_table.json): each arm is one direct call of its meaning. -/

namespace Sys2Proof.Machine

def exec (i : Instr) (s : State) : Host.Outcome State Fault Refusal :=
  match i with
  | .syncPeriod => Sys2Proof.Machine.execSyncPeriod s
  | .timeReq p t1 copy => Sys2Proof.Machine.execTimeReq p t1 copy s
  | .timeRsp p t1 t2 t3 copy => Sys2Proof.Machine.execTimeRsp p t1 t2 t3 copy s
  | .syncPeriodMissed => Sys2Proof.Machine.execSyncPeriodMissed s
  | .launchEnable r => Sys2Proof.Machine.execLaunchEnable r s
  | .launch src digest => Sys2Proof.Machine.execLaunch src digest s
  | .goDeadline => Sys2Proof.Machine.execGoDeadline s
  | .go l => Sys2Proof.Machine.execGo l s
  | .nogo l => Sys2Proof.Machine.execNogo l s
  | .launchGoTimeout => Sys2Proof.Machine.execLaunchGoTimeout s
  | .decisionPoint => Sys2Proof.Machine.execDecisionPoint s
  | .verdictPoint dw => Sys2Proof.Machine.execVerdictPoint dw s
  | .stretch tick k src => Sys2Proof.Machine.execStretch tick k src s
  | .abort pkg cause tick => Sys2Proof.Machine.execAbort pkg cause tick s
  | .void pkg tick => Sys2Proof.Machine.execVoid pkg tick s
  | .replayQuiesced => Sys2Proof.Machine.execReplayQuiesced s
  | .replayStart => Sys2Proof.Machine.execReplayStart s
  | .replayMark src tick => Sys2Proof.Machine.execReplayMark src tick s
  | .tickBoundary => Sys2Proof.Machine.execTickBoundary s
  | .ibLateSwap c => Sys2Proof.Machine.execIbLateSwap c s
  | .nop iss => Sys2Proof.Machine.execNop iss s
  | .wait iss => Sys2Proof.Machine.execWait iss s
  | .waitGrant c e cyc => Sys2Proof.Machine.execWaitGrant c e cyc s
  | .sadd iss => Sys2Proof.Machine.execSadd iss s
  | .ssub iss => Sys2Proof.Machine.execSsub iss s
  | .tend iss => Sys2Proof.Machine.execTend iss s
  | .halt iss => Sys2Proof.Machine.execHalt iss s
  | .fmt iss => Sys2Proof.Machine.execFmt iss s
  | .ldw iss => Sys2Proof.Machine.execLdw iss s
  | .sww iss => Sys2Proof.Machine.execSww iss s
  | .mma iss first => Sys2Proof.Machine.execMma iss first s
  | .feederResume c e wgt cyc => Sys2Proof.Machine.execFeederResume c e wgt cyc s
  | .drn iss => Sys2Proof.Machine.execDrn iss s
  | .pair iss other => Sys2Proof.Machine.execPair iss other s
  | .mvm iss => Sys2Proof.Machine.execMvm iss s
  | .mvd iss veToo => Sys2Proof.Machine.execMvd iss veToo s
  | .vop iss => Sys2Proof.Machine.execVop iss s
  | .vsf iss => Sys2Proof.Machine.execVsf iss s
  | .vred iss => Sys2Proof.Machine.execVred iss s
  | .vqnt iss => Sys2Proof.Machine.execVqnt iss s
  | .vrng iss => Sys2Proof.Machine.execVrng iss s
  | .vcvt iss => Sys2Proof.Machine.execVcvt iss s
  | .vsel iss => Sys2Proof.Machine.execVsel iss s
  | .mrd iss => Sys2Proof.Machine.execMrd iss s
  | .mwr iss => Sys2Proof.Machine.execMwr iss s
  | .send iss => Sys2Proof.Machine.execSend iss s
  | .hsnd iss => Sys2Proof.Machine.execHsnd iss s
  | .coll iss => Sys2Proof.Machine.execColl iss s
  | .pan iss => Sys2Proof.Machine.execPan iss s
  | .ild iss => Sys2Proof.Machine.execIld iss s
  | .csav iss => Sys2Proof.Machine.execCsav iss s
  | .crst iss => Sys2Proof.Machine.execCrst iss s
  | .tst iss => Sys2Proof.Machine.execTst iss s
  | .instructionComplete c e cyc => Sys2Proof.Machine.execInstructionComplete c e cyc s
  | .doorwayArrival c cyc lost acc => Sys2Proof.Machine.execDoorwayArrival c cyc lost acc s
  | .memoryRunPost c k tick seq cyc => Sys2Proof.Machine.execMemoryRunPost c k tick seq cyc s
  | .deadlock c cyc => Sys2Proof.Machine.execDeadlock c cyc s
  | .coreGate c => Sys2Proof.Machine.execCoreGate c s
  | .coreUngate c => Sys2Proof.Machine.execCoreUngate c s
  | .runRequest k c => Sys2Proof.Machine.execRunRequest k c s
  | .runStart k c bt host => Sys2Proof.Machine.execRunStart k c bt host s
  | .runEnd k c parity ecc acc lost => Sys2Proof.Machine.execRunEnd k c parity ecc acc lost s
  | .refreshWindow k c bt => Sys2Proof.Machine.execRefreshWindow k c bt s
  | .makeupWindow k c bt => Sys2Proof.Machine.execMakeupWindow k c bt s
  | .stkMarginStart k => Sys2Proof.Machine.execStkMarginStart k s
  | .marginStep k bt fin => Sys2Proof.Machine.execMarginStep k bt fin s
  | .channelZeroingDone k => Sys2Proof.Machine.execChannelZeroingDone k s
  | .gradWr k c sv => Sys2Proof.Machine.execGradWr k c sv s
  | .gradAdd k c sv => Sys2Proof.Machine.execGradAdd k c sv s
  | .scatterAdd k c sv => Sys2Proof.Machine.execScatterAdd k c sv s
  | .sweep k c sv => Sys2Proof.Machine.execSweep k c sv s
  | .panExport k => Sys2Proof.Machine.execPanExport k s
  | .panImport k => Sys2Proof.Machine.execPanImport k s
  | .exportDone k => Sys2Proof.Machine.execExportDone k s
  | .gnsClr k => Sys2Proof.Machine.execGnsClr k s
  | .egressSlot p slot => Sys2Proof.Machine.execEgressSlot p slot s
  | .frameReceive p f corr uncorr => Sys2Proof.Machine.execFrameReceive p f corr uncorr s
  | .nakTimeout p => Sys2Proof.Machine.execNakTimeout p s
  | .replayTimeout p => Sys2Proof.Machine.execReplayTimeout p s
  | .retrainDone p => Sys2Proof.Machine.execRetrainDone p s
  | .lossOfLight p => Sys2Proof.Machine.execLossOfLight p s
  | .retrainTimeout p => Sys2Proof.Machine.execRetrainTimeout p s
  | .rebind p e => Sys2Proof.Machine.execRebind p e s
  | .rebindAck p e => Sys2Proof.Machine.execRebindAck p e s
  | .rebindRepeat p => Sys2Proof.Machine.execRebindRepeat p s
  | .rebindTimeout p => Sys2Proof.Machine.execRebindTimeout p s
  | .identTimer p => Sys2Proof.Machine.execIdentTimer p s
  | .ident p m => Sys2Proof.Machine.execIdent p m s
  | .laserSafe p => Sys2Proof.Machine.execLaserSafe p s
  | .portLaserWrite p en => Sys2Proof.Machine.execPortLaserWrite p en s
  | .lockstep tick f data => Sys2Proof.Machine.execLockstep tick f data s
  | .reductionAdd part ctx seg k bad => Sys2Proof.Machine.execReductionAdd part ctx seg k bad s
  | .guestRd f => Sys2Proof.Machine.execGuestRd f s
  | .guestWr f => Sys2Proof.Machine.execGuestWr f s
  | .strmOut f => Sys2Proof.Machine.execStrmOut f s
  | .guestLink f => Sys2Proof.Machine.execGuestLink f s
  | .guestAckTimer => Sys2Proof.Machine.execGuestAckTimer s
  | .guestRequestServe sv => Sys2Proof.Machine.execGuestRequestServe sv s
  | .guestPwr => Sys2Proof.Machine.execGuestPwr s
  | .moduleLost m => Sys2Proof.Machine.execModuleLost m s
  | .gstReset => Sys2Proof.Machine.execGstReset s
  | .resetDone m0 m1 guest => Sys2Proof.Machine.execResetDone m0 m1 guest s
  | .discReq d port frame => Sys2Proof.Machine.execDiscReq d port frame s
  | .discRsp d port frame => Sys2Proof.Machine.execDiscRsp d port frame s
  | .discRetry d port => Sys2Proof.Machine.execDiscRetry d port s
  | .bundleFlit d b seq bad => Sys2Proof.Machine.execBundleFlit d b seq bad s
  | .drainReqPin => Sys2Proof.Machine.execDrainReqPin s
  | .fltDrainCmdDrain => Sys2Proof.Machine.execFltDrainCmdDrain s
  | .fltDrainCmdRelease => Sys2Proof.Machine.execFltDrainCmdRelease s
  | .drained => Sys2Proof.Machine.execDrained s
  | .testBlockCompare lead e j sigLead sigOther => Sys2Proof.Machine.execTestBlockCompare lead e j sigLead sigOther s
  | .inputSwitchClose => Sys2Proof.Machine.execInputSwitchClose s
  | .pwrEnLow => Sys2Proof.Machine.execPwrEnLow s
  | .inputUndervoltage removed => Sys2Proof.Machine.execInputUndervoltage removed s
  | .inputOvervoltage => Sys2Proof.Machine.execInputOvervoltage s
  | .inputOvercurrent => Sys2Proof.Machine.execInputOvercurrent s
  | .inputReverseCurrent => Sys2Proof.Machine.execInputReverseCurrent s
  | .limiterEval m => Sys2Proof.Machine.execLimiterEval m s
  | .ballastStep d => Sys2Proof.Machine.execBallastStep d s
  | .boostClockUpdate fit => Sys2Proof.Machine.execBoostClockUpdate fit s
  | .sensorScan r => Sys2Proof.Machine.execSensorScan r s
  | .thermalCapStep => Sys2Proof.Machine.execThermalCapStep s
  | .tjTrip site t => Sys2Proof.Machine.execTjTrip site t s
  | .dramCrit k => Sys2Proof.Machine.execDramCrit k s
  | .flowEstimate power rise => Sys2Proof.Machine.execFlowEstimate power rise s
  | .coolantLoss => Sys2Proof.Machine.execCoolantLoss s
  | .inletCrit => Sys2Proof.Machine.execInletCrit s
  | .coolantCheck power => Sys2Proof.Machine.execCoolantCheck power s
  | .sensorPoll answers => Sys2Proof.Machine.execSensorPoll answers s
  | .sensorRepoll n answer => Sys2Proof.Machine.execSensorRepoll n answer s
  | .snsBusRetry pulses => Sys2Proof.Machine.execSnsBusRetry pulses s
  | .bringupP0 => Sys2Proof.Machine.execBringupP0 s
  | .fwAuth slot0 slot1 => Sys2Proof.Machine.execFwAuth slot0 slot1 s
  | .discovery guest => Sys2Proof.Machine.execDiscovery guest s
  | .atticRestore bad => Sys2Proof.Machine.execAtticRestore bad s
  | .training t => Sys2Proof.Machine.execTraining t s
  | .errorRateCheck r => Sys2Proof.Machine.execErrorRateCheck r s
  | .selfTest r => Sys2Proof.Machine.execSelfTest r s
  | .bringupZeroing => Sys2Proof.Machine.execBringupZeroing s
  | .ready => Sys2Proof.Machine.execReady s
  | .topResetCmd view w => Sys2Proof.Machine.execTopResetCmd view w s
  | .perstN => Sys2Proof.Machine.execPerstN s
  | .atticWriteCommit => Sys2Proof.Machine.execAtticWriteCommit s
  | .atticPackageTimer => Sys2Proof.Machine.execAtticPackageTimer s
  | .atticSync => Sys2Proof.Machine.execAtticSync s
  | .clearSettings => Sys2Proof.Machine.execClearSettings s
  | .coldNext => Sys2Proof.Machine.execColdNext s
  | .planLoad f => Sys2Proof.Machine.execPlanLoad f s
  | .planLoadDone f model => Sys2Proof.Machine.execPlanLoadDone f model s
  | .unload f => Sys2Proof.Machine.execUnload f s
  | .restart f => Sys2Proof.Machine.execRestart f s
  | .partOwnerCmd => Sys2Proof.Machine.execPartOwnerCmd s
  | .zeroed => Sys2Proof.Machine.execZeroed s
  | .partRunStart => Sys2Proof.Machine.execPartRunStart s
  | .partRunStop => Sys2Proof.Machine.execPartRunStop s
  | .pageEnable r pg => Sys2Proof.Machine.execPageEnable r pg s
  | .pageDisable r pg => Sys2Proof.Machine.execPageDisable r pg s
  | .registerWrite r addr w => Sys2Proof.Machine.execRegisterWrite r addr w s
  | .postedWriteDone pg => Sys2Proof.Machine.execPostedWriteDone pg s
  | .pgEvtAck r pg w => Sys2Proof.Machine.execPgEvtAck r pg w s
  | .pgEvtSeqRead r pg => Sys2Proof.Machine.execPgEvtSeqRead r pg s
  | .tickCountLoRead r => Sys2Proof.Machine.execTickCountLoRead r s
  | .tickLaunchLoRead r => Sys2Proof.Machine.execTickLaunchLoRead r s
  | .tickJobLoRead r => Sys2Proof.Machine.execTickJobLoRead r s
  | .panLowWordRead r k q => Sys2Proof.Machine.execPanLowWordRead r k q s
  | .panGnsSmall0Read r k => Sys2Proof.Machine.execPanGnsSmall0Read r k s
  | .fltLogDataRead r => Sys2Proof.Machine.execFltLogDataRead r s
  | .atticHistDataRead r => Sys2Proof.Machine.execAtticHistDataRead r s
  | .cwAddrWrite r w => Sys2Proof.Machine.execCwAddrWrite r w s
  | .cwDataWrite r w => Sys2Proof.Machine.execCwDataWrite r w s
  | .cwDataRead r => Sys2Proof.Machine.execCwDataRead r s
  | .coreWinAccessDone r ecc => Sys2Proof.Machine.execCoreWinAccessDone r ecc s
  | .dmaStart n => Sys2Proof.Machine.execDmaStart n s
  | .dmaDone n => Sys2Proof.Machine.execDmaDone n s
  | .bar2Access f off len wr sv => Sys2Proof.Machine.execBar2Access f off len wr sv s
  | .winAddr bs pec => Sys2Proof.Machine.execWinAddr bs pec s
  | .winRead => Sys2Proof.Machine.execWinRead s
  | .winWrite bs pec => Sys2Proof.Machine.execWinWrite bs pec s
  | .state => Sys2Proof.Machine.execState s
  | .winStatus => Sys2Proof.Machine.execWinStatus s
  | .guestReplayTimeout => Sys2Proof.Machine.execGuestReplayTimeout s
  | .guestRetrain m0 m1 byGuest lostOut => Sys2Proof.Machine.execGuestRetrain m0 m1 byGuest lostOut s
  | .lightReturns p => Sys2Proof.Machine.execLightReturns p s
  | .linkChange l => Sys2Proof.Machine.execLinkChange l s
  | .hotReset => Sys2Proof.Machine.execHotReset s
  | .functionLevelReset f => Sys2Proof.Machine.execFunctionLevelReset f s
  | .alertResponse => Sys2Proof.Machine.execAlertResponse s
  | .convFault stage => Sys2Proof.Machine.execConvFault stage s

end Sys2Proof.Machine
end

