-- ==== Sys2Proof/Safety.lean ====
section
/-! DEFINITION. The terms in which statements are made: what a command leaves unchanged, and the
canonical form that every reachable state has. -/

namespace Sys2Proof.Machine

/-- The parts of the state. -/
inductive Part where
  | pending | freeCtr | out | fuse | counter | sync | tick | cores | mesh | transit | mem | flt | hist | ports
  | hall | refresh | rowMaps | secStop | chans | stks | pans | plans | secs | redirect | reduce | guest | hearth
  | sns | attic | bu | hif | regs | latch
  deriving DecidableEq, Repr

/-- The two states agree on a part. -/
def Part.same : Part → State → State → Prop
  | .pending, s, t => t.pending = s.pending
  | .freeCtr, s, t => t.freeCtr = s.freeCtr
  | .out, s, t => t.out = s.out
  | .fuse, s, t => t.fuse = s.fuse
  | .counter, s, t => t.counter = s.counter
  | .sync, s, t => t.sync = s.sync
  | .tick, s, t => t.tick = s.tick
  | .cores, s, t => t.cores = s.cores
  | .mesh, s, t => t.mesh = s.mesh
  | .transit, s, t => t.transit = s.transit
  | .mem, s, t => t.mem = s.mem
  | .flt, s, t => t.flt = s.flt
  | .hist, s, t => t.hist = s.hist
  | .ports, s, t => t.ports = s.ports
  | .hall, s, t => t.hall = s.hall
  | .refresh, s, t => t.refresh = s.refresh
  | .rowMaps, s, t => t.rowMaps = s.rowMaps
  | .secStop, s, t => t.secStop = s.secStop
  | .chans, s, t => t.chans = s.chans
  | .stks, s, t => t.stks = s.stks
  | .pans, s, t => t.pans = s.pans
  | .plans, s, t => t.plans = s.plans
  | .secs, s, t => t.secs = s.secs
  | .redirect, s, t => t.redirect = s.redirect
  | .reduce, s, t => t.reduce = s.reduce
  | .guest, s, t => t.guest = s.guest
  | .hearth, s, t => t.hearth = s.hearth
  | .sns, s, t => t.sns = s.sns
  | .attic, s, t => t.attic = s.attic
  | .bu, s, t => t.bu = s.bu
  | .hif, s, t => t.hif = s.hif
  | .regs, s, t => t.regs = s.regs
  | .latch, s, t => t.latch = s.latch

/-- Nothing but the listed parts differs. -/
def ChangesOnly (ps : List Part) (s t : State) : Prop := ∀ p, p ∉ ps → p.same s t

/-- The command completes: `exec` answers a next state, of which `P` holds. -/
def Answers (i : Instr) (s : State) (P : State → Prop) : Prop := ∃ t, exec i s = .next t ∧ P t

/-- No register field but the listed ones differs. -/
def RegsBut (fs : List Fld) (s t : State) : Prop :=
  ∀ k, k ∉ fs.map fldKey → smGet 0 t.regs k = smGet 0 s.regs k

/-- The fields that raising an event may write: the event bits, SEQ and LAP of its page. -/
def evFlds (e : Ev) : List Fld := [R.PG_EVT.EVT e.page, R.PG_EVT_SEQ.SEQ e.page, R.PG_EVT_SEQ.LAP e.page]

/-- The event's bit of PG_EVT is set. -/
def raised (e : Ev) (s : State) : Prop := bitsOf (getF s (R.PG_EVT.EVT e.page)) e.bit 1 = 1

/-- Every store that the state holds directly is in its canonical form (log 30), and the global counter has 64 bits. -/
def Canonical (s : State) : Prop :=
  smWf 0 s.mem = true ∧ smWf 0 s.regs = true ∧ smWf core0 s.cores = true ∧ smWf port0 s.ports = true ∧
  smWf chan0 s.chans = true ∧ smWf stack0 s.stks = true ∧ smWf pan0 s.pans = true ∧ smWf hist0 s.hist = true ∧
  smWf none s.plans = true ∧ smWf none s.secs = true ∧ smWf 0 s.secStop = true ∧ smWf 0 s.redirect = true ∧
  smWf [] s.rowMaps = true ∧ smWf none s.latch = true ∧ s.counter < 2 ^ 64

/-! ### Points of the tick -/

/-- The package stands at D: the tick's guard writes are in memory again (R72). -/
def AtD (s : State) : State := redoGuest { s with tick := { s.tick with atD := true } }

/-! ### The issue of an instruction -/

/-- The engine that a row names, as it stands. -/
def engOf (i : Issue) (s : State) : Eng := getEng (getCore s i.core.lcid) i.eng.no

/-- The engine may issue in the row's cycle, no fetch meets a parity error and no access is displaced; the word
where it stands is `w`, of opcode `op` and one that the engine may issue, followed by `x` when it takes two words
(R82, R83, R94, R95, R111, R158). -/
def Fetches (i : Issue) (op w x : Nat) (s : State) : Prop :=
  canIssue s i = true ∧ i.parity = false ∧ i.acc = [] ∧
  fetchWord (getCore s i.core.lcid) (engOf i s).idx = w ∧ wOp w = op ∧
  wordLegal (getCore s i.core.lcid) i.eng w = true ∧
  (engOf i s).idx + (if twoWord op then 1 else 0) < listLen (getCore s i.core.lcid) ∧
  (twoWord op = true → fetchWord (getCore s i.core.lcid) ((engOf i s).idx + 1) = x)

/-- A core without its engines and without the instructions that have yet to complete. -/
def bare (c : Core) : Core := { c with engs := [], outst := [] }

/-- The mode of an engine that has issued and goes on: of a stopped filler only LD's first word runs (R381). -/
def goesOn (i : Issue) (s : State) : EngMode := if (getCore s i.core.lcid).lone then .atTend else .running

/-- An instruction that has issued and completes in cycle `due` (R83). -/
def doneAt (i : Issue) (w due : Nat) : Outst := { eng := i.eng.no, due := some due, p := wP w, ps := wPS w, run := none }

/-- What an instruction that issued leaves: its engine stands past its words in mode `m` and may issue from cycle
`free`; `o` has been added to what has yet to complete; its V mark is counted (R47); of its core only what `hide`
blanks out differs, of the state only the parts `ps`; no other engine, core or register differs. -/
structure Issued (i : Issue) (w free : Nat) (m : EngMode) (o : List Outst) (hide : Core → Core) (ps : List Part)
    (s t : State) : Prop where
  eng : engOf i t = { mode := m, idx := (engOf i s).idx + (if twoWord (wOp w) then 2 else 1), free := free }
  others : ∀ e, e ≠ i.eng.no → getEng (getCore t i.core.lcid) e = getEng (getCore s i.core.lcid) e
  outst : (getCore t i.core.lcid).outst = (getCore s i.core.lcid).outst ++ o
  core : hide (bare (getCore t i.core.lcid)) = hide (bare (getCore s i.core.lcid))
  cores : ∀ d, d ≠ i.core.lcid → getCore t d = getCore s d
  count : getF t R.TOP_VARIANCE_CNT.COUNT =
    if wV w then satAdd (2 ^ 32 - 1) (getF s R.TOP_VARIANCE_CNT.COUNT) 1 else getF s R.TOP_VARIANCE_CNT.COUNT
  regs : RegsBut [R.TOP_VARIANCE_CNT.COUNT] s t
  parts : ChangesOnly ([.cores, .regs] ++ ps) s t

/-- The value of a semaphore at the start of a cycle, and what the takes granted and the changes made in that
cycle come to (R97, R98). -/
def semStart (c : Core) (cyc k : Nat) : Nat :=
  if c.semCyc ≠ cyc ∧ k ∈ semTouched c then semVal c k else smGet 0 c.sem k
def semTaken (c : Core) (cyc k : Nat) : Nat := if c.semCyc = cyc then smGet 0 c.semTake k else 0
def semAdded (c : Core) (cyc k : Nat) : Int := if c.semCyc = cyc then smGet 0 c.semDelta k else 0

/-- A core without its Bell board. -/
def noSems (c : Core) : Core := { c with sem := [], semCyc := 0, semDelta := [], semTake := [], semWaits := [] }

/-- The core's Bell board stands in cycle `cyc` or may pass to it without a fault (R99), and no WAIT of the cycle has been
judged. -/
def OpensCycle (l cyc : Nat) (s : State) : Prop :=
  if (getCore s l).semCyc = cyc then (getCore s l).semWaits = [] ∧ (getCore s l).semTake = [] else semFaults s l = []

/-- No core of the die reports DEADLOCK, nor does the die (R107, R108). -/
def NoneDead (d : Nat) (s : State) : Prop :=
  (∀ e ∈ s.cores, e.2.dead = false) ∧ getF s (R.DIE_DEADLOCK_STA.WHOLE d) = 0

/-- In cycle `cyc` semaphore `k` has `take` taken from it and `add` added to it, beside what the cycle held; no
other semaphore changes. -/
def SemMoves (cyc k take : Nat) (add : Int) (c d : Core) : Prop :=
  d.semCyc = cyc ∧ (∀ j, semStart d cyc j = semStart c cyc j) ∧
  (∀ j, semTaken d cyc j = semTaken c cyc j + (if j = k then take else 0)) ∧
  ∀ j, semAdded d cyc j = semAdded c cyc j + (if j = k then add else 0)

/-- Element `k` of a streamed result of FP32 or 32-bit words: a lane of the DST registers, or four bytes of the
DST lines (R164). -/
def vResult (c : Core) (w k : Nat) : Word :=
  if fVDr w then vLane c (fVDst w % 32 + k / 16) (k % 16) else BitVec.ofNat 32 (leNat (lsRead c (64 * fVDst w + 4 * k) 4))

/-- The result of `n` elements of `b` bytes fits: in the 32 registers, or in the local store (R156, R86). -/
def vFits (w n b : Nat) : Prop := if fVDr w then n ≤ 512 else 64 * fVDst w + b * n ≤ lsBytes

/-- A core without its vector registers, its local store and what follows the store's writes. -/
def noVec (c : Core) : Core := { c with ls := [], fresh := [], sig := 0, vreg := [] }

/-- A vector instruction wrote `n` elements in `bytes` bytes at its DST, and nothing else: either registers or lines. -/
def VecWrote (w dst n bytes : Nat) (c d : Core) : Prop :=
  if fVDr w then
    d.ls = c.ls ∧ ∀ r l, r < 32 → l < 16 → (∀ k, k < n → r ≠ (dst % 32 + k / 16) % 32 ∨ l ≠ k % 16) → vLane d r l = vLane c r l
  else d.vreg = c.vreg ∧ ∀ a, (a < 64 * dst ∨ 64 * dst + bytes ≤ a) → lsByte d a = lsByte c a

/-- A transfer that reads memory put run `r` on its way: its data is awaited, and the instruction completes with it. -/
def ReadRun (i : Issue) (w : Nat) (r : Run) (s t : State) : Prop :=
  Issued i w (i.cyc + 1) (goesOn i s)
    [{ eng := i.eng.no, due := none, p := wP w, ps := wPS w, run := some (r.pa / 2 ^ 36, r.tick, r.seq) }]
    (fun c => { c with landing := [] }) [.transit] s t ∧
  t.transit = s.transit ++ [r] ∧
  (getCore t i.core.lcid).landing = (getCore s i.core.lcid).landing ++
    [{ stack := r.pa / 2 ^ 36, tick := r.tick, seq := r.seq, cnt := r.cnt, sem := r.sem, bank := r.bank, landed := false }]

/-- Transfer `m` is the one that arrives at a core in a cycle: of those on their way to it, `l ++ m :: r`, the first whose
cycle it is (R59, R60, R103). -/
def Arrives (c : CoreId) (cyc : Nat) (m : Xfer) (l r : List Xfer) (s : State) : Prop :=
  s.mesh = l ++ m :: r ∧ (∀ q ∈ l, q.dst ≠ c.lcid ∨ arrivesAt s cyc q = false) ∧ m.dst = c.lcid ∧ arrivesAt s cyc m = true

/-- Run `r` is the next to arrive at a channel: of the runs in transit, `l ++ r :: rest`, those before it on the channel are of
its tick and arrive later, and none behind it of its tick arrives before it (R193). -/
def NextToArrive (ch : Nat) (r : Run) (l rest : List Run) (s : State) : Prop :=
  s.transit = l ++ r :: rest ∧ chanOf r.pa = ch ∧
  (∀ q ∈ l, chanOf q.pa = ch → q.tick = r.tick ∧ arrives r q = true) ∧
  ∀ q ∈ rest, chanOf q.pa = ch → q.tick = r.tick → arrives q r = false

/-- The run is not one of host work (R200). -/
def NotHost (r : Run) : Prop := ∀ j wr, r.kind ≠ .host j wr

/-- No core differs but for the cycle in which its last inbound transfer ended (R105). -/
def CoresKeep (s t : State) : Prop := ∀ d, { getCore t d with inboundEnd := 0 } = { getCore s d with inboundEnd := 0 }

/-! ### Pantry commands and transfers -/

/-- An access is served without a parity error or a finding of the storage code (R201, R204). -/
def Clean (sv : Served) : Prop := sv.errs = 0 ∧ sv.ecc = .clean

/-- An access of the primary stands at the head of the queue of a free channel that owes no retry, in a package that does
not drain, where it may start, and is served clean (R193, R195, R201, R227). -/
def PanHead (k : StackNo) (c : ChanNo) (sv : Served) (r : Run) (rest : List Run) (s : State) : Prop :=
  (getChan s (chanKey k c)).queue = r :: rest ∧ (getChan s (chanKey k c)).retry = none ∧
  chanFree s (chanKey k c) sv.bt = true ∧ mayStart s k c sv.bt r = true ∧ s.tick.draining = false ∧ r.part = 0 ∧ Clean sv

/-- A transfer of Pantry `k` has ended without success, with its cause (Table 8.11). -/
def ExpFailed (k cause : Nat) (t : State) : Prop :=
  getF t (R.PAN_EXP_STA.BUSY k) = 0 ∧ getF t (R.PAN_EXP_STA.DONE k) = 0 ∧ getF t (R.PAN_EXP_STA.FAIL k) = 1 ∧
  getF t (R.PAN_EXP_STA.CAUSE k) = cause ∧ (getPan t k).xfer = none ∧ raised (E.PANTRY.EXPORT_FAIL k) t

/-! ### Ports, the Landing, the guest -/

/-- The port sends in every slot: it is up, not retraining, and its laser is enabled (R251, R259). -/
def PortSends (p : PortNo) (s : State) : Prop :=
  getF s (R.PORT_STA.UP p) = 1 ∧ (getPort s p).retraining = false ∧ getF s (R.PORT_LASER.EN p) = 1

/-- A DATA frame of the tick finds its place in the primary's Landing (R41, R42, R270). -/
def LandsHere (f : Frame) (s : State) : Prop :=
  running s = true ∧ framePart s f.seq = 0 ∧ f.tick = tickNum s ∧ f.src ∉ s.tick.voidedSrcs ∧
  (consumers s 0 f.src f.stream).isEmpty = false ∧
  (∀ g ∈ s.hall.land, ¬ (g.src = f.src ∧ g.tick = f.tick ∧ g.seq = f.seq)) ∧ landUse s 0 < landShare s 0

/-- The link of port `k` has moved to its duplicate `j` (R269). -/
def LinkMoved (k j : Nat) (s t : State) : Prop :=
  getF t (R.PORT_STA.ACTIVE j) = 1 ∧ getF t (R.PORT_STA.NOWFOR j) = k % 2 ^ 6 ∧ getF t (R.PORT_STA.REBOUND k) = 1 ∧
  getF t (R.PORT_STA.DOWN k) = 1 ∧ getF t (R.PORT_STA.ACTIVE k) = 0 ∧ raised (E.PORCH.REBOUND k) t ∧
  (getPort t j).e = (getPort s k).e ∧ (getPort t j).lseq = (getPort s k).lseq ∧
  (getPort t j).planned = (getPort s k).planned ∧ (getPort t k).held = [] ∧ (getPort t k).planned = []

/-- A sequenced flit that the guest's link expects, whole, on a link that is up, from a guest that is not fenced (R71). -/
def FromGuest (f : GFlit) (s : State) : Prop :=
  guestUp s = true ∧ gCrc f = f.crc ∧ guestFenced s = false ∧ gDist f.seq s.guest.e = 0

/-- The oldest request of the guest may be served at a byte time: the channel is free, the time unplanned, and no host
work goes first (R72, R200). -/
def GuestServes (sv : Served) (q : GReq) (s : State) : Prop :=
  running s = true ∧ chanFree s (chanOf q.addr) sv.bt = true ∧
  unplanned s (chanOf q.addr / 32) (chanOf q.addr % 32) sv.bt (occOf (64 * q.len)) = true ∧
  hostAhead s (chanOf q.addr / 32) (chanOf q.addr % 32) sv.bt q.order = false ∧
  (getStk s (chanOf q.addr / 32)).stepOn = false ∧ Clean sv

/-- The leader of a pair, neither core fenced, compares block `j` of an engine for the first time in the tick (R313 to R317). -/
def TestCompares (c : CoreId) (e : Engine) (n j : Nat) (s : State) : Prop :=
  testEngine e = some n ∧ isLeader s c = true ∧ testCompared s c.lcid e.no = true ∧ coreFenced s c.lcid = false ∧
  coreFenced s (partner s c) = false ∧ ∀ x ∈ (getCore s c.lcid).tests, ¬ (x.1 = n ∧ x.2.1 = j)

end Sys2Proof.Machine
end

