-- ==== Sys2Proof/Certificates/Slice0/Obligations.lean ====
section
/-! DEFINITION. The statements for the provers. Each docstring names the rules it formalises; a clause that rests
on a choice of the model names its log entry. -/

open Sys2Proof Sys2Proof.Machine

/-! ### The queue, reset and the shape of every state -/

/-- The command at the front of the queue is executed on the state with the queue's rest. -/
def Obligations.StepRunsTheFrontCommand : Prop :=
  ∀ (c : Instr) (rest : List Instr) (s : State), s.pending = c :: rest → step s = exec c { s with pending := rest }

/-- With no command waiting the global counter takes its next value (R10: one count per nanosecond, 64 bits); that the step is one
nanosecond of the reference is the model's choice (log 1). Where a nanosecond of a correction is due (R12), the counter takes a
value more than the reference gives, or a nanosecond passes at a standing count (log 5): no value is skipped or stepped back to. -/
def Obligations.EmptyQueueCountsOneNanosecond : Prop :=
  (∀ s : State, s.pending = [] → slewDue s = false →
    step s = .next { s with counter := (s.counter + 1) % 2 ^ 64, sync := { s.sync with ref := min 10000 (s.sync.ref + 1) } }) ∧
  (∀ s : State, s.pending = [] → slewDue s = true → 0 < s.sync.slew →
    step s = .next { s with counter := (s.counter + 1) % 2 ^ 64, sync := { s.sync with slew := s.sync.slew - 1, ref := 0 } }) ∧
  (∀ s : State, s.pending = [] → slewDue s = true → s.sync.slew < 0 →
    step s = .next { s with sync := { s.sync with slew := s.sync.slew + 1, ref := 0 } }) ∧
  ∀ s : State, slewDue s = true ↔ isRoot s = false ∧ s.sync.slew ≠ 0 ∧ 10000 ≤ s.sync.ref

/-- At first power-on every register field reads its First power-on value, the package is in BRINGUP with its input
switch open, every byte of memory reads 0 (the model's choice, log 8), and the state is canonical. -/
def Obligations.ResetShowsFirstPowerOnValues : Prop :=
  Canonical State.reset ∧ State.reset.pending = [] ∧ State.reset.counter = 0 ∧ State.reset.hearth.closed = false ∧
  topState State.reset = stBringup ∧ (∀ f : Fld, getF State.reset f = f.por) ∧ ∀ a, rdMem State.reset a = 0

/-- Whatever command runs, every store keeps its canonical form and the global counter its 64 bits. -/
def Obligations.EveryStepKeepsTheCanonicalForm : Prop :=
  ∀ s t : State, Canonical s → step s = .next t → Canonical t

/-- No step changes a fused value, and the queue only ever loses its front. -/
def Obligations.NoStepTouchesFusesOrTheWaitingQueue : Prop :=
  ∀ s t : State, Canonical s → step s = .next t → t.fuse = s.fuse ∧ t.pending = s.pending.tail

/-- No command is refused, and the one fault is that of a transfer that names no memory (R190). -/
def Obligations.OnlyTransfersOutsideMemoryStop : Prop :=
  ∀ (c : Instr) (s : State),
    (∃ t, exec c s = .next t) ∨
    ∃ pa i, exec c s = .fault (.noMemory pa) ∧
      (c = .mrd i ∨ c = .mwr i ∨ c = .pan i ∨ c = .ild i ∨ c = .csav i ∨ c = .crst i)

/-- Raising an event (R406, R408): its bit is set, SEQ counts it modulo 2¹⁶, LAP toggles where SEQ wraps, no other
register changes, and its MSI-X vector goes to PF0 exactly where PF0's enable bit is 1 (R385). -/
def Obligations.RaisingAnEventSetsItsBitAndCounts : Prop :=
  ∀ (e : Ev) (s : State), Canonical s → e.bit < 16 →
    raised e (raise e s) ∧
    (∀ b, b < 16 → b ≠ e.bit → bitsOf (getF (raise e s) (R.PG_EVT.EVT e.page)) b 1 = bitsOf (getF s (R.PG_EVT.EVT e.page)) b 1) ∧
    getF (raise e s) (R.PG_EVT_SEQ.SEQ e.page) = (getF s (R.PG_EVT_SEQ.SEQ e.page) + 1) % 2 ^ 16 ∧
    (getF s (R.PG_EVT_SEQ.SEQ e.page) ≠ 2 ^ 16 - 1 →
      getF (raise e s) (R.PG_EVT_SEQ.LAP e.page) = getF s (R.PG_EVT_SEQ.LAP e.page)) ∧
    (getF s (R.PG_EVT_SEQ.SEQ e.page) = 2 ^ 16 - 1 →
      getF (raise e s) (R.PG_EVT_SEQ.LAP e.page) = (1 - getF s (R.PG_EVT_SEQ.LAP e.page)) % 2) ∧
    RegsBut (evFlds e) s (raise e s) ∧ ChangesOnly [.regs, .out, .hif] s (raise e s) ∧
    (e.page < 0x1000 → e.page ≠ 0x52 →
      (raise e s).out.msix = s.out.msix ++
        if bitsOf (getF s (R.PG_EVT_EN.EN e.page)) e.bit 1 = 1 then [(0, 16 * e.page + e.bit)] else [])

/-! ### The tick: synchronisation (R10 to R14) -/

/-- R10, R12, R13: a sync period sends TIME_REQ with t1 toward the root; TIME_REQ is answered with t1, t2, t3; TIME_RSP
completes the exchange, steps the counter before lock and only slews after it; a missed period counts. -/
def Obligations.SyncExchangeMeasuresTheOffset : Prop :=
  (∀ (s : State) (p : Nat), isRoot s = false → syncRoute s = some p →
    Answers .syncPeriod s fun t =>
      t.sync.xchg = some s.counter ∧ ChangesOnly [.sync, .regs, .ports] s t ∧ RegsBut [R.TICK_SYNC_STA.HOPS] s t ∧
      ∃ f : Frame, f.cls = clsSync ∧ f.kind = 0 ∧ f.payload.take 8 = leBytes 8 s.counter ∧
        (getPort t p).syncQ = (getPort s p).syncQ ++ [⟨f, 0⟩]) ∧
  (∀ (s : State) (p : PortNo) (t1 : Nat) (copy : Bool),
    Answers (.timeReq p t1 copy) s fun t =>
      ChangesOnly [.ports] s t ∧
      ∃ f : Frame, f.cls = clsSync ∧ f.kind = 1 ∧
        f.payload.take 24 = leBytes 8 t1 ++ leBytes 8 (s.counter - if copy then 22 else 0) ++ leBytes 8 s.counter ∧
        (getPort t p).syncQ = (getPort s p).syncQ ++ [⟨f, 0⟩]) ∧
  (∀ (s : State) (p : PortNo) (t1 t2 t3 : Nat), Canonical s → isRoot s = false → s.sync.xchg = some t1 → s.sync.locked = false →
    running s = false →
    Answers (.timeRsp p t1 t2 t3 false) s fun t =>
      t.sync.xchg = none ∧ t.sync.locked = true ∧ getF t R.TICK_SYNC_STA.LOCK = 1 ∧ getF t R.TICK_SYNC_STA.MISSED = 0 ∧
      (t.counter : Int) = ((s.counter : Int) + syncOffset t1 t2 t3 s.counter) % (2 ^ 64 : Nat)) ∧
  (∀ (s : State) (p : PortNo) (t1 t2 t3 : Nat), Canonical s → isRoot s = false → s.sync.xchg = some t1 →
    (s.sync.locked = true ∨ running s = true) →
    Answers (.timeRsp p t1 t2 t3 false) s fun t =>
      t.sync.xchg = none ∧ t.counter = s.counter ∧ t.sync.slew = syncOffset t1 t2 t3 s.counter ∧
      getF t R.TICK_SYNC_STA.LOCK = (if (syncOffset t1 t2 t3 s.counter).natAbs ≤ 25 then 1 else 0)) ∧
  (∀ s : State, Canonical s → isRoot s = false → getF s R.TICK_SYNC_STA.MISSED < 3 →
    Answers .syncPeriodMissed s fun t =>
      t.sync.xchg = none ∧ getF t R.TICK_SYNC_STA.MISSED = getF s R.TICK_SYNC_STA.MISSED + 1 ∧
      ChangesOnly [.sync, .regs] s t ∧ RegsBut [R.TICK_SYNC_STA.MISSED] s t)

/-! ### Launch (R21, R22) -/

/-- R21: an enable of the TICK page outside READY, less than 1 ms ahead, or without lock fails: LAUNCH_PAST, PG_CTL.EN 0,
and TOP_STATE as it stood. One that passes every check makes the launch pending and sets TICK_LAUNCH to L − m × TICK_LEN. -/
def Obligations.TickEnableChecksAndBeginsTheLaunch : Prop :=
  (∀ s : State, Canonical s → pageOpen s 0x03 = true → getF s (R.PG_CTL.EN 0x03) = 0 →
    (topState s ≠ stReady ∨ tickLaunch s < s.counter + 1000000 ∨ lockNow s = false) →
    Answers (.launchEnable (.pf 0)) s fun t =>
      raised E.TICK.LAUNCH_PAST t ∧ getF t (R.PG_CTL.EN 0x03) = 0 ∧ topState t = topState s ∧ t.tick.pend = s.tick.pend) ∧
  (∀ s : State, Canonical s → pageOpen s 0x03 = true → getF s (R.PG_CTL.EN 0x03) = 0 → launchOk s = true →
    Answers (.launchEnable (.pf 0)) s fun t =>
      t.tick.pend = some (tickLaunch s, launchDigest s (tickLaunch s)) ∧ t.tick.armed = false ∧
      tickLaunch t = subMod 64 (tickLaunch s) (resumeTick s * tickLen s) ∧
      getF t (R.PG_CTL.EN 0x03) = 1 ∧ topState t = topState s ∧ t.mem = s.mem ∧ t.cores = s.cores)

/-- R22: the root notes digests and at L − 200 000 ns sends GO when all agree and NOGO when not; GO arms a pending
launch; NOGO, or no GO by L − 100 000 ns, gives it up with LAUNCH_ABORT and PG_CTL.EN 0. -/
def Obligations.GoOrNogoDecidesAPendingLaunch : Prop :=
  (∀ (s : State) (src d : Nat), isRoot s = true →
    Answers (.launch src d) s fun t =>
      (src, d) ∈ t.tick.digests ∧ (∀ e ∈ t.tick.digests, e.1 = src → e.2 = d) ∧
      (∀ e ∈ s.tick.digests, e.1 ≠ src → e ∈ t.tick.digests) ∧ ChangesOnly [.tick] s t) ∧
  (∀ (s : State) (l own : Nat), Canonical s → s.tick.pend = some (l, own) → isRoot s = true → s.tick.armed = false →
    running s = false → allAgree s own = true →
    Answers .goDeadline s fun t => t.tick.armed = true ∧ t.tick.pend = some (l, own) ∧ ChangesOnly [.tick, .ports] s t) ∧
  (∀ (s : State) (l own : Nat), Canonical s → s.tick.pend = some (l, own) → isRoot s = true → s.tick.armed = false →
    running s = false → allAgree s own = false →
    Answers .goDeadline s fun t =>
      t.tick.pend = none ∧ raised E.TICK.LAUNCH_ABORT t ∧ getF t (R.PG_CTL.EN 0x03) = 0) ∧
  (∀ s : State, s.tick.pend.isSome = true → running s = false →
    Answers (.go (tickLaunch s)) s fun t => t = { s with tick := { s.tick with armed := true } }) ∧
  (∀ (s : State) (l : Nat), Canonical s → s.tick.pend.isSome = true → running s = false →
    Answers (.nogo l) s fun t =>
      t.tick.pend = none ∧ raised E.TICK.LAUNCH_ABORT t ∧ getF t (R.PG_CTL.EN 0x03) = 0 ∧ topState t = topState s) ∧
  (∀ s : State, Canonical s → s.tick.pend.isSome = true → running s = false → s.tick.armed = false →
    Answers .launchGoTimeout s fun t =>
      t.tick.pend = none ∧ raised E.TICK.LAUNCH_ABORT t ∧ getF t (R.PG_CTL.EN 0x03) = 0 ∧ topState t = topState s)

/-! ### Boundaries (R16, R26 to R35) -/

/-- R16: the boundary that closes tick n opens tick n + 1; one that falls where a planned drain names it, or after a
lock-step mismatch, opens none and the package drains. The launch begins at the resume tick m (R22). R93: the pending half that
becomes READY after the boundary is swapped in by a core that holds. -/
def Obligations.BoundaryOpensTheNextTick : Prop :=
  (∀ s : State, running s = true → s.tick.atV = true → s.tick.draining = false → s.tick.replay = .none → closeSems s = s →
    s.tick.haltNext = false → s.tick.planned ≠ some (s.tick.job + 1) →
    Answers .tickBoundary s fun t => t.tick.job = s.tick.job + 1) ∧
  (∀ s : State, running s = true → s.tick.atV = true → s.tick.draining = false → s.tick.replay = .none → closeSems s = s →
    (s.tick.haltNext = true ∨ s.tick.planned = some (s.tick.job + 1)) →
    Answers .tickBoundary s fun t => t.tick.job = s.tick.job ∧ t.tick.draining = true) ∧
  (∀ s : State, Canonical s → running s = false → s.tick.pend.isSome = true → s.tick.armed = true → topState s = stReady →
    Answers .tickBoundary s fun t => t.tick.job = resumeTick s ∧ raised E.TICK.LAUNCHED t) ∧
  (∀ (s : State) (c : CoreId), Canonical s → issueOpen s = true → lateCore s (getCore s c.lcid) = true →
    (getCore s c.lcid).ready = true →
    Answers (.ibLateSwap c) s fun t =>
      (getCore t c.lcid).activeB = (!(getCore s c.lcid).activeB) ∧ (getCore t c.lcid).ready = false ∧
      (getCore t c.lcid).bank = (getCore s c.lcid).pendBank ∧ (getCore t c.lcid).entries = (getCore s c.lcid).pendEntries ∧
      ChangesOnly [.cores] s t ∧ ∀ d, d ≠ c.lcid → getCore t d = getCore s d)

/-- A stretch of the pending boundary (R27). -/
def StretchApplied (s t : State) : Prop :=
  tickLaunch t = (tickLaunch s + getF s R.TICK_STRETCH_Q.Q) % 2 ^ 64 ∧
  getF t R.TICK_STRETCH_CNT.CUR = getF s R.TICK_STRETCH_CNT.CUR + 1 ∧
  getF t R.TICK_STRETCH_CNT.TOTAL = satAdd (2 ^ 24 - 1) (getF s R.TICK_STRETCH_CNT.TOTAL) 1 ∧ t.tick.atD = false ∧
  t.tick.atV = false ∧ raised E.TICK.STRETCH t ∧ t.tick.job = s.tick.job ∧ t.mem = s.mem ∧ t.cores = s.cores

/-- R26 to R28: a package at rest at D, with nothing to wait for, lets the boundary stand; so does V when all that the tick
expects has arrived, and with it the commit of the Landing is made (R91: between D and the boundary; that it is made at V is the
model's choice, log 83); one whose cores have not all reached TEND needs a stretch and applies it; a stretch, its own or one
heard with the next index, adds TICK_STRETCH_Q to TICK_LAUNCH, counts CUR and TOTAL, and D and V lie ahead again; a STRETCH
with another index is dropped. -/
def Obligations.StretchPostponesTheBoundary : Prop :=
  (∀ s : State, running s = true → s.tick.draining = false → s.tick.atD = false → closeSems (AtD s) = AtD s →
    (∀ n, partAtRest s n = true) → tickBlocked s = false →
    getF s R.TICK_STRETCH_CNT.VOIDED = 0 → getF s R.FLT_LOCKSTEP_CTL.EN = 0 →
    Answers .decisionPoint s fun t => t = AtD s ∧ t.tick.atD = true ∧ closing t = closing s) ∧
  (∀ (s : State) (dw : List CommitAcc), running s = true → s.tick.draining = false → s.tick.atD = true → s.tick.atV = false →
    (∀ n, landingDue s n ≤ landedFrames s n ∧ guestDue s n ≤ guestLanded s n) → sumsComplete s 0 = true →
    tickBlocked s = false → replayLate s = false → tickBlocked (commitTick dw s) = false →
    (commitTick dw s).tick.draining = false → getF (commitTick dw s) R.FLT_LOCKSTEP_CTL.EN = 0 →
    Answers (.verdictPoint dw) s fun t => t = { commitTick dw s with tick := { (commitTick dw s).tick with atV := true } }) ∧
  (∀ (s : State) (src : Nat), Canonical s → running s = true → s.tick.draining = false → s.guest.wrote = [] →
    getF s R.TICK_STRETCH_CNT.VOIDED = 0 → getF s R.TICK_STRETCH_CNT.CUR < 15 →
    Answers (.stretch (nextNum s) (getF s R.TICK_STRETCH_CNT.CUR + 1) src) s fun t =>
      StretchApplied s t ∧ t.ports = s.ports) ∧
  (∀ s : State, Canonical s → running s = true → s.tick.draining = false → s.tick.atD = false → s.guest.wrote = [] →
    closeSems (AtD s) = AtD s → (∀ n, n ≠ 0 → partAtRest s n = true) → partAtRest s 0 = false →
    getF s R.TICK_STRETCH_CNT.VOIDED = 0 → getF s R.TICK_STRETCH_CNT.CUR < getF s R.TICK_STRETCH_MAX.MAX →
    getF s R.TICK_STRETCH_CNT.CUR < 15 →
    Answers .decisionPoint s fun t =>
      StretchApplied s t ∧ (nextNum s, getF s R.TICK_STRETCH_CNT.CUR + 1) ∈ t.tick.stretchSeen ∧
      ∀ p ∈ dimPorts s 0, ∃ f : Frame, f.cls = clsSync ∧ f.kind = 5 ∧ f.bc = true ∧
        f.payload.take 6 = leBytes 3 (nextNum s) ++ leBytes 1 (getF s R.TICK_STRETCH_CNT.CUR + 1) ++ leBytes 2 (myId s) ∧
        ⟨f, 0⟩ ∈ (getPort t p).syncQ) ∧
  (∀ (s : State) (k src : Nat), running s = true → s.tick.draining = false → k ≠ getF s R.TICK_STRETCH_CNT.CUR + 1 →
    Answers (.stretch (nextNum s) k src) s fun t => t = s)

/-- The first overrun recorded since launch: package and cause stand in TICK_OVR_SRC, OVERRUN is raised, the package
begins to drain and completes no further tick (R29, R309 step 1). -/
def FirstOverrun (pkg cause : Nat) (t : State) : Prop :=
  getF t R.TICK_OVR_SRC.VALID = 1 ∧ getF t R.TICK_OVR_SRC.PKG = pkg ∧ getF t R.TICK_OVR_SRC.CAUSE = cause ∧
  raised E.TICK.OVERRUN t ∧ t.tick.draining = true

/-- An ABORT frame of this package waits on every port of a broadcast (R29, R262). -/
def AbortSent (cause : Nat) (s t : State) : Prop :=
  ∀ p ∈ dimPorts s 0, ∃ f : Frame, f.cls = clsSync ∧ f.kind = 7 ∧ f.bc = true ∧ f.src = myId s ∧
    f.payload.take 6 = leBytes 2 (myId s) ++ leBytes 1 cause ++ leBytes 3 (tickNum s) ∧ ⟨f, 0⟩ ∈ (getPort t p).syncQ

/-- R29: a package that would need one stretch more than TICK_STRETCH_MAX broadcasts ABORT with its package ID and cause 0,
records the overrun and drains; so does every running package that an ABORT reaches; the first recorded is kept, a further
one is ignored and none is declared or sent; a package that does not run ignores an ABORT; a draining package completes no
tick. R30: a STRETCH for a boundary already passed, and a VOID for a tick that is not the current one, raise STRETCH_LATE and
declare cause 2; a VOID that reaches a package that does not run has no effect. -/
def Obligations.OverrunIsDeclaredAndRecordedOnce : Prop :=
  (∀ (s : State) (pkg cause tick : Nat), Canonical s → running s = true → getF s R.TICK_OVR_SRC.VALID = 0 →
    pkg < 4096 → cause < 16 → s.tick.draining = false →
    Answers (.abort pkg cause tick) s fun t => FirstOverrun pkg cause t ∧ t.mem = s.mem ∧ t.cores = s.cores) ∧
  (∀ (s : State) (pkg cause tick : Nat), running s = true → getF s R.TICK_OVR_SRC.VALID = 1 →
    Answers (.abort pkg cause tick) s fun t => t = s) ∧
  (∀ (s : State) (pkg cause tick : Nat), running s = false → Answers (.abort pkg cause tick) s fun t => t = s) ∧
  (∀ s : State, Canonical s → running s = true → s.tick.draining = false → s.tick.atD = false → s.guest.undone = false →
    closeSems (AtD s) = AtD s → partAtRest s 0 = false → getF s R.TICK_STRETCH_CNT.VOIDED = 0 →
    getF s R.TICK_STRETCH_MAX.MAX ≤ getF s R.TICK_STRETCH_CNT.CUR → myId s < 4096 →
    (getF s R.TICK_OVR_SRC.VALID = 0 →
      Answers .decisionPoint s fun t => FirstOverrun (myId s) 0 t ∧ AbortSent 0 s t ∧ t.mem = s.mem ∧ t.cores = s.cores) ∧
    (getF s R.TICK_OVR_SRC.VALID = 1 → Answers .decisionPoint s fun t => t.ports = s.ports ∧ t.regs = s.regs)) ∧
  (∀ s : State, running s = true → s.tick.draining = true →
    Answers .tickBoundary s (fun t => t = s) ∧ Answers .decisionPoint s (fun t => t = s) ∧
    ∀ dw, Answers (.verdictPoint dw) s fun t => t = s) ∧
  (∀ (s : State) (tick k src d : Nat), Canonical s → running s = true → s.tick.draining = false → tick < 2 ^ 24 →
    tickCmp tick (nextNum s) = .older d → myId s < 4096 →
    (getF s R.TICK_OVR_SRC.VALID = 0 →
      Answers (.stretch tick k src) s fun t => raised E.TICK.STRETCH_LATE t ∧ FirstOverrun (myId s) 2 t ∧ AbortSent 2 s t) ∧
    (getF s R.TICK_OVR_SRC.VALID = 1 →
      Answers (.stretch tick k src) s fun t => raised E.TICK.STRETCH_LATE t ∧ t.ports = s.ports)) ∧
  (∀ (s : State) (pkg tick : Nat), Canonical s → running s = true → s.tick.draining = false → tick ≠ tickNum s → myId s < 4096 →
    (getF s R.TICK_OVR_SRC.VALID = 0 →
      Answers (.void pkg tick) s fun t => raised E.TICK.STRETCH_LATE t ∧ FirstOverrun (myId s) 2 t ∧ AbortSent 2 s t) ∧
    (getF s R.TICK_OVR_SRC.VALID = 1 →
      Answers (.void pkg tick) s fun t => raised E.TICK.STRETCH_LATE t ∧ t.ports = s.ports)) ∧
  (∀ (s : State) (pkg tick : Nat), running s = false → Answers (.void pkg tick) s fun t => t = s)

/-- R33, R35: a VOID of another package postpones the boundary once, to the larger of where it stands and the nominal place
of the boundary after it and 6 000 ns, raises VOID_RX, discards that package's Landing entries of the tick, keeps every other
and names it as a source to drop until its REPLAY mark arrives; a VOID of this package makes it withdraw the tick, which it
replays once it is quiet. -/
def Obligations.VoidWithdrawsATick : Prop :=
  (∀ (s : State) (pkg : Nat), Canonical s → running s = true → s.tick.draining = false → pkg ≠ myId s →
    getF s R.TICK_STRETCH_CNT.VOIDED = 0 →
    Answers (.void pkg (tickNum s)) s fun t =>
      closing t = max (closing s) ((s.tick.nominal + (s.tick.job + 1) * tickLen s + tickLen s + 6000) % 2 ^ 64) ∧
      raised E.TICK.VOID_RX t ∧ pkg ∈ t.tick.voidedSrcs ∧ (∀ f ∈ t.hall.land, ¬ (f.src = pkg ∧ f.tick = tickNum s)) ∧
      (∀ f ∈ s.hall.land, f.src ≠ pkg → f ∈ t.hall.land) ∧
      getF t R.TICK_STRETCH_CNT.VOIDED = 1 ∧ t.tick.job = s.tick.job ∧ t.mem = s.mem ∧ t.cores = s.cores) ∧
  (∀ (s : State) (pkg : Nat), running s = true → s.tick.draining = false → pkg ≠ myId s →
    getF s R.TICK_STRETCH_CNT.VOIDED = 1 →
    Answers (.void pkg (tickNum s)) s fun t =>
      closing t = closing s ∧ pkg ∈ t.tick.voidedSrcs ∧ (∀ f ∈ t.hall.land, ¬ (f.src = pkg ∧ f.tick = tickNum s)) ∧
      t.tick.job = s.tick.job ∧ t.mem = s.mem ∧ t.cores = s.cores) ∧
  (∀ s : State, Canonical s → running s = true → s.tick.draining = false → s.tick.replay = .none →
    getF s R.TICK_STRETCH_CNT.VOIDED = 0 →
    Answers (.void (myId s) (tickNum s)) s fun t =>
      t.tick.replay = .quiescing ∧ getF t R.TICK_STRETCH_CNT.VOIDED = 1 ∧ raised E.TICK.VOID_RX t ∧ t.mem = s.mem) ∧
  (∀ (s : State) (src : Nat),
    Answers (.replayMark src (tickNum s)) s fun t =>
      src ∉ t.tick.voidedSrcs ∧ ChangesOnly [.tick] s t ∧ ∀ x, x ≠ src → (x ∈ t.tick.voidedSrcs ↔ x ∈ s.tick.voidedSrcs)) ∧
  (∀ s : State, running s = true → s.tick.draining = false → s.tick.replay = .quiescing →
    Answers .replayQuiesced s fun t => t.tick.replay = .ready) ∧
  (∀ s : State, Canonical s → running s = true → s.tick.draining = false → s.tick.replay = .ready →
    Answers .replayStart s fun t => t.tick.job = s.tick.job ∧ raised E.TICK.VOID_TX t)

/-! ### Instructions of a core -/

/-- R160, R314, R84, R85, R150: NOP and TST hold their engine CYC + 1 cycles and complete in the last; TEND and HALT
complete in their cycle and stop the engine there (on a die of which no core reports DEADLOCK; else the whole-die condition of
R108 is judged, stated below); FMT's value is in force from the next cycle; PAIR sets the mode when
both array engines give it the same operand in one cycle. None changes anything else. -/
def Obligations.ControlInstructionsMoveTheirEngineOnly : Prop :=
  (∀ (i : Issue) (w x : Nat) (s : State), Fetches i opNop w x s →
    Answers (.nop i) s (Issued i w (i.cyc + fNopCyc w + 1) (goesOn i s) [doneAt i w (i.cyc + fNopCyc w)] id [] s)) ∧
  (∀ (i : Issue) (w x : Nat) (s : State), Fetches i opTst w x s →
    Answers (.tst i) s (Issued i w (i.cyc + fTCyc w + 1) (goesOn i s) [doneAt i w (i.cyc + fTCyc w)] id [] s)) ∧
  (∀ (i : Issue) (w x : Nat) (s : State), Fetches i opTend w x s → NoneDead i.core.die.val s →
    Answers (.tend i) s (Issued i w (i.cyc + 1) .atTend [doneAt i w i.cyc] id [] s)) ∧
  (∀ (i : Issue) (w x : Nat) (s : State), Fetches i opHalt w x s → NoneDead i.core.die.val s →
    Answers (.halt i) s (Issued i w (i.cyc + 1) .halted [doneAt i w i.cyc] id [] s)) ∧
  (∀ (i : Issue) (w x : Nat) (s : State), Fetches i opFmt w x s →
    ¬ ((getCore s i.core.lcid).descCyc = i.cyc ∧
      (fFmtD w ∈ (getCore s i.core.lcid).descBad ∨ (smGet none (getCore s i.core.lcid).descNew (fFmtD w)).isSome)) →
    Answers (.fmt i) s fun t =>
      Issued i w (i.cyc + 1) (goesOn i s) [doneAt i w i.cyc]
        (fun c => { c with desc := [], descCyc := 0, descNew := [], descBad := [], descWhen := [] }) [] s t ∧
      ∀ cyc, i.cyc < cyc → rdDesc (getCore t i.core.lcid) cyc (fFmtD w) = fFmtV w) ∧
  (∀ (i : Issue) (w x : Nat) (s : State), Fetches i opPair w x s →
    Answers (.pair i (some (fPairOn w))) s fun t =>
      Issued i w (i.cyc + 1) (goesOn i s) [doneAt i w i.cyc] (fun c => { c with paired := false }) [] s t ∧
      (getCore t i.core.lcid).paired = fPairOn w)

/-- R97: a WAIT holds its engine until the semaphore holds at least N, and with T then takes N; SADD adds K; SSUB subtracts
K; an instruction that completes with P posts 1; the Doorway posts the count that the arriving transfer names, and a count of
0 is no post. All changes of a cycle are combined with what the cycle held; a WAIT is judged by the value at the start of
its cycle less the takes granted to the WAITs before it, and WAITs of one cycle are judged in the order of their engines,
whichever command comes first (R98). -/
def Obligations.SemaphoreInstructionsMoveTheBellBoard : Prop :=
  (∀ (i : Issue) (w x : Nat) (s : State), Fetches i opSadd w x s →
    ((getCore s i.core.lcid).semCyc = i.cyc ∨ semFaults s i.core.lcid = []) →
    Answers (.sadd i) s fun t =>
      Issued i w (i.cyc + 1) (goesOn i s) [doneAt i w i.cyc] noSems [] s t ∧
      SemMoves i.cyc (semKey (getCore s i.core.lcid).bank (fSemS w)) 0 (fSemK w) (getCore s i.core.lcid) (getCore t i.core.lcid)) ∧
  (∀ (i : Issue) (w x : Nat) (s : State), Fetches i opSsub w x s →
    ((getCore s i.core.lcid).semCyc = i.cyc ∨ semFaults s i.core.lcid = []) →
    Answers (.ssub i) s fun t =>
      Issued i w (i.cyc + 1) (goesOn i s) [doneAt i w i.cyc] noSems [] s t ∧
      SemMoves i.cyc (semKey (getCore s i.core.lcid).bank (fSemS w)) 0 (-(fSemK w : Int)) (getCore s i.core.lcid)
        (getCore t i.core.lcid)) ∧
  (∀ (i : Issue) (w x : Nat) (s : State), Fetches i opWait w x s → OpensCycle i.core.lcid i.cyc s →
    (getCore s i.core.lcid).dead = false →
    let c := getCore s i.core.lcid
    let k := semKey c.bank (fWaitS w)
    Answers (.wait i) s fun t =>
      if fWaitN w ≤ semStart c i.cyc k then
        Issued i w (i.cyc + 1) (goesOn i s) [doneAt i w i.cyc] noSems [] s t ∧
        SemMoves i.cyc k (if fWaitT w then fWaitN w else 0) 0 c (getCore t i.core.lcid)
      else
        Issued i w (i.cyc + 1) (.blocked (fWaitS w) (fWaitN w) (fWaitT w) (wP w) (wPS w)) [] noSems [] s t ∧
        SemMoves i.cyc k 0 0 c (getCore t i.core.lcid)) ∧
  (∀ (i : Issue) (w x : Nat) (q : WaitRec) (s : State), Fetches i opWait w x s →
    let c := getCore s i.core.lcid
    let k := semKey c.bank (fWaitS w)
    c.dead = false → c.semCyc = i.cyc → c.semWaits = [q] → q.granted = true → q.take = true → q.key = k → q.eng < 6 →
    c.outst = [{ eng := q.eng, due := some i.cyc, p := q.p, ps := q.ps, run := none }] → c.semTake = smUpd 0 [] k (· + q.n) →
    fWaitT w = true → fWaitN w ≤ smGet 0 c.sem k → q.n ≤ smGet 0 c.sem k → smGet 0 c.sem k < fWaitN w + q.n →
    Answers (.wait i) s fun t =>
      (i.eng.no < q.eng → (engOf i t).mode = goesOn i s ∧ semTaken (getCore t i.core.lcid) i.cyc k = fWaitN w ∧
        (getEng (getCore t i.core.lcid) q.eng).mode = .blocked q.sem q.n q.take q.p q.ps ∧
        (getCore t i.core.lcid).outst = [doneAt i w i.cyc]) ∧
      (q.eng < i.eng.no → (engOf i t).mode = .blocked (fWaitS w) (fWaitN w) (fWaitT w) (wP w) (wPS w) ∧
        semTaken (getCore t i.core.lcid) i.cyc k = q.n ∧
        getEng (getCore t i.core.lcid) q.eng = getEng c q.eng ∧ (getCore t i.core.lcid).outst = c.outst)) ∧
  (∀ (c : CoreId) (e : Engine) (cyc sem n ps : Nat) (take p : Bool) (s : State),
    issueOpen s = true → coreOpen (getCore s c.lcid) = true →
    (getEng (getCore s c.lcid) e.no).mode = .blocked sem n take p ps → (getEng (getCore s c.lcid) e.no).free ≤ cyc →
    OpensCycle c.lcid cyc s → (getCore s c.lcid).dead = false →
    let co := getCore s c.lcid
    let k := semKey co.bank sem
    n ≤ semStart co cyc k →
    Answers (.waitGrant c e cyc) s fun t =>
      getEng (getCore t c.lcid) e.no =
        { mode := if co.lone then .atTend else .running, idx := (getEng co e.no).idx, free := cyc + 1 } ∧
      (getCore t c.lcid).outst = co.outst ++ [{ eng := e.no, due := some cyc, p := p, ps := ps, run := none }] ∧
      SemMoves cyc k (if take then n else 0) 0 co (getCore t c.lcid) ∧
      noSems (bare (getCore t c.lcid)) = noSems (bare co) ∧ (∀ d, d ≠ c.lcid → getCore t d = getCore s d) ∧
      ChangesOnly [.cores] s t) ∧
  (∀ (c : CoreId) (e : Engine) (cyc sem n ps : Nat) (take p : Bool) (s : State),
    issueOpen s = true → coreOpen (getCore s c.lcid) = true →
    (getEng (getCore s c.lcid) e.no).mode = .blocked sem n take p ps → (getEng (getCore s c.lcid) e.no).free ≤ cyc →
    OpensCycle c.lcid cyc s → (getCore s c.lcid).dead = false →
    let co := getCore s c.lcid
    let k := semKey co.bank sem
    semStart co cyc k < n →
    Answers (.waitGrant c e cyc) s fun t =>
      getEng (getCore t c.lcid) e.no = getEng co e.no ∧ (getCore t c.lcid).outst = co.outst ∧
      SemMoves cyc k 0 0 co (getCore t c.lcid) ∧ (∀ d, d ≠ c.lcid → getCore t d = getCore s d) ∧ ChangesOnly [.cores] s t) ∧
  (∀ (c : CoreId) (cyc : Nat) (m : Xfer) (l r : List Xfer) (s : State), Arrives c cyc m l r s →
    inPark (getCore s c.lcid) = false → ((getCore s c.lcid).semCyc = cyc ∨ semFaults s c.lcid = []) →
    (getCore s c.lcid).dead = false →
    Answers (.doorwayArrival c cyc [] []) s fun t =>
      (0 < m.cnt → SemMoves cyc (semKey m.bank m.sem) 0 m.cnt (getCore s c.lcid) (getCore t c.lcid)) ∧
      (m.cnt = 0 → ∀ k, semVal (getCore t c.lcid) k = semVal (getCore s c.lcid) k)) ∧
  (∀ (c : CoreId) (e : Engine) (cyc : Nat) (o : Outst) (l r : List Outst) (s : State),
    (getCore s c.lcid).outst = l ++ o :: r → (∀ q ∈ l, ¬ (q.eng = e.no ∧ q.due = some cyc)) → o.eng = e.no →
    o.due = some cyc → ((getCore s c.lcid).semCyc = cyc ∨ semFaults s c.lcid = []) →
    Answers (.instructionComplete c e cyc) s fun t =>
      (getCore t c.lcid).outst = l ++ r ∧
      (o.p = true → SemMoves cyc (semKey (getCore s c.lcid).bank o.ps) 0 1 (getCore s c.lcid) (getCore t c.lcid)) ∧
      (o.p = false → getCore t c.lcid = { getCore s c.lcid with outst := l ++ r }) ∧
      (∀ d, d ≠ c.lcid → getCore t d = getCore s d) ∧ ChangesOnly [.cores] s t)

/-- R82, R94, R95: an engine that meets a word it may not issue, the end of its list or a parity error at fetch stops
where it stands, and ILLEGAL_OP or IB_PARITY is logged against its core. -/
def Obligations.WordThatMayNotIssueStopsItsEngine : Prop :=
  (∀ (i : Issue) (s : State), canIssue s i = true →
    (listLen (getCore s i.core.lcid) ≤ (engOf i s).idx ∨ (i.parity = false ∧
      wordLegal (getCore s i.core.lcid) i.eng (fetchWord (getCore s i.core.lcid) (engOf i s).idx) = false)) →
    Answers (.nop i) s fun t =>
      engOf i t = { engOf i s with mode := .stopped } ∧
      ∃ e, smGet none t.flt.log (getF s R.FLT_LOG_HEAD.SEQ % 1024) = some e ∧ e.code = 0x13 ∧ e.unit = uCore ∧
        e.unitId = i.core.lcid) ∧
  (∀ (i : Issue) (s : State), canIssue s i = true → (engOf i s).idx < listLen (getCore s i.core.lcid) → i.parity = true →
    Answers (.nop i) s fun t =>
      engOf i t = { engOf i s with mode := .stopped } ∧
      ∃ e, smGet none t.flt.log (getF s R.FLT_LOG_HEAD.SEQ % 1024) = some e ∧ e.code = 0x15 ∧ e.unit = uCore ∧
        e.unitId = i.core.lcid ∧ e.detail = (engOf i s).idx % 2 ^ 64)

/-! ### The matrix path -/

/-- R144, R145: an LDW with no delivery in progress loads its shadow set, full after the delivery; cells beyond its
extents hold zero. An SWW exchanges active and shadow set when the shadow is full. In paired mode both act on both arrays. -/
def Obligations.WeightLoadsFillTheShadowSetAndSwapsExchangeIt : Prop :=
  (∀ (i : Issue) (w x : Nat) (s : State), Fetches i opLdw w x s →
    let c := getCore s i.core.lcid
    let n := arrNo i
    let d := rdDesc c i.cyc (fLdwD w)
    (c.paired = true → n = 0) → anyDelivering c n i.cyc = false → tileOver d (64 * fLdwB w) = false →
    (32 ≤ fLdwK w → tileOver d (64 * fLdwB2 w) = false) →
    Answers (.ldw i) s fun t =>
      Issued i w (i.cyc + 1) (goesOn i s) [doneAt i w (i.cyc + loadCycles d w)]
        (fun c => { c with sh0 := wset0, sh1 := wset0 }) [] s t ∧
      (∀ q, q < 2 → (q = n ∨ c.paired = true) →
        let v := shSet (getCore t i.core.lcid) q
        v.desc = d ∧ v.kext = fLdwK w + 1 ∧ v.full = some (i.cyc + loadCycles d w + 1) ∧
        ∀ col k, col < 8 → k < 64 → smGet 0 v.elems (64 * col + k) =
          if col ≤ fLdwN w ∧ k ≤ fLdwK w then
            elemAt (lsByte c) d (64 * if k < 32 then fLdwB w else fLdwB2 w) (8 * fLdwF w + col) (k % 32) else 0) ∧
      (c.paired = false → shSet (getCore t i.core.lcid) (1 - n) = shSet c (1 - n))) ∧
  (∀ (i : Issue) (w x : Nat) (s : State), Fetches i opSww w x s →
    let c := getCore s i.core.lcid
    let n := arrNo i
    (c.paired = true → n = 0 ∧ mmaHolds c 0 i.cyc = false ∧ mmaHolds c 1 i.cyc = false ∧ setFull c.sh1 i.cyc = true) →
    setFull (shSet c n) i.cyc = true →
    Answers (.sww i) s fun t =>
      Issued i w (i.cyc + 1) (goesOn i s) [doneAt i w i.cyc]
        (fun c => { c with act0 := wset0, sh0 := wset0, act1 := wset0, sh1 := wset0 }) [] s t ∧
      ∀ q, q < 2 →
        if q = n ∨ c.paired = true then
          actSet (getCore t i.core.lcid) q = shSet c q ∧ shSet (getCore t i.core.lcid) q = actSet c q
        else actSet (getCore t i.core.lcid) q = actSet c q ∧ shSet (getCore t i.core.lcid) q = shSet c q)

/-- R143, R146, R147, R153: an MMA with no hazard adds the products of its A rows and the active weight set to the
rows from S on, from zero with START; a masked row is left (or cleared); every other accumulator element stays. It
holds its engine m rows and completes 10 cycles after the hold. When a row counts as overwritten (`mmaEarly`) is the
model's reading (log 73). -/
def Obligations.MmaAccumulatesItsRows : Prop :=
  ∀ (i : Issue) (first w x : Nat) (s : State), Fetches i opMma w x s →
    let c0 := getCore s i.core.lcid
    let c := if c0.descCyc < i.cyc then descAt i.cyc c0 else c0
    let n := arrNo i
    let da := rdDesc c i.cyc (fMmaAD w)
    let db := (actSet c n).desc
    let cls := rateClass da (rdDesc c i.cyc (fMmaBD w))
    let hold := (fMmaM w + 1) * rowCycles cls
    (∀ j, j ≤ fMmaM w → mmaEarly c n cls i.cyc w j = false) → descMoved c first i.cyc (fMmaAD w) = false →
    descMoved c first i.cyc (fMmaBD w) = false → (fMmaMask w = true → fMmaMline x < lsLines) →
    (∀ j g, j ≤ fMmaM w → g < rowGroups cls → tileOver da (mmaTile w x j g) = false) →
    Answers (.mma i first) s fun t =>
      Issued i w (i.cyc + hold) (goesOn i s) [doneAt i w (i.cyc + hold + 10)]
        (fun c => { c with acc := [], accOvf := [], accReady := [], accInt := [], mmaUntil := [], desc := [],
                           descCyc := 0, descNew := [], descBad := [], descWhen := [] }) [] s t ∧
      (∀ j col, j ≤ fMmaM w → col < 8 →
        let k := accKey n (fMmaS w + j) col
        let a0 : Word × Bool := if fMmaStart w then (0#32, false) else (smGet 0#32 c.acc k, smGet false c.accOvf k)
        let gs := List.range (rowGroups cls)
        (smGet 0#32 (getCore t i.core.lcid).acc k, smGet false (getCore t i.core.lcid).accOvf k) =
          if mmaBubble (lsByte c) [] da (rowGroups cls) w x j then a0
          else mmaElem (intPath da db) (gs.map fun g => mmaA (lsByte c) da w x j g) (gs.map fun g => setB32 (actSet c n) col g) a0) ∧
      (∀ k, (∀ j col, j ≤ fMmaM w → col < 8 → k ≠ accKey n (fMmaS w + j) col) →
        smGet 0#32 (getCore t i.core.lcid).acc k = smGet 0#32 c.acc k ∧
        smGet false (getCore t i.core.lcid).accOvf k = smGet false c.accOvf k)

/-- R149, R162, R155, R163: a DRN or MVD to a 32-bit format without a block scale writes each value it reads at its
place, converted unless the output is INT32, and no byte outside the 8-byte words that hold them; accumulators stay.
That MVD writes whole 8-byte words is the model's reading (log 15). -/
def Obligations.DrainsWriteTheirOutputLines : Prop :=
  (∀ (i : Issue) (w x : Nat) (s : State), Fetches i opDrn w x s →
    let c := getCore s i.core.lcid
    let n := arrNo i
    let d := rdDesc c i.cyc (fDrnD w)
    elemWidth d = 32 → dBlock d = 0 → fDrnSig w = false → fDrnL w < 32 → fDrnPos w + fDrnG w ≤ 3 →
    64 * fDrnO w + 4096 ≤ lsBytes → drnSat s i c w = [] →
    (∀ l g, l ≤ fDrnL w → g ≤ fDrnG w →
      smGet 0 c.accReady (accRowKey n (drnRow w l g)) ≤ i.cyc + 1 + l * (fDrnG w + 1) + g) →
    let addr := fun l g col => 64 * fDrnO w + 128 * l + 4 * (8 * (fDrnPos w + g) + col)
    Answers (.drn i) s fun t =>
      Issued i w (i.cyc + 1) (goesOn i s) [doneAt i w (i.cyc + (fDrnL w + 1) * (fDrnG w + 1) + 3)]
        (fun c => { c with ls := [], fresh := [], sig := 0, accRead := [] }) [] s t ∧
      (∀ l g col, l ≤ fDrnL w → g ≤ fDrnG w → col < 8 →
        let a := smGet 0#32 c.acc (accKey n (drnRow w l g) col)
        let p := 8 * (fDrnPos w + g) + col
        lsRead (getCore t i.core.lcid) (addr l g col) 4 =
          leBytes 4 (if dElem d = 10 then a.toNat
            else convElem d (if dRnd d = 2 then drnDraw s i x l p else 0)
              (drainVal (smGet false c.accInt (accRowKey n (drnRow w l g))) none a))) ∧
      ∀ a, (∀ l g col, l ≤ fDrnL w → g ≤ fDrnG w → col < 8 → a < addr l g col ∨ addr l g col + 4 ≤ a) →
        lsByte (getCore t i.core.lcid) a = lsByte c a) ∧
  (∀ (i : Issue) (w x : Nat) (s : State), Fetches i opMvd w x s →
    let c := getCore s i.core.lcid
    let d := rdDesc c i.cyc (fMvdD w)
    let key := fun k => mvKey (fMvdRow w) ((fMvdCol0 w + k) % 256)
    let base := 64 * fMvdO w + 4 * fMvdOpos w
    elemWidth d = 32 → dBlock d = 0 → base + 4 * fMvdCnt w + 8 ≤ lsBytes →
    (∀ k, k ≤ fMvdCnt w → smGet false c.mvOvf (key k) = false ∧ smGet 0 c.mvReady (key k) ≤ i.cyc + 1 + k / 16) →
    Answers (.mvd i false) s fun t =>
      Issued i w (i.cyc + 1) (goesOn i s) [doneAt i w (i.cyc + fMvdCnt w / 16 + 4)]
        (fun c => { c with ls := [], fresh := [], sig := 0, mvRead := [] }) [] s t ∧
      (∀ k, k ≤ fMvdCnt w →
        let a := smGet 0#32 c.mvAcc (key k)
        lsRead (getCore t i.core.lcid) (base + 4 * k) 4 =
          leBytes 4 (if dElem d = 10 then a.toNat
            else convElem d (if dRnd d = 2 then mvdDraw s i w k else 0) (drainVal (smGet false c.mvInt (key k)) none a))) ∧
      ∀ a, (a < base / 8 * 8 ∨ ceilDiv (base + 4 * (fMvdCnt w + 1)) 8 * 8 ≤ a) →
        lsByte (getCore t i.core.lcid) a = lsByte c a)

/-- R154: an MVM with no hazard loads its activations (or keeps those loaded), adds the products of its K-tiles to
columns COL0 on of rows 0 to M, from zero with START, and leaves every other MV accumulator element. -/
def Obligations.MvmAccumulatesItsColumns : Prop :=
  ∀ (i : Issue) (w x : Nat) (s : State), Fetches i opMvm w x s →
    let c := getCore s i.core.lcid
    let da := if fMvmKeep w then c.mvDesc else rdDesc c i.cyc (fMvmAD w)
    let db := rdDesc c i.cyc (fMvmBD w)
    let rd := lsByte c
    let key := fun r n => mvKey r ((fMvmCol0 w + n) % 256)
    let hold := mvActCycles da w + (fMvmNkt w + 1) * mvTileCycles da db w
    let c1 := if fMvmKeep w then c else mvLoad rd da w x c
    (∀ r n, r ≤ fMvmM w → n ≤ fMvmN w → smGet 0 c.mvRead (key r n) ≤ mvFirstUse i.cyc da db w r n) →
    (∀ q, q ≤ fMvmNkt w → (fMvmKeep w = false → tileOver da (mvmATile w x q) = false) ∧
      ∀ n, n ≤ fMvmN w → tileOver db (mvmBTile x q (n / 32)) = false) →
    (fMvmKeep w = true → fMvmM w + 1 ≤ c.mvRows ∧ fMvmNkt w + 1 ≤ c.mvTiles) →
    Answers (.mvm i) s fun t =>
      Issued i w (i.cyc + hold) (goesOn i s) [doneAt i w (i.cyc + hold - 1 + 7)]
        (fun c => { c with mvElems := [], mvScales := [], mvRows := 0, mvTiles := 0, mvDesc := 0, mvAcc := [],
                           mvOvf := [], mvInt := [], mvReady := [] }) [] s t ∧
      (∀ r n, r ≤ fMvmM w → n ≤ fMvmN w →
        let a0 : Word × Bool :=
          if fMvmStart w then (0#32, false) else (smGet 0#32 c.mvAcc (key r n), smGet false c.mvOvf (key r n))
        let ts := List.range (fMvmNkt w + 1)
        (smGet 0#32 (getCore t i.core.lcid).mvAcc (key r n), smGet false (getCore t i.core.lcid).mvOvf (key r n)) =
          mmaElem (intPath da db) (ts.map fun q => mvA c1 r q) (ts.map fun q => mvB rd db x q n) a0) ∧
      (∀ k, (∀ r n, r ≤ fMvmM w → n ≤ fMvmN w → k ≠ key r n) →
        smGet 0#32 (getCore t i.core.lcid).mvAcc k = smGet 0#32 c.mvAcc k) ∧
      (fMvmKeep w = true → (getCore t i.core.lcid).mvElems = c.mvElems ∧ (getCore t i.core.lcid).mvRows = c.mvRows)

/-! ### The vector unit -/

/-- R136, R137, R138, R164, R230: the elements that VOP, VSF, VSEL and VRNG write, the one word of a VRED, when each
engine issues next and when the last result is written; no other byte of the local store and no other register changes. -/
def Obligations.VectorInstructionsWriteTheirElements : Prop :=
  (∀ (i : Issue) (w x : Nat) (s : State), Fetches i opVop w x s → vFits w (fVCnt w + 1) 4 →
    let c := getCore s i.core.lcid
    let h := ceilDiv (fVCnt w + 1) 16
    Answers (.vop i) s fun t =>
      Issued i w (i.cyc + h) (goesOn i s) [doneAt i w (i.cyc + h - 1 + 4)] noVec [] s t ∧
      (∀ k, k ≤ fVCnt w → vResult (getCore t i.core.lcid) w k =
        vopFn (fVFn w) (vInF (lsView s c []) c w k) (vB c x k) (vC c x k)) ∧
      VecWrote w (fVDst w) (fVCnt w + 1) (4 * (fVCnt w + 1)) c (getCore t i.core.lcid)) ∧
  (∀ (i : Issue) (w x : Nat) (s : State), Fetches i opVsf w x s → vFits w (fVCnt w + 1) 4 →
    let c := getCore s i.core.lcid
    let slow := fVFn w = 4 ∨ fVFn w = 5
    let h := ceilDiv (fVCnt w + 1) (if slow then 8 else 16)
    Answers (.vsf i) s fun t =>
      Issued i w (i.cyc + h) (goesOn i s) [doneAt i w (i.cyc + h - 1 + if slow then 14 else 10)] noVec [] s t ∧
      (∀ k, k ≤ fVCnt w → vResult (getCore t i.core.lcid) w k = vsf (fVFn w) (vInF (lsView s c []) c w k)) ∧
      VecWrote w (fVDst w) (fVCnt w + 1) (4 * (fVCnt w + 1)) c (getCore t i.core.lcid)) ∧
  (∀ (i : Issue) (w x : Nat) (s : State), Fetches i opVsel w x s → vFits w (fVCnt w + 1) 4 → fVFn w = 0 →
    let c := getCore s i.core.lcid
    let h := ceilDiv (fVCnt w + 1) 16
    Answers (.vsel i) s fun t =>
      Issued i w (i.cyc + h) (goesOn i s) [doneAt i w (i.cyc + h - 1 + 2)] noVec [] s t ∧
      (∀ k, k ≤ fVCnt w → vResult (getCore t i.core.lcid) w k =
        if vMask c x k then vInF (lsView s c []) c w k else vB c x k) ∧
      VecWrote w (fVDst w) (fVCnt w + 1) (4 * (fVCnt w + 1)) c (getCore t i.core.lcid)) ∧
  (∀ (i : Issue) (w x : Nat) (s : State), Fetches i opVrng w x s → vFits w (fVCnt w + 1) 4 → fVFn w = 0 →
    let c := getCore s i.core.lcid
    let h := ceilDiv (fVCnt w + 1) 4
    Answers (.vrng i) s fun t =>
      Issued i w (i.cyc + h) (goesOn i s) [doneAt i w (i.cyc + h - 1 + 12)] noVec [] s t ∧
      (∀ k, k ≤ fVCnt w → (vResult (getCore t i.core.lcid) w k).toNat =
        philoxWord (jobSeed s) (k % 1024 / 4) (fRngTile x + k / 1024) (fRngKind x * 2 ^ 16 + i.core.lcid) (trainStep s)
          (k % 4) % 2 ^ 32) ∧
      VecWrote w (fVDst w) (fVCnt w + 1) (4 * (fVCnt w + 1)) c (getCore t i.core.lcid)) ∧
  (∀ (i : Issue) (w x : Nat) (s : State), Fetches i opVred w x s → (fVDr w = false → 64 * fVDst w + 64 ≤ lsBytes) →
    let c := getCore s i.core.lcid
    let h := ceilDiv (fVCnt w + 1) 16
    let pos := fVImm x % 16
    let r := vredFn (fVFn w) ((List.range (fVCnt w + 1)).map fun k => vInF (lsView s c []) c w k)
    Answers (.vred i) s fun t =>
      Issued i w (i.cyc + h) (goesOn i s) [doneAt i w (i.cyc + h - 1 + 6)] noVec [] s t ∧
      (fVDr w = true → (getCore t i.core.lcid).ls = c.ls ∧
        ∀ g l, g < 32 → l < 16 → vLane (getCore t i.core.lcid) g l = if g = fVDst w % 32 ∧ l = pos then r else vLane c g l) ∧
      (fVDr w = false → (getCore t i.core.lcid).vreg = c.vreg ∧
        lsRead (getCore t i.core.lcid) (64 * fVDst w + 4 * pos) 4 = leBytes 4 r.toNat ∧
        ∀ a, (a < 64 * fVDst w + 4 * pos ∨ 64 * fVDst w + 4 * pos + 4 ≤ a) →
          lsByte (getCore t i.core.lcid) a = lsByte c a))

/-- R133, R134, R164: the elements of a VCVT between formats stand one after another in the output width; a VQNT along
the line forms blocks of consecutive elements, each with its scale byte in the tile's trailer. -/
def Obligations.VectorConversionsWriteTheirFormats : Prop :=
  (∀ (i : Issue) (w x : Nat) (s : State), Fetches i opVcvt w x s → fVFn w = 0 →
    let c := getCore s i.core.lcid
    let sd := rdDesc c i.cyc (fVId x)
    let td := rdDesc c i.cyc (fVOd x)
    let n := fVCnt w + 1
    let h := ceilDiv n 16
    dBlock sd = 0 → (if fVDr w then n ≤ 512 else 64 * fVDst w + ceilDiv (n * elemWidth td) 8 ≤ lsBytes) →
    Answers (.vcvt i) s fun t =>
      Issued i w (i.cyc + h) (goesOn i s) [doneAt i w (i.cyc + h - 1 + 4)] noVec [] s t ∧
      (∀ k, k ≤ fVCnt w →
        let v := round32 (decodeElem sd (vIn (lsView s c []) c w (elemWidth sd) k))
        let o := convElem td (if dRnd td = 2 then vDraw s i (fVImm x) k else 0) v
        if fVDr w then vLane (getCore t i.core.lcid) (fVDst w % 32 + k / 16) (k % 16) = BitVec.ofNat 32 o
        else bitsAt (lsByte (getCore t i.core.lcid)) (512 * fVDst w + k * elemWidth td) (elemWidth td) =
          o % 2 ^ elemWidth td) ∧
      VecWrote w (fVDst w) n (ceilDiv (n * elemWidth td) 8) c (getCore t i.core.lcid)) ∧
  (∀ (i : Issue) (w x : Nat) (s : State), Fetches i opVqnt w x s →
    let c := getCore s i.core.lcid
    let d := rdDesc c i.cyc (fVOd x)
    let n := fVCnt w + 1
    let h := ceilDiv n 16
    let b := blockSize d
    let blk := fun j =>
      let ks := ((List.range b).map (j * b + ·)).filter fun k => decide (k < n)
      quantBlock d (ks.map fun k => if dRnd d = 2 then vDraw s i (fVImm x / 2 ^ 12 % 2 ^ 20) k else 0)
        (ks.map fun k => val32 (vInF (lsView s c []) c w k))
    (b = 16 ∨ b = 32) → dDir d = 0 → fVDr w = false → n ≤ 1024 → 64 * fVDst w + tileBytes d ≤ lsBytes →
    Answers (.vqnt i) s fun t =>
      Issued i w (i.cyc + h) (goesOn i s) [doneAt i w (i.cyc + h - 1 + 4)] noVec [] s t ∧
      (getCore t i.core.lcid).vreg = c.vreg ∧
      (∀ k, k < n →
        elemAt (lsByte (getCore t i.core.lcid)) d (64 * fVDst w) (k / 32) (k % 32) =
          ((blk (k / b)).2.getD (k % b) 0) % 2 ^ elemWidth d ∧
        scaleAt (lsByte (getCore t i.core.lcid)) d (64 * fVDst w) (k / 32) (k % 32) = (blk (k / b)).1 % 256) ∧
      ∀ a, (a < 64 * fVDst w ∨ 64 * fVDst w + tileBytes d ≤ a) → lsByte (getCore t i.core.lcid) a = lsByte c a)

/-! ### Transfers -/

/-- R39, R191, R194, R223, R168, R112, R113, R430: a transfer whose address names memory puts one run, stamped with the
tick and its SEQ, on its way to the channel; those that read await their data and complete with the run, those that
write carry the beats read and hold their engine one cycle a beat. -/
def Obligations.TransfersSendTheirRuns : Prop :=
  (∀ (i : Issue) (w x : Nat) (s : State), Fetches i opMrd w x s → spanOk s (fXPa x) (64 * (fXLen w + 1)) = true →
    let r : Run := { newRun s i .read (fXPa x) (fXLen w + 1) (fXSeq w) [] with
                     line := fXLine w, cnt := fXCnt w, sem := fXSem w, bank := fXBank w, hinge := hingeOf s i w x }
    Answers (.mrd i) s (ReadRun i w r s)) ∧
  (∀ (i : Issue) (w x : Nat) (s : State), Fetches i opIld w x s → spanOk s (fIPa w) 64 = true →
    Answers (.ild i) s (ReadRun i w (newRun s i (.ild (fIPark w)) (ildAddr s (fIPa w)) 1 (fISeq w) []) s)) ∧
  (∀ (i : Issue) (w x : Nat) (s : State), Fetches i opCrst w x s → spanOk s (fXPa x) (64 * partBeats (fSPart w)) = true →
    Answers (.crst i) s
      (ReadRun i w (newRun s i (.crst (fSPart w) (fSBnk w)) (fXPa x) (partBeats (fSPart w)) (fSSeq w) []) s)) ∧
  (∀ (i : Issue) (w x : Nat) (s : State), Fetches i opMwr w x s → spanOk s (fXPa x) (64 * (fXLen w + 1)) = true →
    let n := fXLen w + 1
    let r : Run := { newRun s i .write (fXPa x) n (fXSeq w) (outBytes s i (fXLine w) n) with
                     line := fXLine w, hinge := hingeOf s i w x }
    Answers (.mwr i) s fun t =>
      Issued i w (i.cyc + n) (goesOn i s) [doneAt i w (i.cyc + n - 1)] id [.transit] s t ∧ t.transit = s.transit ++ [r]) ∧
  (∀ (i : Issue) (w x : Nat) (s : State), Fetches i opPan w x s → spanOk s (fXPa x) (64 * (fPLen w + 1)) = true →
    let n := fPLen w + 1
    Answers (.pan i) s fun t =>
      Issued i w (i.cyc + n) (goesOn i s) [doneAt i w (i.cyc + n - 1)] id [.transit] s t ∧
      t.transit = s.transit ++
        [newRun s i (.pan (fPCmd w) (fPTensor x)) (fXPa x) n (fPSeq w) (outBytes s i (fPSl w) n)]) ∧
  (∀ (i : Issue) (w x : Nat) (s : State), Fetches i opCsav w x s → spanOk s (fXPa x) (64 * partBeats (fSPart w)) = true →
    let n := partBeats (fSPart w)
    Answers (.csav i) s fun t =>
      Issued i w (i.cyc + n) (goesOn i s) [doneAt i w (i.cyc + n - 1)] (fun c => { c with savCrc := 0, savMask := 0 })
        [.transit] s t ∧
      ∃ r : Run, t.transit = s.transit ++ [r] ∧ r.kind = .csav (fSPart w) (fSBnk w) ∧ r.pa = fXPa x ∧ r.beats = n ∧
        r.seq = fSSeq w ∧ r.tick = tickNum s ∧ r.data = ctxPart s i.core.lcid (fSPart w) (fSBnk w) (getCore s i.core.lcid)) ∧
  (∀ (i : Issue) (w x : Nat) (s : State), Fetches i opMrd w x s → spanOk s (fXPa x) (64 * (fXLen w + 1)) = false →
    exec (.mrd i) s = .fault (.noMemory (fXPa x)))

/-- R100 to R104, R111, R431: a SEND in the sender's rectangle puts its beats on the mesh, to be written in the fixed cycle of
R59 and R103, one outside it is an ILLEGAL_OP that moves none; an arrival writes its beats and posts; at a parked core it is
an ILLEGAL_OP and writes nothing (that nothing is written is the model's reading, log 118); a beat discarded for one of a
lower source is not written, and the core whose router holds the link, or the source at an edge slot, records SLOT_CONFLICT;
a memory run posts once its data is complete and no lower SEQ of its sequence waits. The DETAIL of a conflict at a router's
link is the model's choice (log 16). -/
def Obligations.SendsArriveAndRunsPost : Prop :=
  (∀ (i : Issue) (w x : Nat) (s : State), Fetches i opSend w x s →
    inRect s (corePart (getCore s i.core.lcid)) (fSendDst w) = true →
    let n := fSendLen x + 1
    Answers (.send i) s fun t =>
      Issued i w (i.cyc + n) (goesOn i s) [doneAt i w (i.cyc + n - 1)] id [.mesh] s t ∧
      t.mesh = s.mesh ++ [{ src := i.core.lcid, dst := fSendDst w, due := i.cyc + sendLatency i.core.lcid (fSendDst w) + n - 1,
                            gone := [], line := fSendDl w, cnt := fSendCnt w, sem := fSendSem w,
                            bank := fSendBank x, data := outBytes s i (fSendSl w) n }]) ∧
  (∀ (i : Issue) (w x : Nat) (s : State), Fetches i opSend w x s →
    inRect s (corePart (getCore s i.core.lcid)) (fSendDst w) = false →
    Answers (.send i) s fun t =>
      t.mesh = s.mesh ∧ (engOf i t).free = i.cyc + 1 ∧
      ∃ e, smGet none t.flt.log (getF s R.FLT_LOG_HEAD.SEQ % 1024) = some e ∧ e.code = 0x13 ∧ e.unitId = i.core.lcid) ∧
  (∀ (c : CoreId) (cyc : Nat) (m : Xfer) (l r : List Xfer) (s : State), Arrives c cyc m l r s → m.gone = [] →
    m.data.length % 64 = 0 → 64 * m.line + m.data.length ≤ lsBytes → inPark (getCore s c.lcid) = false →
    ((getCore s c.lcid).semCyc = cyc ∨ semFaults s c.lcid = []) → (getCore s c.lcid).dead = false →
    Answers (.doorwayArrival c cyc [] []) s fun t =>
      t.mesh = l ++ r ∧ lsRead (getCore t c.lcid) (64 * m.line) m.data.length = m.data ∧
      (∀ a, (a < 64 * m.line ∨ 64 * m.line + m.data.length ≤ a) →
        lsByte (getCore t c.lcid) a = lsByte (getCore s c.lcid) a) ∧
      (0 < m.cnt → SemMoves cyc (semKey m.bank m.sem) 0 m.cnt (getCore s c.lcid) (getCore t c.lcid)) ∧
      (∀ d, d ≠ c.lcid → getCore t d = getCore s d) ∧ ChangesOnly [.mesh, .cores] s t) ∧
  (∀ (c : CoreId) (cyc : Nat) (m : Xfer) (l r : List Xfer) (s : State), Arrives c cyc m l r s → inPark (getCore s c.lcid) = true →
    Answers (.doorwayArrival c cyc [] []) s fun t =>
      t.mesh = l ++ r ∧ (∀ a, lsByte (getCore t c.lcid) a = lsByte (getCore s c.lcid) a) ∧
      ∃ e, smGet none t.flt.log (getF s R.FLT_LOG_HEAD.SEQ % 1024) = some e ∧ e.code = 0x13 ∧ e.unitId = c.lcid) ∧
  (∀ (c : CoreId) (cyc : Nat) (z : BeatLoss) (m : Xfer) (l r : List Xfer) (s : State), Arrives c cyc m l r s →
    m.data.length % 64 = 0 → inPark (getCore s c.lcid) = false →
    ((getCore s c.lcid).semCyc = cyc ∨ semFaults s c.lcid = []) → (getCore s c.lcid).dead = false →
    z.winner.lcid < m.src → z.beat < m.data.length / 64 → placeOn (recvRole (m.src / 2 ^ 14) (m.dst / 2 ^ 14)) z.place = true →
    Answers (.doorwayArrival c cyc [z] []) s fun t =>
      t.mesh = l ++ r ∧
      (∀ a, 64 * (m.line + z.beat) ≤ a → a < 64 * (m.line + z.beat) + 64 →
        lsByte (getCore t c.lcid) a = lsByte (getCore s c.lcid) a) ∧
      ∃ e, smGet none t.flt.log (getF s R.FLT_LOG_HEAD.SEQ % 1024) = some e ∧ e.code = 0x10 ∧ e.cycle = cyc % 2 ^ 16 ∧
        e.unitId = (match z.place with | .link router _ => router.lcid | .edge _ => m.src)) ∧
  (∀ (c : CoreId) (k : StackNo) (tick seq cyc : Nat) (r : Inbound) (s : State),
    mayPost (getCore s c.lcid).landing k.val tick seq = some r → inPark (getCore s c.lcid) = false →
    ((getCore s c.lcid).semCyc = cyc ∨ semFaults s c.lcid = []) → (getCore s c.lcid).dead = false →
    Answers (.memoryRunPost c k tick seq cyc) s fun t =>
      (∀ q ∈ (getCore t c.lcid).landing, ¬ (q.stack = k.val ∧ q.tick = tick ∧ q.seq = seq)) ∧
      (∀ o ∈ (getCore s c.lcid).outst, o.run = some (k.val, tick, seq) →
        { o with due := some cyc, run := none } ∈ (getCore t c.lcid).outst) ∧
      (0 < r.cnt → SemMoves cyc (semKey r.bank r.sem) 0 r.cnt (getCore s c.lcid) (getCore t c.lcid)) ∧
      (∀ d, d ≠ c.lcid → getCore t d = getCore s d) ∧ ChangesOnly [.cores] s t) ∧
  (∀ (c : CoreId) (k : StackNo) (tick seq cyc : Nat) (s : State),
    mayPost (getCore s c.lcid).landing k.val tick seq = none → exec (.memoryRunPost c k tick seq cyc) s = .next s)

/-- R166, R276, R277, R286: an HSND sends its flits to the one other package that its stream's entries name; a COLL hands
its piece to the Hall, which sends the frames to the package its step names. -/
def Obligations.HallSendsFlitsAndPieces : Prop :=
  (∀ (i : Issue) (w x d p : Nat) (pl : Plan) (s : State), Fetches i opHsnd w x s →
    getPlan s (corePart (getCore s i.core.lcid)) = some pl → hsndDests s pl (fHStream w) = [d] → d ≠ myId s →
    (∀ e ∈ pl.streams, e.num = fHStream w → e.transport ≠ 3) →
    let n := fHLen x + 1
    let fs := hsndFrames s w x d (outBytes s i (fHSl w) n)
    (∀ f ∈ fs, routePort s (corePart (getCore s i.core.lcid)) f = some p) →
    Answers (.hsnd i) s fun t =>
      Issued i w (i.cyc + n) (goesOn i s) [doneAt i w (i.cyc + n - 1)] id [.ports, .tick] s t ∧
      (getPort t p).planned = (getPort s p).planned ++ fs ∧ (∀ q, q ≠ p → getPort t q = getPort s q) ∧
      d ∈ t.tick.paths ∧ t.tick.job = s.tick.job) ∧
  (∀ (i : Issue) (w x p : Nat) (pl : Plan) (s : State), Fetches i opColl w x s →
    let part := corePart (getCore s i.core.lcid)
    let n := fCLen w + 1
    let d := (pl.pos + stepOf (fCSeg x)) % max 1 pl.npkg
    let fs := collFrames s part (fCCtx w) (fCKind w) 0 (segOf (fCSeg x)) (stepOf (fCSeg x)) d (outBytes s i (fCSl w) n)
    getPlan s part = some pl → fCKind w ≠ 5 → d ≠ myId s →
    (∀ (f : Frame) (q : Nat), f ∈ fs → routePort s part { f with seq := q } = some p) →
    Answers (.coll i) s fun t =>
      Issued i w (i.cyc + n) (goesOn i s) [doneAt i w (i.cyc + n - 1)] id [.ports, .tick, .reduce] s t ∧
      t.reduce.pieces = s.reduce.pieces ++
        [{ core := i.core.lcid, part := part, ctx := fCCtx w, kind := fCKind w, seg := segOf (fCSeg x),
           step := stepOf (fCSeg x), rline := fCRl x, cnt := fCCnt x, sem := fCSem x, bank := fCBank x, len := n,
           arr := fCArr w, tick := s.tick.job }] ∧
      t.reduce.sums = s.reduce.sums ∧
      (getPort t p).planned.map (fun f => { f with seq := 0 }) =
        ((getPort s p).planned ++ fs).map (fun f => { f with seq := 0 }))

/-- R105, R107, R108, R151, R152, R333: a core whose engines have all waited for DIE_DEADLOCK_WIN cycles reports DEADLOCK once,
as a plan fault by V of the tick and logged only after it, and the die shows WHOLE exactly where every core of it with work
left reports; an engine held by a displaced access carries its instruction out when the access is made, and a weight feeder
delivers its set then; a core all of whose engines rest or wait is gated where the plan lends, and ungated when it is to run.
How the cycles are counted and when a held instruction goes on are the model's reading (logs 117 and 121). -/
def Obligations.StalledAndDeadlockedCoresAreServed : Prop :=
  (∀ (c : CoreId) (cyc : Nat) (s : State), (getCore s c.lcid).dead = false → running s = true → stuck s c.lcid = true →
    getF s (R.DIE_DEADLOCK_WIN.WIN c.die.val) ≤ deadCount s c.lcid cyc →
    Answers (.deadlock c cyc) s fun t =>
      (getCore t c.lcid).dead = true ∧ raised (E.DIE.DEADLOCK c.die.val) t ∧
      getF t (R.DIE_DEADLOCK_STA.CORES c.die.val) = (getF s (R.DIE_DEADLOCK_STA.CORES c.die.val) + 1) % 2 ^ 16 ∧
      (∃ e, smGet none t.flt.log (getF s R.FLT_LOG_HEAD.SEQ % 1024) = some e ∧ e.code = 0x14 ∧ e.unitId = c.lcid ∧
        e.flags % 4 = if s.tick.atV then clLogged else clPlan) ∧
      getF t (R.DIE_DEADLOCK_STA.WHOLE c.die.val) = (if wholeDie t c.die.val then 1 else 0) ∧
      (wholeDie t c.die.val = true → getF s (R.DIE_DEADLOCK_STA.WHOLE c.die.val) = 0 → raised (E.DIE.DIE_DEADLOCK c.die.val) t)) ∧
  (∀ (c : CoreId) (cyc : Nat) (s : State),
    ((getCore s c.lcid).dead = true ∨ running s = false ∨ (engModes (getCore s c.lcid)).all isBlocked = false ∨
      noInbound s c.lcid = false ∨ deadCount s c.lcid cyc < getF s (R.DIE_DEADLOCK_WIN.WIN c.die.val)) →
    exec (.deadlock c cyc) s = .next s) ∧
  (∀ (i : Issue) (w x : Nat) (s : State), Fetches i opTend w x s →
    Answers (.tend i) s fun t =>
      (engOf i t).mode = .atTend ∧ getF t (R.DIE_DEADLOCK_STA.WHOLE i.core.die.val) = (if wholeDie t i.core.die.val then 1 else 0)) ∧
  (∀ (c : CoreId) (e : Engine) (cyc : Nat) (g : Held) (s : State), issueOpen s = true → coreOpen (getCore s c.lcid) = true →
    (getEng (getCore s c.lcid) e.no).mode = .stalled g → mayResume s g cyc = true → g.issue.core = c → g.issue.eng = e →
    (∀ a ∈ g.issue.acc, a.kind = .pending) → (getCore s c.lcid).dead = false → wOp g.w = opVop → vFits g.w (fVCnt g.w + 1) 4 →
    let co := getCore s c.lcid
    let w := g.w
    let h := ceilDiv (fVCnt w + 1) 16
    Answers (.feederResume c e false cyc) s fun t =>
      getEng (getCore t c.lcid) e.no = { mode := .running, idx := (getEng co e.no).idx, free := cyc + h } ∧
      (getCore t c.lcid).outst = co.outst ++ [{ eng := e.no, due := some (cyc + h - 1 + 4), p := wP w, ps := wPS w, run := none }] ∧
      (∀ k, k ≤ fVCnt w → vResult (getCore t c.lcid) w k =
        vopFn (fVFn w) (vInF (lsView s co []) co w k) (vB co g.x k) (vC co g.x k)) ∧
      VecWrote w (fVDst w) (fVCnt w + 1) (4 * (fVCnt w + 1)) co (getCore t c.lcid) ∧ ChangesOnly [.cores] s t) ∧
  (∀ (c : CoreId) (e : Engine) (cyc : Nat) (g : Held) (s : State), issueOpen s = true → coreOpen (getCore s c.lcid) = true →
    e.no < 2 → (getCore s c.lcid).paired = false → smGet none (getCore s c.lcid).heldLdw e.no = some g → mayResume s g cyc = true →
    g.issue.core = c → g.issue.eng = e → (∀ a ∈ g.issue.acc, a.kind = .pending) →
    let d := g.descs.getD (fLdwD g.w) 0
    Answers (.feederResume c e true cyc) s fun t =>
      (shSet (getCore t c.lcid) e.no).desc = d ∧ (shSet (getCore t c.lcid) e.no).kext = fLdwK g.w + 1 ∧
      (shSet (getCore t c.lcid) e.no).full = some (cyc + loadCycles d g.w + 1) ∧
      smGet none (getCore t c.lcid).heldLdw e.no = none ∧
      getEng (getCore t c.lcid) e.no = getEng (getCore s c.lcid) e.no) ∧
  (∀ (c : CoreId) (e : Engine) (cyc : Nat) (g : Held) (s : State), (getEng (getCore s c.lcid) e.no).mode = .stalled g →
    mayResume s g cyc = false → exec (.feederResume c e false cyc) s = .next s) ∧
  (∀ (c : CoreId) (s : State), getF s R.TOP_MODE.BOOST = 1 → getF s R.HTH_BOOST_EN.LEND = 1 →
    (engModes (getCore s c.lcid)).all (fun m => atRest m || isBlocked m) = true →
    (engModes (getCore s c.lcid)).any isBlocked = true → noInbound s c.lcid = true →
    Answers (.coreGate c) s fun t =>
      getCore t c.lcid = { getCore s c.lcid with gated := true } ∧ (∀ d, d ≠ c.lcid → getCore t d = getCore s d) ∧
      ChangesOnly [.cores] s t) ∧
  (∀ (c : CoreId) (s : State),
    Answers (.coreUngate c) s fun t =>
      getCore t c.lcid = { getCore s c.lcid with gated := false } ∧ (∀ d, d ≠ c.lcid → getCore t d = getCore s d) ∧
      ChangesOnly [.cores] s t)

/-! ### The memory stacks -/

/-- R193, R227, R213, R200: the run that arrives next joins the queue of its channel, a Pantry command as its accesses, while
fewer than 32 wait there; the head of the queue starts on a free channel where the windows and the regulator let it, and holds
the channel for its occupancy (R192); where no planned run starts, one of host work may. That a run held by the regulator alone
does not hold the runs of the other side is the model's reading (log 18), that accesses without room wait to join is its
choice (log 20). -/
def Obligations.RunsQueueAndTakeTheirChannel : Prop :=
  (∀ (k : StackNo) (c : ChanNo) (r : Run) (l rest : List Run) (s : State), NextToArrive (chanKey k c) r l rest s →
    (getChan s (chanKey k c)).queue.length < 32 →
    let room := 32 - (getChan s (chanKey k c)).queue.length
    Answers (.runRequest k c) s fun t =>
      t.transit = (panUnits s r).drop room ++ (l ++ rest) ∧
      getChan t (chanKey k c) =
        { getChan s (chanKey k c) with queue := (getChan s (chanKey k c)).queue ++ (panUnits s r).take room } ∧
      (∀ d, d ≠ chanKey k c → getChan t d = getChan s d) ∧ ChangesOnly [.transit, .chans] s t) ∧
  (∀ (r : Run) (s : State), isPan r = false → panUnits s r = [r]) ∧
  (∀ (r : Run) (cmd tensor n : Nat) (e : TensorE) (s : State), r.kind = .pan cmd tensor → cmd < 2 → r.beats = 64 * n → n ≤ 16 →
    unitOk s r.pa = true → extentOf s r.part (r.pa / 2 ^ 36) tensor r.pa n = some e →
    panUnits s r = (List.range n).map fun i =>
      { r with kind := .unit cmd tensor, pa := r.pa + i * unitBytes, beats := 64, data := (r.data.drop (4096 * i)).take 4096 }) ∧
  (∀ (r : Run) (tensor n : Nat) (xs : List Word) (e : TensorE) (s : State), r.kind = .pan 2 tensor →
    extentAt s r.part (r.pa / 2 ^ 36) tensor r.pa = some e → tScatter e = true → e.nc = 32 →
    scatterRows 32 (r.beats + 1) r.data = some [(n, xs)] → xs.length = 32 →
    panUnits s r =
      if e.nunits ≤ n / 32 then [{ r with kind := .unit 2 tensor, beats := 0, data := [] }]
      else [{ r with kind := .unit 2 tensor, pa := e.pa + n / 32 * unitBytes, line := n % 32, beats := 2, data := bytesOf xs }]) ∧
  (∀ (r : Run) (tensor n : Nat) (p : List Word) (e : TensorE) (s : State), r.kind = .pan 3 tensor →
    sweepOf s (r.pa / 2 ^ 36) r = some (p, n, e) →
    panUnits s r = (List.range n).map fun i => { r with kind := .unit 3 tensor, pa := r.pa + i * unitBytes }) ∧
  (∀ (k : StackNo) (c : ChanNo) (s : State), 32 ≤ (getChan s (chanKey k c)).queue.length →
    exec (.runRequest k c) s = .next s) ∧
  (∀ (k : StackNo) (c : ChanNo) (bt : Nat) (host : List Byte) (r : Run) (rs : List Run) (s : State), s.tick.draining = false →
    chanFree s (chanKey k c) bt = true → (getChan s (chanKey k c)).retry = none →
    (getChan s (chanKey k c)).queue = r :: rs → isPan r = false → mayStart s k c bt r = true → (getStk s k).stepOn = false →
    (getCore s r.core).dead = false →
    Answers (.runStart k c bt host) s fun t =>
      getChan t (chanKey k c) = { getChan s (chanKey k c) with cur := some r, start := bt, freeAt := bt + runOcc s r, queue := rs } ∧
      (∀ d, d ≠ chanKey k c → getChan t d = getChan s d) ∧
      (r.part ≠ 0 → smGet 0 (getStk t k).tokens r.part = smGet 0 (getStk s k).tokens r.part - tokensOf (runOcc s r)) ∧
      (r.part = 0 → t.stks = s.stks) ∧ ChangesOnly [.chans, .stks] s t) ∧
  (∀ (k : StackNo) (c : ChanNo) (bt j : Nat) (host : List Byte) (q : HostJob) (r : Run) (s : State), s.tick.draining = false →
    chanFree s (chanKey k c) bt = true → nextRun s k c bt = none → hostFirst s k c bt host = some (j, q, r) →
    (q.tries = 0 → guestFirst s k c bt q.order = false) → hostShort s j q r = false → (getStk s k).stepOn = false →
    Answers (.runStart k c bt host) s fun t =>
      getChan t (chanKey k c) = { getChan s (chanKey k c) with cur := some r, start := bt, freeAt := bt + runOcc s r } ∧
      (∀ d, d ≠ chanKey k c → getChan t d = getChan s d) ∧ ChangesOnly [.chans] s t) ∧
  (∀ (k : StackNo) (c : ChanNo) (bt : Nat) (host : List Byte) (s : State),
    (s.tick.draining = true ∨ chanFree s (chanKey k c) bt = false ∨
      ((∀ r, mayStart s k c bt r = false) ∧ hostFirst s k c bt host = none)) → exec (.runStart k c bt host) s = .next s)

/-- R102, R201 to R204: a run that ends without error brings a read's bytes to its core or a write's to memory, but for a beat
discarded on its way, which is a SLOT_CONFLICT (its DETAIL and unit: log 16); one whose
parity fails is retried up to three times within the reserve, and has failed after; a read with an uncorrectable error
voids the tick in the cellar and is hard in a state channel. -/
def Obligations.RunEndDeliversRetriesOrFails : Prop :=
  (∀ (k : StackNo) (c : ChanNo) (r : Run) (s : State), (getChan s (chanKey k c)).cur = some r → r.kind = .write → r.hinge = none →
    Answers (.runEnd k c false .clean [] []) s fun t =>
      getChan t (chanKey k c) = { getChan s (chanKey k c) with cur := none } ∧
      rdMems t r.pa r.data.length = r.data ∧
      (∀ a, (a < r.pa ∨ r.pa + r.data.length ≤ a) → rdMem t a = rdMem s a) ∧ ChangesOnly [.chans, .mem] s t) ∧
  (∀ (k : StackNo) (c : ChanNo) (r : Run) (s : State), (getChan s (chanKey k c)).cur = some r → r.kind = .read → r.hinge = none →
    64 * (r.line + r.beats) ≤ lsBytes → (getCore s r.core).dead = false →
    Answers (.runEnd k c false .clean [] []) s fun t =>
      lsRead (getCore t r.core) (64 * r.line) (64 * r.beats) = rdMems s r.pa (64 * r.beats) ∧
      (∀ a, (a < 64 * r.line ∨ 64 * (r.line + r.beats) ≤ a) → lsByte (getCore t r.core) a = lsByte (getCore s r.core) a) ∧
      (∀ q ∈ (getCore t r.core).landing, q.stack = r.pa / 2 ^ 36 → q.tick = r.tick → q.seq = r.seq → q.landed = true) ∧
      (∀ d, d ≠ r.core → getCore t d = getCore s d) ∧ ChangesOnly [.chans, .cores] s t) ∧
  (∀ (k : StackNo) (c : ChanNo) (r : Run) (z : LineLoss) (s : State), (getChan s (chanKey k c)).cur = some r → r.kind = .read →
    r.hinge = none → (getCore s r.core).dead = false → z ∈ runLosses r [z] →
    Answers (.runEnd k c false .clean [] [z]) s fun t =>
      (∀ a, 64 * z.line ≤ a → a < 64 * z.line + 64 → lsByte (getCore t r.core) a = lsByte (getCore s r.core) a) ∧
      ∃ e, smGet none t.flt.log (getF s R.FLT_LOG_HEAD.SEQ % 1024) = some e ∧ e.code = 0x10) ∧
  (∀ (k : StackNo) (c : ChanNo) (r : Run) (acc : List LsAcc) (lost : List LineLoss) (s : State),
    (getChan s (chanKey k c)).cur = some r → NotHost r → r.retries < 3 →
    (running s = true → (getChan s (chanKey k c)).retryOcc + runOcc s r ≤ resv s k) →
    Answers (.runEnd k c true .clean acc lost) s fun t =>
      (getChan t (chanKey k c)).retry = some { r with retries := r.retries + 1 } ∧
      (getChan t (chanKey k c)).retryOcc = (getChan s (chanKey k c)).retryOcc + runOcc s r ∧
      (getChan t (chanKey k c)).queue = (getChan s (chanKey k c)).queue ∧
      getF t (R.STK_RETRY_CNT.RETRIES k) = satAdd (2 ^ 16 - 1) (getF s (R.STK_RETRY_CNT.RETRIES k)) 1 ∧
      raised (E.STACK.RETRY k) t ∧ t.mem = s.mem ∧ CoresKeep s t) ∧
  (∀ (k : StackNo) (c : ChanNo) (r : Run) (acc : List LsAcc) (lost : List LineLoss) (s : State),
    (getChan s (chanKey k c)).cur = some r → NotHost r → 3 ≤ r.retries →
    Answers (.runEnd k c true .clean acc lost) s fun t =>
      getF t (R.STK_RETRY_CNT.FAILED k) = satAdd (2 ^ 8 - 1) (getF s (R.STK_RETRY_CNT.FAILED k)) 1 ∧
      raised (E.STACK.RETRY_LIMIT k) t ∧
      (∃ e, smGet none t.flt.log (getF s R.FLT_LOG_HEAD.SEQ % 1024) = some e ∧ e.code = 0x22 ∧ e.unitId = chanKey k c) ∧
      t.mem = s.mem ∧ CoresKeep s t) ∧
  (∀ (k : StackNo) (c : ChanNo) (r : Run) (acc : List LsAcc) (lost : List LineLoss) (s : State),
    (getChan s (chanKey k c)).cur = some r → NotHost r → isRead r = true →
    Answers (.runEnd k c false .uncorrectable acc lost) s fun t =>
      getF t (R.STK_ECC.UE k) = satAdd (2 ^ 8 - 1) (getF s (R.STK_ECC.UE k)) 1 ∧ raised (E.STACK.ECC_UE k) t ∧
      (∃ e, smGet none t.flt.log (getF s R.FLT_LOG_HEAD.SEQ % 1024) = some e ∧
        e.code = (if isCellar s k c then 0x25 else 0x24) ∧ e.unitId = chanKey k c) ∧
      (isCellar s k c = false → getF t (R.PG_STA.FENCED (0x30 + k)) = 1) ∧ t.mem = s.mem)

/-- R195, R197, R199, R208, R211, R212: a refresh window takes its channel for 19 968 byte times at its planned place, in Boost
mode when it is due (3 900 or 7 800 ns by STK_TEMP after the one before; that the first is due a period after the launch is the
model's choice, log 123); a make-up window pays one owed; a margining measurement steps on an idle channel and ends with its result; the zeroing
of changed channels leaves every byte of them 0. That windows are placed by planned time without what a stretch added
is the model's reading (log 17). -/
def Obligations.WindowsMarginingAndZeroingUseTheChannel : Prop :=
  (∀ (k : StackNo) (c : ChanNo) (bt : Nat) (s : State), getF s R.TOP_MODE.BOOST = 0 → windowsStand s = true →
    bt ∈ (tickWindows s k c).map (fun w => ceilDiv (768 * w) 10) → (getStk s k).stepOn = false →
    Answers (.refreshWindow k c bt) s fun t =>
      getChan t (chanKey k c) =
        { getChan s (chanKey k c) with freeAt := max (getChan s (chanKey k c)).freeAt (bt + 19968) } ∧
      (∀ d, d ≠ chanKey k c → getChan t d = getChan s d) ∧ ChangesOnly [.chans] s t) ∧
  (∀ (k : StackNo) (c : ChanNo) (bt : Nat) (s : State), running s = true → getF s R.TOP_MODE.BOOST = 1 →
    chanFree s (chanKey k c) bt = true → windowDue s k c bt = true → (getStk s k).stepOn = false →
    Answers (.refreshWindow k c bt) s fun t =>
      (getChan t (chanKey k c)).freeAt = max (getChan s (chanKey k c)).freeAt (bt + 19968) ∧
      smGet 0 t.refresh.due (chanKey k c) = boostDue s k c ∧ (∀ d, d ≠ chanKey k c → getChan t d = getChan s d) ∧
      ChangesOnly [.chans, .refresh] s t) ∧
  (∀ (k : StackNo) (c : ChanNo) (bt : Nat) (s : State), running s = true → getF s R.TOP_MODE.BOOST = 1 → windowDue s k c bt = false →
    exec (.refreshWindow k c bt) s = .next s) ∧
  (∀ (k : StackNo) (c : ChanNo) (bt : Nat) (s : State), makeupSpan s bt = true → 0 < debt s (chanKey k c) →
    chanFree s (chanKey k c) bt = true → clearOfWindows s k c bt windowOcc = true → (getStk s k).stepOn = false →
    Answers (.makeupWindow k c bt) s fun t =>
      debt t (chanKey k c) = debt s (chanKey k c) - 1 ∧ (∀ d, d ≠ chanKey k c → debt t d = debt s d) ∧
      (getChan t (chanKey k c)).freeAt = max (getChan s (chanKey k c)).freeAt (bt + 19968) ∧
      getF t (R.STK_REF_STA.MAKEUPS k) = satAdd (2 ^ 16 - 1) (getF s (R.STK_REF_STA.MAKEUPS k)) 1 ∧
      RegsBut [R.STK_REF_STA.MAKEUPS k] s t ∧ ChangesOnly [.chans, .refresh, .regs] s t) ∧
  (∀ (k : StackNo) (s : State), getF s (R.STK_MARGIN_CTL.LANE k) ≤ 80 →
    Answers (.stkMarginStart k) s fun t =>
      (getStk t k).margin = true ∧ getF t (R.STK_MARGIN_RES.DONE k) = 0 ∧ RegsBut [R.STK_MARGIN_RES.DONE k] s t ∧
      ChangesOnly [.stks, .regs] s t) ∧
  (∀ (k : StackNo) (bt : Nat) (s : State), marginOpen s k bt = true →
    Answers (.marginStep k bt none) s fun t =>
      (getStk t k).stepOn = true ∧ getF t (R.STK_MARGIN_RES.ABORTED k) = 0 ∧ RegsBut [R.STK_MARGIN_RES.ABORTED k] s t ∧
      ChangesOnly [.stks, .regs] s t) ∧
  (∀ (k : StackNo) (bt low high : Nat) (s : State), marginOpen s k bt = true →
    Answers (.marginStep k bt (some (low, high))) s fun t =>
      (getStk t k).margin = false ∧ getF t (R.STK_MARGIN_RES.LOW k) = low % 256 ∧ getF t (R.STK_MARGIN_RES.HIGH k) = high % 256 ∧
      getF t (R.STK_MARGIN_RES.DONE k) = 1 ∧
      getF t (R.STK_MARGIN_RES.PASS k) = (if marginNeed (getF s (R.STK_MARGIN_CTL.LANE k)) (getF s (R.STK_MARGIN_CTL.AXIS k)) ≤
        low + high then 1 else 0) ∧ raised (E.STACK.MARGIN_DONE k) t ∧ t.mem = s.mem) ∧
  (∀ (k : StackNo) (s : State),
    Answers (.channelZeroingDone k) s fun t =>
      (∀ c a, c < 32 → bitsOf (getStk s k).zeroMask c 1 = 1 → k * 2 ^ 36 + c * 2 ^ 31 ≤ a → a < k * 2 ^ 36 + (c + 1) * 2 ^ 31 →
        rdMem t a = 0) ∧
      (∀ a, (∀ c, c < 32 → bitsOf (getStk s k).zeroMask c 1 = 1 → a < k * 2 ^ 36 + c * 2 ^ 31 ∨ k * 2 ^ 36 + (c + 1) * 2 ^ 31 ≤ a) →
        rdMem t a = rdMem s a) ∧
      (getStk t k).zeroMask = 0 ∧ getF t (R.PG_STA.ZEROING (0x30 + k)) = 0 ∧ ChangesOnly [.mem, .stks, .regs] s t)

/-! ### The Pantry -/

/-- R223 to R227, R242: an access of a gradient command at the head of its channel's queue writes its unit's gradient area, or
adds into it, and counts the contribution in the flag store; one of a scatter-add adds its row into one line of its unit, and an
index beyond the extent is dropped. Memory outside the gradient area stays. -/
def Obligations.GradientCommandsUpdateTheGradientArea : Prop :=
  (∀ (k : StackNo) (c : ChanNo) (sv : Served) (tensor : Nat) (r : Run) (rest : List Run) (e : TensorE) (s s1 : State),
    PanHead k c sv r rest s → r.kind = .unit 0 tensor → r.data.length = 4096 →
    extentOf s r.part k tensor r.pa 1 = some e → 1 ≤ e.mb → smGet false (getPan s k).swept (unitNo r.pa) = false →
    (srcOf s k (unitNo r.pa) = 0 ∨ srcOf s k (unitNo r.pa) = r.core + 1) → journal k r.pa true 0 s = some s1 →
    Answers (.gradWr k c sv) s fun t =>
      rdMems t (r.pa + 4096) 4096 = r.data ∧ flagByte t k (unitNo r.pa) = mkFlag 1 ∧ (getChan t (chanKey k c)).queue = rest ∧
      (getChan t (chanKey k c)).freeAt = sv.bt + panOcc 0 4096 ∧
      ∀ a, (a < r.pa + 4096 ∨ r.pa + 8192 ≤ a) → rdMem t a = rdMem s a) ∧
  (∀ (k : StackNo) (c : ChanNo) (sv : Served) (tensor : Nat) (r : Run) (rest : List Run) (e : TensorE) (s s1 : State),
    PanHead k c sv r rest s → r.kind = .unit 1 tensor → r.data.length = 4096 →
    extentOf s r.part k tensor r.pa 1 = some e → smGet false (getPan s k).swept (unitNo r.pa) = false →
    (srcOf s k (unitNo r.pa) = 0 ∨ srcOf s k (unitNo r.pa) = r.core + 1) → journal k r.pa true 0 s = some s1 →
    fW (flagByte s k (unitNo r.pa)) = true → fCnt (flagByte s k (unitNo r.pa)) < e.mb →
    fCnt (flagByte s k (unitNo r.pa)) < 15 →
    Answers (.gradAdd k c sv) s fun t =>
      gradAt t r.pa = List.zipWith add32 (gradAt s r.pa) (wordsOf 1024 r.data) ∧
      flagByte t k (unitNo r.pa) = mkFlag (fCnt (flagByte s k (unitNo r.pa)) + 1) ∧ (getChan t (chanKey k c)).queue = rest ∧
      ∀ a, (a < r.pa + 4096 ∨ r.pa + 8192 ≤ a) → rdMem t a = rdMem s a) ∧
  (∀ (k : StackNo) (c : ChanNo) (sv : Served) (tensor : Nat) (r : Run) (rest : List Run) (s s1 : State),
    PanHead k c sv r rest s → r.kind = .unit 2 tensor → r.beats = 2 → r.line < 32 → r.pa / 2 ^ 36 = k.val →
    let line := r.pa + 4096 + 128 * r.line
    let w := fW (flagByte s k (unitNo r.pa))
    smGet false (getPan s k).swept (unitNo r.pa) = false → journal k r.pa true 0 s = some s1 →
    Answers (.scatterAdd k c sv) s fun t =>
      wordsOf 32 (rdMems t line 128) =
        List.zipWith add32 (if w then wordsOf 32 (rdMems s line 128) else List.replicate 32 0#32) (wordsOf 32 r.data) ∧
      fW (flagByte t k (unitNo r.pa)) = true ∧
      (∀ a, r.pa + 4096 ≤ a → a < r.pa + 8192 → (a < line ∨ line + 128 ≤ a) → rdMem t a = if w then rdMem s a else 0) ∧
      ∀ a, (a < r.pa + 4096 ∨ r.pa + 8192 ≤ a) → rdMem t a = rdMem s a) ∧
  (∀ (k : StackNo) (c : ChanNo) (sv : Served) (tensor : Nat) (r : Run) (rest : List Run) (s : State),
    PanHead k c sv r rest s → r.kind = .unit 2 tensor → r.beats = 0 →
    Answers (.scatterAdd k c sv) s fun t => t.mem = s.mem ∧ raised (E.PANTRY.SCATTER_RANGE k) t)

/-- R234, R235, R237 to R241, R243: an access of a sweep updates the master weights of its unit by the tensor's algorithm from the
clipped gradients and leaves its gradients; a unit that it covers is marked so whether or not it is updated; where the step's
sweeps are skipped it changes no memory and shows SKIPPED. -/
def Obligations.SweepUpdatesTheMasterWeights : Prop :=
  (∀ (k : StackNo) (c : ChanNo) (sv : Served) (tensor : Nat) (r : Run) (rest : List Run) (e : TensorE) (q : PanSec) (s s1 : State),
    PanHead k c sv r rest s → r.kind = .unit 3 tensor → r.pa / 2 ^ 36 = k.val → extentOf s r.part k tensor r.pa 1 = some e →
    sweepSkipped s k = false → tNorm e = false → tWc e = 0 → panSec s r.part = some q → srcOf s k (unitNo r.pa) = 0 →
    fW (flagByte s k (unitNo r.pa)) = true → e.mb ≤ fCnt (flagByte s k (unitNo r.pa)) → journal k r.pa false e.alg s = some s1 →
    Answers (.sweep k c sv) s fun t =>
      masterAt t r.pa = ((List.range 1024).map fun i =>
        (updElem e.alg q.mseq
          { p := wordsOf 16 r.data, clip := one32, w := (masterAt s r.pa).getD i 0, g := mul32 ((gradAt s r.pa).getD i 0) one32,
            m := (momentsAt s r.pa 8192 10240 decodeFirst).getD i 0,
            v := (momentsAt s r.pa 9216 10272 decodeSecond).getD i 0 }).1) ∧
      gradAt t r.pa = gradAt s r.pa ∧ smGet false (getPan t k).swept (unitNo r.pa) = true ∧
      getF t (R.PAN_CLIP.C k) = one32.toNat ∧
      ∀ a, (a < r.pa ∨ r.pa + unitBytes ≤ a) → rdMem t a = rdMem s a) ∧
  (∀ (k : StackNo) (c : ChanNo) (sv : Served) (tensor : Nat) (r : Run) (rest : List Run) (e : TensorE) (s : State),
    PanHead k c sv r rest s → r.kind = .unit 3 tensor → r.pa / 2 ^ 36 = k.val → extentOf s r.part k tensor r.pa 1 = some e →
    srcOf s k (unitNo r.pa) = 0 → sweepSkipped s k = true →
    Answers (.sweep k c sv) s fun t =>
      t.mem = s.mem ∧ getF t (R.PAN_STA.SKIPPED k) = 1 ∧ smGet false (getPan t k).swept (unitNo r.pa) = true ∧
      ((getPan s k).skipRec = false → raised (E.PANTRY.STEP_SKIPPED k) t))

/-- R245, R246, R236, R200: START makes a transfer BUSY with its reads to do, or fails it with its cause; when the last read of an
export is done its record is the one write that is left, unless a sweep tore it; an import whose record fails its checks ends
with the cause, else writes its units; a run of host work that ends without error moves its bytes; a transfer with nothing
left to do shows its end, an import with its units' flag bytes cleared; GNS_CLR waits for the boundary. -/
def Obligations.ExportAndImportMoveTheShard : Prop :=
  (∀ (k : StackNo) (s : State), getF s (R.PAN_EXP_STA.BUSY k) = 0 →
    let us := shardUnits (shardOf s k (expTensor s k))
    let content := 1 + 2 * getF s (R.PAN_EXP_CTL.MOM k) + 4 * getF s (R.PAN_EXP_CTL.GRAD k)
    Answers (.panExport k) s fun t =>
      t.mem = s.mem ∧
      if us = [] then ExpFailed k 6 t
      else if inCellar s (expAddr s k) (64 + us.length * bodyBytes content) = false then ExpFailed k 4 t
      else getF t (R.PAN_EXP_STA.BUSY k) = 1 ∧ getF t (R.PAN_EXP_STA.DONE k) = 0 ∧ getF t (R.PAN_EXP_STA.FAIL k) = 0 ∧
        (getPan t k).xfer = some (false, expTensor s k, content, expAddr s k, false) ∧
        ∃ q, getJob t (expJob k) = some q ∧ q.todo = exportReads content us ∧ q.order = s.hif.accepted) ∧
  (∀ (k : StackNo) (s : State), getF s (R.PAN_EXP_STA.BUSY k) = 0 →
    let us := shardUnits (shardOf s k (expTensor s k))
    Answers (.panImport k) s fun t =>
      t.mem = s.mem ∧
      if running s then ExpFailed k 5 t
      else if us = [] then ExpFailed k 6 t
      else if inCellar s (expAddr s k) 64 = false then ExpFailed k 4 t
      else getF t (R.PAN_EXP_STA.BUSY k) = 1 ∧
        (getPan t k).xfer = some (true, expTensor s k, 1 + 2 * getF s (R.PAN_EXP_CTL.MOM k), expAddr s k, false) ∧
        ∃ q, getJob t (expJob k) = some q ∧ q.todo = [readAcc (expAddr s k) 64] ∧ q.order = s.hif.accepted) ∧
  (∀ (k x : StackNo) (c : ChanNo) (r : Run) (q : HostJob) (a : HostAcc) (tensor content pa : Nat) (torn : Bool) (e : TensorE)
    (l : List TensorE) (s : State), (getChan s (chanKey k c)).cur = some r → r.kind = .host (expJob x) false →
    getJob s (expJob x) = some q → q.todo = [a] → a.wr = false → a.len ≤ 64 * r.beats → q.phase = 0 →
    (getPan s x).xfer = some (false, tensor, content, pa, torn) → shardOf s x tensor = e :: l →
    Answers (.runEnd k c false .clean [] []) s fun t =>
      t.mem = s.mem ∧ (getChan t (chanKey k c)).cur = none ∧
      ∃ p, getJob t (expJob x) = some p ∧ p.phase = 1 ∧
        p.todo = if torn then [] else [writeAcc pa (shardRecord q.head (q.got ++ rdMems s r.pa a.len))]) ∧
  (∀ (k x : StackNo) (c : ChanNo) (r : Run) (q : HostJob) (a : HostAcc) (tensor content pa : Nat) (e : TensorE)
    (l : List TensorE) (s : State), (getChan s (chanKey k c)).cur = some r → r.kind = .host (expJob x) false →
    getJob s (expJob x) = some q → q.todo = [a] → a.wr = false → a.len ≤ 64 * r.beats → q.phase = 1 →
    (getPan s x).xfer = some (true, tensor, content, pa, false) → shardOf s x tensor = e :: l →
    let us := shardUnits (e :: l)
    let body := q.got ++ rdMems s r.pa a.len
    Answers (.runEnd k c false .clean [] []) s fun t =>
      ∃ p, getJob t (expJob x) = some p ∧
        match importCheck q.head body e us.length with
        | some cause => p.fault = cause ∧ p.todo = []
        | none => p.phase = 2 ∧ p.todo = importAll (field q.head 33 1) us body) ∧
  (∀ (k : StackNo) (c : ChanNo) (r : Run) (j : Nat) (q : HostJob) (s : State), (getChan s (chanKey k c)).cur = some r →
    r.kind = .host j true → getJob s j = some q →
    Answers (.runEnd k c false .clean [] []) s fun t =>
      rdMems t r.pa r.data.length = r.data ∧ (∀ a, (a < r.pa ∨ r.pa + r.data.length ≤ a) → rdMem t a = rdMem s a) ∧
      (getChan t (chanKey k c)).cur = none) ∧
  (∀ (k : StackNo) (dir : Bool) (tensor content pa : Nat) (q : HostJob) (s : State),
    (getPan s k).xfer = some (dir, tensor, content, pa, false) → getJob s (expJob k) = some q → exportOver dir q = true → q.fault = 0 →
    let us := shardUnits (shardOf s k tensor)
    Answers (.exportDone k) s fun t =>
      getF t (R.PAN_EXP_STA.BUSY k) = 0 ∧ getF t (R.PAN_EXP_STA.DONE k) = 1 ∧ getF t (R.PAN_EXP_STA.FAIL k) = 0 ∧
      getF t (R.PAN_EXP_STA.UNITS k) = us.length % 2 ^ 24 ∧ (getPan t k).xfer = none ∧ getJob t (expJob k) = none ∧
      raised (E.PANTRY.EXPORT_DONE k) t ∧ t.mem = s.mem ∧ (dir = true → ∀ u ∈ us, flagByte t k (unitNo u) = 0)) ∧
  (∀ (k : StackNo) (dir : Bool) (tensor content pa : Nat) (torn : Bool) (q : HostJob) (s : State),
    (getPan s k).xfer = some (dir, tensor, content, pa, torn) → getJob s (expJob k) = some q → exportOver dir q = true →
    (q.fault ≠ 0 ∨ torn = true) → q.fault < 16 →
    Answers (.exportDone k) s fun t => ExpFailed k (if q.fault ≠ 0 then q.fault else 1) t ∧ t.mem = s.mem) ∧
  (∀ (k : StackNo) (dir : Bool) (tensor content pa : Nat) (torn : Bool) (q : HostJob) (s : State),
    (getPan s k).xfer = some (dir, tensor, content, pa, torn) → getJob s (expJob k) = some q → exportOver dir q = false →
    exec (.exportDone k) s = .next s) ∧
  (∀ (k : StackNo) (s : State),
    Answers (.gnsClr k) s fun t =>
      getPan t k = { getPan s k with gnsClr := true } ∧ (∀ j, j ≠ k → getPan t j = getPan s j) ∧ ChangesOnly [.pans] s t)

/-! ### Ports -/

/-- R251, R254 to R256, R263: in a service slot the oldest SYNC frame leaves, twice; in a slot that a route entry holds,
the first planned frame of that entry leaves with the next LSEQ and is held; where nothing waits the slot is IDLE. -/
def Obligations.EgressSlotSendsWhatItsSlotIsFor : Prop :=
  (∀ (p : PortNo) (slot : Nat) (x : SyncTx) (xs : List SyncTx) (s : State), PortSends p s → slot % 16 = 15 →
    (getPort s p).syncQ = x :: xs →
    Answers (.egressSlot p slot) s fun t =>
      smGet none t.out.frames p = some (stampLink (getPort s p) { x.frame with copy := x.sent == 1 }) ∧
      (getPort t p).syncQ = (if x.sent = 0 then { x with sent := 1 } :: xs else xs) ∧
      (getPort t p).held = (getPort s p).held ∧ (getPort t p).planned = (getPort s p).planned ∧
      (∀ q : Nat, q ≠ p → getPort t q = getPort s q) ∧ ChangesOnly [.ports, .out] s t) ∧
  (∀ (p : PortNo) (slot : Nat) (e : FabE) (f : Frame) (s : State), PortSends p s → slot % 16 ≠ 15 → (getPort s p).goback = none →
    (portRoutes s p).find? (holdsSlot s slot) = some e → plannedOpen s = true → (getPort s p).held.length < 1024 →
    ((getPort s p).planned.find? fun g => matchesRoute g e) = some f →
    let g : Frame := { f with lseq := (getPort s p).lseq, seqv := true }
    Answers (.egressSlot p slot) s fun t =>
      smGet none t.out.frames p = some (stampLink (getPort s p) g) ∧
      (getPort t p).held = (getPort s p).held ++ [(g, 1)] ∧ (getPort t p).lseq = ((getPort s p).lseq + 1) % 4096 ∧
      (getPort t p).planned = dropOne f (getPort s p).planned ∧
      (∀ q : Nat, q ≠ p → getPort t q = getPort s q) ∧ ChangesOnly [.ports, .out] s t) ∧
  (∀ (p : PortNo) (slot : Nat) (s : State), PortSends p s → (getPort s p).syncQ = [] → (getPort s p).goback = none →
    (getPort s p).planned = [] → (getPort s p).ctrlQ = [] → (getPort s p).testQ = [] →
    Answers (.egressSlot p slot) s fun t =>
      smGet none t.out.frames p = some (stampLink (getPort s p) (ctrlFrame s 0 0 0 [])) ∧
      getPort t p = { getPort s p with nakNext := false } ∧
      (∀ q : Nat, q ≠ p → getPort t q = getPort s q) ∧ ChangesOnly [.ports, .out] s t)

/-- R250, R252, R256, R257, R270: a frame with a bad CRC, or with a byte in a codeword past correction, is only counted; an expected DATA frame for this package is accepted
and takes its place in the Landing; one ahead of the expected number is discarded and asks for a replay; a valid ACK
frees the held frames before it. -/
def Obligations.ReceivedFramesAreCheckedAndPlaced : Prop :=
  (∀ (p : PortNo) (f : Frame) (corr uncorr : Nat) (s : State), getF s (R.PORT_STA.UP p) = 1 → (getPort s p).retraining = false →
    (f.crc ≠ frameCrc f ∨ uncorr ≠ 0) →
    Answers (.frameReceive p f corr uncorr) s fun t =>
      getF t (R.PORT_BER.CRCERR p) = satAdd (2 ^ 8 - 1) (getF s (R.PORT_BER.CRCERR p)) 1 ∧
      getF t (R.PORT_BER.CORR p) = satAdd (2 ^ 16 - 1) (getF s (R.PORT_BER.CORR p)) corr ∧
      getF t (R.PORT_BER.UNCORR p) = satAdd (2 ^ 8 - 1) (getF s (R.PORT_BER.UNCORR p)) uncorr ∧
      RegsBut [R.PORT_BER.CRCERR p, R.PORT_BER.CORR p, R.PORT_BER.UNCORR p] s t ∧ ChangesOnly [.regs] s t) ∧
  (∀ (p : PortNo) (f : Frame) (s : State), getF s (R.PORT_STA.UP p) = 1 → (getPort s p).retraining = false → inService s p = true →
    f.crc = frameCrc f → f.cls = clsData → f.kind = 0 → f.bc = false → f.dst = myId s → f.ackv = false →
    lseqDist f.lseq (getPort s p).e = 0 → LandsHere f s →
    Answers (.frameReceive p f 0 0) s fun t =>
      (getPort t p).e = ((getPort s p).e + 1) % 4096 ∧
      (∃ g : Landed, t.hall.land = s.hall.land ++ [g] ∧ sameFrame f g.toFrame = true ∧ g.src = f.src ∧ g.tick = f.tick ∧
        g.seq = f.seq ∧ g.came = s.counter) ∧
      t.cores = s.cores ∧ t.mem = s.mem) ∧
  (∀ (p : PortNo) (f : Frame) (s : State), getF s (R.PORT_STA.UP p) = 1 → (getPort s p).retraining = false → inService s p = true →
    f.crc = frameCrc f → f.cls ≤ clsColl → f.ackv = false → 0 < lseqDist f.lseq (getPort s p).e →
    lseqDist f.lseq (getPort s p).e < 0x800 → (getPort s p).gap = false →
    Answers (.frameReceive p f 0 0) s fun t =>
      getPort t p = { getPort s p with gap := true, nakNext := true } ∧ t.hall = s.hall ∧ t.cores = s.cores ∧ t.mem = s.mem) ∧
  (∀ (p : PortNo) (f : Frame) (s : State), getF s (R.PORT_STA.UP p) = 1 → (getPort s p).retraining = false →
    f.crc = frameCrc f → f.cls = clsCtrl → f.kind = 0 → f.ackv = true → f.nak = false → ackValid (getPort s p) f.ack = true →
    Answers (.frameReceive p f 0 0) s fun t =>
      (getPort t p).held = (getPort s p).held.drop (lseqDist f.ack (oldest (getPort s p))) ∧
      (getPort t p).planned = (getPort s p).planned ∧ t.hall = s.hall)

/-- R256, R257, R259, R260, Table 9.9: what the timers and the light of a port do: NAK again, replay from the oldest held
frame, retrain after a fifth send, go down when a retrain fails or light is lost, and the laser's safe bursts. -/
def Obligations.PortTimersReplayRetrainAndFail : Prop :=
  (∀ (p : PortNo) (s : State), (getPort s p).gap = true →
    Answers (.nakTimeout p) s fun t => getPort t p = { getPort s p with nakNext := true } ∧ ChangesOnly [.ports] s t) ∧
  (∀ (p : PortNo) (f : Frame) (n : Nat) (rest : List (Frame × Nat)) (s : State), (getPort s p).held = (f, n) :: rest → n < 4 →
    (getPort s p).goback = none → (getPort s p).retraining = false →
    Answers (.replayTimeout p) s fun t =>
      getPort t p = { getPort s p with goback := some f.lseq } ∧
      getF t (R.PORT_REPLAY_CNT.TIMEOUTS p) = satAdd (2 ^ 8 - 1) (getF s (R.PORT_REPLAY_CNT.TIMEOUTS p)) 1 ∧
      getF t (R.PORT_REPLAY_CNT.REPLAYS p) = satAdd (2 ^ 16 - 1) (getF s (R.PORT_REPLAY_CNT.REPLAYS p)) 1 ∧
      ChangesOnly [.ports, .regs] s t) ∧
  (∀ (p : PortNo) (f : Frame) (n : Nat) (rest : List (Frame × Nat)) (s : State), (getPort s p).held = (f, n) :: rest → 4 ≤ n →
    (getPort s p).goback = none → (getPort s p).retraining = false → usableDup s p = none → (getPort s p).lastRetrain = none →
    Answers (.replayTimeout p) s fun t =>
      (getPort t p).retraining = true ∧ (getPort t p).held = [] ∧ (getPort t p).lseq = 0 ∧ (getPort t p).e = 0 ∧
      raised (E.PORCH.RETRAIN p) t ∧ raised (E.PORCH.FLITS_LOST p) t) ∧
  (∀ (p : PortNo) (s : State), getF s (R.PORT_STA.DOWN p) = 0 → (getPort s p).retraining = true →
    Answers (.retrainDone p) s fun t => getPort t p = { getPort s p with retraining := false } ∧ ChangesOnly [.ports] s t) ∧
  (∀ (p : PortNo) (s : State), getF s (R.PORT_STA.DOWN p) = 0 → (getPort s p).retraining = true →
    Answers (.retrainTimeout p) s fun t => getF t (R.PORT_STA.DOWN p) = 1 ∧ raised (E.PORCH.PORT_DOWN p) t) ∧
  (∀ (p : PortNo) (s : State), getF s (R.PORT_STA.DOWN p) = 0 →
    Answers (.lossOfLight p) s fun t =>
      getF t (R.PORT_STA.DOWN p) = 1 ∧ getF t (R.PORT_STA.UP p) = 0 ∧ raised (E.PORCH.PORT_DOWN p) t) ∧
  (∀ (p : PortNo) (s : State), getF s (R.PORT_LASER.SAFE p) = 0 →
    Answers (.laserSafe p) s fun t => getF t (R.PORT_LASER.SAFE p) = 1 ∧ raised (E.PORCH.LASER_SAFE p) t ∧ t.ports = s.ports) ∧
  (∀ (p : PortNo) (s : State),
    Answers (.lightReturns p) s fun t =>
      getF t (R.PORT_LASER.SAFE p) = 0 ∧ (getPort t p).light = true ∧ RegsBut [R.PORT_LASER.SAFE p] s t) ∧
  (∀ (p : PortNo) (en : Bool) (s : State),
    Answers (.portLaserWrite p en) s fun t =>
      getF t (R.PORT_LASER.EN p) = (if en then 1 else 0) ∧ getF t (R.PORT_LASER.ON p) = (if en then 1 else 0) ∧
      (en = false → getF s (R.PORT_STA.ACTIVE p) = 1 → getF t (R.PORT_STA.DOWN p) = 1))

/-- R266, R267, R269: a REBIND on a usable duplicate, or the REBIND_ACK awaited, moves the numbers and waiting frames
of the failed link to it; the repeat and the end of the wait; the IDENT that is sent and the one that is heard. The
bytes of the IDENT, REBIND and REBIND_ACK payloads are the model's choice (log 23). -/
def Obligations.RebindingMovesTheLinkToItsDuplicate : Prop :=
  (∀ (p : PortNo) (e : Nat) (s : State), isDup s p = true → dupTarget s p ≠ p → getF s (R.PORT_STA.ACTIVE p) = 0 →
    (∀ h ∈ (getPort s (dupTarget s p)).held, h.2 < 4) →
    Answers (.rebind p e) s fun t =>
      LinkMoved (dupTarget s p) p s t ∧
      rebindFrame s 3 (getPort s (dupTarget s p)).e ∈ (getPort t p).ctrlQ) ∧
  (∀ (p : PortNo) (e : Nat) (s : State), isDup s p = true → dupTarget s p ≠ p → (getPort s (dupTarget s p)).rebinding = true →
    (∀ h ∈ (getPort s (dupTarget s p)).held, h.2 < 4) →
    Answers (.rebindAck p e) s (LinkMoved (dupTarget s p) p s)) ∧
  (∀ (p : PortNo) (j : Nat) (s : State), (getPort s p).rebinding = true → dupOf s p = some j →
    Answers (.rebindRepeat p) s fun t =>
      (getPort t j).ctrlQ = (getPort s j).ctrlQ ++ [rebindFrame s 2 (getPort s p).e] ∧ ChangesOnly [.ports] s t) ∧
  (∀ (p : PortNo) (s : State), (getPort s p).rebinding = true →
    Answers (.rebindTimeout p) s fun t =>
      (getPort t p).rebinding = false ∧ getF t (R.PG_STA.FENCED (0x20 + p / 4)) = 1 ∧
      ∃ e, smGet none t.flt.log (getF s R.FLT_LOG_HEAD.SEQ % 1024) = some e ∧ e.code = 0x3A ∧ e.unitId = p) ∧
  (∀ (p : PortNo) (s : State), getF s (R.PORT_STA.UP p) = 1 →
    Answers (.identTimer p) s fun t =>
      (∃ f : Frame, (getPort t p).ctrlQ = (getPort s p).ctrlQ ++ [f] ∧ f.cls = clsCtrl ∧ f.kind = 1 ∧ f.payload = identPayload s p) ∧
      ChangesOnly [.ports] s t) ∧
  (∀ (p : PortNo) (m : IdentMsg) (s : State),
    Answers (.ident p m) s fun t =>
      getF t (R.PORT_PEER_ID.PKG p) = m.pkg % 2 ^ 12 ∧ getF t (R.PORT_PEER_ID.PORT p) = m.port % 2 ^ 6 ∧
      getF t (R.PORT_PEER_ID.VALID p) = 1 ∧
      (getPort t p).heard = some [m.pkg, m.port, m.serial, m.bind, m.heardPkg, m.heardPort] ∧
      (∀ l, (getPort s p).heard = some l → l.take 3 ≠ [m.pkg, m.port, m.serial] → inService s p = true →
        getF t (R.PORT_STA.DOWN p) = 1))

/-- R281, R282, R283, R284, R289, R294, R322: a contribution is ready when its frames have landed and the steps before it are
added; the one that the engine took first enters its sum when its lanes have added its frames, or its check fails; a lock-step
frame of the tick is kept at its place. That the lanes work without a gap from the moment of readiness is the model's reading
(log 35). -/
def Obligations.ContributionsAndSignaturesAreCollected : Prop :=
  (∀ (part : Nat) (pl : Plan) (r : Ready) (s : State), r ∈ readyAll s part pl →
    ∃ q ∈ s.reduce.pieces, q.part = part ∧ q.ctx = r.ctx ∧ q.seg = r.seg ∧ q.tick = s.tick.job ∧ r.k < max 1 pl.npkg ∧
      stepReady q.arr (getSum s part r.ctx r.seg s.tick.job) r.k = true ∧
      pieceData s part r.ctx 0 r.seg r.k ((pl.pos + max 1 pl.npkg - r.k % max 1 pl.npkg) % max 1 pl.npkg) q.len = some r.bytes) ∧
  (∀ (part : Fin 4) (ctx : Fin 8) (pl : Plan) (e : CollE) (r : Ready) (s : State),
    getPlan s part = some pl → collEntry pl ctx = some e →
    (readyAll s part pl).find? (fun x => x.ctx == ctx.val && x.seg == r.seg && x.k == r.k) = some r → isFirst (readyAll s part pl) r = true →
    engineDone s part r (pieceFrames (r.bytes.length / 64)) = true →
    Answers (.reductionAdd part ctx r.seg r.k none) s fun t =>
      let m := redStep e.format (getSum s part ctx r.seg s.tick.job) r.k
        (redElems e.format (r.bytes.length / inBytes e.format) r.bytes)
      getSum t part ctx r.seg s.tick.job =
        { m.1 with sat := (getSum s part ctx r.seg s.tick.job).sat || m.2,
                   doneAt := ceilDiv (laneEnd s part r (pieceFrames (r.bytes.length / 64))) (lanesOf s part) } ∧
      t.reduce.pieces = s.reduce.pieces ∧ t.hall = s.hall ∧ t.mem = s.mem ∧ t.cores = s.cores) ∧
  (∀ (part : Fin 4) (ctx : Fin 8) (exp : Bool) (pl : Plan) (e : CollE) (r : Ready) (s : State),
    getPlan s part = some pl → collEntry pl ctx = some e →
    (readyAll s part pl).find? (fun x => x.ctx == ctx.val && x.seg == r.seg && x.k == r.k) = some r → isFirst (readyAll s part pl) r = true →
    engineDone s part r (pieceFrames (r.bytes.length / 64)) = true →
    Answers (.reductionAdd part ctx r.seg r.k (some exp)) s fun t =>
      raised E.REDUCE.RESIDUE t ∧ getF t R.RED_RESIDUE_ERR.CTX = ctx ∧ getF t R.RED_RESIDUE_ERR.PART = part ∧
      getF t R.RED_RESIDUE_ERR.EXP = (if exp then 1 else 0) ∧ getF t R.RED_RESIDUE_ERR.VALID = 1 ∧
      (∃ r, smGet none t.flt.log (getF s R.FLT_LOG_HEAD.SEQ % 1024) = some r ∧ r.code = 0x30) ∧ t.mem = s.mem) ∧
  (∀ (part : Fin 4) (ctx : Fin 8) (seg k : Nat) (bad : Option Bool) (pl : Plan) (s : State), getPlan s part = some pl →
    (∀ r ∈ readyAll s part pl, r.ctx = ctx.val → r.seg = seg → r.k = k →
      isFirst (readyAll s part pl) r = false ∨ engineDone s part r (pieceFrames (r.bytes.length / 64)) = false) →
    exec (.reductionAdd part ctx seg k bad) s = .next s) ∧
  (∀ (f : Nat) (data : List Byte) (s : State), lockstepOn s = true → running s = true → f ≤ 12 →
    let n := if f = 12 then 128 else 256
    data.length = n →
    Answers (.lockstep (tickNum s) f data) s fun t =>
      f ∈ t.flt.peerGot ∧ smGetList 0 t.flt.peerSig (256 * f) n = data ∧
      (∀ a, (a < 256 * f ∨ 256 * f + n ≤ a) → smGet 0 t.flt.peerSig a = smGet 0 s.flt.peerSig a) ∧
      t.flt.log = s.flt.log ∧ ChangesOnly [.flt] s t) ∧
  (∀ (tick f : Nat) (data : List Byte) (s : State), (lockstepOn s = false ∨ running s = false ∨ tick ≠ tickNum s) →
    exec (.lockstep tick f data) s = .next s)

/-! ### The guest -/

/-- R71 to R76: a memory request that passes every check takes its credits and waits; the first check it fails fences
the guest and records the cause; a stream flit lands; the oldest request is served between D and V. The source and the
frame number of a guest's stream flit are the model's reading (log 26, log 27). -/
def Obligations.GuestRequestsAreCheckedAndServed : Prop :=
  (∀ (f : GFlit) (s : State), FromGuest f s → f.type = 1 → formatOk f = true → getF s (R.PG_CTL.EN 0x40) = 1 →
    requestCheck s false f = none →
    Answers (.guestRd f) s fun t =>
      t.guest = { s.guest with
        e := (s.guest.e + 1) % 4096, gap := false, ackDue := true, credits := s.guest.credits - f.len,
        reqs := s.guest.reqs ++
          [{ data := none, addr := f.addr, len := f.len, tag := f.tag, tick := s.tick.job, order := s.hif.accepted }] } ∧
      t.hif = { s.hif with accepted := s.hif.accepted + 1 } ∧ ChangesOnly [.guest, .hif] s t) ∧
  (∀ (f : GFlit) (s : State), FromGuest f s → f.type = 2 → formatOk f = true → getF s (R.PG_CTL.EN 0x40) = 1 →
    requestCheck s true f = none →
    Answers (.guestWr f) s fun t =>
      t.guest = { s.guest with
        e := (s.guest.e + 1) % 4096, gap := false, ackDue := true, credits := s.guest.credits - f.len,
        reqs := s.guest.reqs ++
          [{ data := some f.payload, addr := f.addr, len := f.len, tag := f.tag, tick := s.tick.job, order := s.hif.accepted }] } ∧
      t.hif = { s.hif with accepted := s.hif.accepted + 1 } ∧ ChangesOnly [.guest, .hif] s t) ∧
  (∀ (f : GFlit) (cause win : Nat) (s : State), FromGuest f s → f.type = 1 → formatOk f = true → getF s (R.PG_CTL.EN 0x40) = 1 →
    requestCheck s false f = some (cause, win) → getF s R.GST_VIOL_INFO.VALID = 0 →
    Answers (.guestRd f) s fun t =>
      raised E.GUEST.GUEST_VIOL t ∧ getF t R.GST_STA.FENCED = 1 ∧ getF t R.GST_VIOL_INFO.CAUSE = cause % 8 ∧
      getF t R.GST_VIOL_INFO.WIN = win % 16 ∧ getF t R.GST_VIOL_INFO.TYPE = 1 ∧ t.guest.reqs = s.guest.reqs ∧
      t.guest.credits = s.guest.credits ∧ t.mem = s.mem) ∧
  (∀ (f : GFlit) (part : Nat) (e : StreamE) (s : State), FromGuest f s → f.type = 5 → formatOk f = true →
    guestStream s f.stream = some (part, e) → smGet 0 s.guest.seen f.stream < e.tiles * gTileFlits e.fmt →
    LandsHere (strmFrame e f) s →
    Answers (.strmOut f) s fun t =>
      t.hall.land = s.hall.land ++ [{ strmFrame e f with came := s.counter }] ∧
      smGet 0 t.guest.seen f.stream = smGet 0 s.guest.seen f.stream + 1 ∧ t.mem = s.mem ∧ t.cores = s.cores) ∧
  (∀ (sv : Served) (q : GReq) (rest : List GReq) (bs : List Byte) (s : State), s.guest.reqs = q :: rest → GuestServes sv q s →
    q.data = some bs → guestUp s = true → guestFenced s = false → s.guest.wait = [] → s.guest.held.length < 1024 →
    Answers (.guestRequestServe sv) s fun t =>
      rdMems t q.addr bs.length = bs ∧ (∀ a, (a < q.addr ∨ q.addr + bs.length ≤ a) → rdMem t a = rdMem s a) ∧
      t.guest.reqs = rest ∧ (getChan t (chanOf q.addr)).freeAt = sv.bt + occOf (64 * q.len) ∧
      (∃ f : GFlit, t.guest.sent = s.guest.sent ++ [f] ∧ f.type = 4 ∧ f.tag = q.tag ∧ f.seq = s.guest.seq) ∧
      ChangesOnly [.mem, .chans, .guest] s t) ∧
  (∀ (sv : Served) (q : GReq) (rest : List GReq) (s : State), s.guest.reqs = q :: rest → GuestServes sv q s →
    q.data = none → guestUp s = true → guestFenced s = false → s.guest.wait = [] → s.guest.held.length < 1024 →
    Answers (.guestRequestServe sv) s fun t =>
      t.guest.reqs = rest ∧
      (∃ f : GFlit, t.guest.sent = s.guest.sent ++ [f] ∧ f.type = 3 ∧ f.tag = q.tag ∧ f.payload = rdMems s q.addr (64 * q.len)) ∧
      ChangesOnly [.chans, .guest] s t)

/-- R68, R69, R70, R71, R78: the guest's link: acknowledgement, replay of what is held, a retrain that was asked for, the loss of
a module, the removal of its power, its reset and the reset's end, at which a guest that does not answer trains no module and
one with another registration number is fenced. -/
def Obligations.GuestLinkPowerAndReset : Prop :=
  (∀ (f : GFlit) (s : State), guestUp s = true → gCrc f = f.crc → guestFenced s = false → f.type = 8 → f.len = 0 →
    bitsOf f.addr 12 1 = 1 → bitsOf f.addr 13 1 = 0 → gDist (f.addr % 4096) (gOldest s.guest) ≤ s.guest.held.length →
    s.guest.wait = [] →
    Answers (.guestLink f) s fun t =>
      t = { s with guest := { s.guest with held := s.guest.held.drop (gDist (f.addr % 4096) (gOldest s.guest)) } }) ∧
  (∀ s : State, guestUp s = true →
    Answers .guestAckTimer s fun t =>
      (∃ f : GFlit, t.guest.sent = s.guest.sent ++ [f] ∧ f.type = 8 ∧ 
        f.addr = s.guest.e + 2 ^ 12 + (if s.guest.nakNext = true ∨ (s.guest.gap = true ∧ s.guest.ackDue = false) then 2 ^ 13 else 0)) ∧
      t.guest.ackDue = false ∧ t.guest.nakNext = false ∧ ChangesOnly [.guest] s t) ∧
  (∀ s : State, guestUp s = true → s.guest.held ≠ [] → (∀ h ∈ s.guest.held, h.2 < 4) →
    Answers .guestReplayTimeout s fun t =>
      t.guest.sent = s.guest.sent ++ s.guest.held.map (fun h => { h.1 with crc := gCrc h.1 }) ∧
      t.guest.held = s.guest.held.map (fun h => (h.1, h.2 + 1)) ∧ ChangesOnly [.guest] s t) ∧
  (∀ (byGuest : Bool) (s : State), getF s R.GST_STA.LINK_UP = 1 → (s.guest.retraining = true ∨ byGuest = true) →
    (s.guest.held.all fun h => h.1.type != 6) = true → s.guest.wait = [] →
    Answers (.guestRetrain true true byGuest false) s fun t =>
      t = { s with guest := { s.guest with seq := 0, e := 0, held := [], nakNext := false, gap := false, ackDue := false,
                                           retraining := false } }) ∧
  (∀ (byGuest : Bool) (s : State), getF s R.GST_STA.LINK_UP = 1 → (s.guest.retraining = true ∨ byGuest = true) → s.guest.wait = [] →
    Answers (.guestRetrain true true byGuest true) s fun t =>
      t.guest.held = [] ∧ t.guest.seq = 0 ∧
      ∃ e, smGet none t.flt.log (getF s R.FLT_LOG_HEAD.SEQ % 1024) = some e ∧ e.code = 0x39 ∧ e.unit = uGuest) ∧
  (∀ (m0 m1 lostOut : Bool) (s : State), s.guest.retraining = false → exec (.guestRetrain m0 m1 false lostOut) s = .next s) ∧
  (∀ s : State, getF s R.GST_STA.MOD0_UP = 1 →
    Answers (.moduleLost 0) s fun t =>
      getF t R.GST_STA.MOD0_UP = 0 ∧ raised E.GUEST.MODULE_LOST t ∧
      getF t R.GST_STA.LINK_UP = (if getF s R.GST_STA.MOD1_UP = 1 then getF s R.GST_STA.LINK_UP else 0)) ∧
  (∀ s : State, s.fuse.guestOption = true →
    Answers .guestPwr s fun t =>
      getF t R.GST_STA.POWER_ON = 0 ∧ getF t R.GST_STA.FENCED = 1 ∧ getF t (R.PG_STA.FENCED 0x40) = 1 ∧
      raised E.GUEST.GUEST_PWR t ∧ t.mem = s.mem) ∧
  (∀ s : State, s.fuse.guestOption = true → (running s && guestBound s) = false →
    Answers .gstReset s fun t =>
      getF t R.GST_STA.IN_RESET = 1 ∧ getF t R.GST_STA.LINK_UP = 0 ∧ t.guest.held = [] ∧ t.guest.reqs = [] ∧ t.guest.credits = 0) ∧
  (∀ s : State, s.fuse.guestOption = true → running s = true → guestBound s = true →
    Answers .gstReset s fun t => raised E.GUEST.RESET_REFUSED t ∧ t.guest = s.guest) ∧
  (∀ (m0 m1 : Bool) (s : State), getF s R.GST_STA.IN_RESET = 1 →
    Answers (.resetDone m0 m1 none) s fun t =>
      getF t R.GST_STA.IN_RESET = 0 ∧ getF t R.GST_STA.FENCED = 0 ∧ getF t (R.PG_STA.FENCED 0x40) = 0 ∧
      getF t R.GST_STA.LINK_UP = 0 ∧ raised E.GUEST.RESET_DONE t) ∧
  (∀ (m0 m1 : Bool) (f : List Byte) (s : State), getF s R.GST_STA.IN_RESET = 1 → guestFrame f = true →
    guestRegNo f = s.fuse.guestReg →
    Answers (.resetDone m0 m1 (some f)) s fun t =>
      getF t R.GST_STA.IN_RESET = 0 ∧ getF t R.GST_STA.FENCED = 0 ∧ getF t (R.PG_STA.FENCED 0x40) = 0 ∧
      getF t R.GST_STA.LINK_UP = (if m0 || m1 then 1 else 0) ∧ getF t R.GST_STA.REG_NO = guestRegNo f ∧ t.guest.ident = f ∧
      raised E.GUEST.RESET_DONE t) ∧
  (∀ (m0 m1 : Bool) (f : List Byte) (s : State), getF s R.GST_STA.IN_RESET = 1 → guestFrame f = true →
    guestRegNo f ≠ s.fuse.guestReg →
    Answers (.resetDone m0 m1 (some f)) s fun t => getF t R.GST_STA.FENCED = 1 ∧ raised E.GUEST.GUEST_ID t)

/-! ### Dies -/

/-- R50, R51, R52, R54, R56, R58: the request that was sent gives a die or stack its identity and is answered with what Table 2.2
asks, and a die that has taken its number probes its memory ports; the answer that was sent, received whole, completes
discovery; a probe is repeated ten times, then the bundle has failed; the cross-connect joins a left bundle of a die to the
right one of the same place of its left neighbour, and the other way round; a bad flit of a bundle is asked for once more, and a
second bad arrival, or one that can come no more, is beyond link replay. The PORT byte of an answer, the count of tries and the
moment a lost resend counts are the model's choice (logs 111 and 112). -/
def Obligations.DiscoveryAndBundleReplay : Prop :=
  (∀ (d : DieNo) (port : Fin 3) (frame : List Byte) (s : State), probing s = true → discGood frame = true →
    frame = (getDisc s (4 + (3 * d.val + port.val))).req →
    let id := leNat ((frame.drop 2).take 1)
    Answers (.discReq d (some port) frame) s fun t =>
      getDisc t (4 + (3 * d.val + port.val)) = { getDisc s (4 + (3 * d.val + port.val)) with
        taken := some id, rsp := discFrame 2 2 id (leNat ((frame.drop 3).take 1)) (stackId s (3 * d.val + port.val)) } ∧
      (∀ k, k ≠ 4 + (3 * d.val + port.val) → getDisc t k = getDisc s k) ∧ ChangesOnly [.bu] s t) ∧
  (∀ (d : DieNo) (frame : List Byte) (s : State), probing s = true → discGood frame = true → frame = (getDisc s d).req →
    let id := leNat ((frame.drop 2).take 1)
    Answers (.discReq d none frame) s fun t =>
      (getDisc t d).taken = some id ∧ (getDisc t d).rsp = discFrame 2 1 id (leNat ((frame.drop 3).take 1)) (dieId s d) ∧
      (∀ p, p < 3 → (getDisc s (4 + (3 * d.val + p))).answered = false →
        (getDisc t (4 + (3 * d.val + p))).req = discFrame 1 1 (3 * id + p) p (dieId s d) ∧
        0 < (getDisc t (4 + (3 * d.val + p))).tries) ∧
      ChangesOnly [.bu] s t) ∧
  (∀ (d : DieNo) (port : Option (Fin 3)) (frame : List Byte) (s : State),
    (probing s = false ∨ discGood frame = false ∨ frame ≠ (getDisc s (discKey d port)).req) →
    exec (.discReq d port frame) s = .next s) ∧
  (∀ (d : DieNo) (port : Option (Fin 3)) (frame : List Byte) (s : State), probing s = true → discGood frame = true →
    frame = (getDisc s (discKey d port)).rsp → (getDisc s (discKey d port)).gaveUp = false →
    Answers (.discRsp d port frame) s fun t =>
      getDisc t (discKey d port) = { getDisc s (discKey d port) with answered := true, ident := frame } ∧
      (∀ k, k ≠ discKey d port → getDisc t k = getDisc s k) ∧ ChangesOnly [.bu] s t) ∧
  (∀ (d : DieNo) (port : Option (Fin 3)) (s : State), probing s = true → (getDisc s (discKey d port)).answered = false →
    (getDisc s (discKey d port)).gaveUp = false → 0 < (getDisc s (discKey d port)).tries → (getDisc s (discKey d port)).tries < 10 →
    Answers (.discRetry d port) s fun t =>
      getDisc t (discKey d port) = { getDisc s (discKey d port) with tries := (getDisc s (discKey d port)).tries + 1 } ∧
      ChangesOnly [.bu] s t) ∧
  (∀ (d : DieNo) (s : State), probing s = true → (getDisc s d).answered = false → (getDisc s d).gaveUp = false →
    10 ≤ (getDisc s d).tries → (getDisc s d).bundle < 24 →
    Answers (.discRetry d none) s fun t =>
      bitsOf (getF t (R.EDGE_FAIL.FAILED d)) (getDisc s d).bundle 1 = 1 ∧ (getDisc t d).tries = 1 ∧
      (getDisc t d).bundle = (getDisc s d).bundle + 1 ∧ ((getDisc t d).gaveUp = true ↔ (getDisc s d).bundle = 23)) ∧
  (∀ (d b e x : Nat) (s : State), d < 4 → b < 24 → crossConnect s d b = some (e, x) →
    ((bundleRole s d b = 2 ∧ e = (d + 3) % 4 ∧ bundleRole s e x = 3) ∨ (bundleRole s d b = 3 ∧ e = (d + 1) % 4 ∧ bundleRole s e x = 2)) ∧
    crossConnect s e x = some (d, b)) ∧
  (∀ (d : DieNo) (b : Fin 24) (seq : Nat) (s : State),
    let k := bundleKey d b
    seq % 1024 ∉ resendsOf s k → (∀ x ∈ resendsOf s k, x ∈ flitsOf (holdFlit k (seq % 1024) s) k) →
    Answers (.bundleFlit d b seq true) s fun t =>
      resendsOf t k = resendsOf s k ++ [seq % 1024] ∧ seq % 1024 ∈ flitsOf t k ∧
      (berOf t k).getD 0 0 = satAdd 255 ((berOf s k).getD 0 0) 1 ∧ ChangesOnly [.bu] s t) ∧
  (∀ (d : DieNo) (b : Fin 24) (seq x : Nat) (s : State),
    let k := bundleKey d b
    seq % 1024 ∉ resendsOf s k → x ∈ resendsOf s k → x ∉ flitsOf (holdFlit k (seq % 1024) s) k →
    Answers (.bundleFlit d b seq false) s fun t =>
      x ∉ resendsOf t k ∧ raised (E.EDGE.BEYOND_REPLAY d) t ∧
      ∃ e, smGet none t.flt.log (getF s R.FLT_LOG_HEAD.SEQ % 1024) = some e ∧ e.code = 0x38 ∧ e.unitId = k) ∧
  (∀ (d : DieNo) (b : Fin 24) (seq : Nat) (s : State), seq % 1024 ∈ resendsOf s (bundleKey d b) →
    Answers (.bundleFlit d b seq true) s fun t =>
      seq % 1024 ∉ resendsOf t (bundleKey d b) ∧ raised (E.EDGE.BEYOND_REPLAY d) t ∧
      ∃ e, smGet none t.flt.log (getF s R.FLT_LOG_HEAD.SEQ % 1024) = some e ∧ e.code = 0x38 ∧ e.unitId = bundleKey d b) ∧
  (∀ (d : DieNo) (b : Fin 24) (seq : Nat) (s : State), seq % 1024 ∈ resendsOf s (bundleKey d b) →
    Answers (.bundleFlit d b seq false) s fun t =>
      resendsOf t (bundleKey d b) = (resendsOf s (bundleKey d b)).filter (fun x => x != seq % 1024) ∧ ChangesOnly [.bu] s t)

/-! ### Drain, release and test content -/

/-- R307 to R310, R313 to R317: a drain request is logged and drains the running package at once or at the boundary it
names; DRAINED leaves nothing in flight and nothing in the Landing; RELEASE makes the package READY; a block's signatures
are compared, and a difference makes the package SUSPECT. -/
def Obligations.DrainReleaseAndTestContent : Prop :=
  (∀ s : State, running s = true → s.tick.draining = false →
    Answers .drainReqPin s fun t =>
      t.tick.faultDrain = true ∧ t.tick.planned = none ∧ raised E.FAULT.DRAIN_REQ t ∧
      (∃ e, smGet none t.flt.log (getF s R.FLT_LOG_HEAD.SEQ % 1024) = some e ∧ e.code = 0x46) ∧ t.mem = s.mem ∧ t.cores = s.cores) ∧
  (∀ s : State, running s = false →
    Answers .drainReqPin s fun t => raised E.FAULT.DRAIN_REQ t ∧ t.tick = s.tick ∧ topState t = topState s) ∧
  (∀ (d : Nat) (s : State), running s = true → s.tick.draining = false → s.tick.faultDrain = false →
    getF s R.FLT_DRAIN_CMD.AT_TICK = 1 → tickCmp (getF s R.FLT_DRAIN_CMD.TICK) (tickNum s) = .newer d → 2 ≤ d →
    Answers .fltDrainCmdDrain s fun t =>
      t.tick.planned = some (s.tick.job + d) ∧ t.tick.faultDrain = false ∧ raised E.FAULT.DRAIN_REQ t) ∧
  (∀ s : State, s.tick.draining = true →
    Answers .drained s fun t =>
      getF t R.TICK_NUM.RUN = 0 ∧ getF t (R.PG_CTL.EN 0x03) = 0 ∧ getF t R.FLT_STA.DRAINED = 1 ∧ raised E.FAULT.DRAINED t ∧
      topState t = (if getF s R.FLT_SUSPECT.FLAGGED = 1 then stFlagged else stDrain) ∧ t.hall.land = [] ∧ t.transit = [] ∧
      t.mesh = [] ∧ t.tick.draining = false) ∧
  (∀ s : State, topState s = stDrain → getF s R.FLT_STA.DRAINED = 1 →
    Answers .fltDrainCmdRelease s fun t =>
      topState t = stReady ∧ getF t R.FLT_STA.DRAINED = 0 ∧
      ((primary s).isSome = true → resumeTick t = (if s.tick.drainPlanned then s.tick.job + 1 else s.tick.job) % 2 ^ 48) ∧
      t.mem = s.mem) ∧
  (∀ s : State, (topState s ≠ stDrain ∨ getF s R.FLT_STA.DRAINED = 0) → exec .fltDrainCmdRelease s = .next s) ∧
  (∀ (c : CoreId) (e : Engine) (n j sig : Nat) (s : State), TestCompares c e n j s →
    Answers (.testBlockCompare c e j sig sig) s fun t =>
      getF t R.TST_COUNT.BLOCKS = satAdd (2 ^ 32 - 1) (getF s R.TST_COUNT.BLOCKS) 1 ∧
      (getCore t c.lcid).tests = (n, j, sig) :: (getCore s c.lcid).tests ∧ RegsBut [R.TST_COUNT.BLOCKS] s t ∧
      ChangesOnly [.cores, .regs] s t) ∧
  (∀ (c : CoreId) (e : Engine) (n j a b : Nat) (s : State), TestCompares c e n j s → a ≠ b →
    Answers (.testBlockCompare c e j a b) s fun t =>
      raised E.TEST.TST_MISMATCH t ∧ getF t R.TST_MISMATCH.LCID = c.lcid % 2 ^ 16 ∧ getF t R.TST_MISMATCH.ENGINE = n ∧
      getF t R.TST_MISMATCH.VALID = 1 ∧ getF t R.FLT_SUSPECT.SUSPECT = 1 ∧
      ∃ r, smGet none t.flt.log (getF s R.FLT_LOG_HEAD.SEQ % 1024) = some r ∧ r.code = 0x3E ∧ r.unitId = c.lcid)

/-! ### Power, clocks and temperatures -/

/-- R327, R328, R349, R365: the input switch closes on a package that is not latched open and P0 begins with every
volatile part at its first value; each case of Table 12.1 that removes power opens it, records its cause and loses all
but the Attic's records; an over-current latch and a trip latch stay. What PWR_EN low leaves, and which openings
release a trip, is the model's reading (log 44, log 45). -/
def Obligations.InputSwitchOpensAndCloses : Prop :=
  (∀ s : State, s.hearth.closed = false → s.hearth.ocLatch = false →
    Answers .inputSwitchClose s fun t =>
      t.hearth.closed = true ∧ t.hearth.pwrEn = true ∧ t.hearth.trip = s.hearth.trip ∧ t.hearth.lost = s.hearth.lost ∧
      t.bu.next = 0 ∧ getF t R.BU_PHASE.PHASE = 0 ∧ raised E.BRINGUP.PHASE t ∧ topState t = stBringup ∧ running t = false ∧
      t.mem = [] ∧ t.cores = [] ∧ t.plans = [] ∧ t.attic = s.attic ∧ t.fuse = s.fuse) ∧
  (∀ s : State, (s.hearth.closed = true ∨ s.hearth.ocLatch = true) → exec .inputSwitchClose s = .next s) ∧
  (∀ (i : Instr) (cause : Nat) (s : State), s.hearth.closed = true →
    (i, cause) ∈ [(.inputUndervoltage false, 2), (.inputUndervoltage true, 2), (.inputOvervoltage, 3), (.inputOvercurrent, 4),
      (.inputReverseCurrent, 2)] →
    Answers i s fun t =>
      t.hearth.closed = false ∧ t.hearth.lost = true ∧ t.hearth.lossCause = (if s.hearth.trip then 1 else cause) ∧
      t.hearth.ocLatch = (decide (cause = 4) || s.hearth.ocLatch) ∧
      t.hearth.trip = (if i = .inputUndervoltage true ∨ i = .inputReverseCurrent then false else s.hearth.trip) ∧
      t.attic.queue = [] ∧ t.attic.writing = none ∧
      (∀ r, r ≠ recPackage → (∀ c, s.attic.writing ≠ some (r, c)) → getRec t r = getRec s r) ∧
      t.mem = [] ∧ t.cores = [] ∧ t.plans = [] ∧ t.hist = [] ∧ t.regs = [] ∧ t.fuse = s.fuse) ∧
  (∀ (i : Instr) (s : State), s.hearth.closed = false → i ∈ [.inputUndervoltage false, .inputOvervoltage, .inputOvercurrent] →
    exec i s = .next s) ∧
  (∀ s : State, s.hearth.closed = true →
    Answers .pwrEnLow s fun t =>
      t.hearth.closed = false ∧ t.hearth.pwrEn = false ∧ t.hearth.ocLatch = false ∧ t.hearth.trip = false ∧
      t.attic.recs = s.attic.recs ∧ t.hist = s.hist ∧ t.mem = [] ∧ t.cores = [] ∧ t.plans = [] ∧ t.fuse = s.fuse)

/-- R329 to R331, Table 12.5: the limits are judged in their order; ballast is withdrawn first; with no ballast the
limiter engages, in Boost mode by the clocks and then by the pulses, and each engagement counts once in its tick.
Whole watts are the model's reading (log 37). -/
def Obligations.LimiterActsAfterBallast : Prop :=
  (∀ (m : Meter) (s : State),
    Answers (.limiterEval m) s fun t =>
      getF t R.HTH_POWER_W.AVG = m.avg1ms % 2 ^ 16 ∧ getF t R.HTH_VIN.VOLT = m.volt % 2 ^ 16 ∧
      getF t R.HTH_VIN.AMP = m.amp % 2 ^ 16 ∧ t.tick.energy = m.energy ∧ t.mem = s.mem ∧ t.cores = s.cores ∧ t.hall = s.hall) ∧
  (∀ (m : Meter) (s : State), m.avg10us ≤ 5600 → m.above10ms = false → m.avg100ms ≤ getF s R.HTH_CAP_EFF.CAP →
    (getF s R.TOP_MODE.BOOST = 1 ∨ running s = false ∨ m.energy < energyBound s) →
    Answers (.limiterEval m) s fun t =>
      getF t R.HTH_LIMIT.DEPTH = 0 ∧ t.hearth = { s.hearth with atLimit := false, engaged := false } ∧
      getF t R.HTH_LIMIT.COUNT = getF s R.HTH_LIMIT.COUNT ∧ t.flt = s.flt) ∧
  (∀ (m : Meter) (c : Nat) (s : State),
    ((c = 0 ∧ 5600 < m.avg10us) ∨ (c = 1 ∧ m.avg10us ≤ 5600 ∧ m.above10ms = true) ∨
     (c = 2 ∧ m.avg10us ≤ 5600 ∧ m.above10ms = false ∧ getF s R.HTH_CAP_EFF.CAP < m.avg100ms) ∨
     (c = 3 ∧ m.avg10us ≤ 5600 ∧ m.above10ms = false ∧ m.avg100ms ≤ getF s R.HTH_CAP_EFF.CAP ∧
       getF s R.TOP_MODE.BOOST = 0 ∧ running s = true ∧ energyBound s ≤ m.energy)) →
    (s.hearth.ballast ≠ 0 →
      Answers (.limiterEval m) s fun t =>
        t.hearth = { s.hearth with atLimit := true, ballast := 0 } ∧ t.flt = s.flt ∧
        ∀ f, f ∈ [R.HTH_LIMIT.COUNT, R.HTH_LIMIT.CAUSE, R.HTH_LIMIT.DEPTH] → getF t f = getF s f) ∧
    (s.hearth.ballast = 0 →
      Answers (.limiterEval m) s fun t =>
        t.hearth = { s.hearth with atLimit := true, engaged := true, limited := true } ∧ getF t R.HTH_LIMIT.CAUSE = c ∧
        getF t R.HTH_LIMIT.COUNT = (if running s = true ∧ s.hearth.limited = false
          then satAdd (2 ^ 16 - 1) (getF s R.HTH_LIMIT.COUNT) 1 else getF s R.HTH_LIMIT.COUNT) ∧
        (clockHigh s = true → getF t R.HTH_LIMIT.DEPTH = 0 ∧ ∀ d, d < 4 → getF t (clkFld d) = boostLo s) ∧
        (clockHigh s = false → getF t R.HTH_LIMIT.DEPTH = m.need ∧ ∀ d, d < 4 → getF t (clkFld d) = getF s (clkFld d)) ∧
        (s.hearth.engaged = false ∨ s.hearth.limited = false →
          raised E.HEARTH.LIMIT t ∧
          ∃ e, smGet none t.flt.log (getF s R.FLT_LOG_HEAD.SEQ % 1024) = some e ∧ e.code = 0x50 ∧ e.detail = c)))

/-- R332, R334, R335, R336: each die's clock in Fixed mode is the grade's, in Boost mode the highest its budget allows
within its range; the set-point moves toward its goal by at most the ramp limit over 48 V in 10 ns, ballast fills the
gap up to 3 200 W, and a faster change of the input current is logged. The unit and DETAIL of the Hearth's entries are
the model's reading (log 36). -/
def Obligations.ClocksAndBallastFollowTheirBudgets : Prop :=
  (∀ (fit : Vector Nat 4) (s : State),
    Answers (.boostClockUpdate fit) s fun t =>
      (∀ d : Nat, ∀ h : d < 4, getF t (clkFld d) =
        (if getF s R.TOP_MODE.BOOST ≠ 1 then 10 * gradeF s
         else if s.hearth.engaged = true then boostLo s
         else max (boostLo s) (min (if bitsOf (getF s R.HTH_BOOST_EN.DIE) d 1 = 1 then boostHi s else 10 * gradeF s) fit[d])) % 2 ^ 8) ∧
      RegsBut [R.HTH_CLK.DIE0, R.HTH_CLK.DIE1, R.HTH_CLK.DIE2, R.HTH_CLK.DIE3] s t ∧ ChangesOnly [.regs] s t) ∧
  (∀ (d : Draw) (s : State), getF s R.HTH_BALLAST.EN = 1 → s.hearth.atLimit = false → s.hearth.resync = false →
    Answers (.ballastStep d) s fun t =>
      let goal := ballastGoal d s
      let step := getF s R.HTH_RAMP_LIMIT.RAMP * 480
      t.hearth.setPoint = (if s.hearth.setPoint < goal then min goal (s.hearth.setPoint + step)
        else max goal (s.hearth.setPoint - step)) ∧
      t.hearth.ballast = min 3200000 (t.hearth.setPoint - d.work) ∧
      t.hearth.limited = s.hearth.limited ∧ t.hearth.engaged = s.hearth.engaged ∧ t.mem = s.mem ∧ t.cores = s.cores) ∧
  (∀ (d : Draw) (s : State), (getF s R.HTH_BALLAST.EN ≠ 1 ∨ s.hearth.atLimit = true ∨ s.hearth.resync = true) →
    Answers (.ballastStep d) s fun t =>
      t.hearth = { s.hearth with setPoint := d.work, ballast := 0, resync := false } ∧ t.mem = s.mem ∧ t.cores = s.cores) ∧
  (∀ (d : Draw) (a b : Nat) (s : State), d.currents = some (a, b) →
    (getF s R.HTH_RAMP_LIMIT.RAMP * 1000 < max a b - min a b →
      Answers (.ballastStep d) s fun t =>
        raised E.HEARTH.RAMP t ∧
        ∃ e, smGet none t.flt.log (getF s R.FLT_LOG_HEAD.SEQ % 1024) = some e ∧ e.code = 0x51 ∧ e.unit = uPkg) ∧
    (max a b - min a b ≤ getF s R.HTH_RAMP_LIMIT.RAMP * 1000 →
      Answers (.ballastStep d) s fun t => t.flt = s.flt ∧ t.regs = s.regs))

/-- R337 to R340: the readings stand in their registers; above TJMAX the thermal cap falls by 2 % of HTH_CAP_W in 100
µs and rises again 3 °C below it, and the cap shown is the lowest of those that stand; a trip latches its site and
reading and drains the package; a stack at 100 °C drains it too. The unit and DETAIL of the Hearth's entries (log 36)
and the dropping of parts of a watt (log 37) are the model's reading. -/
def Obligations.TemperaturesSetTheCapsAndTrip : Prop :=
  (∀ (r : Scan) (s : State),
    Answers (.sensorScan r) s fun t =>
      t.hearth.hottest = maxInt r.dies.toList r.hub ∧
      (∀ d : Nat, ∀ h : d < 4, getF t (R.DIE_TEMP.TEMP d) = twos16 r.dies[d]) ∧
      (∀ k : Nat, ∀ h : k < 12, getF t (R.STK_TEMP.TEMP k) = twos16 r.drams[k] ∧
        getF t (R.STK_STA.HOT k) = (if 1360 < r.drams[k] then 1 else 0) ∧
        (1360 < r.drams[k] → getF s (R.STK_STA.HOT k) = 0 → raised (E.STACK.HOT k) t)) ∧
      getF t R.HTH_TJ_MAX.HOTTEST = degrees (maxInt r.dies.toList r.hub) ∧
      getF t R.HTH_COOLANT_T.INLET = twos16 r.cin ∧ getF t R.HTH_COOLANT_T.OUTLET = twos16 r.cout ∧
      (getF s R.HTH_CAP_W.CAP < 2 ^ 13 →
        (getF t R.HTH_CAP_EFF.CAP, getF t R.HTH_CAP_EFF.BY) ∈ capList t ∧ ∀ c ∈ capList t, getF t R.HTH_CAP_EFF.CAP ≤ c.1) ∧
      (16 * getF s R.HTH_TJ_MAX.TJMAX < maxInt r.dies.toList r.hub → s.hearth.episode = false →
        t.hearth.episode = true ∧ raised E.HEARTH.TJ_HIGH t) ∧
      ((∃ k : Fin 12, 1520 ≤ r.drams[k]) → t.hearth.dramHot = true ∧ (s.hearth.dramHot = false → raised E.HEARTH.DRAM_HOT t)) ∧
      ((∀ k : Fin 12, r.drams[k] < 1472) → t.hearth.dramHot = false)) ∧
  (∀ s : State,
    Answers .thermalCapStep s fun t =>
      t.hearth.thermal = (if 16 * (getF s R.HTH_TJ_MAX.TJMAX : Int) < s.hearth.hottest then s.hearth.thermal - 2
        else if s.hearth.hottest ≤ 16 * (getF s R.HTH_TJ_MAX.TJMAX : Int) - 48 then min 100 (s.hearth.thermal + 2)
        else s.hearth.thermal) ∧
      (getF s R.HTH_CAP_W.CAP < 2 ^ 13 → tjHot s = true ∨ tjCool s = true →
        (getF t R.HTH_CAP_EFF.CAP, getF t R.HTH_CAP_EFF.BY) ∈ capList t ∧ ∀ c ∈ capList t, getF t R.HTH_CAP_EFF.CAP ≤ c.1) ∧
      t.mem = s.mem ∧ t.cores = s.cores) ∧
  (∀ (site : Fin 5) (x : Nat) (s : State), s.hearth.trip = false →
    Answers (.tjTrip site x) s fun t =>
      t.hearth.trip = true ∧ getF t R.HTH_TRIP_STA.TRIPPED = 1 ∧ getF t R.HTH_TRIP_STA.SITE = site ∧
      getF t R.HTH_TRIP_STA.TJ = x % 2 ^ 8 ∧ raised E.HEARTH.TRIP t ∧
      (∃ e, smGet none t.flt.log (getF s R.FLT_LOG_HEAD.SEQ % 1024) = some e ∧ e.code = 0x53 ∧ e.unit = uHearth) ∧
      (getF s R.FLT_SUSPECT.FLAGGED ≠ 1 → s.tick.replay ≠ .running → getF t R.FLT_SUSPECT.FLAGGED = 1 ∧ getF t R.FLT_SUSPECT.CAUSE = 8) ∧
      (running s = true → s.tick.draining = false → s.tick.faultDrain = false → s.tick.replay = .none → t.tick.faultDrain = true)) ∧
  (∀ (site : Fin 5) (x : Nat) (s : State), s.hearth.trip = true → exec (.tjTrip site x) s = .next s) ∧
  (∀ (k : StackNo) (s : State),
    (1600 ≤ ofTwos16 (getF s (R.STK_TEMP.TEMP k)) →
      Answers (.dramCrit k) s fun t =>
        (∃ e, smGet none t.flt.log (getF s R.FLT_LOG_HEAD.SEQ % 1024) = some e ∧ e.code = 0x55 ∧ e.unit = uPkg) ∧
        (s.tick.replay ≠ .running → getF t R.FLT_SUSPECT.CAUSE = getF s R.FLT_SUSPECT.CAUSE) ∧
        (running s = true → s.tick.draining = false → s.tick.faultDrain = false → s.tick.replay = .none → t.tick.faultDrain = true)) ∧
    (ofTwos16 (getF s (R.STK_TEMP.TEMP k)) < 1600 → exec (.dramCrit k) s = .next s))

/-- R342 to R344, R346: without a flow target the flow is estimated from the power and the rise; low flow, a hot or
cold inlet set their bits; a lost flow, a critical inlet, a reversal and a failed converter are logged and drain; the
couplings' comparison sets CHECKED or REVERSED. The unit and DETAIL of the Hearth's entries (log 36) and what a
reversal does to CHECKED (log 39) are the model's reading. -/
def Obligations.CoolantIsEstimatedAndChecked : Prop :=
  (∀ (power : Nat) (rise : Int) (s : State), target s 1 = none → 400 ≤ power → 48 ≤ 10 * rise →
    Answers (.flowEstimate power rise) s fun t =>
      let f := 96000 * power / (heatCap s * rise.toNat)
      t.hearth.flow = some f ∧ getF t R.HTH_COOLANT_STA.FLOW = min 255 (f / 10) ∧
      getF t R.HTH_COOLANT_STA.FLOW_LOW = (if f < 800 then 1 else 0) ∧
      (f < 800 → getF s R.HTH_COOLANT_STA.FLOW_LOW = 0 → raised E.HEARTH.COOLANT t)) ∧
  (∀ (power : Nat) (rise : Int) (s : State), target s 1 = none → (power < 400 ∨ 10 * rise < 48) →
    Answers (.flowEstimate power rise) s fun t =>
      t.hearth.flow = s.hearth.flow ∧ (s.hearth.flow = none → getF t R.HTH_COOLANT_STA.FLOW_LOW = 0)) ∧
  (∀ (f : Nat) (s : State), s.hearth.flow = some f →
    (f < 400 → Answers .coolantLoss s fun t =>
      (∃ e, smGet none t.flt.log (getF s R.FLT_LOG_HEAD.SEQ % 1024) = some e ∧ e.code = 0x57 ∧ e.unit = uPkg) ∧
      (s.tick.replay ≠ .running → t.hist = s.hist) ∧
      (running s = true → s.tick.draining = false → s.tick.faultDrain = false → s.tick.replay = .none → t.tick.faultDrain = true)) ∧
    (400 ≤ f → exec .coolantLoss s = .next s)) ∧
  (∀ (x : Int) (s : State), s.hearth.inlet = some x →
    (720 < x → Answers .inletCrit s fun t =>
      (∃ e, smGet none t.flt.log (getF s R.FLT_LOG_HEAD.SEQ % 1024) = some e ∧ e.code = 0x59 ∧ e.unit = uPkg) ∧
      (s.tick.replay ≠ .running → t.hist = s.hist) ∧
      (running s = true → s.tick.draining = false → s.tick.faultDrain = false → s.tick.replay = .none → t.tick.faultDrain = true)) ∧
    (x ≤ 720 → exec .inletCrit s = .next s)) ∧
  (∀ (power : Nat) (s : State), checkRuns s = true → 400 ≤ power →
    let d := ofTwos16 (getF s R.HTH_COOLANT_T.OUTLET) - ofTwos16 (getF s R.HTH_COOLANT_T.INLET)
    (48 ≤ 10 * d → Answers (.coolantCheck power) s fun t =>
      getF t R.HTH_COOLANT_STA.CHECKED = 1 ∧ getF t R.HTH_COOLANT_STA.REVERSED = 0 ∧
      (getF s R.HTH_COOLANT_STA.CHECKED = 0 → raised E.HEARTH.CHECKED t) ∧ t.flt = s.flt) ∧
    (10 * d ≤ -48 → getF s R.HTH_COOLANT_STA.REVERSED = 0 → Answers (.coolantCheck power) s fun t =>
      getF t R.HTH_COOLANT_STA.REVERSED = 1 ∧ raised E.HEARTH.REVERSED t ∧
      (∃ e, smGet none t.flt.log (getF s R.FLT_LOG_HEAD.SEQ % 1024) = some e ∧ e.code = 0x5B ∧ e.unit = uPkg) ∧
      (running s = true → s.tick.draining = false → s.tick.faultDrain = false → s.tick.replay = .none → t.tick.faultDrain = true))) ∧
  (∀ (power : Nat) (s : State), (s.hearth.closed = false ∨ getF s R.BU_PHASE.PHASE = 0 ∨ power < 400) →
    exec (.coolantCheck power) s = .next s) ∧
  (∀ (stage : Nat) (s : State),
    Answers (.convFault stage) s fun t =>
      (∃ e, smGet none t.flt.log (getF s R.FLT_LOG_HEAD.SEQ % 1024) = some e ∧ e.code = 0x5F ∧ e.unit = uHearth) ∧
      (getF s R.FLT_SUSPECT.FLAGGED ≠ 1 → s.tick.replay ≠ .running → getF t R.FLT_SUSPECT.FLAGGED = 1 ∧ getF t R.FLT_SUSPECT.CAUSE = 8) ∧
      (running s = true → s.tick.draining = false → s.tick.faultDrain = false → s.tick.replay = .none → t.tick.faultDrain = true))

/-- R344, R390, R391: a poll shows what each configured target answers; the third NACK in succession loses it, and a
later answer brings it back; a bus that stays stuck is fenced and the Hearth falls back on its own sensors; a fence clears only by a
recovery that SNS_BUS_CTL.RETRY has asked for. -/
def Obligations.SensorBusPollsAndFences : Prop :=
  (∀ (a : Vector (Option (BitVec 16)) 8) (s : State), getF s R.SNS_BUS_CTL.EN = 1 → getF s R.SNS_BUS_STA.FENCED = 0 →
    Answers (.sensorPoll a) s fun t =>
      (∀ n : Fin 8, ∀ v, a[n] = some v → getF s (R.SNS_TARGET.KIND n) ≠ 0 → getF s (R.SNS_TARGET.STATE n) ≠ 2 →
        getF t (R.SNS_TARGET.STATE n) = 1 ∧ getF t (R.SNS_TARGET.VALUE n) = v.toNat ∧
        bitsOf (getF t R.SNS_BUS_STA.PRESENT) n 1 = 1 ∧ smGet 0 t.sns.nacks n = 0) ∧
      (∀ n : Fin 8, a[n] = none → getF s (R.SNS_TARGET.KIND n) ≠ 0 → getF s (R.SNS_TARGET.STATE n) ≠ 2 →
        bitsOf (getF t R.SNS_BUS_STA.PRESENT) n 1 = 0 ∧ getF t (R.SNS_TARGET.VALUE n) = getF s (R.SNS_TARGET.VALUE n) ∧
        (smGet 0 s.sns.nacks n < 2 → getF t (R.SNS_TARGET.STATE n) = getF s (R.SNS_TARGET.STATE n) ∧
          smGet 0 t.sns.nacks n = smGet 0 s.sns.nacks n + 1) ∧
        (2 ≤ smGet 0 s.sns.nacks n → getF t (R.SNS_TARGET.STATE n) = 2 ∧ raised E.MGMT.SNS_TARGET_LOST t)) ∧
      (∀ n : Fin 8, (getF s (R.SNS_TARGET.KIND n) = 0 ∨ getF s (R.SNS_TARGET.STATE n) = 2) →
        getF t (R.SNS_TARGET.STATE n) = getF s (R.SNS_TARGET.STATE n) ∧ getF t (R.SNS_TARGET.VALUE n) = getF s (R.SNS_TARGET.VALUE n)) ∧
      (∀ n : Fin 8, ∀ v, a[n] = some v → v.toNat ≠ 0 → getF s (R.SNS_TARGET.KIND n) = 5 → getF s (R.SNS_TARGET.STATE n) ≠ 2 →
        getF t R.HTH_COOLANT_STA.LEAK = 1 ∧
        (getF s R.HTH_COOLANT_STA.LEAK = 0 → raised E.HEARTH.LEAK t ∧
          (running s = true → s.tick.draining = false → s.tick.faultDrain = false → s.tick.replay = .none →
            t.tick.faultDrain = true)))) ∧
  (∀ (a : Vector (Option (BitVec 16)) 8) (s : State), (getF s R.SNS_BUS_CTL.EN = 0 ∨ getF s R.SNS_BUS_STA.FENCED = 1) →
    exec (.sensorPoll a) s = .next s) ∧
  (∀ (n : Fin 8) (v : BitVec 16) (s : State), getF s R.SNS_BUS_CTL.EN = 1 → getF s R.SNS_BUS_STA.FENCED = 0 →
    getF s (R.SNS_TARGET.STATE n) = 2 →
    (Answers (.sensorRepoll n (some v)) s fun t =>
      getF t (R.SNS_TARGET.STATE n) = 1 ∧ getF t (R.SNS_TARGET.VALUE n) = v.toNat ∧ raised E.MGMT.SNS_TARGET_BACK t ∧
      bitsOf (getF t R.SNS_BUS_STA.PRESENT) n 1 = 1 ∧ smGet 0 t.sns.nacks n = 0) ∧
    exec (.sensorRepoll n none) s = .next s) ∧
  (∀ (p : Option (Fin 10)) (s : State), getF s R.SNS_BUS_STA.FENCED = 1 → s.sns.asked = false →
    exec (.snsBusRetry p) s = .next s) ∧
  (∀ s : State, (getF s R.SNS_BUS_STA.FENCED = 0 ∨ s.sns.asked = true) →
    (∀ p : Fin 10, Answers (.snsBusRetry (some p)) s fun t =>
      getF t R.SNS_BUS_STA.FENCED = 0 ∧ getF t R.SNS_BUS_STA.PULSES = p ∧ getF t R.HTH_COOLANT_STA.FALLBACK = 0) ∧
    Answers (.snsBusRetry none) s fun t =>
      getF t R.SNS_BUS_STA.FENCED = 1 ∧ getF t R.HTH_COOLANT_STA.FALLBACK = 1 ∧ raised E.MGMT.SNS_BUS_STUCK t ∧
      getF t R.HTH_COOLANT_STA.BUSFLOW = 0 ∧ getF t R.HTH_CAP_EFF.CAP ≤ getF s R.HTH_CAP_W.CAP / 2 ∧
      (getF s R.HTH_COOLANT_STA.FALLBACK = 0 →
        ∃ e, smGet none t.flt.log (getF s R.FLT_LOG_HEAD.SEQ % 1024) = some e ∧ e.code = 0x5D))
/-! ### Bring-up, resets, the Attic -/

/-- R349, R350, R352, R353, R359, R360, R402, R51, R52: a phase's row acts in its phase alone; each phase that
succeeds starts the next, and discovery begins with a request of the hub to each die; the outcomes of Table 13.2 stop the bring-up in FLAGGED with their reason; P7 leaves memory
at zero and P8 reaches READY with every page but TICK enabled. The order of two reasons of one phase is the model's
reading (log 50). -/
def Obligations.BringupPhasesRunInTheirOrder : Prop :=
  (∀ (i : Instr) (k : Nat) (s0 s1 : Bool) (reg : Option (List Byte)) (bad : List (Nat × Bool)) (tr : TrainRes) (c : CheckRes) (x : SelfRes)
    (s : State), (i, k) ∈ [(.bringupP0, 0), (.fwAuth s0 s1, 1), (.discovery reg, 2), (.atticRestore bad, 3), (.training tr, 4),
      (.errorRateCheck c, 5), (.selfTest x, 6), (.bringupZeroing, 7), (.ready, 8)] →
    (s.hearth.closed = false ∨ s.bu.next ≠ k) → exec i s = .next s) ∧
  (∀ s : State, s.hearth.closed = true → s.bu.next = 0 →
    (s.hearth.trip = false → getF s R.FLT_SUSPECT.FLAGGED = 0 → Answers .bringupP0 s fun t =>
      t.bu = { s.bu with next := 1 } ∧ getF t R.BU_PHASE.PHASE = 1 ∧ raised E.BRINGUP.PHASE t ∧
      RegsBut (R.BU_PHASE.PHASE :: evFlds E.BRINGUP.PHASE) s t ∧ ChangesOnly [.bu, .regs, .hif, .out] s t) ∧
    (s.hearth.trip = true → Answers .bringupP0 s fun t =>
      t.bu.next = 9 ∧ getF t R.BU_PHASE.STOP = 0 ∧ getF t R.BU_PHASE.REASON = 7 ∧ topState t = stFlagged ∧
      raised E.BRINGUP.BU_FLAGGED t)) ∧
  (∀ (s0 s1 : Bool) (s : State), s.hearth.closed = true → s.bu.next = 1 →
    ((s0 = true ∨ s1 = true) → getF s R.FLT_SUSPECT.FLAGGED = 0 → Answers (.fwAuth s0 s1) s fun t =>
      t.bu = { s.bu with next := 2, disc := t.bu.disc } ∧ getF t R.BU_PHASE.PHASE = 2 ∧
      ∀ d, d < 4 → getDisc t d = { disc0 with req := discFrame 1 0 d d s.fuse.hub, tries := 1 }) ∧
    (s0 = false → s1 = false → Answers (.fwAuth s0 s1) s fun t =>
      t.bu.next = 9 ∧ t.bu.bootRom = true ∧ getF t R.BU_PHASE.STOP = 1 ∧ getF t R.BU_PHASE.REASON = 1 ∧ topState t = stFlagged)) ∧
  (∀ (reg : Option (List Byte)) (s : State), s.hearth.closed = true → s.bu.next = 2 →
    ((∀ d, d < 4 → dieSilent s d = false) → getF s R.FLT_SUSPECT.FLAGGED = 0 → Answers (.discovery reg) s fun t =>
      t.bu.next = 3 ∧ (s.fuse.guestOption = true → getF t R.GST_STA.POWER_ON = 1)) ∧
    ((∃ d, d < 4 ∧ dieSilent s d = true) → Answers (.discovery reg) s fun t =>
      t.bu.next = 9 ∧ getF t R.BU_PHASE.STOP = 2 ∧ getF t R.BU_PHASE.REASON = 2 ∧ topState t = stFlagged ∧
      ∀ d, d < 4 → dieSilent s d = true → raised (E.DIE.DISC_FAIL d) t)) ∧
  (∀ s : State, s.hearth.closed = true → s.bu.next = 7 → getF s R.FLT_SUSPECT.FLAGGED = 0 →
    Answers .bringupZeroing s fun t =>
      t.mem = [] ∧ t.cores = [] ∧ t.mesh = [] ∧ t.transit = [] ∧ t.pans = [] ∧ t.hall.land = [] ∧ t.reduce.sums = [] ∧
      t.reduce.pieces = [] ∧ t.bu = { s.bu with next := 8 } ∧ t.plans = s.plans ∧ t.flt = s.flt ∧ t.attic = s.attic) ∧
  (∀ s : State, s.hearth.closed = true → s.bu.next = 8 →
    Answers .ready s fun t =>
      topState t = stReady ∧ raised E.BRINGUP.READY t ∧ t.bu.next = 9 ∧ getF t R.BU_TIME_US.TIME = bringupTime s ∧
      (∀ p ∈ readyPages s, getF t (R.PG_CTL.EN p) = 1 ∧ getF t (R.PG_STA.ENABLED p) = 1) ∧
      getF t (R.PG_CTL.EN 0x03) = getF s (R.PG_CTL.EN 0x03) ∧ (∀ d, d < 4 → getF t (clkFld d) = 10 * gradeF s % 2 ^ 8) ∧
      t.mem = s.mem ∧ t.cores = s.cores)

/-- R211, R351, R354, R366: when every copy reads as valid, each Kept field of a recorded page takes its recorded value if
the field accepts it, and its First power-on value where no record stands; the reason for a cold bring-up is the first
of R351 that holds, and a warm one brings back what was trained and margined; a SUSPECT package stops, any other goes on to P4. What a record's content looks like is the
model's choice (log 30). -/
def Obligations.RestoreBringsBackTheRecordedSettings : Prop :=
  ∀ s : State, s.hearth.closed = true → s.bu.next = 3 → getF s R.FLT_SUSPECT.FLAGGED = 0 →
    Answers (.atticRestore []) s fun t =>
      getF t R.ATTIC_RESTORE_STA.DONE = 1 ∧ raised E.ATTIC.RESTORED t ∧ getF t R.ATTIC_RESTORE_STA.LOST = 0 ∧
      (∀ p ∈ pages, ∀ (f : Fld) (j : Nat) (l : List Nat) (x : Nat), (f, j) ∈ (keptFlds p).zipIdx → fromSettings f = true →
        settingsOf s p = some l → l[j]? = some x → fieldOk s f x = true → getF t f = x % 2 ^ f.width) ∧
      (∀ p ∈ pages, ∀ f ∈ keptFlds p, fromSettings f = true → settingsOf s p = none →
        getF t f = firstVal s f % 2 ^ f.width ∧ getF t R.ATTIC_RESTORE_STA.DEFAULTED = 1) ∧
      (∀ r, recValue (getRec t r) = recValue (getRec s r)) ∧
      (∀ l, recValue (getRec s recPackage) = some l → getF t R.HTH_TRIP_STA.PREV = l.getD 2 0 % 2 ^ 4 ∧
        getF t R.FLT_SUSPECT.SUSPECT = l.getD 4 0 % 2) ∧
      getF t R.BU_MODE.WHY = whyCold s ∧ getF t R.BU_PHASE.COLD = (if whyCold s = 0 then 0 else 1) ∧
      t.hearth.lost = false ∧
      (whyCold s = 0 → ∀ u, u < trainingUnits s → recValue (getRec s (recTraining u)) = some (smGet [] t.bu.coef u) ∧
        recValue (getRec s (recMargins u)) = some (smGet [] t.bu.marg u)) ∧
      (getF t R.FLT_SUSPECT.SUSPECT = 1 → t.bu.next = 9 ∧ getF t R.BU_PHASE.STOP = 3 ∧ getF t R.BU_PHASE.REASON = 3 ∧
        topState t = stFlagged) ∧
      (getF t R.FLT_SUSPECT.SUSPECT = 0 → t.bu.next = 4 ∧ getF t R.BU_PHASE.PHASE = 4)

/-- R54, R55, R61, R63, R65, R66, R209, R211, R249, R266, R355 to R358: training marks failed bundles, those beyond the figure
of their path among them, takes what was trained and margined, spares the lanes that fall short, and brings ports up; the
check classes every bound port; after the check a die
with 22 usable bundles or more gets its roles in ascending order, one with fewer stops the bring-up; the self-test maps
around every bad core, or stops where a row cannot present its 80 columns. -/
def Obligations.TrainingChecksAndTheSelfTestPrepareTheDies : Prop :=
  (∀ (r : TrainRes) (s : State), s.hearth.closed = true → s.bu.next = 4 → getF s R.FLT_SUSPECT.FLAGGED = 0 →
    Answers (.training r) s fun t =>
      t.bu.next = 5 ∧
      (∀ i, i < 96 → (i ∈ r.bundles ∨ 2 < badDataLanes r s (i / 24) (i % 24) ∨ knownBad s (i / 24) (i % 24) = true) →
        bitsOf (getF t (R.EDGE_FAIL.FAILED (i / 24))) (i % 24) 1 = 1) ∧
      (∀ d, d < 4 → (∀ e ∈ margins r t d, 0 ≤ e.2) ∧
        (margins r t d ≠ [] → ∃ e ∈ margins r t d, (∀ x ∈ margins r t d, e.2 ≤ x.2) ∧
          getF t (R.EDGE_LAT.SLACK_MIN d) = min 255 e.2.toNat)) ∧
      ((r.units.map (·.1)).Nodup → ∀ e ∈ r.units, smGet [] t.bu.coef e.1 = e.2.1 ∧
        smGet [] t.bu.marg e.1 = e.2.2.flatMap fun m => [m.1, m.2.1, m.2.2]) ∧
      (∀ k c l, k < 12 → c < 32 → l < 81 → ((chanKey k c, l) ∈ r.lanes ∨ laneShort t k c l = true) → l ∈ badLanesOf t k c) ∧
      (∀ (p : PortNo) (x : Nat) (ok : Bool), (r.ports.find? fun e => e.1.val == p.val) = some (p, x, ok) →
        getF t (R.PORT_STA.UP p) = 1 ∧ getF t (R.PORT_STA.FLIGHT p) = min 255 x ∧ raised (E.PORCH.PORT_UP p) t) ∧
      (∀ p : PortNo, (∀ e ∈ r.ports, e.1 ≠ p) → getF t (R.PORT_STA.UP p) = getF s (R.PORT_STA.UP p)) ∧
      t.mem = s.mem ∧ t.cores = s.cores) ∧
  (∀ (r : CheckRes) (s : State), s.hearth.closed = true → s.bu.next = 5 → getF s R.FLT_SUSPECT.FLAGGED = 0 →
    Answers (.errorRateCheck r) s fun t =>
      let usable := fun d : Nat => (List.range 24).filter fun b => bitsOf (getF t (R.EDGE_FAIL.FAILED d)) b 1 == 0
      (∀ i, i < 96 → bundleErr r i ≠ 0 → bitsOf (getF t (R.EDGE_FAIL.FAILED (i / 24))) (i % 24) 1 = 1) ∧
      (∀ p : PortNo, (getF s (R.PORT_BIND.ROLE p) = 1 ∨ getF s (R.PORT_BIND.ROLE p) = 2) →
        let c := portClass (updPort s p fun q => { q with ber := q.ber || decide (portErr r p ≠ 0) }) p
        getF t (R.PORT_STA.FAULT p) = c ∧ (c ≠ 0 → raised (E.PORCH.MISWIRE p) t) ∧
        getF t (R.PORT_STA.USABLE p) = if c = 0 ∧ bindOk s p = true ∧ idFits s = true then 1 else 0) ∧
      (∀ d, d < 4 → 22 ≤ (usable d).length → raised (E.EDGE.ROLES_SET d) t ∧
        ∀ b, b < 24 → (getF t (R.EDGE_ROLE_LO.ROLE d) + 2 ^ 32 * getF t (R.EDGE_ROLE_HI.ROLE d)) / 4 ^ b % 4 =
          if b ∈ usable d then
            let j := ((usable d).filter fun x => decide (x < b)).length
            if j < 12 then 1 else if j < 17 then 2 else if j < 22 then 3 else 0
          else 0) ∧
      ((∃ d, d < 4 ∧ (usable d).length < 22) → t.bu.next = 9 ∧ getF t R.BU_PHASE.REASON = 4 ∧ topState t = stFlagged) ∧
      ((∀ d, d < 4 → 22 ≤ (usable d).length) → (∃ k, k < 12 ∧ getF t (R.STK_STA.UNFIT k) = 1) →
        t.bu.next = 9 ∧ getF t R.BU_PHASE.REASON = 5 ∧ topState t = stFlagged) ∧
      ((∀ d, d < 4 → 22 ≤ (usable d).length) → (∀ k, k < 12 → getF t (R.STK_STA.UNFIT k) ≠ 1) → t.bu.next = 6)) ∧
  (∀ (r : SelfRes) (s : State), s.hearth.closed = true → s.bu.next = 6 → getF s R.FLT_SUSPECT.FLAGGED = 0 →
    Answers (.selfTest r) s fun t =>
      (∀ e ∈ r.cores, e.2.1 < 80 → e.2.2 < 84 → e.2.2 ∈ badCols t e.1 e.2.1) ∧
      ((∃ d, d < 4 ∧ ((∃ row, row < 80 ∧ 4 < (badCols t d row).length) ∨ ∃ x ∈ r.bypass, x.val = d)) →
        t.bu.next = 9 ∧ getF t R.BU_PHASE.REASON = 6 ∧ topState t = stFlagged) ∧
      ((∀ d, d < 4 → (∀ row, row < 80 → (badCols t d row).length ≤ 4) ∧ ∀ x ∈ r.bypass, x.val ≠ d) →
        (∀ d row, d < 4 → row < 80 → smGet [] t.rowMaps (128 * d + row) = badCols t d row) ∧
        (∀ d, d < 4 → getF t (R.DIE_MAP_STA.LOADED d) = 1 ∧ raised (E.DIE.MAP_LOADED d) t) ∧
        (anyPermanent t [uHearth, uPantry, uReduce, uHub] = false → t.bu.next = 7) ∧
        (anyPermanent t [uHearth] = true → t.bu.next = 9 ∧ getF t R.BU_PHASE.REASON = 7) ∧
        (anyPermanent t [uHearth] = false → anyPermanent t [uPantry, uReduce, uHub] = true →
          t.bu.next = 9 ∧ getF t R.BU_PHASE.REASON = 8)))

/-- R349, R383, R397, R412: TOP_RESET_CMD with its key in READY, DRAIN or FLAGGED starts a bring-up that keeps the
Attic, the host link and the powered time, and is refused otherwise; PERST_N, a hot reset and a function-level reset
reach the host interface alone. Which registers a reset of the package and one of the host interface leave is the
model's reading (log 48, log 53). -/
def Obligations.ResetsStartABringupOrClearTheHostInterface : Prop :=
  (∀ (w : Word) (s : State), regsServed s = true → w.toNat % 2 = 1 → w.toNat / 2 ^ 16 = 0xA5A5 →
    (topState s = stReady ∨ topState s = stDrain ∨ topState s = stFlagged) →
    Answers (.topResetCmd 0 w) s fun t =>
      topState t = stBringup ∧ t.bu.next = 0 ∧ raised E.BRINGUP.PHASE t ∧ running t = false ∧ t.mem = [] ∧ t.cores = [] ∧
      t.plans = [] ∧ t.flt = State.reset.flt ∧ t.attic = s.attic ∧ t.fuse = s.fuse ∧ t.hearth.trip = s.hearth.trip ∧
      t.bu.coldNext = s.bu.coldNext ∧ getF t R.ATTIC_POWERED.SECONDS = getF s R.ATTIC_POWERED.SECONDS % 2 ^ 32 ∧
      getF t R.HIF_LINK_STA.UP = getF s R.HIF_LINK_STA.UP % 2) ∧
  (∀ (w : Word) (s : State), regsServed s = true → (w.toNat % 2 = 0 ∨ w.toNat / 2 ^ 16 ≠ 0xA5A5 ∨ topState s = stBringup ∨
      topState s = stRun) →
    Answers (.topResetCmd 0 w) s fun t =>
      raised E.TOP.RESET_REFUSED t ∧ RegsBut (evFlds E.TOP.RESET_REFUSED) s t ∧ ChangesOnly [.regs, .hif, .out] s t) ∧
  (∀ (v : Fin 4) (w : Word) (s : State), (regsServed s = false ∨ v ≠ 0) → exec (.topResetCmd v w) s = .next s) ∧
  (∀ (i : Instr) (s : State), i ∈ [.perstN, .hotReset] →
    (s.hearth.closed = true → Answers i s fun t =>
      getF t R.HIF_LINK_STA.UP = 0 ∧ (getF s R.HIF_LINK_STA.UP = 1 → raised E.HOSTIF.LINK_CHANGE t) ∧
      (∀ n, n < 16 → getJob t n = none ∧ getF t (R.HIF_DMA_STA.BUSY n) = 0 ∧ getF t (R.HIF_DMA_CTL.DIR n) = 0) ∧
      (∀ k, k < 2 ^ 34 → smGet none t.latch k = none) ∧ (∀ k, 2 ^ 34 ≤ k → smGet none t.latch k = smGet none s.latch k) ∧
      ChangesOnly [.regs, .hif, .out, .latch] s t) ∧
    (s.hearth.closed = false → exec i s = .next s)) ∧
  (∀ (f : Fin 4) (s : State), s.hearth.closed = true →
    Answers (.functionLevelReset f) s fun t =>
      (∀ n, n < 16 → getF s (R.HIF_PF_MAP.CH n) = f → getJob t n = none ∧ getF t (R.HIF_DMA_STA.BUSY n) = 0) ∧
      (∀ n, n < 16 → getF s (R.HIF_PF_MAP.CH n) ≠ f → getJob t n = getJob s n ∧
        getF t (R.HIF_DMA_STA.BUSY n) = getF s (R.HIF_DMA_STA.BUSY n)) ∧
      (∀ k, smGet none t.latch k = if k / 2 ^ 32 = f then none else smGet none s.latch k) ∧
      ChangesOnly [.regs, .hif, .latch] s t)

/-- R319, R351, R361 to R364, R367: a commit writes the record's other copy with the next epoch and the next request
follows; the timer adds 64 s and queues the PACKAGE record; SYNC waits for what was queued; CLEAR_SETTINGS queues
every page's settings with no content; COLD_NEXT is recorded. A record as two copies of an epoch and a list of values
is the model's choice (log 30), and so is the step of 64 s (log 47). -/
def Obligations.AtticRecordsAreWrittenInTurn : Prop :=
  (∀ (r : Nat) (c : List Nat) (s : State), s.attic.writing = some (r, c) →
    Answers .atticWriteCommit s fun t =>
      recValue (getRec t r) = some c ∧ recEpoch (getRec t r) = recEpoch (getRec s r) + 1 ∧
      (valueInA (getRec s r) = true → (getRec t r).a = (getRec s r).a) ∧
      (valueInA (getRec s r) = false → (getRec t r).b = (getRec s r).b) ∧
      (∀ q, q ≠ r → getRec t q = getRec s q) ∧ getF t R.ATTIC_EPOCH.EPOCH = (recEpoch (getRec s r) + 1) % 2 ^ 32 ∧
      (s.attic.queue = [] → t.attic.writing = none ∧ getF t R.ATTIC_STA.PENDING = 0) ∧
      (∀ (e : Nat × List Nat) (rest : List (Nat × List Nat)), s.attic.queue = e :: rest → e.1 ≠ r → recSaturated s e.1 = false →
        t.attic.writing = some e ∧ t.attic.queue = rest ∧ getF t R.ATTIC_STA.PENDING = 1) ∧
      t.mem = s.mem ∧ t.cores = s.cores ∧ t.hist = s.hist) ∧
  (∀ s : State, s.attic.writing = none → exec .atticWriteCommit s = .next s) ∧
  (∀ s : State, s.hearth.closed = true →
    Answers .atticPackageTimer s fun t =>
      getF t R.ATTIC_POWERED.SECONDS = satAdd (2 ^ 32 - 1) (getF s R.ATTIC_POWERED.SECONDS) 64 ∧ t.attic.recs = s.attic.recs ∧
      (recSaturated s recPackage = false →
        ∃ c, (recPackage, c) ∈ t.attic.queue ∨ t.attic.writing = some (recPackage, c))) ∧
  (∀ s : State, getF s R.ATTIC_RESTORE_STA.DONE = 1 →
    (s.attic.writing = none → s.attic.queue = [] → Answers .atticSync s fun t =>
      raised E.ATTIC.SYNCED t ∧ t.attic = s.attic ∧ RegsBut (evFlds E.ATTIC.SYNCED) s t) ∧
    (∀ (r : Nat) (c : List Nat), s.attic.writing = some (r, c) → Answers .atticSync s fun t =>
      t.attic = { s.attic with sync := s.attic.sync ++ [r :: s.attic.queue.map (·.1)] } ∧ ChangesOnly [.attic] s t)) ∧
  (∀ s : State, getF s R.ATTIC_RESTORE_STA.DONE = 1 → topState s ≠ stRun → topState s ≠ stBringup →
    Answers .clearSettings s fun t =>
      t.attic.recs = s.attic.recs ∧
      ∀ p ∈ pages, keptFlds p ≠ [] → recSaturated s (recSettings p) = false →
        (recSettings p, []) ∈ t.attic.queue ∨ t.attic.writing = some (recSettings p, [])) ∧
  (∀ (i : Instr) (s : State), i ∈ [.atticSync, .clearSettings] → getF s R.ATTIC_RESTORE_STA.DONE = 0 → exec i s = .next s) ∧
  (∀ s : State, (topState s = stRun ∨ topState s = stBringup) → exec .clearSettings s = .next s) ∧
  (∀ s : State, regsServed s = true →
    Answers .coldNext s fun t =>
      t.bu = { s.bu with coldNext := true } ∧ t.attic.recs = s.attic.recs ∧
      (recSaturated s recPackage = false →
        ∃ c, (recPackage, c) ∈ t.attic.queue ∨ t.attic.writing = some (recPackage, c)))
/-! ### Plans and partitions -/

/-- R182 to R187, R202, Table 6.15: a LOAD that nothing refuses makes the loader BUSY and has it read the image; the image,
read whole, is loaded when every check passes, its segments standing at their places and its cores bound, and otherwise
leaves only the record of its failure, as does one that cannot be read; UNLOAD acts on a plan that does not run, and RESTART
on the primary's. The checks that need the exact cycle model are the operand of the row (log 34), and the reading of the
image as host work is the model's choice (log 125). -/
def Obligations.PlansAreLoadedUnloadedAndRestarted : Prop :=
  (∀ (f : Fin 4) (s : State), loadRefused s f = false →
    Answers (.planLoad f) s fun t =>
      getF t (R.PLAN_STA.BUSY f) = 1 ∧ getF t (R.PLAN_ERR.VALID f) = 0 ∧
      getJob t (loadJob f) = some { imageJob s f with order := s.hif.accepted } ∧
      RegsBut [R.PLAN_STA.BUSY f, R.PLAN_ERR.VALID f] s t ∧ ChangesOnly [.regs, .hif] s t) ∧
  (∀ (f : Fin 4) (s : State), (getF s (R.PLAN_STA.BUSY f) = 1 ∨ zeroingFor s f = true ∨
      getF s (R.PG_STA.ZEROING 0x19) = 1 ∨ (running s = true ∧ hPartition s (loadAddr s f) = 0) ∨
      (f ≠ 0 ∧ getF s (R.PART_RUN_STA.RUN f) = 1)) →
    Answers (.planLoad f) s fun t =>
      raised (E.PLAN.PLAN_REFUSED f) t ∧ RegsBut (evFlds (E.PLAN.PLAN_REFUSED f)) s t ∧ ChangesOnly [.regs, .hif, .out] s t) ∧
  (∀ (f : Fin 4) (q : HostJob) (model : Option LoadErr) (s : State), getF s (R.PLAN_STA.BUSY f) = 1 → getJob s (loadJob f) = some q →
    (q.fault = 0 → q.todo ≠ [] → exec (.planLoadDone f model) s = .next s) ∧
    (q.fault ≠ 0 → Answers (.planLoadDone f model) s fun t =>
      raised (E.PLAN.PLAN_FAIL f) t ∧ getF t (R.PLAN_ERR.CODE f) = 3 ∧ getF t (R.PLAN_ERR.VALID f) = 1 ∧
      getF t (R.PLAN_STA.BUSY f) = 0 ∧ getJob t (loadJob f) = none ∧ ChangesOnly [.regs, .hif, .out] s t)) ∧
  (∀ (f : Fin 4) (s : State), getF s (R.PLAN_STA.BUSY f) = 1 → imageRead s f = true → imageLost s f = false →
    hMagic s (loadAddr s f) ≠ 0x4C50514D →
    Answers (.planLoadDone f none) s fun t =>
      raised (E.PLAN.PLAN_FAIL f) t ∧ getF t (R.PLAN_ERR.CODE f) = 1 ∧ getF t (R.PLAN_ERR.SECTION f) = 0xFF ∧
      getF t (R.PLAN_ERR.VALID f) = 1 ∧ getF t (R.PLAN_STA.BUSY f) = 0 ∧ ChangesOnly [.regs, .hif, .out] s t) ∧
  (∀ (f : Fin 4) (m : LoadErr) (s : State), getF s (R.PLAN_STA.BUSY f) = 1 → imageRead s f = true → imageLost s f = false →
    loadChecks s (loadAddr s f) f = none →
    Answers (.planLoadDone f (some m)) s fun t =>
      raised (E.PLAN.PLAN_FAIL f) t ∧ getF t (R.PLAN_ERR.CODE f) = m.code % 2 ^ 16 ∧
      getF t (R.PLAN_ERR_TICK.PTICK f) = m.ptick % 2 ^ 20 ∧ getF t (R.PLAN_ERR_CYC.CYCLE f) = m.cycle % 2 ^ 16 ∧
      getF t (R.PLAN_STA.BUSY f) = 0 ∧ ChangesOnly [.regs, .hif, .out] s t) ∧
  (∀ (f : Fin 4) (s : State), getF s (R.PLAN_STA.BUSY f) = 1 → imageRead s f = true → imageLost s f = false →
    loadChecks s (loadAddr s f) f = none →
    let pa := loadAddr s f
    let pl := planOf s pa
    Answers (.planLoadDone f none) s fun t =>
      getPlan t f = some pl ∧ (∀ n : Nat, n ≠ f → getPlan t n = getPlan s n) ∧ getF t (R.PLAN_STA.LOADED f) = 1 ∧
      getF t (R.PLAN_STA.BUSY f) = 0 ∧ raised (E.PLAN.PLAN_DONE f) t ∧ getF t (R.PLAN_PERIOD.PERIOD f) = pl.period % 2 ^ 21 ∧
      (f = 0 → resumeTick t = 0) ∧
      (pl.filler = false → ∀ c ∈ planCores pl, (getCore t c.1).bound = pl.part + 1 ∧ (getCore t c.1).sem = []) ∧
      (∀ e ∈ pl.segs, hGuestTbl s pa = 0 → (∀ g ∈ pl.segs, g = e ∨ g.pa + (imgSeg s pa g).length ≤ e.pa ∨
          e.pa + (imgSeg s pa e).length ≤ g.pa) →
        rdMems t e.pa (imgSeg s pa e).length = imgSeg s pa e) ∧
      (hGuestTbl s pa = 0 → ∀ a, (∀ g ∈ pl.segs, a < g.pa ∨ g.pa + (imgSeg s pa g).length ≤ a) → rdMem t a = rdMem s a)) ∧
  (∀ (f : Fin 4) (model : Option LoadErr) (s : State), getF s (R.PLAN_STA.BUSY f) = 0 → exec (.planLoadDone f model) s = .next s) ∧
  (∀ (f : Fin 4) (s : State), Canonical s → getF s (R.PLAN_STA.BUSY f) = 0 → (if f = 0 then running s else secRunning s f) = false →
    Answers (.unload f) s fun t =>
      getPlan t f = none ∧ (∀ n : Nat, n ≠ f → getPlan t n = getPlan s n) ∧ getF t (R.PLAN_STA.LOADED f) = 0 ∧
      raised (E.PLAN.UNLOADED f) t ∧ (∀ c, (getCore t c).bound ≠ f.val + 1) ∧
      (∀ c, (getCore s c).bound ≠ f.val + 1 → getCore t c = getCore s c) ∧ t.mem = s.mem) ∧
  (∀ (f : Fin 4) (s : State), (getF s (R.PLAN_STA.BUSY f) = 1 ∨ (if f = 0 then running s else secRunning s f) = true) →
    Answers (.unload f) s fun t => raised (E.PLAN.PLAN_REFUSED f) t ∧ t.plans = s.plans ∧ t.cores = s.cores ∧ t.mem = s.mem) ∧
  (∀ (pl : Plan) (s : State), primary s = some pl → running s = false → getF s (R.PLAN_STA.BUSY 0) = 0 →
    Answers (.restart 0) s fun t =>
      resumeTick t = 0 ∧ t.plans = s.plans ∧ t.mem = s.mem ∧
      (pl.filler = false → ∀ c ∈ planCores pl, (getCore t c.1).bound = pl.part + 1 ∧ (getCore t c.1).sem = [] ∧
        (getCore t c.1).acc = []) ∧
      (∀ d, d ∉ (planCores pl).map (·.1) → getCore t d = getCore s d)) ∧
  (∀ (f : Fin 4) (s : State), (f ≠ 0 ∨ primary s = none ∨ running s = true ∨ getF s (R.PLAN_STA.BUSY f) = 1) →
    Answers (.restart f) s fun t => raised (E.PLAN.PLAN_REFUSED f) t ∧ t.plans = s.plans ∧ t.cores = s.cores ∧ t.mem = s.mem)

/-- R374, R375, R377: an owner command gives its regions to their new owner with every byte zero, or is refused whole;
the zeroing that ends clears its flag; a START or STOP that names a tick late enough is noted, any other refused, and so is
any write of PART_RUN while the package does not run. That
the bytes are zero from the command on is the model's choice (log 58), and the event of a misuse its reading (log 61).
-/
def Obligations.PartitionsChangeHandsAndRun : Prop :=
  (∀ s : State, getF s R.PART_ZERO_STA.REGIONS = 0 →
    (getF s R.PART_OWNER_CMD.TO ≤ 3 ∨ getF s R.PART_OWNER_CMD.TO = 7) →
    let rs := (List.range (getF s R.PART_OWNER_CMD.COUNT)).map (getF s R.PART_OWNER_CMD.FIRST + ·)
    (∀ r ∈ rs, regionExists s r = true ∧ planLists s r = false) →
    Answers .partOwnerCmd s fun t =>
      (∀ r, smGet 0 t.hif.owner r = if r ∈ rs then getF s R.PART_OWNER_CMD.TO else smGet 0 s.hif.owner r) ∧
      (∀ a, rdMem t a = if a / 2 ^ 28 ∈ rs ∧ smGet 0 s.hif.owner (a / 2 ^ 28) ≠ getF s R.PART_OWNER_CMD.TO then 0 else rdMem s a) ∧
      getF t R.PART_ZERO_STA.REGIONS = (if ∀ r ∈ rs, smGet 0 s.hif.owner r = getF s R.PART_OWNER_CMD.TO then 0 else 1) ∧
      t.cores = s.cores ∧ t.plans = s.plans) ∧
  (∀ s : State,
    let rs := (List.range (getF s R.PART_OWNER_CMD.COUNT)).map (getF s R.PART_OWNER_CMD.FIRST + ·)
    (getF s R.PART_ZERO_STA.REGIONS = 1 ∨ ∃ r ∈ rs, regionExists s r = false ∨ planLists s r = true) →
    Answers .partOwnerCmd s fun t =>
      raised E.PART.PART_CONFLICT t ∧ t.hif.owner = s.hif.owner ∧ t.mem = s.mem ∧ RegsBut (evFlds E.PART.PART_CONFLICT) s t) ∧
  (∀ s : State, (getF s R.PART_ZERO_STA.CORES = 1 ∨ getF s R.PART_ZERO_STA.LANDING = 1) →
    Answers .zeroed s fun t =>
      getF t R.PART_ZERO_STA.CORES = 0 ∧ getF t R.PART_ZERO_STA.LANDING = 0 ∧ raised E.PART.ZEROED t ∧
      getF t (R.PG_STA.ENABLED 0x06) = getF s (R.PG_CTL.EN 0x06) % 2 ∧ t.hif.zeroCores = [] ∧ t.hif.zeroBanks = 0 ∧
      t.hif.zeroLand = 0 ∧
      (∀ l ∈ s.hif.zeroCores, ∀ a, lsByte (getCore t l) a = 0 ∧ (getCore t l).acc = [] ∧
        (getCore t l).fenced = (getCore s l).fenced) ∧ t.mem = s.mem) ∧
  (∀ s : State, getF s R.PART_ZERO_STA.CORES = 0 → getF s R.PART_ZERO_STA.LANDING = 0 → getF s R.PART_ZERO_STA.REGIONS = 1 →
    Answers .zeroed s fun t =>
      getF t R.PART_ZERO_STA.REGIONS = 0 ∧ getF t R.PART_ZERO_STA.REGIONS_LEFT = 0 ∧ getF t (R.PG_STA.ZEROING 0x06) = 0 ∧
      raised E.PART.ZEROED t ∧ t.cores = s.cores ∧ t.mem = s.mem) ∧
  (∀ (d : Nat) (s : State), running s = true → tickCmp (getF s R.PART_RUN.TICK) (tickNum s) = .newer d →
    let n := getF s R.PART_RUN.PART
    (2 ≤ d → n ≠ 0 → partVal s n 6 = 1 → (getPlan s n).isSome = true → secRunning s n = false → isFiller s n = false →
      Answers .partRunStart s fun t =>
        smGet none t.secs n = some { start := s.tick.job + d, stop := none } ∧ getF t (R.PART_RUN_STA.PENDING n) = 1 ∧
        RegsBut [R.PART_RUN_STA.PENDING n] s t ∧ ChangesOnly [.regs, .secs] s t) ∧
    (d < 2 → Answers .partRunStart s fun t => raised E.PART.PART_CONFLICT t ∧ t.secs = s.secs) ∧
    (∀ q, smGet none s.secs n = some q → 1 ≤ d →
      Answers .partRunStop s fun t =>
        smGet none t.secs n = some { q with stop := some (s.tick.job + d) } ∧ ChangesOnly [.secs] s t) ∧
    (smGet none s.secs n = none → Answers .partRunStop s fun t => raised E.PART.PART_CONFLICT t ∧ t.secs = s.secs)) ∧
  (∀ (i : Instr) (s : State), i ∈ [.partRunStart, .partRunStop] → running s = false →
    Answers i s fun t => raised E.PART.PART_CONFLICT t ∧ t.secs = s.secs ∧ RegsBut (evFlds E.PART.PART_CONFLICT) s t) ∧
  (∀ (w : Word) (s : State), regsServed s = true → pageOpen s 0x06 = true → running s = false → w.toNat / 4 % 4 = 0 →
    crossOk s 0x06 = true →
    Answers (.registerWrite (.pf 0) (barOffset 0x06 0 0x88) w) s fun t =>
      raised E.PART.PART_CONFLICT t ∧ t.secs = s.secs ∧ t.mem = s.mem)

/-! ### Registers -/

/-- R6, R354, R376, R395, R398, R401, R403, R405, R409: a write changes the fields of its register through its view
when the page is disabled and every value is accepted, and is rejected with its record when not; it is dropped with its
record where the requester may not write; a posted page takes one write at a time; PG_CTL acts at once. -/
def Obligations.RegisterWritesFollowTheirViewsAndRights : Prop :=
  (∀ (view off : Nat) (w : Word) (s : State), regsServed s = true → pageOpen s 0x03 = true → view < 4 → 0x20 ≤ off →
    assigned 0x03 off = true →
    let es := takenFields s false view w.toNat (regFlds (.pf 0) 0x03 off)
    (getF s (R.PG_CTL.EN 0x03) = 0 → (∀ e ∈ es, fieldOk s e.1 e.2 = true) → crossOk (setFs s es) 0x03 = true →
      Answers (.registerWrite (.pf 0) (barOffset 0x03 view off) w) s fun t =>
        (∀ f ∈ pageFlds 0x03, f.off = off → f.acc = .rwd →
          getF t f = viewed view (getF s f) (bitsOf w.toNat f.lo f.width) % 2 ^ f.width) ∧
        (∀ f ∈ pageFlds 0x03, (f.off ≠ off ∨ f.acc ≠ .rwd) → getF t f = getF s f) ∧ t.tick = s.tick ∧ t.mem = s.mem) ∧
    (getF s (R.PG_CTL.EN 0x03) = 0 → ((∃ e ∈ es, fieldOk s e.1 e.2 = false) ∨ crossOk (setFs s es) 0x03 = false) →
      Answers (.registerWrite (.pf 0) (barOffset 0x03 view off) w) s fun t =>
        getF t (R.PG_STA.CFG_REJECT 0x03) = 1 ∧ getF t (R.PG_CFGREJ_ADDR.OFFSET 0x03) = off ∧
        getF t (R.PG_CFGREJ_ADDR.VIEW 0x03) = view ∧ getF t (R.PG_CFGREJ_ADDR.PF 0x03) = 0 ∧
        (∀ f ∈ pageFlds 0x03, getF t f = getF s f) ∧ ChangesOnly [.regs] s t) ∧
    (getF s (R.PG_CTL.EN 0x03) = 1 → (∃ f ∈ pageFlds 0x03, f.off = off ∧ f.acc = .rwd) →
      Answers (.registerWrite (.pf 0) (barOffset 0x03 0 off) w) s fun t =>
        getF t (R.PG_STA.CFG_REJECT 0x03) = 1 ∧ getF t (R.PG_CFGREJ_ADDR.OFFSET 0x03) = off ∧
        (∀ f ∈ pageFlds 0x03, getF t f = getF s f) ∧ t.mem = s.mem)) ∧
  (∀ (n : Fin 4) (pg view off : Nat) (w : Word) (s : State), regsServed s = true → pageOpen s pg = true → view < 4 →
    assigned pg off = true → n ≠ 0 → pg ∉ [0x06, 0x41, 0x50, 0x52] → ¬ (pg = 0 ∧ off = 0x64) →
    Answers (.registerWrite (.pf n) (barOffset pg view off) w) s fun t =>
      raised E.HOSTIF.ACCESS_DENIED t ∧ getF t R.HIF_DENIED.OFFSET = barOffset pg view off ∧ getF t R.HIF_DENIED.PF = n ∧
      RegsBut ([R.HIF_DENIED.OFFSET, R.HIF_DENIED.PF] ++ evFlds E.HOSTIF.ACCESS_DENIED) s t ∧ ChangesOnly [.regs, .hif, .out] s t) ∧
  (∀ (r : Req) (pg view off : Nat) (w : Word) (s : State), view < 16 → off < 2 ^ 12 →
    (regsServed s = false ∨ 4 ≤ view ∨ assigned pg off = false) →
    exec (.registerWrite r (barOffset pg view off) w) s = .next s) ∧
  (∀ (pg view off : Nat) (w : Word) (s : State), regsServed s = true → pageOpen s pg = true → postedPage pg = true → view < 4 →
    assigned pg off = true → off ≠ 0x14 → off ≠ 0x18 →
    (getF s (R.PG_STA.WBUSY pg) = 0 → Answers (.registerWrite (.pf 0) (barOffset pg view off) w) s fun t =>
      getF t (R.PG_STA.WBUSY pg) = 1 ∧ smGet none t.hif.posted pg = some (0, view, off, w.toNat) ∧
      RegsBut [R.PG_STA.WBUSY pg] s t ∧ ChangesOnly [.regs, .hif] s t) ∧
    (getF s (R.PG_STA.WBUSY pg) = 1 → Answers (.registerWrite (.pf 0) (barOffset pg view off) w) s fun t =>
      raised ⟨pg, 15⟩ t ∧ smGet none t.hif.posted pg = smGet none s.hif.posted pg ∧ RegsBut (evFlds ⟨pg, 15⟩) s t)) ∧
  (∀ (n view off : Nat) (w : Nat) (s : State), smGet none s.hif.posted 0x04 = some (n, view, off, w) → view < 4 → 0x20 ≤ off →
    getF s (R.PG_CTL.EN 0x04) = 0 → (∀ e ∈ takenFields s false view w (regFlds (reqOf n) 0x04 off), fieldOk s e.1 e.2 = true) →
    Answers (.postedWriteDone 0x04) s fun t =>
      getF t (R.PG_STA.WBUSY 0x04) = 0 ∧ smGet none t.hif.posted 0x04 = none ∧
      (∀ f ∈ pageFlds 0x04, f.off = off → f.acc = .rwd →
        getF t f = viewed view (getF s f) (bitsOf w f.lo f.width) % 2 ^ f.width) ∧
      (∀ f ∈ pageFlds 0x04, f.acc = .rwd → f.off ≠ off → getF t f = getF s f)) ∧
  (∀ (pg : Nat) (s : State), smGet none s.hif.posted pg = none → exec (.postedWriteDone pg) s = .next s) ∧
  (∀ (pg : Nat) (s : State), regsServed s = true → pageOpen s pg = true → pg ∈ [0x00, 0x02, 0x05, 0x08, 0x10, 0x18, 0x41, 0x42, 0x50, 0x51] →
    (getF s (R.PG_CTL.EN pg) = 0 → Answers (.pageEnable (.pf 0) pg) s fun t =>
      getF t (R.PG_CTL.EN pg) = 1 ∧ getF t (R.PG_STA.ENABLED pg) = 1 ∧ getF t (R.PG_STA.CFG_REJECT pg) = 0 ∧
      ChangesOnly [.regs] s t) ∧
    (getF s (R.PG_CTL.EN pg) = 1 → (running s = false ∨ enClearRunning pg = true) → Answers (.pageDisable (.pf 0) pg) s fun t =>
      getF t (R.PG_CTL.EN pg) = 0 ∧ getF t (R.PG_STA.ENABLED pg) = 0 ∧ ChangesOnly [.regs] s t) ∧
    (getF s (R.PG_CTL.EN pg) = 1 → running s = true → enClearRunning pg = false → Answers (.pageDisable (.pf 0) pg) s fun t =>
      getF t (R.PG_CTL.EN pg) = 1 ∧ getF t (R.PG_STA.CFG_REJECT pg) = 1 ∧ getF t (R.PG_CFGREJ_ADDR.OFFSET pg) = 4 ∧
      ChangesOnly [.regs] s t))

/-- R407: a write to PG_EVT_ACK is accepted when its SEQ equals PG_EVT_SEQ.SEQ and LAP has not toggled since the last read of
PG_EVT_SEQ by any requester: it clears the bits that MASK names, leaves SEQ and clears ACK_STALE; any other write clears no
bit and sets ACK_STALE. `lapped` of the page says that LAP has toggled: raising an event sets it where SEQ wraps, a read of
PG_EVT_SEQ clears it. -/
def Obligations.AcknowledgementsAreMadeAgainstTheSequence : Prop :=
  (∀ (r : Req) (pg : Nat) (w : Word) (s : State), regsServed s = true → pageOpen s pg = true → pageExists pg = true →
    mayWrite s r pg 0x14 0 = true →
    let p := hdrPage r pg
    (w.toNat / 2 ^ 16 = getF s (R.PG_EVT_SEQ.SEQ p) → smGet false s.hif.lapped p = false →
      Answers (.pgEvtAck r pg w) s fun t =>
        (∀ b, b < 16 → bitsOf (getF t (R.PG_EVT.EVT p)) b 1 =
          if bitsOf w.toNat b 1 = 1 then 0 else bitsOf (getF s (R.PG_EVT.EVT p)) b 1) ∧
        getF t (R.PG_STA.ACK_STALE p) = 0 ∧ RegsBut [R.PG_EVT.EVT p, R.PG_STA.ACK_STALE p] s t ∧ ChangesOnly [.regs] s t) ∧
    ((w.toNat / 2 ^ 16 ≠ getF s (R.PG_EVT_SEQ.SEQ p) ∨ smGet false s.hif.lapped p = true) →
      Answers (.pgEvtAck r pg w) s fun t =>
        getF t (R.PG_STA.ACK_STALE p) = 1 ∧ RegsBut [R.PG_STA.ACK_STALE p] s t ∧ ChangesOnly [.regs] s t)) ∧
  (∀ (e : Ev) (s : State), smGet false (raise e s).hif.lapped e.page =
    (smGet false s.hif.lapped e.page || getF s (R.PG_EVT_SEQ.SEQ e.page) == 2 ^ 16 - 1)) ∧
  (∀ (e : Ev) (p : Nat) (s : State), p ≠ e.page → smGet false (raise e s).hif.lapped p = smGet false s.hif.lapped p) ∧
  (∀ (r : Req) (pg : Nat) (s : State), regsServed s = true → readOpen s pg = true → pageExists pg = true →
    Answers (.pgEvtSeqRead r pg) s fun t =>
      smGet false t.hif.lapped (hdrPage r pg) = false ∧ t.regs = s.regs ∧
      ∀ p, p ≠ hdrPage r pg → smGet false t.hif.lapped p = smGet false s.hif.lapped p)

/-- R49, R90, R91, R115, R116, R236, R248, R303, R370, R396, R397, R407: a read returns the register to its requester and latches the
words it owns; a read of a data register advances its pointer; an access of CORE_WIN starts, is refused or completes in its
requester's own registers, in the order of arrival, and one of a bound core in the guard alone; the storage code reports what it
finds there. -/
def Obligations.ReadsLatchTheirWordsAndTheCoreWindowAnswers : Prop :=
  (∀ (r : Req) (pg : Nat) (s : State), regsServed s = true → readOpen s pg = true → pageExists pg = true →
    Answers (.pgEvtSeqRead r pg) s fun t =>
      smGet 0 t.out.rd r.no = BitVec.ofNat 32 (getF s (R.PG_EVT_SEQ.SEQ (hdrPage r pg)) +
        2 ^ 16 * getF s (R.PG_EVT_SEQ.LAP (hdrPage r pg))) ∧
      smGet false t.hif.lapped (hdrPage r pg) = false ∧ t.regs = s.regs ∧ ChangesOnly [.out, .hif] s t) ∧
  (∀ (r : Req) (s : State), regsServed s = true → getF s R.ATTIC_RESTORE_STA.DONE = 1 → smGet none s.latch (latchKey r 0x03 0x40) = none →
    Answers (.tickCountLoRead r) s fun t =>
      smGet 0 t.out.rd r.no = BitVec.ofNat 32 s.counter ∧
      smGet none t.latch (latchKey r 0x03 0x44) = some (s.counter / 2 ^ 32 % 2 ^ 32) ∧
      (∀ q : Req, q ≠ r → ∀ o, o < 0x1000 → smGet none t.latch (latchKey q 0x03 o) = smGet none s.latch (latchKey q 0x03 o)) ∧
      ChangesOnly [.out, .latch] s t) ∧
  (∀ (r : Req) (s : State), regsServed s = true → getF s R.ATTIC_RESTORE_STA.DONE = 1 →
    (smGet none s.latch (latchKey r 0x03 0x54) = none → Answers (.tickLaunchLoRead r) s fun t =>
      smGet 0 t.out.rd r.no = BitVec.ofNat 32 (getF s R.TICK_LAUNCH_LO.LAUNCH) ∧
      smGet none t.latch (latchKey r 0x03 0x58) = some (getF s R.TICK_LAUNCH_HI.LAUNCH) ∧ ChangesOnly [.out, .latch] s t) ∧
    (smGet none s.latch (latchKey r 0x03 0x78) = none → Answers (.tickJobLoRead r) s fun t =>
      smGet 0 t.out.rd r.no = BitVec.ofNat 32 (getF s R.TICK_JOB_LO.JOB) ∧
      smGet none t.latch (latchKey r 0x03 0x7C) = some (getF s R.TICK_JOB_HI.JOB) ∧ ChangesOnly [.out, .latch] s t)) ∧
  (∀ (r : Req) (k : StackNo) (q : Fin 3) (s : State), regsServed s = true → getF s R.ATTIC_RESTORE_STA.DONE = 1 →
    let off := if q = 0 then 0x60 else if q = 1 then 0x70 else 0x90
    smGet none s.latch (latchKey r (0x60 + k) off) = none →
    Answers (.panLowWordRead r k q) s fun t =>
      smGet 0 t.out.rd r.no = BitVec.ofNat 32 (regWord s (0x60 + k) off) ∧
      (∀ j, j ∈ [4, 8, 12] → smGet none t.latch (latchKey r (0x60 + k) (off + j)) = some (regWord s (0x60 + k) (off + j))) ∧
      ChangesOnly [.out, .latch] s t) ∧
  (∀ (r : Req) (k : StackNo) (s : State), regsServed s = true → getF s R.ATTIC_RESTORE_STA.DONE = 1 →
    smGet none s.latch (latchKey r (0x60 + k) 0x80) = none →
    Answers (.panGnsSmall0Read r k) s fun t =>
      smGet 0 t.out.rd r.no = BitVec.ofNat 32 (regWord s (0x60 + k) 0x80) ∧
      (∀ o, o ∈ [0x84, 0x88, 0x8C, 0x90, 0x94, 0x98, 0x9C, 0x58] →
        smGet none t.latch (latchKey r (0x60 + k) o) = some (regWord s (0x60 + k) o)) ∧
      ChangesOnly [.out, .latch] s t) ∧
  (∀ (r : Req) (s : State), regsServed s = true → getF s R.ATTIC_RESTORE_STA.DONE = 1 →
    (∀ e, smGet none s.flt.log (getF s R.FLT_LOG_PTR.SEQ % 1024) = some e → smGet none s.latch (latchKey r 0x05 0x48) = none →
      Answers (.fltLogDataRead r) s fun t =>
        smGet 0 t.out.rd r.no = BitVec.ofNat 32 (bitsOf (logBytes e) (32 * getF s R.FLT_LOG_PTR.WORD) 32) ∧
        getF t R.FLT_LOG_PTR.WORD = (getF s R.FLT_LOG_PTR.WORD + 1) % 8 ∧ RegsBut [R.FLT_LOG_PTR.WORD] s t ∧ t.flt = s.flt) ∧
    (smGet none s.latch (latchKey r 0x01 0x50) = none → Answers (.atticHistDataRead r) s fun t =>
      smGet 0 t.out.rd r.no = BitVec.ofNat 32 (bitsOf (histBytes (getHist s (getF s R.ATTIC_HIST_PTR.UNIT * 2 ^ 24 +
        getF s R.ATTIC_HIST_PTR.ID))) (32 * getF s R.ATTIC_HIST_PTR.WORD) 32) ∧
      getF t R.ATTIC_HIST_PTR.WORD = (getF s R.ATTIC_HIST_PTR.WORD + 1) % 4 ∧ RegsBut [R.ATTIC_HIST_PTR.WORD] s t ∧
      t.attic = s.attic)) ∧
  (∀ (n : Fin 4) (w : Word) (s : State), regsServed s = true → getF s R.ATTIC_RESTORE_STA.DONE = 1 →
    let q := [regWord s (0x50 + 0x1000 * n) 0x40, w.toNat % 2 ^ 18, 0, 0]
    (getF s (R.CW_STA.BUSY n) = 0 → cwRefused s (.pf n) q = false → Answers (.cwAddrWrite (.pf n) w) s fun t =>
      getF t (R.CW_ADDR.ADDR n) = w.toNat % 2 ^ 18 ∧ getF t (R.CW_STA.BUSY n) = 1 ∧ smGet none t.hif.cw n = some q ∧
      (∀ m, m ≠ n.val → smGet none t.hif.cw m = smGet none s.hif.cw m) ∧ t.cores = s.cores) ∧
    ((getF s (R.CW_STA.BUSY n) = 1 ∨ cwRefused s (.pf n) q = true) → Answers (.cwAddrWrite (.pf n) w) s fun t =>
      getF t (R.CW_STA.REFUSED n) = 1 ∧ raised E.CORE_WIN.CW_REFUSED t ∧ t.hif.cw = s.hif.cw ∧ t.cores = s.cores)) ∧
  (∀ (n : Fin 4) (w : Word) (s : State), regsServed s = true → getF s R.ATTIC_RESTORE_STA.DONE = 1 → getF s (R.CW_STA.BUSY n) = 0 →
    let q := [regWord s (0x50 + 0x1000 * n) 0x40, getF s (R.CW_ADDR.ADDR n), 1, w.toNat]
    cwRefused s (.pf n) q = false → Answers (.cwDataWrite (.pf n) w) s fun t =>
      getF t (R.CW_STA.BUSY n) = 1 ∧ smGet none t.hif.cw n = some q ∧ getF t (R.CW_DATA.DATA n) = getF s (R.CW_DATA.DATA n) ∧
      t.cores = s.cores) ∧
  (∀ (r : Req) (s : State), regsServed s = true → getF s R.ATTIC_RESTORE_STA.DONE = 1 →
    smGet none s.latch (latchKey r (0x50 : Nat) 0x48) = none → getF s (R.CW_SEL.INC r.no) = 0 →
    Answers (.cwDataRead r) s fun t =>
      smGet 0 t.out.rd r.no = BitVec.ofNat 32 (getF s (R.CW_DATA.DATA r.no)) ∧ t.regs = s.regs ∧ t.hif = s.hif ∧ t.cores = s.cores) ∧
  (∀ (r : Req) (s : State), regsServed s = true → getF s R.ATTIC_RESTORE_STA.DONE = 1 → getF s (R.CW_SEL.INC r.no) = 1 →
    getF s (R.CW_STA.BUSY r.no) = 0 →
    let q := [regWord s (0x50 + 0x1000 * r.no) 0x40, (getF s (R.CW_ADDR.ADDR r.no) + 4) % 2 ^ 18, 0, 0]
    cwRefused s r q = false → Answers (.cwDataRead r) s fun t =>
      getF t (R.CW_ADDR.ADDR r.no) = (getF s (R.CW_ADDR.ADDR r.no) + 4) % 2 ^ 18 ∧ getF t (R.CW_STA.BUSY r.no) = 1 ∧
      smGet none t.hif.cw r.no = some q) ∧
  (∀ (r : Req) (q : List Nat) (e : WinEcc) (s : State), smGet none s.hif.cw r.no = some q →
    (cwTurn s r.no = false → exec (.coreWinAccessDone r e) s = .next s) ∧
    (cwBound s (cwLcid q) = true → cwTarget q ≠ 5 → cwWrite q = false → (s.tick.atD = false ∨ s.tick.draining = true) → cwTurn s r.no = false) ∧
    (cwTurn s r.no = true → cwWrite q = true → cwBound s (cwLcid q) = true → Answers (.coreWinAccessDone r e) s fun t =>
      getF t (R.CW_STA.REFUSED r.no) = 1 ∧ raised E.CORE_WIN.CW_REFUSED t ∧ smGet none t.hif.cw r.no = none ∧
      getF t (R.CW_STA.BUSY r.no) = 0 ∧ t.cores = s.cores) ∧
    (cwTurn s r.no = true → cwWrite q = true → cwBound s (cwLcid q) = false → Answers (.coreWinAccessDone r e) s fun t =>
      getCore t (cwLcid q) = cwPut q (getCore s (cwLcid q)) ∧ (∀ d, d ≠ cwLcid q → getCore t d = getCore s d) ∧
      getF t (R.CW_STA.BUSY r.no) = 0 ∧ getF t (R.CW_STA.REFUSED r.no) = 0 ∧ smGet none t.hif.cw r.no = none ∧
      (getF s (R.CW_SEL.INC r.no) = 1 → getF t (R.CW_ADDR.ADDR r.no) = (getF s (R.CW_ADDR.ADDR r.no) + 4) % 2 ^ 18)) ∧
    (cwTurn s r.no = true → cwWrite q = false → s.hearth.trip = false → Answers (.coreWinAccessDone r .clean) s fun t =>
      (cwTarget q = 0 → getF t (R.CW_DATA.DATA r.no) = leNat (lsRead (getCore s (cwLcid q)) (cwAddr q) 4)) ∧
      (cwTarget q = 1 → getF t (R.CW_DATA.DATA r.no) = (smGet 0 (getCore s (cwLcid q)).acc (cwAddr q / 4)).toNat) ∧
      getF t (R.CW_STA.UE r.no) = 0 ∧ getF t (R.CW_STA.BUSY r.no) = 0 ∧ smGet none t.hif.cw r.no = none ∧ t.cores = s.cores) ∧
    (cwTurn s r.no = true → cwWrite q = false → Answers (.coreWinAccessDone r .uncorrectable) s fun t =>
      getF t (R.CW_DATA.DATA r.no) = 0 ∧ getF t (R.CW_STA.UE r.no) = 1 ∧ raised E.CORE_WIN.CW_UE t ∧
      (cwTarget q = 0 → ∃ x, smGet none t.flt.log (getF s R.FLT_LOG_HEAD.SEQ % 1024) = some x ∧ (x.code = 0x17 ∨ x.code = 0x18) ∧
        x.unitId = cwLcid q)) ∧
    (cwTurn s r.no = true → cwWrite q = false → cwTarget q = 0 → Answers (.coreWinAccessDone r .corrected) s fun t =>
      getF t (R.CW_STA.UE r.no) = 0 ∧ t.cores = s.cores ∧
      ∃ x, smGet none t.flt.log (getF s R.FLT_LOG_HEAD.SEQ % 1024) = some x ∧ x.code = 0x16 ∧ x.unitId = cwLcid q))

/-! ### The host and the management port -/

/-- R200, R202, R383, R384, R386, R387: a transfer starts within its partition's cellar regions, behind the host work that
waits; each of its runs moves its bytes as it ends, and the transfer ends with the last or with one that failed; an access
through BAR2 reaches its partition's regions when its channel takes unplanned work, and none beyond them; the link's state
shows. How a transfer is cut into runs is the model's choice (logs 57 and 124). -/
def Obligations.HostTransfersReachTheirPartitionsRegions : Prop :=
  (∀ (n : Fin 16) (s : State), getF s (R.HIF_DMA_STA.BUSY n) = 0 →
    let p := getF s (R.HIF_PF_MAP.CH n)
    let pa := 256 * getF s (R.HIF_DMA_PA.PA n)
    let len := 256 * getF s (R.HIF_DMA_LEN.LEN n)
    (len ≠ 0 → partExists s p = true → spanOwned s p pa len = true → Answers (.dmaStart n) s fun t =>
      (∃ q, getJob t n = some q ∧ q.part = p ∧ q.order = s.hif.accepted ∧ q.fault = 0 ∧
        q.haddr = getF s (R.HIF_DMA_HADDR_LO.HADDR n) + 2 ^ 32 * getF s (R.HIF_DMA_HADDR_HI.HADDR n) ∧
        q.todo = [{ pa := pa, len := len, wr := getF s (R.HIF_DMA_CTL.DIR n) == 0, data := [] }]) ∧
      getF t (R.HIF_DMA_STA.BUSY n) = 1 ∧ getF t (R.HIF_DMA_STA.DONE n) = 0 ∧ getF t (R.HIF_DMA_STA.ERR n) = 0 ∧ t.mem = s.mem) ∧
    ((len = 0 ∨ partExists s p = false ∨ spanOwned s p pa len = false) → Answers (.dmaStart n) s fun t =>
      raised E.HOSTIF.DMA_ERR t ∧ getF t (R.HIF_DMA_STA.ERR n) = 1 ∧ t.hif.jobs = s.hif.jobs ∧ t.mem = s.mem)) ∧
  (∀ (n : Fin 16) (s : State), getF s (R.HIF_DMA_STA.BUSY n) = 1 → exec (.dmaStart n) s = .next s) ∧
  (∀ (k : StackNo) (c : ChanNo) (r : Run) (n : Fin 16) (q : HostJob) (a : HostAcc) (l : List HostAcc) (s : State),
    (getChan s (chanKey k c)).cur = some r → r.kind = .host n false → getJob s n = some q → q.todo = a :: l → a.wr = false →
    let m := min a.len (64 * r.beats)
    Answers (.runEnd k c false .clean [] []) s fun t =>
      smGetList 0 t.out.host q.haddr m = rdMems s r.pa m ∧
      (∀ x, (x < q.haddr ∨ q.haddr + m ≤ x) → smGet 0 t.out.host x = smGet 0 s.out.host x) ∧ t.mem = s.mem ∧
      getJob t n = some { q with todo := advance m (a :: l), tries := 0, haddr := q.haddr + m }) ∧
  (∀ (n : Fin 16) (q : HostJob) (s : State), getJob s n = some q →
    (q.fault = 0 → q.todo = [] → Answers (.dmaDone n) s fun t =>
      getF t (R.HIF_DMA_STA.BUSY n) = 0 ∧ getF t (R.HIF_DMA_STA.DONE n) = 1 ∧ raised E.HOSTIF.DMA_DONE t ∧
      getJob t n = none ∧ t.mem = s.mem) ∧
    (q.fault ≠ 0 → Answers (.dmaDone n) s fun t =>
      getF t (R.HIF_DMA_STA.BUSY n) = 0 ∧ getF t (R.HIF_DMA_STA.ERR n) = 1 ∧ raised E.HOSTIF.DMA_ERR t ∧
      getJob t n = none ∧ t.mem = s.mem) ∧
    (q.fault = 0 → q.todo ≠ [] → exec (.dmaDone n) s = .next s)) ∧
  (∀ (k : StackNo) (c : ChanNo) (bt : Nat) (host : List Byte) (n : Fin 16) (q : HostJob) (r : Run) (s : State),
    s.tick.draining = false → chanFree s (chanKey k c) bt = true → nextRun s k c bt = none →
    hostFirst s k c bt host = some (n.val, q, r) → (q.tries = 0 → guestFirst s k c bt q.order = false) → hostShort s n q r = true →
    Answers (.runStart k c bt host) s fun t => getJob t n = some { q with fault := 1 } ∧ ChangesOnly [.hif] s t) ∧
  (∀ (f : Fin 4) (off n x : Nat) (v : Served) (s : State), regsServed s = true → (bar2Regions s f)[off / 2 ^ 28]? = some x →
    off % 2 ^ 28 + n ≤ 2 ^ 28 → 0 < n →
    let pa := x * 2 ^ 28 + off % 2 ^ 28
    (bar2May s (bar2Run s f false (pa, n)) v.bt = true → Clean v → Answers (.bar2Access f off n none [v]) s fun t =>
      t.out.bar2 = rdMems s pa n ∧ t.out.bar2Sta = 0 ∧ t.mem = s.mem ∧ t.cores = s.cores) ∧
    (∀ bs : List Byte, bs.length = n → bar2May s (bar2Run s f true (pa, n)) v.bt = true → Clean v →
      Answers (.bar2Access f off 0 (some bs) [v]) s fun t =>
        rdMems t pa n = bs ∧ (∀ a, (a < pa ∨ pa + n ≤ a) → rdMem t a = rdMem s a) ∧ t.out.bar2Sta = 0 ∧ t.cores = s.cores) ∧
    (bar2May s (bar2Run s f false (pa, n)) v.bt = false → exec (.bar2Access f off n none [v]) s = .next s) ∧
    (bar2May s (bar2Run s f false (pa, n)) v.bt = true → running s = false → 4 ≤ v.errs → v.ecc = .clean →
      Answers (.bar2Access f off n none [v]) s fun t =>
        t.out.bar2Sta = 2 ∧ t.out.bar2 = [] ∧ t.mem = s.mem ∧ raised (E.STACK.RETRY_LIMIT (x / 256)) t)) ∧
  (∀ (f : Fin 4) (off n : Nat) (sv : List Served) (s : State), regsServed s = true → 0 < n →
    (bar2Regions s f).length * 2 ^ 28 < off + n →
    Answers (.bar2Access f off n none sv) s fun t =>
      raised E.HOSTIF.BAR2_UR t ∧ t.out.bar2Sta = 1 ∧ t.out.bar2 = [] ∧ t.mem = s.mem) ∧
  (∀ (l : LinkInfo) (s : State), s.hearth.closed = true →
    (l.up = true → (l.width = 8 ∨ l.width = 16) → Answers (.linkChange l) s fun t =>
      getF t R.HIF_LINK_STA.UP = 1 ∧ getF t R.HIF_LINK_STA.WIDTH = l.width ∧ getF t R.HIF_LINK_STA.GEN = l.gen % 8 ∧
      (getF s R.HIF_LINK_STA.UP = 0 → raised E.HOSTIF.LINK_CHANGE t)) ∧
    ((l.up = false ∨ (l.width ≠ 8 ∧ l.width ≠ 16)) → Answers (.linkChange l) s fun t =>
      getF t R.HIF_LINK_STA.UP = 0 ∧ (getF s R.HIF_LINK_STA.UP = 1 → raised E.HOSTIF.LINK_CHANGE t)))

/-- R388, R389, Table 14.4: WIN_ADDR places the window, WIN_READ and WIN_WRITE act on the register it names and move
it on; a wrong PEC discards a write; STATE, WIN_STATUS and the Alert Response Address answer as the port's state
stands. The byte of the Alert Response Address is taken from SMBus (log 43). -/
def Obligations.ManagementPortAnswers : Prop :=
  (∀ s : State, regsServed s = true →
    (∀ bs : List Byte, Answers (.winAddr bs true) s fun t =>
      t.hif = { s.hif with win := leNat (bs.take 4) % 2 ^ 28 / 4 * 4 } ∧ t.out.smbNack = false ∧ t.out.smb = [] ∧
      ChangesOnly [.hif, .out] s t) ∧
    (∀ (i : Instr) (bs : List Byte), i ∈ [.winAddr bs false, .winWrite bs false] → Answers i s fun t =>
      t.hif.win = s.hif.win ∧ t.out.smbNack = true ∧ raised E.MGMT.SMB_PEC t ∧ RegsBut (evFlds E.MGMT.SMB_PEC) s t ∧
      t.mem = s.mem) ∧
    (winNames s s.hif.win = false → Answers .winRead s fun t =>
      t.out.smb = leBytes 4 0 ∧ t.hif.winNone = true ∧ t.hif.win = (s.hif.win + 4) % 2 ^ 28 / 4 * 4 ∧ ChangesOnly [.hif, .out] s t) ∧
    (∀ f ∈ mgmtFlds, winNames s (barOffset 0x42 0 f.off) = true → readOpen s 0x42 = true →
      smGet none s.latch (latchKey .smb 0x42 f.off) = none → s.hif.win = barOffset 0x42 0 f.off → Answers .winRead s fun t =>
      t.out.smb = leBytes 4 (regWord s 0x42 f.off) ∧ t.hif.winNone = false ∧ t.hif.win = (s.hif.win + 4) % 2 ^ 28 / 4 * 4 ∧
      t.regs = s.regs) ∧
    (∀ (bs : List Byte) (pg off : Nat), pg ∉ [0x00, 0x01, 0x02, 0x04, 0x05, 0x42] → assigned pg off = true → pageOpen s pg = true →
      s.hif.win = barOffset pg 0 off → Answers (.winWrite bs true) s fun t =>
        t.hif.winDrop = true ∧ t.hif.win = (s.hif.win + 4) % 2 ^ 28 / 4 * 4 ∧ t.out.smbNack = false ∧ ChangesOnly [.hif, .out] s t) ∧
    (∀ bs : List Byte, pageOpen s 0x42 = true → getF s (R.PG_CTL.EN 0x42) = 0 → s.hif.win = barOffset 0x42 0 0x40 →
      Answers (.winWrite bs true) s fun t =>
        getF t R.MGT_SMB_ADDR.ADDR = leNat (bs.take 4) % 2 ^ 7 ∧ t.hif.winDrop = false ∧ t.out.smbNack = false ∧
        t.hif.win = (s.hif.win + 4) % 2 ^ 28 / 4 * 4) ∧
    (Answers .state s fun t =>
      t.out.smb = [BitVec.ofNat 8 (topState s + (if alertLow s then 128 else 0))] ∧ t.out.smbNack = false ∧ ChangesOnly [.out] s t) ∧
    (Answers .winStatus s fun t =>
      t.out.smb = [BitVec.ofNat 8 ((if s.hif.winDrop then 1 else 0) + (if s.hif.winNone then 2 else 0))] ∧ ChangesOnly [.out] s t) ∧
    (alertLow s = true → Answers .alertResponse s fun t =>
      t.out.smb = [BitVec.ofNat 8 (2 * getF s R.MGT_SMB_ADDR.ADDR)] ∧ t.out.smbNack = false ∧ ChangesOnly [.out] s t) ∧
    (alertLow s = false → Answers .alertResponse s fun t => t.out.smbNack = true ∧ ChangesOnly [.out] s t)) ∧
  (∀ (i : Instr) (bs : List Byte) (pec : Bool) (s : State), regsServed s = false →
    i ∈ [.winAddr bs pec, .winWrite bs pec, .winRead, .state, .winStatus, .alertResponse] →
    Answers i s fun t => t.out.smbNack = true ∧ t.out.smb = [] ∧ ChangesOnly [.out] s t)
end

