-- ==== Sys2Proof/Laws/State.lean ====
section
/-! SUPPORT. What every update leaves unchanged: one lemma per part of the state and update. -/

namespace Sys2Proof.Machine

@[simp] theorem setF_pending (s : State) (f : Fld) (v : Nat) : (setF s f v).pending = s.pending := rfl
@[simp] theorem setF_freeCtr (s : State) (f : Fld) (v : Nat) : (setF s f v).freeCtr = s.freeCtr := rfl
@[simp] theorem setF_out (s : State) (f : Fld) (v : Nat) : (setF s f v).out = s.out := rfl
@[simp] theorem setF_fuse (s : State) (f : Fld) (v : Nat) : (setF s f v).fuse = s.fuse := rfl
@[simp] theorem setF_counter (s : State) (f : Fld) (v : Nat) : (setF s f v).counter = s.counter := rfl
@[simp] theorem setF_sync (s : State) (f : Fld) (v : Nat) : (setF s f v).sync = s.sync := rfl
@[simp] theorem setF_tick (s : State) (f : Fld) (v : Nat) : (setF s f v).tick = s.tick := rfl
@[simp] theorem setF_cores (s : State) (f : Fld) (v : Nat) : (setF s f v).cores = s.cores := rfl
@[simp] theorem setF_mesh (s : State) (f : Fld) (v : Nat) : (setF s f v).mesh = s.mesh := rfl
@[simp] theorem setF_transit (s : State) (f : Fld) (v : Nat) : (setF s f v).transit = s.transit := rfl
@[simp] theorem setF_mem (s : State) (f : Fld) (v : Nat) : (setF s f v).mem = s.mem := rfl
@[simp] theorem setF_flt (s : State) (f : Fld) (v : Nat) : (setF s f v).flt = s.flt := rfl
@[simp] theorem setF_hist (s : State) (f : Fld) (v : Nat) : (setF s f v).hist = s.hist := rfl
@[simp] theorem setF_ports (s : State) (f : Fld) (v : Nat) : (setF s f v).ports = s.ports := rfl
@[simp] theorem setF_hall (s : State) (f : Fld) (v : Nat) : (setF s f v).hall = s.hall := rfl
@[simp] theorem setF_refresh (s : State) (f : Fld) (v : Nat) : (setF s f v).refresh = s.refresh := rfl
@[simp] theorem setF_rowMaps (s : State) (f : Fld) (v : Nat) : (setF s f v).rowMaps = s.rowMaps := rfl
@[simp] theorem setF_secStop (s : State) (f : Fld) (v : Nat) : (setF s f v).secStop = s.secStop := rfl
@[simp] theorem setF_chans (s : State) (f : Fld) (v : Nat) : (setF s f v).chans = s.chans := rfl
@[simp] theorem setF_stks (s : State) (f : Fld) (v : Nat) : (setF s f v).stks = s.stks := rfl
@[simp] theorem setF_pans (s : State) (f : Fld) (v : Nat) : (setF s f v).pans = s.pans := rfl
@[simp] theorem setF_plans (s : State) (f : Fld) (v : Nat) : (setF s f v).plans = s.plans := rfl
@[simp] theorem setF_secs (s : State) (f : Fld) (v : Nat) : (setF s f v).secs = s.secs := rfl
@[simp] theorem setF_redirect (s : State) (f : Fld) (v : Nat) : (setF s f v).redirect = s.redirect := rfl
@[simp] theorem setF_reduce (s : State) (f : Fld) (v : Nat) : (setF s f v).reduce = s.reduce := rfl
@[simp] theorem setF_guest (s : State) (f : Fld) (v : Nat) : (setF s f v).guest = s.guest := rfl
@[simp] theorem setF_hearth (s : State) (f : Fld) (v : Nat) : (setF s f v).hearth = s.hearth := rfl
@[simp] theorem setF_sns (s : State) (f : Fld) (v : Nat) : (setF s f v).sns = s.sns := rfl
@[simp] theorem setF_attic (s : State) (f : Fld) (v : Nat) : (setF s f v).attic = s.attic := rfl
@[simp] theorem setF_bu (s : State) (f : Fld) (v : Nat) : (setF s f v).bu = s.bu := rfl
@[simp] theorem setF_hif (s : State) (f : Fld) (v : Nat) : (setF s f v).hif = s.hif := rfl
@[simp] theorem setF_latch (s : State) (f : Fld) (v : Nat) : (setF s f v).latch = s.latch := rfl

@[simp] theorem setB_pending (s : State) (f : Fld) (v : Bool) : (setB s f v).pending = s.pending := rfl
@[simp] theorem setB_freeCtr (s : State) (f : Fld) (v : Bool) : (setB s f v).freeCtr = s.freeCtr := rfl
@[simp] theorem setB_out (s : State) (f : Fld) (v : Bool) : (setB s f v).out = s.out := rfl
@[simp] theorem setB_fuse (s : State) (f : Fld) (v : Bool) : (setB s f v).fuse = s.fuse := rfl
@[simp] theorem setB_counter (s : State) (f : Fld) (v : Bool) : (setB s f v).counter = s.counter := rfl
@[simp] theorem setB_sync (s : State) (f : Fld) (v : Bool) : (setB s f v).sync = s.sync := rfl
@[simp] theorem setB_tick (s : State) (f : Fld) (v : Bool) : (setB s f v).tick = s.tick := rfl
@[simp] theorem setB_cores (s : State) (f : Fld) (v : Bool) : (setB s f v).cores = s.cores := rfl
@[simp] theorem setB_mesh (s : State) (f : Fld) (v : Bool) : (setB s f v).mesh = s.mesh := rfl
@[simp] theorem setB_transit (s : State) (f : Fld) (v : Bool) : (setB s f v).transit = s.transit := rfl
@[simp] theorem setB_mem (s : State) (f : Fld) (v : Bool) : (setB s f v).mem = s.mem := rfl
@[simp] theorem setB_flt (s : State) (f : Fld) (v : Bool) : (setB s f v).flt = s.flt := rfl
@[simp] theorem setB_hist (s : State) (f : Fld) (v : Bool) : (setB s f v).hist = s.hist := rfl
@[simp] theorem setB_ports (s : State) (f : Fld) (v : Bool) : (setB s f v).ports = s.ports := rfl
@[simp] theorem setB_hall (s : State) (f : Fld) (v : Bool) : (setB s f v).hall = s.hall := rfl
@[simp] theorem setB_refresh (s : State) (f : Fld) (v : Bool) : (setB s f v).refresh = s.refresh := rfl
@[simp] theorem setB_rowMaps (s : State) (f : Fld) (v : Bool) : (setB s f v).rowMaps = s.rowMaps := rfl
@[simp] theorem setB_secStop (s : State) (f : Fld) (v : Bool) : (setB s f v).secStop = s.secStop := rfl
@[simp] theorem setB_chans (s : State) (f : Fld) (v : Bool) : (setB s f v).chans = s.chans := rfl
@[simp] theorem setB_stks (s : State) (f : Fld) (v : Bool) : (setB s f v).stks = s.stks := rfl
@[simp] theorem setB_pans (s : State) (f : Fld) (v : Bool) : (setB s f v).pans = s.pans := rfl
@[simp] theorem setB_plans (s : State) (f : Fld) (v : Bool) : (setB s f v).plans = s.plans := rfl
@[simp] theorem setB_secs (s : State) (f : Fld) (v : Bool) : (setB s f v).secs = s.secs := rfl
@[simp] theorem setB_redirect (s : State) (f : Fld) (v : Bool) : (setB s f v).redirect = s.redirect := rfl
@[simp] theorem setB_reduce (s : State) (f : Fld) (v : Bool) : (setB s f v).reduce = s.reduce := rfl
@[simp] theorem setB_guest (s : State) (f : Fld) (v : Bool) : (setB s f v).guest = s.guest := rfl
@[simp] theorem setB_hearth (s : State) (f : Fld) (v : Bool) : (setB s f v).hearth = s.hearth := rfl
@[simp] theorem setB_sns (s : State) (f : Fld) (v : Bool) : (setB s f v).sns = s.sns := rfl
@[simp] theorem setB_attic (s : State) (f : Fld) (v : Bool) : (setB s f v).attic = s.attic := rfl
@[simp] theorem setB_bu (s : State) (f : Fld) (v : Bool) : (setB s f v).bu = s.bu := rfl
@[simp] theorem setB_hif (s : State) (f : Fld) (v : Bool) : (setB s f v).hif = s.hif := rfl
@[simp] theorem setB_latch (s : State) (f : Fld) (v : Bool) : (setB s f v).latch = s.latch := rfl

@[simp] theorem incSat_pending (s : State) (f : Fld) (n : Nat) : (incSat s f n).pending = s.pending := rfl
@[simp] theorem incSat_freeCtr (s : State) (f : Fld) (n : Nat) : (incSat s f n).freeCtr = s.freeCtr := rfl
@[simp] theorem incSat_out (s : State) (f : Fld) (n : Nat) : (incSat s f n).out = s.out := rfl
@[simp] theorem incSat_fuse (s : State) (f : Fld) (n : Nat) : (incSat s f n).fuse = s.fuse := rfl
@[simp] theorem incSat_counter (s : State) (f : Fld) (n : Nat) : (incSat s f n).counter = s.counter := rfl
@[simp] theorem incSat_sync (s : State) (f : Fld) (n : Nat) : (incSat s f n).sync = s.sync := rfl
@[simp] theorem incSat_tick (s : State) (f : Fld) (n : Nat) : (incSat s f n).tick = s.tick := rfl
@[simp] theorem incSat_cores (s : State) (f : Fld) (n : Nat) : (incSat s f n).cores = s.cores := rfl
@[simp] theorem incSat_mesh (s : State) (f : Fld) (n : Nat) : (incSat s f n).mesh = s.mesh := rfl
@[simp] theorem incSat_transit (s : State) (f : Fld) (n : Nat) : (incSat s f n).transit = s.transit := rfl
@[simp] theorem incSat_mem (s : State) (f : Fld) (n : Nat) : (incSat s f n).mem = s.mem := rfl
@[simp] theorem incSat_flt (s : State) (f : Fld) (n : Nat) : (incSat s f n).flt = s.flt := rfl
@[simp] theorem incSat_hist (s : State) (f : Fld) (n : Nat) : (incSat s f n).hist = s.hist := rfl
@[simp] theorem incSat_ports (s : State) (f : Fld) (n : Nat) : (incSat s f n).ports = s.ports := rfl
@[simp] theorem incSat_hall (s : State) (f : Fld) (n : Nat) : (incSat s f n).hall = s.hall := rfl
@[simp] theorem incSat_refresh (s : State) (f : Fld) (n : Nat) : (incSat s f n).refresh = s.refresh := rfl
@[simp] theorem incSat_rowMaps (s : State) (f : Fld) (n : Nat) : (incSat s f n).rowMaps = s.rowMaps := rfl
@[simp] theorem incSat_secStop (s : State) (f : Fld) (n : Nat) : (incSat s f n).secStop = s.secStop := rfl
@[simp] theorem incSat_chans (s : State) (f : Fld) (n : Nat) : (incSat s f n).chans = s.chans := rfl
@[simp] theorem incSat_stks (s : State) (f : Fld) (n : Nat) : (incSat s f n).stks = s.stks := rfl
@[simp] theorem incSat_pans (s : State) (f : Fld) (n : Nat) : (incSat s f n).pans = s.pans := rfl
@[simp] theorem incSat_plans (s : State) (f : Fld) (n : Nat) : (incSat s f n).plans = s.plans := rfl
@[simp] theorem incSat_secs (s : State) (f : Fld) (n : Nat) : (incSat s f n).secs = s.secs := rfl
@[simp] theorem incSat_redirect (s : State) (f : Fld) (n : Nat) : (incSat s f n).redirect = s.redirect := rfl
@[simp] theorem incSat_reduce (s : State) (f : Fld) (n : Nat) : (incSat s f n).reduce = s.reduce := rfl
@[simp] theorem incSat_guest (s : State) (f : Fld) (n : Nat) : (incSat s f n).guest = s.guest := rfl
@[simp] theorem incSat_hearth (s : State) (f : Fld) (n : Nat) : (incSat s f n).hearth = s.hearth := rfl
@[simp] theorem incSat_sns (s : State) (f : Fld) (n : Nat) : (incSat s f n).sns = s.sns := rfl
@[simp] theorem incSat_attic (s : State) (f : Fld) (n : Nat) : (incSat s f n).attic = s.attic := rfl
@[simp] theorem incSat_bu (s : State) (f : Fld) (n : Nat) : (incSat s f n).bu = s.bu := rfl
@[simp] theorem incSat_hif (s : State) (f : Fld) (n : Nat) : (incSat s f n).hif = s.hif := rfl
@[simp] theorem incSat_latch (s : State) (f : Fld) (n : Nat) : (incSat s f n).latch = s.latch := rfl

@[simp] theorem peakF_pending (s : State) (f : Fld) (n : Nat) : (peakF s f n).pending = s.pending := rfl
@[simp] theorem peakF_freeCtr (s : State) (f : Fld) (n : Nat) : (peakF s f n).freeCtr = s.freeCtr := rfl
@[simp] theorem peakF_out (s : State) (f : Fld) (n : Nat) : (peakF s f n).out = s.out := rfl
@[simp] theorem peakF_fuse (s : State) (f : Fld) (n : Nat) : (peakF s f n).fuse = s.fuse := rfl
@[simp] theorem peakF_counter (s : State) (f : Fld) (n : Nat) : (peakF s f n).counter = s.counter := rfl
@[simp] theorem peakF_sync (s : State) (f : Fld) (n : Nat) : (peakF s f n).sync = s.sync := rfl
@[simp] theorem peakF_tick (s : State) (f : Fld) (n : Nat) : (peakF s f n).tick = s.tick := rfl
@[simp] theorem peakF_cores (s : State) (f : Fld) (n : Nat) : (peakF s f n).cores = s.cores := rfl
@[simp] theorem peakF_mesh (s : State) (f : Fld) (n : Nat) : (peakF s f n).mesh = s.mesh := rfl
@[simp] theorem peakF_transit (s : State) (f : Fld) (n : Nat) : (peakF s f n).transit = s.transit := rfl
@[simp] theorem peakF_mem (s : State) (f : Fld) (n : Nat) : (peakF s f n).mem = s.mem := rfl
@[simp] theorem peakF_flt (s : State) (f : Fld) (n : Nat) : (peakF s f n).flt = s.flt := rfl
@[simp] theorem peakF_hist (s : State) (f : Fld) (n : Nat) : (peakF s f n).hist = s.hist := rfl
@[simp] theorem peakF_ports (s : State) (f : Fld) (n : Nat) : (peakF s f n).ports = s.ports := rfl
@[simp] theorem peakF_hall (s : State) (f : Fld) (n : Nat) : (peakF s f n).hall = s.hall := rfl
@[simp] theorem peakF_refresh (s : State) (f : Fld) (n : Nat) : (peakF s f n).refresh = s.refresh := rfl
@[simp] theorem peakF_rowMaps (s : State) (f : Fld) (n : Nat) : (peakF s f n).rowMaps = s.rowMaps := rfl
@[simp] theorem peakF_secStop (s : State) (f : Fld) (n : Nat) : (peakF s f n).secStop = s.secStop := rfl
@[simp] theorem peakF_chans (s : State) (f : Fld) (n : Nat) : (peakF s f n).chans = s.chans := rfl
@[simp] theorem peakF_stks (s : State) (f : Fld) (n : Nat) : (peakF s f n).stks = s.stks := rfl
@[simp] theorem peakF_pans (s : State) (f : Fld) (n : Nat) : (peakF s f n).pans = s.pans := rfl
@[simp] theorem peakF_plans (s : State) (f : Fld) (n : Nat) : (peakF s f n).plans = s.plans := rfl
@[simp] theorem peakF_secs (s : State) (f : Fld) (n : Nat) : (peakF s f n).secs = s.secs := rfl
@[simp] theorem peakF_redirect (s : State) (f : Fld) (n : Nat) : (peakF s f n).redirect = s.redirect := rfl
@[simp] theorem peakF_reduce (s : State) (f : Fld) (n : Nat) : (peakF s f n).reduce = s.reduce := rfl
@[simp] theorem peakF_guest (s : State) (f : Fld) (n : Nat) : (peakF s f n).guest = s.guest := rfl
@[simp] theorem peakF_hearth (s : State) (f : Fld) (n : Nat) : (peakF s f n).hearth = s.hearth := rfl
@[simp] theorem peakF_sns (s : State) (f : Fld) (n : Nat) : (peakF s f n).sns = s.sns := rfl
@[simp] theorem peakF_attic (s : State) (f : Fld) (n : Nat) : (peakF s f n).attic = s.attic := rfl
@[simp] theorem peakF_bu (s : State) (f : Fld) (n : Nat) : (peakF s f n).bu = s.bu := rfl
@[simp] theorem peakF_hif (s : State) (f : Fld) (n : Nat) : (peakF s f n).hif = s.hif := rfl
@[simp] theorem peakF_latch (s : State) (f : Fld) (n : Nat) : (peakF s f n).latch = s.latch := rfl

@[simp] theorem setFs_pending (s : State) (l : List (Fld × Nat)) : (setFs s l).pending = s.pending := by
  induction l generalizing s with
  | nil => rfl
  | cons e l ih => exact ih _
@[simp] theorem setFs_freeCtr (s : State) (l : List (Fld × Nat)) : (setFs s l).freeCtr = s.freeCtr := by
  induction l generalizing s with
  | nil => rfl
  | cons e l ih => exact ih _
@[simp] theorem setFs_out (s : State) (l : List (Fld × Nat)) : (setFs s l).out = s.out := by
  induction l generalizing s with
  | nil => rfl
  | cons e l ih => exact ih _
@[simp] theorem setFs_fuse (s : State) (l : List (Fld × Nat)) : (setFs s l).fuse = s.fuse := by
  induction l generalizing s with
  | nil => rfl
  | cons e l ih => exact ih _
@[simp] theorem setFs_counter (s : State) (l : List (Fld × Nat)) : (setFs s l).counter = s.counter := by
  induction l generalizing s with
  | nil => rfl
  | cons e l ih => exact ih _
@[simp] theorem setFs_sync (s : State) (l : List (Fld × Nat)) : (setFs s l).sync = s.sync := by
  induction l generalizing s with
  | nil => rfl
  | cons e l ih => exact ih _
@[simp] theorem setFs_tick (s : State) (l : List (Fld × Nat)) : (setFs s l).tick = s.tick := by
  induction l generalizing s with
  | nil => rfl
  | cons e l ih => exact ih _
@[simp] theorem setFs_cores (s : State) (l : List (Fld × Nat)) : (setFs s l).cores = s.cores := by
  induction l generalizing s with
  | nil => rfl
  | cons e l ih => exact ih _
@[simp] theorem setFs_mesh (s : State) (l : List (Fld × Nat)) : (setFs s l).mesh = s.mesh := by
  induction l generalizing s with
  | nil => rfl
  | cons e l ih => exact ih _
@[simp] theorem setFs_transit (s : State) (l : List (Fld × Nat)) : (setFs s l).transit = s.transit := by
  induction l generalizing s with
  | nil => rfl
  | cons e l ih => exact ih _
@[simp] theorem setFs_mem (s : State) (l : List (Fld × Nat)) : (setFs s l).mem = s.mem := by
  induction l generalizing s with
  | nil => rfl
  | cons e l ih => exact ih _
@[simp] theorem setFs_flt (s : State) (l : List (Fld × Nat)) : (setFs s l).flt = s.flt := by
  induction l generalizing s with
  | nil => rfl
  | cons e l ih => exact ih _
@[simp] theorem setFs_hist (s : State) (l : List (Fld × Nat)) : (setFs s l).hist = s.hist := by
  induction l generalizing s with
  | nil => rfl
  | cons e l ih => exact ih _
@[simp] theorem setFs_ports (s : State) (l : List (Fld × Nat)) : (setFs s l).ports = s.ports := by
  induction l generalizing s with
  | nil => rfl
  | cons e l ih => exact ih _
@[simp] theorem setFs_hall (s : State) (l : List (Fld × Nat)) : (setFs s l).hall = s.hall := by
  induction l generalizing s with
  | nil => rfl
  | cons e l ih => exact ih _
@[simp] theorem setFs_refresh (s : State) (l : List (Fld × Nat)) : (setFs s l).refresh = s.refresh := by
  induction l generalizing s with
  | nil => rfl
  | cons e l ih => exact ih _
@[simp] theorem setFs_rowMaps (s : State) (l : List (Fld × Nat)) : (setFs s l).rowMaps = s.rowMaps := by
  induction l generalizing s with
  | nil => rfl
  | cons e l ih => exact ih _
@[simp] theorem setFs_secStop (s : State) (l : List (Fld × Nat)) : (setFs s l).secStop = s.secStop := by
  induction l generalizing s with
  | nil => rfl
  | cons e l ih => exact ih _
@[simp] theorem setFs_chans (s : State) (l : List (Fld × Nat)) : (setFs s l).chans = s.chans := by
  induction l generalizing s with
  | nil => rfl
  | cons e l ih => exact ih _
@[simp] theorem setFs_stks (s : State) (l : List (Fld × Nat)) : (setFs s l).stks = s.stks := by
  induction l generalizing s with
  | nil => rfl
  | cons e l ih => exact ih _
@[simp] theorem setFs_pans (s : State) (l : List (Fld × Nat)) : (setFs s l).pans = s.pans := by
  induction l generalizing s with
  | nil => rfl
  | cons e l ih => exact ih _
@[simp] theorem setFs_plans (s : State) (l : List (Fld × Nat)) : (setFs s l).plans = s.plans := by
  induction l generalizing s with
  | nil => rfl
  | cons e l ih => exact ih _
@[simp] theorem setFs_secs (s : State) (l : List (Fld × Nat)) : (setFs s l).secs = s.secs := by
  induction l generalizing s with
  | nil => rfl
  | cons e l ih => exact ih _
@[simp] theorem setFs_redirect (s : State) (l : List (Fld × Nat)) : (setFs s l).redirect = s.redirect := by
  induction l generalizing s with
  | nil => rfl
  | cons e l ih => exact ih _
@[simp] theorem setFs_reduce (s : State) (l : List (Fld × Nat)) : (setFs s l).reduce = s.reduce := by
  induction l generalizing s with
  | nil => rfl
  | cons e l ih => exact ih _
@[simp] theorem setFs_guest (s : State) (l : List (Fld × Nat)) : (setFs s l).guest = s.guest := by
  induction l generalizing s with
  | nil => rfl
  | cons e l ih => exact ih _
@[simp] theorem setFs_hearth (s : State) (l : List (Fld × Nat)) : (setFs s l).hearth = s.hearth := by
  induction l generalizing s with
  | nil => rfl
  | cons e l ih => exact ih _
@[simp] theorem setFs_sns (s : State) (l : List (Fld × Nat)) : (setFs s l).sns = s.sns := by
  induction l generalizing s with
  | nil => rfl
  | cons e l ih => exact ih _
@[simp] theorem setFs_attic (s : State) (l : List (Fld × Nat)) : (setFs s l).attic = s.attic := by
  induction l generalizing s with
  | nil => rfl
  | cons e l ih => exact ih _
@[simp] theorem setFs_bu (s : State) (l : List (Fld × Nat)) : (setFs s l).bu = s.bu := by
  induction l generalizing s with
  | nil => rfl
  | cons e l ih => exact ih _
@[simp] theorem setFs_hif (s : State) (l : List (Fld × Nat)) : (setFs s l).hif = s.hif := by
  induction l generalizing s with
  | nil => rfl
  | cons e l ih => exact ih _
@[simp] theorem setFs_latch (s : State) (l : List (Fld × Nat)) : (setFs s l).latch = s.latch := by
  induction l generalizing s with
  | nil => rfl
  | cons e l ih => exact ih _

@[simp] theorem signal_pending (pg b f : Nat) (s : State) : (signal pg b f s).pending = s.pending := by unfold signal; split <;> rfl
@[simp] theorem signal_freeCtr (pg b f : Nat) (s : State) : (signal pg b f s).freeCtr = s.freeCtr := by unfold signal; split <;> rfl
@[simp] theorem signal_fuse (pg b f : Nat) (s : State) : (signal pg b f s).fuse = s.fuse := by unfold signal; split <;> rfl
@[simp] theorem signal_counter (pg b f : Nat) (s : State) : (signal pg b f s).counter = s.counter := by unfold signal; split <;> rfl
@[simp] theorem signal_sync (pg b f : Nat) (s : State) : (signal pg b f s).sync = s.sync := by unfold signal; split <;> rfl
@[simp] theorem signal_tick (pg b f : Nat) (s : State) : (signal pg b f s).tick = s.tick := by unfold signal; split <;> rfl
@[simp] theorem signal_cores (pg b f : Nat) (s : State) : (signal pg b f s).cores = s.cores := by unfold signal; split <;> rfl
@[simp] theorem signal_mesh (pg b f : Nat) (s : State) : (signal pg b f s).mesh = s.mesh := by unfold signal; split <;> rfl
@[simp] theorem signal_transit (pg b f : Nat) (s : State) : (signal pg b f s).transit = s.transit := by unfold signal; split <;> rfl
@[simp] theorem signal_mem (pg b f : Nat) (s : State) : (signal pg b f s).mem = s.mem := by unfold signal; split <;> rfl
@[simp] theorem signal_flt (pg b f : Nat) (s : State) : (signal pg b f s).flt = s.flt := by unfold signal; split <;> rfl
@[simp] theorem signal_hist (pg b f : Nat) (s : State) : (signal pg b f s).hist = s.hist := by unfold signal; split <;> rfl
@[simp] theorem signal_ports (pg b f : Nat) (s : State) : (signal pg b f s).ports = s.ports := by unfold signal; split <;> rfl
@[simp] theorem signal_hall (pg b f : Nat) (s : State) : (signal pg b f s).hall = s.hall := by unfold signal; split <;> rfl
@[simp] theorem signal_refresh (pg b f : Nat) (s : State) : (signal pg b f s).refresh = s.refresh := by unfold signal; split <;> rfl
@[simp] theorem signal_rowMaps (pg b f : Nat) (s : State) : (signal pg b f s).rowMaps = s.rowMaps := by unfold signal; split <;> rfl
@[simp] theorem signal_secStop (pg b f : Nat) (s : State) : (signal pg b f s).secStop = s.secStop := by unfold signal; split <;> rfl
@[simp] theorem signal_chans (pg b f : Nat) (s : State) : (signal pg b f s).chans = s.chans := by unfold signal; split <;> rfl
@[simp] theorem signal_stks (pg b f : Nat) (s : State) : (signal pg b f s).stks = s.stks := by unfold signal; split <;> rfl
@[simp] theorem signal_pans (pg b f : Nat) (s : State) : (signal pg b f s).pans = s.pans := by unfold signal; split <;> rfl
@[simp] theorem signal_plans (pg b f : Nat) (s : State) : (signal pg b f s).plans = s.plans := by unfold signal; split <;> rfl
@[simp] theorem signal_secs (pg b f : Nat) (s : State) : (signal pg b f s).secs = s.secs := by unfold signal; split <;> rfl
@[simp] theorem signal_redirect (pg b f : Nat) (s : State) : (signal pg b f s).redirect = s.redirect := by unfold signal; split <;> rfl
@[simp] theorem signal_reduce (pg b f : Nat) (s : State) : (signal pg b f s).reduce = s.reduce := by unfold signal; split <;> rfl
@[simp] theorem signal_guest (pg b f : Nat) (s : State) : (signal pg b f s).guest = s.guest := by unfold signal; split <;> rfl
@[simp] theorem signal_hearth (pg b f : Nat) (s : State) : (signal pg b f s).hearth = s.hearth := by unfold signal; split <;> rfl
@[simp] theorem signal_sns (pg b f : Nat) (s : State) : (signal pg b f s).sns = s.sns := by unfold signal; split <;> rfl
@[simp] theorem signal_attic (pg b f : Nat) (s : State) : (signal pg b f s).attic = s.attic := by unfold signal; split <;> rfl
@[simp] theorem signal_bu (pg b f : Nat) (s : State) : (signal pg b f s).bu = s.bu := by unfold signal; split <;> rfl
@[simp] theorem signal_hif (pg b f : Nat) (s : State) : (signal pg b f s).hif = s.hif := by unfold signal; split <;> rfl
@[simp] theorem signal_regs (pg b f : Nat) (s : State) : (signal pg b f s).regs = s.regs := by unfold signal; split <;> rfl
@[simp] theorem signal_latch (pg b f : Nat) (s : State) : (signal pg b f s).latch = s.latch := by unfold signal; split <;> rfl

@[simp] theorem raise_pending (e : Ev) (s : State) : (raise e s).pending = s.pending := by unfold raise; dsimp only; rw [signal_pending]; split <;> rfl
@[simp] theorem raise_freeCtr (e : Ev) (s : State) : (raise e s).freeCtr = s.freeCtr := by unfold raise; dsimp only; rw [signal_freeCtr]; split <;> rfl
@[simp] theorem raise_fuse (e : Ev) (s : State) : (raise e s).fuse = s.fuse := by unfold raise; dsimp only; rw [signal_fuse]; split <;> rfl
@[simp] theorem raise_counter (e : Ev) (s : State) : (raise e s).counter = s.counter := by unfold raise; dsimp only; rw [signal_counter]; split <;> rfl
@[simp] theorem raise_sync (e : Ev) (s : State) : (raise e s).sync = s.sync := by unfold raise; dsimp only; rw [signal_sync]; split <;> rfl
@[simp] theorem raise_tick (e : Ev) (s : State) : (raise e s).tick = s.tick := by unfold raise; dsimp only; rw [signal_tick]; split <;> rfl
@[simp] theorem raise_cores (e : Ev) (s : State) : (raise e s).cores = s.cores := by unfold raise; dsimp only; rw [signal_cores]; split <;> rfl
@[simp] theorem raise_mesh (e : Ev) (s : State) : (raise e s).mesh = s.mesh := by unfold raise; dsimp only; rw [signal_mesh]; split <;> rfl
@[simp] theorem raise_transit (e : Ev) (s : State) : (raise e s).transit = s.transit := by unfold raise; dsimp only; rw [signal_transit]; split <;> rfl
@[simp] theorem raise_mem (e : Ev) (s : State) : (raise e s).mem = s.mem := by unfold raise; dsimp only; rw [signal_mem]; split <;> rfl
@[simp] theorem raise_flt (e : Ev) (s : State) : (raise e s).flt = s.flt := by unfold raise; dsimp only; rw [signal_flt]; split <;> rfl
@[simp] theorem raise_hist (e : Ev) (s : State) : (raise e s).hist = s.hist := by unfold raise; dsimp only; rw [signal_hist]; split <;> rfl
@[simp] theorem raise_ports (e : Ev) (s : State) : (raise e s).ports = s.ports := by unfold raise; dsimp only; rw [signal_ports]; split <;> rfl
@[simp] theorem raise_hall (e : Ev) (s : State) : (raise e s).hall = s.hall := by unfold raise; dsimp only; rw [signal_hall]; split <;> rfl
@[simp] theorem raise_refresh (e : Ev) (s : State) : (raise e s).refresh = s.refresh := by unfold raise; dsimp only; rw [signal_refresh]; split <;> rfl
@[simp] theorem raise_rowMaps (e : Ev) (s : State) : (raise e s).rowMaps = s.rowMaps := by unfold raise; dsimp only; rw [signal_rowMaps]; split <;> rfl
@[simp] theorem raise_secStop (e : Ev) (s : State) : (raise e s).secStop = s.secStop := by unfold raise; dsimp only; rw [signal_secStop]; split <;> rfl
@[simp] theorem raise_chans (e : Ev) (s : State) : (raise e s).chans = s.chans := by unfold raise; dsimp only; rw [signal_chans]; split <;> rfl
@[simp] theorem raise_stks (e : Ev) (s : State) : (raise e s).stks = s.stks := by unfold raise; dsimp only; rw [signal_stks]; split <;> rfl
@[simp] theorem raise_pans (e : Ev) (s : State) : (raise e s).pans = s.pans := by unfold raise; dsimp only; rw [signal_pans]; split <;> rfl
@[simp] theorem raise_plans (e : Ev) (s : State) : (raise e s).plans = s.plans := by unfold raise; dsimp only; rw [signal_plans]; split <;> rfl
@[simp] theorem raise_secs (e : Ev) (s : State) : (raise e s).secs = s.secs := by unfold raise; dsimp only; rw [signal_secs]; split <;> rfl
@[simp] theorem raise_redirect (e : Ev) (s : State) : (raise e s).redirect = s.redirect := by unfold raise; dsimp only; rw [signal_redirect]; split <;> rfl
@[simp] theorem raise_reduce (e : Ev) (s : State) : (raise e s).reduce = s.reduce := by unfold raise; dsimp only; rw [signal_reduce]; split <;> rfl
@[simp] theorem raise_guest (e : Ev) (s : State) : (raise e s).guest = s.guest := by unfold raise; dsimp only; rw [signal_guest]; split <;> rfl
@[simp] theorem raise_hearth (e : Ev) (s : State) : (raise e s).hearth = s.hearth := by unfold raise; dsimp only; rw [signal_hearth]; split <;> rfl
@[simp] theorem raise_sns (e : Ev) (s : State) : (raise e s).sns = s.sns := by unfold raise; dsimp only; rw [signal_sns]; split <;> rfl
@[simp] theorem raise_attic (e : Ev) (s : State) : (raise e s).attic = s.attic := by unfold raise; dsimp only; rw [signal_attic]; split <;> rfl
@[simp] theorem raise_bu (e : Ev) (s : State) : (raise e s).bu = s.bu := by unfold raise; dsimp only; rw [signal_bu]; split <;> rfl
@[simp] theorem raise_latch (e : Ev) (s : State) : (raise e s).latch = s.latch := by unfold raise; dsimp only; rw [signal_latch]; split <;> rfl

@[simp] theorem raiseIf_pending (c : Bool) (e : Ev) (s : State) : (raiseIf c e s).pending = s.pending := by unfold raiseIf; split <;> simp
@[simp] theorem raiseIf_freeCtr (c : Bool) (e : Ev) (s : State) : (raiseIf c e s).freeCtr = s.freeCtr := by unfold raiseIf; split <;> simp
@[simp] theorem raiseIf_fuse (c : Bool) (e : Ev) (s : State) : (raiseIf c e s).fuse = s.fuse := by unfold raiseIf; split <;> simp
@[simp] theorem raiseIf_counter (c : Bool) (e : Ev) (s : State) : (raiseIf c e s).counter = s.counter := by unfold raiseIf; split <;> simp
@[simp] theorem raiseIf_sync (c : Bool) (e : Ev) (s : State) : (raiseIf c e s).sync = s.sync := by unfold raiseIf; split <;> simp
@[simp] theorem raiseIf_tick (c : Bool) (e : Ev) (s : State) : (raiseIf c e s).tick = s.tick := by unfold raiseIf; split <;> simp
@[simp] theorem raiseIf_cores (c : Bool) (e : Ev) (s : State) : (raiseIf c e s).cores = s.cores := by unfold raiseIf; split <;> simp
@[simp] theorem raiseIf_mesh (c : Bool) (e : Ev) (s : State) : (raiseIf c e s).mesh = s.mesh := by unfold raiseIf; split <;> simp
@[simp] theorem raiseIf_transit (c : Bool) (e : Ev) (s : State) : (raiseIf c e s).transit = s.transit := by unfold raiseIf; split <;> simp
@[simp] theorem raiseIf_mem (c : Bool) (e : Ev) (s : State) : (raiseIf c e s).mem = s.mem := by unfold raiseIf; split <;> simp
@[simp] theorem raiseIf_flt (c : Bool) (e : Ev) (s : State) : (raiseIf c e s).flt = s.flt := by unfold raiseIf; split <;> simp
@[simp] theorem raiseIf_hist (c : Bool) (e : Ev) (s : State) : (raiseIf c e s).hist = s.hist := by unfold raiseIf; split <;> simp
@[simp] theorem raiseIf_ports (c : Bool) (e : Ev) (s : State) : (raiseIf c e s).ports = s.ports := by unfold raiseIf; split <;> simp
@[simp] theorem raiseIf_hall (c : Bool) (e : Ev) (s : State) : (raiseIf c e s).hall = s.hall := by unfold raiseIf; split <;> simp
@[simp] theorem raiseIf_refresh (c : Bool) (e : Ev) (s : State) : (raiseIf c e s).refresh = s.refresh := by unfold raiseIf; split <;> simp
@[simp] theorem raiseIf_rowMaps (c : Bool) (e : Ev) (s : State) : (raiseIf c e s).rowMaps = s.rowMaps := by unfold raiseIf; split <;> simp
@[simp] theorem raiseIf_secStop (c : Bool) (e : Ev) (s : State) : (raiseIf c e s).secStop = s.secStop := by unfold raiseIf; split <;> simp
@[simp] theorem raiseIf_chans (c : Bool) (e : Ev) (s : State) : (raiseIf c e s).chans = s.chans := by unfold raiseIf; split <;> simp
@[simp] theorem raiseIf_stks (c : Bool) (e : Ev) (s : State) : (raiseIf c e s).stks = s.stks := by unfold raiseIf; split <;> simp
@[simp] theorem raiseIf_pans (c : Bool) (e : Ev) (s : State) : (raiseIf c e s).pans = s.pans := by unfold raiseIf; split <;> simp
@[simp] theorem raiseIf_plans (c : Bool) (e : Ev) (s : State) : (raiseIf c e s).plans = s.plans := by unfold raiseIf; split <;> simp
@[simp] theorem raiseIf_secs (c : Bool) (e : Ev) (s : State) : (raiseIf c e s).secs = s.secs := by unfold raiseIf; split <;> simp
@[simp] theorem raiseIf_redirect (c : Bool) (e : Ev) (s : State) : (raiseIf c e s).redirect = s.redirect := by unfold raiseIf; split <;> simp
@[simp] theorem raiseIf_reduce (c : Bool) (e : Ev) (s : State) : (raiseIf c e s).reduce = s.reduce := by unfold raiseIf; split <;> simp
@[simp] theorem raiseIf_guest (c : Bool) (e : Ev) (s : State) : (raiseIf c e s).guest = s.guest := by unfold raiseIf; split <;> simp
@[simp] theorem raiseIf_hearth (c : Bool) (e : Ev) (s : State) : (raiseIf c e s).hearth = s.hearth := by unfold raiseIf; split <;> simp
@[simp] theorem raiseIf_sns (c : Bool) (e : Ev) (s : State) : (raiseIf c e s).sns = s.sns := by unfold raiseIf; split <;> simp
@[simp] theorem raiseIf_attic (c : Bool) (e : Ev) (s : State) : (raiseIf c e s).attic = s.attic := by unfold raiseIf; split <;> simp
@[simp] theorem raiseIf_bu (c : Bool) (e : Ev) (s : State) : (raiseIf c e s).bu = s.bu := by unfold raiseIf; split <;> simp
@[simp] theorem raiseIf_latch (c : Bool) (e : Ev) (s : State) : (raiseIf c e s).latch = s.latch := by unfold raiseIf; split <;> simp

@[simp] theorem updCore_pending (s : State) (c : Nat) (f : Core → Core) : (updCore s c f).pending = s.pending := rfl
@[simp] theorem updCore_freeCtr (s : State) (c : Nat) (f : Core → Core) : (updCore s c f).freeCtr = s.freeCtr := rfl
@[simp] theorem updCore_out (s : State) (c : Nat) (f : Core → Core) : (updCore s c f).out = s.out := rfl
@[simp] theorem updCore_fuse (s : State) (c : Nat) (f : Core → Core) : (updCore s c f).fuse = s.fuse := rfl
@[simp] theorem updCore_counter (s : State) (c : Nat) (f : Core → Core) : (updCore s c f).counter = s.counter := rfl
@[simp] theorem updCore_sync (s : State) (c : Nat) (f : Core → Core) : (updCore s c f).sync = s.sync := rfl
@[simp] theorem updCore_tick (s : State) (c : Nat) (f : Core → Core) : (updCore s c f).tick = s.tick := rfl
@[simp] theorem updCore_mesh (s : State) (c : Nat) (f : Core → Core) : (updCore s c f).mesh = s.mesh := rfl
@[simp] theorem updCore_transit (s : State) (c : Nat) (f : Core → Core) : (updCore s c f).transit = s.transit := rfl
@[simp] theorem updCore_mem (s : State) (c : Nat) (f : Core → Core) : (updCore s c f).mem = s.mem := rfl
@[simp] theorem updCore_flt (s : State) (c : Nat) (f : Core → Core) : (updCore s c f).flt = s.flt := rfl
@[simp] theorem updCore_hist (s : State) (c : Nat) (f : Core → Core) : (updCore s c f).hist = s.hist := rfl
@[simp] theorem updCore_ports (s : State) (c : Nat) (f : Core → Core) : (updCore s c f).ports = s.ports := rfl
@[simp] theorem updCore_hall (s : State) (c : Nat) (f : Core → Core) : (updCore s c f).hall = s.hall := rfl
@[simp] theorem updCore_refresh (s : State) (c : Nat) (f : Core → Core) : (updCore s c f).refresh = s.refresh := rfl
@[simp] theorem updCore_rowMaps (s : State) (c : Nat) (f : Core → Core) : (updCore s c f).rowMaps = s.rowMaps := rfl
@[simp] theorem updCore_secStop (s : State) (c : Nat) (f : Core → Core) : (updCore s c f).secStop = s.secStop := rfl
@[simp] theorem updCore_chans (s : State) (c : Nat) (f : Core → Core) : (updCore s c f).chans = s.chans := rfl
@[simp] theorem updCore_stks (s : State) (c : Nat) (f : Core → Core) : (updCore s c f).stks = s.stks := rfl
@[simp] theorem updCore_pans (s : State) (c : Nat) (f : Core → Core) : (updCore s c f).pans = s.pans := rfl
@[simp] theorem updCore_plans (s : State) (c : Nat) (f : Core → Core) : (updCore s c f).plans = s.plans := rfl
@[simp] theorem updCore_secs (s : State) (c : Nat) (f : Core → Core) : (updCore s c f).secs = s.secs := rfl
@[simp] theorem updCore_redirect (s : State) (c : Nat) (f : Core → Core) : (updCore s c f).redirect = s.redirect := rfl
@[simp] theorem updCore_reduce (s : State) (c : Nat) (f : Core → Core) : (updCore s c f).reduce = s.reduce := rfl
@[simp] theorem updCore_guest (s : State) (c : Nat) (f : Core → Core) : (updCore s c f).guest = s.guest := rfl
@[simp] theorem updCore_hearth (s : State) (c : Nat) (f : Core → Core) : (updCore s c f).hearth = s.hearth := rfl
@[simp] theorem updCore_sns (s : State) (c : Nat) (f : Core → Core) : (updCore s c f).sns = s.sns := rfl
@[simp] theorem updCore_attic (s : State) (c : Nat) (f : Core → Core) : (updCore s c f).attic = s.attic := rfl
@[simp] theorem updCore_bu (s : State) (c : Nat) (f : Core → Core) : (updCore s c f).bu = s.bu := rfl
@[simp] theorem updCore_hif (s : State) (c : Nat) (f : Core → Core) : (updCore s c f).hif = s.hif := rfl
@[simp] theorem updCore_regs (s : State) (c : Nat) (f : Core → Core) : (updCore s c f).regs = s.regs := rfl
@[simp] theorem updCore_latch (s : State) (c : Nat) (f : Core → Core) : (updCore s c f).latch = s.latch := rfl

@[simp] theorem mapCores_pending (f : Nat → Core → Core) (s : State) : (mapCores f s).pending = s.pending := rfl
@[simp] theorem mapCores_freeCtr (f : Nat → Core → Core) (s : State) : (mapCores f s).freeCtr = s.freeCtr := rfl
@[simp] theorem mapCores_out (f : Nat → Core → Core) (s : State) : (mapCores f s).out = s.out := rfl
@[simp] theorem mapCores_fuse (f : Nat → Core → Core) (s : State) : (mapCores f s).fuse = s.fuse := rfl
@[simp] theorem mapCores_counter (f : Nat → Core → Core) (s : State) : (mapCores f s).counter = s.counter := rfl
@[simp] theorem mapCores_sync (f : Nat → Core → Core) (s : State) : (mapCores f s).sync = s.sync := rfl
@[simp] theorem mapCores_tick (f : Nat → Core → Core) (s : State) : (mapCores f s).tick = s.tick := rfl
@[simp] theorem mapCores_mesh (f : Nat → Core → Core) (s : State) : (mapCores f s).mesh = s.mesh := rfl
@[simp] theorem mapCores_transit (f : Nat → Core → Core) (s : State) : (mapCores f s).transit = s.transit := rfl
@[simp] theorem mapCores_mem (f : Nat → Core → Core) (s : State) : (mapCores f s).mem = s.mem := rfl
@[simp] theorem mapCores_flt (f : Nat → Core → Core) (s : State) : (mapCores f s).flt = s.flt := rfl
@[simp] theorem mapCores_hist (f : Nat → Core → Core) (s : State) : (mapCores f s).hist = s.hist := rfl
@[simp] theorem mapCores_ports (f : Nat → Core → Core) (s : State) : (mapCores f s).ports = s.ports := rfl
@[simp] theorem mapCores_hall (f : Nat → Core → Core) (s : State) : (mapCores f s).hall = s.hall := rfl
@[simp] theorem mapCores_refresh (f : Nat → Core → Core) (s : State) : (mapCores f s).refresh = s.refresh := rfl
@[simp] theorem mapCores_rowMaps (f : Nat → Core → Core) (s : State) : (mapCores f s).rowMaps = s.rowMaps := rfl
@[simp] theorem mapCores_secStop (f : Nat → Core → Core) (s : State) : (mapCores f s).secStop = s.secStop := rfl
@[simp] theorem mapCores_chans (f : Nat → Core → Core) (s : State) : (mapCores f s).chans = s.chans := rfl
@[simp] theorem mapCores_stks (f : Nat → Core → Core) (s : State) : (mapCores f s).stks = s.stks := rfl
@[simp] theorem mapCores_pans (f : Nat → Core → Core) (s : State) : (mapCores f s).pans = s.pans := rfl
@[simp] theorem mapCores_plans (f : Nat → Core → Core) (s : State) : (mapCores f s).plans = s.plans := rfl
@[simp] theorem mapCores_secs (f : Nat → Core → Core) (s : State) : (mapCores f s).secs = s.secs := rfl
@[simp] theorem mapCores_redirect (f : Nat → Core → Core) (s : State) : (mapCores f s).redirect = s.redirect := rfl
@[simp] theorem mapCores_reduce (f : Nat → Core → Core) (s : State) : (mapCores f s).reduce = s.reduce := rfl
@[simp] theorem mapCores_guest (f : Nat → Core → Core) (s : State) : (mapCores f s).guest = s.guest := rfl
@[simp] theorem mapCores_hearth (f : Nat → Core → Core) (s : State) : (mapCores f s).hearth = s.hearth := rfl
@[simp] theorem mapCores_sns (f : Nat → Core → Core) (s : State) : (mapCores f s).sns = s.sns := rfl
@[simp] theorem mapCores_attic (f : Nat → Core → Core) (s : State) : (mapCores f s).attic = s.attic := rfl
@[simp] theorem mapCores_bu (f : Nat → Core → Core) (s : State) : (mapCores f s).bu = s.bu := rfl
@[simp] theorem mapCores_hif (f : Nat → Core → Core) (s : State) : (mapCores f s).hif = s.hif := rfl
@[simp] theorem mapCores_regs (f : Nat → Core → Core) (s : State) : (mapCores f s).regs = s.regs := rfl
@[simp] theorem mapCores_latch (f : Nat → Core → Core) (s : State) : (mapCores f s).latch = s.latch := rfl

@[simp] theorem updPort_pending (s : State) (p : Nat) (f : Port → Port) : (updPort s p f).pending = s.pending := rfl
@[simp] theorem updPort_freeCtr (s : State) (p : Nat) (f : Port → Port) : (updPort s p f).freeCtr = s.freeCtr := rfl
@[simp] theorem updPort_out (s : State) (p : Nat) (f : Port → Port) : (updPort s p f).out = s.out := rfl
@[simp] theorem updPort_fuse (s : State) (p : Nat) (f : Port → Port) : (updPort s p f).fuse = s.fuse := rfl
@[simp] theorem updPort_counter (s : State) (p : Nat) (f : Port → Port) : (updPort s p f).counter = s.counter := rfl
@[simp] theorem updPort_sync (s : State) (p : Nat) (f : Port → Port) : (updPort s p f).sync = s.sync := rfl
@[simp] theorem updPort_tick (s : State) (p : Nat) (f : Port → Port) : (updPort s p f).tick = s.tick := rfl
@[simp] theorem updPort_cores (s : State) (p : Nat) (f : Port → Port) : (updPort s p f).cores = s.cores := rfl
@[simp] theorem updPort_mesh (s : State) (p : Nat) (f : Port → Port) : (updPort s p f).mesh = s.mesh := rfl
@[simp] theorem updPort_transit (s : State) (p : Nat) (f : Port → Port) : (updPort s p f).transit = s.transit := rfl
@[simp] theorem updPort_mem (s : State) (p : Nat) (f : Port → Port) : (updPort s p f).mem = s.mem := rfl
@[simp] theorem updPort_flt (s : State) (p : Nat) (f : Port → Port) : (updPort s p f).flt = s.flt := rfl
@[simp] theorem updPort_hist (s : State) (p : Nat) (f : Port → Port) : (updPort s p f).hist = s.hist := rfl
@[simp] theorem updPort_hall (s : State) (p : Nat) (f : Port → Port) : (updPort s p f).hall = s.hall := rfl
@[simp] theorem updPort_refresh (s : State) (p : Nat) (f : Port → Port) : (updPort s p f).refresh = s.refresh := rfl
@[simp] theorem updPort_rowMaps (s : State) (p : Nat) (f : Port → Port) : (updPort s p f).rowMaps = s.rowMaps := rfl
@[simp] theorem updPort_secStop (s : State) (p : Nat) (f : Port → Port) : (updPort s p f).secStop = s.secStop := rfl
@[simp] theorem updPort_chans (s : State) (p : Nat) (f : Port → Port) : (updPort s p f).chans = s.chans := rfl
@[simp] theorem updPort_stks (s : State) (p : Nat) (f : Port → Port) : (updPort s p f).stks = s.stks := rfl
@[simp] theorem updPort_pans (s : State) (p : Nat) (f : Port → Port) : (updPort s p f).pans = s.pans := rfl
@[simp] theorem updPort_plans (s : State) (p : Nat) (f : Port → Port) : (updPort s p f).plans = s.plans := rfl
@[simp] theorem updPort_secs (s : State) (p : Nat) (f : Port → Port) : (updPort s p f).secs = s.secs := rfl
@[simp] theorem updPort_redirect (s : State) (p : Nat) (f : Port → Port) : (updPort s p f).redirect = s.redirect := rfl
@[simp] theorem updPort_reduce (s : State) (p : Nat) (f : Port → Port) : (updPort s p f).reduce = s.reduce := rfl
@[simp] theorem updPort_guest (s : State) (p : Nat) (f : Port → Port) : (updPort s p f).guest = s.guest := rfl
@[simp] theorem updPort_hearth (s : State) (p : Nat) (f : Port → Port) : (updPort s p f).hearth = s.hearth := rfl
@[simp] theorem updPort_sns (s : State) (p : Nat) (f : Port → Port) : (updPort s p f).sns = s.sns := rfl
@[simp] theorem updPort_attic (s : State) (p : Nat) (f : Port → Port) : (updPort s p f).attic = s.attic := rfl
@[simp] theorem updPort_bu (s : State) (p : Nat) (f : Port → Port) : (updPort s p f).bu = s.bu := rfl
@[simp] theorem updPort_hif (s : State) (p : Nat) (f : Port → Port) : (updPort s p f).hif = s.hif := rfl
@[simp] theorem updPort_regs (s : State) (p : Nat) (f : Port → Port) : (updPort s p f).regs = s.regs := rfl
@[simp] theorem updPort_latch (s : State) (p : Nat) (f : Port → Port) : (updPort s p f).latch = s.latch := rfl

@[simp] theorem queueSync_pending (p : Nat) (f : Frame) (s : State) : (queueSync p f s).pending = s.pending := rfl
@[simp] theorem queueSync_freeCtr (p : Nat) (f : Frame) (s : State) : (queueSync p f s).freeCtr = s.freeCtr := rfl
@[simp] theorem queueSync_out (p : Nat) (f : Frame) (s : State) : (queueSync p f s).out = s.out := rfl
@[simp] theorem queueSync_fuse (p : Nat) (f : Frame) (s : State) : (queueSync p f s).fuse = s.fuse := rfl
@[simp] theorem queueSync_counter (p : Nat) (f : Frame) (s : State) : (queueSync p f s).counter = s.counter := rfl
@[simp] theorem queueSync_sync (p : Nat) (f : Frame) (s : State) : (queueSync p f s).sync = s.sync := rfl
@[simp] theorem queueSync_tick (p : Nat) (f : Frame) (s : State) : (queueSync p f s).tick = s.tick := rfl
@[simp] theorem queueSync_cores (p : Nat) (f : Frame) (s : State) : (queueSync p f s).cores = s.cores := rfl
@[simp] theorem queueSync_mesh (p : Nat) (f : Frame) (s : State) : (queueSync p f s).mesh = s.mesh := rfl
@[simp] theorem queueSync_transit (p : Nat) (f : Frame) (s : State) : (queueSync p f s).transit = s.transit := rfl
@[simp] theorem queueSync_mem (p : Nat) (f : Frame) (s : State) : (queueSync p f s).mem = s.mem := rfl
@[simp] theorem queueSync_flt (p : Nat) (f : Frame) (s : State) : (queueSync p f s).flt = s.flt := rfl
@[simp] theorem queueSync_hist (p : Nat) (f : Frame) (s : State) : (queueSync p f s).hist = s.hist := rfl
@[simp] theorem queueSync_hall (p : Nat) (f : Frame) (s : State) : (queueSync p f s).hall = s.hall := rfl
@[simp] theorem queueSync_refresh (p : Nat) (f : Frame) (s : State) : (queueSync p f s).refresh = s.refresh := rfl
@[simp] theorem queueSync_rowMaps (p : Nat) (f : Frame) (s : State) : (queueSync p f s).rowMaps = s.rowMaps := rfl
@[simp] theorem queueSync_secStop (p : Nat) (f : Frame) (s : State) : (queueSync p f s).secStop = s.secStop := rfl
@[simp] theorem queueSync_chans (p : Nat) (f : Frame) (s : State) : (queueSync p f s).chans = s.chans := rfl
@[simp] theorem queueSync_stks (p : Nat) (f : Frame) (s : State) : (queueSync p f s).stks = s.stks := rfl
@[simp] theorem queueSync_pans (p : Nat) (f : Frame) (s : State) : (queueSync p f s).pans = s.pans := rfl
@[simp] theorem queueSync_plans (p : Nat) (f : Frame) (s : State) : (queueSync p f s).plans = s.plans := rfl
@[simp] theorem queueSync_secs (p : Nat) (f : Frame) (s : State) : (queueSync p f s).secs = s.secs := rfl
@[simp] theorem queueSync_redirect (p : Nat) (f : Frame) (s : State) : (queueSync p f s).redirect = s.redirect := rfl
@[simp] theorem queueSync_reduce (p : Nat) (f : Frame) (s : State) : (queueSync p f s).reduce = s.reduce := rfl
@[simp] theorem queueSync_guest (p : Nat) (f : Frame) (s : State) : (queueSync p f s).guest = s.guest := rfl
@[simp] theorem queueSync_hearth (p : Nat) (f : Frame) (s : State) : (queueSync p f s).hearth = s.hearth := rfl
@[simp] theorem queueSync_sns (p : Nat) (f : Frame) (s : State) : (queueSync p f s).sns = s.sns := rfl
@[simp] theorem queueSync_attic (p : Nat) (f : Frame) (s : State) : (queueSync p f s).attic = s.attic := rfl
@[simp] theorem queueSync_bu (p : Nat) (f : Frame) (s : State) : (queueSync p f s).bu = s.bu := rfl
@[simp] theorem queueSync_hif (p : Nat) (f : Frame) (s : State) : (queueSync p f s).hif = s.hif := rfl
@[simp] theorem queueSync_regs (p : Nat) (f : Frame) (s : State) : (queueSync p f s).regs = s.regs := rfl
@[simp] theorem queueSync_latch (p : Nat) (f : Frame) (s : State) : (queueSync p f s).latch = s.latch := rfl

@[simp] theorem queueCtrl_pending (p : Nat) (f : Frame) (s : State) : (queueCtrl p f s).pending = s.pending := rfl
@[simp] theorem queueCtrl_freeCtr (p : Nat) (f : Frame) (s : State) : (queueCtrl p f s).freeCtr = s.freeCtr := rfl
@[simp] theorem queueCtrl_out (p : Nat) (f : Frame) (s : State) : (queueCtrl p f s).out = s.out := rfl
@[simp] theorem queueCtrl_fuse (p : Nat) (f : Frame) (s : State) : (queueCtrl p f s).fuse = s.fuse := rfl
@[simp] theorem queueCtrl_counter (p : Nat) (f : Frame) (s : State) : (queueCtrl p f s).counter = s.counter := rfl
@[simp] theorem queueCtrl_sync (p : Nat) (f : Frame) (s : State) : (queueCtrl p f s).sync = s.sync := rfl
@[simp] theorem queueCtrl_tick (p : Nat) (f : Frame) (s : State) : (queueCtrl p f s).tick = s.tick := rfl
@[simp] theorem queueCtrl_cores (p : Nat) (f : Frame) (s : State) : (queueCtrl p f s).cores = s.cores := rfl
@[simp] theorem queueCtrl_mesh (p : Nat) (f : Frame) (s : State) : (queueCtrl p f s).mesh = s.mesh := rfl
@[simp] theorem queueCtrl_transit (p : Nat) (f : Frame) (s : State) : (queueCtrl p f s).transit = s.transit := rfl
@[simp] theorem queueCtrl_mem (p : Nat) (f : Frame) (s : State) : (queueCtrl p f s).mem = s.mem := rfl
@[simp] theorem queueCtrl_flt (p : Nat) (f : Frame) (s : State) : (queueCtrl p f s).flt = s.flt := rfl
@[simp] theorem queueCtrl_hist (p : Nat) (f : Frame) (s : State) : (queueCtrl p f s).hist = s.hist := rfl
@[simp] theorem queueCtrl_hall (p : Nat) (f : Frame) (s : State) : (queueCtrl p f s).hall = s.hall := rfl
@[simp] theorem queueCtrl_refresh (p : Nat) (f : Frame) (s : State) : (queueCtrl p f s).refresh = s.refresh := rfl
@[simp] theorem queueCtrl_rowMaps (p : Nat) (f : Frame) (s : State) : (queueCtrl p f s).rowMaps = s.rowMaps := rfl
@[simp] theorem queueCtrl_secStop (p : Nat) (f : Frame) (s : State) : (queueCtrl p f s).secStop = s.secStop := rfl
@[simp] theorem queueCtrl_chans (p : Nat) (f : Frame) (s : State) : (queueCtrl p f s).chans = s.chans := rfl
@[simp] theorem queueCtrl_stks (p : Nat) (f : Frame) (s : State) : (queueCtrl p f s).stks = s.stks := rfl
@[simp] theorem queueCtrl_pans (p : Nat) (f : Frame) (s : State) : (queueCtrl p f s).pans = s.pans := rfl
@[simp] theorem queueCtrl_plans (p : Nat) (f : Frame) (s : State) : (queueCtrl p f s).plans = s.plans := rfl
@[simp] theorem queueCtrl_secs (p : Nat) (f : Frame) (s : State) : (queueCtrl p f s).secs = s.secs := rfl
@[simp] theorem queueCtrl_redirect (p : Nat) (f : Frame) (s : State) : (queueCtrl p f s).redirect = s.redirect := rfl
@[simp] theorem queueCtrl_reduce (p : Nat) (f : Frame) (s : State) : (queueCtrl p f s).reduce = s.reduce := rfl
@[simp] theorem queueCtrl_guest (p : Nat) (f : Frame) (s : State) : (queueCtrl p f s).guest = s.guest := rfl
@[simp] theorem queueCtrl_hearth (p : Nat) (f : Frame) (s : State) : (queueCtrl p f s).hearth = s.hearth := rfl
@[simp] theorem queueCtrl_sns (p : Nat) (f : Frame) (s : State) : (queueCtrl p f s).sns = s.sns := rfl
@[simp] theorem queueCtrl_attic (p : Nat) (f : Frame) (s : State) : (queueCtrl p f s).attic = s.attic := rfl
@[simp] theorem queueCtrl_bu (p : Nat) (f : Frame) (s : State) : (queueCtrl p f s).bu = s.bu := rfl
@[simp] theorem queueCtrl_hif (p : Nat) (f : Frame) (s : State) : (queueCtrl p f s).hif = s.hif := rfl
@[simp] theorem queueCtrl_regs (p : Nat) (f : Frame) (s : State) : (queueCtrl p f s).regs = s.regs := rfl
@[simp] theorem queueCtrl_latch (p : Nat) (f : Frame) (s : State) : (queueCtrl p f s).latch = s.latch := rfl

@[simp] theorem updChan_pending (s : State) (c : Nat) (f : Chan → Chan) : (updChan s c f).pending = s.pending := rfl
@[simp] theorem updChan_freeCtr (s : State) (c : Nat) (f : Chan → Chan) : (updChan s c f).freeCtr = s.freeCtr := rfl
@[simp] theorem updChan_out (s : State) (c : Nat) (f : Chan → Chan) : (updChan s c f).out = s.out := rfl
@[simp] theorem updChan_fuse (s : State) (c : Nat) (f : Chan → Chan) : (updChan s c f).fuse = s.fuse := rfl
@[simp] theorem updChan_counter (s : State) (c : Nat) (f : Chan → Chan) : (updChan s c f).counter = s.counter := rfl
@[simp] theorem updChan_sync (s : State) (c : Nat) (f : Chan → Chan) : (updChan s c f).sync = s.sync := rfl
@[simp] theorem updChan_tick (s : State) (c : Nat) (f : Chan → Chan) : (updChan s c f).tick = s.tick := rfl
@[simp] theorem updChan_cores (s : State) (c : Nat) (f : Chan → Chan) : (updChan s c f).cores = s.cores := rfl
@[simp] theorem updChan_mesh (s : State) (c : Nat) (f : Chan → Chan) : (updChan s c f).mesh = s.mesh := rfl
@[simp] theorem updChan_transit (s : State) (c : Nat) (f : Chan → Chan) : (updChan s c f).transit = s.transit := rfl
@[simp] theorem updChan_mem (s : State) (c : Nat) (f : Chan → Chan) : (updChan s c f).mem = s.mem := rfl
@[simp] theorem updChan_flt (s : State) (c : Nat) (f : Chan → Chan) : (updChan s c f).flt = s.flt := rfl
@[simp] theorem updChan_hist (s : State) (c : Nat) (f : Chan → Chan) : (updChan s c f).hist = s.hist := rfl
@[simp] theorem updChan_ports (s : State) (c : Nat) (f : Chan → Chan) : (updChan s c f).ports = s.ports := rfl
@[simp] theorem updChan_hall (s : State) (c : Nat) (f : Chan → Chan) : (updChan s c f).hall = s.hall := rfl
@[simp] theorem updChan_refresh (s : State) (c : Nat) (f : Chan → Chan) : (updChan s c f).refresh = s.refresh := rfl
@[simp] theorem updChan_rowMaps (s : State) (c : Nat) (f : Chan → Chan) : (updChan s c f).rowMaps = s.rowMaps := rfl
@[simp] theorem updChan_secStop (s : State) (c : Nat) (f : Chan → Chan) : (updChan s c f).secStop = s.secStop := rfl
@[simp] theorem updChan_stks (s : State) (c : Nat) (f : Chan → Chan) : (updChan s c f).stks = s.stks := rfl
@[simp] theorem updChan_pans (s : State) (c : Nat) (f : Chan → Chan) : (updChan s c f).pans = s.pans := rfl
@[simp] theorem updChan_plans (s : State) (c : Nat) (f : Chan → Chan) : (updChan s c f).plans = s.plans := rfl
@[simp] theorem updChan_secs (s : State) (c : Nat) (f : Chan → Chan) : (updChan s c f).secs = s.secs := rfl
@[simp] theorem updChan_redirect (s : State) (c : Nat) (f : Chan → Chan) : (updChan s c f).redirect = s.redirect := rfl
@[simp] theorem updChan_reduce (s : State) (c : Nat) (f : Chan → Chan) : (updChan s c f).reduce = s.reduce := rfl
@[simp] theorem updChan_guest (s : State) (c : Nat) (f : Chan → Chan) : (updChan s c f).guest = s.guest := rfl
@[simp] theorem updChan_hearth (s : State) (c : Nat) (f : Chan → Chan) : (updChan s c f).hearth = s.hearth := rfl
@[simp] theorem updChan_sns (s : State) (c : Nat) (f : Chan → Chan) : (updChan s c f).sns = s.sns := rfl
@[simp] theorem updChan_attic (s : State) (c : Nat) (f : Chan → Chan) : (updChan s c f).attic = s.attic := rfl
@[simp] theorem updChan_bu (s : State) (c : Nat) (f : Chan → Chan) : (updChan s c f).bu = s.bu := rfl
@[simp] theorem updChan_hif (s : State) (c : Nat) (f : Chan → Chan) : (updChan s c f).hif = s.hif := rfl
@[simp] theorem updChan_regs (s : State) (c : Nat) (f : Chan → Chan) : (updChan s c f).regs = s.regs := rfl
@[simp] theorem updChan_latch (s : State) (c : Nat) (f : Chan → Chan) : (updChan s c f).latch = s.latch := rfl

@[simp] theorem mapChans_pending (f : Chan → Chan) (s : State) : (mapChans f s).pending = s.pending := rfl
@[simp] theorem mapChans_freeCtr (f : Chan → Chan) (s : State) : (mapChans f s).freeCtr = s.freeCtr := rfl
@[simp] theorem mapChans_out (f : Chan → Chan) (s : State) : (mapChans f s).out = s.out := rfl
@[simp] theorem mapChans_fuse (f : Chan → Chan) (s : State) : (mapChans f s).fuse = s.fuse := rfl
@[simp] theorem mapChans_counter (f : Chan → Chan) (s : State) : (mapChans f s).counter = s.counter := rfl
@[simp] theorem mapChans_sync (f : Chan → Chan) (s : State) : (mapChans f s).sync = s.sync := rfl
@[simp] theorem mapChans_tick (f : Chan → Chan) (s : State) : (mapChans f s).tick = s.tick := rfl
@[simp] theorem mapChans_cores (f : Chan → Chan) (s : State) : (mapChans f s).cores = s.cores := rfl
@[simp] theorem mapChans_mesh (f : Chan → Chan) (s : State) : (mapChans f s).mesh = s.mesh := rfl
@[simp] theorem mapChans_transit (f : Chan → Chan) (s : State) : (mapChans f s).transit = s.transit := rfl
@[simp] theorem mapChans_mem (f : Chan → Chan) (s : State) : (mapChans f s).mem = s.mem := rfl
@[simp] theorem mapChans_flt (f : Chan → Chan) (s : State) : (mapChans f s).flt = s.flt := rfl
@[simp] theorem mapChans_hist (f : Chan → Chan) (s : State) : (mapChans f s).hist = s.hist := rfl
@[simp] theorem mapChans_ports (f : Chan → Chan) (s : State) : (mapChans f s).ports = s.ports := rfl
@[simp] theorem mapChans_hall (f : Chan → Chan) (s : State) : (mapChans f s).hall = s.hall := rfl
@[simp] theorem mapChans_refresh (f : Chan → Chan) (s : State) : (mapChans f s).refresh = s.refresh := rfl
@[simp] theorem mapChans_rowMaps (f : Chan → Chan) (s : State) : (mapChans f s).rowMaps = s.rowMaps := rfl
@[simp] theorem mapChans_secStop (f : Chan → Chan) (s : State) : (mapChans f s).secStop = s.secStop := rfl
@[simp] theorem mapChans_stks (f : Chan → Chan) (s : State) : (mapChans f s).stks = s.stks := rfl
@[simp] theorem mapChans_pans (f : Chan → Chan) (s : State) : (mapChans f s).pans = s.pans := rfl
@[simp] theorem mapChans_plans (f : Chan → Chan) (s : State) : (mapChans f s).plans = s.plans := rfl
@[simp] theorem mapChans_secs (f : Chan → Chan) (s : State) : (mapChans f s).secs = s.secs := rfl
@[simp] theorem mapChans_redirect (f : Chan → Chan) (s : State) : (mapChans f s).redirect = s.redirect := rfl
@[simp] theorem mapChans_reduce (f : Chan → Chan) (s : State) : (mapChans f s).reduce = s.reduce := rfl
@[simp] theorem mapChans_guest (f : Chan → Chan) (s : State) : (mapChans f s).guest = s.guest := rfl
@[simp] theorem mapChans_hearth (f : Chan → Chan) (s : State) : (mapChans f s).hearth = s.hearth := rfl
@[simp] theorem mapChans_sns (f : Chan → Chan) (s : State) : (mapChans f s).sns = s.sns := rfl
@[simp] theorem mapChans_attic (f : Chan → Chan) (s : State) : (mapChans f s).attic = s.attic := rfl
@[simp] theorem mapChans_bu (f : Chan → Chan) (s : State) : (mapChans f s).bu = s.bu := rfl
@[simp] theorem mapChans_hif (f : Chan → Chan) (s : State) : (mapChans f s).hif = s.hif := rfl
@[simp] theorem mapChans_regs (f : Chan → Chan) (s : State) : (mapChans f s).regs = s.regs := rfl
@[simp] theorem mapChans_latch (f : Chan → Chan) (s : State) : (mapChans f s).latch = s.latch := rfl

@[simp] theorem updStk_pending (s : State) (k : Nat) (f : Stack → Stack) : (updStk s k f).pending = s.pending := rfl
@[simp] theorem updStk_freeCtr (s : State) (k : Nat) (f : Stack → Stack) : (updStk s k f).freeCtr = s.freeCtr := rfl
@[simp] theorem updStk_out (s : State) (k : Nat) (f : Stack → Stack) : (updStk s k f).out = s.out := rfl
@[simp] theorem updStk_fuse (s : State) (k : Nat) (f : Stack → Stack) : (updStk s k f).fuse = s.fuse := rfl
@[simp] theorem updStk_counter (s : State) (k : Nat) (f : Stack → Stack) : (updStk s k f).counter = s.counter := rfl
@[simp] theorem updStk_sync (s : State) (k : Nat) (f : Stack → Stack) : (updStk s k f).sync = s.sync := rfl
@[simp] theorem updStk_tick (s : State) (k : Nat) (f : Stack → Stack) : (updStk s k f).tick = s.tick := rfl
@[simp] theorem updStk_cores (s : State) (k : Nat) (f : Stack → Stack) : (updStk s k f).cores = s.cores := rfl
@[simp] theorem updStk_mesh (s : State) (k : Nat) (f : Stack → Stack) : (updStk s k f).mesh = s.mesh := rfl
@[simp] theorem updStk_transit (s : State) (k : Nat) (f : Stack → Stack) : (updStk s k f).transit = s.transit := rfl
@[simp] theorem updStk_mem (s : State) (k : Nat) (f : Stack → Stack) : (updStk s k f).mem = s.mem := rfl
@[simp] theorem updStk_flt (s : State) (k : Nat) (f : Stack → Stack) : (updStk s k f).flt = s.flt := rfl
@[simp] theorem updStk_hist (s : State) (k : Nat) (f : Stack → Stack) : (updStk s k f).hist = s.hist := rfl
@[simp] theorem updStk_ports (s : State) (k : Nat) (f : Stack → Stack) : (updStk s k f).ports = s.ports := rfl
@[simp] theorem updStk_hall (s : State) (k : Nat) (f : Stack → Stack) : (updStk s k f).hall = s.hall := rfl
@[simp] theorem updStk_refresh (s : State) (k : Nat) (f : Stack → Stack) : (updStk s k f).refresh = s.refresh := rfl
@[simp] theorem updStk_rowMaps (s : State) (k : Nat) (f : Stack → Stack) : (updStk s k f).rowMaps = s.rowMaps := rfl
@[simp] theorem updStk_secStop (s : State) (k : Nat) (f : Stack → Stack) : (updStk s k f).secStop = s.secStop := rfl
@[simp] theorem updStk_chans (s : State) (k : Nat) (f : Stack → Stack) : (updStk s k f).chans = s.chans := rfl
@[simp] theorem updStk_pans (s : State) (k : Nat) (f : Stack → Stack) : (updStk s k f).pans = s.pans := rfl
@[simp] theorem updStk_plans (s : State) (k : Nat) (f : Stack → Stack) : (updStk s k f).plans = s.plans := rfl
@[simp] theorem updStk_secs (s : State) (k : Nat) (f : Stack → Stack) : (updStk s k f).secs = s.secs := rfl
@[simp] theorem updStk_redirect (s : State) (k : Nat) (f : Stack → Stack) : (updStk s k f).redirect = s.redirect := rfl
@[simp] theorem updStk_reduce (s : State) (k : Nat) (f : Stack → Stack) : (updStk s k f).reduce = s.reduce := rfl
@[simp] theorem updStk_guest (s : State) (k : Nat) (f : Stack → Stack) : (updStk s k f).guest = s.guest := rfl
@[simp] theorem updStk_hearth (s : State) (k : Nat) (f : Stack → Stack) : (updStk s k f).hearth = s.hearth := rfl
@[simp] theorem updStk_sns (s : State) (k : Nat) (f : Stack → Stack) : (updStk s k f).sns = s.sns := rfl
@[simp] theorem updStk_attic (s : State) (k : Nat) (f : Stack → Stack) : (updStk s k f).attic = s.attic := rfl
@[simp] theorem updStk_bu (s : State) (k : Nat) (f : Stack → Stack) : (updStk s k f).bu = s.bu := rfl
@[simp] theorem updStk_hif (s : State) (k : Nat) (f : Stack → Stack) : (updStk s k f).hif = s.hif := rfl
@[simp] theorem updStk_regs (s : State) (k : Nat) (f : Stack → Stack) : (updStk s k f).regs = s.regs := rfl
@[simp] theorem updStk_latch (s : State) (k : Nat) (f : Stack → Stack) : (updStk s k f).latch = s.latch := rfl

@[simp] theorem updPan_pending (s : State) (k : Nat) (f : Pan → Pan) : (updPan s k f).pending = s.pending := rfl
@[simp] theorem updPan_freeCtr (s : State) (k : Nat) (f : Pan → Pan) : (updPan s k f).freeCtr = s.freeCtr := rfl
@[simp] theorem updPan_out (s : State) (k : Nat) (f : Pan → Pan) : (updPan s k f).out = s.out := rfl
@[simp] theorem updPan_fuse (s : State) (k : Nat) (f : Pan → Pan) : (updPan s k f).fuse = s.fuse := rfl
@[simp] theorem updPan_counter (s : State) (k : Nat) (f : Pan → Pan) : (updPan s k f).counter = s.counter := rfl
@[simp] theorem updPan_sync (s : State) (k : Nat) (f : Pan → Pan) : (updPan s k f).sync = s.sync := rfl
@[simp] theorem updPan_tick (s : State) (k : Nat) (f : Pan → Pan) : (updPan s k f).tick = s.tick := rfl
@[simp] theorem updPan_cores (s : State) (k : Nat) (f : Pan → Pan) : (updPan s k f).cores = s.cores := rfl
@[simp] theorem updPan_mesh (s : State) (k : Nat) (f : Pan → Pan) : (updPan s k f).mesh = s.mesh := rfl
@[simp] theorem updPan_transit (s : State) (k : Nat) (f : Pan → Pan) : (updPan s k f).transit = s.transit := rfl
@[simp] theorem updPan_mem (s : State) (k : Nat) (f : Pan → Pan) : (updPan s k f).mem = s.mem := rfl
@[simp] theorem updPan_flt (s : State) (k : Nat) (f : Pan → Pan) : (updPan s k f).flt = s.flt := rfl
@[simp] theorem updPan_hist (s : State) (k : Nat) (f : Pan → Pan) : (updPan s k f).hist = s.hist := rfl
@[simp] theorem updPan_ports (s : State) (k : Nat) (f : Pan → Pan) : (updPan s k f).ports = s.ports := rfl
@[simp] theorem updPan_hall (s : State) (k : Nat) (f : Pan → Pan) : (updPan s k f).hall = s.hall := rfl
@[simp] theorem updPan_refresh (s : State) (k : Nat) (f : Pan → Pan) : (updPan s k f).refresh = s.refresh := rfl
@[simp] theorem updPan_rowMaps (s : State) (k : Nat) (f : Pan → Pan) : (updPan s k f).rowMaps = s.rowMaps := rfl
@[simp] theorem updPan_secStop (s : State) (k : Nat) (f : Pan → Pan) : (updPan s k f).secStop = s.secStop := rfl
@[simp] theorem updPan_chans (s : State) (k : Nat) (f : Pan → Pan) : (updPan s k f).chans = s.chans := rfl
@[simp] theorem updPan_stks (s : State) (k : Nat) (f : Pan → Pan) : (updPan s k f).stks = s.stks := rfl
@[simp] theorem updPan_plans (s : State) (k : Nat) (f : Pan → Pan) : (updPan s k f).plans = s.plans := rfl
@[simp] theorem updPan_secs (s : State) (k : Nat) (f : Pan → Pan) : (updPan s k f).secs = s.secs := rfl
@[simp] theorem updPan_redirect (s : State) (k : Nat) (f : Pan → Pan) : (updPan s k f).redirect = s.redirect := rfl
@[simp] theorem updPan_reduce (s : State) (k : Nat) (f : Pan → Pan) : (updPan s k f).reduce = s.reduce := rfl
@[simp] theorem updPan_guest (s : State) (k : Nat) (f : Pan → Pan) : (updPan s k f).guest = s.guest := rfl
@[simp] theorem updPan_hearth (s : State) (k : Nat) (f : Pan → Pan) : (updPan s k f).hearth = s.hearth := rfl
@[simp] theorem updPan_sns (s : State) (k : Nat) (f : Pan → Pan) : (updPan s k f).sns = s.sns := rfl
@[simp] theorem updPan_attic (s : State) (k : Nat) (f : Pan → Pan) : (updPan s k f).attic = s.attic := rfl
@[simp] theorem updPan_bu (s : State) (k : Nat) (f : Pan → Pan) : (updPan s k f).bu = s.bu := rfl
@[simp] theorem updPan_hif (s : State) (k : Nat) (f : Pan → Pan) : (updPan s k f).hif = s.hif := rfl
@[simp] theorem updPan_regs (s : State) (k : Nat) (f : Pan → Pan) : (updPan s k f).regs = s.regs := rfl
@[simp] theorem updPan_latch (s : State) (k : Nat) (f : Pan → Pan) : (updPan s k f).latch = s.latch := rfl

@[simp] theorem wrMems_pending (s : State) (a : Nat) (bs : List Byte) : (wrMems s a bs).pending = s.pending := rfl
@[simp] theorem wrMems_freeCtr (s : State) (a : Nat) (bs : List Byte) : (wrMems s a bs).freeCtr = s.freeCtr := rfl
@[simp] theorem wrMems_out (s : State) (a : Nat) (bs : List Byte) : (wrMems s a bs).out = s.out := rfl
@[simp] theorem wrMems_fuse (s : State) (a : Nat) (bs : List Byte) : (wrMems s a bs).fuse = s.fuse := rfl
@[simp] theorem wrMems_counter (s : State) (a : Nat) (bs : List Byte) : (wrMems s a bs).counter = s.counter := rfl
@[simp] theorem wrMems_sync (s : State) (a : Nat) (bs : List Byte) : (wrMems s a bs).sync = s.sync := rfl
@[simp] theorem wrMems_tick (s : State) (a : Nat) (bs : List Byte) : (wrMems s a bs).tick = s.tick := rfl
@[simp] theorem wrMems_cores (s : State) (a : Nat) (bs : List Byte) : (wrMems s a bs).cores = s.cores := rfl
@[simp] theorem wrMems_mesh (s : State) (a : Nat) (bs : List Byte) : (wrMems s a bs).mesh = s.mesh := rfl
@[simp] theorem wrMems_transit (s : State) (a : Nat) (bs : List Byte) : (wrMems s a bs).transit = s.transit := rfl
@[simp] theorem wrMems_flt (s : State) (a : Nat) (bs : List Byte) : (wrMems s a bs).flt = s.flt := rfl
@[simp] theorem wrMems_hist (s : State) (a : Nat) (bs : List Byte) : (wrMems s a bs).hist = s.hist := rfl
@[simp] theorem wrMems_ports (s : State) (a : Nat) (bs : List Byte) : (wrMems s a bs).ports = s.ports := rfl
@[simp] theorem wrMems_hall (s : State) (a : Nat) (bs : List Byte) : (wrMems s a bs).hall = s.hall := rfl
@[simp] theorem wrMems_refresh (s : State) (a : Nat) (bs : List Byte) : (wrMems s a bs).refresh = s.refresh := rfl
@[simp] theorem wrMems_rowMaps (s : State) (a : Nat) (bs : List Byte) : (wrMems s a bs).rowMaps = s.rowMaps := rfl
@[simp] theorem wrMems_secStop (s : State) (a : Nat) (bs : List Byte) : (wrMems s a bs).secStop = s.secStop := rfl
@[simp] theorem wrMems_chans (s : State) (a : Nat) (bs : List Byte) : (wrMems s a bs).chans = s.chans := rfl
@[simp] theorem wrMems_stks (s : State) (a : Nat) (bs : List Byte) : (wrMems s a bs).stks = s.stks := rfl
@[simp] theorem wrMems_pans (s : State) (a : Nat) (bs : List Byte) : (wrMems s a bs).pans = s.pans := rfl
@[simp] theorem wrMems_plans (s : State) (a : Nat) (bs : List Byte) : (wrMems s a bs).plans = s.plans := rfl
@[simp] theorem wrMems_secs (s : State) (a : Nat) (bs : List Byte) : (wrMems s a bs).secs = s.secs := rfl
@[simp] theorem wrMems_redirect (s : State) (a : Nat) (bs : List Byte) : (wrMems s a bs).redirect = s.redirect := rfl
@[simp] theorem wrMems_reduce (s : State) (a : Nat) (bs : List Byte) : (wrMems s a bs).reduce = s.reduce := rfl
@[simp] theorem wrMems_guest (s : State) (a : Nat) (bs : List Byte) : (wrMems s a bs).guest = s.guest := rfl
@[simp] theorem wrMems_hearth (s : State) (a : Nat) (bs : List Byte) : (wrMems s a bs).hearth = s.hearth := rfl
@[simp] theorem wrMems_sns (s : State) (a : Nat) (bs : List Byte) : (wrMems s a bs).sns = s.sns := rfl
@[simp] theorem wrMems_attic (s : State) (a : Nat) (bs : List Byte) : (wrMems s a bs).attic = s.attic := rfl
@[simp] theorem wrMems_bu (s : State) (a : Nat) (bs : List Byte) : (wrMems s a bs).bu = s.bu := rfl
@[simp] theorem wrMems_hif (s : State) (a : Nat) (bs : List Byte) : (wrMems s a bs).hif = s.hif := rfl
@[simp] theorem wrMems_regs (s : State) (a : Nat) (bs : List Byte) : (wrMems s a bs).regs = s.regs := rfl
@[simp] theorem wrMems_latch (s : State) (a : Nat) (bs : List Byte) : (wrMems s a bs).latch = s.latch := rfl

@[simp] theorem onGuest_pending (f : Guest → Guest) (s : State) : (onGuest f s).pending = s.pending := rfl
@[simp] theorem onGuest_freeCtr (f : Guest → Guest) (s : State) : (onGuest f s).freeCtr = s.freeCtr := rfl
@[simp] theorem onGuest_out (f : Guest → Guest) (s : State) : (onGuest f s).out = s.out := rfl
@[simp] theorem onGuest_fuse (f : Guest → Guest) (s : State) : (onGuest f s).fuse = s.fuse := rfl
@[simp] theorem onGuest_counter (f : Guest → Guest) (s : State) : (onGuest f s).counter = s.counter := rfl
@[simp] theorem onGuest_sync (f : Guest → Guest) (s : State) : (onGuest f s).sync = s.sync := rfl
@[simp] theorem onGuest_tick (f : Guest → Guest) (s : State) : (onGuest f s).tick = s.tick := rfl
@[simp] theorem onGuest_cores (f : Guest → Guest) (s : State) : (onGuest f s).cores = s.cores := rfl
@[simp] theorem onGuest_mesh (f : Guest → Guest) (s : State) : (onGuest f s).mesh = s.mesh := rfl
@[simp] theorem onGuest_transit (f : Guest → Guest) (s : State) : (onGuest f s).transit = s.transit := rfl
@[simp] theorem onGuest_mem (f : Guest → Guest) (s : State) : (onGuest f s).mem = s.mem := rfl
@[simp] theorem onGuest_flt (f : Guest → Guest) (s : State) : (onGuest f s).flt = s.flt := rfl
@[simp] theorem onGuest_hist (f : Guest → Guest) (s : State) : (onGuest f s).hist = s.hist := rfl
@[simp] theorem onGuest_ports (f : Guest → Guest) (s : State) : (onGuest f s).ports = s.ports := rfl
@[simp] theorem onGuest_hall (f : Guest → Guest) (s : State) : (onGuest f s).hall = s.hall := rfl
@[simp] theorem onGuest_refresh (f : Guest → Guest) (s : State) : (onGuest f s).refresh = s.refresh := rfl
@[simp] theorem onGuest_rowMaps (f : Guest → Guest) (s : State) : (onGuest f s).rowMaps = s.rowMaps := rfl
@[simp] theorem onGuest_secStop (f : Guest → Guest) (s : State) : (onGuest f s).secStop = s.secStop := rfl
@[simp] theorem onGuest_chans (f : Guest → Guest) (s : State) : (onGuest f s).chans = s.chans := rfl
@[simp] theorem onGuest_stks (f : Guest → Guest) (s : State) : (onGuest f s).stks = s.stks := rfl
@[simp] theorem onGuest_pans (f : Guest → Guest) (s : State) : (onGuest f s).pans = s.pans := rfl
@[simp] theorem onGuest_plans (f : Guest → Guest) (s : State) : (onGuest f s).plans = s.plans := rfl
@[simp] theorem onGuest_secs (f : Guest → Guest) (s : State) : (onGuest f s).secs = s.secs := rfl
@[simp] theorem onGuest_redirect (f : Guest → Guest) (s : State) : (onGuest f s).redirect = s.redirect := rfl
@[simp] theorem onGuest_reduce (f : Guest → Guest) (s : State) : (onGuest f s).reduce = s.reduce := rfl
@[simp] theorem onGuest_hearth (f : Guest → Guest) (s : State) : (onGuest f s).hearth = s.hearth := rfl
@[simp] theorem onGuest_sns (f : Guest → Guest) (s : State) : (onGuest f s).sns = s.sns := rfl
@[simp] theorem onGuest_attic (f : Guest → Guest) (s : State) : (onGuest f s).attic = s.attic := rfl
@[simp] theorem onGuest_bu (f : Guest → Guest) (s : State) : (onGuest f s).bu = s.bu := rfl
@[simp] theorem onGuest_hif (f : Guest → Guest) (s : State) : (onGuest f s).hif = s.hif := rfl
@[simp] theorem onGuest_regs (f : Guest → Guest) (s : State) : (onGuest f s).regs = s.regs := rfl
@[simp] theorem onGuest_latch (f : Guest → Guest) (s : State) : (onGuest f s).latch = s.latch := rfl

@[simp] theorem setTop_pending (v : Nat) (s : State) : (setTop v s).pending = s.pending := by unfold setTop; split <;> simp
@[simp] theorem setTop_freeCtr (v : Nat) (s : State) : (setTop v s).freeCtr = s.freeCtr := by unfold setTop; split <;> simp
@[simp] theorem setTop_fuse (v : Nat) (s : State) : (setTop v s).fuse = s.fuse := by unfold setTop; split <;> simp
@[simp] theorem setTop_counter (v : Nat) (s : State) : (setTop v s).counter = s.counter := by unfold setTop; split <;> simp
@[simp] theorem setTop_sync (v : Nat) (s : State) : (setTop v s).sync = s.sync := by unfold setTop; split <;> simp
@[simp] theorem setTop_tick (v : Nat) (s : State) : (setTop v s).tick = s.tick := by unfold setTop; split <;> simp
@[simp] theorem setTop_cores (v : Nat) (s : State) : (setTop v s).cores = s.cores := by unfold setTop; split <;> simp
@[simp] theorem setTop_mesh (v : Nat) (s : State) : (setTop v s).mesh = s.mesh := by unfold setTop; split <;> simp
@[simp] theorem setTop_transit (v : Nat) (s : State) : (setTop v s).transit = s.transit := by unfold setTop; split <;> simp
@[simp] theorem setTop_mem (v : Nat) (s : State) : (setTop v s).mem = s.mem := by unfold setTop; split <;> simp
@[simp] theorem setTop_flt (v : Nat) (s : State) : (setTop v s).flt = s.flt := by unfold setTop; split <;> simp
@[simp] theorem setTop_hist (v : Nat) (s : State) : (setTop v s).hist = s.hist := by unfold setTop; split <;> simp
@[simp] theorem setTop_ports (v : Nat) (s : State) : (setTop v s).ports = s.ports := by unfold setTop; split <;> simp
@[simp] theorem setTop_hall (v : Nat) (s : State) : (setTop v s).hall = s.hall := by unfold setTop; split <;> simp
@[simp] theorem setTop_refresh (v : Nat) (s : State) : (setTop v s).refresh = s.refresh := by unfold setTop; split <;> simp
@[simp] theorem setTop_rowMaps (v : Nat) (s : State) : (setTop v s).rowMaps = s.rowMaps := by unfold setTop; split <;> simp
@[simp] theorem setTop_secStop (v : Nat) (s : State) : (setTop v s).secStop = s.secStop := by unfold setTop; split <;> simp
@[simp] theorem setTop_chans (v : Nat) (s : State) : (setTop v s).chans = s.chans := by unfold setTop; split <;> simp
@[simp] theorem setTop_stks (v : Nat) (s : State) : (setTop v s).stks = s.stks := by unfold setTop; split <;> simp
@[simp] theorem setTop_pans (v : Nat) (s : State) : (setTop v s).pans = s.pans := by unfold setTop; split <;> simp
@[simp] theorem setTop_plans (v : Nat) (s : State) : (setTop v s).plans = s.plans := by unfold setTop; split <;> simp
@[simp] theorem setTop_secs (v : Nat) (s : State) : (setTop v s).secs = s.secs := by unfold setTop; split <;> simp
@[simp] theorem setTop_redirect (v : Nat) (s : State) : (setTop v s).redirect = s.redirect := by unfold setTop; split <;> simp
@[simp] theorem setTop_reduce (v : Nat) (s : State) : (setTop v s).reduce = s.reduce := by unfold setTop; split <;> simp
@[simp] theorem setTop_guest (v : Nat) (s : State) : (setTop v s).guest = s.guest := by unfold setTop; split <;> simp
@[simp] theorem setTop_hearth (v : Nat) (s : State) : (setTop v s).hearth = s.hearth := by unfold setTop; split <;> simp
@[simp] theorem setTop_sns (v : Nat) (s : State) : (setTop v s).sns = s.sns := by unfold setTop; split <;> simp
@[simp] theorem setTop_attic (v : Nat) (s : State) : (setTop v s).attic = s.attic := by unfold setTop; split <;> simp
@[simp] theorem setTop_bu (v : Nat) (s : State) : (setTop v s).bu = s.bu := by unfold setTop; split <;> simp
@[simp] theorem setTop_latch (v : Nat) (s : State) : (setTop v s).latch = s.latch := by unfold setTop; split <;> simp

end Sys2Proof.Machine
end

