-- ==== Sys2Proof/Laws/Job.lean ====
section
/-! SUPPORT. The job tick: no operation that a boundary runs changes it, but for the opening of the tick itself (R16). -/

set_option linter.unusedTactic false
set_option linter.unreachableTactic false
set_option linter.unusedSimpArgs false

namespace Sys2Proof.Machine

theorem foldl_job {α : Type} {b : State} {f : State → α → State}
    (hf : ∀ s a, s.tick.job = b.tick.job → (f s a).tick.job = b.tick.job) :
    ∀ (l : List α) (s : State), s.tick.job = b.tick.job → (l.foldl f s).tick.job = b.tick.job
  | [], _, h => h
  | a :: l, s, h => foldl_job hf l (f s a) (hf s a h)

theorem ite_job {b x y : State} {c : Prop} [Decidable c] (hx : x.tick.job = b.tick.job) (hy : y.tick.job = b.tick.job) :
    (if c then x else y).tick.job = b.tick.job := by
  split
  · exact hx
  · exact hy

theorem foldr_job {α : Type} {b : State} {f : α → State → State}
    (hf : ∀ a s, s.tick.job = b.tick.job → (f a s).tick.job = b.tick.job) :
    ∀ (l : List α) (s : State), s.tick.job = b.tick.job → (l.foldr f s).tick.job = b.tick.job
  | [], _, h => h
  | a :: l, s, h => hf a _ (foldr_job hf l s h)

theorem setF_job {b : State} (s : State) (f : Fld) (v : Nat) (h : s.tick.job = b.tick.job) :
    (setF s f v).tick.job = b.tick.job := h

theorem setB_job {b0 : State} (s : State) (f : Fld) (b : Bool) (h : s.tick.job = b0.tick.job) :
    (setB s f b).tick.job = b0.tick.job := by
  unfold setB
  repeat' first
    | with_reducible assumption
    | with_reducible apply setF_job
    | with_reducible apply ite_job
    | dsimp only
    | split

theorem incSat_job {b : State} (s : State) (f : Fld) (n : Nat) (h : s.tick.job = b.tick.job) :
    (incSat s f n).tick.job = b.tick.job := by
  unfold incSat
  repeat' first
    | with_reducible assumption
    | with_reducible apply setF_job
    | dsimp only

theorem peakF_job {b : State} (s : State) (f : Fld) (v : Nat) (h : s.tick.job = b.tick.job) :
    (peakF s f v).tick.job = b.tick.job := by
  unfold peakF
  repeat' first
    | with_reducible assumption
    | with_reducible apply setF_job
    | dsimp only

theorem setFs_job {b : State} (s : State) (l : List (Fld × Nat)) (h : s.tick.job = b.tick.job) :
    (setFs s l).tick.job = b.tick.job := by
  rw [setFs_tick]; exact h

theorem signal_job {b : State} (pg bit f : Nat) (s : State) (h : s.tick.job = b.tick.job) :
    (signal pg bit f s).tick.job = b.tick.job := by
  unfold signal
  repeat' first
    | with_reducible assumption
    | with_reducible apply ite_job
    | dsimp only
    | split

theorem raise_job {b : State} (e : Ev) (s : State) (h : s.tick.job = b.tick.job) :
    (raise e s).tick.job = b.tick.job := by
  unfold raise
  repeat' first
    | with_reducible assumption
    | with_reducible apply setF_job
    | with_reducible apply signal_job
    | with_reducible apply ite_job
    | dsimp only
    | split

theorem setTop_job {b : State} (v : Nat) (s : State) (h : s.tick.job = b.tick.job) :
    (setTop v s).tick.job = b.tick.job := by
  unfold setTop
  repeat' first
    | with_reducible assumption
    | with_reducible apply setF_job
    | with_reducible apply raise_job
    | with_reducible apply ite_job
    | dsimp only
    | split

theorem setLaunch_job {b : State} (v : Nat) (s : State) (h : s.tick.job = b.tick.job) :
    (setLaunch v s).tick.job = b.tick.job := by
  unfold setLaunch
  repeat' first
    | with_reducible assumption
    | with_reducible apply setF_job
    | dsimp only

theorem updCore_job {b : State} (s : State) (c : Nat) (f : Core → Core) (h : s.tick.job = b.tick.job) :
    (updCore s c f).tick.job = b.tick.job := by
  unfold updCore
  repeat' first
    | with_reducible assumption
    | dsimp only

theorem mapCores_job {b : State} (f : Nat → Core → Core) (s : State) (h : s.tick.job = b.tick.job) :
    (mapCores f s).tick.job = b.tick.job := by
  unfold mapCores
  repeat' first
    | with_reducible assumption
    | dsimp only

theorem updPort_job {b : State} (s : State) (p : Nat) (f : Port → Port) (h : s.tick.job = b.tick.job) :
    (updPort s p f).tick.job = b.tick.job := by
  unfold updPort
  repeat' first
    | with_reducible assumption
    | dsimp only

theorem countOn_job {b : State} (s : State) (h : s.tick.job = b.tick.job) :
    (countOn s).tick.job = b.tick.job := by
  unfold countOn
  repeat' first
    | with_reducible assumption
    | intro _
    | with_reducible apply ite_job
    | dsimp only
    | split

theorem idle_job {b : State} (s : State) (h : s.tick.job = b.tick.job) :
    (idle s).tick.job = b.tick.job := by
  unfold idle
  repeat' first
    | with_reducible assumption
    | with_reducible apply countOn_job
    | intro _
    | with_reducible apply ite_job
    | dsimp only
    | split

theorem wrMems_job {b : State} (s : State) (a : Nat) (bs : List Byte) (h : s.tick.job = b.tick.job) :
    (wrMems s a bs).tick.job = b.tick.job := by
  unfold wrMems
  repeat' first
    | with_reducible assumption
    | intro _
    | with_reducible apply ite_job
    | dsimp only
    | split

theorem mapChans_job {b : State} (f : Chan → Chan) (s : State) (h : s.tick.job = b.tick.job) :
    (mapChans f s).tick.job = b.tick.job := by
  unfold mapChans
  repeat' first
    | with_reducible assumption
    | dsimp only

theorem queueSync_job {b : State} (p : Nat) (f : Frame) (s : State) (h : s.tick.job = b.tick.job) :
    (queueSync p f s).tick.job = b.tick.job := by
  unfold queueSync
  repeat' first
    | with_reducible assumption
    | with_reducible apply updPort_job
    | dsimp only

theorem queueSyncs_job {b : State} (f : Frame) (s : State) (ps : List Nat) (h : s.tick.job = b.tick.job) :
    (queueSyncs f s ps).tick.job = b.tick.job := by
  unfold queueSyncs
  repeat' first
    | with_reducible assumption
    | with_reducible apply queueSync_job
    | with_reducible apply foldl_job
    | intro _
    | dsimp only

theorem broadcast_job {b : State} (kind : Nat) (payload : List Byte) (s : State) (h : s.tick.job = b.tick.job) :
    (broadcast kind payload s).tick.job = b.tick.job := by
  unfold broadcast
  repeat' first
    | with_reducible assumption
    | with_reducible apply queueSyncs_job
    | dsimp only

theorem showAttic_job {b : State} (s : State) (h : s.tick.job = b.tick.job) :
    (showAttic s).tick.job = b.tick.job := by
  unfold showAttic
  repeat' first
    | with_reducible assumption
    | with_reducible apply setFs_job
    | dsimp only

theorem syncLess_job {b : State} (r : Nat) (s : State) (h : s.tick.job = b.tick.job) :
    (syncLess r s).tick.job = b.tick.job := by
  unfold syncLess
  repeat' first
    | with_reducible assumption
    | with_reducible apply raise_job
    | with_reducible apply foldl_job
    | intro _
    | dsimp only
    | split

theorem atticNext_job {b : State} (l : List (Nat × List Nat)) : ∀ s : State, s.tick.job = b.tick.job → (atticNext l s).tick.job = b.tick.job := by
  induction l with
  | nil => intro s h; exact h
  | cons e l ih =>
    intro s h
    unfold atticNext
    split
    · exact ih _ (syncLess_job _ _ (raise_job _ _ (setB_job _ _ _ h)))
    · exact h

theorem enqueue_job {b : State} (r : Nat) (clr : Bool) (s : State) (h : s.tick.job = b.tick.job) :
    (enqueue r clr s).tick.job = b.tick.job := by
  unfold enqueue
  repeat' first
    | with_reducible assumption
    | with_reducible apply ite_job
    | dsimp only
    | split

theorem atticGo_job {b : State} (s : State) (h : s.tick.job = b.tick.job) :
    (atticGo s).tick.job = b.tick.job := by
  unfold atticGo
  repeat' first
    | with_reducible assumption
    | with_reducible apply showAttic_job
    | with_reducible apply atticNext_job
    | with_reducible apply ite_job
    | dsimp only
    | split

theorem queueReq_job {b : State} (r : Nat) (clr : Bool) (s : State) (h : s.tick.job = b.tick.job) :
    (queueReq r clr s).tick.job = b.tick.job := by
  unfold queueReq
  repeat' first
    | with_reducible assumption
    | with_reducible apply enqueue_job
    | with_reducible apply atticGo_job
    | dsimp only

theorem queueRec_job {b : State} (r : Nat) (s : State) (h : s.tick.job = b.tick.job) :
    (queueRec r s).tick.job = b.tick.job := by
  unfold queueRec
  repeat' first
    | with_reducible assumption
    | with_reducible apply queueReq_job
    | dsimp only

theorem logEntry_job {b : State} (r : FaultRec) (recur : Bool) (s : State) (h : s.tick.job = b.tick.job) :
    (logEntry r recur s).tick.job = b.tick.job := by
  unfold logEntry
  repeat' first
    | with_reducible assumption
    | with_reducible apply setF_job
    | with_reducible apply raise_job
    | with_reducible apply idle_job
    | with_reducible apply ite_job
    | dsimp only
    | split

theorem logOnly_job {b : State} (code unit unitId cyc detail : Nat) (s : State) (h : s.tick.job = b.tick.job) :
    (logOnly code unit unitId cyc detail s).tick.job = b.tick.job := by
  unfold logOnly
  repeat' first
    | with_reducible assumption
    | with_reducible apply logEntry_job
    | dsimp only

theorem markPermanent_job {b : State} (unit id : Nat) (s : State) (h : s.tick.job = b.tick.job) :
    (markPermanent unit id s).tick.job = b.tick.job := by
  unfold markPermanent
  repeat' first
    | with_reducible assumption
    | with_reducible apply setB_job
    | with_reducible apply raise_job
    | with_reducible apply queueRec_job
    | with_reducible apply logOnly_job
    | with_reducible apply ite_job
    | dsimp only
    | split

theorem histEvent_job {b : State} (unit id : Nat) (s : State) (h : s.tick.job = b.tick.job) :
    (histEvent unit id s).tick.job = b.tick.job := by
  unfold histEvent
  repeat' first
    | with_reducible assumption
    | with_reducible apply setF_job
    | with_reducible apply queueRec_job
    | with_reducible apply markPermanent_job
    | with_reducible apply ite_job
    | dsimp only
    | split

theorem fenceUnit_job {b : State} (unit id : Nat) (s : State) (h : s.tick.job = b.tick.job) :
    (fenceUnit unit id s).tick.job = b.tick.job := by
  unfold fenceUnit
  repeat' first
    | with_reducible assumption
    | with_reducible apply setF_job
    | with_reducible apply setB_job
    | with_reducible apply updCore_job
    | dsimp only
    | split

theorem goFlagged_job {b : State} (s : State) (h : s.tick.job = b.tick.job) :
    (goFlagged s).tick.job = b.tick.job := by
  unfold goFlagged
  repeat' first
    | with_reducible assumption
    | with_reducible apply raise_job
    | with_reducible apply setTop_job
    | with_reducible apply ite_job
    | dsimp only
    | split

theorem recordFlag_job {b : State} (cause seq : Nat) (s : State) (h : s.tick.job = b.tick.job) :
    (recordFlag cause seq s).tick.job = b.tick.job := by
  unfold recordFlag
  repeat' first
    | with_reducible assumption
    | with_reducible apply setFs_job
    | with_reducible apply ite_job
    | dsimp only
    | split

theorem idleFlag_job {b : State} (cause : Nat) (s : State) (h : s.tick.job = b.tick.job) :
    (idleFlag cause s).tick.job = b.tick.job := by
  unfold idleFlag
  repeat' first
    | with_reducible assumption
    | with_reducible apply goFlagged_job
    | with_reducible apply ite_job
    | dsimp only
    | split

theorem faultDrain_job {b : State} (s : State) (h : s.tick.job = b.tick.job) :
    (faultDrain s).tick.job = b.tick.job := by
  unfold faultDrain
  repeat' first
    | with_reducible assumption
    | dsimp only

theorem enterDrain_job {b : State} (planned : Bool) (s : State) (h : s.tick.job = b.tick.job) :
    (enterDrain planned s).tick.job = b.tick.job := by
  unfold enterDrain
  repeat' first
    | with_reducible assumption
    | intro _
    | with_reducible apply ite_job
    | dsimp only
    | split

theorem recordOverrun_job {b : State} (pkg cause : Nat) (s : State) (h : s.tick.job = b.tick.job) :
    (recordOverrun pkg cause s).tick.job = b.tick.job := by
  unfold recordOverrun
  repeat' first
    | with_reducible assumption
    | with_reducible apply setFs_job
    | with_reducible apply raise_job
    | with_reducible apply logOnly_job
    | with_reducible apply enterDrain_job
    | with_reducible apply ite_job
    | dsimp only
    | split

theorem declareOverrun_job {b : State} (cause : Nat) (s : State) (h : s.tick.job = b.tick.job) :
    (declareOverrun cause s).tick.job = b.tick.job := by
  unfold declareOverrun
  repeat' first
    | with_reducible assumption
    | with_reducible apply broadcast_job
    | with_reducible apply recordOverrun_job
    | with_reducible apply ite_job
    | dsimp only
    | split

theorem onGuest_job {b : State} (f : Guest → Guest) (s : State) (h : s.tick.job = b.tick.job) :
    (onGuest f s).tick.job = b.tick.job := by
  unfold onGuest
  repeat' first
    | with_reducible assumption
    | dsimp only

theorem undoGuest_job {b : State} (s : State) (h : s.tick.job = b.tick.job) :
    (undoGuest s).tick.job = b.tick.job := by
  unfold undoGuest
  repeat' first
    | with_reducible assumption
    | with_reducible apply onGuest_job
    | with_reducible apply wrMems_job
    | with_reducible apply foldr_job
    | intro _
    | with_reducible apply ite_job
    | dsimp only
    | split

theorem addDebt_job {b : State} (ns : Nat) (s : State) (h : s.tick.job = b.tick.job) :
    (addDebt ns s).tick.job = b.tick.job := by
  unfold addDebt
  repeat' first
    | with_reducible assumption
    | dsimp only

theorem postpone_job {b : State} (s : State) (h : s.tick.job = b.tick.job) :
    (postpone s).tick.job = b.tick.job := by
  unfold postpone
  repeat' first
    | with_reducible assumption
    | with_reducible apply setB_job
    | with_reducible apply incSat_job
    | with_reducible apply raise_job
    | with_reducible apply setLaunch_job
    | with_reducible apply addDebt_job
    | with_reducible apply ite_job
    | dsimp only
    | split

theorem restartSums_job {b : State} (src : Nat) (s : State) (h : s.tick.job = b.tick.job) :
    (restartSums src s).tick.job = b.tick.job := by
  unfold restartSums
  repeat' first
    | with_reducible assumption
    | dsimp only

theorem dropSource_job {b : State} (src tick : Nat) (s : State) (h : s.tick.job = b.tick.job) :
    (dropSource src tick s).tick.job = b.tick.job := by
  unfold dropSource
  repeat' first
    | with_reducible assumption
    | with_reducible apply incSat_job
    | with_reducible apply restartSums_job
    | with_reducible apply ite_job
    | dsimp only
    | split

theorem quiesce_job {b : State} (why : Option (Nat × Nat)) (s : State) (h : s.tick.job = b.tick.job) :
    (quiesce why s).tick.job = b.tick.job := by
  unfold quiesce
  repeat' first
    | with_reducible assumption
    | with_reducible apply ite_job
    | dsimp only
    | split

theorem withdraw_job {b : State} (why : Option (Nat × Nat)) (s : State) (h : s.tick.job = b.tick.job) :
    (withdraw why s).tick.job = b.tick.job := by
  unfold withdraw
  repeat' first
    | with_reducible assumption
    | with_reducible apply declareOverrun_job
    | with_reducible apply postpone_job
    | with_reducible apply quiesce_job
    | intro _
    | with_reducible apply ite_job
    | dsimp only
    | split

theorem sendVoid_job {b : State} (src tick : Nat) (s : State) (h : s.tick.job = b.tick.job) :
    (sendVoid src tick s).tick.job = b.tick.job := by
  unfold sendVoid
  repeat' first
    | with_reducible assumption
    | with_reducible apply broadcast_job
    | intro _
    | with_reducible apply ite_job
    | dsimp only
    | split

theorem voidSelf_job {b : State} (why : Option (Nat × Nat)) (s : State) (h : s.tick.job = b.tick.job) :
    (voidSelf why s).tick.job = b.tick.job := by
  unfold voidSelf
  repeat' first
    | with_reducible assumption
    | with_reducible apply sendVoid_job
    | with_reducible apply withdraw_job
    | intro _
    | with_reducible apply ite_job
    | dsimp only
    | split

theorem voidOther_job {b : State} (why : Option (Nat × Nat)) (src tick : Nat) (s : State) (h : s.tick.job = b.tick.job) :
    (voidOther why src tick s).tick.job = b.tick.job := by
  unfold voidOther
  repeat' first
    | with_reducible assumption
    | with_reducible apply dropSource_job
    | with_reducible apply postpone_job
    | with_reducible apply sendVoid_job
    | with_reducible apply voidSelf_job
    | intro _
    | with_reducible apply ite_job
    | dsimp only
    | split

theorem logFault_job {b : State} (r : FaultRec) (s : State) (h : s.tick.job = b.tick.job) :
    (logFault r s).tick.job = b.tick.job := by
  unfold logFault
  repeat' first
    | with_reducible assumption
    | with_reducible apply histEvent_job
    | with_reducible apply logEntry_job
    | with_reducible apply markPermanent_job
    | intro _
    | with_reducible apply ite_job
    | dsimp only
    | split

theorem setSuspect_job {b : State} (s : State) (h : s.tick.job = b.tick.job) :
    (setSuspect s).tick.job = b.tick.job := by
  unfold setSuspect
  repeat' first
    | with_reducible assumption
    | with_reducible apply queueRec_job
    | with_reducible apply raise_job
    | with_reducible apply setB_job
    | intro _
    | with_reducible apply ite_job
    | dsimp only
    | split

theorem silentError_job {b : State} (seq : Nat) (s : State) (h : s.tick.job = b.tick.job) :
    (silentError seq s).tick.job = b.tick.job := by
  unfold silentError
  repeat' first
    | with_reducible assumption
    | with_reducible apply faultDrain_job
    | with_reducible apply recordFlag_job
    | with_reducible apply setSuspect_job
    | intro _
    | with_reducible apply ite_job
    | dsimp only
    | split

theorem faultOutcome_job {b : State} (r : FaultRec) (recur : Bool) (seq : Nat) (s : State) (h : s.tick.job = b.tick.job) :
    (faultOutcome r recur seq s).tick.job = b.tick.job := by
  unfold faultOutcome
  repeat' first
    | with_reducible assumption
    | with_reducible apply boundary_job
    | with_reducible apply declareOverrun_job
    | with_reducible apply faultDrain_job
    | with_reducible apply fenceUnit_job
    | with_reducible apply idle_job
    | with_reducible apply idleFlag_job
    | with_reducible apply markPermanent_job
    | with_reducible apply recordFlag_job
    | with_reducible apply silentError_job
    | with_reducible apply voidSelf_job
    | intro _
    | with_reducible apply ite_job
    | dsimp only
    | split

theorem logAll_job {b : State} (l : List FaultRec) : ∀ s : State, s.tick.job = b.tick.job → (logAll l s).1.tick.job = b.tick.job := by
  induction l with
  | nil => intro s h; exact h
  | cons r l ih => intro s h; exact ih _ (logFault_job _ _ h)

theorem takeFaults_job {b : State} (rs : List FaultRec) (s : State) (h : s.tick.job = b.tick.job) :
    (takeFaults rs s).tick.job = b.tick.job := by
  unfold takeFaults
  repeat' first
    | with_reducible assumption
    | with_reducible apply faultOutcome_job
    | with_reducible apply logAll_job
    | intro _
    | with_reducible apply ite_job
    | dsimp only
    | split

theorem takeFault_job {b : State} (r : FaultRec) (s : State) (h : s.tick.job = b.tick.job) :
    (takeFault r s).tick.job = b.tick.job := by
  unfold takeFault
  repeat' first
    | with_reducible assumption
    | with_reducible apply takeFaults_job
    | dsimp only

theorem sourceFault_job {b : State} (r : FaultRec) (srcs : List (Nat × Nat)) (s : State) (h : s.tick.job = b.tick.job) :
    (sourceFault r srcs s).tick.job = b.tick.job := by
  unfold sourceFault
  repeat' first
    | with_reducible assumption
    | with_reducible apply logFault_job
    | with_reducible apply takeFault_job
    | with_reducible apply voidOther_job
    | with_reducible apply foldl_job
    | intro _
    | with_reducible apply ite_job
    | dsimp only
    | split

theorem dropFrame_job {b : State} (full : Bool) (f : Frame) (s : State) (h : s.tick.job = b.tick.job) :
    (dropFrame full f s).tick.job = b.tick.job := by
  unfold dropFrame
  repeat' first
    | with_reducible assumption
    | with_reducible apply incSat_job
    | with_reducible apply raise_job
    | with_reducible apply sourceFault_job
    | intro _
    | with_reducible apply ite_job
    | dsimp only
    | split

theorem queuePlanned_job {b : State} (p : Nat) (f : Frame) (s : State) (h : s.tick.job = b.tick.job) :
    (queuePlanned p f s).tick.job = b.tick.job := by
  unfold queuePlanned
  repeat' first
    | with_reducible assumption
    | with_reducible apply updPort_job
    | dsimp only

theorem forward_job {b : State} (part : Nat) (f : Frame) (s : State) (h : s.tick.job = b.tick.job) :
    (forward part f s).tick.job = b.tick.job := by
  unfold forward
  repeat' first
    | with_reducible assumption
    | with_reducible apply dropFrame_job
    | with_reducible apply queuePlanned_job
    | dsimp only
    | split

theorem forwardAll_job {b : State} (lo : Nat) (f : Frame) (s : State) (h : s.tick.job = b.tick.job) :
    (forwardAll lo f s).tick.job = b.tick.job := by
  unfold forwardAll
  repeat' first
    | with_reducible assumption
    | with_reducible apply dropFrame_job
    | with_reducible apply queuePlanned_job
    | with_reducible apply foldl_job
    | intro _
    | dsimp only
    | split

theorem notePath_job {b : State} (dst : Nat) (s : State) (h : s.tick.job = b.tick.job) :
    (notePath dst s).tick.job = b.tick.job := by
  unfold notePath
  repeat' first
    | with_reducible assumption
    | with_reducible apply ite_job
    | dsimp only
    | split

theorem showLanding_job {b : State} (s : State) (h : s.tick.job = b.tick.job) :
    (showLanding s).tick.job = b.tick.job := by
  unfold showLanding
  repeat' first
    | with_reducible assumption
    | with_reducible apply setF_job
    | with_reducible apply peakF_job
    | dsimp only
    | split

theorem landPlace_job {b : State} (f : Frame) (part : Nat) (s : State) (h : s.tick.job = b.tick.job) :
    (landPlace f part s).tick.job = b.tick.job := by
  unfold landPlace
  repeat' first
    | with_reducible assumption
    | with_reducible apply dropFrame_job
    | with_reducible apply incSat_job
    | with_reducible apply raise_job
    | with_reducible apply showLanding_job
    | with_reducible apply sourceFault_job
    | intro _
    | with_reducible apply ite_job
    | dsimp only
    | split

theorem landArrival_job {b : State} (f : Frame) (s : State) (h : s.tick.job = b.tick.job) :
    (landArrival f s).tick.job = b.tick.job := by
  unfold landArrival
  repeat' first
    | with_reducible assumption
    | with_reducible apply incSat_job
    | with_reducible apply raise_job
    | with_reducible apply declareOverrun_job
    | with_reducible apply dropFrame_job
    | with_reducible apply landPlace_job
    | with_reducible apply ite_job
    | dsimp only
    | split

theorem sendOut_job {b : State} (part : Nat) (f : Frame) (s : State) (h : s.tick.job = b.tick.job) :
    (sendOut part f s).tick.job = b.tick.job := by
  unfold sendOut
  repeat' first
    | with_reducible assumption
    | with_reducible apply forward_job
    | with_reducible apply forwardAll_job
    | with_reducible apply notePath_job
    | with_reducible apply landArrival_job
    | with_reducible apply ite_job
    | dsimp only
    | split

theorem sendColl_job {b : State} (part : Nat) (pl : Plan) (fs : List Frame) (s : State) (h : s.tick.job = b.tick.job) :
    (sendColl part pl fs s).tick.job = b.tick.job := by
  unfold sendColl
  repeat' first
    | with_reducible assumption
    | with_reducible apply sendOut_job
    | with_reducible apply foldl_job
    | intro _
    | dsimp only
    | split

theorem sendBcast_job {b : State} (part : Nat) (fs : List Frame) (s : State) (h : s.tick.job = b.tick.job) :
    (sendBcast part fs s).tick.job = b.tick.job := by
  unfold sendBcast
  repeat' first
    | with_reducible assumption
    | with_reducible apply sendOut_job
    | with_reducible apply foldl_job
    | intro _
    | dsimp only

theorem issuePiece_job {b : State} (q : Piece) (pl : Plan) (data : List Byte) (s : State) (h : s.tick.job = b.tick.job) :
    (issuePiece q pl data s).tick.job = b.tick.job := by
  unfold issuePiece
  repeat' first
    | with_reducible assumption
    | with_reducible apply sendColl_job
    | with_reducible apply sendBcast_job
    | with_reducible apply ite_job
    | dsimp only
    | split

theorem sendPhase2_job {b : State} (part : Nat) (s : State) (h : s.tick.job = b.tick.job) :
    (sendPhase2 part s).tick.job = b.tick.job := by
  unfold sendPhase2
  repeat' first
    | with_reducible assumption
    | with_reducible apply sendColl_job
    | with_reducible apply foldl_job
    | intro _
    | with_reducible apply ite_job
    | dsimp only
    | split

theorem issueNorm_job {b : State} (s : State) (h : s.tick.job = b.tick.job) :
    (issueNorm s).tick.job = b.tick.job := by
  unfold issueNorm
  repeat' first
    | with_reducible assumption
    | with_reducible apply issuePiece_job
    | with_reducible apply foldl_job
    | intro _
    | dsimp only
    | split

theorem clearSigs_job {b : State} (s : State) (h : s.tick.job = b.tick.job) :
    (clearSigs s).tick.job = b.tick.job := by
  unfold clearSigs
  repeat' first
    | with_reducible assumption
    | with_reducible apply mapCores_job
    | dsimp only

theorem dropOwnFrames_job {b : State} (s : State) (h : s.tick.job = b.tick.job) :
    (dropOwnFrames s).tick.job = b.tick.job := by
  unfold dropOwnFrames
  repeat' first
    | with_reducible assumption
    | with_reducible apply showLanding_job
    | intro _
    | with_reducible apply ite_job
    | dsimp only
    | split

theorem dropOwn_job {b : State} (s : State) (h : s.tick.job = b.tick.job) :
    (dropOwn s).tick.job = b.tick.job := by
  unfold dropOwn
  repeat' first
    | with_reducible assumption
    | with_reducible apply dropOwnFrames_job
    | dsimp only
    | split

theorem beginReplay_job {b : State} (s : State) (h : s.tick.job = b.tick.job) :
    (beginReplay s).tick.job = b.tick.job := by
  unfold beginReplay
  repeat' first
    | with_reducible assumption
    | with_reducible apply clearSigs_job
    | with_reducible apply dropOwn_job
    | with_reducible apply incSat_job
    | with_reducible apply issueNorm_job
    | with_reducible apply mapChans_job
    | with_reducible apply mapCores_job
    | with_reducible apply raise_job
    | with_reducible apply sendPhase2_job
    | with_reducible apply undoGuest_job
    | with_reducible apply foldl_job
    | intro _
    | with_reducible apply ite_job
    | dsimp only
    | split

end Sys2Proof.Machine
end

