-- ==== Sys2Proof/Laws/SMap.lean ====
section
/-! SUPPORT. The laws of sparse stores: a read after a write, the other keys, and the canonical form. -/

namespace Sys2Proof.Machine

variable {β : Type}

theorem smFind_insert_same (m : SMap β) (k : Nat) (v : β) : smFind (smInsert m k v) k = some v := by
  induction m with
  | nil => simp [smInsert, smFind]
  | cons e m ih =>
    simp only [smInsert]
    split
    · simp [smFind]
    · split
      · simp [smFind]
      · rename_i h1 h2
        have : e.1 ≠ k := fun h => h2 h.symm
        simp [smFind, this, ih]

theorem smFind_insert_other (m : SMap β) (k j : Nat) (v : β) (hj : k ≠ j) :
    smFind (smInsert m k v) j = smFind m j := by
  induction m with
  | nil => simp [smInsert, smFind, hj]
  | cons e m ih =>
    simp only [smInsert]
    split
    · simp [smFind, hj]
    · split
      · rename_i h
        have : e.1 ≠ j := h ▸ hj
        simp [smFind, hj, this]
      · by_cases he : e.1 = j <;> simp [smFind, he, ih]

theorem smFind_erase_other (m : SMap β) (k j : Nat) (hj : k ≠ j) : smFind (smErase m k) j = smFind m j := by
  induction m with
  | nil => rfl
  | cons e m ih =>
    simp only [smErase]
    split
    · rename_i h
      have : e.1 ≠ j := h ▸ hj
      simp [smFind, this, ih]
    · by_cases he : e.1 = j <;> simp [smFind, he, ih]

/-- A listed key after an insertion. -/
theorem smFind_insert (m : SMap β) (k j : Nat) (v : β) :
    smFind (smInsert m k v) j = if k = j then some v else smFind m j := by
  by_cases h : k = j
  · rw [if_pos h, ← h, smFind_insert_same]
  · rw [if_neg h, smFind_insert_other m k j v h]

theorem smFind_erase (m : SMap β) (k j : Nat) : smFind (smErase m k) j = if k = j then none else smFind m j := by
  by_cases h : k = j
  · subst h
    rw [if_pos rfl]
    induction m with
    | nil => rfl
    | cons e m ih =>
      simp only [smErase]
      split
      · exact ih
      · rename_i he; simp [smFind, he, ih]
  · rw [if_neg h, smFind_erase_other m k j h]

theorem mem_smInsert {m : SMap β} {k : Nat} {v : β} {e : Nat × β} (h : e ∈ smInsert m k v) :
    e = (k, v) ∨ e ∈ m := by
  induction m with
  | nil => simpa [smInsert] using h
  | cons a m ih =>
    simp only [smInsert] at h
    split at h
    · simpa using h
    · split at h
      · rcases List.mem_cons.mp h with h | h
        · exact .inl h
        · exact .inr (by simp [h])
      · rcases List.mem_cons.mp h with h | h
        · exact .inr (by simp [h])
        · rcases ih h with h | h
          · exact .inl h
          · exact .inr (by simp [h])

theorem mem_smErase {m : SMap β} {k : Nat} {e : Nat × β} (h : e ∈ smErase m k) : e ∈ m := by
  induction m with
  | nil => simp [smErase] at h
  | cons a m ih =>
    simp only [smErase] at h
    split at h
    · simp [ih h]
    · rcases List.mem_cons.mp h with h | h
      · simp [h]
      · simp [ih h]

theorem smInsert_sorted (m : SMap β) (k : Nat) (v : β) (h : m.Pairwise fun a b => a.1 < b.1) :
    (smInsert m k v).Pairwise fun a b => a.1 < b.1 := by
  induction m with
  | nil => simp [smInsert]
  | cons e m ih =>
    obtain ⟨hm, hr⟩ := List.pairwise_cons.mp h
    simp only [smInsert]
    split
    · rename_i hk
      refine List.pairwise_cons.mpr ⟨fun x hx => ?_, h⟩
      rcases List.mem_cons.mp hx with hx | hx
      · subst hx; exact hk
      · exact Nat.lt_trans hk (hm x hx)
    · split
      · rename_i hk
        exact List.pairwise_cons.mpr ⟨fun x hx => hk ▸ hm x hx, hr⟩
      · refine List.pairwise_cons.mpr ⟨fun x hx => ?_, ih hr⟩
        rcases mem_smInsert hx with hx | hx
        · subst hx; show e.1 < k; omega
        · exact hm x hx

theorem smErase_sorted (m : SMap β) (k : Nat) (h : m.Pairwise fun a b => a.1 < b.1) :
    (smErase m k).Pairwise fun a b => a.1 < b.1 := by
  induction m with
  | nil => simp [smErase]
  | cons e m ih =>
    obtain ⟨hm, hr⟩ := List.pairwise_cons.mp h
    simp only [smErase]
    split
    · exact ih hr
    · exact List.pairwise_cons.mpr ⟨fun x hx => hm x (mem_smErase hx), ih hr⟩

variable [DecidableEq β]

theorem smWf_iff (d : β) (m : SMap β) :
    smWf d m = true ↔ (m.Pairwise fun a b => a.1 < b.1) ∧ ∀ e ∈ m, e.2 ≠ d := by
  simp [smWf]

/-- Writing keeps the canonical form. -/
theorem smSet_wf (d : β) (m : SMap β) (k : Nat) (v : β) (h : smWf d m = true) : smWf d (smSet d m k v) = true := by
  rw [smWf_iff] at h ⊢
  unfold smSet
  split
  · exact ⟨smErase_sorted m k h.1, fun e he => h.2 e (mem_smErase he)⟩
  · rename_i hv
    refine ⟨smInsert_sorted m k v h.1, fun e he => ?_⟩
    rcases mem_smInsert he with he | he
    · subst he; exact hv
    · exact h.2 e he

/-- A read after a write: the value written at its key, every other key as before. -/
theorem smGet_smSet (d : β) (m : SMap β) (k j : Nat) (v : β) :
    smGet d (smSet d m k v) j = if k = j then v else smGet d m j := by
  unfold smSet
  split
  · rename_i hv
    unfold smGet
    rw [smFind_erase m k j]
    by_cases hj : k = j <;> simp [hj, hv]
  · unfold smGet
    rw [smFind_insert m k j v]
    by_cases hj : k = j <;> simp [hj]

/-- Every other key reads as before, in any store. -/
theorem smGet_smSet_other (d : β) (m : SMap β) (k j : Nat) (v : β) (hj : k ≠ j) :
    smGet d (smSet d m k v) j = smGet d m j := by
  unfold smGet smSet
  split
  · rw [smFind_erase_other m k j hj]
  · rw [smFind_insert_other m k j v hj]

theorem smGet_smUpd (d : β) (m : SMap β) (k j : Nat) (f : β → β) :
    smGet d (smUpd d m k f) j = if k = j then f (smGet d m k) else smGet d m j :=
  smGet_smSet d m k j _

theorem smGet_smUpd_other (d : β) (m : SMap β) (k j : Nat) (f : β → β) (hj : k ≠ j) :
    smGet d (smUpd d m k f) j = smGet d m j :=
  smGet_smSet_other d m k j _ hj

theorem smUpd_wf (d : β) (m : SMap β) (k : Nat) (f : β → β) (h : smWf d m = true) :
    smWf d (smUpd d m k f) = true := smSet_wf d m k _ h

theorem smSetList_wf (d : β) (vs : List β) : ∀ (m : SMap β) (k : Nat), smWf d m = true →
    smWf d (smSetList d m k vs) = true := by
  induction vs with
  | nil => intro m k h; exact h
  | cons v vs ih => intro m k h; exact ih _ _ (smSet_wf d m k v h)

theorem smFilter_wf (d : β) (m : SMap β) (p : Nat × β → Bool) (h : smWf d m = true) :
    smWf d (m.filter p) = true := by
  rw [smWf_iff] at h ⊢
  exact ⟨h.1.filter p, fun e he => h.2 e (List.mem_filter.mp he).1⟩

theorem smClear_wf (d : β) (m : SMap β) (lo n : Nat) (h : smWf d m = true) : smWf d (smClear m lo n) = true :=
  smFilter_wf d m _ h

/-- Changing every listed value and dropping those that became the unlisted one keeps the form. -/
theorem smMap_wf (d : β) (m : SMap β) (f : Nat × β → β) (h : smWf d m = true) :
    smWf d ((m.map fun e => (e.1, f e)).filter fun e => decide (e.2 ≠ d)) = true := by
  rw [smWf_iff] at h ⊢
  refine ⟨?_, fun e he => by simpa using (List.mem_filter.mp he).2⟩
  apply List.Pairwise.filter
  rw [List.pairwise_map]
  exact h.1

/-- The list written reads back, and every key outside it as before. -/
theorem smGet_smSetList (d : β) (vs : List β) : ∀ (m : SMap β) (k j : Nat),
    smGet d (smSetList d m k vs) j = if k ≤ j ∧ j < k + vs.length then vs.getD (j - k) d else smGet d m j := by
  induction vs with
  | nil =>
    intro m k j
    have : ¬ (k ≤ j ∧ j < k + ([] : List β).length) := by simp
    rw [if_neg this]; rfl
  | cons v vs ih =>
    intro m k j
    show smGet d (smSetList d (smSet d m k v) (k + 1) vs) j = _
    rw [ih _ _ _, smGet_smSet d m k j v]
    by_cases h0 : k = j
    · subst h0
      rw [if_neg (by omega), if_pos rfl, if_pos (by simp)]
      simp
    · by_cases h1 : k + 1 ≤ j ∧ j < k + 1 + vs.length
      · rw [if_pos h1, if_pos (by simp; omega)]
        have : j - k = (j - (k + 1)) + 1 := by omega
        rw [this, List.getD_cons_succ]
      · rw [if_neg h1, if_neg h0, if_neg (by simp; omega)]

end Sys2Proof.Machine
end

