-- ==== Sys2Proof/Laws/Keep.lean ====
section
/-! SUPPORT. What every operation keeps, whatever command runs it: the fused values, the queue, and the
canonical form of every store. `Good b s` says so of a state `s` that grew out of `b`; the files
Laws/Keep<Module>.lean give one lemma per operation. -/

namespace Sys2Proof.Machine

/-- `s` has the fuses and the queue of `b`, and is canonical. -/
def Good (b s : State) : Prop := s.fuse = b.fuse ∧ s.pending = b.pending ∧ Canonical s

theorem good_refl {s : State} (h : Canonical s) : Good s s := ⟨rfl, rfl, h⟩

/-- Any change beside the fuses, the queue and the stores. -/
theorem good_mk {b s : State} {fc : Nat} {out : Out} {sync : Sync} {tick : Tick} {mesh : List Xfer}
    {transit : List Run} {flt : Flt} {hall : Hall} {refresh : Refresh} {reduce : Reduce} {guest : Guest}
    {hearth : Hearth} {sns : SnsBus} {attic : Attic} {bu : Bringup} {hif : HostIf} :
    Good b ⟨s.pending, fc, out, s.fuse, s.counter, sync, tick, s.cores, mesh, transit, s.mem, flt, s.hist,
      s.ports, hall, refresh, s.rowMaps, s.secStop, s.chans, s.stks, s.pans, s.plans, s.secs, s.redirect,
      reduce, guest, hearth, sns, attic, bu, hif, s.regs, s.latch⟩ ↔ Good b s := Iff.rfl

theorem good_ite {b x y : State} {c : Prop} [Decidable c] (hx : Good b x) (hy : Good b y) :
    Good b (if c then x else y) := by
  by_cases hc : c
  · rw [if_pos hc]; exact hx
  · rw [if_neg hc]; exact hy

theorem good_foldl {α : Type} {b : State} {f : State → α → State} (hf : ∀ s a, Good b s → Good b (f s a)) :
    ∀ (l : List α) (s : State), Good b s → Good b (l.foldl f s)
  | [], _, h => h
  | a :: l, s, h => good_foldl hf l (f s a) (hf s a h)

theorem good_foldr {α : Type} {b : State} {f : α → State → State} (hf : ∀ a s, Good b s → Good b (f a s)) :
    ∀ (l : List α) (s : State), Good b s → Good b (l.foldr f s)
  | [], _, h => h
  | a :: l, s, h => hf a _ (good_foldr hf l s h)

theorem good_regs {b s : State} (m : SMap Nat) (h : Good b s) (hm : smWf 0 s.regs = true → smWf 0 m = true) :
    Good b { s with regs := m } := by
  obtain ⟨h0, h1, c1, c2, c3, c4, c5, c6, c7, c8, c9, c10, c11, c12, c13, c14, c15⟩ := h
  exact ⟨h0, h1, c1, hm c2, c3, c4, c5, c6, c7, c8, c9, c10, c11, c12, c13, c14, c15⟩

theorem good_mem {b s : State} (m : SMap Byte) (h : Good b s) (hm : smWf 0 s.mem = true → smWf 0 m = true) :
    Good b { s with mem := m } := by
  obtain ⟨h0, h1, c1, c2, c3, c4, c5, c6, c7, c8, c9, c10, c11, c12, c13, c14, c15⟩ := h
  exact ⟨h0, h1, hm c1, c2, c3, c4, c5, c6, c7, c8, c9, c10, c11, c12, c13, c14, c15⟩

theorem good_cores {b s : State} (m : SMap Core) (h : Good b s) (hm : smWf core0 s.cores = true → smWf core0 m = true) :
    Good b { s with cores := m } := by
  obtain ⟨h0, h1, c1, c2, c3, c4, c5, c6, c7, c8, c9, c10, c11, c12, c13, c14, c15⟩ := h
  exact ⟨h0, h1, c1, c2, hm c3, c4, c5, c6, c7, c8, c9, c10, c11, c12, c13, c14, c15⟩

theorem good_ports {b s : State} (m : SMap Port) (h : Good b s) (hm : smWf port0 s.ports = true → smWf port0 m = true) :
    Good b { s with ports := m } := by
  obtain ⟨h0, h1, c1, c2, c3, c4, c5, c6, c7, c8, c9, c10, c11, c12, c13, c14, c15⟩ := h
  exact ⟨h0, h1, c1, c2, c3, hm c4, c5, c6, c7, c8, c9, c10, c11, c12, c13, c14, c15⟩

theorem good_chans {b s : State} (m : SMap Chan) (h : Good b s) (hm : smWf chan0 s.chans = true → smWf chan0 m = true) :
    Good b { s with chans := m } := by
  obtain ⟨h0, h1, c1, c2, c3, c4, c5, c6, c7, c8, c9, c10, c11, c12, c13, c14, c15⟩ := h
  exact ⟨h0, h1, c1, c2, c3, c4, hm c5, c6, c7, c8, c9, c10, c11, c12, c13, c14, c15⟩

theorem good_stks {b s : State} (m : SMap Stack) (h : Good b s) (hm : smWf stack0 s.stks = true → smWf stack0 m = true) :
    Good b { s with stks := m } := by
  obtain ⟨h0, h1, c1, c2, c3, c4, c5, c6, c7, c8, c9, c10, c11, c12, c13, c14, c15⟩ := h
  exact ⟨h0, h1, c1, c2, c3, c4, c5, hm c6, c7, c8, c9, c10, c11, c12, c13, c14, c15⟩

theorem good_pans {b s : State} (m : SMap Pan) (h : Good b s) (hm : smWf pan0 s.pans = true → smWf pan0 m = true) :
    Good b { s with pans := m } := by
  obtain ⟨h0, h1, c1, c2, c3, c4, c5, c6, c7, c8, c9, c10, c11, c12, c13, c14, c15⟩ := h
  exact ⟨h0, h1, c1, c2, c3, c4, c5, c6, hm c7, c8, c9, c10, c11, c12, c13, c14, c15⟩

theorem good_hist {b s : State} (m : SMap Hist) (h : Good b s) (hm : smWf hist0 s.hist = true → smWf hist0 m = true) :
    Good b { s with hist := m } := by
  obtain ⟨h0, h1, c1, c2, c3, c4, c5, c6, c7, c8, c9, c10, c11, c12, c13, c14, c15⟩ := h
  exact ⟨h0, h1, c1, c2, c3, c4, c5, c6, c7, hm c8, c9, c10, c11, c12, c13, c14, c15⟩

theorem good_plans {b s : State} (m : SMap (Option Plan)) (h : Good b s)
    (hm : smWf none s.plans = true → smWf none m = true) : Good b { s with plans := m } := by
  obtain ⟨h0, h1, c1, c2, c3, c4, c5, c6, c7, c8, c9, c10, c11, c12, c13, c14, c15⟩ := h
  exact ⟨h0, h1, c1, c2, c3, c4, c5, c6, c7, c8, hm c9, c10, c11, c12, c13, c14, c15⟩

theorem good_secs {b s : State} (m : SMap (Option Sec)) (h : Good b s)
    (hm : smWf none s.secs = true → smWf none m = true) : Good b { s with secs := m } := by
  obtain ⟨h0, h1, c1, c2, c3, c4, c5, c6, c7, c8, c9, c10, c11, c12, c13, c14, c15⟩ := h
  exact ⟨h0, h1, c1, c2, c3, c4, c5, c6, c7, c8, c9, hm c10, c11, c12, c13, c14, c15⟩

theorem good_secStop {b s : State} (m : SMap Nat) (h : Good b s) (hm : smWf 0 s.secStop = true → smWf 0 m = true) :
    Good b { s with secStop := m } := by
  obtain ⟨h0, h1, c1, c2, c3, c4, c5, c6, c7, c8, c9, c10, c11, c12, c13, c14, c15⟩ := h
  exact ⟨h0, h1, c1, c2, c3, c4, c5, c6, c7, c8, c9, c10, hm c11, c12, c13, c14, c15⟩

theorem good_redirect {b s : State} (m : SMap Nat) (h : Good b s) (hm : smWf 0 s.redirect = true → smWf 0 m = true) :
    Good b { s with redirect := m } := by
  obtain ⟨h0, h1, c1, c2, c3, c4, c5, c6, c7, c8, c9, c10, c11, c12, c13, c14, c15⟩ := h
  exact ⟨h0, h1, c1, c2, c3, c4, c5, c6, c7, c8, c9, c10, c11, hm c12, c13, c14, c15⟩

theorem good_rowMaps {b s : State} (m : SMap (List Nat)) (h : Good b s)
    (hm : smWf [] s.rowMaps = true → smWf [] m = true) : Good b { s with rowMaps := m } := by
  obtain ⟨h0, h1, c1, c2, c3, c4, c5, c6, c7, c8, c9, c10, c11, c12, c13, c14, c15⟩ := h
  exact ⟨h0, h1, c1, c2, c3, c4, c5, c6, c7, c8, c9, c10, c11, c12, hm c13, c14, c15⟩

theorem good_latch {b s : State} (m : SMap (Option Nat)) (h : Good b s)
    (hm : smWf none s.latch = true → smWf none m = true) : Good b { s with latch := m } := by
  obtain ⟨h0, h1, c1, c2, c3, c4, c5, c6, c7, c8, c9, c10, c11, c12, c13, c14, c15⟩ := h
  exact ⟨h0, h1, c1, c2, c3, c4, c5, c6, c7, c8, c9, c10, c11, c12, c13, hm c14, c15⟩

theorem good_counter {b s : State} (n : Nat) (h : Good b s) (hn : n < 2 ^ 64) : Good b { s with counter := n } := by
  obtain ⟨h0, h1, c1, c2, c3, c4, c5, c6, c7, c8, c9, c10, c11, c12, c13, c14, c15⟩ := h
  exact ⟨h0, h1, c1, c2, c3, c4, c5, c6, c7, c8, c9, c10, c11, c12, c13, c14, hn⟩

end Sys2Proof.Machine
end

