-- ==== Sys2Proof/Laws/KeepOps.lean ====
section
/-! SUPPORT. The operations of Machine/Ops.lean keep the fuses, the queue and the canonical form. -/

set_option linter.unusedTactic false
set_option linter.unreachableTactic false
set_option linter.unusedSimpArgs false

namespace Sys2Proof.Machine

theorem setF_good {b : State} (s : State) (f : Fld) (v : Nat) (h : Good b s) : Good b (setF s f v) :=
  good_regs _ h (smSet_wf _ _ _ _)

theorem setB_good {b0 : State} (s : State) (f : Fld) (b : Bool) (h : Good b0 s) : Good b0 (setB s f b) := by
  unfold setB
  repeat' first
    | with_reducible assumption
    | with_reducible apply setF_good
    | with_reducible apply good_ite
    | split

theorem incSat_good {b : State} (s : State) (f : Fld) (n : Nat) (h : Good b s) : Good b (incSat s f n) := by
  unfold incSat
  repeat' first
    | with_reducible assumption
    | with_reducible apply setF_good

theorem peakF_good {b : State} (s : State) (f : Fld) (v : Nat) (h : Good b s) : Good b (peakF s f v) := by
  unfold peakF
  repeat' first
    | with_reducible assumption
    | with_reducible apply setF_good

theorem setFs_good {b : State} (l : List (Fld × Nat)) : ∀ (s : State), Good b s → Good b (setFs s l) := by
  induction l with
  | nil => intro s h; exact h
  | cons e l ih => intro s h; exact ih _ (setF_good _ _ _ h)

theorem resetF_good {b : State} (s : State) (f : Fld) (h : Good b s) : Good b (resetF s f) := by
  unfold resetF
  repeat' first
    | with_reducible assumption
    | with_reducible apply setF_good

theorem signal_good {b : State} (pg bit f : Nat) (s : State) (h : Good b s) : Good b (signal pg bit f s) := by
  unfold signal
  repeat' first
    | with_reducible assumption
    | simp only [good_mk]
    | with_reducible apply good_ite
    | dsimp only
    | split

theorem raise_good {b : State} (e : Ev) (s : State) (h : Good b s) : Good b (raise e s) := by
  unfold raise
  repeat' first
    | with_reducible assumption
    | with_reducible apply setF_good
    | with_reducible apply signal_good
    | simp only [good_mk]
    | with_reducible apply good_ite
    | dsimp only
    | split

theorem raiseSec_good {b : State} (n : Nat) (e : Ev) (s : State) (h : Good b s) : Good b (raiseSec n e s) := by
  unfold raiseSec
  repeat' first
    | with_reducible assumption
    | with_reducible apply signal_good
    | with_reducible apply raise_good

theorem raiseIf_good {b0 : State} (b : Bool) (e : Ev) (s : State) (h : Good b0 s) : Good b0 (raiseIf b e s) := by
  unfold raiseIf
  repeat' first
    | with_reducible assumption
    | with_reducible apply raise_good
    | with_reducible apply good_ite
    | split

theorem takeFree_good {b : State} (s : State) (h : Good b s) : Good b (takeFree s).2 := h

theorem setTop_good {b : State} (v : Nat) (s : State) (h : Good b s) : Good b (setTop v s) := by
  unfold setTop
  repeat' first
    | with_reducible assumption
    | with_reducible apply setF_good
    | with_reducible apply raise_good
    | with_reducible apply good_ite
    | split

theorem noteRoot_good {b : State} (rootWritten : Bool) (s0 s : State) (h : Good b s) : Good b (noteRoot rootWritten s0 s) := by
  unfold noteRoot
  repeat' first
    | with_reducible assumption
    | with_reducible apply raiseIf_good
    | with_reducible apply setB_good
    | intro _
    | simp only [good_mk]
    | with_reducible apply good_ite
    | dsimp only
    | split

theorem setLaunch_good {b : State} (v : Nat) (s : State) (h : Good b s) : Good b (setLaunch v s) := by
  unfold setLaunch
  repeat' first
    | with_reducible assumption
    | with_reducible apply setF_good

theorem updCore_good {b : State} (s : State) (c : Nat) (f : Core → Core) (h : Good b s) : Good b (updCore s c f) :=
  good_cores _ h (smUpd_wf _ _ _ _)

theorem setCore_good {b : State} (s : State) (c : Nat) (v : Core) (h : Good b s) : Good b (setCore s c v) :=
  good_cores _ h (smSet_wf _ _ _ _)

theorem mapCores_good {b : State} (f : Nat → Core → Core) (s : State) (h : Good b s) : Good b (mapCores f s) :=
  good_cores _ h (smMap_wf _ _ _)

theorem updPort_good {b : State} (s : State) (p : Nat) (f : Port → Port) (h : Good b s) : Good b (updPort s p f) :=
  good_ports _ h (smUpd_wf _ _ _ _)

theorem countOn_good {b : State} (s : State) (h : Good b s) : Good b (countOn s) :=
  good_counter _ h (Nat.mod_lt _ (by decide))

theorem idle_good {b : State} (s : State) (h : Good b s) : Good b (idle s) := by
  unfold idle
  repeat' first
    | with_reducible assumption
    | with_reducible apply countOn_good
    | intro _
    | simp only [good_mk]
    | with_reducible apply good_ite
    | dsimp only
    | split

theorem wrMems_good {b : State} (s : State) (a : Nat) (bs : List Byte) (h : Good b s) : Good b (wrMems s a bs) :=
  good_mem _ h (smSetList_wf _ _ _ _)

theorem updChan_good {b : State} (s : State) (c : Nat) (f : Chan → Chan) (h : Good b s) : Good b (updChan s c f) :=
  good_chans _ h (smUpd_wf _ _ _ _)

theorem mapChans_good {b : State} (f : Chan → Chan) (s : State) (h : Good b s) : Good b (mapChans f s) :=
  good_chans _ h (smMap_wf _ _ _)

theorem updStk_good {b : State} (s : State) (k : Nat) (f : Stack → Stack) (h : Good b s) : Good b (updStk s k f) :=
  good_stks _ h (smUpd_wf _ _ _ _)

theorem updPan_good {b : State} (s : State) (k : Nat) (f : Pan → Pan) (h : Good b s) : Good b (updPan s k f) :=
  good_pans _ h (smUpd_wf _ _ _ _)

end Sys2Proof.Machine
end

