-- ==== Sys2Proof/Laws/KeepNet.lean ====
section
/-! SUPPORT. The operations of Machine/Net.lean keep the fuses, the queue and the canonical form. -/

set_option linter.unusedTactic false
set_option linter.unreachableTactic false
set_option linter.unusedSimpArgs false

namespace Sys2Proof.Machine

theorem queueSync_good {b : State} (p : Nat) (f : Frame) (s : State) (h : Good b s) : Good b (queueSync p f s) := by
  unfold queueSync
  repeat' first
    | with_reducible assumption
    | with_reducible apply updPort_good
    | simp only [good_mk]
    | dsimp only

theorem queueCtrl_good {b : State} (p : Nat) (f : Frame) (s : State) (h : Good b s) : Good b (queueCtrl p f s) := by
  unfold queueCtrl
  repeat' first
    | with_reducible assumption
    | with_reducible apply updPort_good
    | simp only [good_mk]
    | dsimp only

theorem queueSyncs_good {b : State} (f : Frame) (s : State) (ps : List Nat) (h : Good b s) : Good b (queueSyncs f s ps) := by
  unfold queueSyncs
  repeat' first
    | with_reducible assumption
    | with_reducible apply queueSync_good
    | with_reducible apply good_foldl
    | intro _
    | dsimp only

theorem broadcast_good {b : State} (kind : Nat) (payload : List Byte) (s : State) (h : Good b s) : Good b (broadcast kind payload s) := by
  unfold broadcast
  repeat' first
    | with_reducible assumption
    | with_reducible apply queueSyncs_good

theorem syncTo_good {b : State} (kind dst : Nat) (payload : List Byte) (s : State) (h : Good b s) : Good b (syncTo kind dst payload s) := by
  unfold syncTo
  repeat' first
    | with_reducible assumption
    | with_reducible apply queueSync_good
    | simp only [good_mk]
    | dsimp only
    | split

end Sys2Proof.Machine
end

