-- ==== Sys2Proof/Laws/KeepAtticQ.lean ====
section
/-! SUPPORT. The operations of Machine/AtticQ.lean keep the fuses, the queue and the canonical form. -/

set_option linter.unusedTactic false
set_option linter.unreachableTactic false
set_option linter.unusedSimpArgs false

namespace Sys2Proof.Machine

theorem showAttic_good {b : State} (s : State) (h : Good b s) : Good b (showAttic s) := by
  unfold showAttic
  repeat' first
    | with_reducible assumption
    | with_reducible apply setFs_good

theorem syncLess_good {b : State} (r : Nat) (s : State) (h : Good b s) : Good b (syncLess r s) := by
  unfold syncLess
  repeat' first
    | with_reducible assumption
    | with_reducible apply raise_good
    | with_reducible apply good_foldl
    | intro _
    | simp only [good_mk]
    | dsimp only
    | split

theorem atticNext_good {b : State} (l : List (Nat × List Nat)) : ∀ (s : State), Good b s → Good b (atticNext l s) := by
  induction l with
  | nil => intro s h; exact h
  | cons e l ih =>
    intro s h
    unfold atticNext
    split
    · exact ih _ (syncLess_good _ _ (raise_good _ _ (setB_good _ _ _ h)))
    · exact h

theorem enqueue_good {b : State} (r : Nat) (clr : Bool) (s : State) (h : Good b s) : Good b (enqueue r clr s) := by
  unfold enqueue
  repeat' first
    | with_reducible assumption
    | simp only [good_mk]
    | with_reducible apply good_ite
    | dsimp only
    | split

theorem atticGo_good {b : State} (s : State) (h : Good b s) : Good b (atticGo s) := by
  unfold atticGo
  repeat' first
    | with_reducible assumption
    | with_reducible apply showAttic_good
    | with_reducible apply atticNext_good
    | with_reducible apply good_ite
    | split

theorem queueReq_good {b : State} (r : Nat) (clr : Bool) (s : State) (h : Good b s) : Good b (queueReq r clr s) := by
  unfold queueReq
  repeat' first
    | with_reducible assumption
    | with_reducible apply enqueue_good
    | with_reducible apply atticGo_good

theorem queueRec_good {b : State} (r : Nat) (s : State) (h : Good b s) : Good b (queueRec r s) := by
  unfold queueRec
  repeat' first
    | with_reducible assumption
    | with_reducible apply queueReq_good

theorem commitRec_good {b : State} (s : State) (h : Good b s) : Good b (commitRec s) := by
  unfold commitRec
  repeat' first
    | with_reducible assumption
    | with_reducible apply setF_good
    | with_reducible apply showAttic_good
    | with_reducible apply syncLess_good
    | with_reducible apply atticNext_good
    | simp only [good_mk]
    | dsimp only
    | split

end Sys2Proof.Machine
end

