-- ==== Sys2Proof/Laws/KeepFlags.lean ====
section
/-! SUPPORT. The operations of Machine/Flags.lean keep the fuses, the queue and the canonical form. -/

set_option linter.unusedTactic false
set_option linter.unreachableTactic false
set_option linter.unusedSimpArgs false

namespace Sys2Proof.Machine

theorem logEntry_good {b : State} (r : FaultRec) (recur : Bool) (s : State) (h : Good b s) : Good b (logEntry r recur s) := by
  unfold logEntry
  repeat' first
    | with_reducible assumption
    | with_reducible apply setF_good
    | with_reducible apply raise_good
    | with_reducible apply idle_good
    | simp only [good_mk]
    | with_reducible apply good_ite
    | dsimp only
    | split

theorem logOnly_good {b : State} (code unit unitId cyc detail : Nat) (s : State) (h : Good b s) : Good b (logOnly code unit unitId cyc detail s) := by
  unfold logOnly
  repeat' first
    | with_reducible assumption
    | with_reducible apply logEntry_good

theorem markPermanent_good {b : State} (unit id : Nat) (s : State) (h : Good b s) : Good b (markPermanent unit id s) := by
  unfold markPermanent
  repeat' first
    | with_reducible assumption
    | with_reducible apply setB_good
    | with_reducible apply raise_good
    | with_reducible apply queueRec_good
    | with_reducible apply logOnly_good
    | refine good_hist _ ?_ (smUpd_wf _ _ _ _)
    | simp only [good_mk]
    | with_reducible apply good_ite
    | dsimp only
    | split

theorem histEvent_good {b : State} (unit id : Nat) (s : State) (h : Good b s) : Good b (histEvent unit id s) := by
  unfold histEvent
  repeat' first
    | with_reducible assumption
    | with_reducible apply setF_good
    | with_reducible apply queueRec_good
    | with_reducible apply markPermanent_good
    | refine good_hist _ ?_ (smSet_wf _ _ _ _)
    | simp only [good_mk]
    | with_reducible apply good_ite
    | dsimp only
    | split

theorem fenceUnit_good {b : State} (unit id : Nat) (s : State) (h : Good b s) : Good b (fenceUnit unit id s) := by
  unfold fenceUnit
  repeat' first
    | with_reducible assumption
    | with_reducible apply setF_good
    | with_reducible apply setB_good
    | with_reducible apply updCore_good
    | simp only [good_mk]
    | dsimp only
    | split

theorem goFlagged_good {b : State} (s : State) (h : Good b s) : Good b (goFlagged s) := by
  unfold goFlagged
  repeat' first
    | with_reducible assumption
    | with_reducible apply raise_good
    | with_reducible apply setTop_good
    | with_reducible apply good_ite
    | split

theorem recordFlag_good {b : State} (cause seq : Nat) (s : State) (h : Good b s) : Good b (recordFlag cause seq s) := by
  unfold recordFlag
  repeat' first
    | with_reducible assumption
    | with_reducible apply setFs_good
    | with_reducible apply good_ite
    | split

theorem idleFlag_good {b : State} (cause : Nat) (s : State) (h : Good b s) : Good b (idleFlag cause s) := by
  unfold idleFlag
  repeat' first
    | with_reducible assumption
    | with_reducible apply goFlagged_good
    | with_reducible apply good_ite
    | split

theorem faultDrain_good {b : State} (s : State) (h : Good b s) : Good b (faultDrain s) := by
  unfold faultDrain
  repeat' first
    | with_reducible assumption
    | simp only [good_mk]
    | dsimp only

theorem enterDrain_good {b : State} (planned : Bool) (s : State) (h : Good b s) : Good b (enterDrain planned s) := by
  unfold enterDrain
  repeat' first
    | with_reducible assumption
    | intro _
    | simp only [good_mk]
    | with_reducible apply good_ite
    | dsimp only
    | split

theorem recordOverrun_good {b : State} (pkg cause : Nat) (s : State) (h : Good b s) : Good b (recordOverrun pkg cause s) := by
  unfold recordOverrun
  repeat' first
    | with_reducible assumption
    | with_reducible apply setFs_good
    | with_reducible apply raise_good
    | with_reducible apply logOnly_good
    | with_reducible apply enterDrain_good
    | with_reducible apply good_ite
    | dsimp only
    | split

theorem declareOverrun_good {b : State} (cause : Nat) (s : State) (h : Good b s) : Good b (declareOverrun cause s) := by
  unfold declareOverrun
  repeat' first
    | with_reducible assumption
    | with_reducible apply broadcast_good
    | with_reducible apply recordOverrun_good
    | with_reducible apply good_ite
    | dsimp only
    | split


theorem onGuest_good {b : State} (f : Guest → Guest) (s : State) (h : Good b s) : Good b (onGuest f s) := by
  unfold onGuest
  repeat' first
    | with_reducible assumption
    | simp only [good_mk]
    | dsimp only

theorem undoGuest_good {b : State} (s : State) (h : Good b s) : Good b (undoGuest s) := by
  unfold undoGuest
  repeat' first
    | with_reducible assumption
    | with_reducible apply onGuest_good
    | with_reducible apply wrMems_good
    | with_reducible apply good_foldr
    | intro _
    | simp only [good_mk]
    | with_reducible apply good_ite
    | dsimp only
    | split

theorem redoGuest_good {b : State} (s : State) (h : Good b s) : Good b (redoGuest s) := by
  unfold redoGuest
  repeat' first
    | with_reducible assumption
    | with_reducible apply onGuest_good
    | with_reducible apply wrMems_good
    | with_reducible apply good_foldl
    | intro _
    | simp only [good_mk]
    | with_reducible apply good_ite
    | dsimp only
    | split

theorem serveWrite_good {b : State} (pa : Nat) (bs : List Byte) (s : State) (h : Good b s) : Good b (serveWrite pa bs s) := by
  unfold serveWrite
  repeat' first
    | with_reducible assumption
    | with_reducible apply onGuest_good
    | with_reducible apply wrMems_good
    | intro _
    | simp only [good_mk]
    | with_reducible apply good_ite
    | dsimp only
    | split

theorem settleGuest_good {b : State} (s : State) (h : Good b s) : Good b (settleGuest s) := by
  unfold settleGuest
  repeat' first
    | with_reducible assumption
    | with_reducible apply onGuest_good
    | with_reducible apply redoGuest_good
    | intro _
    | simp only [good_mk]
    | with_reducible apply good_ite
    | dsimp only
    | split

theorem addDebt_good {b : State} (ns : Nat) (s : State) (h : Good b s) : Good b (addDebt ns s) := by
  unfold addDebt
  repeat' first
    | with_reducible assumption
    | simp only [good_mk]
    | dsimp only

theorem applyStretch_good {b : State} (s : State) (h : Good b s) : Good b (applyStretch s) := by
  unfold applyStretch
  repeat' first
    | with_reducible assumption
    | with_reducible apply addDebt_good
    | with_reducible apply incSat_good
    | with_reducible apply raise_good
    | with_reducible apply setF_good
    | with_reducible apply setLaunch_good
    | with_reducible apply undoGuest_good
    | intro _
    | simp only [good_mk]
    | with_reducible apply good_ite
    | dsimp only
    | split

theorem needStretch_good {b : State} (s : State) (h : Good b s) : Good b (needStretch s) := by
  unfold needStretch
  repeat' first
    | with_reducible assumption
    | with_reducible apply broadcast_good
    | with_reducible apply declareOverrun_good
    | with_reducible apply applyStretch_good
    | simp only [good_mk]
    | with_reducible apply good_ite
    | dsimp only
    | split

theorem postpone_good {b : State} (s : State) (h : Good b s) : Good b (postpone s) := by
  unfold postpone
  repeat' first
    | with_reducible assumption
    | with_reducible apply setB_good
    | with_reducible apply incSat_good
    | with_reducible apply raise_good
    | with_reducible apply setLaunch_good
    | with_reducible apply addDebt_good
    | simp only [good_mk]
    | with_reducible apply good_ite
    | dsimp only
    | split

theorem restartSums_good {b : State} (src : Nat) (s : State) (h : Good b s) : Good b (restartSums src s) := by
  unfold restartSums
  repeat' first
    | with_reducible assumption
    | simp only [good_mk]
    | dsimp only

theorem dropSource_good {b : State} (src tick : Nat) (s : State) (h : Good b s) : Good b (dropSource src tick s) := by
  unfold dropSource
  repeat' first
    | with_reducible assumption
    | with_reducible apply incSat_good
    | with_reducible apply restartSums_good
    | simp only [good_mk]
    | with_reducible apply good_ite
    | dsimp only
    | split

theorem quiesce_good {b : State} (why : Option (Nat × Nat)) (s : State) (h : Good b s) : Good b (quiesce why s) := by
  unfold quiesce
  repeat' first
    | with_reducible assumption
    | simp only [good_mk]
    | with_reducible apply good_ite
    | dsimp only
    | split

theorem withdraw_good {b : State} (why : Option (Nat × Nat)) (s : State) (h : Good b s) : Good b (withdraw why s) := by
  unfold withdraw
  repeat' first
    | with_reducible assumption
    | with_reducible apply declareOverrun_good
    | with_reducible apply postpone_good
    | with_reducible apply quiesce_good
    | intro _
    | simp only [good_mk]
    | with_reducible apply good_ite
    | dsimp only
    | split

theorem sendVoid_good {b : State} (src tick : Nat) (s : State) (h : Good b s) : Good b (sendVoid src tick s) := by
  unfold sendVoid
  repeat' first
    | with_reducible assumption
    | with_reducible apply broadcast_good
    | intro _
    | simp only [good_mk]
    | with_reducible apply good_ite
    | dsimp only
    | split

theorem voidSelf_good {b : State} (why : Option (Nat × Nat)) (s : State) (h : Good b s) : Good b (voidSelf why s) := by
  unfold voidSelf
  repeat' first
    | with_reducible assumption
    | with_reducible apply sendVoid_good
    | with_reducible apply withdraw_good
    | intro _
    | simp only [good_mk]
    | with_reducible apply good_ite
    | dsimp only
    | split

theorem voidOther_good {b : State} (why : Option (Nat × Nat)) (src tick : Nat) (s : State) (h : Good b s) : Good b (voidOther why src tick s) := by
  unfold voidOther
  repeat' first
    | with_reducible assumption
    | with_reducible apply dropSource_good
    | with_reducible apply postpone_good
    | with_reducible apply sendVoid_good
    | with_reducible apply voidSelf_good
    | intro _
    | simp only [good_mk]
    | with_reducible apply good_ite
    | dsimp only
    | split

theorem logFault_good {b : State} (r : FaultRec) (s : State) (h : Good b s) : Good b (logFault r s) := by
  unfold logFault
  repeat' first
    | with_reducible assumption
    | with_reducible apply histEvent_good
    | with_reducible apply logEntry_good
    | with_reducible apply markPermanent_good
    | intro _
    | simp only [good_mk]
    | with_reducible apply good_ite
    | dsimp only
    | split

theorem setSuspect_good {b : State} (s : State) (h : Good b s) : Good b (setSuspect s) := by
  unfold setSuspect
  repeat' first
    | with_reducible assumption
    | with_reducible apply queueRec_good
    | with_reducible apply raise_good
    | with_reducible apply setB_good
    | intro _
    | simp only [good_mk]
    | with_reducible apply good_ite
    | dsimp only
    | split

theorem silentError_good {b : State} (seq : Nat) (s : State) (h : Good b s) : Good b (silentError seq s) := by
  unfold silentError
  repeat' first
    | with_reducible assumption
    | with_reducible apply faultDrain_good
    | with_reducible apply recordFlag_good
    | with_reducible apply setSuspect_good
    | intro _
    | simp only [good_mk]
    | with_reducible apply good_ite
    | dsimp only
    | split

theorem faultOutcome_good {b : State} (r : FaultRec) (recur : Bool) (seq : Nat) (s : State) (h : Good b s) : Good b (faultOutcome r recur seq s) := by
  unfold faultOutcome
  repeat' first
    | with_reducible assumption
    | with_reducible apply boundary_good
    | with_reducible apply declareOverrun_good
    | with_reducible apply faultDrain_good
    | with_reducible apply fenceUnit_good
    | with_reducible apply idle_good
    | with_reducible apply idleFlag_good
    | with_reducible apply markPermanent_good
    | with_reducible apply recordFlag_good
    | with_reducible apply silentError_good
    | with_reducible apply voidSelf_good
    | refine good_secStop _ ?_ (smSet_wf _ _ _ _)
    | intro _
    | simp only [good_mk]
    | with_reducible apply good_ite
    | dsimp only
    | split

theorem logAll_good {b : State} (l : List FaultRec) : ∀ (s : State), Good b s → Good b (logAll l s).1 := by
  induction l with
  | nil => intro s h; exact h
  | cons r l ih => intro s h; exact ih _ (logFault_good _ _ h)

theorem takeFaults_good {b : State} (rs : List FaultRec) (s : State) (h : Good b s) : Good b (takeFaults rs s) := by
  unfold takeFaults
  repeat' first
    | with_reducible assumption
    | with_reducible apply faultOutcome_good
    | with_reducible apply logAll_good
    | intro _
    | simp only [good_mk]
    | with_reducible apply good_ite
    | dsimp only
    | split

theorem takeFault_good {b : State} (r : FaultRec) (s : State) (h : Good b s) : Good b (takeFault r s) := by
  unfold takeFault
  repeat' first
    | with_reducible assumption
    | with_reducible apply takeFaults_good

theorem sourceFault_good {b : State} (r : FaultRec) (srcs : List (Nat × Nat)) (s : State) (h : Good b s) : Good b (sourceFault r srcs s) := by
  unfold sourceFault
  repeat' first
    | with_reducible assumption
    | with_reducible apply logFault_good
    | with_reducible apply takeFault_good
    | with_reducible apply voidOther_good
    | with_reducible apply good_foldl
    | intro _
    | simp only [good_mk]
    | with_reducible apply good_ite
    | dsimp only
    | split

end Sys2Proof.Machine
end

