-- ==== Sys2Proof/Laws/KeepEngine.lean ====
section
/-! SUPPORT. The operations of Machine/Engine.lean keep the fuses, the queue and the canonical form. -/

set_option linter.unusedTactic false
set_option linter.unreachableTactic false
set_option linter.unusedSimpArgs false

namespace Sys2Proof.Machine

theorem semSync_good {b : State} (c cyc : Nat) (s : State) (h : Good b s) : Good b (semSync c cyc s) := by
  unfold semSync
  repeat' first
    | with_reducible assumption
    | with_reducible apply updCore_good
    | with_reducible apply takeFaults_good
    | with_reducible apply good_ite
    | dsimp only
    | split

theorem semAdd_good {b : State} (c cyc key : Nat) (n : Int) (s : State) (h : Good b s) : Good b (semAdd c cyc key n s) := by
  unfold semAdd
  repeat' first
    | with_reducible assumption
    | with_reducible apply updCore_good
    | with_reducible apply semSync_good
    | simp only [good_mk]
    | dsimp only

theorem usedFree_good {b : State} (lost : List Nat) (s : State) (h : Good b s) : Good b (usedFree lost s) := by
  unfold usedFree
  repeat' first
    | with_reducible assumption
    | simp only [good_mk]
    | with_reducible apply good_ite
    | dsimp only
    | split

theorem stopEngine_good {b : State} (c e : Nat) (s : State) (h : Good b s) : Good b (stopEngine c e s) := by
  unfold stopEngine
  repeat' first
    | with_reducible assumption
    | with_reducible apply updCore_good
    | simp only [good_mk]
    | dsimp only

theorem judgeDie_good {b : State} (d cyc : Nat) (s : State) (h : Good b s) : Good b (judgeDie d cyc s) := by
  unfold judgeDie
  repeat' first
    | with_reducible assumption
    | with_reducible apply logOnly_good
    | with_reducible apply raise_good
    | with_reducible apply setB_good
    | intro _
    | simp only [good_mk]
    | with_reducible apply good_ite
    | dsimp only
    | split

theorem lapse_good {b : State} (l cyc : Nat) (s : State) (h : Good b s) : Good b (lapse l cyc s) := by
  unfold lapse
  repeat' first
    | with_reducible assumption
    | with_reducible apply judgeDie_good
    | with_reducible apply setF_good
    | with_reducible apply updCore_good
    | intro _
    | simp only [good_mk]
    | with_reducible apply good_ite
    | dsimp only
    | split

theorem endInbound_good {b : State} (l cyc : Nat) (s : State) (h : Good b s) : Good b (endInbound l cyc s) := by
  unfold endInbound
  repeat' first
    | with_reducible assumption
    | with_reducible apply updCore_good
    | intro _
    | simp only [good_mk]
    | with_reducible apply good_ite
    | dsimp only
    | split

theorem illegalOp_good {b : State} (c cyc : Nat) (s : State) (h : Good b s) : Good b (illegalOp c cyc s) := by
  unfold illegalOp
  repeat' first
    | with_reducible assumption
    | with_reducible apply takeFault_good

theorem issued_good {b : State} (i : Issue) (w : Nat) (s : State) (h : Good b s) : Good b (issued i w s) := by
  unfold issued
  repeat' first
    | with_reducible assumption
    | with_reducible apply incSat_good
    | with_reducible apply updCore_good
    | simp only [good_mk]
    | with_reducible apply good_ite
    | dsimp only
    | split

theorem issueOp_good {b : State} (i : Issue) (op : Nat) (eff : Nat → Nat → State → State) (s : State) (h_eff : ∀ (z0 : Nat) (z1 : Nat) (s : State), Good b s → Good b (eff z0 z1 s)) (h : Good b s) : Good b (issueOp i op eff s) := by
  unfold issueOp
  repeat' first
    | with_reducible assumption
    | with_reducible apply h_eff
    | with_reducible apply takeFault_good
    | with_reducible apply stopEngine_good
    | with_reducible apply illegalOp_good
    | with_reducible apply issued_good
    | with_reducible apply good_ite
    | dsimp only
    | split

theorem holdFor_good {b : State} (i : Issue) (n : Nat) (s : State) (h : Good b s) : Good b (holdFor i n s) := by
  unfold holdFor
  repeat' first
    | with_reducible assumption
    | with_reducible apply updCore_good
    | simp only [good_mk]
    | dsimp only

theorem completes_good {b : State} (i : Issue) (w due : Nat) (s : State) (h : Good b s) : Good b (completes i w due s) := by
  unfold completes
  repeat' first
    | with_reducible assumption
    | with_reducible apply updCore_good
    | simp only [good_mk]
    | dsimp only

theorem completesWith_good {b : State} (i : Issue) (w stack tick seq : Nat) (s : State) (h : Good b s) : Good b (completesWith i w stack tick seq s) := by
  unfold completesWith
  repeat' first
    | with_reducible assumption
    | with_reducible apply updCore_good
    | simp only [good_mk]
    | dsimp only

theorem chargeAcc_good {b : State} (i : Issue) (s : State) (h : Good b s) : Good b (chargeAcc i s) := by
  unfold chargeAcc
  repeat' first
    | with_reducible assumption
    | with_reducible apply takeFaults_good
    | intro _
    | simp only [good_mk]
    | with_reducible apply good_ite
    | dsimp only
    | split

theorem orStall_good {b : State} (i : Issue) (w x first : Nat) (eff : State → State) (s : State) (h_eff : ∀  (s : State), Good b s → Good b (eff s)) (h : Good b s) : Good b (orStall i w x first eff s) := by
  unfold orStall
  repeat' first
    | with_reducible assumption
    | with_reducible apply h_eff
    | with_reducible apply chargeAcc_good
    | with_reducible apply updCore_good
    | intro _
    | simp only [good_mk]
    | with_reducible apply good_ite
    | dsimp only
    | split

theorem onCore_good {b : State} (i : Issue) (f : Core → Core) (s : State) (h : Good b s) : Good b (onCore i f s) := by
  unfold onCore
  repeat' first
    | with_reducible assumption
    | with_reducible apply updCore_good

theorem nopEff_good {b : State} (i : Issue) (w _x : Nat) (s : State) (h : Good b s) : Good b (nopEff i w _x s) := by
  unfold nopEff
  repeat' first
    | with_reducible assumption
    | with_reducible apply holdFor_good
    | with_reducible apply completes_good
    | dsimp only

theorem execNop_good {b t : State} (i : Issue) (s : State) (h : Good b s)
    (e : execNop i s = .next t) : Good b t := by
  unfold execNop at e
  injection e with e
  subst e
  repeat' first
    | with_reducible assumption
    | with_reducible apply issueOp_good
    | with_reducible apply nopEff_good
    | intro _

theorem waitTry_good {b : State} (c e cyc sem n : Nat) (take p : Bool) (ps : Nat) (s : State) (h : Good b s) : Good b (waitTry c e cyc sem n take p ps s) := by
  unfold waitTry
  repeat' first
    | with_reducible assumption
    | with_reducible apply lapse_good
    | with_reducible apply semSync_good
    | with_reducible apply updCore_good
    | intro _
    | simp only [good_mk]
    | with_reducible apply good_ite
    | dsimp only
    | split

theorem waitEff_good {b : State} (i : Issue) (w _x : Nat) (s : State) (h : Good b s) : Good b (waitEff i w _x s) := by
  unfold waitEff
  repeat' first
    | with_reducible assumption
    | with_reducible apply waitTry_good

theorem execWait_good {b t : State} (i : Issue) (s : State) (h : Good b s)
    (e : execWait i s = .next t) : Good b t := by
  unfold execWait at e
  injection e with e
  subst e
  repeat' first
    | with_reducible assumption
    | with_reducible apply issueOp_good
    | with_reducible apply waitEff_good
    | intro _

theorem execWaitGrant_good {b t : State} (c : CoreId) (e : Engine) (cyc : Nat) (s : State) (h : Good b s)
    (he : execWaitGrant c e cyc s = .next t) : Good b t := by
  unfold execWaitGrant at he
  injection he with he
  subst he
  repeat' first
    | with_reducible assumption
    | with_reducible apply waitTry_good
    | simp only [good_mk]
    | with_reducible apply good_ite
    | dsimp only
    | split

theorem saddEff_good {b : State} (i : Issue) (w _x : Nat) (s : State) (h : Good b s) : Good b (saddEff i w _x s) := by
  unfold saddEff
  repeat' first
    | with_reducible assumption
    | with_reducible apply semAdd_good
    | with_reducible apply completes_good
    | dsimp only

theorem execSadd_good {b t : State} (i : Issue) (s : State) (h : Good b s)
    (e : execSadd i s = .next t) : Good b t := by
  unfold execSadd at e
  injection e with e
  subst e
  repeat' first
    | with_reducible assumption
    | with_reducible apply issueOp_good
    | with_reducible apply saddEff_good
    | intro _

theorem ssubEff_good {b : State} (i : Issue) (w _x : Nat) (s : State) (h : Good b s) : Good b (ssubEff i w _x s) := by
  unfold ssubEff
  repeat' first
    | with_reducible assumption
    | with_reducible apply semAdd_good
    | with_reducible apply completes_good
    | dsimp only

theorem execSsub_good {b t : State} (i : Issue) (s : State) (h : Good b s)
    (e : execSsub i s = .next t) : Good b t := by
  unfold execSsub at e
  injection e with e
  subst e
  repeat' first
    | with_reducible assumption
    | with_reducible apply issueOp_good
    | with_reducible apply ssubEff_good
    | intro _

theorem tendEff_good {b : State} (i : Issue) (w _x : Nat) (s : State) (h : Good b s) : Good b (tendEff i w _x s) := by
  unfold tendEff
  repeat' first
    | with_reducible assumption
    | with_reducible apply completes_good
    | with_reducible apply judgeDie_good
    | with_reducible apply onCore_good
    | intro _
    | simp only [good_mk]
    | with_reducible apply good_ite
    | dsimp only
    | split

theorem execTend_good {b t : State} (i : Issue) (s : State) (h : Good b s)
    (e : execTend i s = .next t) : Good b t := by
  unfold execTend at e
  injection e with e
  subst e
  repeat' first
    | with_reducible assumption
    | with_reducible apply issueOp_good
    | with_reducible apply tendEff_good
    | intro _

theorem haltEff_good {b : State} (i : Issue) (w _x : Nat) (s : State) (h : Good b s) : Good b (haltEff i w _x s) := by
  unfold haltEff
  repeat' first
    | with_reducible assumption
    | with_reducible apply completes_good
    | with_reducible apply judgeDie_good
    | with_reducible apply onCore_good
    | intro _
    | simp only [good_mk]
    | with_reducible apply good_ite
    | dsimp only
    | split

theorem execHalt_good {b t : State} (i : Issue) (s : State) (h : Good b s)
    (e : execHalt i s = .next t) : Good b t := by
  unfold execHalt at e
  injection e with e
  subst e
  repeat' first
    | with_reducible assumption
    | with_reducible apply issueOp_good
    | with_reducible apply haltEff_good
    | intro _

theorem fmtEff_good {b : State} (i : Issue) (w _x : Nat) (s : State) (h : Good b s) : Good b (fmtEff i w _x s) := by
  unfold fmtEff
  repeat' first
    | with_reducible assumption
    | with_reducible apply takeFault_good
    | with_reducible apply completes_good
    | with_reducible apply onCore_good
    | simp only [good_mk]
    | with_reducible apply good_ite
    | dsimp only
    | split

theorem execFmt_good {b t : State} (i : Issue) (s : State) (h : Good b s)
    (e : execFmt i s = .next t) : Good b t := by
  unfold execFmt at e
  injection e with e
  subst e
  repeat' first
    | with_reducible assumption
    | with_reducible apply issueOp_good
    | with_reducible apply fmtEff_good
    | intro _

theorem tstEff_good {b : State} (i : Issue) (w _x : Nat) (s : State) (h : Good b s) : Good b (tstEff i w _x s) := by
  unfold tstEff
  repeat' first
    | with_reducible assumption
    | with_reducible apply holdFor_good
    | with_reducible apply completes_good
    | dsimp only

theorem execTst_good {b t : State} (i : Issue) (s : State) (h : Good b s)
    (e : execTst i s = .next t) : Good b t := by
  unfold execTst at e
  injection e with e
  subst e
  repeat' first
    | with_reducible assumption
    | with_reducible apply issueOp_good
    | with_reducible apply tstEff_good
    | intro _

theorem execInstructionComplete_good {b t : State} (c : CoreId) (e : Engine) (cyc : Nat) (s : State) (h : Good b s)
    (he : execInstructionComplete c e cyc s = .next t) : Good b t := by
  unfold execInstructionComplete at he
  injection he with he
  subst he
  repeat' first
    | with_reducible assumption
    | with_reducible apply updCore_good
    | with_reducible apply semAdd_good
    | simp only [good_mk]
    | with_reducible apply good_ite
    | dsimp only
    | split

end Sys2Proof.Machine
end

