-- ==== Sys2Proof/Laws/KeepArray.lean ====
section
/-! SUPPORT. The operations of Machine/Array.lean keep the fuses, the queue and the canonical form. -/

set_option linter.unusedTactic false
set_option linter.unreachableTactic false
set_option linter.unusedSimpArgs false

namespace Sys2Proof.Machine

theorem arrayHazard_good {b : State} (i : Issue) (s : State) (h : Good b s) : Good b (arrayHazard i s) := by
  unfold arrayHazard
  repeat' first
    | with_reducible assumption
    | with_reducible apply takeFault_good

theorem usedOver_good {b : State} (beyond : Bool) (s : State) (h : Good b s) : Good b (usedOver beyond s) := by
  unfold usedOver
  repeat' first
    | with_reducible assumption
    | with_reducible apply usedFree_good
    | intro _
    | simp only [good_mk]
    | with_reducible apply good_ite
    | dsimp only
    | split

theorem ldwLoad_good {b : State} (i : Issue) (w : Nat) (s : State) (h : Good b s) : Good b (ldwLoad i w s) := by
  unfold ldwLoad
  repeat' first
    | with_reducible assumption
    | with_reducible apply chargeAcc_good
    | with_reducible apply completes_good
    | with_reducible apply onCore_good
    | with_reducible apply usedOver_good
    | intro _
    | simp only [good_mk]
    | with_reducible apply good_ite
    | dsimp only
    | split

theorem ldwEff_good {b : State} (i : Issue) (w x : Nat) (s : State) (h : Good b s) : Good b (ldwEff i w x s) := by
  unfold ldwEff
  repeat' first
    | with_reducible assumption
    | with_reducible apply arrayHazard_good
    | with_reducible apply ldwLoad_good
    | with_reducible apply onCore_good
    | intro _
    | simp only [good_mk]
    | with_reducible apply good_ite
    | dsimp only
    | split

theorem execLdw_good {b t : State} (i : Issue) (s : State) (h : Good b s)
    (e : execLdw i s = .next t) : Good b t := by
  unfold execLdw at e
  injection e with e
  subst e
  repeat' first
    | with_reducible assumption
    | with_reducible apply issueOp_good
    | with_reducible apply ldwEff_good
    | intro _

theorem swwEff_good {b : State} (i : Issue) (w x : Nat) (s : State) (h : Good b s) : Good b (swwEff i w x s) := by
  unfold swwEff
  repeat' first
    | with_reducible assumption
    | with_reducible apply arrayHazard_good
    | with_reducible apply completes_good
    | with_reducible apply onCore_good
    | intro _
    | simp only [good_mk]
    | with_reducible apply good_ite
    | dsimp only
    | split

theorem execSww_good {b t : State} (i : Issue) (s : State) (h : Good b s)
    (e : execSww i s = .next t) : Good b t := by
  unfold execSww at e
  injection e with e
  subst e
  repeat' first
    | with_reducible assumption
    | with_reducible apply issueOp_good
    | with_reducible apply swwEff_good
    | intro _

theorem mmaEff_good {b : State} (i : Issue) (first : Nat) (w x : Nat) (s : State) (h : Good b s) : Good b (mmaEff i first w x s) := by
  unfold mmaEff
  repeat' first
    | with_reducible assumption
    | with_reducible apply arrayHazard_good
    | with_reducible apply completes_good
    | with_reducible apply holdFor_good
    | with_reducible apply onCore_good
    | with_reducible apply orStall_good
    | with_reducible apply usedOver_good
    | with_reducible apply good_foldl
    | intro _
    | simp only [good_mk]
    | with_reducible apply good_ite
    | dsimp only
    | split

theorem execMma_good {b t : State} (i : Issue) (first : Nat) (s : State) (h : Good b s)
    (e : execMma i first s = .next t) : Good b t := by
  unfold execMma at e
  injection e with e
  subst e
  repeat' first
    | with_reducible assumption
    | with_reducible apply issueOp_good
    | with_reducible apply mmaEff_good
    | intro _

theorem drnEff_good {b : State} (i : Issue) (w x : Nat) (s : State) (h : Good b s) : Good b (drnEff i w x s) := by
  unfold drnEff
  repeat' first
    | with_reducible assumption
    | with_reducible apply arrayHazard_good
    | with_reducible apply completes_good
    | with_reducible apply onCore_good
    | with_reducible apply orStall_good
    | with_reducible apply takeFaults_good
    | with_reducible apply usedOver_good
    | with_reducible apply good_foldl
    | intro _
    | simp only [good_mk]
    | with_reducible apply good_ite
    | dsimp only
    | split

theorem execDrn_good {b t : State} (i : Issue) (s : State) (h : Good b s)
    (e : execDrn i s = .next t) : Good b t := by
  unfold execDrn at e
  injection e with e
  subst e
  repeat' first
    | with_reducible assumption
    | with_reducible apply issueOp_good
    | with_reducible apply drnEff_good
    | intro _

theorem pairEff_good {b : State} (other : Option Bool) (i : Issue) (w _x : Nat) (s : State) (h : Good b s) : Good b (pairEff other i w _x s) := by
  unfold pairEff
  repeat' first
    | with_reducible assumption
    | with_reducible apply completes_good
    | with_reducible apply onCore_good
    | with_reducible apply arrayHazard_good
    | simp only [good_mk]
    | with_reducible apply good_ite
    | dsimp only
    | split

theorem execPair_good {b t : State} (i : Issue) (other : Option Bool) (s : State) (h : Good b s)
    (e : execPair i other s = .next t) : Good b t := by
  unfold execPair at e
  injection e with e
  subst e
  repeat' first
    | with_reducible assumption
    | with_reducible apply issueOp_good
    | with_reducible apply pairEff_good
    | intro _

end Sys2Proof.Machine
end

