-- ==== Sys2Proof/Laws/KeepDies.lean ====
section
/-! SUPPORT. The operations of Machine/Dies.lean keep the fuses, the queue and the canonical form. -/

set_option linter.unusedTactic false
set_option linter.unreachableTactic false
set_option linter.unusedSimpArgs false

namespace Sys2Proof.Machine

theorem updDisc_good {b : State} (s : State) (k : Nat) (f : Disc → Disc) (h : Good b s) : Good b (updDisc s k f) := by
  unfold updDisc
  repeat' first
    | with_reducible assumption
    | simp only [good_mk]
    | dsimp only

theorem startDiscovery_good {b : State} (s : State) (h : Good b s) : Good b (startDiscovery s) := by
  unfold startDiscovery
  repeat' first
    | with_reducible assumption
    | with_reducible apply updDisc_good
    | with_reducible apply good_foldl
    | intro _
    | simp only [good_mk]
    | with_reducible apply good_ite
    | dsimp only
    | split

theorem probePorts_good {b : State} (d id : Nat) (s : State) (h : Good b s) : Good b (probePorts d id s) := by
  unfold probePorts
  repeat' first
    | with_reducible assumption
    | with_reducible apply updDisc_good
    | with_reducible apply good_foldl
    | intro _
    | simp only [good_mk]
    | with_reducible apply good_ite
    | dsimp only
    | split

theorem execDiscReq_good {b t : State} (d : DieNo) (port : Option (Fin 3)) (frame : List Byte) (s : State) (h : Good b s)
    (e : execDiscReq d port frame s = .next t) : Good b t := by
  unfold execDiscReq at e
  injection e with e
  subst e
  repeat' first
    | with_reducible assumption
    | with_reducible apply probePorts_good
    | with_reducible apply updDisc_good
    | intro _
    | simp only [good_mk]
    | with_reducible apply good_ite
    | dsimp only
    | split

theorem execDiscRsp_good {b t : State} (d : DieNo) (port : Option (Fin 3)) (frame : List Byte) (s : State) (h : Good b s)
    (e : execDiscRsp d port frame s = .next t) : Good b t := by
  unfold execDiscRsp at e
  injection e with e
  subst e
  repeat' first
    | with_reducible assumption
    | with_reducible apply updDisc_good
    | intro _
    | simp only [good_mk]
    | with_reducible apply good_ite
    | dsimp only
    | split

theorem failBundle_good {b0 : State} (d b : Nat) (s : State) (h : Good b0 s) : Good b0 (failBundle d b s) := by
  unfold failBundle
  repeat' first
    | with_reducible assumption
    | with_reducible apply setF_good
    | with_reducible apply raise_good
    | with_reducible apply good_ite
    | split

theorem execDiscRetry_good {b t : State} (d : DieNo) (port : Option (Fin 3)) (s : State) (h : Good b s)
    (e : execDiscRetry d port s = .next t) : Good b t := by
  unfold execDiscRetry at e
  injection e with e
  subst e
  repeat' first
    | with_reducible assumption
    | with_reducible apply failBundle_good
    | with_reducible apply updDisc_good
    | intro _
    | simp only [good_mk]
    | with_reducible apply good_ite
    | dsimp only
    | split

theorem addBer_good {b : State} (k i n : Nat) (s : State) (h : Good b s) : Good b (addBer k i n s) := by
  unfold addBer
  repeat' first
    | with_reducible assumption
    | simp only [good_mk]
    | with_reducible apply good_ite
    | dsimp only
    | split

theorem setResends_good {b : State} (k : Nat) (l : List Nat) (s : State) (h : Good b s) : Good b (setResends k l s) := by
  unfold setResends
  repeat' first
    | with_reducible assumption
    | with_reducible apply resend_good
    | intro _
    | simp only [good_mk]
    | with_reducible apply good_ite
    | dsimp only
    | split

theorem holdFlit_good {b : State} (k q : Nat) (s : State) (h : Good b s) : Good b (holdFlit k q s) := by
  unfold holdFlit
  repeat' first
    | with_reducible assumption
    | intro _
    | simp only [good_mk]
    | with_reducible apply good_ite
    | dsimp only
    | split

theorem beyondReplay_good {b : State} (d k : Nat) (s : State) (h : Good b s) : Good b (beyondReplay d k s) := by
  unfold beyondReplay
  repeat' first
    | with_reducible assumption
    | with_reducible apply addBer_good
    | with_reducible apply raise_good
    | with_reducible apply takeFault_good
    | intro _
    | simp only [good_mk]
    | with_reducible apply good_ite
    | dsimp only
    | split

theorem expireResends_good {b : State} (d k : Nat) (s : State) (h : Good b s) : Good b (expireResends d k s) := by
  unfold expireResends
  repeat' first
    | with_reducible assumption
    | with_reducible apply beyondReplay_good
    | with_reducible apply setResends_good
    | intro _
    | simp only [good_mk]
    | with_reducible apply good_ite
    | dsimp only
    | split

theorem execBundleFlit_good {b0 t : State} (d : DieNo) (b : Fin 24) (seq : Nat) (bad : Bool) (s : State) (h : Good b0 s)
    (e : execBundleFlit d b seq bad s = .next t) : Good b0 t := by
  unfold execBundleFlit at e
  injection e with e
  subst e
  repeat' first
    | with_reducible assumption
    | with_reducible apply addBer_good
    | with_reducible apply beyondReplay_good
    | with_reducible apply expireResends_good
    | with_reducible apply holdFlit_good
    | with_reducible apply setResends_good
    | intro _
    | simp only [good_mk]
    | with_reducible apply good_ite
    | dsimp only
    | split

end Sys2Proof.Machine
end

