-- ==== Sys2Proof/Laws/KeepGuestLink.lean ====
section
/-! SUPPORT. The operations of Machine/GuestLink.lean keep the fuses, the queue and the canonical form. -/

set_option linter.unusedTactic false
set_option linter.unreachableTactic false
set_option linter.unusedSimpArgs false

namespace Sys2Proof.Machine

theorem emitFlit_good {b : State} (f : GFlit) (s : State) (h : Good b s) : Good b (emitFlit f s) := by
  unfold emitFlit
  repeat' first
    | with_reducible assumption
    | with_reducible apply onGuest_good
    | simp only [good_mk]
    | dsimp only

theorem sendLink_good {b : State} (s : State) (h : Good b s) : Good b (sendLink s) := by
  unfold sendLink
  repeat' first
    | with_reducible assumption
    | with_reducible apply onGuest_good
    | with_reducible apply emitFlit_good
    | simp only [good_mk]
    | dsimp only

theorem sendSeq_good {b : State} (f : GFlit) (s : State) (h : Good b s) : Good b (sendSeq f s) := by
  unfold sendSeq
  repeat' first
    | with_reducible assumption
    | with_reducible apply onGuest_good
    | with_reducible apply emitFlit_good
    | simp only [good_mk]
    | dsimp only
    | split

theorem sendFlit_good {b : State} (f : GFlit) (s : State) (h : Good b s) : Good b (sendFlit f s) := by
  unfold sendFlit
  repeat' first
    | with_reducible assumption
    | with_reducible apply onGuest_good
    | with_reducible apply sendSeq_good
    | simp only [good_mk]
    | with_reducible apply good_ite
    | dsimp only
    | split

theorem sendWaiting_good {b : State} (l : List GFlit) : ∀ (s : State), Good b s → Good b (sendWaiting l s) := by
  induction l with
  | nil => intro s h; exact h
  | cons f l ih =>
    intro s h
    unfold sendWaiting
    split
    · exact ih _ (sendSeq_good _ _ (onGuest_good _ _ h))
    · exact h

theorem guestGoback_good {b : State} (a : Nat) (s : State) (h : Good b s) : Good b (guestGoback a s) := by
  unfold guestGoback
  repeat' first
    | with_reducible assumption
    | with_reducible apply onGuest_good
    | with_reducible apply emitFlit_good
    | with_reducible apply good_foldl
    | intro _
    | simp only [good_mk]
    | with_reducible apply good_ite
    | dsimp only
    | split

theorem takeLink_good {b : State} (f : GFlit) (s : State) (h : Good b s) : Good b (takeLink f s) := by
  unfold takeLink
  repeat' first
    | with_reducible assumption
    | with_reducible apply onGuest_good
    | with_reducible apply sendWaiting_good
    | with_reducible apply guestGoback_good
    | simp only [good_mk]
    | with_reducible apply good_ite
    | dsimp only
    | split

theorem takeGSeq_good {b : State} (f : GFlit) (s : State) (h : Good b s) : Good b (takeGSeq f s).2 := by
  unfold takeGSeq
  dsimp only
  split
  · exact onGuest_good _ _ h
  · split
    · dsimp only
      split
      · exact h
      · exact sendLink_good _ (onGuest_good _ _ h)
    · exact sendLink_good _ h

theorem moduleDown_good {b : State} (m : Nat) (s : State) (h : Good b s) : Good b (moduleDown m s) := by
  unfold moduleDown
  repeat' first
    | with_reducible assumption
    | with_reducible apply setB_good
    | with_reducible apply raise_good
    | with_reducible apply good_ite
    | dsimp only
    | split

theorem execModuleLost_good {b t : State} (m : Fin 2) (s : State) (h : Good b s)
    (e : execModuleLost m s = .next t) : Good b t := by
  unfold execModuleLost at e
  injection e with e
  subst e
  repeat' first
    | with_reducible assumption
    | with_reducible apply moduleDown_good

theorem execGuestReplayTimeout_good {b t : State} (s : State) (h : Good b s)
    (e : execGuestReplayTimeout s = .next t) : Good b t := by
  unfold execGuestReplayTimeout at e
  injection e with e
  subst e
  repeat' first
    | with_reducible assumption
    | with_reducible apply guestGoback_good
    | with_reducible apply good_ite
    | split

theorem guestReset_good {b : State} (lostOut : Bool) (s : State) (h : Good b s) : Good b (guestReset lostOut s) := by
  unfold guestReset
  repeat' first
    | with_reducible assumption
    | with_reducible apply onGuest_good
    | with_reducible apply takeFault_good
    | intro _
    | simp only [good_mk]
    | with_reducible apply good_ite
    | dsimp only
    | split

theorem retrainGuest_good {b : State} (m0 m1 lostOut : Bool) (s : State) (h : Good b s) : Good b (retrainGuest m0 m1 lostOut s) := by
  unfold retrainGuest
  repeat' first
    | with_reducible assumption
    | with_reducible apply guestReset_good
    | with_reducible apply moduleDown_good
    | with_reducible apply sendWaiting_good
    | intro _
    | simp only [good_mk]
    | with_reducible apply good_ite
    | dsimp only
    | split

theorem execGuestRetrain_good {b t : State} (m0 m1 byGuest lostOut : Bool) (s : State) (h : Good b s)
    (e : execGuestRetrain m0 m1 byGuest lostOut s = .next t) : Good b t := by
  unfold execGuestRetrain at e
  injection e with e
  subst e
  repeat' first
    | with_reducible assumption
    | with_reducible apply retrainGuest_good
    | intro _
    | simp only [good_mk]
    | with_reducible apply good_ite
    | dsimp only
    | split

theorem execGuestAckTimer_good {b t : State} (s : State) (h : Good b s)
    (e : execGuestAckTimer s = .next t) : Good b t := by
  unfold execGuestAckTimer at e
  injection e with e
  subst e
  repeat' first
    | with_reducible assumption
    | with_reducible apply onGuest_good
    | with_reducible apply sendLink_good
    | intro _
    | simp only [good_mk]
    | with_reducible apply good_ite
    | dsimp only
    | split

end Sys2Proof.Machine
end

