-- ==== Sys2Proof/Laws/KeepMv.lean ====
section
/-! SUPPORT. The operations of Machine/Mv.lean keep the fuses, the queue and the canonical form. -/

set_option linter.unusedTactic false
set_option linter.unreachableTactic false
set_option linter.unusedSimpArgs false

namespace Sys2Proof.Machine

theorem mvmEff_good {b : State} (i : Issue) (w x : Nat) (s : State) (h : Good b s) : Good b (mvmEff i w x s) := by
  unfold mvmEff
  repeat' first
    | with_reducible assumption
    | with_reducible apply arrayHazard_good
    | with_reducible apply completes_good
    | with_reducible apply holdFor_good
    | with_reducible apply onCore_good
    | with_reducible apply orStall_good
    | with_reducible apply usedFree_good
    | with_reducible apply good_foldl
    | intro _
    | simp only [good_mk]
    | with_reducible apply good_ite
    | dsimp only
    | split

theorem execMvm_good {b t : State} (i : Issue) (s : State) (h : Good b s)
    (e : execMvm i s = .next t) : Good b t := by
  unfold execMvm at e
  injection e with e
  subst e
  repeat' first
    | with_reducible assumption
    | with_reducible apply issueOp_good
    | with_reducible apply mvmEff_good
    | intro _

theorem mvdEff_good {b : State} (veToo : Bool) (i : Issue) (w x : Nat) (s : State) (h : Good b s) : Good b (mvdEff veToo i w x s) := by
  unfold mvdEff
  repeat' first
    | with_reducible assumption
    | with_reducible apply arrayHazard_good
    | with_reducible apply completes_good
    | with_reducible apply onCore_good
    | with_reducible apply orStall_good
    | with_reducible apply takeFaults_good
    | with_reducible apply good_foldl
    | intro _
    | simp only [good_mk]
    | with_reducible apply good_ite
    | dsimp only
    | split

theorem execMvd_good {b t : State} (i : Issue) (veToo : Bool) (s : State) (h : Good b s)
    (e : execMvd i veToo s = .next t) : Good b t := by
  unfold execMvd at e
  injection e with e
  subst e
  repeat' first
    | with_reducible assumption
    | with_reducible apply issueOp_good
    | with_reducible apply mvdEff_good
    | intro _

end Sys2Proof.Machine
end

