-- ==== Sys2Proof/Laws/KeepVector.lean ====
section
/-! SUPPORT. The operations of Machine/Vector.lean keep the fuses, the queue and the canonical form. -/

set_option linter.unusedTactic false
set_option linter.unreachableTactic false
set_option linter.unusedSimpArgs false

namespace Sys2Proof.Machine

theorem vTime_good {b : State} (i : Issue) (w n rate lat : Nat) (s : State) (h : Good b s) : Good b (vTime i w n rate lat s) := by
  unfold vTime
  repeat' first
    | with_reducible assumption
    | with_reducible apply holdFor_good
    | with_reducible apply completes_good
    | dsimp only
    | split

theorem vecOp_good {b : State} (i : Issue) (w x rate lat : Nat) (f : (Nat → Byte) → List Nat → Core → Core) (s : State) (h : Good b s) : Good b (vecOp i w x rate lat f s) := by
  unfold vecOp
  repeat' first
    | with_reducible assumption
    | with_reducible apply onCore_good
    | with_reducible apply orStall_good
    | with_reducible apply usedFree_good
    | with_reducible apply vTime_good
    | intro _
    | simp only [good_mk]
    | with_reducible apply good_ite
    | dsimp only
    | split

theorem vopEff_good {b : State} (i : Issue) (w x : Nat) (s : State) (h : Good b s) : Good b (vopEff i w x s) := by
  unfold vopEff
  repeat' first
    | with_reducible assumption
    | with_reducible apply vecOp_good
    | dsimp only

theorem execVop_good {b t : State} (i : Issue) (s : State) (h : Good b s)
    (e : execVop i s = .next t) : Good b t := by
  unfold execVop at e
  injection e with e
  subst e
  repeat' first
    | with_reducible assumption
    | with_reducible apply issueOp_good
    | with_reducible apply vopEff_good
    | intro _

theorem vsfEff_good {b : State} (i : Issue) (w x : Nat) (s : State) (h : Good b s) : Good b (vsfEff i w x s) := by
  unfold vsfEff
  repeat' first
    | with_reducible assumption
    | with_reducible apply vecOp_good
    | with_reducible apply good_ite
    | dsimp only
    | split

theorem execVsf_good {b t : State} (i : Issue) (s : State) (h : Good b s)
    (e : execVsf i s = .next t) : Good b t := by
  unfold execVsf at e
  injection e with e
  subst e
  repeat' first
    | with_reducible assumption
    | with_reducible apply issueOp_good
    | with_reducible apply vsfEff_good
    | intro _

theorem vredEff_good {b : State} (i : Issue) (w x : Nat) (s : State) (h : Good b s) : Good b (vredEff i w x s) := by
  unfold vredEff
  repeat' first
    | with_reducible assumption
    | with_reducible apply vecOp_good
    | with_reducible apply good_ite
    | dsimp only
    | split

theorem execVred_good {b t : State} (i : Issue) (s : State) (h : Good b s)
    (e : execVred i s = .next t) : Good b t := by
  unfold execVred at e
  injection e with e
  subst e
  repeat' first
    | with_reducible assumption
    | with_reducible apply issueOp_good
    | with_reducible apply vredEff_good
    | intro _

theorem vqntEff_good {b : State} (i : Issue) (w x : Nat) (s : State) (h : Good b s) : Good b (vqntEff i w x s) := by
  unfold vqntEff
  repeat' first
    | with_reducible assumption
    | with_reducible apply vecOp_good
    | with_reducible apply good_foldl
    | intro _
    | simp only [good_mk]
    | with_reducible apply good_ite
    | dsimp only
    | split

theorem execVqnt_good {b t : State} (i : Issue) (s : State) (h : Good b s)
    (e : execVqnt i s = .next t) : Good b t := by
  unfold execVqnt at e
  injection e with e
  subst e
  repeat' first
    | with_reducible assumption
    | with_reducible apply issueOp_good
    | with_reducible apply vqntEff_good
    | intro _

theorem vrngEff_good {b : State} (i : Issue) (w x : Nat) (s : State) (h : Good b s) : Good b (vrngEff i w x s) := by
  unfold vrngEff
  repeat' first
    | with_reducible assumption
    | with_reducible apply vecOp_good
    | simp only [good_mk]
    | with_reducible apply good_ite
    | dsimp only
    | split

theorem execVrng_good {b t : State} (i : Issue) (s : State) (h : Good b s)
    (e : execVrng i s = .next t) : Good b t := by
  unfold execVrng at e
  injection e with e
  subst e
  repeat' first
    | with_reducible assumption
    | with_reducible apply issueOp_good
    | with_reducible apply vrngEff_good
    | intro _

theorem vcvtEff_good {b : State} (i : Issue) (w x : Nat) (s : State) (h : Good b s) : Good b (vcvtEff i w x s) := by
  unfold vcvtEff
  repeat' first
    | with_reducible assumption
    | with_reducible apply vecOp_good
    | simp only [good_mk]
    | with_reducible apply good_ite
    | dsimp only
    | split

theorem execVcvt_good {b t : State} (i : Issue) (s : State) (h : Good b s)
    (e : execVcvt i s = .next t) : Good b t := by
  unfold execVcvt at e
  injection e with e
  subst e
  repeat' first
    | with_reducible assumption
    | with_reducible apply issueOp_good
    | with_reducible apply vcvtEff_good
    | intro _

theorem vselEff_good {b : State} (i : Issue) (w x : Nat) (s : State) (h : Good b s) : Good b (vselEff i w x s) := by
  unfold vselEff
  repeat' first
    | with_reducible assumption
    | with_reducible apply vecOp_good
    | with_reducible apply good_ite
    | dsimp only
    | split

theorem execVsel_good {b t : State} (i : Issue) (s : State) (h : Good b s)
    (e : execVsel i s = .next t) : Good b t := by
  unfold execVsel at e
  injection e with e
  subst e
  repeat' first
    | with_reducible assumption
    | with_reducible apply issueOp_good
    | with_reducible apply vselEff_good
    | intro _

end Sys2Proof.Machine
end

