-- ==== Sys2Proof/Laws/KeepTransfer.lean ====
section
/-! SUPPORT. The operations of Machine/Transfer.lean keep the fuses, the queue and the canonical form. -/

set_option linter.unusedTactic false
set_option linter.unreachableTactic false
set_option linter.unusedSimpArgs false

namespace Sys2Proof.Machine

theorem issueMem_good {b t : State} (i : Issue) (op : Nat) (span : Nat → Nat → Nat × Nat)
    (eff : Nat → Nat → State → State) (s : State)
    (h_eff : ∀ (z0 z1 : Nat) (s : State), Good b s → Good b (eff z0 z1 s)) (h : Good b s)
    (e : issueMem i op span eff s = .next t) : Good b t := by
  unfold issueMem at e
  dsimp only at e
  split at e
  · cases e
  · injection e with e
    subst e
    exact issueOp_good _ _ _ _ h_eff h

theorem outbound_good {b : State} (i : Issue) (w beats : Nat) (s : State) (h : Good b s) : Good b (outbound i w beats s) := by
  unfold outbound
  repeat' first
    | with_reducible assumption
    | with_reducible apply usedFree_good
    | with_reducible apply holdFor_good
    | with_reducible apply completes_good
    | with_reducible apply chargeAcc_good
    | dsimp only

theorem addRun_good {b : State} (r : Run) (s : State) (h : Good b s) : Good b (addRun r s) := by
  unfold addRun
  repeat' first
    | with_reducible assumption
    | simp only [good_mk]
    | dsimp only

theorem await_good {b : State} (r : Run) (s : State) (h : Good b s) : Good b (await r s) := by
  unfold await
  repeat' first
    | with_reducible assumption
    | with_reducible apply updCore_good
    | with_reducible apply landed_good
    | simp only [good_mk]
    | dsimp only

theorem mrdEff_good {b : State} (i : Issue) (w x : Nat) (s : State) (h : Good b s) : Good b (mrdEff i w x s) := by
  unfold mrdEff
  repeat' first
    | with_reducible assumption
    | with_reducible apply completesWith_good
    | with_reducible apply chargeAcc_good
    | with_reducible apply addRun_good
    | with_reducible apply await_good
    | simp only [good_mk]
    | dsimp only
    | split

theorem execMrd_good {b t : State} (i : Issue) (s : State) (h : Good b s)
    (e : execMrd i s = .next t) : Good b t := by
  unfold execMrd at e
  apply issueMem_good (h := h) (e := e)
  repeat' first
    | with_reducible assumption
    | with_reducible apply issueMem_good
    | with_reducible apply mrdEff_good
    | with_reducible apply good_foldl
    | intro _
    | dsimp only

theorem mwrEff_good {b : State} (i : Issue) (w x : Nat) (s : State) (h : Good b s) : Good b (mwrEff i w x s) := by
  unfold mwrEff
  repeat' first
    | with_reducible assumption
    | with_reducible apply addRun_good
    | with_reducible apply outbound_good
    | intro _
    | simp only [good_mk]
    | with_reducible apply good_ite
    | dsimp only
    | split

theorem execMwr_good {b t : State} (i : Issue) (s : State) (h : Good b s)
    (e : execMwr i s = .next t) : Good b t := by
  unfold execMwr at e
  apply issueMem_good (h := h) (e := e)
  repeat' first
    | with_reducible assumption
    | with_reducible apply issueMem_good
    | with_reducible apply mwrEff_good
    | with_reducible apply good_foldl
    | intro _
    | dsimp only

theorem sendEff_good {b : State} (i : Issue) (w x : Nat) (s : State) (h : Good b s) : Good b (sendEff i w x s) := by
  unfold sendEff
  repeat' first
    | with_reducible assumption
    | with_reducible apply illegalOp_good
    | with_reducible apply outbound_good
    | intro _
    | simp only [good_mk]
    | with_reducible apply good_ite
    | dsimp only
    | split

theorem execSend_good {b t : State} (i : Issue) (s : State) (h : Good b s)
    (e : execSend i s = .next t) : Good b t := by
  unfold execSend at e
  injection e with e
  subst e
  repeat' first
    | with_reducible assumption
    | with_reducible apply issueOp_good
    | with_reducible apply sendEff_good
    | intro _

theorem doorPost_good {b : State} (c cyc bank sem cnt : Nat) (s : State) (h : Good b s) : Good b (doorPost c cyc bank sem cnt s) := by
  unfold doorPost
  repeat' first
    | with_reducible assumption
    | with_reducible apply semAdd_good
    | with_reducible apply illegalOp_good
    | with_reducible apply good_ite
    | split

theorem execDoorwayArrival_good {b t : State} (c : CoreId) (cyc : Nat) (lost : List BeatLoss) (acc : List LsAcc) (s : State) (h : Good b s)
    (e : execDoorwayArrival c cyc lost acc s = .next t) : Good b t := by
  unfold execDoorwayArrival at e
  injection e with e
  subst e
  repeat' first
    | with_reducible assumption
    | with_reducible apply doorPost_good
    | with_reducible apply endInbound_good
    | with_reducible apply illegalOp_good
    | with_reducible apply lapse_good
    | with_reducible apply takeFaults_good
    | with_reducible apply updCore_good
    | intro _
    | simp only [good_mk]
    | with_reducible apply good_ite
    | dsimp only
    | split

theorem execMemoryRunPost_good {b t : State} (c : CoreId) (k : StackNo) (tick seq cyc : Nat) (s : State) (h : Good b s)
    (e : execMemoryRunPost c k tick seq cyc s = .next t) : Good b t := by
  unfold execMemoryRunPost at e
  injection e with e
  subst e
  repeat' first
    | with_reducible assumption
    | with_reducible apply doorPost_good
    | with_reducible apply endInbound_good
    | with_reducible apply lapse_good
    | with_reducible apply updCore_good
    | intro _
    | simp only [good_mk]
    | with_reducible apply good_ite
    | dsimp only
    | split

theorem panEff_good {b : State} (i : Issue) (w x : Nat) (s : State) (h : Good b s) : Good b (panEff i w x s) := by
  unfold panEff
  repeat' first
    | with_reducible assumption
    | with_reducible apply addRun_good
    | with_reducible apply outbound_good
    | intro _
    | simp only [good_mk]
    | with_reducible apply good_ite
    | dsimp only
    | split

theorem execPan_good {b t : State} (i : Issue) (s : State) (h : Good b s)
    (e : execPan i s = .next t) : Good b t := by
  unfold execPan at e
  apply issueMem_good (h := h) (e := e)
  repeat' first
    | with_reducible assumption
    | with_reducible apply issueMem_good
    | with_reducible apply panEff_good
    | with_reducible apply good_foldl
    | intro _
    | dsimp only

theorem ildEff_good {b : State} (i : Issue) (w _x : Nat) (s : State) (h : Good b s) : Good b (ildEff i w _x s) := by
  unfold ildEff
  repeat' first
    | with_reducible assumption
    | with_reducible apply completesWith_good
    | with_reducible apply chargeAcc_good
    | with_reducible apply addRun_good
    | with_reducible apply await_good
    | dsimp only
    | split

theorem execIld_good {b t : State} (i : Issue) (s : State) (h : Good b s)
    (e : execIld i s = .next t) : Good b t := by
  unfold execIld at e
  apply issueMem_good (h := h) (e := e)
  repeat' first
    | with_reducible assumption
    | with_reducible apply issueMem_good
    | with_reducible apply ildEff_good
    | with_reducible apply good_foldl
    | intro _
    | dsimp only

theorem csavEff_good {b : State} (i : Issue) (w x : Nat) (s : State) (h : Good b s) : Good b (csavEff i w x s) := by
  unfold csavEff
  repeat' first
    | with_reducible assumption
    | with_reducible apply addRun_good
    | with_reducible apply onCore_good
    | with_reducible apply outbound_good
    | intro _
    | simp only [good_mk]
    | with_reducible apply good_ite
    | dsimp only
    | split

theorem execCsav_good {b t : State} (i : Issue) (s : State) (h : Good b s)
    (e : execCsav i s = .next t) : Good b t := by
  unfold execCsav at e
  apply issueMem_good (h := h) (e := e)
  repeat' first
    | with_reducible assumption
    | with_reducible apply issueMem_good
    | with_reducible apply csavEff_good
    | with_reducible apply good_foldl
    | intro _
    | dsimp only

theorem crstEff_good {b : State} (i : Issue) (w x : Nat) (s : State) (h : Good b s) : Good b (crstEff i w x s) := by
  unfold crstEff
  repeat' first
    | with_reducible assumption
    | with_reducible apply completesWith_good
    | with_reducible apply chargeAcc_good
    | with_reducible apply addRun_good
    | with_reducible apply await_good
    | dsimp only
    | split

theorem execCrst_good {b t : State} (i : Issue) (s : State) (h : Good b s)
    (e : execCrst i s = .next t) : Good b t := by
  unfold execCrst at e
  apply issueMem_good (h := h) (e := e)
  repeat' first
    | with_reducible assumption
    | with_reducible apply issueMem_good
    | with_reducible apply crstEff_good
    | with_reducible apply good_foldl
    | intro _
    | dsimp only

theorem ildLand_good {b : State} (r : Run) (park : Bool) (seg : List Byte) (cyc : Nat) (s : State) (h : Good b s) : Good b (ildLand r park seg cyc s) := by
  unfold ildLand
  repeat' first
    | with_reducible assumption
    | with_reducible apply takeFault_good
    | with_reducible apply updCore_good
    | intro _
    | simp only [good_mk]
    | with_reducible apply good_ite
    | dsimp only
    | split

theorem crstLand_good {b : State} (lost : List Nat) (r : Run) (part bank : Nat) (data : List Byte) (cyc : Nat) (s : State) (h : Good b s) : Good b (crstLand lost r part bank data cyc s) := by
  unfold crstLand
  repeat' first
    | with_reducible assumption
    | with_reducible apply takeFault_good
    | with_reducible apply updCore_good
    | with_reducible apply good_foldl
    | intro _
    | simp only [good_mk]
    | with_reducible apply good_ite
    | dsimp only
    | split

theorem landed_good {b : State} (r : Run) (cyc : Nat) (s : State) (h : Good b s) : Good b (landed r cyc s) := by
  unfold landed
  repeat' first
    | with_reducible assumption
    | with_reducible apply updCore_good
    | intro _
    | simp only [good_mk]
    | with_reducible apply good_ite
    | dsimp only
    | split

theorem heldOp_good {b : State} (i : Issue) (w x first : Nat) (s : State) (h : Good b s) : Good b (heldOp i w x first s) := by
  unfold heldOp
  repeat' first
    | with_reducible assumption
    | with_reducible apply drnEff_good
    | with_reducible apply mmaEff_good
    | with_reducible apply mvdEff_good
    | with_reducible apply mvmEff_good
    | with_reducible apply swwEff_good
    | with_reducible apply vcvtEff_good
    | with_reducible apply vopEff_good
    | with_reducible apply vqntEff_good
    | with_reducible apply vredEff_good
    | with_reducible apply vrngEff_good
    | with_reducible apply vselEff_good
    | with_reducible apply vsfEff_good
    | intro _
    | simp only [good_mk]
    | with_reducible apply good_ite
    | dsimp only
    | split

theorem resumeHeld_good {b : State} (h : Held) (cyc : Nat) (eff : Issue → State → State) (s : State) (h_eff : ∀ (z0 : Issue) (s : State), Good b s → Good b (eff z0 s)) (hg : Good b s) : Good b (resumeHeld h cyc eff s) := by
  unfold resumeHeld
  repeat' first
    | with_reducible assumption
    | with_reducible apply h_eff
    | with_reducible apply updCore_good
    | intro _
    | simp only [good_mk]
    | with_reducible apply good_ite
    | dsimp only
    | split

theorem resumeEngine_good {b : State} (c : CoreId) (e : Engine) (h : Held) (cyc : Nat) (s : State) (hg : Good b s) : Good b (resumeEngine c e h cyc s) := by
  unfold resumeEngine
  repeat' first
    | with_reducible assumption
    | with_reducible apply heldOp_good
    | with_reducible apply lapse_good
    | with_reducible apply resumeHeld_good
    | with_reducible apply updCore_good
    | intro _
    | simp only [good_mk]
    | with_reducible apply good_ite
    | dsimp only
    | split

theorem resumeLoad_good {b : State} (n : Nat) (h : Held) (cyc : Nat) (s : State) (hg : Good b s) : Good b (resumeLoad n h cyc s) := by
  unfold resumeLoad
  repeat' first
    | with_reducible assumption
    | with_reducible apply ldwLoad_good
    | with_reducible apply resumeHeld_good
    | with_reducible apply updCore_good
    | intro _
    | simp only [good_mk]
    | with_reducible apply good_ite
    | dsimp only
    | split

theorem execFeederResume_good {b t : State} (c : CoreId) (e : Engine) (wgt : Bool) (cyc : Nat) (s : State) (h : Good b s)
    (e : execFeederResume c e wgt cyc s = .next t) : Good b t := by
  unfold execFeederResume at e
  injection e with e
  subst e
  repeat' first
    | with_reducible assumption
    | with_reducible apply resumeEngine_good
    | with_reducible apply resumeLoad_good
    | intro _
    | simp only [good_mk]
    | with_reducible apply good_ite
    | dsimp only
    | split

theorem execDeadlock_good {b t : State} (c : CoreId) (cyc : Nat) (s : State) (h : Good b s)
    (e : execDeadlock c cyc s = .next t) : Good b t := by
  unfold execDeadlock at e
  injection e with e
  subst e
  repeat' first
    | with_reducible assumption
    | with_reducible apply judgeDie_good
    | with_reducible apply raise_good
    | with_reducible apply setF_good
    | with_reducible apply takeFault_good
    | with_reducible apply updCore_good
    | intro _
    | simp only [good_mk]
    | with_reducible apply good_ite
    | dsimp only
    | split

theorem execCoreGate_good {b t : State} (c : CoreId) (s : State) (h : Good b s)
    (e : execCoreGate c s = .next t) : Good b t := by
  unfold execCoreGate at e
  injection e with e
  subst e
  repeat' first
    | with_reducible assumption
    | with_reducible apply updCore_good
    | simp only [good_mk]
    | with_reducible apply good_ite
    | dsimp only
    | split

theorem execCoreUngate_good {b t : State} (c : CoreId) (s : State) (h : Good b s)
    (e : execCoreUngate c s = .next t) : Good b t := by
  unfold execCoreUngate at e
  injection e with e
  subst e
  repeat' first
    | with_reducible assumption
    | with_reducible apply updCore_good
    | simp only [good_mk]
    | dsimp only

end Sys2Proof.Machine
end

