-- ==== Sys2Proof/Laws/KeepMemory.lean ====
section
/-! SUPPORT. The operations of Machine/Memory.lean keep the fuses, the queue and the canonical form. -/

set_option linter.unusedTactic false
set_option linter.unreachableTactic false
set_option linter.unusedSimpArgs false

namespace Sys2Proof.Machine

theorem takeTokens_good {b : State} (k part occ : Nat) (s : State) (h : Good b s) : Good b (takeTokens k part occ s) := by
  unfold takeTokens
  repeat' first
    | with_reducible assumption
    | with_reducible apply updStk_good
    | simp only [good_mk]
    | with_reducible apply good_ite
    | dsimp only
    | split

theorem abortMargin_good {b : State} (k c : Nat) (s : State) (h : Good b s) : Good b (abortMargin k c s) := by
  unfold abortMargin
  repeat' first
    | with_reducible assumption
    | with_reducible apply setB_good
    | with_reducible apply incSat_good
    | with_reducible apply raise_good
    | with_reducible apply updStk_good
    | with_reducible apply logOnly_good
    | simp only [good_mk]
    | with_reducible apply good_ite
    | dsimp only
    | split

theorem hingeUsed_good {b : State} (h : Option (Nat × Nat)) (n : Nat) (s : State) (hg : Good b s) : Good b (hingeUsed h n s) := by
  unfold hingeUsed
  repeat' first
    | with_reducible assumption
    | intro _
    | simp only [good_mk]
    | with_reducible apply good_ite
    | dsimp only
    | split

theorem runFailed_good {b : State} (k c : Nat) (lim : Bool) (r : Run) (s : State) (h : Good b s) : Good b (runFailed k c lim r s) := by
  unfold runFailed
  repeat' first
    | with_reducible assumption
    | with_reducible apply incSat_good
    | with_reducible apply raise_good
    | with_reducible apply takeFault_good
    | with_reducible apply good_ite
    | dsimp only
    | split

theorem countRetry_good {b : State} (k c : Nat) (r : Run) (s : State) (h : Good b s) : Good b (countRetry k c r s) := by
  unfold countRetry
  repeat' first
    | with_reducible assumption
    | with_reducible apply setF_good
    | with_reducible apply incSat_good
    | with_reducible apply raise_good
    | with_reducible apply logOnly_good
    | dsimp only
    | split

theorem parityFailed_good {b : State} (k c : Nat) (r : Run) (s : State) (h : Good b s) : Good b (parityFailed k c r s) := by
  unfold parityFailed
  repeat' first
    | with_reducible assumption
    | with_reducible apply updChan_good
    | with_reducible apply runFailed_good
    | with_reducible apply countRetry_good
    | simp only [good_mk]
    | with_reducible apply good_ite
    | dsimp only
    | split

theorem deliver_good {b : State} (r : Run) (gone : List Nat) (cyc : Nat) (s : State) (h : Good b s) : Good b (deliver r gone cyc s) := by
  unfold deliver
  repeat' first
    | with_reducible assumption
    | with_reducible apply crstLand_good
    | with_reducible apply hingeUsed_good
    | with_reducible apply ildLand_good
    | with_reducible apply landed_good
    | with_reducible apply updCore_good
    | with_reducible apply wrMems_good
    | intro _
    | simp only [good_mk]
    | with_reducible apply good_ite
    | dsimp only
    | split

theorem deliverTo_good {b : State} (r : Run) (acc : List LsAcc) (lost : List LineLoss) (cyc : Nat) (s : State) (h : Good b s) : Good b (deliverTo r acc lost cyc s) := by
  unfold deliverTo
  repeat' first
    | with_reducible assumption
    | with_reducible apply deliver_good
    | with_reducible apply lapse_good
    | with_reducible apply takeFaults_good
    | intro _
    | simp only [good_mk]
    | with_reducible apply good_ite
    | dsimp only
    | split

theorem eccCorrected_good {b : State} (k c cyc pa : Nat) (s : State) (h : Good b s) : Good b (eccCorrected k c cyc pa s) := by
  unfold eccCorrected
  repeat' first
    | with_reducible assumption
    | with_reducible apply incSat_good
    | with_reducible apply raise_good
    | with_reducible apply logOnly_good

theorem eccLost_good {b : State} (k c cyc pa part : Nat) (s : State) (h : Good b s) : Good b (eccLost k c cyc pa part s) := by
  unfold eccLost
  repeat' first
    | with_reducible assumption
    | with_reducible apply setF_good
    | with_reducible apply incSat_good
    | with_reducible apply raise_good
    | with_reducible apply takeFault_good
    | simp only [good_mk]
    | with_reducible apply good_ite
    | dsimp only
    | split

theorem laneLost_good {b : State} (k c lane cyc pa : Nat) (s : State) (h : Good b s) : Good b (laneLost k c lane cyc pa s) := by
  unfold laneLost
  repeat' first
    | with_reducible assumption
    | with_reducible apply takeFault_good
    | simp only [good_mk]
    | dsimp only

theorem runOutcome_good {b : State} (k c : Nat) (r : Run) (parity : Bool) (ecc : EccOut) (acc : List LsAcc) (lost : List LineLoss) (cyc : Nat) (s : State) (h : Good b s) : Good b (runOutcome k c r parity ecc acc lost cyc s) := by
  unfold runOutcome
  repeat' first
    | with_reducible assumption
    | with_reducible apply deliverTo_good
    | with_reducible apply eccCorrected_good
    | with_reducible apply eccLost_good
    | with_reducible apply laneLost_good
    | with_reducible apply parityFailed_good
    | intro _
    | simp only [good_mk]
    | with_reducible apply good_ite
    | dsimp only
    | split

theorem retryAccess_good {b : State} (k c occ : Nat) (r : Run) : ∀ (e n : Nat) (s : State), Good b s →
    Good b (retryAccess k c occ r e n s).1
  | 0, _, _, h => h
  | e + 1, n, s, h => by
    unfold retryAccess
    repeat' first
      | with_reducible assumption
      | with_reducible apply retryAccess_good
      | with_reducible apply runFailed_good
      | with_reducible apply takeTokens_good
      | with_reducible apply updChan_good
      | with_reducible apply countRetry_good
      | dsimp only
      | split

theorem accessEcc_good {b : State} (k c : Nat) (reads : Bool) (r : Run) (ecc : EccOut) (cyc : Nat) (s : State) (h : Good b s) : Good b (accessEcc k c reads r ecc cyc s).1 := by
  unfold accessEcc
  repeat' first
    | with_reducible assumption
    | with_reducible apply eccCorrected_good
    | with_reducible apply eccLost_good
    | with_reducible apply laneLost_good
    | intro _
    | simp only [good_mk]
    | with_reducible apply good_ite
    | dsimp only
    | split

theorem serveAccess_good {b : State} (k c occ : Nat) (reads : Bool) (r : Run) (sv : Served) (s : State) (h : Good b s) : Good b (serveAccess k c occ reads r sv s).1 := by
  unfold serveAccess
  repeat' first
    | with_reducible assumption
    | with_reducible apply abortMargin_good
    | with_reducible apply accessEcc_good
    | with_reducible apply laneLost_good
    | with_reducible apply retryAccess_good
    | with_reducible apply takeTokens_good
    | with_reducible apply updChan_good
    | intro _
    | simp only [good_mk]
    | with_reducible apply good_ite
    | dsimp only
    | split

theorem takeWindow_good {b : State} (k c bt : Nat) (s : State) (h : Good b s) : Good b (takeWindow k c bt s) := by
  unfold takeWindow
  repeat' first
    | with_reducible assumption
    | with_reducible apply updChan_good
    | with_reducible apply abortMargin_good
    | simp only [good_mk]
    | dsimp only

theorem takeDue_good {b : State} (k c bt : Nat) (s : State) (h : Good b s) : Good b (takeDue k c bt s) := by
  unfold takeDue
  repeat' first
    | with_reducible assumption
    | with_reducible apply takeWindow_good
    | intro _
    | simp only [good_mk]
    | with_reducible apply good_ite
    | dsimp only
    | split

theorem execRefreshWindow_good {b t : State} (k : StackNo) (c : ChanNo) (bt : Nat) (s : State) (h : Good b s)
    (e : execRefreshWindow k c bt s = .next t) : Good b t := by
  unfold execRefreshWindow at e
  injection e with e
  subst e
  repeat' first
    | with_reducible assumption
    | with_reducible apply takeDue_good
    | with_reducible apply takeWindow_good
    | intro _
    | simp only [good_mk]
    | with_reducible apply good_ite
    | dsimp only
    | split

theorem execMakeupWindow_good {b t : State} (k : StackNo) (c : ChanNo) (bt : Nat) (s : State) (h : Good b s)
    (e : execMakeupWindow k c bt s = .next t) : Good b t := by
  unfold execMakeupWindow at e
  injection e with e
  subst e
  repeat' first
    | with_reducible assumption
    | with_reducible apply incSat_good
    | with_reducible apply takeWindow_good
    | intro _
    | simp only [good_mk]
    | with_reducible apply good_ite
    | dsimp only
    | split

theorem marginStart_good {b : State} (k : Nat) (s : State) (h : Good b s) : Good b (marginStart k s) := by
  unfold marginStart
  repeat' first
    | with_reducible assumption
    | with_reducible apply setB_good
    | with_reducible apply updStk_good
    | simp only [good_mk]
    | with_reducible apply good_ite
    | dsimp only
    | split

theorem execStkMarginStart_good {b t : State} (k : StackNo) (s : State) (h : Good b s)
    (e : execStkMarginStart k s = .next t) : Good b t := by
  unfold execStkMarginStart at e
  injection e with e
  subst e
  repeat' first
    | with_reducible assumption
    | with_reducible apply marginStart_good

theorem marginDone_good {b : State} (k low high : Nat) (s : State) (h : Good b s) : Good b (marginDone k low high s) := by
  unfold marginDone
  repeat' first
    | with_reducible assumption
    | with_reducible apply setFs_good
    | with_reducible apply raise_good
    | with_reducible apply updStk_good
    | simp only [good_mk]
    | with_reducible apply good_ite
    | dsimp only
    | split

theorem countRegions_good {b : State} (s : State) (h : Good b s) : Good b (countRegions s) := by
  unfold countRegions
  repeat' first
    | with_reducible assumption
    | with_reducible apply setF_good
    | with_reducible apply good_foldl
    | intro _
    | with_reducible apply good_ite
    | dsimp only
    | split

theorem setOwner_good {b : State} (r o : Nat) (s : State) (h : Good b s) : Good b (setOwner r o s) := by
  unfold setOwner
  repeat' first
    | with_reducible assumption
    | simp only [good_mk]
    | dsimp only

theorem freeChannel_good {b : State} (k c : Nat) (s : State) (h : Good b s) : Good b (freeChannel k c s) := by
  unfold freeChannel
  repeat' first
    | with_reducible assumption
    | with_reducible apply setOwner_good
    | with_reducible apply good_foldl
    | intro _
    | dsimp only

theorem writeClass_good {b : State} (k v : Nat) (s : State) (h : Good b s) : Good b (writeClass k v s) := by
  unfold writeClass
  repeat' first
    | with_reducible assumption
    | with_reducible apply setF_good
    | with_reducible apply setB_good
    | with_reducible apply updStk_good
    | with_reducible apply countRegions_good
    | with_reducible apply freeChannel_good
    | with_reducible apply good_foldl
    | intro _
    | simp only [good_mk]
    | with_reducible apply good_ite
    | dsimp only
    | split

theorem zeroChannel_good {b : State} (k c : Nat) (s : State) (h : Good b s) : Good b (zeroChannel k c s) := by
  unfold zeroChannel
  repeat' first
    | with_reducible assumption
    | refine good_mem _ ?_ (smClear_wf _ _ _ _)
    | simp only [good_mk]
    | dsimp only

theorem execChannelZeroingDone_good {b t : State} (k : StackNo) (s : State) (h : Good b s)
    (e : execChannelZeroingDone k s = .next t) : Good b t := by
  unfold execChannelZeroingDone at e
  injection e with e
  subst e
  repeat' first
    | with_reducible assumption
    | with_reducible apply setB_good
    | with_reducible apply updStk_good
    | with_reducible apply zeroChannel_good
    | with_reducible apply good_foldl
    | intro _
    | simp only [good_mk]
    | dsimp only
    | split

end Sys2Proof.Machine
end

