-- ==== Sys2Proof/Laws/KeepPantry.lean ====
section
/-! SUPPORT. The operations of Machine/Pantry.lean keep the fuses, the queue and the canonical form. -/

set_option linter.unusedTactic false
set_option linter.unreachableTactic false
set_option linter.unusedSimpArgs false

namespace Sys2Proof.Machine

theorem setFlag_good {b0 : State} (k u b : Nat) (s : State) (h : Good b0 s) : Good b0 (setFlag k u b s) := by
  unfold setFlag
  repeat' first
    | with_reducible assumption
    | with_reducible apply updPan_good
    | simp only [good_mk]
    | dsimp only

theorem panBad_good {b : State} (k cyc : Nat) (r : Run) (s : State) (h : Good b s) : Good b (panBad k cyc r s) := by
  unfold panBad
  repeat' first
    | with_reducible assumption
    | with_reducible apply takeFault_good

theorem journal_good {b s t : State} {k pa : Nat} {grad : Bool} {alg : Nat} (e : journal k pa grad alg s = some t)
    (h : Good b s) : Good b t := by
  cases grad
  all_goals
    unfold journal at e
    simp only [↓reduceIte, Bool.false_eq_true] at e
    split at e
    · injection e with e; subst e; exact h
    · split at e
      · cases e
      · injection e with e; subst e
        exact peakF_good _ _ _ (setF_good _ _ _ (updPan_good _ _ _ h))

theorem addNorm_good {b : State} (k cyc u part : Nat) (xs : List Word) (s : State) (h : Good b s) : Good b (addNorm k cyc u part xs s) := by
  unfold addNorm
  repeat' first
    | with_reducible assumption
    | with_reducible apply raise_good
    | with_reducible apply updPan_good
    | with_reducible apply takeFault_good
    | simp only [good_mk]
    | with_reducible apply good_ite
    | dsimp only
    | split

theorem unitTerms_good {b : State} (k cyc u part : Nat) (t : TensorE) (final : Bool) (xs acc : List Word) (s : State) (h : Good b s) : Good b (unitTerms k cyc u part t final xs acc s) := by
  unfold unitTerms
  repeat' first
    | with_reducible assumption
    | with_reducible apply updPan_good
    | with_reducible apply addNorm_good
    | simp only [good_mk]
    | with_reducible apply good_ite
    | dsimp only
    | split

theorem gradUnit_good {b : State} (k cyc : Nat) (add : Bool) (t : TensorE) (r : Run) (pa : Nat) (xs : List Word) (s : State) (h : Good b s) : Good b (gradUnit k cyc add t r pa xs s) := by
  unfold gradUnit
  repeat' first
    | with_reducible assumption
    | with_reducible apply wrMems_good
    | with_reducible apply updPan_good
    | with_reducible apply takeFault_good
    | with_reducible apply setFlag_good
    | with_reducible apply unitTerms_good
    | simp only [good_mk]
    | exact journal_good (by assumption) (by assumption)
    | with_reducible apply good_ite
    | dsimp only
    | split

theorem gradCmd_good {b : State} (add : Bool) (k cyc : Nat) (r : Run) (s : State) (h : Good b s) : Good b (gradCmd add k cyc r s) := by
  unfold gradCmd
  repeat' first
    | with_reducible assumption
    | with_reducible apply gradUnit_good
    | with_reducible apply panBad_good
    | intro _
    | simp only [good_mk]
    | with_reducible apply good_ite
    | dsimp only
    | split

theorem scatterUnit_good {b : State} (k cyc : Nat) (r : Run) (pa q : Nat) (xs : List Word) (s : State) (h : Good b s) : Good b (scatterUnit k cyc r pa q xs s) := by
  unfold scatterUnit
  repeat' first
    | with_reducible assumption
    | with_reducible apply wrMems_good
    | with_reducible apply updPan_good
    | with_reducible apply takeFault_good
    | with_reducible apply setFlag_good
    | simp only [good_mk]
    | exact journal_good (by assumption) (by assumption)
    | with_reducible apply good_ite
    | dsimp only
    | split

theorem scatterCmd_good {b : State} (k cyc : Nat) (r : Run) (s : State) (h : Good b s) : Good b (scatterCmd k cyc r s) := by
  unfold scatterCmd
  repeat' first
    | with_reducible assumption
    | with_reducible apply raise_good
    | with_reducible apply scatterUnit_good
    | with_reducible apply takeFault_good
    | intro _
    | simp only [good_mk]
    | with_reducible apply good_ite
    | dsimp only
    | split

theorem set128_good {b : State} (f : Nat → Fld) (v : Nat) (s : State) (h : Good b s) : Good b (set128 f v s) := by
  unfold set128
  repeat' first
    | with_reducible assumption
    | with_reducible apply setFs_good

theorem writeMoments_good {b : State} (code : List Word → Nat × List Nat) (pa codes scales : Nat) (xs : List Word) (s : State) (h : Good b s) : Good b (writeMoments code pa codes scales xs s) := by
  unfold writeMoments
  repeat' first
    | with_reducible assumption
    | with_reducible apply wrMems_good
    | with_reducible apply good_foldl
    | intro _
    | dsimp only
    | split

theorem tearExport_good {b : State} (k tensor : Nat) (s : State) (h : Good b s) : Good b (tearExport k tensor s) := by
  unfold tearExport
  repeat' first
    | with_reducible assumption
    | with_reducible apply updPan_good
    | intro _
    | simp only [good_mk]
    | with_reducible apply good_ite
    | dsimp only
    | split

theorem sendCopy_good {b : State} (t : TensorE) (r : Run) (ws : List Word) (s : State) (h : Good b s) : Good b (sendCopy t r ws s) := by
  unfold sendCopy
  repeat' first
    | with_reducible assumption
    | with_reducible apply addRun_good
    | intro _
    | simp only [good_mk]
    | with_reducible apply good_ite
    | dsimp only
    | split

theorem sweepApply_good {b : State} (k : Nat) (r : Run) (t : TensorE) (mseq : List Nat) (p : List Word) (clip : Word) (s : State) (h : Good b s) : Good b (sweepApply k r t mseq p clip s) := by
  unfold sweepApply
  repeat' first
    | with_reducible assumption
    | with_reducible apply sendCopy_good
    | with_reducible apply tearExport_good
    | with_reducible apply wrMems_good
    | with_reducible apply writeMoments_good
    | intro _
    | simp only [good_mk]
    | with_reducible apply good_ite
    | dsimp only
    | split

theorem cover_good {b : State} (k u : Nat) (s : State) (h : Good b s) : Good b (cover k u s) := by
  unfold cover
  repeat' first
    | with_reducible assumption
    | with_reducible apply updPan_good
    | intro _
    | simp only [good_mk]
    | with_reducible apply good_ite
    | dsimp only
    | split

theorem sweepUnit_good {b : State} (k cyc : Nat) (r : Run) (t : TensorE) (mseq : List Nat) (p : List Word) (clip : Word) (s : State) (h : Good b s) : Good b (sweepUnit k cyc r t mseq p clip s) := by
  unfold sweepUnit
  repeat' first
    | with_reducible assumption
    | exact journal_good (by assumption) (by assumption)
    | with_reducible apply sweepApply_good
    | with_reducible apply takeFault_good
    | intro _
    | simp only [good_mk]
    | with_reducible apply good_ite
    | dsimp only
    | split

theorem noteSkip_good {b : State} (k : Nat) (s : State) (h : Good b s) : Good b (noteSkip k s) := by
  unfold noteSkip
  repeat' first
    | with_reducible assumption
    | with_reducible apply setB_good
    | with_reducible apply raise_good
    | with_reducible apply updPan_good
    | simp only [good_mk]
    | with_reducible apply good_ite
    | dsimp only
    | split

theorem showHyper_good {b : State} (k : Nat) (p : List Word) (s : State) (h : Good b s) : Good b (showHyper k p s) := by
  unfold showHyper
  repeat' first
    | with_reducible assumption
    | with_reducible apply setF_good
    | with_reducible apply good_foldl
    | intro _
    | dsimp only

theorem sweepCmd_good {b : State} (k cyc : Nat) (r : Run) (s : State) (h : Good b s) : Good b (sweepCmd k cyc r s) := by
  unfold sweepCmd
  repeat' first
    | with_reducible assumption
    | with_reducible apply cover_good
    | with_reducible apply noteSkip_good
    | with_reducible apply panBad_good
    | with_reducible apply raiseIf_good
    | with_reducible apply setF_good
    | with_reducible apply showHyper_good
    | with_reducible apply sweepUnit_good
    | with_reducible apply takeFault_good
    | intro _
    | simp only [good_mk]
    | with_reducible apply good_ite
    | dsimp only
    | split

theorem startRun_good {b : State} (k c bt : Nat) (r : Run) (s : State) (h : Good b s) : Good b (startRun k c bt r s) := by
  unfold startRun
  repeat' first
    | with_reducible assumption
    | with_reducible apply abortMargin_good
    | with_reducible apply takeTokens_good
    | with_reducible apply updChan_good
    | intro _
    | simp only [good_mk]
    | with_reducible apply good_ite
    | dsimp only
    | split

theorem leaveQueue_good {b : State} (ch : Nat) (r : Run) (s : State) (h : Good b s) : Good b (leaveQueue ch r s) := by
  unfold leaveQueue
  repeat' first
    | with_reducible assumption
    | with_reducible apply updChan_good
    | intro _
    | simp only [good_mk]
    | with_reducible apply good_ite
    | dsimp only
    | split

theorem panAccess_good {b : State} (k c : Nat) (sv : Served) (r : Run) (eff : Nat → Run → State → State) (s : State) (h_eff : ∀ (z0 : Nat) (z1 : Run) (s : State), Good b s → Good b (eff z0 z1 s)) (h : Good b s) : Good b (panAccess k c sv r eff s) := by
  unfold panAccess
  repeat' first
    | with_reducible assumption
    | with_reducible apply h_eff
    | with_reducible apply leaveQueue_good
    | with_reducible apply panBad_good
    | with_reducible apply serveAccess_good
    | intro _
    | simp only [good_mk]
    | with_reducible apply good_ite
    | dsimp only
    | split

theorem panServe_good {b t : State} (want : Nat) (k : StackNo) (c : ChanNo) (sv : Served) (eff : Nat → Run → State → State) (s : State) (h_eff : ∀ (z0 : Nat) (z1 : Run) (s : State), Good b s → Good b (eff z0 z1 s)) (h : Good b s)
    (e : panServe want k c sv eff s = .next t) : Good b t := by
  unfold panServe at e
  injection e with e
  subst e
  repeat' first
    | with_reducible assumption
    | with_reducible apply h_eff
    | with_reducible apply panAccess_good
    | intro _
    | simp only [good_mk]
    | with_reducible apply good_ite
    | dsimp only
    | split

theorem execGradWr_good {b t : State} (k : StackNo) (c : ChanNo) (sv : Served) (s : State) (h : Good b s)
    (e : execGradWr k c sv s = .next t) : Good b t :=
  panServe_good _ _ _ _ _ _ (fun _ _ _ h => gradCmd_good _ _ _ _ _ h) h e

theorem execGradAdd_good {b t : State} (k : StackNo) (c : ChanNo) (sv : Served) (s : State) (h : Good b s)
    (e : execGradAdd k c sv s = .next t) : Good b t :=
  panServe_good _ _ _ _ _ _ (fun _ _ _ h => gradCmd_good _ _ _ _ _ h) h e

theorem execScatterAdd_good {b t : State} (k : StackNo) (c : ChanNo) (sv : Served) (s : State) (h : Good b s)
    (e : execScatterAdd k c sv s = .next t) : Good b t :=
  panServe_good _ _ _ _ _ _ (fun _ _ _ h => scatterCmd_good _ _ _ _ h) h e

theorem execSweep_good {b t : State} (k : StackNo) (c : ChanNo) (sv : Served) (s : State) (h : Good b s)
    (e : execSweep k c sv s = .next t) : Good b t :=
  panServe_good _ _ _ _ _ _ (fun _ _ _ h => sweepCmd_good _ _ _ _ h) h e

theorem latchNorm_good {b : State} (k : Nat) (s : State) (h : Good b s) : Good b (latchNorm k s) := by
  unfold latchNorm
  repeat' first
    | with_reducible assumption
    | with_reducible apply setB_good
    | with_reducible apply raise_good
    | with_reducible apply updPan_good
    | with_reducible apply set128_good
    | simp only [good_mk]
    | dsimp only
    | split

theorem landNorm_good {b : State} (a : Acc128) (s : State) (h : Good b s) : Good b (landNorm a s) := by
  unfold landNorm
  repeat' first
    | with_reducible assumption
    | with_reducible apply setB_good
    | with_reducible apply raise_good
    | with_reducible apply set128_good
    | with_reducible apply good_foldl
    | intro _
    | dsimp only

theorem clearGns_good {b : State} (k : Nat) (s : State) (h : Good b s) : Good b (clearGns k s) := by
  unfold clearGns
  repeat' first
    | with_reducible assumption
    | with_reducible apply setFs_good
    | with_reducible apply updPan_good
    | with_reducible apply set128_good
    | simp only [good_mk]
    | with_reducible apply good_ite
    | dsimp only
    | split

theorem addGns_good {b : State} (k mbatch : Nat) (s : State) (h : Good b s) : Good b (addGns k mbatch s) := by
  unfold addGns
  repeat' first
    | with_reducible assumption
    | with_reducible apply setB_good
    | with_reducible apply incSat_good
    | with_reducible apply raiseIf_good
    | with_reducible apply set128_good
    | with_reducible apply good_ite
    | dsimp only
    | split

theorem stepPan_good {b : State} (k mbatch : Nat) (s : State) (h : Good b s) : Good b (stepPan k mbatch s) := by
  unfold stepPan
  repeat' first
    | with_reducible assumption
    | with_reducible apply setFs_good
    | with_reducible apply updPan_good
    | with_reducible apply addGns_good
    | simp only [good_mk]
    | dsimp only

theorem stepAdvance_good {b : State} (mbatch : Nat) (s : State) (h : Good b s) : Good b (stepAdvance mbatch s) := by
  unfold stepAdvance
  repeat' first
    | with_reducible assumption
    | with_reducible apply setF_good
    | with_reducible apply stepPan_good
    | with_reducible apply good_foldl
    | intro _
    | simp only [good_mk]
    | with_reducible apply good_ite
    | dsimp only
    | split

theorem closePan_good {b : State} (k : Nat) (s : State) (h : Good b s) : Good b (closePan k s) := by
  unfold closePan
  repeat' first
    | with_reducible assumption
    | with_reducible apply setF_good
    | with_reducible apply updPan_good
    | simp only [good_mk]
    | dsimp only

theorem restorePan_good {b : State} (k : Nat) (s : State) (h : Good b s) : Good b (restorePan k s) := by
  unfold restorePan
  repeat' first
    | with_reducible assumption
    | with_reducible apply wrMems_good
    | with_reducible apply updPan_good
    | with_reducible apply setFlag_good
    | with_reducible apply good_foldl
    | intro _
    | simp only [good_mk]
    | dsimp only
    | split

theorem exportFail_good {b : State} (k cause : Nat) (s : State) (h : Good b s) : Good b (exportFail k cause s) := by
  unfold exportFail
  repeat' first
    | with_reducible assumption
    | with_reducible apply setFs_good
    | with_reducible apply raise_good
    | with_reducible apply updPan_good
    | simp only [good_mk]
    | dsimp only

theorem exportOk_good {b : State} (k units : Nat) (s : State) (h : Good b s) : Good b (exportOk k units s) := by
  unfold exportOk
  repeat' first
    | with_reducible assumption
    | with_reducible apply setFs_good
    | with_reducible apply raise_good
    | with_reducible apply updPan_good
    | simp only [good_mk]
    | dsimp only

theorem execGnsClr_good {b t : State} (k : StackNo) (s : State) (h : Good b s)
    (e : execGnsClr k s = .next t) : Good b t := by
  unfold execGnsClr at e
  injection e with e
  subst e
  repeat' first
    | with_reducible assumption
    | with_reducible apply updPan_good
    | simp only [good_mk]
    | dsimp only

end Sys2Proof.Machine
end

