-- ==== Sys2Proof/Laws/KeepChannel.lean ====
section
/-! SUPPORT. The operations of Machine/Channel.lean keep the fuses, the queue and the canonical form. -/

set_option linter.unusedTactic false
set_option linter.unreachableTactic false
set_option linter.unusedSimpArgs false

namespace Sys2Proof.Machine

theorem joinQueue_good {b : State} (ch : Nat) (s : State) (h : Good b s) : Good b (joinQueue ch s) := by
  unfold joinQueue
  repeat' first
    | with_reducible assumption
    | with_reducible apply updChan_good
    | intro _
    | simp only [good_mk]
    | with_reducible apply good_ite
    | dsimp only
    | split

theorem execRunRequest_good {b t : State} (k : StackNo) (c : ChanNo) (s : State) (h : Good b s)
    (e : execRunRequest k c s = .next t) : Good b t := by
  unfold execRunRequest at e
  injection e with e
  subst e
  repeat' first
    | with_reducible assumption
    | with_reducible apply joinQueue_good
    | intro _
    | simp only [good_mk]
    | with_reducible apply good_ite
    | dsimp only
    | split

theorem setJob_good {b : State} (j : Nat) (q : Option HostJob) (s : State) (h : Good b s) : Good b (setJob j q s) := by
  unfold setJob
  repeat' first
    | with_reducible assumption
    | intro _
    | simp only [good_mk]
    | with_reducible apply good_ite
    | dsimp only
    | split

theorem newJob_good {b : State} (j : Nat) (q : HostJob) (s : State) (h : Good b s) : Good b (newJob j q s) := by
  unfold newJob
  repeat' first
    | with_reducible assumption
    | with_reducible apply setJob_good
    | intro _
    | simp only [good_mk]
    | with_reducible apply good_ite
    | dsimp only
    | split

theorem startHost_good {b : State} (k c bt : Nat) (host : List Byte) (s : State) (h : Good b s) : Good b (startHost k c bt host s) := by
  unfold startHost
  repeat' first
    | with_reducible assumption
    | with_reducible apply abortMargin_good
    | with_reducible apply setJob_good
    | with_reducible apply updChan_good
    | intro _
    | simp only [good_mk]
    | with_reducible apply good_ite
    | dsimp only
    | split

theorem execRunStart_good {b t : State} (k : StackNo) (c : ChanNo) (bt : Nat) (host : List Byte) (s : State) (h : Good b s)
    (e : execRunStart k c bt host s = .next t) : Good b t := by
  unfold execRunStart at e
  injection e with e
  subst e
  repeat' first
    | with_reducible assumption
    | with_reducible apply lapse_good
    | with_reducible apply startHost_good
    | with_reducible apply startRun_good
    | intro _
    | simp only [good_mk]
    | with_reducible apply good_ite
    | dsimp only
    | split

theorem exportStart_good {b : State} (dir : Bool) (k : Nat) (s : State) (h : Good b s) : Good b (exportStart dir k s) := by
  unfold exportStart
  repeat' first
    | with_reducible assumption
    | with_reducible apply exportFail_good
    | with_reducible apply newJob_good
    | with_reducible apply setFs_good
    | with_reducible apply updPan_good
    | intro _
    | simp only [good_mk]
    | with_reducible apply good_ite
    | dsimp only
    | split

theorem execPanExport_good {b t : State} (k : StackNo) (s : State) (h : Good b s)
    (e : execPanExport k s = .next t) : Good b t := by
  unfold execPanExport at e
  injection e with e
  subst e
  repeat' first
    | with_reducible assumption
    | with_reducible apply exportStart_good

theorem execPanImport_good {b t : State} (k : StackNo) (s : State) (h : Good b s)
    (e : execPanImport k s = .next t) : Good b t := by
  unfold execPanImport at e
  injection e with e
  subst e
  repeat' first
    | with_reducible assumption
    | with_reducible apply exportStart_good

theorem exportEnd_good {b : State} (dir torn : Bool) (k : Nat) (units : List Nat) (s : State) (h : Good b s) : Good b (exportEnd dir torn k units s) := by
  unfold exportEnd
  repeat' first
    | with_reducible assumption
    | with_reducible apply exportFail_good
    | with_reducible apply exportOk_good
    | with_reducible apply setFlag_good
    | with_reducible apply good_foldl
    | intro _
    | simp only [good_mk]
    | with_reducible apply good_ite
    | dsimp only
    | split

theorem execExportDone_good {b t : State} (k : StackNo) (s : State) (h : Good b s)
    (e : execExportDone k s = .next t) : Good b t := by
  unfold execExportDone at e
  injection e with e
  subst e
  repeat' first
    | with_reducible assumption
    | with_reducible apply exportEnd_good
    | with_reducible apply exportFail_good
    | with_reducible apply setJob_good
    | intro _
    | simp only [good_mk]
    | with_reducible apply good_ite
    | dsimp only
    | split

theorem hostMoved_good {b : State} (j : Nat) (r : Run) (s : State) (h : Good b s) : Good b (hostMoved j r s) := by
  unfold hostMoved
  repeat' first
    | with_reducible assumption
    | with_reducible apply serveWrite_good
    | with_reducible apply setJob_good
    | intro _
    | simp only [good_mk]
    | with_reducible apply good_ite
    | dsimp only
    | split

theorem hostLost_good {b : State} (j : Nat) (idle : Bool) (s : State) (h : Good b s) : Good b (hostLost j idle s) := by
  unfold hostLost
  repeat' first
    | with_reducible assumption
    | with_reducible apply idle_good
    | with_reducible apply setJob_good
    | intro _
    | simp only [good_mk]
    | with_reducible apply good_ite
    | dsimp only
    | split

theorem hostParity_good {b : State} (k c j : Nat) (r : Run) (s : State) (h : Good b s) : Good b (hostParity k c j r s) := by
  unfold hostParity
  repeat' first
    | with_reducible assumption
    | with_reducible apply countRetry_good
    | with_reducible apply hostLost_good
    | with_reducible apply idle_good
    | with_reducible apply runFailed_good
    | with_reducible apply setJob_good
    | with_reducible apply updChan_good
    | intro _
    | simp only [good_mk]
    | with_reducible apply good_ite
    | dsimp only
    | split

theorem hostOutcome_good {b : State} (k c j : Nat) (r : Run) (parity : Bool) (ecc : EccOut) (cyc : Nat) (s : State) (h : Good b s) : Good b (hostOutcome k c j r parity ecc cyc s) := by
  unfold hostOutcome
  repeat' first
    | with_reducible assumption
    | with_reducible apply eccCorrected_good
    | with_reducible apply eccLost_good
    | with_reducible apply hostLost_good
    | with_reducible apply hostMoved_good
    | with_reducible apply hostParity_good
    | with_reducible apply idle_good
    | with_reducible apply laneLost_good
    | intro _
    | simp only [good_mk]
    | with_reducible apply good_ite
    | dsimp only
    | split

theorem execRunEnd_good {b t : State} (k : StackNo) (c : ChanNo) (parity : Bool) (ecc : EccOut) (acc : List LsAcc) (lost : List LineLoss) (s : State) (h : Good b s)
    (e : execRunEnd k c parity ecc acc lost s = .next t) : Good b t := by
  unfold execRunEnd at e
  injection e with e
  subst e
  repeat' first
    | with_reducible assumption
    | with_reducible apply endInbound_good
    | with_reducible apply hostOutcome_good
    | with_reducible apply runOutcome_good
    | with_reducible apply updChan_good
    | intro _
    | simp only [good_mk]
    | with_reducible apply good_ite
    | dsimp only
    | split

theorem execMarginStep_good {b t : State} (k : StackNo) (bt : Nat) (fin : Option (Nat × Nat)) (s : State) (h : Good b s)
    (e : execMarginStep k bt fin s = .next t) : Good b t := by
  unfold execMarginStep at e
  injection e with e
  subst e
  repeat' first
    | with_reducible assumption
    | with_reducible apply setB_good
    | with_reducible apply updStk_good
    | with_reducible apply marginDone_good
    | simp only [good_mk]
    | with_reducible apply good_ite
    | dsimp only
    | split

end Sys2Proof.Machine
end

