-- ==== Sys2Proof/Laws/KeepPort.lean ====
section
/-! SUPPORT. The operations of Machine/Port.lean keep the fuses, the queue and the canonical form. -/

set_option linter.unusedTactic false
set_option linter.unreachableTactic false
set_option linter.unusedSimpArgs false

namespace Sys2Proof.Machine

theorem dropFrame_good {b : State} (full : Bool) (f : Frame) (s : State) (h : Good b s) : Good b (dropFrame full f s) := by
  unfold dropFrame
  repeat' first
    | with_reducible assumption
    | with_reducible apply incSat_good
    | with_reducible apply raise_good
    | with_reducible apply sourceFault_good
    | intro _
    | simp only [good_mk]
    | with_reducible apply good_ite
    | dsimp only
    | split

theorem portFault_good {b : State} (p : Nat) (s : State) (h : Good b s) : Good b (portFault p s) := by
  unfold portFault
  repeat' first
    | with_reducible assumption
    | with_reducible apply takeFault_good

theorem markDown_good {b : State} (p : Nat) (s : State) (h : Good b s) : Good b (markDown p s) := by
  unfold markDown
  repeat' first
    | with_reducible assumption
    | with_reducible apply setFs_good
    | with_reducible apply raise_good

theorem startRebind_good {b : State} (k j : Nat) (s : State) (h : Good b s) : Good b (startRebind k j s) := by
  unfold startRebind
  repeat' first
    | with_reducible assumption
    | with_reducible apply setFs_good
    | with_reducible apply updPort_good
    | with_reducible apply queueCtrl_good
    | simp only [good_mk]
    | dsimp only
    | split

theorem portDown_good {b : State} (p : Nat) (s : State) (h : Good b s) : Good b (portDown p s) := by
  unfold portDown
  repeat' first
    | with_reducible assumption
    | with_reducible apply setB_good
    | with_reducible apply raise_good
    | with_reducible apply raiseIf_good
    | with_reducible apply portFault_good
    | with_reducible apply markDown_good
    | with_reducible apply startRebind_good
    | simp only [good_mk]
    | with_reducible apply good_ite
    | dsimp only
    | split

theorem retrainReset_good {b : State} (p : Nat) (s : State) (h : Good b s) : Good b (retrainReset p s) := by
  unfold retrainReset
  repeat' first
    | with_reducible assumption
    | with_reducible apply incSat_good
    | with_reducible apply raise_good
    | with_reducible apply sourceFault_good
    | with_reducible apply updPort_good
    | intro _
    | simp only [good_mk]
    | with_reducible apply good_ite
    | dsimp only
    | split

theorem escalate_good {b : State} (p : Nat) (s : State) (h : Good b s) : Good b (escalate p s) := by
  unfold escalate
  repeat' first
    | with_reducible assumption
    | with_reducible apply portDown_good
    | with_reducible apply retrainReset_good
    | with_reducible apply startRebind_good
    | with_reducible apply updPort_good
    | intro _
    | simp only [good_mk]
    | with_reducible apply good_ite
    | dsimp only
    | split

theorem startGoback_good {b : State} (p a : Nat) (s : State) (h : Good b s) : Good b (startGoback p a s) := by
  unfold startGoback
  repeat' first
    | with_reducible assumption
    | with_reducible apply incSat_good
    | with_reducible apply updPort_good
    | with_reducible apply escalate_good
    | simp only [good_mk]
    | with_reducible apply good_ite
    | dsimp only
    | split

theorem takeAck_good {b : State} (p : Nat) (f : Frame) (s : State) (h : Good b s) : Good b (takeAck p f s) := by
  unfold takeAck
  repeat' first
    | with_reducible assumption
    | with_reducible apply updPort_good
    | with_reducible apply startGoback_good
    | with_reducible apply good_ite
    | dsimp only
    | split

theorem execNakTimeout_good {b t : State} (p : PortNo) (s : State) (h : Good b s)
    (e : execNakTimeout p s = .next t) : Good b t := by
  unfold execNakTimeout at e
  injection e with e
  subst e
  repeat' first
    | with_reducible assumption
    | with_reducible apply updPort_good
    | simp only [good_mk]
    | with_reducible apply good_ite
    | dsimp only
    | split

theorem execReplayTimeout_good {b t : State} (p : PortNo) (s : State) (h : Good b s)
    (e : execReplayTimeout p s = .next t) : Good b t := by
  unfold execReplayTimeout at e
  injection e with e
  subst e
  repeat' first
    | with_reducible assumption
    | with_reducible apply incSat_good
    | with_reducible apply startGoback_good
    | with_reducible apply good_ite
    | dsimp only
    | split

theorem execRetrainDone_good {b t : State} (p : PortNo) (s : State) (h : Good b s)
    (e : execRetrainDone p s = .next t) : Good b t := by
  unfold execRetrainDone at e
  injection e with e
  subst e
  repeat' first
    | with_reducible assumption
    | with_reducible apply portDown_good
    | with_reducible apply retrainReset_good
    | with_reducible apply updPort_good
    | intro _
    | simp only [good_mk]
    | with_reducible apply good_ite
    | dsimp only
    | split

theorem execRetrainTimeout_good {b t : State} (p : PortNo) (s : State) (h : Good b s)
    (e : execRetrainTimeout p s = .next t) : Good b t := by
  unfold execRetrainTimeout at e
  injection e with e
  subst e
  repeat' first
    | with_reducible assumption
    | with_reducible apply updPort_good
    | with_reducible apply portDown_good
    | simp only [good_mk]
    | with_reducible apply good_ite
    | dsimp only
    | split

theorem execLossOfLight_good {b t : State} (p : PortNo) (s : State) (h : Good b s)
    (e : execLossOfLight p s = .next t) : Good b t := by
  unfold execLossOfLight at e
  injection e with e
  subst e
  repeat' first
    | with_reducible assumption
    | with_reducible apply updPort_good
    | with_reducible apply portDown_good
    | simp only [good_mk]
    | dsimp only

theorem execLaserSafe_good {b t : State} (p : PortNo) (s : State) (h : Good b s)
    (e : execLaserSafe p s = .next t) : Good b t := by
  unfold execLaserSafe at e
  injection e with e
  subst e
  repeat' first
    | with_reducible assumption
    | with_reducible apply setB_good
    | with_reducible apply raise_good
    | with_reducible apply good_ite
    | split

theorem execLightReturns_good {b t : State} (p : PortNo) (s : State) (h : Good b s)
    (e : execLightReturns p s = .next t) : Good b t := by
  unfold execLightReturns at e
  injection e with e
  subst e
  repeat' first
    | with_reducible assumption
    | with_reducible apply setB_good
    | with_reducible apply updPort_good
    | simp only [good_mk]
    | dsimp only

theorem laserPut_good {b : State} (p : Nat) (en : Bool) (s : State) (h : Good b s) : Good b (laserPut p en s) := by
  unfold laserPut
  repeat' first
    | with_reducible assumption
    | with_reducible apply setB_good
    | with_reducible apply portDown_good
    | with_reducible apply good_ite
    | dsimp only
    | split

theorem laserWrite_good {b : State} (p : Nat) (en : Bool) (s : State) (h : Good b s) : Good b (laserWrite p en s) := by
  unfold laserWrite
  repeat' first
    | with_reducible assumption
    | with_reducible apply queueRec_good
    | with_reducible apply laserPut_good

theorem execPortLaserWrite_good {b t : State} (p : PortNo) (en : Bool) (s : State) (h : Good b s)
    (e : execPortLaserWrite p en s = .next t) : Good b t := by
  unfold execPortLaserWrite at e
  injection e with e
  subst e
  repeat' first
    | with_reducible assumption
    | with_reducible apply laserWrite_good

theorem moveLink_good {b : State} (k j peerE : Nat) (s : State) (h : Good b s) : Good b (moveLink k j peerE s) := by
  unfold moveLink
  repeat' first
    | with_reducible assumption
    | with_reducible apply setFs_good
    | with_reducible apply raise_good
    | with_reducible apply updPort_good
    | with_reducible apply logOnly_good
    | with_reducible apply startGoback_good
    | simp only [good_mk]
    | dsimp only
    | split

theorem rebindRx_good {b : State} (j e : Nat) (s : State) (h : Good b s) : Good b (rebindRx j e s) := by
  unfold rebindRx
  repeat' first
    | with_reducible assumption
    | with_reducible apply queueCtrl_good
    | with_reducible apply moveLink_good
    | with_reducible apply good_ite
    | dsimp only
    | split

theorem execRebind_good {b t : State} (p : PortNo) (e : Nat) (s : State) (h : Good b s)
    (he : execRebind p e s = .next t) : Good b t := by
  unfold execRebind at he
  injection he with he
  subst he
  repeat' first
    | with_reducible assumption
    | with_reducible apply rebindRx_good

theorem rebindAckRx_good {b : State} (j e : Nat) (s : State) (h : Good b s) : Good b (rebindAckRx j e s) := by
  unfold rebindAckRx
  repeat' first
    | with_reducible assumption
    | with_reducible apply moveLink_good
    | with_reducible apply good_ite
    | dsimp only
    | split

theorem execRebindAck_good {b t : State} (p : PortNo) (e : Nat) (s : State) (h : Good b s)
    (he : execRebindAck p e s = .next t) : Good b t := by
  unfold execRebindAck at he
  injection he with he
  subst he
  repeat' first
    | with_reducible assumption
    | with_reducible apply rebindAckRx_good

theorem execRebindRepeat_good {b t : State} (p : PortNo) (s : State) (h : Good b s)
    (e : execRebindRepeat p s = .next t) : Good b t := by
  unfold execRebindRepeat at e
  injection e with e
  subst e
  repeat' first
    | with_reducible assumption
    | with_reducible apply queueCtrl_good
    | simp only [good_mk]
    | with_reducible apply good_ite
    | dsimp only
    | split

theorem execRebindTimeout_good {b t : State} (p : PortNo) (s : State) (h : Good b s)
    (e : execRebindTimeout p s = .next t) : Good b t := by
  unfold execRebindTimeout at e
  injection e with e
  subst e
  repeat' first
    | with_reducible assumption
    | with_reducible apply updPort_good
    | with_reducible apply portFault_good
    | simp only [good_mk]
    | with_reducible apply good_ite
    | dsimp only
    | split

theorem sendIdent_good {b : State} (p : Nat) (s : State) (h : Good b s) : Good b (sendIdent p s) := by
  unfold sendIdent
  repeat' first
    | with_reducible assumption
    | with_reducible apply queueCtrl_good
    | intro _
    | simp only [good_mk]
    | with_reducible apply good_ite
    | dsimp only
    | split

theorem execIdentTimer_good {b t : State} (p : PortNo) (s : State) (h : Good b s)
    (e : execIdentTimer p s = .next t) : Good b t := by
  unfold execIdentTimer at e
  injection e with e
  subst e
  repeat' first
    | with_reducible assumption
    | with_reducible apply sendIdent_good
    | intro _
    | simp only [good_mk]
    | with_reducible apply good_ite
    | dsimp only
    | split

theorem identRx_good {b : State} (p : Nat) (m : IdentMsg) (s : State) (h : Good b s) : Good b (identRx p m s) := by
  unfold identRx
  repeat' first
    | with_reducible assumption
    | with_reducible apply setFs_good
    | with_reducible apply updPort_good
    | with_reducible apply portDown_good
    | simp only [good_mk]
    | with_reducible apply good_ite
    | dsimp only
    | split

theorem execIdent_good {b t : State} (p : PortNo) (m : IdentMsg) (s : State) (h : Good b s)
    (e : execIdent p m s = .next t) : Good b t := by
  unfold execIdent at e
  injection e with e
  subst e
  repeat' first
    | with_reducible assumption
    | with_reducible apply identRx_good

theorem classify_good {b : State} (p : Nat) (s : State) (h : Good b s) : Good b (classify p s) := by
  unfold classify
  repeat' first
    | with_reducible assumption
    | with_reducible apply raiseIf_good
    | with_reducible apply setFs_good
    | with_reducible apply updPort_good
    | intro _
    | simp only [good_mk]
    | with_reducible apply good_ite
    | dsimp only
    | split

theorem sendFrame_good {b : State} (p : Nat) (f : Frame) (s : State) (h : Good b s) : Good b (sendFrame p f s) := by
  unfold sendFrame
  repeat' first
    | with_reducible assumption
    | with_reducible apply updPort_good
    | simp only [good_mk]
    | dsimp only
    | split

theorem sendNew_good {b : State} (p : Nat) (f : Frame) (s : State) (h : Good b s) : Good b (sendNew p f s) := by
  unfold sendNew
  repeat' first
    | with_reducible assumption
    | with_reducible apply updPort_good
    | with_reducible apply sendFrame_good
    | simp only [good_mk]
    | dsimp only
    | split

theorem resend_good {b : State} (p g : Nat) (s : State) (h : Good b s) : Good b (resend p g s) := by
  unfold resend
  repeat' first
    | with_reducible assumption
    | with_reducible apply updPort_good
    | with_reducible apply escalate_good
    | with_reducible apply sendFrame_good
    | simp only [good_mk]
    | with_reducible apply good_ite
    | dsimp only
    | split

theorem sendIdle_good {b : State} (p : Nat) (s : State) (h : Good b s) : Good b (sendIdle p s) := by
  unfold sendIdle
  repeat' first
    | with_reducible assumption
    | with_reducible apply updPort_good
    | with_reducible apply sendFrame_good
    | simp only [good_mk]
    | dsimp only
    | split

theorem unreserved_good {b : State} (p slot : Nat) (s : State) (h : Good b s) : Good b (unreserved p slot s) := by
  unfold unreserved
  repeat' first
    | with_reducible assumption
    | with_reducible apply sendNew_good
    | with_reducible apply sendIdle_good
    | simp only [good_mk]
    | with_reducible apply good_ite
    | dsimp only
    | split

theorem serviceSlot_good {b : State} (p slot : Nat) (s : State) (h : Good b s) : Good b (serviceSlot p slot s) := by
  unfold serviceSlot
  repeat' first
    | with_reducible assumption
    | with_reducible apply updPort_good
    | with_reducible apply sendFrame_good
    | with_reducible apply resend_good
    | with_reducible apply unreserved_good
    | simp only [good_mk]
    | with_reducible apply good_ite
    | dsimp only
    | split

theorem execEgressSlot_good {b t : State} (p : PortNo) (slot : Nat) (s : State) (h : Good b s)
    (e : execEgressSlot p slot s = .next t) : Good b t := by
  unfold execEgressSlot at e
  injection e with e
  subst e
  repeat' first
    | with_reducible assumption
    | with_reducible apply sendNew_good
    | with_reducible apply resend_good
    | with_reducible apply unreserved_good
    | with_reducible apply serviceSlot_good
    | simp only [good_mk]
    | with_reducible apply good_ite
    | dsimp only
    | split

end Sys2Proof.Machine
end

