-- ==== Sys2Proof/Laws/KeepHall.lean ====
section
/-! SUPPORT. The operations of Machine/Hall.lean keep the fuses, the queue and the canonical form. -/

set_option linter.unusedTactic false
set_option linter.unreachableTactic false
set_option linter.unusedSimpArgs false

namespace Sys2Proof.Machine

theorem queuePlanned_good {b : State} (p : Nat) (f : Frame) (s : State) (h : Good b s) : Good b (queuePlanned p f s) := by
  unfold queuePlanned
  repeat' first
    | with_reducible assumption
    | with_reducible apply updPort_good
    | simp only [good_mk]
    | dsimp only

theorem forward_good {b : State} (part : Nat) (f : Frame) (s : State) (h : Good b s) : Good b (forward part f s) := by
  unfold forward
  repeat' first
    | with_reducible assumption
    | with_reducible apply dropFrame_good
    | with_reducible apply queuePlanned_good
    | simp only [good_mk]
    | dsimp only
    | split

theorem forwardAll_good {b : State} (lo : Nat) (f : Frame) (s : State) (h : Good b s) : Good b (forwardAll lo f s) := by
  unfold forwardAll
  repeat' first
    | with_reducible assumption
    | with_reducible apply dropFrame_good
    | with_reducible apply queuePlanned_good
    | with_reducible apply good_foldl
    | intro _
    | simp only [good_mk]
    | dsimp only
    | split

theorem notePath_good {b : State} (dst : Nat) (s : State) (h : Good b s) : Good b (notePath dst s) := by
  unfold notePath
  repeat' first
    | with_reducible assumption
    | simp only [good_mk]
    | with_reducible apply good_ite
    | dsimp only
    | split

theorem showLanding_good {b : State} (s : State) (h : Good b s) : Good b (showLanding s) := by
  unfold showLanding
  repeat' first
    | with_reducible assumption
    | with_reducible apply setF_good
    | with_reducible apply peakF_good
    | dsimp only
    | split

theorem landPlace_good {b : State} (f : Frame) (part : Nat) (s : State) (h : Good b s) : Good b (landPlace f part s) := by
  unfold landPlace
  repeat' first
    | with_reducible assumption
    | with_reducible apply dropFrame_good
    | with_reducible apply incSat_good
    | with_reducible apply raise_good
    | with_reducible apply showLanding_good
    | with_reducible apply sourceFault_good
    | refine good_secStop _ ?_ (smSet_wf _ _ _ _)
    | intro _
    | simp only [good_mk]
    | with_reducible apply good_ite
    | dsimp only
    | split

theorem landArrival_good {b : State} (f : Frame) (s : State) (h : Good b s) : Good b (landArrival f s) := by
  unfold landArrival
  repeat' first
    | with_reducible assumption
    | with_reducible apply incSat_good
    | with_reducible apply raise_good
    | with_reducible apply declareOverrun_good
    | with_reducible apply dropFrame_good
    | with_reducible apply landPlace_good
    | simp only [good_mk]
    | with_reducible apply good_ite
    | dsimp only
    | split

theorem markRx_good {b : State} (src tick : Nat) (s : State) (h : Good b s) : Good b (markRx src tick s) := by
  unfold markRx
  repeat' first
    | with_reducible assumption
    | simp only [good_mk]
    | with_reducible apply good_ite
    | dsimp only
    | split

theorem execReplayMark_good {b t : State} (src tick : Nat) (s : State) (h : Good b s)
    (e : execReplayMark src tick s = .next t) : Good b t := by
  unfold execReplayMark at e
  injection e with e
  subst e
  repeat' first
    | with_reducible assumption
    | with_reducible apply markRx_good

theorem commitWrite_good {b : State} (dw : List CommitAcc) (s : State) (w : CommitW) (h : Good b s) : Good b (commitWrite dw s w) := by
  unfold commitWrite
  repeat' first
    | with_reducible assumption
    | with_reducible apply updCore_good
    | intro _
    | simp only [good_mk]
    | with_reducible apply good_ite
    | dsimp only
    | split

theorem closeSem_good {b : State} (c : Nat) (s : State) (h : Good b s) : Good b (closeSem c s) := by
  unfold closeSem
  repeat' first
    | with_reducible assumption
    | with_reducible apply updCore_good
    | with_reducible apply takeFaults_good

theorem boundaryPost_good {b : State} (s : State) (p : Nat × Nat × Nat × Nat) (h : Good b s) : Good b (boundaryPost s p) := by
  unfold boundaryPost
  repeat' first
    | with_reducible assumption
    | with_reducible apply updCore_good
    | intro _
    | simp only [good_mk]
    | with_reducible apply good_ite
    | dsimp only
    | split

theorem boundaryPosts_good {b : State} (s : State) (h : Good b s) : Good b (boundaryPosts s) := by
  unfold boundaryPosts
  repeat' first
    | with_reducible assumption
    | with_reducible apply boundaryPost_good
    | with_reducible apply closeSem_good
    | with_reducible apply takeFaults_good
    | with_reducible apply updCore_good
    | with_reducible apply good_foldl
    | intro _
    | simp only [good_mk]
    | with_reducible apply good_ite
    | dsimp only
    | split

theorem freeLanding_good {b : State} (s : State) (h : Good b s) : Good b (freeLanding s) := by
  unfold freeLanding
  repeat' first
    | with_reducible assumption
    | with_reducible apply showLanding_good
    | simp only [good_mk]
    | dsimp only

theorem sendOut_good {b : State} (part : Nat) (f : Frame) (s : State) (h : Good b s) : Good b (sendOut part f s) := by
  unfold sendOut
  repeat' first
    | with_reducible assumption
    | with_reducible apply forward_good
    | with_reducible apply forwardAll_good
    | with_reducible apply notePath_good
    | with_reducible apply landArrival_good
    | with_reducible apply good_ite
    | split

theorem strmIn_good {b : State} (fs : List Frame) (s : State) (h : Good b s) : Good b (strmIn fs s) := by
  unfold strmIn
  repeat' first
    | with_reducible assumption
    | with_reducible apply sendFlit_good
    | with_reducible apply good_foldl
    | intro _
    | simp only [good_mk]
    | dsimp only

theorem hsndEff_good {b : State} (i : Issue) (w x : Nat) (s : State) (h : Good b s) : Good b (hsndEff i w x s) := by
  unfold hsndEff
  repeat' first
    | with_reducible assumption
    | with_reducible apply outbound_good
    | with_reducible apply sendOut_good
    | with_reducible apply strmIn_good
    | with_reducible apply good_foldl
    | intro _
    | simp only [good_mk]
    | with_reducible apply good_ite
    | dsimp only
    | split

theorem execHsnd_good {b t : State} (i : Issue) (s : State) (h : Good b s)
    (e : execHsnd i s = .next t) : Good b t := by
  unfold execHsnd at e
  injection e with e
  subst e
  repeat' first
    | with_reducible assumption
    | with_reducible apply issueOp_good
    | with_reducible apply hsndEff_good
    | intro _

end Sys2Proof.Machine
end

