-- ==== Sys2Proof/Laws/KeepGuest.lean ====
section
/-! SUPPORT. The operations of Machine/Guest.lean keep the fuses, the queue and the canonical form. -/

set_option linter.unusedTactic false
set_option linter.unreachableTactic false
set_option linter.unusedSimpArgs false

namespace Sys2Proof.Machine

theorem fenceGuest_good {b : State} (s : State) (h : Good b s) : Good b (fenceGuest s) := by
  unfold fenceGuest
  repeat' first
    | with_reducible assumption
    | with_reducible apply fenceUnit_good
    | with_reducible apply logOnly_good
    | with_reducible apply onGuest_good
    | with_reducible apply setB_good
    | intro _
    | simp only [good_mk]
    | with_reducible apply good_ite
    | dsimp only
    | split

theorem violation_good {b : State} (cause win : Nat) (f : GFlit) (s : State) (h : Good b s) : Good b (violation cause win f s) := by
  unfold violation
  repeat' first
    | with_reducible assumption
    | with_reducible apply setFs_good
    | with_reducible apply raise_good
    | with_reducible apply fenceGuest_good
    | with_reducible apply good_ite
    | dsimp only
    | split

theorem guestRx_good {b : State} (want : Nat) (f : GFlit) (eff : State → State) (s : State) (h_eff : ∀ (s : State), Good b s → Good b (eff s)) (h : Good b s) : Good b (guestRx want f eff s) := by
  unfold guestRx
  repeat' first
    | with_reducible assumption
    | with_reducible apply h_eff
    | with_reducible apply takeGSeq_good
    | with_reducible apply violation_good
    | with_reducible apply good_ite
    | dsimp only
    | split

theorem guestRequest_good {b : State} (wr : Bool) (f : GFlit) (s : State) (h : Good b s) : Good b (guestRequest wr f s) := by
  unfold guestRequest
  repeat' first
    | with_reducible assumption
    | with_reducible apply onGuest_good
    | with_reducible apply violation_good
    | intro _
    | simp only [good_mk]
    | with_reducible apply good_ite
    | dsimp only
    | split

theorem execGuestRd_good {b t : State} (f : GFlit) (s : State) (h : Good b s)
    (e : execGuestRd f s = .next t) : Good b t := by
  unfold execGuestRd at e
  injection e with e
  subst e
  repeat' first
    | with_reducible assumption
    | with_reducible apply guestRx_good
    | with_reducible apply guestRequest_good
    | intro _

theorem execGuestWr_good {b t : State} (f : GFlit) (s : State) (h : Good b s)
    (e : execGuestWr f s = .next t) : Good b t := by
  unfold execGuestWr at e
  injection e with e
  subst e
  repeat' first
    | with_reducible assumption
    | with_reducible apply guestRx_good
    | with_reducible apply guestRequest_good
    | intro _

theorem strmRx_good {b : State} (f : GFlit) (s : State) (h : Good b s) : Good b (strmRx f s) := by
  unfold strmRx
  repeat' first
    | with_reducible assumption
    | with_reducible apply onGuest_good
    | with_reducible apply landArrival_good
    | with_reducible apply violation_good
    | simp only [good_mk]
    | with_reducible apply good_ite
    | dsimp only
    | split

theorem execStrmOut_good {b t : State} (f : GFlit) (s : State) (h : Good b s)
    (e : execStrmOut f s = .next t) : Good b t := by
  unfold execStrmOut at e
  injection e with e
  subst e
  repeat' first
    | with_reducible assumption
    | with_reducible apply guestRx_good
    | with_reducible apply strmRx_good
    | intro _

theorem execGuestLink_good {b t : State} (f : GFlit) (s : State) (h : Good b s)
    (e : execGuestLink f s = .next t) : Good b t := by
  unfold execGuestLink at e
  injection e with e
  subst e
  repeat' first
    | with_reducible assumption
    | with_reducible apply takeLink_good
    | with_reducible apply guestRx_good
    | intro _

theorem answerGuest_good {b : State} (q : GReq) (s : State) (h : Good b s) : Good b (answerGuest q s) := by
  unfold answerGuest
  repeat' first
    | with_reducible assumption
    | with_reducible apply sendFlit_good
    | with_reducible apply serveWrite_good
    | intro _
    | simp only [good_mk]
    | with_reducible apply good_ite
    | dsimp only
    | split

theorem execGuestRequestServe_good {b t : State} (sv : Served) (s : State) (h : Good b s)
    (e : execGuestRequestServe sv s = .next t) : Good b t := by
  unfold execGuestRequestServe at e
  injection e with e
  subst e
  repeat' first
    | with_reducible assumption
    | with_reducible apply answerGuest_good
    | with_reducible apply onGuest_good
    | with_reducible apply serveAccess_good
    | intro _
    | simp only [good_mk]
    | with_reducible apply good_ite
    | dsimp only
    | split

theorem grantCredits_good {b : State} (s : State) (h : Good b s) : Good b (grantCredits s) := by
  unfold grantCredits
  repeat' first
    | with_reducible assumption
    | with_reducible apply onGuest_good
    | with_reducible apply sendFlit_good
    | with_reducible apply good_foldl
    | intro _
    | simp only [good_mk]
    | with_reducible apply good_ite
    | dsimp only
    | split

theorem execGuestPwr_good {b t : State} (s : State) (h : Good b s)
    (e : execGuestPwr s = .next t) : Good b t := by
  unfold execGuestPwr at e
  injection e with e
  subst e
  repeat' first
    | with_reducible assumption
    | with_reducible apply setB_good
    | with_reducible apply raise_good
    | with_reducible apply fenceGuest_good
    | with_reducible apply good_ite
    | split

theorem guestResetCmd_good {b : State} (s : State) (h : Good b s) : Good b (guestResetCmd s) := by
  unfold guestResetCmd
  repeat' first
    | with_reducible assumption
    | with_reducible apply onGuest_good
    | with_reducible apply raise_good
    | with_reducible apply setFs_good
    | intro _
    | simp only [good_mk]
    | with_reducible apply good_ite
    | dsimp only
    | split

theorem execGstReset_good {b t : State} (s : State) (h : Good b s)
    (e : execGstReset s = .next t) : Good b t := by
  unfold execGstReset at e
  injection e with e
  subst e
  repeat' first
    | with_reducible assumption
    | with_reducible apply guestResetCmd_good

theorem trainGuest_good {b : State} (t0 t1 : Bool) (s : State) (h : Good b s) : Good b (trainGuest t0 t1 s) := by
  unfold trainGuest
  repeat' first
    | with_reducible assumption
    | with_reducible apply raiseIf_good
    | with_reducible apply setFs_good
    | intro _
    | simp only [good_mk]
    | with_reducible apply good_ite
    | dsimp only
    | split

theorem readIdentity_good {b : State} (frame : Option (List Byte)) (s : State) (h : Good b s) : Good b (readIdentity frame s) := by
  unfold readIdentity
  repeat' first
    | with_reducible assumption
    | with_reducible apply fenceGuest_good
    | with_reducible apply onGuest_good
    | with_reducible apply raise_good
    | with_reducible apply setF_good
    | intro _
    | simp only [good_mk]
    | with_reducible apply good_ite
    | dsimp only
    | split

theorem unfenceGuest_good {b : State} (s : State) (h : Good b s) : Good b (unfenceGuest s) := by
  unfold unfenceGuest
  repeat' first
    | with_reducible assumption
    | with_reducible apply setFs_good

theorem execResetDone_good {b t : State} (m0 m1 : Bool) (guest : Option (List Byte)) (s : State) (h : Good b s)
    (e : execResetDone m0 m1 guest s = .next t) : Good b t := by
  unfold execResetDone at e
  injection e with e
  subst e
  repeat' first
    | with_reducible assumption
    | with_reducible apply raise_good
    | with_reducible apply readIdentity_good
    | with_reducible apply setB_good
    | with_reducible apply trainGuest_good
    | with_reducible apply unfenceGuest_good
    | intro _
    | simp only [good_mk]
    | with_reducible apply good_ite
    | dsimp only
    | split

end Sys2Proof.Machine
end

