-- ==== Sys2Proof/Laws/KeepReduce.lean ====
section
/-! SUPPORT. The operations of Machine/Reduce.lean keep the fuses, the queue and the canonical form. -/

set_option linter.unusedTactic false
set_option linter.unreachableTactic false
set_option linter.unusedSimpArgs false

namespace Sys2Proof.Machine

theorem sendColl_good {b : State} (part : Nat) (pl : Plan) (fs : List Frame) (s : State) (h : Good b s) : Good b (sendColl part pl fs s) := by
  unfold sendColl
  repeat' first
    | with_reducible assumption
    | with_reducible apply sendOut_good
    | with_reducible apply good_foldl
    | intro _
    | simp only [good_mk]
    | dsimp only
    | split

theorem sendBcast_good {b : State} (part : Nat) (fs : List Frame) (s : State) (h : Good b s) : Good b (sendBcast part fs s) := by
  unfold sendBcast
  repeat' first
    | with_reducible assumption
    | with_reducible apply sendOut_good
    | with_reducible apply good_foldl
    | intro _
    | simp only [good_mk]
    | dsimp only

theorem issuePiece_good {b : State} (q : Piece) (pl : Plan) (data : List Byte) (s : State) (h : Good b s) : Good b (issuePiece q pl data s) := by
  unfold issuePiece
  repeat' first
    | with_reducible assumption
    | with_reducible apply sendColl_good
    | with_reducible apply sendBcast_good
    | simp only [good_mk]
    | with_reducible apply good_ite
    | dsimp only
    | split

theorem collEff_good {b : State} (i : Issue) (w x : Nat) (s : State) (h : Good b s) : Good b (collEff i w x s) := by
  unfold collEff
  repeat' first
    | with_reducible assumption
    | with_reducible apply issuePiece_good
    | with_reducible apply outbound_good
    | intro _
    | simp only [good_mk]
    | with_reducible apply good_ite
    | dsimp only
    | split

theorem execColl_good {b t : State} (i : Issue) (s : State) (h : Good b s)
    (e : execColl i s = .next t) : Good b t := by
  unfold execColl at e
  injection e with e
  subst e
  repeat' first
    | with_reducible assumption
    | with_reducible apply issueOp_good
    | with_reducible apply collEff_good
    | intro _

theorem putSum_good {b : State} (m : RSum) (s : State) (h : Good b s) : Good b (putSum m s) := by
  unfold putSum
  repeat' first
    | with_reducible assumption
    | simp only [good_mk]
    | dsimp only

theorem redBad_good {b : State} (part ctx seg : Nat) (exp : Bool) (s : State) (h : Good b s) : Good b (redBad part ctx seg exp s) := by
  unfold redBad
  repeat' first
    | with_reducible assumption
    | with_reducible apply incSat_good
    | with_reducible apply setFs_good
    | with_reducible apply raise_good
    | with_reducible apply takeFault_good
    | simp only [good_mk]
    | dsimp only
    | split

theorem redSat_good {b : State} (part ctx seg : Nat) (s : State) (h : Good b s) : Good b (redSat part ctx seg s) := by
  unfold redSat
  repeat' first
    | with_reducible assumption
    | with_reducible apply incSat_good
    | with_reducible apply setFs_good
    | with_reducible apply raise_good
    | with_reducible apply logOnly_good
    | dsimp only
    | split

theorem addContribution_good {b : State} (part ctx seg k fmt endAt : Nat) (bs : List Byte) (s : State) (h : Good b s) : Good b (addContribution part ctx seg k fmt endAt bs s) := by
  unfold addContribution
  repeat' first
    | with_reducible assumption
    | with_reducible apply putSum_good
    | with_reducible apply redSat_good
    | intro _
    | simp only [good_mk]
    | with_reducible apply good_ite
    | dsimp only
    | split

theorem execReductionAdd_good {b t : State} (part : Fin 4) (ctx : Fin 8) (seg k : Nat) (bad : Option Bool) (s : State) (h : Good b s)
    (e : execReductionAdd part ctx seg k bad s = .next t) : Good b t := by
  unfold execReductionAdd at e
  injection e with e
  subst e
  repeat' first
    | with_reducible assumption
    | with_reducible apply addContribution_good
    | with_reducible apply redBad_good
    | intro _
    | simp only [good_mk]
    | with_reducible apply good_ite
    | dsimp only
    | split

theorem commitTick_good {b : State} (dw : List CommitAcc) (s : State) (h : Good b s) : Good b (commitTick dw s) := by
  unfold commitTick
  repeat' first
    | with_reducible assumption
    | with_reducible apply commitWrite_good
    | with_reducible apply takeFaults_good
    | with_reducible apply good_foldl
    | intro _
    | simp only [good_mk]
    | with_reducible apply good_ite
    | dsimp only
    | split

theorem duePosts_good {b : State} (s : State) (h : Good b s) : Good b (duePosts s) := by
  unfold duePosts
  repeat' first
    | with_reducible assumption
    | intro _
    | simp only [good_mk]
    | with_reducible apply good_ite
    | dsimp only
    | split

theorem closeReduce_good {b : State} (s : State) (h : Good b s) : Good b (closeReduce s) := by
  unfold closeReduce
  repeat' first
    | with_reducible assumption
    | with_reducible apply setF_good
    | with_reducible apply peakF_good
    | simp only [good_mk]
    | dsimp only
    | split

theorem sendPhase2_good {b : State} (part : Nat) (s : State) (h : Good b s) : Good b (sendPhase2 part s) := by
  unfold sendPhase2
  repeat' first
    | with_reducible assumption
    | with_reducible apply sendColl_good
    | with_reducible apply good_foldl
    | intro _
    | simp only [good_mk]
    | with_reducible apply good_ite
    | dsimp only
    | split

theorem issueNorm_good {b : State} (s : State) (h : Good b s) : Good b (issueNorm s) := by
  unfold issueNorm
  repeat' first
    | with_reducible assumption
    | with_reducible apply issuePiece_good
    | with_reducible apply good_foldl
    | intro _
    | simp only [good_mk]
    | dsimp only
    | split

end Sys2Proof.Machine
end

