-- ==== Sys2Proof/Laws/KeepPlanOps.lean ====
section
/-! SUPPORT. The operations of Machine/PlanOps.lean keep the fuses, the queue and the canonical form. -/

set_option linter.unusedTactic false
set_option linter.unreachableTactic false
set_option linter.unusedSimpArgs false

namespace Sys2Proof.Machine

theorem bringSeg_good {b : State} (pl : Plan) (c ptick : Nat) (s : State) (h : Good b s) : Good b (bringSeg pl c ptick s) := by
  unfold bringSeg
  repeat' first
    | with_reducible assumption
    | with_reducible apply updCore_good
    | intro _
    | simp only [good_mk]
    | with_reducible apply good_ite
    | dsimp only
    | split

theorem prepareCores_good {b : State} (pl : Plan) (s : State) (h : Good b s) : Good b (prepareCores pl s) := by
  unfold prepareCores
  repeat' first
    | with_reducible assumption
    | with_reducible apply updCore_good
    | with_reducible apply bringSeg_good
    | with_reducible apply good_foldl
    | intro _
    | simp only [good_mk]
    | with_reducible apply good_ite
    | dsimp only
    | split

theorem setResume_good {b : State} (m : Nat) (s : State) (h : Good b s) : Good b (setResume m s) := by
  unfold setResume
  repeat' first
    | with_reducible assumption
    | with_reducible apply setFs_good

theorem releaseCore_good {b : State} (pl : Plan) (m c : Nat) (planned : Bool) (s : State) (h : Good b s) : Good b (releaseCore pl m c planned s) := by
  unfold releaseCore
  repeat' first
    | with_reducible assumption
    | with_reducible apply bringSeg_good
    | with_reducible apply updCore_good
    | intro _
    | simp only [good_mk]
    | with_reducible apply good_ite
    | dsimp only
    | split

theorem stopSec_good {b : State} (n cause : Nat) (s : State) (h : Good b s) : Good b (stopSec n cause s) := by
  unfold stopSec
  have h' : Good b { { s with secStop := smSet 0 s.secStop n 0 } with secs := smSet none s.secs n none } :=
    good_secs _ (good_secStop _ h (smSet_wf _ _ _ _)) (smSet_wf _ _ _ _)
  exact good_ite h (raiseSec_good _ _ _ (mapCores_good _ _ (setFs_good _ _ h')))

end Sys2Proof.Machine
end

