-- ==== Sys2Proof/Laws/KeepDrain.lean ====
section
/-! SUPPORT. The operations of Machine/Drain.lean keep the fuses, the queue and the canonical form. -/

set_option linter.unusedTactic false
set_option linter.unreachableTactic false
set_option linter.unusedSimpArgs false

namespace Sys2Proof.Machine

theorem planDrain_good {b : State} (t : Nat) (s : State) (h : Good b s) : Good b (planDrain t s) := by
  unfold planDrain
  repeat' first
    | with_reducible assumption
    | with_reducible apply faultDrain_good
    | simp only [good_mk]
    | with_reducible apply good_ite
    | dsimp only
    | split

theorem noteDrain_good {b : State} (t : Nat) (s : State) (h : Good b s) : Good b (noteDrain t s) := by
  unfold noteDrain
  repeat' first
    | with_reducible assumption
    | with_reducible apply raise_good
    | with_reducible apply logOnly_good

theorem drainRequest_good {b : State} (at_ : Option Nat) (s : State) (h : Good b s) : Good b (drainRequest at_ s) := by
  unfold drainRequest
  repeat' first
    | with_reducible assumption
    | with_reducible apply faultDrain_good
    | with_reducible apply planDrain_good
    | with_reducible apply noteDrain_good
    | simp only [good_mk]
    | with_reducible apply good_ite
    | dsimp only
    | split

theorem execDrainReqPin_good {b t : State} (s : State) (h : Good b s)
    (e : execDrainReqPin s = .next t) : Good b t := by
  unfold execDrainReqPin at e
  injection e with e
  subst e
  repeat' first
    | with_reducible assumption
    | with_reducible apply drainRequest_good

theorem drainCmd_good {b : State} (s : State) (h : Good b s) : Good b (drainCmd s) := by
  unfold drainCmd
  repeat' first
    | with_reducible assumption
    | with_reducible apply drainRequest_good
    | with_reducible apply good_ite
    | split

theorem execFltDrainCmdDrain_good {b t : State} (s : State) (h : Good b s)
    (e : execFltDrainCmdDrain s = .next t) : Good b t := by
  unfold execFltDrainCmdDrain at e
  injection e with e
  subst e
  repeat' first
    | with_reducible assumption
    | with_reducible apply drainCmd_good

theorem rewriteCopy_good {b : State} (k : Nat) (e : JEntry) (s : State) (h : Good b s) : Good b (rewriteCopy k e s) := by
  unfold rewriteCopy
  repeat' first
    | with_reducible assumption
    | with_reducible apply wrMems_good
    | simp only [good_mk]
    | with_reducible apply good_ite
    | dsimp only
    | split

theorem drainPan_good {b : State} (k : Nat) (s : State) (h : Good b s) : Good b (drainPan k s) := by
  unfold drainPan
  repeat' first
    | with_reducible assumption
    | with_reducible apply closePan_good
    | with_reducible apply restorePan_good
    | with_reducible apply rewriteCopy_good
    | with_reducible apply good_foldl
    | intro _
    | dsimp only
    | split

theorem dropRuns_good {b : State} (s : State) (h : Good b s) : Good b (dropRuns s) := by
  unfold dropRuns
  repeat' first
    | with_reducible assumption
    | with_reducible apply mapChans_good
    | simp only [good_mk]
    | dsimp only

theorem dropLanding_good {b : State} (s : State) (h : Good b s) : Good b (dropLanding s) := by
  unfold dropLanding
  repeat' first
    | with_reducible assumption
    | with_reducible apply showLanding_good
    | simp only [good_mk]
    | dsimp only
    | split

theorem restTick_good {b : State} (s : State) (h : Good b s) : Good b (restTick s) := by
  unfold restTick
  repeat' first
    | with_reducible assumption
    | with_reducible apply faultDrain_good
    | intro _
    | simp only [good_mk]
    | with_reducible apply good_ite
    | dsimp only
    | split

theorem finishDrain_good {b : State} (s : State) (h : Good b s) : Good b (finishDrain s) := by
  unfold finishDrain
  repeat' first
    | with_reducible assumption
    | with_reducible apply drainPan_good
    | with_reducible apply dropLanding_good
    | with_reducible apply dropRuns_good
    | with_reducible apply goFlagged_good
    | with_reducible apply raise_good
    | with_reducible apply restTick_good
    | with_reducible apply setB_good
    | with_reducible apply setFs_good
    | with_reducible apply setTop_good
    | with_reducible apply settleGuest_good
    | with_reducible apply stopSec_good
    | with_reducible apply good_foldl
    | intro _
    | simp only [good_mk]
    | with_reducible apply good_ite
    | dsimp only
    | split

theorem execDrained_good {b t : State} (s : State) (h : Good b s)
    (e : execDrained s = .next t) : Good b t := by
  unfold execDrained at e
  injection e with e
  subst e
  repeat' first
    | with_reducible assumption
    | with_reducible apply finishDrain_good
    | with_reducible apply good_ite
    | split

theorem releaseDrain_good {b : State} (s : State) (h : Good b s) : Good b (releaseDrain s) := by
  unfold releaseDrain
  repeat' first
    | with_reducible assumption
    | with_reducible apply setB_good
    | with_reducible apply setTop_good
    | with_reducible apply setResume_good
    | with_reducible apply releaseCore_good
    | with_reducible apply good_foldl
    | intro _
    | simp only [good_mk]
    | with_reducible apply good_ite
    | dsimp only
    | split

theorem execFltDrainCmdRelease_good {b t : State} (s : State) (h : Good b s)
    (e : execFltDrainCmdRelease s = .next t) : Good b t := by
  unfold execFltDrainCmdRelease at e
  injection e with e
  subst e
  repeat' first
    | with_reducible assumption
    | with_reducible apply releaseDrain_good

theorem silentMismatch_good {b : State} (c n : Nat) (s : State) (h : Good b s) : Good b (silentMismatch c n s) := by
  unfold silentMismatch
  repeat' first
    | with_reducible assumption
    | with_reducible apply raise_good
    | with_reducible apply setFs_good
    | with_reducible apply setSuspect_good
    | with_reducible apply takeFault_good
    | intro _
    | simp only [good_mk]
    | with_reducible apply good_ite
    | dsimp only
    | split

theorem execTestBlockCompare_good {b t : State} (lead : CoreId) (e : Engine) (j sigLead sigOther : Nat) (s : State) (h : Good b s)
    (e : execTestBlockCompare lead e j sigLead sigOther s = .next t) : Good b t := by
  unfold execTestBlockCompare at e
  injection e with e
  subst e
  repeat' first
    | with_reducible assumption
    | with_reducible apply incSat_good
    | with_reducible apply silentMismatch_good
    | with_reducible apply updCore_good
    | intro _
    | simp only [good_mk]
    | with_reducible apply good_ite
    | dsimp only
    | split

theorem sendLockstep_good {b : State} (s : State) (h : Good b s) : Good b (sendLockstep s) := by
  unfold sendLockstep
  repeat' first
    | with_reducible assumption
    | with_reducible apply queueCtrl_good
    | with_reducible apply good_foldl
    | intro _
    | simp only [good_mk]
    | with_reducible apply good_ite
    | dsimp only
    | split

theorem lockstepRx_good {b : State} (tick f : Nat) (data : List Byte) (s : State) (h : Good b s) : Good b (lockstepRx tick f data s) := by
  unfold lockstepRx
  repeat' first
    | with_reducible assumption
    | simp only [good_mk]
    | with_reducible apply good_ite
    | dsimp only
    | split

theorem execLockstep_good {b t : State} (tick f : Nat) (data : List Byte) (s : State) (h : Good b s)
    (e : execLockstep tick f data s = .next t) : Good b t := by
  unfold execLockstep at e
  injection e with e
  subst e
  repeat' first
    | with_reducible assumption
    | with_reducible apply lockstepRx_good

theorem lockstepVerdict_good {b : State} (s : State) (h : Good b s) : Good b (lockstepVerdict s) := by
  unfold lockstepVerdict
  repeat' first
    | with_reducible assumption
    | with_reducible apply setFs_good
    | with_reducible apply raise_good
    | with_reducible apply logOnly_good
    | simp only [good_mk]
    | with_reducible apply good_ite
    | dsimp only
    | split

theorem clearSigs_good {b : State} (s : State) (h : Good b s) : Good b (clearSigs s) := by
  unfold clearSigs
  repeat' first
    | with_reducible assumption
    | with_reducible apply mapCores_good
    | simp only [good_mk]
    | dsimp only

end Sys2Proof.Machine
end

