-- ==== Sys2Proof/Laws/KeepRights.lean ====
section
/-! SUPPORT. The operations of Machine/Rights.lean keep the fuses, the queue and the canonical form. -/

set_option linter.unusedTactic false
set_option linter.unreachableTactic false
set_option linter.unusedSimpArgs false

namespace Sys2Proof.Machine

theorem denyWrite_good {b : State} (r : Req) (pg view off : Nat) (s : State) (h : Good b s) : Good b (denyWrite r pg view off s) := by
  unfold denyWrite
  repeat' first
    | with_reducible assumption
    | with_reducible apply setFs_good
    | with_reducible apply raise_good
    | simp only [good_mk]
    | dsimp only
    | split

theorem rejectWrite_good {b : State} (r : Req) (pg view off : Nat) (s : State) (h : Good b s) : Good b (rejectWrite r pg view off s) := by
  unfold rejectWrite
  repeat' first
    | with_reducible assumption
    | with_reducible apply setFs_good
    | simp only [good_mk]
    | dsimp only
    | split

theorem clearReject_good {b : State} (p : Nat) (s : State) (h : Good b s) : Good b (clearReject p s) := by
  unfold clearReject
  repeat' first
    | with_reducible assumption
    | with_reducible apply setFs_good

theorem setEnable_good {b0 : State} (p : Nat) (b : Bool) (s : State) (h : Good b0 s) : Good b0 (setEnable p b s) := by
  unfold setEnable
  repeat' first
    | with_reducible assumption
    | with_reducible apply setFs_good

end Sys2Proof.Machine
end

