-- ==== Sys2Proof/Laws/KeepTick.lean ====
section
/-! SUPPORT. The operations of Machine/Tick.lean keep the fuses, the queue and the canonical form. -/

set_option linter.unusedTactic false
set_option linter.unreachableTactic false
set_option linter.unusedSimpArgs false

namespace Sys2Proof.Machine

theorem setLock_good {b0 : State} (b : Bool) (s : State) (h : Good b0 s) : Good b0 (setLock b s) := by
  unfold setLock
  repeat' first
    | with_reducible assumption
    | with_reducible apply setB_good
    | with_reducible apply raiseIf_good

theorem execSyncPeriod_good {b t : State} (s : State) (h : Good b s)
    (e : execSyncPeriod s = .next t) : Good b t := by
  unfold execSyncPeriod at e
  injection e with e
  subst e
  repeat' first
    | with_reducible assumption
    | with_reducible apply queueSync_good
    | with_reducible apply setB_good
    | with_reducible apply setF_good
    | intro _
    | simp only [good_mk]
    | with_reducible apply good_ite
    | dsimp only
    | split

theorem timeReqRx_good {b : State} (p t1 : Nat) (copy : Bool) (s : State) (h : Good b s) : Good b (timeReqRx p t1 copy s) := by
  unfold timeReqRx
  repeat' first
    | with_reducible assumption
    | with_reducible apply queueSync_good

theorem execTimeReq_good {b t : State} (p : PortNo) (t1 : Nat) (copy : Bool) (s : State) (h : Good b s)
    (e : execTimeReq p t1 copy s = .next t) : Good b t := by
  unfold execTimeReq at e
  injection e with e
  subst e
  repeat' first
    | with_reducible assumption
    | with_reducible apply timeReqRx_good

theorem stepCounter_good {b : State} (d : Int) (s : State) (h : Good b s) : Good b (stepCounter d s) := by
  unfold stepCounter
  have h' := good_counter (((s.counter : Int) + d) % (2 ^ 64 : Nat)).toNat h (by omega)
  exact good_mk.mpr h'

theorem applyOffset_good {b : State} (d : Int) (s : State) (h : Good b s) : Good b (applyOffset d s) := by
  unfold applyOffset
  repeat' first
    | with_reducible assumption
    | with_reducible apply declareOverrun_good
    | with_reducible apply setLock_good
    | with_reducible apply stepCounter_good
    | intro _
    | simp only [good_mk]
    | with_reducible apply good_ite
    | dsimp only
    | split

theorem timeRspRx_good {b : State} (t1 t2 t3 : Nat) (copy : Bool) (s : State) (h : Good b s) : Good b (timeRspRx t1 t2 t3 copy s) := by
  unfold timeRspRx
  dsimp only [takeFree]
  repeat' first
    | with_reducible assumption
    | with_reducible apply setFs_good
    | with_reducible apply takeFree_good
    | with_reducible apply applyOffset_good
    | simp only [good_mk]
    | with_reducible apply good_ite
    | dsimp only
    | split

theorem execTimeRsp_good {b t : State} (_p : PortNo) (t1 t2 t3 : Nat) (copy : Bool) (s : State) (h : Good b s)
    (e : execTimeRsp _p t1 t2 t3 copy s = .next t) : Good b t := by
  unfold execTimeRsp at e
  injection e with e
  subst e
  repeat' first
    | with_reducible assumption
    | with_reducible apply timeRspRx_good

theorem execSyncPeriodMissed_good {b t : State} (s : State) (h : Good b s)
    (e : execSyncPeriodMissed s = .next t) : Good b t := by
  unfold execSyncPeriodMissed at e
  injection e with e
  subst e
  repeat' first
    | with_reducible assumption
    | with_reducible apply setB_good
    | with_reducible apply incSat_good
    | with_reducible apply raise_good
    | with_reducible apply logOnly_good
    | with_reducible apply declareOverrun_good
    | simp only [good_mk]
    | with_reducible apply good_ite
    | dsimp only
    | split

theorem noteDigest_good {b : State} (src digest : Nat) (s : State) (h : Good b s) : Good b (noteDigest src digest s) := by
  unfold noteDigest
  repeat' first
    | with_reducible assumption
    | simp only [good_mk]
    | dsimp only

theorem beginLaunch_good {b : State} (s : State) (h : Good b s) : Good b (beginLaunch s) := by
  unfold beginLaunch
  repeat' first
    | with_reducible assumption
    | with_reducible apply setLaunch_good
    | with_reducible apply queueSync_good
    | with_reducible apply clearReject_good
    | with_reducible apply setEnable_good
    | with_reducible apply noteDigest_good
    | simp only [good_mk]
    | with_reducible apply good_ite
    | dsimp only
    | split

theorem tickEnable_good {b : State} (s : State) (h : Good b s) : Good b (tickEnable s) := by
  unfold tickEnable
  repeat' first
    | with_reducible assumption
    | with_reducible apply setB_good
    | with_reducible apply raise_good
    | with_reducible apply clearReject_good
    | with_reducible apply beginLaunch_good
    | with_reducible apply good_ite
    | split

theorem execLaunchEnable_good {b t : State} (r : Req) (s : State) (h : Good b s)
    (e : execLaunchEnable r s = .next t) : Good b t := by
  unfold execLaunchEnable at e
  injection e with e
  subst e
  repeat' first
    | with_reducible assumption
    | with_reducible apply denyWrite_good
    | with_reducible apply tickEnable_good
    | with_reducible apply good_ite
    | split

theorem launchRx_good {b : State} (src digest : Nat) (s : State) (h : Good b s) : Good b (launchRx src digest s) := by
  unfold launchRx
  repeat' first
    | with_reducible assumption
    | with_reducible apply noteDigest_good
    | with_reducible apply good_ite
    | split

theorem execLaunch_good {b t : State} (src digest : Nat) (s : State) (h : Good b s)
    (e : execLaunch src digest s = .next t) : Good b t := by
  unfold execLaunch at e
  injection e with e
  subst e
  repeat' first
    | with_reducible assumption
    | with_reducible apply launchRx_good

theorem abortLaunch_good {b : State} (s : State) (h : Good b s) : Good b (abortLaunch s) := by
  unfold abortLaunch
  repeat' first
    | with_reducible assumption
    | with_reducible apply raise_good
    | with_reducible apply setEnable_good
    | simp only [good_mk]
    | dsimp only

theorem execGoDeadline_good {b t : State} (s : State) (h : Good b s)
    (e : execGoDeadline s = .next t) : Good b t := by
  unfold execGoDeadline at e
  injection e with e
  subst e
  repeat' first
    | with_reducible assumption
    | with_reducible apply broadcast_good
    | with_reducible apply abortLaunch_good
    | simp only [good_mk]
    | with_reducible apply good_ite
    | dsimp only
    | split

theorem goRx_good {b : State} (l : Nat) (s : State) (h : Good b s) : Good b (goRx l s) := by
  unfold goRx
  repeat' first
    | with_reducible assumption
    | simp only [good_mk]
    | with_reducible apply good_ite
    | dsimp only
    | split

theorem execGo_good {b t : State} (l : Nat) (s : State) (h : Good b s)
    (e : execGo l s = .next t) : Good b t := by
  unfold execGo at e
  injection e with e
  subst e
  repeat' first
    | with_reducible assumption
    | with_reducible apply goRx_good

theorem nogoRx_good {b : State} (s : State) (h : Good b s) : Good b (nogoRx s) := by
  unfold nogoRx
  repeat' first
    | with_reducible assumption
    | with_reducible apply abortLaunch_good
    | with_reducible apply good_ite
    | split

theorem execNogo_good {b t : State} (_l : Nat) (s : State) (h : Good b s)
    (e : execNogo _l s = .next t) : Good b t := by
  unfold execNogo at e
  injection e with e
  subst e
  repeat' first
    | with_reducible assumption
    | with_reducible apply nogoRx_good

theorem execLaunchGoTimeout_good {b t : State} (s : State) (h : Good b s)
    (e : execLaunchGoTimeout s = .next t) : Good b t := by
  unfold execLaunchGoTimeout at e
  injection e with e
  subst e
  repeat' first
    | with_reducible assumption
    | with_reducible apply abortLaunch_good
    | with_reducible apply good_ite
    | split

theorem closeSems_good {b : State} (s : State) (h : Good b s) : Good b (closeSems s) := by
  unfold closeSems
  repeat' first
    | with_reducible assumption
    | with_reducible apply closeSem_good
    | with_reducible apply good_foldl
    | intro _
    | dsimp only

theorem stopLater_good {b : State} (n cause : Nat) (s : State) (h : Good b s) : Good b (stopLater n cause s) := by
  unfold stopLater
  repeat' first
    | with_reducible assumption
    | refine good_secStop _ ?_ (smSet_wf _ _ _ _)
    | simp only [good_mk]
    | with_reducible apply good_ite
    | dsimp only
    | split

theorem decision_good {b : State} (s : State) (h : Good b s) : Good b (decision s) := by
  unfold decision
  repeat' first
    | with_reducible assumption
    | with_reducible apply closeSems_good
    | with_reducible apply declareOverrun_good
    | with_reducible apply needStretch_good
    | with_reducible apply redoGuest_good
    | with_reducible apply sendLockstep_good
    | with_reducible apply stopLater_good
    | with_reducible apply good_foldl
    | intro _
    | simp only [good_mk]
    | with_reducible apply good_ite
    | dsimp only
    | split

theorem execDecisionPoint_good {b t : State} (s : State) (h : Good b s)
    (e : execDecisionPoint s = .next t) : Good b t := by
  unfold execDecisionPoint at e
  injection e with e
  subst e
  repeat' first
    | with_reducible assumption
    | with_reducible apply decision_good
    | intro _
    | simp only [good_mk]
    | with_reducible apply good_ite
    | dsimp only
    | split

theorem verdict_good {b : State} (dw : List CommitAcc) (s : State) (h : Good b s) : Good b (verdict dw s) := by
  unfold verdict
  repeat' first
    | with_reducible assumption
    | with_reducible apply commitTick_good
    | with_reducible apply lockstepVerdict_good
    | with_reducible apply needStretch_good
    | with_reducible apply stopLater_good
    | with_reducible apply good_foldl
    | intro _
    | simp only [good_mk]
    | with_reducible apply good_ite
    | dsimp only
    | split

theorem execVerdictPoint_good {b t : State} (dw : List CommitAcc) (s : State) (h : Good b s)
    (e : execVerdictPoint dw s = .next t) : Good b t := by
  unfold execVerdictPoint at e
  injection e with e
  subst e
  repeat' first
    | with_reducible assumption
    | with_reducible apply verdict_good
    | intro _
    | simp only [good_mk]
    | with_reducible apply good_ite
    | dsimp only
    | split

theorem stretchRx_good {b : State} (tick k : Nat) (s : State) (h : Good b s) : Good b (stretchRx tick k s) := by
  unfold stretchRx
  repeat' first
    | with_reducible assumption
    | with_reducible apply raise_good
    | with_reducible apply declareOverrun_good
    | with_reducible apply applyStretch_good
    | simp only [good_mk]
    | with_reducible apply good_ite
    | dsimp only
    | split

theorem execStretch_good {b t : State} (tick k _src : Nat) (s : State) (h : Good b s)
    (e : execStretch tick k _src s = .next t) : Good b t := by
  unfold execStretch at e
  injection e with e
  subst e
  repeat' first
    | with_reducible assumption
    | with_reducible apply stretchRx_good

theorem abortRx_good {b : State} (pkg cause : Nat) (s : State) (h : Good b s) : Good b (abortRx pkg cause s) := by
  unfold abortRx
  repeat' first
    | with_reducible assumption
    | with_reducible apply recordOverrun_good
    | with_reducible apply good_ite
    | split

theorem execAbort_good {b t : State} (pkg cause _tick : Nat) (s : State) (h : Good b s)
    (e : execAbort pkg cause _tick s = .next t) : Good b t := by
  unfold execAbort at e
  injection e with e
  subst e
  repeat' first
    | with_reducible assumption
    | with_reducible apply abortRx_good

theorem voidRx_good {b : State} (pkg tick : Nat) (s : State) (h : Good b s) : Good b (voidRx pkg tick s) := by
  unfold voidRx
  repeat' first
    | with_reducible assumption
    | with_reducible apply declareOverrun_good
    | with_reducible apply dropSource_good
    | with_reducible apply postpone_good
    | with_reducible apply raise_good
    | with_reducible apply withdraw_good
    | intro _
    | simp only [good_mk]
    | with_reducible apply good_ite
    | dsimp only
    | split

theorem execVoid_good {b t : State} (pkg tick : Nat) (s : State) (h : Good b s)
    (e : execVoid pkg tick s = .next t) : Good b t := by
  unfold execVoid at e
  injection e with e
  subst e
  repeat' first
    | with_reducible assumption
    | with_reducible apply voidRx_good

end Sys2Proof.Machine
end

