-- ==== Sys2Proof/Laws/KeepBoundary.lean ====
section
/-! SUPPORT. The operations of Machine/Boundary.lean keep the fuses, the queue and the canonical form. -/

set_option linter.unusedTactic false
set_option linter.unreachableTactic false
set_option linter.unusedSimpArgs false

namespace Sys2Proof.Machine

theorem openCores_good {b : State} (s : State) (h : Good b s) : Good b (openCores s) := by
  unfold openCores
  repeat' first
    | with_reducible assumption
    | with_reducible apply mapCores_good
    | with_reducible apply logOnly_good
    | with_reducible apply good_foldl
    | intro _
    | with_reducible apply good_ite
    | dsimp only
    | split

theorem execIbLateSwap_good {b t : State} (c : CoreId) (s : State) (h : Good b s)
    (e : execIbLateSwap c s = .next t) : Good b t := by
  unfold execIbLateSwap at e
  injection e with e
  subst e
  repeat' first
    | with_reducible assumption
    | with_reducible apply updCore_good
    | simp only [good_mk]
    | with_reducible apply good_ite
    | dsimp only
    | split

theorem stopSecs_good {b : State} (s : State) (h : Good b s) : Good b (stopSecs s) := by
  unfold stopSecs
  repeat' first
    | with_reducible assumption
    | with_reducible apply stopSec_good
    | with_reducible apply good_foldl
    | intro _
    | with_reducible apply good_ite
    | dsimp only
    | split

theorem endSecs_good {b : State} (s : State) (h : Good b s) : Good b (endSecs s) := by
  unfold endSecs
  repeat' first
    | with_reducible assumption
    | with_reducible apply stopSec_good
    | with_reducible apply good_foldl
    | intro _
    | simp only [good_mk]
    | with_reducible apply good_ite
    | dsimp only
    | split

theorem closeCommit_good {b : State} (s : State) (h : Good b s) : Good b (closeCommit s) := by
  unfold closeCommit
  repeat' first
    | with_reducible assumption
    | with_reducible apply duePosts_good
    | intro _
    | simp only [good_mk]
    | with_reducible apply good_ite
    | dsimp only
    | split

theorem closeHall_good {b : State} (s : State) (h : Good b s) : Good b (closeHall s) := by
  unfold closeHall
  repeat' first
    | with_reducible assumption
    | with_reducible apply landNorm_good
    | with_reducible apply freeLanding_good
    | with_reducible apply closeReduce_good
    | simp only [good_mk]
    | dsimp only
    | split

theorem closePantries_good {b : State} (s : State) (h : Good b s) : Good b (closePantries s) := by
  unfold closePantries
  repeat' first
    | with_reducible assumption
    | with_reducible apply latchNorm_good
    | with_reducible apply clearGns_good
    | with_reducible apply stepAdvance_good
    | with_reducible apply closePan_good
    | with_reducible apply good_foldl
    | intro _
    | simp only [good_mk]
    | with_reducible apply good_ite
    | dsimp only
    | split

theorem closeStacks_good {b : State} (s : State) (h : Good b s) : Good b (closeStacks s) := by
  unfold closeStacks
  repeat' first
    | with_reducible assumption
    | with_reducible apply abortMargin_good
    | with_reducible apply peakF_good
    | with_reducible apply updStk_good
    | with_reducible apply good_foldl
    | intro _
    | simp only [good_mk]
    | with_reducible apply good_ite
    | dsimp only
    | split

theorem rebaseChans_good {b : State} (s : State) (h : Good b s) : Good b (rebaseChans s) := by
  unfold rebaseChans
  repeat' first
    | with_reducible assumption
    | with_reducible apply mapChans_good
    | intro _
    | simp only [good_mk]
    | with_reducible apply good_ite
    | dsimp only
    | split

theorem closeHearth_good {b : State} (s : State) (h : Good b s) : Good b (closeHearth s) := by
  unfold closeHearth
  dsimp only [takeFree]
  repeat' first
    | with_reducible assumption
    | with_reducible apply setFs_good
    | with_reducible apply takeFree_good
    | simp only [good_mk]
    | with_reducible apply good_ite
    | dsimp only
    | split

theorem closeDies_good {b : State} (s : State) (h : Good b s) : Good b (closeDies s) := by
  unfold closeDies
  repeat' first
    | with_reducible assumption
    | with_reducible apply setFs_good
    | with_reducible apply good_foldl
    | intro _
    | dsimp only

theorem clearTick_good {b : State} (s : State) (h : Good b s) : Good b (clearTick s) := by
  unfold clearTick
  repeat' first
    | with_reducible assumption
    | with_reducible apply setFs_good
    | simp only [good_mk]
    | dsimp only

theorem closeTick_good {b : State} (s : State) (h : Good b s) : Good b (closeTick s) := by
  unfold closeTick
  repeat' first
    | with_reducible assumption
    | with_reducible apply clearSigs_good
    | with_reducible apply clearTick_good
    | with_reducible apply closeCommit_good
    | with_reducible apply closeDies_good
    | with_reducible apply closeHall_good
    | with_reducible apply closeHearth_good
    | with_reducible apply closePantries_good
    | with_reducible apply closeStacks_good
    | with_reducible apply endSecs_good
    | with_reducible apply rebaseChans_good
    | with_reducible apply settleGuest_good
    | with_reducible apply stopSecs_good
    | intro _
    | simp only [good_mk]
    | with_reducible apply good_ite
    | dsimp only
    | split

theorem startSecs_good {b : State} (n : Nat) (s : State) (h : Good b s) : Good b (startSecs n s) := by
  unfold startSecs
  repeat' first
    | with_reducible assumption
    | with_reducible apply setFs_good
    | with_reducible apply raiseSec_good
    | with_reducible apply good_foldl
    | intro _
    | simp only [good_mk]
    | with_reducible apply good_ite
    | dsimp only
    | split

theorem openTick_good {b : State} (n : Nat) (s : State) (h : Good b s) : Good b (openTick n s) := by
  unfold openTick
  repeat' first
    | with_reducible assumption
    | with_reducible apply boundaryPosts_good
    | with_reducible apply grantCredits_good
    | with_reducible apply issueNorm_good
    | with_reducible apply openCores_good
    | with_reducible apply sendPhase2_good
    | with_reducible apply setFs_good
    | with_reducible apply startSecs_good
    | with_reducible apply voidOther_good
    | with_reducible apply good_foldl
    | intro _
    | simp only [good_mk]
    | with_reducible apply good_ite
    | dsimp only
    | split

theorem boundary_good {b : State} (s : State) (h : Good b s) : Good b (boundary s) := by
  unfold boundary
  repeat' first
    | with_reducible assumption
    | with_reducible apply enterDrain_good
    | with_reducible apply boundaryPosts_good
    | with_reducible apply closeSems_good
    | with_reducible apply closeTick_good
    | with_reducible apply openTick_good
    | with_reducible apply good_ite
    | dsimp only
    | split

theorem clearSince_good {b : State} (s : State) (h : Good b s) : Good b (clearSince s) := by
  unfold clearSince
  repeat' first
    | with_reducible assumption
    | with_reducible apply setFs_good
    | with_reducible apply good_foldl
    | intro _
    | simp only [good_mk]
    | with_reducible apply good_ite
    | dsimp only
    | split

theorem launchState_good {b : State} (s : State) (h : Good b s) : Good b (launchState s) := by
  unfold launchState
  repeat' first
    | with_reducible assumption
    | with_reducible apply faultDrain_good
    | intro _
    | simp only [good_mk]
    | with_reducible apply good_ite
    | dsimp only
    | split

theorem launchTick_good {b : State} (s : State) (h : Good b s) : Good b (launchTick s) := by
  unfold launchTick
  repeat' first
    | with_reducible assumption
    | with_reducible apply clearSince_good
    | with_reducible apply closeStacks_good
    | with_reducible apply launchState_good
    | with_reducible apply mapChans_good
    | with_reducible apply openTick_good
    | with_reducible apply raise_good
    | with_reducible apply setB_good
    | with_reducible apply setTop_good
    | intro _
    | simp only [good_mk]
    | with_reducible apply good_ite
    | dsimp only
    | split

theorem execTickBoundary_good {b t : State} (s : State) (h : Good b s)
    (e : execTickBoundary s = .next t) : Good b t := by
  unfold execTickBoundary at e
  injection e with e
  subst e
  repeat' first
    | with_reducible assumption
    | with_reducible apply abortLaunch_good
    | with_reducible apply boundary_good
    | with_reducible apply launchTick_good
    | with_reducible apply good_ite
    | split

theorem sendMarks_good {b : State} (s : State) (h : Good b s) : Good b (sendMarks s) := by
  unfold sendMarks
  repeat' first
    | with_reducible assumption
    | with_reducible apply forward_good
    | with_reducible apply forwardAll_good
    | with_reducible apply good_foldl
    | intro _
    | simp only [good_mk]
    | with_reducible apply good_ite
    | dsimp only
    | split

theorem prepareReplay_good {b : State} (s : State) (h : Good b s) : Good b (prepareReplay s) := by
  unfold prepareReplay
  repeat' first
    | with_reducible assumption
    | with_reducible apply mapCores_good
    | with_reducible apply restorePan_good
    | with_reducible apply dropRuns_good
    | with_reducible apply sendMarks_good
    | with_reducible apply good_foldl
    | intro _
    | simp only [good_mk]
    | with_reducible apply good_ite
    | dsimp only
    | split

theorem execReplayQuiesced_good {b t : State} (s : State) (h : Good b s)
    (e : execReplayQuiesced s = .next t) : Good b t := by
  unfold execReplayQuiesced at e
  injection e with e
  subst e
  repeat' first
    | with_reducible assumption
    | with_reducible apply prepareReplay_good
    | with_reducible apply good_ite
    | split

theorem dropOwnFrames_good {b : State} (s : State) (h : Good b s) : Good b (dropOwnFrames s) := by
  unfold dropOwnFrames
  repeat' first
    | with_reducible assumption
    | with_reducible apply showLanding_good
    | intro _
    | simp only [good_mk]
    | with_reducible apply good_ite
    | dsimp only
    | split

theorem dropOwn_good {b : State} (s : State) (h : Good b s) : Good b (dropOwn s) := by
  unfold dropOwn
  repeat' first
    | with_reducible assumption
    | with_reducible apply dropOwnFrames_good
    | simp only [good_mk]
    | dsimp only
    | split

theorem beginReplay_good {b : State} (s : State) (h : Good b s) : Good b (beginReplay s) := by
  unfold beginReplay
  repeat' first
    | with_reducible assumption
    | with_reducible apply clearSigs_good
    | with_reducible apply dropOwn_good
    | with_reducible apply incSat_good
    | with_reducible apply issueNorm_good
    | with_reducible apply mapChans_good
    | with_reducible apply mapCores_good
    | with_reducible apply raise_good
    | with_reducible apply sendPhase2_good
    | with_reducible apply undoGuest_good
    | with_reducible apply good_foldl
    | intro _
    | simp only [good_mk]
    | with_reducible apply good_ite
    | dsimp only
    | split

theorem execReplayStart_good {b t : State} (s : State) (h : Good b s)
    (e : execReplayStart s = .next t) : Good b t := by
  unfold execReplayStart at e
  injection e with e
  subst e
  repeat' first
    | with_reducible assumption
    | with_reducible apply beginReplay_good
    | with_reducible apply good_ite
    | split

end Sys2Proof.Machine
end

