-- ==== Sys2Proof/Laws/KeepHearth.lean ====
section
/-! SUPPORT. The operations of Machine/Hearth.lean keep the fuses, the queue and the canonical form. -/

set_option linter.unusedTactic false
set_option linter.unreachableTactic false
set_option linter.unusedSimpArgs false

namespace Sys2Proof.Machine

theorem hearthLog_good {b : State} (code detail : Nat) (s : State) (h : Good b s) : Good b (hearthLog code detail s) := by
  unfold hearthLog
  repeat' first
    | with_reducible assumption
    | with_reducible apply logOnly_good

theorem hearthFault_good {b : State} (code flag detail : Nat) (s : State) (h : Good b s) : Good b (hearthFault code flag detail s) := by
  unfold hearthFault
  repeat' first
    | with_reducible assumption
    | with_reducible apply takeFault_good
    | simp only [good_mk]
    | dsimp only

theorem onHearth_good {b : State} (f : Hearth → Hearth) (s : State) (h : Good b s) : Good b (onHearth f s) := by
  unfold onHearth
  repeat' first
    | with_reducible assumption
    | simp only [good_mk]
    | dsimp only

theorem updateCap_good {b : State} (s : State) (h : Good b s) : Good b (updateCap s) := by
  unfold updateCap
  repeat' first
    | with_reducible assumption
    | with_reducible apply setFs_good
    | with_reducible apply raiseIf_good
    | with_reducible apply onHearth_good
    | simp only [good_mk]
    | dsimp only
    | split

theorem setClocks_good {b : State} (f : Nat → Nat) (s : State) (h : Good b s) : Good b (setClocks f s) := by
  unfold setClocks
  repeat' first
    | with_reducible assumption
    | with_reducible apply setFs_good
    | dsimp only

theorem engage_good {b : State} (cause : Nat) (s : State) (h : Good b s) : Good b (engage cause s) := by
  unfold engage
  repeat' first
    | with_reducible assumption
    | with_reducible apply setF_good
    | with_reducible apply incSat_good
    | with_reducible apply raise_good
    | with_reducible apply hearthLog_good
    | with_reducible apply onHearth_good
    | simp only [good_mk]
    | with_reducible apply good_ite
    | dsimp only
    | split

theorem limit_good {b : State} (cause need : Nat) (s : State) (h : Good b s) : Good b (limit cause need s) := by
  unfold limit
  repeat' first
    | with_reducible assumption
    | with_reducible apply setF_good
    | with_reducible apply setClocks_good
    | with_reducible apply engage_good
    | with_reducible apply good_ite
    | dsimp only
    | split

theorem execLimiterEval_good {b t : State} (m : Meter) (s : State) (h : Good b s)
    (e : execLimiterEval m s = .next t) : Good b t := by
  unfold execLimiterEval at e
  injection e with e
  subst e
  repeat' first
    | with_reducible assumption
    | with_reducible apply setF_good
    | with_reducible apply peakF_good
    | with_reducible apply setFs_good
    | with_reducible apply onHearth_good
    | with_reducible apply limit_good
    | simp only [good_mk]
    | with_reducible apply good_ite
    | dsimp only
    | split

theorem execBoostClockUpdate_good {b t : State} (fit : Vector Nat 4) (s : State) (h : Good b s)
    (e : execBoostClockUpdate fit s = .next t) : Good b t := by
  unfold execBoostClockUpdate at e
  injection e with e
  subst e
  repeat' first
    | with_reducible assumption
    | with_reducible apply setClocks_good
    | with_reducible apply good_ite
    | dsimp only
    | split

theorem rampCheck_good {b : State} (d : Draw) (s : State) (h : Good b s) : Good b (rampCheck d s) := by
  unfold rampCheck
  repeat' first
    | with_reducible assumption
    | with_reducible apply raise_good
    | with_reducible apply hearthLog_good
    | simp only [good_mk]
    | with_reducible apply good_ite
    | dsimp only
    | split

theorem execBallastStep_good {b t : State} (d : Draw) (s : State) (h : Good b s)
    (e : execBallastStep d s = .next t) : Good b t := by
  unfold execBallastStep at e
  injection e with e
  subst e
  repeat' first
    | with_reducible assumption
    | with_reducible apply onHearth_good
    | with_reducible apply rampCheck_good
    | simp only [good_mk]
    | with_reducible apply good_ite
    | dsimp only
    | split

theorem showTemp_good {b : State} (t p : Fld) (x : Int) (s : State) (h : Good b s) : Good b (showTemp t p x s) := by
  unfold showTemp
  repeat' first
    | with_reducible assumption
    | with_reducible apply setFs_good

theorem tjEpisode_good {b : State} (s : State) (h : Good b s) : Good b (tjEpisode s) := by
  unfold tjEpisode
  repeat' first
    | with_reducible assumption
    | with_reducible apply raise_good
    | with_reducible apply hearthLog_good
    | with_reducible apply onHearth_good
    | simp only [good_mk]
    | with_reducible apply good_ite
    | dsimp only
    | split

theorem stackTemp_good {b : State} (k : Nat) (x : Int) (s : State) (h : Good b s) : Good b (stackTemp k x s) := by
  unfold stackTemp
  repeat' first
    | with_reducible assumption
    | with_reducible apply setB_good
    | with_reducible apply raiseIf_good
    | with_reducible apply showTemp_good
    | dsimp only
    | split

theorem dramCap_good {b : State} (xs : List Int) (s : State) (h : Good b s) : Good b (dramCap xs s) := by
  unfold dramCap
  repeat' first
    | with_reducible assumption
    | with_reducible apply raise_good
    | with_reducible apply hearthLog_good
    | with_reducible apply onHearth_good
    | simp only [good_mk]
    | with_reducible apply good_ite
    | dsimp only
    | split

theorem useReadings_good {b : State} (s : State) (h : Good b s) : Good b (useReadings s) := by
  unfold useReadings
  repeat' first
    | with_reducible assumption
    | with_reducible apply setB_good
    | with_reducible apply onHearth_good
    | simp only [good_mk]
    | dsimp only
    | split

theorem coolantBit_good {b : State} (f : Fld) (on : Bool) (code : Nat) (s : State) (h : Good b s) : Good b (coolantBit f on code s) := by
  unfold coolantBit
  repeat' first
    | with_reducible assumption
    | with_reducible apply setB_good
    | with_reducible apply raise_good
    | with_reducible apply hearthLog_good
    | with_reducible apply good_ite
    | split

theorem coolantRules_good {b : State} (s : State) (h : Good b s) : Good b (coolantRules s) := by
  unfold coolantRules
  repeat' first
    | with_reducible assumption
    | with_reducible apply setF_good
    | with_reducible apply updateCap_good
    | with_reducible apply useReadings_good
    | with_reducible apply coolantBit_good
    | simp only [good_mk]
    | dsimp only
    | split

theorem execSensorScan_good {b t : State} (r : Scan) (s : State) (h : Good b s)
    (e : execSensorScan r s = .next t) : Good b t := by
  unfold execSensorScan at e
  injection e with e
  subst e
  repeat' first
    | with_reducible assumption
    | with_reducible apply setFs_good
    | with_reducible apply onHearth_good
    | with_reducible apply showTemp_good
    | with_reducible apply tjEpisode_good
    | with_reducible apply stackTemp_good
    | with_reducible apply dramCap_good
    | with_reducible apply coolantRules_good
    | with_reducible apply good_foldl
    | intro _
    | simp only [good_mk]
    | dsimp only
    | split

theorem execThermalCapStep_good {b t : State} (s : State) (h : Good b s)
    (e : execThermalCapStep s = .next t) : Good b t := by
  unfold execThermalCapStep at e
  injection e with e
  subst e
  repeat' first
    | with_reducible assumption
    | with_reducible apply onHearth_good
    | with_reducible apply updateCap_good
    | with_reducible apply tjEpisode_good
    | simp only [good_mk]
    | with_reducible apply good_ite
    | dsimp only
    | split

theorem execTjTrip_good {b t0 : State} (site : Fin 5) (t : Nat) (s : State) (h : Good b s)
    (e : execTjTrip site t s = .next t0) : Good b t0 := by
  unfold execTjTrip at e
  injection e with e
  subst e
  repeat' first
    | with_reducible assumption
    | with_reducible apply setFs_good
    | with_reducible apply raise_good
    | with_reducible apply hearthFault_good
    | with_reducible apply onHearth_good
    | simp only [good_mk]
    | with_reducible apply good_ite
    | dsimp only
    | split

theorem execDramCrit_good {b t : State} (k : StackNo) (s : State) (h : Good b s)
    (e : execDramCrit k s = .next t) : Good b t := by
  unfold execDramCrit at e
  injection e with e
  subst e
  repeat' first
    | with_reducible assumption
    | with_reducible apply hearthFault_good
    | with_reducible apply good_ite
    | split

theorem execFlowEstimate_good {b t : State} (power : Nat) (rise : Int) (s : State) (h : Good b s)
    (e : execFlowEstimate power rise s = .next t) : Good b t := by
  unfold execFlowEstimate at e
  injection e with e
  subst e
  repeat' first
    | with_reducible assumption
    | with_reducible apply onHearth_good
    | with_reducible apply coolantRules_good
    | simp only [good_mk]
    | with_reducible apply good_ite
    | dsimp only
    | split

theorem execCoolantLoss_good {b t : State} (s : State) (h : Good b s)
    (e : execCoolantLoss s = .next t) : Good b t := by
  unfold execCoolantLoss at e
  injection e with e
  subst e
  repeat' first
    | with_reducible assumption
    | with_reducible apply hearthFault_good
    | simp only [good_mk]
    | with_reducible apply good_ite
    | dsimp only
    | split

theorem execInletCrit_good {b t : State} (s : State) (h : Good b s)
    (e : execInletCrit s = .next t) : Good b t := by
  unfold execInletCrit at e
  injection e with e
  subst e
  repeat' first
    | with_reducible assumption
    | with_reducible apply hearthFault_good
    | with_reducible apply good_ite
    | dsimp only
    | split

theorem execCoolantCheck_good {b t : State} (power : Nat) (s : State) (h : Good b s)
    (e : execCoolantCheck power s = .next t) : Good b t := by
  unfold execCoolantCheck at e
  injection e with e
  subst e
  repeat' first
    | with_reducible assumption
    | with_reducible apply setFs_good
    | with_reducible apply raise_good
    | with_reducible apply raiseIf_good
    | with_reducible apply hearthFault_good
    | with_reducible apply good_ite
    | dsimp only
    | split

theorem execConvFault_good {b t : State} (stage : Nat) (s : State) (h : Good b s)
    (e : execConvFault stage s = .next t) : Good b t := by
  unfold execConvFault at e
  injection e with e
  subst e
  repeat' first
    | with_reducible assumption
    | with_reducible apply hearthFault_good

theorem setNacks_good {b : State} (n v : Nat) (s : State) (h : Good b s) : Good b (setNacks n v s) := by
  unfold setNacks
  repeat' first
    | with_reducible assumption
    | simp only [good_mk]
    | dsimp only

theorem setPresent_good {b0 : State} (n : Nat) (b : Bool) (s : State) (h : Good b0 s) : Good b0 (setPresent n b s) := by
  unfold setPresent
  repeat' first
    | with_reducible assumption
    | with_reducible apply setF_good

theorem targetAnswers_good {b : State} (n : Nat) (v : BitVec 16) (s : State) (h : Good b s) : Good b (targetAnswers n v s) := by
  unfold targetAnswers
  repeat' first
    | with_reducible assumption
    | with_reducible apply setFs_good
    | with_reducible apply setNacks_good
    | with_reducible apply setPresent_good

theorem targetNacks_good {b : State} (n : Nat) (s : State) (h : Good b s) : Good b (targetNacks n s) := by
  unfold targetNacks
  repeat' first
    | with_reducible assumption
    | with_reducible apply setF_good
    | with_reducible apply raise_good
    | with_reducible apply setNacks_good
    | with_reducible apply setPresent_good
    | with_reducible apply good_ite
    | dsimp only
    | split

theorem pollOne_good {b : State} (n : Nat) (a : Option (BitVec 16)) (s : State) (h : Good b s) : Good b (pollOne n a s) := by
  unfold pollOne
  repeat' first
    | with_reducible assumption
    | with_reducible apply targetAnswers_good
    | with_reducible apply targetNacks_good
    | simp only [good_mk]
    | with_reducible apply good_ite
    | dsimp only
    | split

theorem leakCheck_good {b : State} (s : State) (h : Good b s) : Good b (leakCheck s) := by
  unfold leakCheck
  repeat' first
    | with_reducible assumption
    | with_reducible apply setB_good
    | with_reducible apply raise_good
    | with_reducible apply hearthFault_good
    | with_reducible apply good_ite
    | dsimp only
    | split

theorem execSensorPoll_good {b t : State} (answers : Vector (Option (BitVec 16)) 8) (s : State) (h : Good b s)
    (e : execSensorPoll answers s = .next t) : Good b t := by
  unfold execSensorPoll at e
  injection e with e
  subst e
  repeat' first
    | with_reducible assumption
    | with_reducible apply coolantRules_good
    | with_reducible apply pollOne_good
    | with_reducible apply leakCheck_good
    | with_reducible apply good_foldl
    | intro _
    | with_reducible apply good_ite
    | dsimp only
    | split

theorem execSensorRepoll_good {b t : State} (n : Fin 8) (answer : Option (BitVec 16)) (s : State) (h : Good b s)
    (e : execSensorRepoll n answer s = .next t) : Good b t := by
  unfold execSensorRepoll at e
  injection e with e
  subst e
  repeat' first
    | with_reducible assumption
    | with_reducible apply raise_good
    | with_reducible apply coolantRules_good
    | with_reducible apply targetAnswers_good
    | with_reducible apply leakCheck_good
    | simp only [good_mk]
    | with_reducible apply good_ite
    | dsimp only
    | split

theorem execSnsBusRetry_good {b t : State} (pulses : Option (Fin 10)) (s : State) (h : Good b s)
    (e : execSnsBusRetry pulses s = .next t) : Good b t := by
  unfold execSnsBusRetry at e
  injection e with e
  subst e
  repeat' first
    | with_reducible assumption
    | with_reducible apply coolantRules_good
    | with_reducible apply hearthLog_good
    | with_reducible apply raise_good
    | with_reducible apply setFs_good
    | intro _
    | simp only [good_mk]
    | with_reducible apply good_ite
    | dsimp only
    | split

end Sys2Proof.Machine
end

