-- ==== Sys2Proof/Laws/KeepPower.lean ====
section
/-! SUPPORT. The operations of Machine/Power.lean keep the fuses, the queue and the canonical form. -/

set_option linter.unusedTactic false
set_option linter.unreachableTactic false
set_option linter.unusedSimpArgs false

namespace Sys2Proof.Machine

theorem volatileReset_good {b : State} (s : State) (h : Good b s) : Good b (volatileReset s) :=
  ⟨h.1, h.2.1, rfl, rfl, rfl, rfl, rfl, rfl, rfl, rfl, rfl, rfl, rfl, rfl, rfl, rfl, Nat.two_pow_pos 64⟩

theorem loadHist_wf (s : State) (m : SMap Hist) (e : Nat × ARec) (h : smWf hist0 m = true) :
    smWf hist0 (loadHist s m e) = true := by
  unfold loadHist
  split
  · exact h
  · exact smSet_wf _ _ _ _ h

theorem loadHistFold_wf (s : State) (l : List (Nat × ARec)) : ∀ m : SMap Hist, smWf hist0 m = true →
    smWf hist0 (l.foldl (loadHist s) m) = true := by
  induction l with
  | nil => intro m h; exact h
  | cons e l ih => intro m h; exact ih _ (loadHist_wf s m e h)

theorem loadHists_good {b : State} (s : State) (h : Good b s) : Good b (loadHists s) := by
  unfold loadHists
  exact good_hist _ h fun hw => loadHistFold_wf _ _ _ (smFilter_wf _ _ _ hw)

theorem writePackage_good {b : State} (s : State) (h : Good b s) : Good b (writePackage s) := by
  unfold writePackage
  repeat' first
    | with_reducible assumption
    | simp only [good_mk]
    | with_reducible apply good_ite
    | dsimp only
    | split

theorem powerLoss_good {b : State} (cause : Nat) (s : State) (h : Good b s) : Good b (powerLoss cause s) := by
  unfold powerLoss
  repeat' first
    | with_reducible assumption
    | with_reducible apply onHearth_good
    | with_reducible apply volatileReset_good
    | with_reducible apply writePackage_good
    | simp only [good_mk]
    | with_reducible apply good_ite
    | dsimp only
    | split

theorem releaseTrip_good {b : State} (s : State) (h : Good b s) : Good b (releaseTrip s) := by
  unfold releaseTrip
  repeat' first
    | with_reducible assumption
    | with_reducible apply onHearth_good
    | simp only [good_mk]
    | dsimp only

theorem execInputUndervoltage_good {b t : State} (removed : Bool) (s : State) (h : Good b s)
    (e : execInputUndervoltage removed s = .next t) : Good b t := by
  unfold execInputUndervoltage at e
  injection e with e
  subst e
  repeat' first
    | with_reducible assumption
    | with_reducible apply powerLoss_good
    | with_reducible apply releaseTrip_good
    | with_reducible apply good_ite
    | split

theorem execInputOvervoltage_good {b t : State} (s : State) (h : Good b s)
    (e : execInputOvervoltage s = .next t) : Good b t := by
  unfold execInputOvervoltage at e
  injection e with e
  subst e
  repeat' first
    | with_reducible assumption
    | with_reducible apply powerLoss_good

theorem execInputOvercurrent_good {b t : State} (s : State) (h : Good b s)
    (e : execInputOvercurrent s = .next t) : Good b t := by
  unfold execInputOvercurrent at e
  injection e with e
  subst e
  repeat' first
    | with_reducible assumption
    | with_reducible apply onHearth_good
    | with_reducible apply powerLoss_good
    | simp only [good_mk]
    | with_reducible apply good_ite
    | dsimp only
    | split

theorem execInputReverseCurrent_good {b t : State} (s : State) (h : Good b s)
    (e : execInputReverseCurrent s = .next t) : Good b t := by
  unfold execInputReverseCurrent at e
  injection e with e
  subst e
  repeat' first
    | with_reducible assumption
    | with_reducible apply powerLoss_good
    | with_reducible apply releaseTrip_good

theorem good_wf_hist {b s : State} (h : Good b s) : smWf hist0 s.hist = true := h.2.2.2.2.2.2.2.2.2.1

/-- A state that starts again from the volatile values with histories of a canonical form. -/
theorem freshHist_good {b s : State} (m : SMap Hist) (h : Good b s) (hm : smWf hist0 m = true) :
    Good b { volatileReset s with hist := m } :=
  good_hist m (volatileReset_good s h) fun _ => hm

theorem execPwrEnLow_good {b t : State} (s : State) (h : Good b s)
    (e : execPwrEnLow s = .next t) : Good b t := by
  unfold execPwrEnLow at e
  injection e with e
  subst e
  extract_lets u v
  have hu : Good b u := onHearth_good _ _ h
  have hv : Good b v := queueRec_good _ _ hu
  exact good_ite hu (good_mk.mpr (freshHist_good v.hist hv (good_wf_hist hv)))

theorem beginPhase_good {b : State} (k : Nat) (s : State) (h : Good b s) : Good b (beginPhase k s) := by
  unfold beginPhase
  repeat' first
    | with_reducible assumption
    | with_reducible apply setF_good
    | with_reducible apply raise_good
    | simp only [good_mk]
    | dsimp only

theorem execInputSwitchClose_good {b t : State} (s : State) (h : Good b s)
    (e : execInputSwitchClose s = .next t) : Good b t := by
  unfold execInputSwitchClose at e
  injection e with e
  subst e
  refine good_ite h ?_
  extract_lets cold t
  exact beginPhase_good _ _ (showAttic_good _ (loadHists_good _
    (good_mk.mpr (freshHist_good s.hist h (good_wf_hist h)))))

theorem startReset_good {b : State} (s : State) (h : Good b s) : Good b (startReset s) := by
  unfold startReset
  extract_lets u t
  have hu : Good b u := setTop_good _ _ h
  exact beginPhase_good _ _ (showAttic_good _ (setFs_good _ _
    (good_mk.mpr (freshHist_good u.hist hu (good_wf_hist hu)))))

theorem resetCmd_good {b : State} (w : Nat) (s : State) (h : Good b s) : Good b (resetCmd w s) := by
  unfold resetCmd
  repeat' first
    | with_reducible assumption
    | with_reducible apply raise_good
    | with_reducible apply startReset_good
    | with_reducible apply good_ite
    | dsimp only
    | split

theorem execTopResetCmd_good {b t : State} (view : Fin 4) (w : Word) (s : State) (h : Good b s)
    (e : execTopResetCmd view w s = .next t) : Good b t := by
  unfold execTopResetCmd at e
  injection e with e
  subst e
  repeat' first
    | with_reducible assumption
    | with_reducible apply resetCmd_good
    | with_reducible apply good_ite
    | split

end Sys2Proof.Machine
end

