-- ==== Sys2Proof/Laws/KeepBringup.lean ====
section
/-! SUPPORT. The operations of Machine/Bringup.lean keep the fuses, the queue and the canonical form. -/

set_option linter.unusedTactic false
set_option linter.unreachableTactic false
set_option linter.unusedSimpArgs false

namespace Sys2Proof.Machine

theorem endBringup_good {b : State} (s : State) (h : Good b s) : Good b (endBringup s) := by
  unfold endBringup
  repeat' first
    | with_reducible assumption
    | with_reducible apply setF_good
    | simp only [good_mk]
    | dsimp only

theorem stopBringup_good {b : State} (k reason : Nat) (s : State) (h : Good b s) : Good b (stopBringup k reason s) := by
  unfold stopBringup
  repeat' first
    | with_reducible assumption
    | with_reducible apply setFs_good
    | with_reducible apply raise_good
    | with_reducible apply goFlagged_good
    | with_reducible apply endBringup_good

theorem endPhase_good {b : State} (k reason : Nat) (s : State) (h : Good b s) : Good b (endPhase k reason s) := by
  unfold endPhase
  repeat' first
    | with_reducible assumption
    | with_reducible apply beginPhase_good
    | with_reducible apply startDiscovery_good
    | with_reducible apply stopBringup_good
    | intro _
    | simp only [good_mk]
    | with_reducible apply good_ite
    | dsimp only
    | split

theorem phase_good {b : State} (k : Nat) (work : State → Nat × State) (s : State) (h : Good b s)
    (hw : Good b (work s).2) : Good b (phase k work s) := by
  unfold phase
  exact good_ite (endPhase_good _ _ _ hw) h

theorem railsWork_good {b : State} (s : State) (h : Good b s) : Good b (railsWork s).2 := by
  unfold railsWork
  dsimp only
  repeat' first
    | with_reducible assumption
    | with_reducible apply good_ite
    | split

theorem execBringupP0_good {b t : State} (s : State) (h : Good b s)
    (e : execBringupP0 s = .next t) : Good b t := by
  unfold execBringupP0 at e
  injection e with e
  subst e
  exact phase_good _ _ _ h (railsWork_good _ h)

theorem fwWork_good {b : State} (slot0 slot1 : Bool) (s : State) (h : Good b s) : Good b (fwWork slot0 slot1 s).2 := by
  unfold fwWork
  dsimp only
  repeat' first
    | with_reducible assumption
    | simp only [good_mk]
    | with_reducible apply good_ite
    | dsimp only
    | split

theorem execFwAuth_good {b t : State} (slot0 slot1 : Bool) (s : State) (h : Good b s)
    (e : execFwAuth slot0 slot1 s = .next t) : Good b t := by
  unfold execFwAuth at e
  injection e with e
  subst e
  exact phase_good _ _ _ h (fwWork_good _ _ _ h)

theorem discoveryWork_good {b : State} (guest : Option (List Byte)) (s : State) (h : Good b s) : Good b (discoveryWork guest s).2 := by
  unfold discoveryWork
  repeat' first
    | with_reducible assumption
    | with_reducible apply raise_good
    | with_reducible apply readIdentity_good
    | with_reducible apply setB_good
    | with_reducible apply good_foldl
    | intro _
    | simp only [good_mk]
    | with_reducible apply good_ite
    | dsimp only
    | split

theorem execDiscovery_good {b t : State} (guest : Option (List Byte)) (s : State) (h : Good b s)
    (e : execDiscovery guest s = .next t) : Good b t := by
  unfold execDiscovery at e
  injection e with e
  subst e
  repeat' first
    | with_reducible assumption
    | with_reducible apply discoveryWork_good
    | with_reducible apply phase_good
    | intro _
    | simp only [good_mk]
    | with_reducible apply good_ite
    | dsimp only
    | split

theorem repeatN_good {b : State} (n : Nat) (f : State → State) (s : State) (h_f : ∀ (s : State), Good b s → Good b (f s)) (h : Good b s) : Good b (repeatN n f s) := by
  unfold repeatN
  repeat' first
    | with_reducible assumption
    | with_reducible apply h_f
    | with_reducible apply good_foldl
    | intro _
    | dsimp only

theorem repairAttic_good {b : State} (bad : List (Nat × Bool)) (s : State) (h : Good b s) : Good b (repairAttic bad s) := by
  unfold repairAttic
  repeat' first
    | with_reducible assumption
    | with_reducible apply setFs_good
    | with_reducible apply raise_good
    | with_reducible apply raiseIf_good
    | with_reducible apply repeatN_good
    | intro _
    | simp only [good_mk]
    | dsimp only
    | split

theorem restoreField_good {b : State} (f : Fld) (v : Option Nat) (s : State) (h : Good b s) : Good b (restoreField f v s) := by
  unfold restoreField
  repeat' first
    | with_reducible assumption
    | with_reducible apply setF_good
    | with_reducible apply setB_good
    | simp only [good_mk]
    | with_reducible apply good_ite
    | dsimp only
    | split

theorem restorePage_good {b : State} (p : Nat) (s : State) (h : Good b s) : Good b (restorePage p s) := by
  unfold restorePage
  repeat' first
    | with_reducible assumption
    | with_reducible apply restoreField_good
    | with_reducible apply good_foldl
    | intro _
    | with_reducible apply good_ite
    | dsimp only
    | split

theorem restorePackage_good {b : State} (s : State) (h : Good b s) : Good b (restorePackage s) := by
  unfold restorePackage
  repeat' first
    | with_reducible assumption
    | with_reducible apply setB_good
    | with_reducible apply setFs_good
    | with_reducible apply restoreField_good
    | simp only [good_mk]
    | dsimp only
    | split

theorem logLoss_good {b : State} (s : State) (h : Good b s) : Good b (logLoss s) := by
  unfold logLoss
  repeat' first
    | with_reducible assumption
    | with_reducible apply logOnly_good
    | with_reducible apply onHearth_good
    | simp only [good_mk]
    | with_reducible apply good_ite
    | dsimp only
    | split

theorem smErase_wf {β : Type} [DecidableEq β] (d : β) (m : SMap β) (k : Nat) (h : smWf d m = true) :
    smWf d (smErase m k) = true := by
  rw [smWf_iff] at h ⊢
  exact ⟨smErase_sorted m k h.1, fun e he => h.2 e (mem_smErase he)⟩

theorem freshHists_good {b : State} (i : Nat) (s : State) (h : Good b s) : Good b (freshHists i s) := by
  unfold freshHists
  refine good_foldl (fun t k ht => queueRec_good _ _ ?_) _ _ h
  exact good_hist _ ht (smErase_wf _ _ _)

theorem chooseMode_good {b : State} (s : State) (h : Good b s) : Good b (chooseMode s) := by
  unfold chooseMode
  repeat' first
    | with_reducible assumption
    | with_reducible apply setFs_good
    | with_reducible apply raiseIf_good
    | with_reducible apply queueRec_good
    | simp only [good_mk]
    | with_reducible apply good_ite
    | dsimp only
    | split

theorem restoreAll_good {b : State} (s : State) (h : Good b s) : Good b (restoreAll s) := by
  unfold restoreAll
  repeat' first
    | with_reducible assumption
    | with_reducible apply setB_good
    | with_reducible apply raise_good
    | with_reducible apply restorePage_good
    | with_reducible apply restorePackage_good
    | with_reducible apply good_foldl
    | intro _
    | dsimp only
    | split

theorem restoreHists_good {b : State} (s : State) (h : Good b s) : Good b (restoreHists s) := by
  unfold restoreHists
  repeat' first
    | with_reducible assumption
    | with_reducible apply loadHists_good
    | with_reducible apply freshHists_good
    | with_reducible apply good_foldl
    | intro _
    | with_reducible apply good_ite
    | dsimp only
    | split

theorem restoreTraining_good {b : State} (s : State) (h : Good b s) : Good b (restoreTraining s) := by
  unfold restoreTraining
  repeat' first
    | with_reducible assumption
    | with_reducible apply good_foldl
    | intro _
    | simp only [good_mk]
    | with_reducible apply good_ite
    | dsimp only
    | split

theorem restoreWork_good {b : State} (bad : List (Nat × Bool)) (s : State) (h : Good b s) : Good b (restoreWork bad s).2 := by
  unfold restoreWork
  repeat' first
    | with_reducible assumption
    | with_reducible apply chooseMode_good
    | with_reducible apply logLoss_good
    | with_reducible apply raiseIf_good
    | with_reducible apply repairAttic_good
    | with_reducible apply restoreAll_good
    | with_reducible apply restoreHists_good
    | with_reducible apply restoreTraining_good
    | with_reducible apply setFs_good
    | with_reducible apply updateCap_good
    | intro _
    | simp only [good_mk]
    | with_reducible apply good_ite
    | dsimp only
    | split

theorem execAtticRestore_good {b t : State} (bad : List (Nat × Bool)) (s : State) (h : Good b s)
    (e : execAtticRestore bad s = .next t) : Good b t := by
  unfold execAtticRestore at e
  injection e with e
  subst e
  exact phase_good _ _ _ h (restoreWork_good _ _ h)

theorem trainBundles_good {b : State} (t : TrainRes) (s : State) (h : Good b s) : Good b (trainBundles t s) := by
  unfold trainBundles
  repeat' first
    | with_reducible assumption
    | with_reducible apply failBundle_good
    | with_reducible apply good_foldl
    | intro _
    | simp only [good_mk]
    | with_reducible apply good_ite
    | dsimp only
    | split

theorem failLate_good {b : State} (t : TrainRes) (d : Nat) : ∀ (n : Nat) (s : State), Good b s → Good b (failLate t d n s)
  | 0, _, h => h
  | n + 1, s, h => by
    unfold failLate
    split
    · exact failLate_good t d n _ (failBundle_good _ _ _ h)
    · exact h

theorem measureBundles_good {b : State} (t : TrainRes) (d : Nat) (s : State) (h : Good b s) : Good b (measureBundles t d s) := by
  unfold measureBundles
  repeat' first
    | with_reducible assumption
    | with_reducible apply failLate_good
    | with_reducible apply setF_good
    | with_reducible apply good_foldl
    | intro _
    | simp only [good_mk]
    | with_reducible apply good_ite
    | dsimp only
    | split

theorem noteTrained_good {b : State} (e : Nat × List Nat × List (Nat × Nat × Nat)) (s : State) (h : Good b s) : Good b (noteTrained e s) := by
  unfold noteTrained
  repeat' first
    | with_reducible assumption
    | intro _
    | simp only [good_mk]
    | with_reducible apply good_ite
    | dsimp only
    | split

theorem setBadLanes_good {b : State} (k c : Nat) (l : List Nat) (s : State) (h : Good b s) : Good b (setBadLanes k c l s) := by
  unfold setBadLanes
  repeat' first
    | with_reducible assumption
    | with_reducible apply raise_good
    | with_reducible apply updStk_good
    | with_reducible apply repeatN_good
    | intro _
    | simp only [good_mk]
    | dsimp only
    | split

theorem addBadLanes_good {b : State} (k c : Nat) (more : List Nat) (s : State) (h : Good b s) : Good b (addBadLanes k c more s) := by
  unfold addBadLanes
  repeat' first
    | with_reducible assumption
    | with_reducible apply setBadLanes_good
    | with_reducible apply good_ite
    | dsimp only
    | split

theorem trainLanes_good {b : State} (found : List (Nat × Nat)) (s : State) (h : Good b s) : Good b (trainLanes found s) := by
  unfold trainLanes
  repeat' first
    | with_reducible assumption
    | with_reducible apply addBadLanes_good
    | with_reducible apply good_foldl
    | intro _
    | dsimp only

theorem trainPort_good {b : State} (t : TrainRes) (p : Nat) (s : State) (h : Good b s) : Good b (trainPort t p s) := by
  unfold trainPort
  repeat' first
    | with_reducible assumption
    | with_reducible apply raise_good
    | with_reducible apply sendIdent_good
    | with_reducible apply setFs_good
    | with_reducible apply takeFree_good
    | with_reducible apply updPort_good
    | intro _
    | simp only [good_mk]
    | with_reducible apply good_ite
    | dsimp only
    | split

theorem classifyAll_good {b : State} (s : State) (h : Good b s) : Good b (classifyAll s) := by
  unfold classifyAll
  repeat' first
    | with_reducible assumption
    | with_reducible apply raiseIf_good
    | with_reducible apply classify_good
    | with_reducible apply good_foldl
    | intro _
    | dsimp only

theorem trainWork_good {b : State} (t : TrainRes) (s : State) (h : Good b s) : Good b (trainWork t s).2 := by
  unfold trainWork
  repeat' first
    | with_reducible assumption
    | with_reducible apply measureBundles_good
    | with_reducible apply noteTrained_good
    | with_reducible apply trainBundles_good
    | with_reducible apply trainGuest_good
    | with_reducible apply trainLanes_good
    | with_reducible apply trainPort_good
    | with_reducible apply good_foldl
    | intro _
    | simp only [good_mk]
    | with_reducible apply good_ite
    | dsimp only
    | split

theorem execTraining_good {b t : State} (r : TrainRes) (s : State) (h : Good b s)
    (e : execTraining r s = .next t) : Good b t := by
  unfold execTraining at e
  injection e with e
  subst e
  exact phase_good _ _ _ h (trainWork_good _ _ h)

theorem retested_good {b : State} (key : Nat) (fail : Bool) (s : State) (h : Good b s) : Good b (retested key fail s) := by
  unfold retested
  repeat' first
    | with_reducible assumption
    | with_reducible apply raiseIf_good
    | with_reducible apply queueRec_good
    | refine good_hist _ ?_ (smUpd_wf _ _ _ _)
    | simp only [good_mk]
    | with_reducible apply good_ite
    | dsimp only
    | split

theorem checkBundles_good {b : State} (r : CheckRes) (s : State) (h : Good b s) : Good b (checkBundles r s) := by
  unfold checkBundles
  repeat' first
    | with_reducible assumption
    | with_reducible apply failBundle_good
    | with_reducible apply addBer_good
    | with_reducible apply good_foldl
    | intro _
    | with_reducible apply good_ite
    | dsimp only
    | split

theorem checkPorts_good {b : State} (r : CheckRes) (s : State) (h : Good b s) : Good b (checkPorts r s) := by
  unfold checkPorts
  repeat' first
    | with_reducible assumption
    | with_reducible apply classify_good
    | with_reducible apply updPort_good
    | with_reducible apply good_foldl
    | intro _
    | simp only [good_mk]
    | with_reducible apply good_ite
    | dsimp only
    | split

theorem applyPermanent_good {b : State} (s : State) (h : Good b s) : Good b (applyPermanent s) := by
  unfold applyPermanent
  repeat' first
    | with_reducible assumption
    | with_reducible apply failBundle_good
    | with_reducible apply trainLanes_good
    | with_reducible apply good_foldl
    | intro _
    | with_reducible apply good_ite
    | dsimp only
    | split

theorem judgeChannel_good {b : State} (k c : Nat) (s : State) (h : Good b s) : Good b (judgeChannel k c s) := by
  unfold judgeChannel
  repeat' first
    | with_reducible assumption
    | with_reducible apply setF_good
    | with_reducible apply setB_good
    | with_reducible apply raise_good
    | with_reducible apply freeChannel_good
    | with_reducible apply good_ite
    | split

theorem showStack_good {b : State} (k : Nat) (s : State) (h : Good b s) : Good b (showStack k s) := by
  unfold showStack
  repeat' first
    | with_reducible assumption
    | with_reducible apply setFs_good
    | dsimp only

theorem assignRoles_good {b : State} (d : Nat) (s : State) (h : Good b s) : Good b (assignRoles d s) := by
  unfold assignRoles
  repeat' first
    | with_reducible assumption
    | with_reducible apply setFs_good
    | with_reducible apply raise_good
    | simp only [good_mk]
    | dsimp only
    | split

theorem noteGroup_good {b : State} (kind i : Nat) (ok : Bool) (errs : Nat) (bad : Option Nat) (s : State) (h : Good b s) : Good b (noteGroup kind i ok errs bad s) := by
  unfold noteGroup
  dsimp only [takeFree]
  repeat' first
    | with_reducible assumption
    | with_reducible apply takeFree_good
    | simp only [good_mk]
    | dsimp only
    | split

theorem noteGroups_good {b : State} (r : CheckRes) (s : State) (h : Good b s) : Good b (noteGroups r s) := by
  unfold noteGroups
  repeat' first
    | with_reducible assumption
    | with_reducible apply noteGroup_good
    | with_reducible apply good_foldl
    | intro _
    | simp only [good_mk]
    | with_reducible apply good_ite
    | dsimp only
    | split

theorem applyCheck_good {b : State} (r : CheckRes) (s : State) (h : Good b s) : Good b (applyCheck r s) := by
  unfold applyCheck
  repeat' first
    | with_reducible assumption
    | with_reducible apply moduleDown_good
    | with_reducible apply addBadLanes_good
    | with_reducible apply checkBundles_good
    | with_reducible apply checkPorts_good
    | with_reducible apply good_foldl
    | intro _
    | with_reducible apply good_ite
    | dsimp only
    | split

theorem retestLinks_good {b : State} (r : CheckRes) (s : State) (h : Good b s) : Good b (retestLinks r s) := by
  unfold retestLinks
  repeat' first
    | with_reducible assumption
    | with_reducible apply retested_good
    | with_reducible apply good_foldl
    | intro _
    | dsimp only

theorem judgeLinks_good {b : State} (s : State) (h : Good b s) : Good b (judgeLinks s) := by
  unfold judgeLinks
  repeat' first
    | with_reducible assumption
    | with_reducible apply setF_good
    | with_reducible apply countRegions_good
    | with_reducible apply applyPermanent_good
    | with_reducible apply judgeChannel_good
    | with_reducible apply showStack_good
    | with_reducible apply assignRoles_good
    | with_reducible apply good_foldl
    | intro _
    | dsimp only
    | split

theorem checkWork_good {b : State} (r : CheckRes) (s : State) (h : Good b s) : Good b (checkWork r s).2 := by
  unfold checkWork
  repeat' first
    | with_reducible assumption
    | with_reducible apply applyCheck_good
    | with_reducible apply classifyAll_good
    | with_reducible apply judgeLinks_good
    | with_reducible apply noteGroups_good
    | with_reducible apply retestLinks_good
    | intro _
    | simp only [good_mk]
    | with_reducible apply good_ite
    | dsimp only
    | split

theorem execErrorRateCheck_good {b t : State} (r : CheckRes) (s : State) (h : Good b s)
    (e : execErrorRateCheck r s = .next t) : Good b t := by
  unfold execErrorRateCheck at e
  injection e with e
  subst e
  exact phase_good _ _ _ h (checkWork_good _ _ h)

theorem failCore_good {b : State} (d row col : Nat) (s : State) (h : Good b s) : Good b (failCore d row col s) := by
  unfold failCore
  repeat' first
    | with_reducible assumption
    | with_reducible apply queueRec_good
    | refine good_hist _ ?_ (smUpd_wf _ _ _ _)
    | simp only [good_mk]
    | with_reducible apply good_ite
    | dsimp only
    | split

theorem ageHists_good {b : State} (s : State) (h : Good b s) : Good b (ageHists s) := by
  unfold ageHists
  repeat' first
    | with_reducible assumption
    | with_reducible apply queueRec_good
    | with_reducible apply good_foldl
    | intro _
    | refine good_hist _ ?_ (smUpd_wf _ _ _ _)
    | simp only [good_mk]
    | dsimp only

theorem mapFold_wf (d : Nat) (l : List (List Nat × Nat)) : ∀ m : SMap (List Nat), smWf [] m = true →
    smWf [] (l.foldl (fun t e => smSet [] t (128 * d + e.2) e.1) m) = true := by
  induction l with
  | nil => intro m h; exact h
  | cons e l ih => intro m h; exact ih _ (smSet_wf _ _ _ _ h)

theorem loadMap_good {b : State} (d : Nat) (s : State) (h : Good b s) : Good b (loadMap d s) := by
  unfold loadMap
  exact raise_good _ _ (setFs_good _ _ (good_rowMaps _ h (mapFold_wf _ _ _)))

theorem testUnits_good {b : State} (r : SelfRes) (s : State) (h : Good b s) : Good b (testUnits r s) := by
  unfold testUnits
  repeat' first
    | with_reducible assumption
    | with_reducible apply setF_good
    | with_reducible apply retested_good
    | with_reducible apply failCore_good
    | with_reducible apply ageHists_good
    | with_reducible apply good_foldl
    | intro _
    | dsimp only
    | split

theorem selfWork_good {b : State} (r : SelfRes) (s : State) (h : Good b s) : Good b (selfWork r s).2 := by
  unfold selfWork
  dsimp only
  repeat' first
    | with_reducible assumption
    | with_reducible apply raise_good
    | with_reducible apply loadMap_good
    | with_reducible apply testUnits_good
    | with_reducible apply good_foldl
    | intro _
    | with_reducible apply good_ite
    | dsimp only
    | split

theorem execSelfTest_good {b t : State} (r : SelfRes) (s : State) (h : Good b s)
    (e : execSelfTest r s = .next t) : Good b t := by
  unfold execSelfTest at e
  injection e with e
  subst e
  exact phase_good _ _ _ h (selfWork_good _ _ h)

theorem zeroAll_good {b : State} (s : State) (h : Good b s) : Good b (zeroAll s) := by
  unfold zeroAll
  have h' := good_pans [] (good_mem [] (good_cores [] h fun _ => rfl) fun _ => rfl) fun _ => rfl
  exact good_mk.mpr h'

theorem zeroWork_good {b : State} (s : State) (h : Good b s) : Good b (zeroWork s).2 := by
  unfold zeroWork
  dsimp only
  repeat' first
    | with_reducible assumption
    | with_reducible apply zeroAll_good

theorem execBringupZeroing_good {b t : State} (s : State) (h : Good b s)
    (e : execBringupZeroing s = .next t) : Good b t := by
  unfold execBringupZeroing at e
  injection e with e
  subst e
  exact phase_good _ _ _ h (zeroWork_good _ h)

theorem snapParts_good {b : State} (s : State) (h : Good b s) : Good b (snapParts s) := by
  unfold snapParts
  repeat' first
    | with_reducible assumption
    | with_reducible apply good_foldl
    | intro _
    | simp only [good_mk]
    | dsimp only

theorem snapAllot_good {b : State} (s : State) (h : Good b s) : Good b (snapAllot s) := by
  unfold snapAllot
  repeat' first
    | with_reducible assumption
    | simp only [good_mk]
    | dsimp only

theorem queueIfNew_good {b : State} (r : Nat) (s : State) (h : Good b s) : Good b (queueIfNew r s) := by
  unfold queueIfNew
  repeat' first
    | with_reducible assumption
    | with_reducible apply enqueue_good
    | with_reducible apply good_ite
    | split

theorem reachReady_good {b : State} (s : State) (h : Good b s) : Good b (reachReady s) := by
  unfold reachReady
  repeat' first
    | with_reducible assumption
    | with_reducible apply raise_good
    | with_reducible apply setTop_good
    | with_reducible apply atticGo_good
    | with_reducible apply onGuest_good
    | with_reducible apply setEnable_good
    | with_reducible apply setClocks_good
    | with_reducible apply endBringup_good
    | with_reducible apply snapParts_good
    | with_reducible apply snapAllot_good
    | with_reducible apply queueIfNew_good
    | with_reducible apply good_foldl
    | intro _
    | simp only [good_mk]
    | dsimp only
    | split

theorem execReady_good {b t : State} (s : State) (h : Good b s)
    (e : execReady s = .next t) : Good b t := by
  unfold execReady at e
  injection e with e
  subst e
  repeat' first
    | with_reducible assumption
    | with_reducible apply reachReady_good
    | with_reducible apply good_ite
    | split

theorem execAtticWriteCommit_good {b t : State} (s : State) (h : Good b s)
    (e : execAtticWriteCommit s = .next t) : Good b t := by
  unfold execAtticWriteCommit at e
  injection e with e
  subst e
  repeat' first
    | with_reducible assumption
    | with_reducible apply commitRec_good

theorem execAtticPackageTimer_good {b t : State} (s : State) (h : Good b s)
    (e : execAtticPackageTimer s = .next t) : Good b t := by
  unfold execAtticPackageTimer at e
  injection e with e
  subst e
  repeat' first
    | with_reducible assumption
    | with_reducible apply setF_good
    | with_reducible apply queueRec_good
    | with_reducible apply good_ite
    | split

theorem syncCmd_good {b : State} (s : State) (h : Good b s) : Good b (syncCmd s) := by
  unfold syncCmd
  repeat' first
    | with_reducible assumption
    | with_reducible apply raise_good
    | simp only [good_mk]
    | with_reducible apply good_ite
    | dsimp only
    | split

theorem execAtticSync_good {b t : State} (s : State) (h : Good b s)
    (e : execAtticSync s = .next t) : Good b t := by
  unfold execAtticSync at e
  injection e with e
  subst e
  repeat' first
    | with_reducible assumption
    | with_reducible apply syncCmd_good

theorem clearCmd_good {b : State} (s : State) (h : Good b s) : Good b (clearCmd s) := by
  unfold clearCmd
  repeat' first
    | with_reducible assumption
    | with_reducible apply enqueue_good
    | with_reducible apply atticGo_good
    | with_reducible apply good_foldl
    | intro _
    | with_reducible apply good_ite
    | dsimp only
    | split

theorem execClearSettings_good {b t : State} (s : State) (h : Good b s)
    (e : execClearSettings s = .next t) : Good b t := by
  unfold execClearSettings at e
  injection e with e
  subst e
  repeat' first
    | with_reducible assumption
    | with_reducible apply clearCmd_good

theorem coldCmd_good {b : State} (s : State) (h : Good b s) : Good b (coldCmd s) := by
  unfold coldCmd
  repeat' first
    | with_reducible assumption
    | with_reducible apply queueRec_good
    | simp only [good_mk]
    | with_reducible apply good_ite
    | dsimp only
    | split

theorem execColdNext_good {b t : State} (s : State) (h : Good b s)
    (e : execColdNext s = .next t) : Good b t := by
  unfold execColdNext at e
  injection e with e
  subst e
  repeat' first
    | with_reducible assumption
    | with_reducible apply coldCmd_good

end Sys2Proof.Machine
end

