-- ==== Sys2Proof/Laws/KeepFrame.lean ====
section
/-! SUPPORT. The operations of Machine/Frame.lean keep the fuses, the queue and the canonical form. -/

set_option linter.unusedTactic false
set_option linter.unreachableTactic false
set_option linter.unusedSimpArgs false

namespace Sys2Proof.Machine

theorem noteStretch_good {b : State} (f : Frame) (s : State) (h : Good b s) : Good b (noteStretch f s) := by
  unfold noteStretch
  repeat' first
    | with_reducible assumption
    | simp only [good_mk]
    | with_reducible apply good_ite
    | dsimp only
    | split

theorem syncAct_good {b : State} (p : Nat) (f : Frame) (s : State) (h : Good b s) : Good b (syncAct p f s) := by
  unfold syncAct
  repeat' first
    | with_reducible assumption
    | with_reducible apply timeReqRx_good
    | with_reducible apply timeRspRx_good
    | with_reducible apply launchRx_good
    | with_reducible apply goRx_good
    | with_reducible apply nogoRx_good
    | with_reducible apply stretchRx_good
    | with_reducible apply abortRx_good
    | with_reducible apply voidRx_good
    | simp only [good_mk]
    | dsimp only
    | split

theorem syncRx_good {b : State} (p : Nat) (f : Frame) (s : State) (h : Good b s) : Good b (syncRx p f s) := by
  unfold syncRx
  repeat' first
    | with_reducible assumption
    | with_reducible apply raiseIf_good
    | with_reducible apply updPort_good
    | with_reducible apply queueSync_good
    | with_reducible apply queueSyncs_good
    | with_reducible apply noteStretch_good
    | with_reducible apply syncAct_good
    | simp only [good_mk]
    | with_reducible apply good_ite
    | dsimp only
    | split

theorem dataAct_good {b : State} (f : Frame) (s : State) (h : Good b s) : Good b (dataAct f s) := by
  unfold dataAct
  repeat' first
    | with_reducible assumption
    | with_reducible apply landArrival_good
    | with_reducible apply markRx_good
    | with_reducible apply good_ite
    | split

theorem dataRx_good {b : State} (p : Nat) (f : Frame) (s : State) (h : Good b s) : Good b (dataRx p f s) := by
  unfold dataRx
  repeat' first
    | with_reducible assumption
    | with_reducible apply forward_good
    | with_reducible apply forwardAll_good
    | with_reducible apply dataAct_good
    | simp only [good_mk]
    | with_reducible apply good_ite
    | dsimp only
    | split

theorem ctrlRx_good {b : State} (p : Nat) (f : Frame) (s : State) (h : Good b s) : Good b (ctrlRx p f s) := by
  unfold ctrlRx
  repeat' first
    | with_reducible assumption
    | with_reducible apply rebindRx_good
    | with_reducible apply rebindAckRx_good
    | with_reducible apply identRx_good
    | with_reducible apply lockstepRx_good
    | simp only [good_mk]
    | with_reducible apply good_ite
    | dsimp only
    | split

theorem frameAct_good {b : State} (p : Nat) (f : Frame) (s : State) (h : Good b s) : Good b (frameAct p f s) := by
  unfold frameAct
  repeat' first
    | with_reducible assumption
    | with_reducible apply updPort_good
    | with_reducible apply syncRx_good
    | with_reducible apply dataRx_good
    | with_reducible apply ctrlRx_good
    | with_reducible apply good_ite
    | dsimp only
    | split

theorem frameRx_good {b : State} (p : Nat) (f : Frame) (corr uncorr : Nat) (s : State) (h : Good b s) : Good b (frameRx p f corr uncorr s) := by
  unfold frameRx
  repeat' first
    | with_reducible assumption
    | with_reducible apply frameAct_good
    | with_reducible apply incSat_good
    | with_reducible apply takeAck_good
    | intro _
    | simp only [good_mk]
    | with_reducible apply good_ite
    | dsimp only
    | split

theorem execFrameReceive_good {b t : State} (p : PortNo) (f : Frame) (corr uncorr : Nat) (s : State) (h : Good b s)
    (e : execFrameReceive p f corr uncorr s = .next t) : Good b t := by
  unfold execFrameReceive at e
  injection e with e
  subst e
  repeat' first
    | with_reducible assumption
    | with_reducible apply frameRx_good
    | with_reducible apply good_ite
    | split

end Sys2Proof.Machine
end

