-- ==== Sys2Proof/Laws/KeepLoader.lean ====
section
/-! SUPPORT. The operations of Machine/Loader.lean keep the fuses, the queue and the canonical form. -/

set_option linter.unusedTactic false
set_option linter.unreachableTactic false
set_option linter.unusedSimpArgs false

namespace Sys2Proof.Machine

theorem copySegs_good {b : State} (pa : Nat) (l : List SegE) (s : State) (h : Good b s) : Good b (copySegs pa l s) := by
  unfold copySegs
  repeat' first
    | with_reducible assumption
    | with_reducible apply wrMems_good
    | with_reducible apply good_foldl
    | intro _
    | dsimp only

theorem writeRoutes_good {b : State} (s : State) (h : Good b s) : Good b (writeRoutes s) := by
  unfold writeRoutes
  repeat' first
    | with_reducible assumption
    | with_reducible apply setF_good
    | simp only [good_mk]
    | dsimp only
    | split

theorem writeGuestTbl_good {b : State} (s0 : State) (pa role : Nat) (s : State) (h : Good b s) : Good b (writeGuestTbl s0 pa role s) := by
  unfold writeGuestTbl
  repeat' first
    | with_reducible assumption
    | with_reducible apply wrMems_good
    | with_reducible apply good_ite
    | dsimp only
    | split

theorem unbind_good {b : State} (f : Nat) (s : State) (h : Good b s) : Good b (unbind f s) := by
  unfold unbind
  repeat' first
    | with_reducible assumption
    | with_reducible apply mapCores_good
    | simp only [good_mk]
    | with_reducible apply good_ite
    | dsimp only
    | split

theorem noteRefresh_good {b : State} (s : State) (h : Good b s) : Good b (noteRefresh s) := by
  unfold noteRefresh
  repeat' first
    | with_reducible assumption
    | with_reducible apply updStk_good
    | with_reducible apply good_foldl
    | intro _
    | simp only [good_mk]
    | dsimp only
    | split

theorem showPlan_good {b : State} (f : Nat) (pl : Plan) (numDiff : Bool) (s : State) (h : Good b s) : Good b (showPlan f pl numDiff s) := by
  unfold showPlan
  repeat' first
    | with_reducible assumption
    | with_reducible apply setFs_good

theorem putPlan_good {b : State} (f : Nat) (pl : Option Plan) (m : SMap Nat) (s : State) (hm : smWf 0 m = true)
    (h : Good b s) : Good b (putPlan f pl m s) := by
  have h' : Good b { { s with plans := smSet none s.plans f pl } with redirect := m } :=
    good_redirect m (good_plans _ h (smSet_wf _ _ _ _)) fun _ => hm
  exact h'

theorem good_wf_redirect {b s : State} (h : Good b s) : smWf 0 s.redirect = true := h.2.2.2.2.2.2.2.2.2.2.2.2.2.1

theorem smFold_wf (l : List (Nat × Nat)) : ∀ m : SMap Nat, smWf 0 m = true →
    smWf 0 (l.foldl (fun m e => smSet 0 m e.1 e.2) m) = true := by
  induction l with
  | nil => intro m h; exact h
  | cons e l ih => intro m h; exact ih _ (smSet_wf _ _ _ _ h)

theorem loadTable_wf {b : State} (s : State) (pa : Nat) (pl : Plan) (h : Good b s) :
    smWf 0 (loadTable s pa pl) = true := by
  unfold loadTable
  split
  · exact smFold_wf _ _ (by rfl)
  · exact good_wf_redirect h

theorem placePlan_good {b : State} (f pa : Nat) (pl : Plan) (s : State) (h : Good b s) : Good b (placePlan f pa pl s) := by
  unfold placePlan
  dsimp only
  exact prepareCores_good _ _ (unbind_good _ _ (writeGuestTbl_good _ _ _ _ (raise_good _ _ (writeRoutes_good _
    (putPlan_good _ _ _ _ (loadTable_wf _ _ _ h) (copySegs_good _ _ _ h))))))

theorem loadPlan_good {b : State} (f pa : Nat) (s : State) (h : Good b s) : Good b (loadPlan f pa s) := by
  unfold loadPlan
  repeat' first
    | with_reducible assumption
    | with_reducible apply raise_good
    | with_reducible apply setResume_good
    | with_reducible apply noteRefresh_good
    | with_reducible apply showPlan_good
    | with_reducible apply placePlan_good
    | with_reducible apply good_ite
    | dsimp only
    | split

theorem loadFail_good {b : State} (f : Nat) (e : LoadErr) (s : State) (h : Good b s) : Good b (loadFail f e s) := by
  unfold loadFail
  repeat' first
    | with_reducible assumption
    | with_reducible apply setFs_good
    | with_reducible apply raise_good

theorem refusePlan_good {b : State} (f : Nat) (s : State) (h : Good b s) : Good b (refusePlan f s) := by
  unfold refusePlan
  repeat' first
    | with_reducible assumption
    | with_reducible apply raise_good

theorem loadCmd_good {b : State} (f : Nat) (s : State) (h : Good b s) : Good b (loadCmd f s) := by
  unfold loadCmd
  repeat' first
    | with_reducible assumption
    | with_reducible apply newJob_good
    | with_reducible apply refusePlan_good
    | with_reducible apply setFs_good
    | intro _
    | simp only [good_mk]
    | with_reducible apply good_ite
    | dsimp only
    | split

theorem execPlanLoad_good {b t : State} (f : Fin 4) (s : State) (h : Good b s)
    (e : execPlanLoad f s = .next t) : Good b t := by
  unfold execPlanLoad at e
  injection e with e
  subst e
  repeat' first
    | with_reducible assumption
    | with_reducible apply loadCmd_good

theorem execPlanLoadDone_good {b t : State} (f : Fin 4) (model : Option LoadErr) (s : State) (h : Good b s)
    (e : execPlanLoadDone f model s = .next t) : Good b t := by
  unfold execPlanLoadDone at e
  injection e with e
  subst e
  repeat' first
    | with_reducible assumption
    | with_reducible apply loadFail_good
    | with_reducible apply loadPlan_good
    | with_reducible apply setJob_good
    | intro _
    | simp only [good_mk]
    | with_reducible apply good_ite
    | dsimp only
    | split

theorem unloadCmd_good {b : State} (f : Nat) (s : State) (h : Good b s) : Good b (unloadCmd f s) := by
  have hw (c : Bool) : smWf 0 (if c then [] else s.redirect) = true := by
    cases c
    · exact good_wf_redirect h
    · rfl
  unfold unloadCmd
  exact good_ite (refusePlan_good _ _ h) (raise_good _ _ (setB_good _ _ _ (writeRoutes_good _ (unbind_good _ _
    (putPlan_good _ _ _ _ (hw _) h)))))

theorem execUnload_good {b t : State} (f : Fin 4) (s : State) (h : Good b s)
    (e : execUnload f s = .next t) : Good b t := by
  unfold execUnload at e
  injection e with e
  subst e
  repeat' first
    | with_reducible assumption
    | with_reducible apply unloadCmd_good

theorem restartCmd_good {b : State} (f : Nat) (s : State) (h : Good b s) : Good b (restartCmd f s) := by
  unfold restartCmd
  repeat' first
    | with_reducible assumption
    | with_reducible apply prepareCores_good
    | with_reducible apply refusePlan_good
    | with_reducible apply setResume_good
    | intro _
    | simp only [good_mk]
    | with_reducible apply good_ite
    | dsimp only
    | split

theorem execRestart_good {b t : State} (f : Fin 4) (s : State) (h : Good b s)
    (e : execRestart f s = .next t) : Good b t := by
  unfold execRestart at e
  injection e with e
  subst e
  repeat' first
    | with_reducible assumption
    | with_reducible apply restartCmd_good

end Sys2Proof.Machine
end

