-- ==== Sys2Proof/Laws/KeepPartition.lean ====
section
/-! SUPPORT. The operations of Machine/Partition.lean keep the fuses, the queue and the canonical form. -/

set_option linter.unusedTactic false
set_option linter.unreachableTactic false
set_option linter.unusedSimpArgs false

namespace Sys2Proof.Machine

theorem withRegs_good {b : State} (s : State) (h : Good b s) : Good b (withRegs s) := by
  unfold withRegs
  repeat' first
    | with_reducible assumption
    | with_reducible apply snapParts_good

theorem partZero_good {b : State} (s t : State) (h : Good b t) : Good b (partZero s t) := by
  unfold partZero
  repeat' first
    | with_reducible assumption
    | with_reducible apply setB_good
    | with_reducible apply setEnable_good
    | with_reducible apply setFs_good
    | with_reducible apply zeroBanks_good
    | with_reducible apply good_foldl
    | intro _
    | simp only [good_mk]
    | with_reducible apply good_ite
    | dsimp only
    | split

theorem partEnable_good {b : State} (s : State) (h : Good b s) : Good b (partEnable s) := by
  unfold partEnable
  repeat' first
    | with_reducible assumption
    | with_reducible apply raise_good
    | with_reducible apply clearReject_good
    | with_reducible apply setEnable_good
    | with_reducible apply withRegs_good
    | with_reducible apply partZero_good
    | simp only [good_mk]
    | with_reducible apply good_ite
    | dsimp only
    | split

theorem zeroCore_good {b : State} (l : Nat) (s : State) (h : Good b s) : Good b (zeroCore l s) := by
  unfold zeroCore
  repeat' first
    | with_reducible assumption
    | with_reducible apply updCore_good
    | simp only [good_mk]
    | dsimp only

theorem zeroBanks_good {b : State} (m : Nat) (s : State) (h : Good b s) : Good b (zeroBanks m s) := by
  unfold zeroBanks
  repeat' first
    | with_reducible assumption
    | with_reducible apply mapCores_good
    | with_reducible apply good_foldl
    | intro _
    | simp only [good_mk]
    | with_reducible apply good_ite
    | dsimp only
    | split

theorem coresZeroed_good {b : State} (s : State) (h : Good b s) : Good b (coresZeroed s) := by
  unfold coresZeroed
  repeat' first
    | with_reducible assumption
    | with_reducible apply setFs_good
    | with_reducible apply zeroBanks_good
    | with_reducible apply zeroCore_good
    | with_reducible apply good_foldl
    | intro _
    | simp only [good_mk]
    | with_reducible apply good_ite
    | dsimp only
    | split

theorem regionsZeroed_good {b : State} (s : State) (h : Good b s) : Good b (regionsZeroed s) := by
  unfold regionsZeroed
  repeat' first
    | with_reducible assumption
    | with_reducible apply setFs_good
    | simp only [good_mk]
    | dsimp only

theorem execZeroed_good {b t : State} (s : State) (h : Good b s)
    (e : execZeroed s = .next t) : Good b t := by
  unfold execZeroed at e
  injection e with e
  subst e
  repeat' first
    | with_reducible assumption
    | with_reducible apply setB_good
    | with_reducible apply raise_good
    | with_reducible apply coresZeroed_good
    | with_reducible apply regionsZeroed_good
    | with_reducible apply good_ite
    | split

theorem ownerCmd_good {b : State} (s : State) (h : Good b s) : Good b (ownerCmd s) := by
  unfold ownerCmd
  repeat' first
    | with_reducible assumption
    | with_reducible apply setFs_good
    | with_reducible apply raise_good
    | with_reducible apply countRegions_good
    | with_reducible apply setOwner_good
    | with_reducible apply good_foldl
    | intro _
    | refine good_mem _ ?_ (smClear_wf _ _ _ _)
    | simp only [good_mk]
    | with_reducible apply good_ite
    | dsimp only
    | split

theorem execPartOwnerCmd_good {b t : State} (s : State) (h : Good b s)
    (e : execPartOwnerCmd s = .next t) : Good b t := by
  unfold execPartOwnerCmd at e
  injection e with e
  subst e
  repeat' first
    | with_reducible assumption
    | with_reducible apply ownerCmd_good

theorem runConflict_good {b : State} (s : State) (h : Good b s) : Good b (runConflict s) := by
  unfold runConflict
  repeat' first
    | with_reducible assumption
    | with_reducible apply raise_good

theorem runStart_good {b : State} (s : State) (h : Good b s) : Good b (runStart s) := by
  unfold runStart
  repeat' first
    | with_reducible assumption
    | with_reducible apply setB_good
    | with_reducible apply runConflict_good
    | refine good_secs _ ?_ (smSet_wf _ _ _ _)
    | simp only [good_mk]
    | with_reducible apply good_ite
    | dsimp only
    | split

theorem runStop_good {b : State} (s : State) (h : Good b s) : Good b (runStop s) := by
  unfold runStop
  repeat' first
    | with_reducible assumption
    | with_reducible apply runConflict_good
    | refine good_secs _ ?_ (smSet_wf _ _ _ _)
    | simp only [good_mk]
    | with_reducible apply good_ite
    | dsimp only
    | split

theorem execPartRunStart_good {b t : State} (s : State) (h : Good b s)
    (e : execPartRunStart s = .next t) : Good b t := by
  unfold execPartRunStart at e
  injection e with e
  subst e
  repeat' first
    | with_reducible assumption
    | with_reducible apply runStart_good

theorem execPartRunStop_good {b t : State} (s : State) (h : Good b s)
    (e : execPartRunStop s = .next t) : Good b t := by
  unfold execPartRunStop at e
  injection e with e
  subst e
  repeat' first
    | with_reducible assumption
    | with_reducible apply runStop_good

theorem dmaStart_good {b : State} (n : Nat) (s : State) (h : Good b s) : Good b (dmaStart n s) := by
  unfold dmaStart
  repeat' first
    | with_reducible assumption
    | with_reducible apply newJob_good
    | with_reducible apply raise_good
    | with_reducible apply setB_good
    | with_reducible apply setFs_good
    | intro _
    | simp only [good_mk]
    | with_reducible apply good_ite
    | dsimp only
    | split

theorem execDmaStart_good {b t : State} (n : Fin 16) (s : State) (h : Good b s)
    (e : execDmaStart n s = .next t) : Good b t := by
  unfold execDmaStart at e
  injection e with e
  subst e
  repeat' first
    | with_reducible assumption
    | with_reducible apply dmaStart_good

theorem dmaSignal_good {b : State} (n f : Nat) (s : State) (h : Good b s) : Good b (dmaSignal n f s) := by
  unfold dmaSignal
  repeat' first
    | with_reducible assumption
    | simp only [good_mk]
    | with_reducible apply good_ite
    | dsimp only
    | split

theorem dmaShow_good {b : State} (n : Nat) (failed : Bool) (s : State) (h : Good b s) : Good b (dmaShow n failed s) := by
  unfold dmaShow
  repeat' first
    | with_reducible assumption
    | with_reducible apply dmaSignal_good
    | with_reducible apply raise_good
    | with_reducible apply setB_good
    | intro _
    | simp only [good_mk]
    | with_reducible apply good_ite
    | dsimp only
    | split

theorem dmaEnd_good {b : State} (n : Nat) (s : State) (h : Good b s) : Good b (dmaEnd n s) := by
  unfold dmaEnd
  repeat' first
    | with_reducible assumption
    | with_reducible apply dmaShow_good
    | with_reducible apply setJob_good
    | intro _
    | simp only [good_mk]
    | with_reducible apply good_ite
    | dsimp only
    | split

theorem execDmaDone_good {b t : State} (n : Fin 16) (s : State) (h : Good b s)
    (e : execDmaDone n s = .next t) : Good b t := by
  unfold execDmaDone at e
  injection e with e
  subst e
  repeat' first
    | with_reducible assumption
    | with_reducible apply dmaEnd_good
    | intro _
    | simp only [good_mk]
    | with_reducible apply good_ite
    | dsimp only
    | split

theorem complete_good {b : State} (sta : Nat) (data : List Byte) (s : State) (h : Good b s) : Good b (complete sta data s) := by
  unfold complete
  repeat' first
    | with_reducible assumption
    | with_reducible apply bar2_good
    | simp only [good_mk]
    | dsimp only

theorem bar2Serve_good {b t : State} (f : Nat) (wr : Bool) : ∀ (es : List (Nat × Nat)) (vs : List Served) (s : State) (ok : Bool),
    Good b s → bar2Serve f wr es vs s = some (t, ok) → Good b t
  | [], _, s, ok, h, e => by
    simp only [bar2Serve, Option.some.injEq, Prod.mk.injEq] at e
    rw [← e.1]; exact h
  | _ :: _, [], _, _, _, e => by simp [bar2Serve] at e
  | a :: es, v :: vs, s, ok, h, e => by
    unfold bar2Serve at e
    dsimp only at e
    split at e
    · cases e
    · split at e
      · cases e
      · rename_i x hx
        simp only [Option.some.injEq, Prod.mk.injEq] at e
        rw [← e.1]
        exact bar2Serve_good f wr es vs _ _ (serveAccess_good _ _ _ _ _ _ _ h) hx

theorem bar2Write_good {b : State} : ∀ (es : List (Nat × Nat)) (bs : List Byte) (s : State), Good b s →
    Good b (bar2Write es bs s)
  | [], _, _, h => h
  | _ :: es, _, _, h => bar2Write_good es _ _ (serveWrite_good _ _ _ h)

theorem bar2End_good {b : State} (idle ok : Bool) (runs : List (Nat × Nat)) (wr : Option (List Byte)) (s : State) (h : Good b s) : Good b (bar2End idle ok runs wr s) := by
  unfold bar2End
  repeat' first
    | with_reducible assumption
    | with_reducible apply bar2Write_good
    | with_reducible apply complete_good
    | with_reducible apply idle_good
    | intro _
    | simp only [good_mk]
    | with_reducible apply good_ite
    | dsimp only
    | split

theorem bar2_good {b : State} (f off len : Nat) (wr : Option (List Byte)) (sv : List Served) (s : State) (h : Good b s) : Good b (bar2 f off len wr sv s) := by
  unfold bar2
  dsimp only
  split
  · exact raise_good _ _ (complete_good _ _ _ h)
  · split
    · exact h
    · rename_i hx
      exact bar2End_good _ _ _ _ _ (bar2Serve_good _ _ _ _ _ _ h hx)

theorem execBar2Access_good {b t : State} (f : Fin 4) (off len : Nat) (wr : Option (List Byte)) (sv : List Served) (s : State) (h : Good b s)
    (e : execBar2Access f off len wr sv s = .next t) : Good b t := by
  unfold execBar2Access at e
  injection e with e
  subst e
  repeat' first
    | with_reducible assumption
    | with_reducible apply bar2_good
    | intro _
    | simp only [good_mk]
    | with_reducible apply good_ite
    | dsimp only
    | split

theorem setLink_good {b : State} (l : LinkInfo) (s : State) (h : Good b s) : Good b (setLink l s) := by
  unfold setLink
  repeat' first
    | with_reducible assumption
    | with_reducible apply setFs_good
    | with_reducible apply raiseIf_good
    | with_reducible apply good_ite
    | dsimp only
    | split

theorem execLinkChange_good {b t : State} (l : LinkInfo) (s : State) (h : Good b s)
    (e : execLinkChange l s = .next t) : Good b t := by
  unfold execLinkChange at e
  injection e with e
  subst e
  repeat' first
    | with_reducible assumption
    | with_reducible apply setLink_good
    | simp only [good_mk]
    | with_reducible apply good_ite
    | dsimp only
    | split

theorem resetDma_good {b : State} (n : Nat) (s : State) (h : Good b s) : Good b (resetDma n s) := by
  unfold resetDma
  repeat' first
    | with_reducible assumption
    | with_reducible apply resetF_good
    | with_reducible apply setJob_good
    | with_reducible apply good_foldl
    | intro _
    | simp only [good_mk]
    | with_reducible apply good_ite
    | dsimp only
    | split

theorem clearLatches_good {b : State} (f : Nat) (s : State) (h : Good b s) : Good b (clearLatches f s) := by
  unfold clearLatches
  repeat' first
    | with_reducible assumption
    | refine good_latch _ ?_ (smClear_wf _ _ _ _)
    | simp only [good_mk]
    | dsimp only

theorem hostReset_good {b : State} (s : State) (h : Good b s) : Good b (hostReset s) := by
  unfold hostReset
  repeat' first
    | with_reducible assumption
    | with_reducible apply setFs_good
    | with_reducible apply setLink_good
    | with_reducible apply resetDma_good
    | with_reducible apply clearLatches_good
    | with_reducible apply good_foldl
    | intro _
    | dsimp only
    | split

theorem execPerstN_good {b t : State} (s : State) (h : Good b s)
    (e : execPerstN s = .next t) : Good b t := by
  unfold execPerstN at e
  injection e with e
  subst e
  repeat' first
    | with_reducible assumption
    | with_reducible apply hostReset_good
    | with_reducible apply good_ite
    | split

theorem execHotReset_good {b t : State} (s : State) (h : Good b s)
    (e : execHotReset s = .next t) : Good b t := by
  unfold execHotReset at e
  injection e with e
  subst e
  repeat' first
    | with_reducible assumption
    | with_reducible apply hostReset_good
    | with_reducible apply good_ite
    | split

theorem execFunctionLevelReset_good {b t : State} (f : Fin 4) (s : State) (h : Good b s)
    (e : execFunctionLevelReset f s = .next t) : Good b t := by
  unfold execFunctionLevelReset at e
  injection e with e
  subst e
  repeat' first
    | with_reducible assumption
    | with_reducible apply resetDma_good
    | with_reducible apply clearLatches_good
    | with_reducible apply good_foldl
    | intro _
    | with_reducible apply good_ite
    | dsimp only
    | split

end Sys2Proof.Machine
end

