-- ==== Sys2Proof/Laws/KeepRegister.lean ====
section
/-! SUPPORT. The operations of Machine/Register.lean keep the fuses, the queue and the canonical form. -/

set_option linter.unusedTactic false
set_option linter.unreachableTactic false
set_option linter.unusedSimpArgs false

namespace Sys2Proof.Machine

theorem latchFold_wf (g h : Nat → Nat) (l : List Nat) : ∀ m : SMap (Option Nat), smWf none m = true →
    smWf none (l.foldl (fun m o => smSet none m (g o) (some (h o))) m) = true := by
  induction l with
  | nil => intro m hm; exact hm
  | cons e l ih => intro m hm; exact ih _ (smSet_wf _ _ _ _ hm)

theorem takeLatches_good {b : State} (r : Req) (pg off : Nat) (s : State) (h : Good b s) :
    Good b (takeLatches r pg off s) := by
  unfold takeLatches
  exact good_latch _ h (latchFold_wf _ _ _ _)

theorem bump_good {b : State} (f : Fld) (s : State) (h : Good b s) : Good b (bump f s) := by
  unfold bump
  repeat' first
    | with_reducible assumption
    | with_reducible apply setF_good

theorem cwRefuse_good {b : State} (n : Nat) (s : State) (h : Good b s) : Good b (cwRefuse n s) := by
  unfold cwRefuse
  repeat' first
    | with_reducible assumption
    | with_reducible apply setB_good
    | with_reducible apply raise_good

theorem cwStart_good {b : State} (r : Req) (wr : Option Nat) (s : State) (h : Good b s) : Good b (cwStart r wr s) := by
  unfold cwStart
  repeat' first
    | with_reducible assumption
    | with_reducible apply cwRefuse_good
    | with_reducible apply setB_good
    | intro _
    | simp only [good_mk]
    | with_reducible apply good_ite
    | dsimp only
    | split

theorem cwAdvance_good {b : State} (n : Nat) (s : State) (h : Good b s) : Good b (cwAdvance n s) := by
  unfold cwAdvance
  repeat' first
    | with_reducible assumption
    | with_reducible apply setF_good
    | with_reducible apply good_ite
    | split

theorem cwReadDone_good {b : State} (n : Nat) (q : List Nat) (ecc : WinEcc) (s : State) (h : Good b s) : Good b (cwReadDone n q ecc s) := by
  unfold cwReadDone
  repeat' first
    | with_reducible assumption
    | with_reducible apply raiseIf_good
    | with_reducible apply setFs_good
    | with_reducible apply takeFaults_good
    | with_reducible apply takeFree_good
    | intro _
    | simp only [good_mk]
    | with_reducible apply good_ite
    | dsimp only
    | split

theorem cwClose_good {b : State} (n : Nat) (s : State) (h : Good b s) : Good b (cwClose n s) := by
  unfold cwClose
  repeat' first
    | with_reducible assumption
    | with_reducible apply setB_good
    | intro _
    | simp only [good_mk]
    | with_reducible apply good_ite
    | dsimp only
    | split

theorem cwDone_good {b : State} (n : Nat) (ecc : WinEcc) (s : State) (h : Good b s) : Good b (cwDone n ecc s) := by
  unfold cwDone
  repeat' first
    | with_reducible assumption
    | with_reducible apply cwAdvance_good
    | with_reducible apply cwClose_good
    | with_reducible apply cwReadDone_good
    | with_reducible apply cwRefuse_good
    | with_reducible apply setB_good
    | with_reducible apply updCore_good
    | intro _
    | simp only [good_mk]
    | with_reducible apply good_ite
    | dsimp only
    | split

theorem execCoreWinAccessDone_good {b t : State} (r : Req) (ecc : WinEcc) (s : State) (h : Good b s)
    (e : execCoreWinAccessDone r ecc s = .next t) : Good b t := by
  unfold execCoreWinAccessDone at e
  injection e with e
  subst e
  repeat' first
    | with_reducible assumption
    | with_reducible apply cwDone_good
    | intro _
    | simp only [good_mk]
    | with_reducible apply good_ite
    | dsimp only
    | split

theorem readEffect_good {b : State} (r : Req) (pg off : Nat) (s : State) (h : Good b s) : Good b (readEffect r pg off s) := by
  unfold readEffect
  repeat' first
    | with_reducible assumption
    | with_reducible apply takeLatches_good
    | with_reducible apply bump_good
    | with_reducible apply cwStart_good
    | with_reducible apply cwAdvance_good
    | simp only [good_mk]
    | with_reducible apply good_ite
    | dsimp only
    | split

theorem readReg_good {b : State} (r : Req) (pg off : Nat) (s : State) (h : Good b s) : Good b (readReg r pg off s) := by
  unfold readReg
  repeat' first
    | with_reducible assumption
    | with_reducible apply readEffect_good
    | simp only [good_mk]
    | with_reducible apply good_ite
    | dsimp only
    | split

theorem execPgEvtSeqRead_good {b t : State} (r : Req) (pg : Nat) (s : State) (h : Good b s)
    (e : execPgEvtSeqRead r pg s = .next t) : Good b t := by
  unfold execPgEvtSeqRead at e
  injection e with e
  subst e
  repeat' first
    | with_reducible assumption
    | with_reducible apply readReg_good

theorem execTickCountLoRead_good {b t : State} (r : Req) (s : State) (h : Good b s)
    (e : execTickCountLoRead r s = .next t) : Good b t := by
  unfold execTickCountLoRead at e
  injection e with e
  subst e
  repeat' first
    | with_reducible assumption
    | with_reducible apply readReg_good

theorem execTickLaunchLoRead_good {b t : State} (r : Req) (s : State) (h : Good b s)
    (e : execTickLaunchLoRead r s = .next t) : Good b t := by
  unfold execTickLaunchLoRead at e
  injection e with e
  subst e
  repeat' first
    | with_reducible assumption
    | with_reducible apply readReg_good

theorem execTickJobLoRead_good {b t : State} (r : Req) (s : State) (h : Good b s)
    (e : execTickJobLoRead r s = .next t) : Good b t := by
  unfold execTickJobLoRead at e
  injection e with e
  subst e
  repeat' first
    | with_reducible assumption
    | with_reducible apply readReg_good

theorem execPanLowWordRead_good {b t : State} (r : Req) (k : StackNo) (q : Fin 3) (s : State) (h : Good b s)
    (e : execPanLowWordRead r k q s = .next t) : Good b t := by
  unfold execPanLowWordRead at e
  injection e with e
  subst e
  repeat' first
    | with_reducible assumption
    | with_reducible apply readReg_good
    | with_reducible apply good_ite
    | split

theorem execPanGnsSmall0Read_good {b t : State} (r : Req) (k : StackNo) (s : State) (h : Good b s)
    (e : execPanGnsSmall0Read r k s = .next t) : Good b t := by
  unfold execPanGnsSmall0Read at e
  injection e with e
  subst e
  repeat' first
    | with_reducible assumption
    | with_reducible apply readReg_good

theorem execFltLogDataRead_good {b t : State} (r : Req) (s : State) (h : Good b s)
    (e : execFltLogDataRead r s = .next t) : Good b t := by
  unfold execFltLogDataRead at e
  injection e with e
  subst e
  repeat' first
    | with_reducible assumption
    | with_reducible apply readReg_good

theorem execAtticHistDataRead_good {b t : State} (r : Req) (s : State) (h : Good b s)
    (e : execAtticHistDataRead r s = .next t) : Good b t := by
  unfold execAtticHistDataRead at e
  injection e with e
  subst e
  repeat' first
    | with_reducible assumption
    | with_reducible apply readReg_good

theorem execCwDataRead_good {b t : State} (r : Req) (s : State) (h : Good b s)
    (e : execCwDataRead r s = .next t) : Good b t := by
  unfold execCwDataRead at e
  injection e with e
  subst e
  repeat' first
    | with_reducible assumption
    | with_reducible apply readReg_good

theorem ackEvents_good {b : State} (p w : Nat) (s : State) (h : Good b s) : Good b (ackEvents p w s) := by
  unfold ackEvents
  repeat' first
    | with_reducible assumption
    | with_reducible apply setB_good
    | with_reducible apply setFs_good
    | with_reducible apply good_ite
    | split

theorem signalNew_good {b : State} (r : Req) (pg new : Nat) (s : State) (h : Good b s) : Good b (signalNew r pg new s) := by
  unfold signalNew
  repeat' first
    | with_reducible assumption
    | with_reducible apply signal_good
    | with_reducible apply good_foldl
    | intro _
    | simp only [good_mk]
    | with_reducible apply good_ite
    | dsimp only
    | split

theorem writeEvtEn_good {b : State} (r : Req) (pg view w : Nat) (s : State) (h : Good b s) : Good b (writeEvtEn r pg view w s) := by
  unfold writeEvtEn
  repeat' first
    | with_reducible assumption
    | with_reducible apply setF_good
    | with_reducible apply signalNew_good
    | dsimp only
    | split

theorem porchEnable_good {b : State} (o : Nat) (s : State) (h : Good b s) : Good b (porchEnable o s) := by
  unfold porchEnable
  repeat' first
    | with_reducible assumption
    | with_reducible apply classify_good
    | with_reducible apply good_foldl
    | intro _
    | simp only [good_mk]
    | with_reducible apply good_ite
    | dsimp only
    | split

theorem reduceEnable_good {b : State} (s : State) (h : Good b s) : Good b (reduceEnable s) := by
  unfold reduceEnable
  repeat' first
    | with_reducible assumption
    | with_reducible apply raise_good
    | simp only [good_mk]
    | with_reducible apply good_ite
    | dsimp only
    | split

theorem guestEnable_good {b : State} (s : State) (h : Good b s) : Good b (guestEnable s) := by
  unfold guestEnable
  repeat' first
    | with_reducible assumption
    | with_reducible apply onGuest_good
    | simp only [good_mk]
    | with_reducible apply good_ite
    | dsimp only
    | split

theorem enablePage_good {b : State} (r : Req) (pg : Nat) (s : State) (h : Good b s) : Good b (enablePage r pg s) := by
  unfold enablePage
  repeat' first
    | with_reducible assumption
    | with_reducible apply clearReject_good
    | with_reducible apply setEnable_good
    | with_reducible apply tickEnable_good
    | with_reducible apply partEnable_good
    | with_reducible apply porchEnable_good
    | with_reducible apply reduceEnable_good
    | with_reducible apply guestEnable_good
    | with_reducible apply good_ite
    | dsimp only
    | split

theorem disablePage_good {b : State} (r : Req) (pg view : Nat) (s : State) (h : Good b s) : Good b (disablePage r pg view s) := by
  unfold disablePage
  repeat' first
    | with_reducible assumption
    | with_reducible apply rejectWrite_good
    | with_reducible apply clearReject_good
    | with_reducible apply setEnable_good
    | with_reducible apply good_ite
    | dsimp only
    | split

theorem writeCtl_good {b : State} (r : Req) (pg view w : Nat) (s : State) (h : Good b s) : Good b (writeCtl r pg view w s) := by
  unfold writeCtl
  repeat' first
    | with_reducible assumption
    | with_reducible apply clearReject_good
    | with_reducible apply enablePage_good
    | with_reducible apply disablePage_good
    | with_reducible apply good_ite
    | dsimp only
    | split

theorem startCmd_good {b : State} (f : Fld) (s : State) (h : Good b s) : Good b (startCmd f s) := by
  unfold startCmd
  repeat' first
    | with_reducible assumption
    | with_reducible apply clearCmd_good
    | with_reducible apply coldCmd_good
    | with_reducible apply dmaStart_good
    | with_reducible apply drainCmd_good
    | with_reducible apply exportStart_good
    | with_reducible apply guestResetCmd_good
    | with_reducible apply loadCmd_good
    | with_reducible apply marginStart_good
    | with_reducible apply ownerCmd_good
    | with_reducible apply releaseDrain_good
    | with_reducible apply restartCmd_good
    | with_reducible apply runStart_good
    | with_reducible apply runStop_good
    | with_reducible apply syncCmd_good
    | with_reducible apply unloadCmd_good
    | with_reducible apply updPan_good
    | intro _
    | simp only [good_mk]
    | with_reducible apply good_ite
    | dsimp only
    | split

theorem startCmds_good {b : State} (view w : Nat) (fs : List Fld) (s : State) (h : Good b s) : Good b (startCmds view w fs s) := by
  unfold startCmds
  repeat' first
    | with_reducible assumption
    | with_reducible apply startCmd_good
    | with_reducible apply good_foldl
    | intro _
    | with_reducible apply good_ite
    | dsimp only
    | split

theorem mirrorPan_good {b : State} (off : Nat) (s : State) (h : Good b s) : Good b (mirrorPan off s) := by
  unfold mirrorPan
  repeat' first
    | with_reducible assumption
    | with_reducible apply setFs_good
    | with_reducible apply good_ite
    | dsimp only
    | split

theorem takeField_good {b : State} (e : Fld × Nat) (s : State) (h : Good b s) : Good b (takeField e s) := by
  unfold takeField
  repeat' first
    | with_reducible assumption
    | with_reducible apply laserPut_good
    | with_reducible apply setF_good
    | with_reducible apply writeClass_good
    | intro _
    | simp only [good_mk]
    | with_reducible apply good_ite
    | dsimp only
    | split

theorem queueKept_good {b : State} (pg : Nat) (es : List (Fld × Nat)) (s : State) (h : Good b s) : Good b (queueKept pg es s) := by
  unfold queueKept
  repeat' first
    | with_reducible assumption
    | with_reducible apply queueRec_good
    | with_reducible apply good_ite
    | dsimp only
    | split

theorem afterWrite_good {b : State} (r : Req) (pg off w : Nat) (s : State) (h : Good b s) : Good b (afterWrite r pg off w s) := by
  unfold afterWrite
  repeat' first
    | with_reducible assumption
    | with_reducible apply cwStart_good
    | with_reducible apply mirrorPan_good
    | with_reducible apply runConflict_good
    | with_reducible apply setF_good
    | with_reducible apply updateCap_good
    | intro _
    | simp only [good_mk]
    | with_reducible apply good_ite
    | dsimp only
    | split

theorem writeBlock_good {b : State} (r : Req) (pg view off w : Nat) (s : State) (h : Good b s) : Good b (writeBlock r pg view off w s) := by
  unfold writeBlock
  repeat' first
    | with_reducible assumption
    | with_reducible apply afterWrite_good
    | with_reducible apply noteRoot_good
    | with_reducible apply queueKept_good
    | with_reducible apply rejectWrite_good
    | with_reducible apply setFs_good
    | with_reducible apply startCmds_good
    | with_reducible apply takeField_good
    | with_reducible apply good_foldl
    | intro _
    | simp only [good_mk]
    | with_reducible apply good_ite
    | dsimp only
    | split

theorem applyWrite_good {b : State} (r : Req) (pg view off w : Nat) (s : State) (h : Good b s) : Good b (applyWrite r pg view off w s) := by
  unfold applyWrite
  repeat' first
    | with_reducible assumption
    | with_reducible apply writeCtl_good
    | with_reducible apply writeBlock_good
    | with_reducible apply good_ite
    | split

theorem wdrop_good {b : State} (pg : Nat) (r : Req) (s : State) (h : Good b s) : Good b (wdrop pg r s) := by
  unfold wdrop
  repeat' first
    | with_reducible assumption
    | with_reducible apply raise_good
    | simp only [good_mk]
    | dsimp only
    | split

theorem postWrite_good {b : State} (r : Req) (pg view off w : Nat) (s : State) (h : Good b s) : Good b (postWrite r pg view off w s) := by
  unfold postWrite
  repeat' first
    | with_reducible assumption
    | with_reducible apply setB_good
    | with_reducible apply wdrop_good
    | simp only [good_mk]
    | with_reducible apply good_ite
    | dsimp only
    | split

theorem admitted_good {b : State} (r : Req) (pg view off w : Nat) (s : State) (h : Good b s) : Good b (admitted r pg view off w s) := by
  unfold admitted
  repeat' first
    | with_reducible assumption
    | with_reducible apply resetCmd_good
    | with_reducible apply ackEvents_good
    | with_reducible apply writeEvtEn_good
    | with_reducible apply applyWrite_good
    | with_reducible apply postWrite_good
    | with_reducible apply good_ite
    | split

theorem writeReg_good {b : State} (r : Req) (addr w : Nat) (s : State) (h : Good b s) : Good b (writeReg r addr w s) := by
  unfold writeReg
  repeat' first
    | with_reducible assumption
    | with_reducible apply denyWrite_good
    | with_reducible apply admitted_good
    | with_reducible apply good_ite
    | dsimp only
    | split

theorem postedDone_good {b : State} (pg : Nat) (s : State) (h : Good b s) : Good b (postedDone pg s) := by
  unfold postedDone
  repeat' first
    | with_reducible assumption
    | with_reducible apply setB_good
    | with_reducible apply applyWrite_good
    | simp only [good_mk]
    | dsimp only
    | split

theorem execRegisterWrite_good {b t : State} (r : Req) (addr : Nat) (w : Word) (s : State) (h : Good b s)
    (e : execRegisterWrite r addr w s = .next t) : Good b t := by
  unfold execRegisterWrite at e
  injection e with e
  subst e
  repeat' first
    | with_reducible assumption
    | with_reducible apply writeReg_good

theorem execPostedWriteDone_good {b t : State} (pg : Nat) (s : State) (h : Good b s)
    (e : execPostedWriteDone pg s = .next t) : Good b t := by
  unfold execPostedWriteDone at e
  injection e with e
  subst e
  repeat' first
    | with_reducible assumption
    | with_reducible apply postedDone_good

theorem execPageEnable_good {b t : State} (r : Req) (pg : Nat) (s : State) (h : Good b s)
    (e : execPageEnable r pg s = .next t) : Good b t := by
  unfold execPageEnable at e
  injection e with e
  subst e
  repeat' first
    | with_reducible assumption
    | with_reducible apply writeReg_good

theorem execPageDisable_good {b t : State} (r : Req) (pg : Nat) (s : State) (h : Good b s)
    (e : execPageDisable r pg s = .next t) : Good b t := by
  unfold execPageDisable at e
  injection e with e
  subst e
  repeat' first
    | with_reducible assumption
    | with_reducible apply writeReg_good

theorem execPgEvtAck_good {b t : State} (r : Req) (pg : Nat) (w : Word) (s : State) (h : Good b s)
    (e : execPgEvtAck r pg w s = .next t) : Good b t := by
  unfold execPgEvtAck at e
  injection e with e
  subst e
  repeat' first
    | with_reducible assumption
    | with_reducible apply writeReg_good

theorem execCwAddrWrite_good {b t : State} (r : Req) (w : Word) (s : State) (h : Good b s)
    (e : execCwAddrWrite r w s = .next t) : Good b t := by
  unfold execCwAddrWrite at e
  injection e with e
  subst e
  repeat' first
    | with_reducible assumption
    | with_reducible apply writeReg_good

theorem execCwDataWrite_good {b t : State} (r : Req) (w : Word) (s : State) (h : Good b s)
    (e : execCwDataWrite r w s = .next t) : Good b t := by
  unfold execCwDataWrite at e
  injection e with e
  subst e
  repeat' first
    | with_reducible assumption
    | with_reducible apply writeReg_good

end Sys2Proof.Machine
end

