-- ==== Sys2Proof/Laws/KeepSmbus.lean ====
section
/-! SUPPORT. The operations of Machine/Smbus.lean keep the fuses, the queue and the canonical form. -/

set_option linter.unusedTactic false
set_option linter.unreachableTactic false
set_option linter.unusedSimpArgs false

namespace Sys2Proof.Machine

theorem smbAnswer_good {b : State} (bs : List Byte) (s : State) (h : Good b s) : Good b (smbAnswer bs s) := by
  unfold smbAnswer
  repeat' first
    | with_reducible assumption
    | with_reducible apply smbNack_good
    | simp only [good_mk]
    | dsimp only

theorem smbNack_good {b : State} (s : State) (h : Good b s) : Good b (smbNack s) := by
  unfold smbNack
  repeat' first
    | with_reducible assumption
    | simp only [good_mk]
    | dsimp only

theorem withPec_good {b : State} (ok : Bool) (f : State → State) (s : State) (h_f : ∀ (s : State), Good b s → Good b (f s)) (h : Good b s) : Good b (withPec ok f s) := by
  unfold withPec
  repeat' first
    | with_reducible assumption
    | with_reducible apply h_f
    | with_reducible apply raise_good
    | with_reducible apply smbAnswer_good
    | with_reducible apply smbNack_good
    | with_reducible apply good_ite
    | split

theorem setWin_good {b : State} (a : Nat) (s : State) (h : Good b s) : Good b (setWin a s) := by
  unfold setWin
  repeat' first
    | with_reducible assumption
    | simp only [good_mk]
    | dsimp only

theorem execWinAddr_good {b t : State} (bs : List Byte) (pec : Bool) (s : State) (h : Good b s)
    (e : execWinAddr bs pec s = .next t) : Good b t := by
  unfold execWinAddr at e
  injection e with e
  subst e
  repeat' first
    | with_reducible assumption
    | with_reducible apply withPec_good
    | with_reducible apply setWin_good
    | intro _
    | dsimp only

theorem winFetch_good {b : State} (s : State) (h : Good b s) : Good b (winFetch s).2 := by
  unfold winFetch
  dsimp only
  split
  · exact readReg_good _ _ _ _ h
  · exact h

theorem execWinRead_good {b t : State} (s : State) (h : Good b s)
    (e : execWinRead s = .next t) : Good b t := by
  unfold execWinRead at e
  injection e with e
  subst e
  repeat' first
    | with_reducible assumption
    | with_reducible apply smbAnswer_good
    | with_reducible apply smbNack_good
    | with_reducible apply setWin_good
    | with_reducible apply winFetch_good
    | with_reducible apply good_ite
    | dsimp only
    | split

theorem execWinWrite_good {b t : State} (bs : List Byte) (pec : Bool) (s : State) (h : Good b s)
    (e : execWinWrite bs pec s = .next t) : Good b t := by
  unfold execWinWrite at e
  injection e with e
  subst e
  repeat' first
    | with_reducible assumption
    | with_reducible apply writeReg_good
    | with_reducible apply withPec_good
    | with_reducible apply setWin_good
    | intro _
    | simp only [good_mk]
    | dsimp only
    | split

theorem execState_good {b t : State} (s : State) (h : Good b s)
    (e : execState s = .next t) : Good b t := by
  unfold execState at e
  injection e with e
  subst e
  repeat' first
    | with_reducible assumption
    | with_reducible apply smbAnswer_good
    | with_reducible apply smbNack_good
    | with_reducible apply good_ite
    | split

theorem execWinStatus_good {b t : State} (s : State) (h : Good b s)
    (e : execWinStatus s = .next t) : Good b t := by
  unfold execWinStatus at e
  injection e with e
  subst e
  repeat' first
    | with_reducible assumption
    | with_reducible apply smbAnswer_good
    | with_reducible apply smbNack_good
    | with_reducible apply good_ite
    | split

theorem execAlertResponse_good {b t : State} (s : State) (h : Good b s)
    (e : execAlertResponse s = .next t) : Good b t := by
  unfold execAlertResponse at e
  injection e with e
  subst e
  repeat' first
    | with_reducible assumption
    | with_reducible apply smbAnswer_good
    | with_reducible apply smbNack_good
    | with_reducible apply good_ite
    | split

end Sys2Proof.Machine
end

