-- ==== Sys2Proof/Laws/Regs.lean ====
section
/-! SUPPORT. The laws of register fields and events: a read after a write, what raising an event does,
and what a read depends on. -/

namespace Sys2Proof.Machine

/-- The register store is in its canonical form. -/
def RegsOk (s : State) : Prop := smWf 0 s.regs = true

theorem Canonical.regsOk {s : State} (h : Canonical s) : RegsOk s := h.2.1
theorem Canonical.memOk {s : State} (h : Canonical s) : smWf 0 s.mem = true := h.1
theorem Canonical.coresOk {s : State} (h : Canonical s) : smWf core0 s.cores = true := h.2.2.1
theorem Canonical.portsOk {s : State} (h : Canonical s) : smWf port0 s.ports = true := h.2.2.2.1
theorem Canonical.chansOk {s : State} (h : Canonical s) : smWf chan0 s.chans = true := h.2.2.2.2.1
theorem Canonical.stksOk {s : State} (h : Canonical s) : smWf stack0 s.stks = true := h.2.2.2.2.2.1
theorem Canonical.pansOk {s : State} (h : Canonical s) : smWf pan0 s.pans = true := h.2.2.2.2.2.2.1

/-- A read depends on the register store alone. -/
theorem getF_congr {s t : State} (h : t.regs = s.regs) (f : Fld) : getF t f = getF s f := by
  unfold getF; rw [h]

@[simp] theorem signal_regs' (pg b f : Nat) (s : State) : (signal pg b f s).regs = s.regs := signal_regs pg b f s

theorem xor_cancel (a b : Nat) : a ^^^ b ^^^ b = a := by
  rw [Nat.xor_assoc, Nat.xor_self, Nat.xor_zero]

/-- A read after a write of the same field: the value cut to the field. -/
theorem getF_setF (s : State) (f : Fld) (v : Nat) : getF (setF s f v) f = v % 2 ^ f.width := by
  unfold getF setF
  dsimp only
  rw [smGet_smSet 0, if_pos rfl, xor_cancel]

/-- A read of another field. -/
theorem getF_setF_other (s : State) (f g : Fld) (v : Nat) (h : fldKey f ≠ fldKey g) :
    getF (setF s f v) g = getF s g := by
  unfold getF setF
  dsimp only
  rw [smGet_smSet_other 0 _ _ _ _ h]

theorem getF_setB (s : State) (f : Fld) (v : Bool) (hw : 0 < f.width) :
    getF (setB s f v) f = if v then 1 else 0 := by
  unfold setB
  rw [getF_setF]
  have h1 : 1 < 2 ^ f.width := Nat.one_lt_two_pow (by omega)
  cases v <;> simp
  omega

theorem getF_setB_other (s : State) (f g : Fld) (v : Bool) (h : fldKey f ≠ fldKey g) :
    getF (setB s f v) g = getF s g := getF_setF_other s f g _ h

theorem getF_incSat (s : State) (f : Fld) (n : Nat) :
    getF (incSat s f n) f = satAdd (2 ^ f.width - 1) (getF s f) n := by
  unfold incSat
  rw [getF_setF]
  apply Nat.mod_eq_of_lt
  have : 0 < 2 ^ f.width := Nat.two_pow_pos _
  unfold satAdd
  omega

theorem getF_incSat_other (s : State) (f g : Fld) (n : Nat) (h : fldKey f ≠ fldKey g) :
    getF (incSat s f n) g = getF s g := getF_setF_other s f g _ h

theorem getF_setFs_other (s : State) (l : List (Fld × Nat)) (g : Fld) (h : ∀ e ∈ l, fldKey e.1 ≠ fldKey g) :
    getF (setFs s l) g = getF s g := by
  induction l generalizing s with
  | nil => rfl
  | cons e l ih =>
    show getF (setFs (setF s e.1 e.2) l) g = _
    rw [ih _ fun x hx => h x (by simp [hx]), getF_setF_other _ _ _ _ (h e (by simp))]

/-- Raising an event writes the event bits, SEQ and LAP of its page only. -/
theorem getF_raise_other (e : Ev) (s : State) (g : Fld) (h : ∀ f ∈ evFlds e, fldKey f ≠ fldKey g) :
    getF (raise e s) g = getF s g := by
  have h1 := h (R.PG_EVT.EVT e.page) (by simp [evFlds])
  have h2 := h (R.PG_EVT_SEQ.SEQ e.page) (by simp [evFlds])
  have h3 := h (R.PG_EVT_SEQ.LAP e.page) (by simp [evFlds])
  unfold raise
  dsimp only
  rw [getF_congr (signal_regs _ _ _ _)]
  split
  · show getF (setF (setF (setF s _ _) _ _) _ _) g = _
    rw [getF_setF_other _ _ _ _ h3, getF_setF_other _ _ _ _ h2, getF_setF_other _ _ _ _ h1]
  · rw [getF_setF_other _ _ _ _ h2, getF_setF_other _ _ _ _ h1]

/-- The bit of a number as `testBit` tells it. -/
theorem bitsOf_one (w b : Nat) : bitsOf w b 1 = if w.testBit b then 1 else 0 := by
  unfold bitsOf
  rw [Nat.testBit_eq_decide_div_mod_eq, Nat.shiftRight_eq_div_pow]
  have h : w / 2 ^ b % 2 = 0 ∨ w / 2 ^ b % 2 = 1 := by omega
  rcases h with h | h <;> simp [h]

/-- The event register after an event (R406): its bit is set, the others stay. -/
theorem getF_raise_evt (e : Ev) (s : State) :
    getF (raise e s) (R.PG_EVT.EVT e.page) = (getF s (R.PG_EVT.EVT e.page) ||| 2 ^ e.bit) % 2 ^ 16 := by
  have k1 : fldKey (R.PG_EVT_SEQ.SEQ e.page) ≠ fldKey (R.PG_EVT.EVT e.page) := by
    simp [fldKey, R.PG_EVT_SEQ.SEQ, R.PG_EVT.EVT]
  have k2 : fldKey (R.PG_EVT_SEQ.LAP e.page) ≠ fldKey (R.PG_EVT.EVT e.page) := by
    simp [fldKey, R.PG_EVT_SEQ.LAP, R.PG_EVT.EVT]
  unfold raise
  dsimp only
  rw [getF_congr (signal_regs _ _ _ _)]
  split
  · show getF (setF (setF (setF s _ _) _ _) _ _) _ = _
    rw [getF_setF_other _ _ _ _ k2, getF_setF_other _ _ _ _ k1, getF_setF]; rfl
  · rw [getF_setF_other _ _ _ _ k1, getF_setF]; rfl

/-- SEQ advances by one and wraps at 16 bits (R406). -/
theorem getF_raise_seq (e : Ev) (s : State) :
    getF (raise e s) (R.PG_EVT_SEQ.SEQ e.page) = (getF s (R.PG_EVT_SEQ.SEQ e.page) + 1) % 2 ^ 16 := by
  have k1 : fldKey (R.PG_EVT_SEQ.LAP e.page) ≠ fldKey (R.PG_EVT_SEQ.SEQ e.page) := by
    simp [fldKey, R.PG_EVT_SEQ.SEQ, R.PG_EVT_SEQ.LAP]
  unfold raise
  dsimp only
  rw [getF_congr (signal_regs _ _ _ _)]
  split
  · show getF (setF (setF (setF s _ _) _ _) _ _) _ = _
    rw [getF_setF_other _ _ _ _ k1, getF_setF]; rfl
  · rw [getF_setF]; rfl

/-- The event is raised. -/
theorem raised_raise (e : Ev) (s : State) (hb : e.bit < 16) : raised e (raise e s) := by
  unfold raised
  rw [getF_raise_evt e s, bitsOf_one, Nat.testBit_mod_two_pow, Nat.testBit_or, Nat.testBit_two_pow_self]
  simp [hb]

/-- A raised event stays raised while others are. -/
theorem raised_mono (e e' : Ev) (s : State) (hb : e.bit < 16) (hr : raised e s) : raised e (raise e' s) := by
  unfold raised at hr ⊢
  by_cases hp : e'.page = e.page
  · rw [bitsOf_one] at hr ⊢
    rw [← hp, getF_raise_evt e' s, Nat.testBit_mod_two_pow, Nat.testBit_or]
    have : (getF s (R.PG_EVT.EVT e'.page)).testBit e.bit = true := by rw [hp]; by_contra hc; simp [hc] at hr
    simp [hb, this]
  · rw [getF_raise_other _ _ _ ?_]
    · exact hr
    · intro f hf
      simp only [evFlds, List.mem_cons, List.not_mem_nil, or_false] at hf
      rcases hf with rfl | rfl | rfl <;> simp only [fldKey, R.PG_EVT.EVT, R.PG_EVT_SEQ.SEQ, R.PG_EVT_SEQ.LAP] <;> omega

/-- A field beside the event registers does not show whether an event is raised. -/
theorem raised_setF (e : Ev) (s : State) (f : Fld) (v : Nat) (h : fldKey f ≠ fldKey (R.PG_EVT.EVT e.page))
    (hr : raised e s) : raised e (setF s f v) := by
  unfold raised at hr ⊢
  rw [getF_setF_other _ _ _ _ h]; exact hr

end Sys2Proof.Machine
end

