-- ==== Sys2Proof/WellFormed.lean ====
section
/-! DEFINITION. Well-formed commands: every operand that the spec gives a width or a range stays
within it. The meanings are total on every operand; a command that is not well formed is one that no
sender of the package can form. -/

namespace Sys2Proof

/-- A value of `n` bits. -/
def fits (n v : Nat) : Bool := decide (v < 2 ^ n)

/-- A line of the local store: 196 608 bytes of 64 (R86). -/
def lineOk (l : Nat) : Bool := decide (l < 3072)

/-- An access that was not served: an existing line, bank and ports (R87, R88). -/
def LsAcc.wf (a : LsAcc) : Bool :=
  lineOk a.line &&
  match a.kind with
  | .conflict b p q => decide (b < 8) && decide (p < 12) && decide (q < 12)
  | _ => true

/-- An issue: existing accesses. -/
def Issue.wf (i : Issue) : Bool := i.acc.all LsAcc.wf

/-- The fields of a frame have the widths of Tables 9.2 and 9.3, and its payload is at most 256 bytes (R252). -/
def Frame.wf (f : Frame) : Bool :=
  fits 3 f.cls && fits 4 f.kind && fits 3 f.beats && fits 12 f.src && fits 12 f.dst && fits 24 f.tick &&
  fits 16 f.seq && fits 16 f.stream && fits 24 f.tile && fits 8 f.foff && decide (f.payload.length ≤ 256) &&
  fits 12 f.lseq && fits 12 f.ack && fits 32 f.crc

/-- The fields of a guest flit have the widths of Table 2.6, and its payload is LEN × 64 bytes (R71). -/
def GFlit.wf (f : GFlit) : Bool :=
  fits 4 f.type && decide (f.len ≤ 4) && fits 12 f.seq && fits 12 f.tag && fits 40 f.addr && fits 16 f.stream &&
  f.payload.length == 64 * f.len && fits 32 f.crc

/-- IDENT names packages by 12 bits and ports of 48 (R266); HEARD may be 0xFFFF. -/
def IdentMsg.wf (m : IdentMsg) : Bool := fits 12 m.pkg && decide (m.port < 48) && fits 16 m.heardPkg

/-- Bundles and channel lanes that exist (R47, R189). -/
def TrainRes.wf (t : TrainRes) : Bool :=
  t.bundles.all (fun b => decide (b < 96)) && t.dataLanes.all (fun b => decide (b.1 < 96) && decide (b.2 < 64)) &&
  t.lanes.all (fun l => decide (l.1 < 384)) && t.units.all (fun u => decide (u.1 < 530))

/-- The same of the errors of P5. -/
def CheckRes.wf (r : CheckRes) : Bool :=
  r.bundles.all (fun b => decide (b.1 < 96)) && r.lanes.all (fun l => decide (l.1 < 384))

/-- Physical cores of 80 rows and 84 columns (R63). -/
def SelfRes.wf (r : SelfRes) : Bool := r.cores.all fun c => decide (c.2.1 < 80) && decide (c.2.2 < 84)

/-- Rates of Table 14.7. -/
def LinkInfo.wf (l : LinkInfo) : Bool := fits 3 l.gen && fits 5 l.width && fits 16 l.inverted

/-- A count of the global counter: 64 bits (R10). -/
def stampOk (t : Nat) : Bool := fits 64 t

/-- A register offset of BAR0: 256 MiB, in words of 4 bytes (R384). -/
def barOff (a : Nat) : Bool := fits 28 a && a % 4 == 0

/-- The command's operands stay within their widths and ranges. -/
def Instr.wf : Instr → Bool
  | .timeReq _ t1 _ => stampOk t1
  | .timeRsp _ t1 t2 t3 _ => stampOk t1 && stampOk t2 && stampOk t3
  | .launch src d => fits 12 src && fits 64 d
  | .go l => stampOk l
  | .nogo l => stampOk l
  | .stretch t k src => fits 24 t && fits 8 k && fits 12 src
  | .abort p c t => fits 12 p && fits 8 c && fits 24 t
  | .void p t => fits 12 p && fits 24 t
  | .replayMark p t => fits 12 p && fits 24 t
  | .nop i => i.wf | .wait i => i.wf | .sadd i => i.wf | .ssub i => i.wf | .tend i => i.wf | .halt i => i.wf
  | .fmt i => i.wf | .ldw i => i.wf | .sww i => i.wf | .drn i => i.wf | .mvm i => i.wf | .vop i => i.wf
  | .vsf i => i.wf | .vred i => i.wf | .vqnt i => i.wf | .vrng i => i.wf | .vcvt i => i.wf | .vsel i => i.wf
  | .mrd i => i.wf | .mwr i => i.wf | .send i => i.wf | .hsnd i => i.wf | .coll i => i.wf | .pan i => i.wf
  | .ild i => i.wf | .csav i => i.wf | .crst i => i.wf | .tst i => i.wf
  | .mma i _ => i.wf
  | .pair i _ => i.wf
  | .mvd i _ => i.wf
  | .doorwayArrival _ _ _ acc => acc.all LsAcc.wf
  | .verdictPoint dw => dw.all fun a => a.acc.all LsAcc.wf
  | .runEnd _ _ _ _ acc _ => acc.all LsAcc.wf
  | .memoryRunPost _ _ t q _ => fits 24 t && fits 16 q
  | .frameReceive _ f _ _ => f.wf
  | .rebind _ e => fits 12 e
  | .rebindAck _ e => fits 12 e
  | .ident _ m => m.wf
  | .lockstep t f d => fits 24 t && fits 8 f && decide (d.length ≤ 256)
  | .reductionAdd _ _ seg k _ => fits 16 seg && fits 12 k
  | .guestRd f => f.wf | .guestWr f => f.wf | .strmOut f => f.wf | .guestLink f => f.wf
  | .discReq _ _ b => b.length == 32
  | .discRsp _ _ b => b.length == 32
  | .testBlockCompare _ _ _ a b => fits 64 a && fits 64 b
  | .training t => t.wf
  | .discovery g => (match g with | some b => b.length == 32 | none => true)
  | .resetDone _ _ g => (match g with | some b => b.length == 32 | none => true)
  | .errorRateCheck r => r.wf
  | .selfTest r => r.wf
  | .registerWrite _ a _ => barOff a
  | .pageEnable _ pg => fits 8 pg
  | .pageDisable _ pg => fits 8 pg
  | .pgEvtAck _ pg _ => fits 8 pg
  | .pgEvtSeqRead _ pg => fits 8 pg
  | .postedWriteDone pg => fits 8 pg
  | .bar2Access _ off len wr _ =>
      fits 36 off && (match wr with | some bs => bs.length == len | none => true)
  | .winAddr bs _ => bs.length == 4
  | .winWrite bs _ => bs.length == 4
  | .linkChange l => l.wf
  | .convFault st => fits 8 st
  | .syncPeriod => true | .syncPeriodMissed => true | .launchEnable _ => true | .goDeadline => true
  | .launchGoTimeout => true | .decisionPoint => true | .replayQuiesced => true
  | .replayStart => true | .tickBoundary => true | .ibLateSwap _ => true | .waitGrant _ _ _ => true
  | .feederResume _ _ _ _ => true | .instructionComplete _ _ _ => true | .deadlock _ _ => true
  | .coreGate _ => true | .coreUngate _ => true
  | .runRequest _ _ => true | .runStart _ _ _ _ => true | .refreshWindow _ _ _ => true
  | .makeupWindow _ _ _ => true | .stkMarginStart _ => true | .marginStep _ _ _ => true
  | .channelZeroingDone _ => true
  | .gradWr _ _ _ => true | .gradAdd _ _ _ => true | .scatterAdd _ _ _ => true | .sweep _ _ _ => true
  | .panExport _ => true | .panImport _ => true | .exportDone _ => true | .gnsClr _ => true
  | .egressSlot _ _ => true | .nakTimeout _ => true | .replayTimeout _ => true | .retrainDone _ => true
  | .lossOfLight _ => true | .retrainTimeout _ => true | .rebindRepeat _ => true | .rebindTimeout _ => true
  | .identTimer _ => true | .laserSafe _ => true | .portLaserWrite _ _ => true | .lightReturns _ => true
  | .guestAckTimer => true | .guestRequestServe _ => true | .guestPwr => true | .moduleLost _ => true
  | .gstReset => true | .guestReplayTimeout => true | .guestRetrain _ _ _ _ => true
  | .discRetry _ _ => true | .bundleFlit _ _ _ _ => true
  | .drainReqPin => true | .fltDrainCmdDrain => true | .fltDrainCmdRelease => true | .drained => true
  | .inputSwitchClose => true | .pwrEnLow => true | .inputUndervoltage _ => true | .inputOvervoltage => true
  | .inputOvercurrent => true | .inputReverseCurrent => true | .limiterEval _ => true | .ballastStep _ => true
  | .boostClockUpdate _ => true | .sensorScan _ => true | .thermalCapStep => true | .tjTrip _ _ => true
  | .dramCrit _ => true | .flowEstimate _ _ => true | .coolantLoss => true | .inletCrit => true
  | .coolantCheck _ => true | .sensorPoll _ => true | .sensorRepoll _ _ => true | .snsBusRetry _ => true
  | .bringupP0 => true | .fwAuth _ _ => true | .atticRestore _ => true
  | .bringupZeroing => true | .ready => true | .topResetCmd _ _ => true | .perstN => true
  | .atticWriteCommit => true | .atticPackageTimer => true | .atticSync => true | .clearSettings => true
  | .coldNext => true
  | .planLoad _ => true | .planLoadDone _ _ => true | .unload _ => true | .restart _ => true
  | .partOwnerCmd => true | .zeroed => true | .partRunStart => true | .partRunStop => true
  | .tickCountLoRead _ => true | .tickLaunchLoRead _ => true | .tickJobLoRead _ => true
  | .panLowWordRead _ _ _ => true | .panGnsSmall0Read _ _ => true | .fltLogDataRead _ => true
  | .atticHistDataRead _ => true | .cwAddrWrite _ _ => true | .cwDataWrite _ _ => true | .cwDataRead _ => true
  | .coreWinAccessDone _ _ => true
  | .dmaStart _ => true | .dmaDone _ => true | .winRead => true | .state => true | .winStatus => true
  | .hotReset => true | .functionLevelReset _ => true | .alertResponse => true

end Sys2Proof
end

