-- ==== Sys2Proof/Tests/Slice0.lean ====
section
/-! SUPPORT. Tests: the checks of well-formedness, a state that meets the hypotheses of every statement, and small
effects whose expected values come from the spec. -/

namespace Sys2Proof.Machine

set_option Elab.async false

/-! ### Small states -/

/-- The state after reset with some register fields changed. -/
def st (fs : List (Fld × Nat)) : State := setFs State.reset fs

/-- A package that runs, no launch pending. -/
def stRunning (fs : List (Fld × Nat)) : State := st ((R.TICK_NUM.RUN, 1) :: fs)

/-- The registers are served and the Attic has been restored. -/
def stServed (fs : List (Fld × Nat)) : State :=
  { st ((R.ATTIC_RESTORE_STA.DONE, 1) :: fs) with hearth := { hearth0 with pwrEn := true, closed := true } }

/-- Core LCID 0 and an instruction that one of its engines issues in cycle 0. -/
def c000 : CoreId := { die := 0, row := 0, col := 0 }
def iss (e : Engine) : Issue := { core := c000, eng := e, cyc := 0, parity := false, acc := [] }

/-- A core whose list begins with the words `ws`, all six engines at its first word. -/
def coreWith (ws : List Nat) : Core :=
  { core0 with ib := smSetList 0 [] 0 ws,
               engs := (List.range 6).map fun e => (e, { mode := .running, idx := 0, free := 0 }) }

/-- A running package with core 0. -/
def stCore (c : Core) : State := { stRunning [] with cores := [(0, c)] }
def stWords (ws : List Nat) : State := stCore (coreWith ws)

/-- A running package whose core 0, bound to the primary, has engines that still run. -/
def stBusy (fs : List (Fld × Nat)) : State := { stRunning fs with cores := [(0, { coreWith [] with bound := 1 })] }
theorem stBusy_others (fs : List (Fld × Nat)) : ∀ n, n ≠ 0 → partAtRest (stBusy fs) n = true := by
  intro n h; cases n with | zero => exact absurd rfl h | succ n => rfl

/-- The word of an opcode with no other field set. -/
def word (op : Nat) : Nat := op * 2 ^ 58

/-- Two packages, this one package 0, joined by port 0, which is up, usable and lit. -/
def pairFs : List (Fld × Nat) :=
  [(R.HALL_PORTMAP.D0, 2), (R.HALL_PORTMAP.D1, 1), (R.HALL_PORTMAP.D2, 1), (R.PORT_BIND.ROLE 0, 1), (R.PORT_BIND.DIM 0, 0),
   (R.PORT_BIND.PEERC 0, 1), (R.PORT_STA.USABLE 0, 1), (R.PORT_STA.UP 0, 1), (R.PORT_LASER.EN 0, 1), (R.TICK_ROOT.ROOT, 1)]

/-- A plan with nothing in it. -/
def plan0 : Plan :=
  { id := 7, variance := false, boost := false, filler := false, part := 0, role := 0, pos := 0, npkg := 1, period := 1,
    tickLen := tickLen State.reset, guard := getF State.reset R.TICK_GUARD.GUARD, primaryId := 0, guestTbl := 0, stations := [],
    streams := [], segs := [], fabric := [], landing := [], colls := [], pantry := none, memory := [], bubbles := [],
    energy := [] }

/-- A package in READY whose primary plan may be launched at `2²⁰` ns. -/
def stReadyPlan : State :=
  { stServed [(R.TOP_STATE.STATE, stReady), (R.TICK_LAUNCH_LO.LAUNCH, 2 ^ 20), (R.HTH_COOLANT_STA.CHECKED, 1)] with
    plans := [(0, some plan0)] }
/-- The same with that launch pending. -/
def stPend : State := { stReadyPlan with tick := { stReadyPlan.tick with pend := some (2 ^ 20, 5) } }

/-- A plan of two packages: stream 0 of package 0 goes to package 1, stream 1 of package 1 comes to package 0; DATA and
COLL frames toward package 1 leave on port 0. -/
def planPair : Plan :=
  { plan0 with
    npkg := 2,
    streams := [{ num := 0, transport := 2, rel := false, producer := 0, consumer := 0, dest := 1, tiles := 1, fmt := 0, base := 0,
                  stride := 1, ring := 1, sem := 0, cnt := 1, seq0 := 0 },
                { num := 1, transport := 2, rel := false, producer := 0, consumer := 0, dest := 0, tiles := 1, fmt := 0, base := 0,
                  stride := 1, ring := 1, sem := 0, cnt := 1, seq0 := 0 }],
    fabric := [{ ptick := 0, slot0 := 0, nslot := 8, port := 0, cls := clsData, stream := 0, dest := 1 },
               { ptick := 0, slot0 := 8, nslot := 7, port := 0, cls := clsColl, stream := 0, dest := 1 }],
    colls := [{ ctx := 0, kind := 0, format := 0, allot := 0, segmax := 1, npart := 2 }] }

/-- The package runs that plan. -/
def stHall : State := { stRunning pairFs with plans := [(0, some planPair)] }

/-- The stamp of a frame does not choose its route. -/
theorem route_seq (s : State) (part : Nat) (fs : List Frame) (p : Nat) (h : ∀ f ∈ fs, routePort s part f = some p) :
    ∀ (f : Frame) (q : Nat), f ∈ fs → routePort s part { f with seq := q } = some p := fun f _ m => h f m

/-- A run of one beat at address 0. -/
def run0 : Run :=
  { kind := .read, pa := 0, beats := 1, tick := 0, seq := 0, core := 0, line := 0, cnt := 0, sem := 0, bank := 0, hinge := none,
    data := [], part := 0, retries := 0, arr := 0 }
/-- An access that a channel serves clean from a byte time. -/
def sv0 (bt : Nat) : Served := { bt := bt, errs := 0, ecc := .clean }
/-- A running package with a channel, or a port of the pair. -/
def stChan (q : Chan) : State := { stRunning [] with chans := [(0, q)] }
def stPort (q : Port) : State := { st pairFs with ports := [(0, q)] }
/-- Port 1 is the usable duplicate of port 0. -/
def dupFs : List (Fld × Nat) :=
  [(R.PORT_BIND.ROLE 1, 2), (R.PORT_BIND.DUPOF 1, 0), (R.PORT_STA.USABLE 1, 1), (R.PORT_STA.UP 1, 1)]
/-- A frame or a guest flit with its CRC. -/
def sealed (f : Frame) : Frame := { f with crc := frameCrc f }
theorem sealed_crc (f : Frame) : (sealed f).crc = frameCrc (sealed f) := rfl
/-- A frame with a wrong CRC. -/
def spoiled (f : Frame) : Frame := { f with crc := frameCrc f + 1 }
theorem spoiled_crc (f : Frame) : (spoiled f).crc ≠ frameCrc (spoiled f) := Nat.succ_ne_self (frameCrc f)
def gSealed (f : GFlit) : GFlit := { f with crc := gCrc f }

/-- An extent of one unit at address 0 of stack 0, which one contribution fills, and a plan that lists it. -/
def ext0 : TensorE :=
  { tensor := 0, stack := 0, alg := 0, mb := 1, flags := 0, pa := 0, nunits := 1, first := 0, wcPa := 0, r0 := 0, c0 := 0,
    nr := 32, nc := 32, tr := 1, tc := 1 }
def panSec0 (e : TensorE) : PanSec := { stepPtick := 0, normPtick := 0, normCtx := 0, mbatch := 1, mseq := [], tensors := [e] }
/-- Gradient commands, a scatter-add of one row of zeros to an index, and a sweep. -/
def gradC0 (cmd : Nat) : Run := { run0 with kind := .pan cmd 0, beats := 64, data := List.replicate 4096 0#8 }
def scatC0 (n : Nat) : Run :=
  { run0 with kind := .pan 2 0, beats := 3, data := leBytes 4 n ++ List.replicate 60 0xFF#8 ++ List.replicate 128 0#8 }
def sweepC0 : Run := { run0 with kind := .pan 3 0, data := List.replicate 56 0#8 ++ leBytes 4 1 ++ List.replicate 4 0#8 }
/-- The accesses that such commands are at their channel: of a unit, of a row of 32 elements, of a sweep. -/
def gradRun (cmd : Nat) : Run := { gradC0 cmd with kind := .unit cmd 0 }
def scatRun (beats line : Nat) : Run := { run0 with kind := .unit 2 0, beats := beats, line := line, data := List.replicate 128 0#8 }
def sweepRun : Run := { sweepC0 with kind := .unit 3 0 }
/-- A running package with that plan, the command at the head of channel 0, a state channel. -/
def stPan (e : TensorE) (r : Run) (flags : SMap Nat) : State :=
  { stRunning [(R.STK_CHAN_CLASS.CELLAR 0, 0)] with
    plans := [(0, some { plan0 with pantry := some (panSec0 e) })],
    chans := [(0, { chan0 with queue := [r] })],
    pans := if flags.isEmpty then [] else [(0, { pan0 with flags := flags })] }
/-- An export or import of that unit in progress: its host work, and a run of it in service on channel 0. -/
def xferJob (phase fault : Nat) (todo : List HostAcc) : HostJob := { job0 with todo := todo, phase := phase, fault := fault }
def stXfer (dir torn : Bool) (q : HostJob) (kind : RunKind) : State :=
  { st [] with plans := [(0, some { plan0 with pantry := some (panSec0 ext0) })],
               pans := [(0, { pan0 with xfer := some (dir, 0, 1, 2 ^ 31, torn) })],
               chans := [(0, { chan0 with cur := some { run0 with kind := kind } })],
               hif := { hif0 with jobs := [(expJob 0, some q)] } }

/-- The guest's link is up and its page enabled; window 0 lets it read and write 4 KiB at address 0. -/
def stGuest (fs : List (Fld × Nat)) : State :=
  { st ([(R.GST_STA.LINK_UP, 1), (R.GST_STA.FENCED, 0), (R.PG_CTL.EN 0x40, 1), (R.GST_WIN_PERM.EN 0, 1), (R.GST_WIN_PERM.RD 0, 1),
         (R.GST_WIN_PERM.WR 0, 1), (R.GST_WIN_BASE.BASE 0, 0), (R.GST_WIN_LIMIT.LIMIT 0, 0)] ++ fs) with
    fuse := { Fuse.std with guestOption := true }, guest := { guest0 with credits := 4 } }
/-- A stream that the guest feeds. -/
def guestE : StreamE :=
  { num := 9, transport := 4, rel := false, producer := 0, consumer := 0, dest := 0, tiles := 1, fmt := 0, base := 0, stride := 1,
    ring := 1, sem := 0, cnt := 1, seq0 := 0 }
def gReqW : GReq := { data := some (List.replicate 64 1#8), addr := 0, len := 1, tag := 5, tick := 0, order := 0 }
def gReqR : GReq := { data := none, addr := 0, len := 1, tag := 5, tick := 0, order := 0 }
/-- Between D and V, with a request waiting. -/
def stServe (q : GReq) : State :=
  { stGuest [(R.TICK_NUM.RUN, 1)] with tick := { State.reset.tick with atD := true }, guest := { guest0 with reqs := [q] } }

/-- One contribution of package 0 to segment 0, landed. -/
def piece0 : Piece :=
  { core := 0, part := 0, ctx := 0, kind := 0, seg := 0, step := 0, rline := 0, cnt := 0, sem := 0, bank := 0, len := 1, arr := false,
    tick := 0 }
def collE0 : CollE := { ctx := 0, kind := 0, format := 0, allot := 0, segmax := 1, npart := 2 }
def stSum : State :=
  { stHall with reduce := { reduce0 with pieces := [piece0] },
                hall := { State.reset.hall with land := [{ frame0 with cls := clsColl, beats := 1, payload := List.replicate 64 0#8, came := 0 }] } }

/-- That contribution, ready to be added. -/
def ready0 : Ready := { ctx := 0, seg := 0, k := 0, bytes := List.replicate 64 0#8, came := 0, at_ := 0, arr := false }

/-- A discovery frame: the hub's request to die 0. P2 runs, and a die or stack has been probed with it. -/
def probe0 : List Byte := discFrame 1 0 0 0 unitId0
def stProbe (k : Nat) (q : Disc) : State :=
  { st [] with hearth := { hearth0 with pwrEn := true, closed := true }, bu := { bringup0 with next := 2, disc := [(k, q)] } }
/-- A bundle awaits the resend of flit 1023; its replay buffer holds these flits. -/
def stBundle (flits : List Nat) : State :=
  { State.reset with bu := { bringup0 with resend := [(bundleKey 3 23, [1023])], flits := [(bundleKey 3 23, flits)] } }

/-! Hearth, bring-up, host -/

def meter0 : Meter :=
  { avg10us := 0, avg1ms := 0, avg100ms := 0, volt := 0, amp := 0, above10ms := false, energy := 0, need := 0 }
def train0 : TrainRes :=
  { bundles := [], dataLanes := [], raw := #v[[], [], [], []], resend := 0, lanes := [], units := [], ports := [], mods := (false, false) }
def check0 : CheckRes := { bundles := [], lanes := [], ports := [], mods := (0, 0) }
def self0 : SelfRes := { cores := [], bypass := [], units := [] }
def link0 : LinkInfo := { up := false, gen := 6, width := 0, flit := true, reversed := false, ide := false, inverted := 0 }
def log0 : LogEntry :=
  { seq := 0, code := 0x13, flags := 0, unit := 0, unitId := 0, tick := 0, cycle := 0, extra := 0, time := 0, detail := 0 }
/-- The input switch is closed and a phase of the bring-up runs next. -/
def stPhase (k : Nat) (fs : List (Fld × Nat)) : State :=
  { st fs with hearth := { hearth0 with pwrEn := true, closed := true }, bu := { bringup0 with next := k } }

/-- A plan image with the five sections that every plan has, for a system of this package alone: no station, no
segment, no region. Its bytes that are not 0, with their addresses: the header (magic, version, 128 bytes, plan 7, 324
bytes, five sections, TIMID, a tick of 10 000 ns with a guard of 2 000 ns, period 1, one package, the CRC) and the directory. -/
def image : List (Nat × Byte) :=
    [(1048576, 77), (1048577, 81), (1048578, 80), (1048579, 76), (1048580, 1), (1048582, 128), (1048584, 7), (1048592,
    68), (1048593, 1), (1048606, 5), (1048616, 10), (1048617, 1), (1048618, 100), (1048620, 16), (1048621, 39), (1048622,
    208), (1048623, 7), (1048624, 1), (1048628, 1), (1048696, 119), (1048697, 3), (1048698, 161), (1048699, 53), (1048704,
    1), (1048707, 1), (1048709, 1), (1048716, 4), (1048720, 2), (1048724, 64), (1048725, 1), (1048736, 4), (1048740, 64),
    (1048741, 1), (1048752, 8), (1048756, 64), (1048757, 1), (1048768, 10), (1048772, 64), (1048773, 1), (1048780, 4)]

/-- That image lies at 2²⁰ and PF0's loader is busy with it. -/
def stImage : State :=
  { st [(R.PLAN_STA.BUSY 0, 1), (R.PLAN_LOAD_ADDR.ADDR 0, 2 ^ 12)] with mem := image }
/-- DMA channel 15 moves data, with a run in service on channel 0; an access of it that writes to the package. -/
def stDma (r : Run) (q : HostJob) : State :=
  { st [] with chans := [(0, { chan0 with cur := some r })], hif := { hif0 with jobs := [(15, some q)] } }
def dmaIn : HostAcc := { pa := 11 * 2 ^ 36, len := 64, wr := true, data := [] }
/-- PF0's first cellar region. -/
def firstRegion : Nat := (bar2Regions (stServed []) 0).headD 0

/-! ### A state that meets the hypotheses of every clause of every statement -/

theorem witness_StepRunsTheFrontCommand :
    ∃ (c : Instr) (rest : List Instr) (s : State), s.pending = c :: rest :=
  ⟨.drained, [.ready], { State.reset with pending := [.drained, .ready] }, by decide⟩

/-- A package that is not the root, with a correction of `d` still to slew, 10 000 ns after the last. -/
def stSlew (d : Int) : State := { st pairFs with sync := { xchg := none, slew := d, ref := 10000, locked := true } }

theorem witness_EmptyQueueCountsOneNanosecond :
    (∃ (s : State), s.pending = [] ∧ slewDue s = false) ∧
    (∃ (s : State), s.pending = [] ∧ slewDue s = true ∧ 0 < s.sync.slew) ∧
    (∃ (s : State), s.pending = [] ∧ slewDue s = true ∧ s.sync.slew < 0) :=
  ⟨⟨State.reset, by decide⟩,
   ⟨stSlew 3, by decide⟩,
   ⟨stSlew (-3), by decide⟩⟩

theorem witness_EveryStepKeepsTheCanonicalForm :
    ∃ (s t : State), Canonical s ∧ step s = .next t :=
  ⟨State.reset, { State.reset with counter := 1, sync := { State.reset.sync with ref := 1 } },
    by (unfold Canonical; decide), rfl⟩

theorem witness_NoStepTouchesFusesOrTheWaitingQueue :
    ∃ (s t : State), Canonical s ∧ step s = .next t :=
  ⟨{ State.reset with pending := [.drained, .ready] }, { State.reset with pending := [.ready] },
    by (unfold Canonical; decide), rfl⟩

theorem witness_RaisingAnEventSetsItsBitAndCounts :
    (∃ (e : Ev) (s : State), Canonical s ∧ e.bit < 16) ∧
    (∃ (e : Ev) (s : State) (b : _), Canonical s ∧ e.bit < 16 ∧ b < 16 ∧ b ≠ e.bit) ∧
    (∃ (e : Ev) (s : State), Canonical s ∧ e.bit < 16 ∧ getF s (R.PG_EVT_SEQ.SEQ e.page) ≠ 2 ^ 16 - 1) ∧
    (∃ (e : Ev) (s : State), Canonical s ∧ e.bit < 16 ∧ getF s (R.PG_EVT_SEQ.SEQ e.page) = 2 ^ 16 - 1) ∧
    (∃ (e : Ev) (s : State), Canonical s ∧ e.bit < 16 ∧ e.page < 0x1000 ∧ e.page ≠ 0x52) :=
  ⟨⟨E.TICK.OVERRUN, st [(R.PG_EVT_SEQ.SEQ 0x03, 65535)], by (unfold Canonical; decide)⟩,
   ⟨E.TICK.OVERRUN, State.reset, 15, by (unfold Canonical; decide)⟩,
   ⟨E.TICK.OVERRUN, st [(R.PG_EVT_SEQ.SEQ 0x03, 65534)], by (unfold Canonical; decide)⟩,
   ⟨E.TICK.OVERRUN, st [(R.PG_EVT_SEQ.SEQ 0x03, 65535)], by (unfold Canonical; decide)⟩,
   ⟨E.TICK.OVERRUN, State.reset, by (unfold Canonical; decide)⟩⟩

theorem witness_SyncExchangeMeasuresTheOffset :
    (∃ (s : State) (p : Nat), isRoot s = false ∧ syncRoute s = some p) ∧
    (∃ (s : State) (t1 : Nat), Canonical s ∧ isRoot s = false ∧ s.sync.xchg = some t1 ∧ s.sync.locked = false ∧
      running s = false) ∧
    (∃ (s : State) (t1 : Nat), Canonical s ∧ isRoot s = false ∧ s.sync.xchg = some t1 ∧ (s.sync.locked = true ∨
      running s = true)) ∧
    (∃ (s : State), Canonical s ∧ isRoot s = false ∧ getF s R.TICK_SYNC_STA.MISSED < 3) :=
  ⟨⟨st pairFs, 0, by decide⟩,
   ⟨{ st pairFs with sync := { xchg := some 5, slew := 0, ref := 0, locked := false } }, 5,
     by (unfold Canonical; decide)⟩,
   ⟨{ st pairFs with sync := { xchg := some 5, slew := 0, ref := 0, locked := true } }, 5,
     by (unfold Canonical; decide)⟩,
   ⟨st ((R.TICK_SYNC_STA.MISSED, 2) :: pairFs), by (unfold Canonical; decide)⟩⟩

theorem witness_TickEnableChecksAndBeginsTheLaunch :
    (∃ (s : State), Canonical s ∧ pageOpen s 0x03 = true ∧ getF s (R.PG_CTL.EN 0x03) = 0 ∧ (topState s ≠ stReady ∨
      tickLaunch s < s.counter + 1000000 ∨ lockNow s = false)) ∧
    (∃ (s : State), Canonical s ∧ pageOpen s 0x03 = true ∧ getF s (R.PG_CTL.EN 0x03) = 0 ∧ launchOk s = true) :=
  ⟨⟨{ stReadyPlan with counter := 2 ^ 20 - 999999 }, by (unfold Canonical; decide)⟩,
   ⟨{ stReadyPlan with counter := 2 ^ 20 - 1000000 }, by (unfold Canonical; decide)⟩⟩

theorem witness_GoOrNogoDecidesAPendingLaunch :
    (∃ (s : State), isRoot s = true) ∧
    (∃ (s : State) (l own : Nat), Canonical s ∧ s.tick.pend = some (l, own) ∧ isRoot s = true ∧ s.tick.armed = false ∧
      running s = false ∧ allAgree s own = true) ∧
    (∃ (s : State) (l own : Nat), Canonical s ∧ s.tick.pend = some (l, own) ∧ isRoot s = true ∧ s.tick.armed = false ∧
      running s = false ∧ allAgree s own = false) ∧
    (∃ (s : State), s.tick.pend.isSome = true ∧ running s = false) ∧
    (∃ (s : State), Canonical s ∧ s.tick.pend.isSome = true ∧ running s = false) ∧
    (∃ (s : State), Canonical s ∧ s.tick.pend.isSome = true ∧ running s = false ∧ s.tick.armed = false) :=
  ⟨⟨State.reset, by decide⟩,
   ⟨{ stPend with tick := { stPend.tick with digests := [(0, 5)] } }, 2 ^ 20, 5, by (unfold Canonical; decide)⟩,
   ⟨{ stPend with tick := { stPend.tick with digests := [(0, 6)] } }, 2 ^ 20, 5, by (unfold Canonical; decide)⟩,
   ⟨stPend, by decide⟩,
   ⟨stPend, by (unfold Canonical; decide)⟩,
   ⟨stPend, by (unfold Canonical; decide)⟩⟩

theorem witness_BoundaryOpensTheNextTick :
    (∃ (s : State), running s = true ∧ s.tick.atV = true ∧ s.tick.draining = false ∧ s.tick.replay = .none ∧ closeSems
      s = s ∧ s.tick.haltNext = false ∧ s.tick.planned ≠ some (s.tick.job + 1)) ∧
    (∃ (s : State), running s = true ∧ s.tick.atV = true ∧ s.tick.draining = false ∧ s.tick.replay = .none ∧ closeSems
      s = s ∧ (s.tick.haltNext = true ∨ s.tick.planned = some (s.tick.job + 1))) ∧
    (∃ (s : State), Canonical s ∧ running s = false ∧ s.tick.pend.isSome = true ∧ s.tick.armed = true ∧ topState s =
      stReady) ∧
    (∃ (s : State) (c : CoreId), Canonical s ∧ issueOpen s = true ∧ lateCore s (getCore s c.lcid) = true ∧ (getCore s
      c.lcid).ready = true) :=
  ⟨⟨{ stRunning [] with tick := { State.reset.tick with atV := true, planned := some 2 } }, by decide, by decide,
    by decide, by decide, rfl, by decide, by decide⟩,
   ⟨{ stRunning [] with tick := { State.reset.tick with atV := true, planned := some 1 } }, by decide, by decide,
     by decide, by decide, rfl, by decide⟩,
   ⟨{ stPend with tick := { stPend.tick with armed := true } }, by (unfold Canonical; decide)⟩,
   ⟨{ stCore { core0 with ready := true, bound := 1, engs := [(4, { mode := .holding, idx := 0, free := 0 })] } with plans := [(0, some plan0)] },
     c000, by (unfold Canonical; decide)⟩⟩

theorem witness_StretchPostponesTheBoundary :
    (∃ (s : State), running s = true ∧ s.tick.draining = false ∧ s.tick.atD = false ∧ closeSems (AtD s) = AtD s ∧ (∀
      n, partAtRest s n = true) ∧ tickBlocked s = false ∧ getF s R.TICK_STRETCH_CNT.VOIDED = 0 ∧ getF s
      R.FLT_LOCKSTEP_CTL.EN = 0) ∧
    (∃ (s : State) (dw : List CommitAcc), running s = true ∧ s.tick.draining = false ∧ s.tick.atD = true ∧ s.tick.atV
      = false ∧ (∀ n, landingDue s n ≤ landedFrames s n ∧ guestDue s n ≤ guestLanded s n) ∧ sumsComplete s 0 = true ∧
      tickBlocked s = false ∧ replayLate s = false ∧ tickBlocked (commitTick dw s) = false ∧ (commitTick dw
      s).tick.draining = false ∧ getF (commitTick dw s) R.FLT_LOCKSTEP_CTL.EN = 0) ∧
    (∃ (s : State), Canonical s ∧ running s = true ∧ s.tick.draining = false ∧ s.guest.wrote = [] ∧ getF s
      R.TICK_STRETCH_CNT.VOIDED = 0 ∧ getF s R.TICK_STRETCH_CNT.CUR < 15) ∧
    (∃ (s : State), Canonical s ∧ running s = true ∧ s.tick.draining = false ∧ s.tick.atD = false ∧ s.guest.wrote = []
      ∧ closeSems (AtD s) = AtD s ∧ (∀ n, n ≠ 0 → partAtRest s n = true) ∧ partAtRest s 0 = false ∧ getF s
      R.TICK_STRETCH_CNT.VOIDED = 0 ∧ getF s R.TICK_STRETCH_CNT.CUR < getF s R.TICK_STRETCH_MAX.MAX ∧ getF s
      R.TICK_STRETCH_CNT.CUR < 15) ∧
    (∃ (s : State) (k : Nat), running s = true ∧ s.tick.draining = false ∧ k ≠ getF s R.TICK_STRETCH_CNT.CUR + 1) :=
  ⟨⟨stRunning [], by decide, by decide, by decide, rfl, fun _ => rfl, by decide, by decide, by decide⟩,
   ⟨{ stRunning [] with tick := { State.reset.tick with atD := true } }, [], by decide, by decide, by decide,
     by decide, fun _ => ⟨Nat.zero_le _, Nat.zero_le _⟩, by decide, by decide, by decide +kernel, by decide +kernel,
     by decide +kernel, by decide +kernel⟩,
   ⟨stRunning [(R.TICK_STRETCH_CNT.CUR, 14)], by (unfold Canonical; decide)⟩,
   ⟨stBusy [(R.TICK_STRETCH_CNT.CUR, 7)], by (unfold Canonical; decide), by decide, by decide, by decide, by decide,
     rfl, stBusy_others _, by decide, by decide, by decide, by decide⟩,
   ⟨stRunning [(R.TICK_STRETCH_CNT.CUR, 6)], 6, by decide⟩⟩

theorem witness_OverrunIsDeclaredAndRecordedOnce :
    (∃ (s : State) (pkg cause : Nat), Canonical s ∧ running s = true ∧ getF s R.TICK_OVR_SRC.VALID = 0 ∧ pkg < 4096 ∧
      cause < 16 ∧ s.tick.draining = false) ∧
    (∃ (s : State), running s = true ∧ getF s R.TICK_OVR_SRC.VALID = 1) ∧
    (∃ (s : State), running s = false) ∧
    (∃ (s : State), Canonical s ∧ running s = true ∧ s.tick.draining = false ∧ s.tick.atD = false ∧ s.guest.undone =
      false ∧ closeSems (AtD s) = AtD s ∧ partAtRest s 0 = false ∧ getF s R.TICK_STRETCH_CNT.VOIDED = 0 ∧ getF s
      R.TICK_STRETCH_MAX.MAX ≤ getF s R.TICK_STRETCH_CNT.CUR ∧ myId s < 4096 ∧ getF s R.TICK_OVR_SRC.VALID = 0) ∧
    (∃ (s : State), Canonical s ∧ running s = true ∧ s.tick.draining = false ∧ s.tick.atD = false ∧ s.guest.undone =
      false ∧ closeSems (AtD s) = AtD s ∧ partAtRest s 0 = false ∧ getF s R.TICK_STRETCH_CNT.VOIDED = 0 ∧ getF s
      R.TICK_STRETCH_MAX.MAX ≤ getF s R.TICK_STRETCH_CNT.CUR ∧ myId s < 4096 ∧ getF s R.TICK_OVR_SRC.VALID = 1) ∧
    (∃ (s : State), running s = true ∧ s.tick.draining = true) ∧
    (∃ (s : State) (tick d : Nat), Canonical s ∧ running s = true ∧ s.tick.draining = false ∧ tick < 2 ^ 24 ∧ tickCmp
      tick (nextNum s) = .older d ∧ myId s < 4096 ∧ getF s R.TICK_OVR_SRC.VALID = 0) ∧
    (∃ (s : State) (tick d : Nat), Canonical s ∧ running s = true ∧ s.tick.draining = false ∧ tick < 2 ^ 24 ∧ tickCmp
      tick (nextNum s) = .older d ∧ myId s < 4096 ∧ getF s R.TICK_OVR_SRC.VALID = 1) ∧
    (∃ (s : State) (tick : Nat), Canonical s ∧ running s = true ∧ s.tick.draining = false ∧ tick ≠ tickNum s ∧ myId s
      < 4096 ∧ getF s R.TICK_OVR_SRC.VALID = 0) ∧
    (∃ (s : State) (tick : Nat), Canonical s ∧ running s = true ∧ s.tick.draining = false ∧ tick ≠ tickNum s ∧ myId s
      < 4096 ∧ getF s R.TICK_OVR_SRC.VALID = 1) :=
  ⟨⟨stRunning [], 4095, 15, by (unfold Canonical; decide)⟩,
   ⟨stRunning [(R.TICK_OVR_SRC.VALID, 1)], by decide⟩,
   ⟨State.reset, by decide⟩,
   ⟨stBusy [(R.TICK_STRETCH_CNT.CUR, 8)], by (unfold Canonical; decide), by decide, by decide, by decide, by decide,
     rfl, by decide, by decide, by decide, by decide, by decide⟩,
   ⟨stBusy [(R.TICK_STRETCH_CNT.CUR, 8), (R.TICK_OVR_SRC.VALID, 1)], by (unfold Canonical; decide), by decide,
     by decide, by decide, by decide, rfl, by decide, by decide, by decide, by decide, by decide⟩,
   ⟨{ stRunning [] with tick := { State.reset.tick with draining := true } }, by decide⟩,
   ⟨stRunning [], 0, 1, by (unfold Canonical; decide)⟩,
   ⟨stRunning [(R.TICK_OVR_SRC.VALID, 1)], 0, 1, by (unfold Canonical; decide)⟩,
   ⟨stRunning [], 1, by (unfold Canonical; decide)⟩,
   ⟨stRunning [(R.TICK_OVR_SRC.VALID, 1)], 1, by (unfold Canonical; decide)⟩⟩

theorem witness_VoidWithdrawsATick :
    (∃ (s : State) (pkg : Nat), Canonical s ∧ running s = true ∧ s.tick.draining = false ∧ pkg ≠ myId s ∧ getF s
      R.TICK_STRETCH_CNT.VOIDED = 0) ∧
    (∃ (s : State) (pkg : Nat), running s = true ∧ s.tick.draining = false ∧ pkg ≠ myId s ∧ getF s
      R.TICK_STRETCH_CNT.VOIDED = 1) ∧
    (∃ (s : State), Canonical s ∧ running s = true ∧ s.tick.draining = false ∧ s.tick.replay = .none ∧ getF s
      R.TICK_STRETCH_CNT.VOIDED = 0) ∧
    (∃ (s : State), running s = true ∧ s.tick.draining = false ∧ s.tick.replay = .quiescing) ∧
    (∃ (s : State), Canonical s ∧ running s = true ∧ s.tick.draining = false ∧ s.tick.replay = .ready) :=
  ⟨⟨stRunning [], 1, by (unfold Canonical; decide)⟩,
   ⟨stRunning [(R.TICK_STRETCH_CNT.VOIDED, 1)], 1, by decide⟩,
   ⟨stRunning [], by (unfold Canonical; decide)⟩,
   ⟨{ stRunning [] with tick := { State.reset.tick with replay := .quiescing } }, by decide⟩,
   ⟨{ stRunning [] with tick := { State.reset.tick with replay := .ready } }, by (unfold Canonical; decide)⟩⟩

theorem witness_ControlInstructionsMoveTheirEngineOnly :
    (∃ (i : Issue) (w x : Nat) (s : State), Fetches i opNop w x s) ∧
    (∃ (i : Issue) (w x : Nat) (s : State), Fetches i opTst w x s) ∧
    (∃ (i : Issue) (w x : Nat) (s : State), Fetches i opTend w x s ∧ NoneDead i.core.die.val s) ∧
    (∃ (i : Issue) (w x : Nat) (s : State), Fetches i opHalt w x s ∧ NoneDead i.core.die.val s) ∧
    (∃ (i : Issue) (w x : Nat) (s : State), Fetches i opFmt w x s ∧ ¬ ((getCore s i.core.lcid).descCyc = i.cyc ∧
      (fFmtD w ∈ (getCore s i.core.lcid).descBad ∨ (smGet none (getCore s i.core.lcid).descNew (fFmtD w)).isSome))) ∧
    (∃ (i : Issue) (w x : Nat) (s : State), Fetches i opPair w x s) :=
  ⟨⟨iss .ve, word opNop + 65535, 0, stWords [word opNop + 65535], by (unfold Fetches; decide)⟩,
   ⟨iss .ve, word opTst + 65535, 0, stWords [word opTst + 65535], by (unfold Fetches; decide)⟩,
   ⟨iss .ld, word opTend, 0, stWords [word opTend], by (unfold Fetches NoneDead; decide)⟩,
   ⟨iss .st, word opHalt, 0, stWords [word opHalt], by (unfold Fetches NoneDead; decide)⟩,
   ⟨{ iss .mv with cyc := 1 }, word opFmt + 15 + 16 * (2 ^ 32 - 1), 0, stWords [word opFmt + 15 + 16 * (2 ^ 32 - 1)],
     by (unfold Fetches; decide)⟩,
   ⟨iss .ae0, word opPair + 1, 0, stWords [word opPair + 1], by (unfold Fetches; decide)⟩⟩

theorem witness_SemaphoreInstructionsMoveTheBellBoard :
    (∃ (i : Issue) (w x : Nat) (s : State), Fetches i opSadd w x s ∧ ((getCore s i.core.lcid).semCyc = i.cyc ∨
      semFaults s i.core.lcid = [])) ∧
    (∃ (i : Issue) (w x : Nat) (s : State), Fetches i opSsub w x s ∧ ((getCore s i.core.lcid).semCyc = i.cyc ∨
      semFaults s i.core.lcid = [])) ∧
    (∃ (i : Issue) (w x : Nat) (s : State), Fetches i opWait w x s ∧ OpensCycle i.core.lcid i.cyc s ∧ (getCore s
      i.core.lcid).dead = false) ∧
    (∃ (i : Issue) (w x : Nat) (q : WaitRec) (s : State), Fetches i opWait w x s ∧ (getCore s i.core.lcid).dead =
      false ∧ (getCore s i.core.lcid).semCyc = i.cyc ∧ (getCore s i.core.lcid).semWaits = [q] ∧ q.granted = true ∧
      q.take = true ∧ q.key = (semKey (getCore s i.core.lcid).bank (fWaitS w)) ∧ q.eng < 6 ∧ (getCore s
      i.core.lcid).outst = [{ eng := q.eng, due := some i.cyc, p := q.p, ps := q.ps, run := none }] ∧ (getCore s
      i.core.lcid).semTake = smUpd 0 [] (semKey (getCore s i.core.lcid).bank (fWaitS w)) (· + q.n) ∧ fWaitT w = true ∧
      fWaitN w ≤ smGet 0 (getCore s i.core.lcid).sem (semKey (getCore s i.core.lcid).bank (fWaitS w)) ∧ q.n ≤ smGet 0
      (getCore s i.core.lcid).sem (semKey (getCore s i.core.lcid).bank (fWaitS w)) ∧ smGet 0 (getCore s
      i.core.lcid).sem (semKey (getCore s i.core.lcid).bank (fWaitS w)) < fWaitN w + q.n) ∧
    (∃ (c : CoreId) (e : Engine) (cyc sem n ps : Nat) (take p : Bool) (s : State), issueOpen s = true ∧ coreOpen
      (getCore s c.lcid) = true ∧ (getEng (getCore s c.lcid) e.no).mode = .blocked sem n take p ps ∧ (getEng (getCore
      s c.lcid) e.no).free ≤ cyc ∧ OpensCycle c.lcid cyc s ∧ (getCore s c.lcid).dead = false ∧ n ≤ semStart (getCore s
      c.lcid) cyc (semKey (getCore s c.lcid).bank sem)) ∧
    (∃ (c : CoreId) (e : Engine) (cyc sem n ps : Nat) (take p : Bool) (s : State), issueOpen s = true ∧ coreOpen
      (getCore s c.lcid) = true ∧ (getEng (getCore s c.lcid) e.no).mode = .blocked sem n take p ps ∧ (getEng (getCore
      s c.lcid) e.no).free ≤ cyc ∧ OpensCycle c.lcid cyc s ∧ (getCore s c.lcid).dead = false ∧ semStart (getCore s
      c.lcid) cyc (semKey (getCore s c.lcid).bank sem) < n) ∧
    (∃ (c : CoreId) (cyc : Nat) (m : Xfer) (l r : List Xfer) (s : State), Arrives c cyc m l r s ∧ inPark (getCore s
      c.lcid) = false ∧ ((getCore s c.lcid).semCyc = cyc ∨ semFaults s c.lcid = []) ∧ (getCore s c.lcid).dead = false) ∧
    (∃ (c : CoreId) (e : Engine) (cyc : Nat) (o : Outst) (l r : List Outst) (s : State), (getCore s c.lcid).outst = l
      ++ o :: r ∧ (∀ q ∈ l, ¬ (q.eng = e.no ∧ q.due = some cyc)) ∧ o.eng = e.no ∧ o.due = some cyc ∧ ((getCore s
      c.lcid).semCyc = cyc ∨ semFaults s c.lcid = [])) :=
  ⟨⟨iss .ae0, word opSadd + 31 + 32 * 4095, 0, stWords [word opSadd + 31 + 32 * 4095], by (unfold Fetches; decide)⟩,
   ⟨iss .ae1, word opSsub + 31 + 32 * 4095, 0, stWords [word opSsub + 31 + 32 * 4095], by (unfold Fetches; decide)⟩,
   ⟨iss .ld, word opWait + 32 * 4095 + 2 ^ 17, 0, stWords [word opWait + 32 * 4095 + 2 ^ 17],
     by (unfold Fetches OpensCycle; decide)⟩,
   ⟨iss .ae0, word opWait + 32 * 3 + 2 ^ 17, 0,
     { eng := 3, sem := 0, key := 0, n := 4, take := true, p := true, ps := 1, granted := true }, stCore
     { coreWith [word opWait + 32 * 3 + 2 ^ 17] with sem := [(0, 5)], semTake := [(0, 4)], semWaits := [{ eng := 3, sem := 0, key := 0, n := 4, take := true, p := true, ps := 1, granted := true }], outst := [{ eng := 3, due := some 0, p := true, ps := 1, run := none }] },
     by (unfold Fetches; decide)⟩,
   ⟨c000, .st, 0, 3, 4095, 1, true, true, stCore
     { coreWith [] with engs := [(5, { mode := .blocked 3 4095 true true 1, idx := 1, free := 0 })], sem := [(3, 4095)] },
     by (unfold OpensCycle; decide)⟩,
   ⟨c000, .st, 0, 3, 4095, 1, true, true, stCore
     { coreWith [] with engs := [(5, { mode := .blocked 3 4095 true true 1, idx := 1, free := 0 })], sem := [(3, 4094)] },
     by (unfold OpensCycle; decide)⟩,
   ⟨c000, 0, { src := 1, dst := 0, due := 0, gone := [], line := 0, cnt := 63, sem := 3, bank := 1, data := [] }, [],
     [],
     { stCore (coreWith []) with mesh := [{ src := 1, dst := 0, due := 0, gone := [], line := 0, cnt := 63, sem := 3, bank := 1, data := [] }] },
     by (unfold Arrives; decide)⟩,
   ⟨c000, .ve, 0, { eng := 3, due := some 0, p := true, ps := 1, run := none }, [], [], stCore
     { coreWith [] with outst := [{ eng := 3, due := some 0, p := true, ps := 1, run := none }] }, by decide⟩⟩

theorem witness_WordThatMayNotIssueStopsItsEngine :
    (∃ (i : Issue) (s : State), canIssue s i = true ∧ (listLen (getCore s i.core.lcid) ≤ (engOf i s).idx ∨ (i.parity =
      false ∧ wordLegal (getCore s i.core.lcid) i.eng (fetchWord (getCore s i.core.lcid) (engOf i s).idx) = false))) ∧
    (∃ (i : Issue) (s : State), canIssue s i = true ∧ (engOf i s).idx < listLen (getCore s i.core.lcid) ∧ i.parity =
      true) :=
  ⟨⟨iss .ve, stWords [word opLdw], by decide⟩,
   ⟨{ iss .ve with parity := true }, stWords [word opNop], by decide⟩⟩

theorem witness_WeightLoadsFillTheShadowSetAndSwapsExchangeIt :
    (∃ (i : Issue) (w x : Nat) (s : State), Fetches i opLdw w x s ∧ ((getCore s i.core.lcid).paired = true → (arrNo i)
      = 0) ∧ anyDelivering (getCore s i.core.lcid) (arrNo i) i.cyc = false ∧ tileOver (rdDesc (getCore s i.core.lcid)
      i.cyc (fLdwD w)) (64 * fLdwB w) = false ∧ (32 ≤ fLdwK w → tileOver (rdDesc (getCore s i.core.lcid) i.cyc (fLdwD
      w)) (64 * fLdwB2 w) = false)) ∧
    (∃ (i : Issue) (w x : Nat) (s : State), Fetches i opSww w x s ∧ ((getCore s i.core.lcid).paired = true → (arrNo i)
      = 0 ∧ mmaHolds (getCore s i.core.lcid) 0 i.cyc = false ∧ mmaHolds (getCore s i.core.lcid) 1 i.cyc = false ∧
      setFull (getCore s i.core.lcid).sh1 i.cyc = true) ∧ setFull (shSet (getCore s i.core.lcid) (arrNo i)) i.cyc =
      true) :=
  ⟨⟨iss .ae0, word opLdw + 7 * 2 ^ 14 + 63 * 2 ^ 17, 0, stWords [word opLdw + 7 * 2 ^ 14 + 63 * 2 ^ 17],
    by (unfold Fetches; decide)⟩,
   ⟨iss .ae0, word opSww, 0, stCore { coreWith [word opSww] with sh0 := { wset0 with full := some 0 } },
     by (unfold Fetches; decide)⟩⟩

theorem witness_MmaAccumulatesItsRows :
    ∃ (i : Issue) (first w x : Nat) (s : State), Fetches i opMma w x s ∧ (∀ j, j ≤ fMmaM w → mmaEarly (if (getCore s
      i.core.lcid).descCyc < i.cyc then descAt i.cyc (getCore s i.core.lcid) else (getCore s i.core.lcid)) (arrNo i)
      (rateClass (rdDesc (if (getCore s i.core.lcid).descCyc < i.cyc then descAt i.cyc (getCore s i.core.lcid) else
      (getCore s i.core.lcid)) i.cyc (fMmaAD w)) (rdDesc (if (getCore s i.core.lcid).descCyc < i.cyc then descAt i.cyc
      (getCore s i.core.lcid) else (getCore s i.core.lcid)) i.cyc (fMmaBD w))) i.cyc w j = false) ∧ descMoved (if
      (getCore s i.core.lcid).descCyc < i.cyc then descAt i.cyc (getCore s i.core.lcid) else (getCore s i.core.lcid))
      first i.cyc (fMmaAD w) = false ∧ descMoved (if (getCore s i.core.lcid).descCyc < i.cyc then descAt i.cyc
      (getCore s i.core.lcid) else (getCore s i.core.lcid)) first i.cyc (fMmaBD w) = false ∧ (fMmaMask w = true →
      fMmaMline x < lsLines) ∧ (∀ j g, j ≤ fMmaM w → g < rowGroups (rateClass (rdDesc (if (getCore s
      i.core.lcid).descCyc < i.cyc then descAt i.cyc (getCore s i.core.lcid) else (getCore s i.core.lcid)) i.cyc
      (fMmaAD w)) (rdDesc (if (getCore s i.core.lcid).descCyc < i.cyc then descAt i.cyc (getCore s i.core.lcid) else
      (getCore s i.core.lcid)) i.cyc (fMmaBD w))) → tileOver (rdDesc (if (getCore s i.core.lcid).descCyc < i.cyc then
      descAt i.cyc (getCore s i.core.lcid) else (getCore s i.core.lcid)) i.cyc (fMmaAD w)) (mmaTile w x j g) = false) :=
  ⟨{ iss .ae0 with cyc := 1 }, 0, word opMma + 2 ^ 12 + 2 ^ 28, 0, stWords [word opMma + 2 ^ 12 + 2 ^ 28],
    by (unfold Fetches; decide), by decide, by decide, by decide, by decide,
    by (intro j g hj hg; revert g; revert j; decide)⟩

theorem witness_DrainsWriteTheirOutputLines :
    (∃ (i : Issue) (w x : Nat) (s : State), Fetches i opDrn w x s ∧ elemWidth (rdDesc (getCore s i.core.lcid) i.cyc
      (fDrnD w)) = 32 ∧ dBlock (rdDesc (getCore s i.core.lcid) i.cyc (fDrnD w)) = 0 ∧ fDrnSig w = false ∧ fDrnL w < 32
      ∧ fDrnPos w + fDrnG w ≤ 3 ∧ 64 * fDrnO w + 4096 ≤ lsBytes ∧ drnSat s i (getCore s i.core.lcid) w = [] ∧ (∀ l g,
      l ≤ fDrnL w → g ≤ fDrnG w → smGet 0 (getCore s i.core.lcid).accReady (accRowKey (arrNo i) (drnRow w l g)) ≤
      i.cyc + 1 + l * (fDrnG w + 1) + g)) ∧
    (∃ (i : Issue) (w x : Nat) (s : State), Fetches i opMvd w x s ∧ elemWidth (rdDesc (getCore s i.core.lcid) i.cyc
      (fMvdD w)) = 32 ∧ dBlock (rdDesc (getCore s i.core.lcid) i.cyc (fMvdD w)) = 0 ∧ (64 * fMvdO w + 4 * fMvdOpos w)
      + 4 * fMvdCnt w + 8 ≤ lsBytes ∧ (∀ k, k ≤ fMvdCnt w → smGet false (getCore s i.core.lcid).mvOvf ((fun k => mvKey
      (fMvdRow w) ((fMvdCol0 w + k) % 256)) k) = false ∧ smGet 0 (getCore s i.core.lcid).mvReady ((fun k => mvKey
      (fMvdRow w) ((fMvdCol0 w + k) % 256)) k) ≤ i.cyc + 1 + k / 16)) :=
  ⟨⟨iss .ae0, word opDrn + 2 ^ 12, 0, stCore { coreWith [word opDrn + 2 ^ 12] with desc := [(0, 10)] },
    by (unfold Fetches; decide), by decide, by decide, by decide, by decide, by decide, by decide, rfl, fun _ _ _ _ =>
    Nat.zero_le _⟩,
   ⟨iss .mv, word opMvd + 255 * 2 ^ 10, 0, stCore { coreWith [word opMvd + 255 * 2 ^ 10] with desc := [(0, 10)] },
     by (unfold Fetches; decide), by decide, by decide, by decide, fun _ _ => ⟨rfl, Nat.zero_le _⟩⟩⟩

theorem witness_MvmAccumulatesItsColumns :
    ∃ (i : Issue) (w x : Nat) (s : State), Fetches i opMvm w x s ∧ (∀ r n, r ≤ fMvmM w → n ≤ fMvmN w → smGet 0
      (getCore s i.core.lcid).mvRead ((fun r n => mvKey r ((fMvmCol0 w + n) % 256)) r n) ≤ mvFirstUse i.cyc (if
      fMvmKeep w then (getCore s i.core.lcid).mvDesc else rdDesc (getCore s i.core.lcid) i.cyc (fMvmAD w)) (rdDesc
      (getCore s i.core.lcid) i.cyc (fMvmBD w)) w r n) ∧ (∀ q, q ≤ fMvmNkt w → (fMvmKeep w = false → tileOver (if
      fMvmKeep w then (getCore s i.core.lcid).mvDesc else rdDesc (getCore s i.core.lcid) i.cyc (fMvmAD w)) (mvmATile w
      x q) = false) ∧ ∀ n, n ≤ fMvmN w → tileOver (rdDesc (getCore s i.core.lcid) i.cyc (fMvmBD w)) (mvmBTile x q (n /
      32)) = false) ∧ (fMvmKeep w = true → fMvmM w + 1 ≤ (getCore s i.core.lcid).mvRows ∧ fMvmNkt w + 1 ≤ (getCore s
      i.core.lcid).mvTiles) :=
  ⟨iss .mv, word opMvm + 3 * 2 ^ 12 + 255 * 2 ^ 20 + 2 ^ 44, 0, stWords [word opMvm + 3 * 2 ^ 12 + 255 * 2 ^ 20 + 2 ^
    44], by (unfold Fetches; decide), fun _ _ _ _ => Nat.zero_le _, by decide +kernel, by decide⟩

theorem witness_VectorInstructionsWriteTheirElements :
    (∃ (i : Issue) (w x : Nat) (s : State), Fetches i opVop w x s ∧ vFits w (fVCnt w + 1) 4) ∧
    (∃ (i : Issue) (w x : Nat) (s : State), Fetches i opVsf w x s ∧ vFits w (fVCnt w + 1) 4) ∧
    (∃ (i : Issue) (w x : Nat) (s : State), Fetches i opVsel w x s ∧ vFits w (fVCnt w + 1) 4 ∧ fVFn w = 0) ∧
    (∃ (i : Issue) (w x : Nat) (s : State), Fetches i opVrng w x s ∧ vFits w (fVCnt w + 1) 4 ∧ fVFn w = 0) ∧
    (∃ (i : Issue) (w x : Nat) (s : State), Fetches i opVred w x s ∧ (fVDr w = false → 64 * fVDst w + 64 ≤ lsBytes)) :=
  ⟨⟨iss .ve, word opVop + 511 * 2 ^ 28 + 2 ^ 41, 0, stWords [word opVop + 511 * 2 ^ 28 + 2 ^ 41],
    by (unfold Fetches vFits; decide)⟩,
   ⟨iss .ve, word opVsf + 511 * 2 ^ 28 + 2 ^ 41, 0, stWords [word opVsf + 511 * 2 ^ 28 + 2 ^ 41],
     by (unfold Fetches vFits; decide)⟩,
   ⟨iss .ve, word opVsel + 15 * 2 ^ 28, 0, stWords [word opVsel + 15 * 2 ^ 28], by (unfold Fetches vFits; decide)⟩,
   ⟨iss .ve, word opVrng + 1023 * 2 ^ 28, 0, stWords [word opVrng + 1023 * 2 ^ 28], by (unfold Fetches vFits; decide)⟩,
   ⟨iss .ve, word opVred + 2 ^ 28, 0, stWords [word opVred + 2 ^ 28], by (unfold Fetches; decide)⟩⟩

theorem witness_VectorConversionsWriteTheirFormats :
    (∃ (i : Issue) (w x : Nat) (s : State), Fetches i opVcvt w x s ∧ fVFn w = 0 ∧ dBlock (rdDesc (getCore s
      i.core.lcid) i.cyc (fVId x)) = 0 ∧ (if fVDr w then (fVCnt w + 1) ≤ 512 else 64 * fVDst w + ceilDiv ((fVCnt w +
      1) * elemWidth (rdDesc (getCore s i.core.lcid) i.cyc (fVOd x))) 8 ≤ lsBytes)) ∧
    (∃ (i : Issue) (w x : Nat) (s : State), Fetches i opVqnt w x s ∧ ((blockSize (rdDesc (getCore s i.core.lcid) i.cyc
      (fVOd x))) = 16 ∨ (blockSize (rdDesc (getCore s i.core.lcid) i.cyc (fVOd x))) = 32) ∧ dDir (rdDesc (getCore s
      i.core.lcid) i.cyc (fVOd x)) = 0 ∧ fVDr w = false ∧ (fVCnt w + 1) ≤ 1024 ∧ 64 * fVDst w + tileBytes (rdDesc
      (getCore s i.core.lcid) i.cyc (fVOd x)) ≤ lsBytes) :=
  ⟨⟨iss .ve, word opVcvt + 31 * 2 ^ 28, 0, stWords [word opVcvt + 31 * 2 ^ 28], by (unfold Fetches; decide)⟩,
   ⟨iss .ve, word opVqnt + 31 * 2 ^ 28, 0, stCore { coreWith [word opVqnt + 31 * 2 ^ 28] with desc := [(0, 19)] },
     by (unfold Fetches; decide)⟩⟩

theorem witness_TransfersSendTheirRuns :
    (∃ (i : Issue) (w x : Nat) (s : State), Fetches i opMrd w x s ∧ spanOk s (fXPa x) (64 * (fXLen w + 1)) = true) ∧
    (∃ (i : Issue) (w x : Nat) (s : State), Fetches i opIld w x s ∧ spanOk s (fIPa w) 64 = true) ∧
    (∃ (i : Issue) (w x : Nat) (s : State), Fetches i opCrst w x s ∧ spanOk s (fXPa x) (64 * partBeats (fSPart w)) =
      true) ∧
    (∃ (i : Issue) (w x : Nat) (s : State), Fetches i opMwr w x s ∧ spanOk s (fXPa x) (64 * (fXLen w + 1)) = true) ∧
    (∃ (i : Issue) (w x : Nat) (s : State), Fetches i opPan w x s ∧ spanOk s (fXPa x) (64 * (fPLen w + 1)) = true) ∧
    (∃ (i : Issue) (w x : Nat) (s : State), Fetches i opCsav w x s ∧ spanOk s (fXPa x) (64 * partBeats (fSPart w)) =
      true) ∧
    (∃ (i : Issue) (w x : Nat) (s : State), Fetches i opMrd w x s ∧ spanOk s (fXPa x) (64 * (fXLen w + 1)) = false) :=
  ⟨⟨iss .ld, word opMrd + 63 * 2 ^ 12, 0, stWords [word opMrd + 63 * 2 ^ 12], by (unfold Fetches; decide)⟩,
   ⟨iss .ld, word opIld, 0, stWords [word opIld], by (unfold Fetches; decide)⟩,
   ⟨iss .ld, word opCrst, 0, stWords [word opCrst], by (unfold Fetches; decide)⟩,
   ⟨iss .st, word opMwr + 63 * 2 ^ 12, 0, stWords [word opMwr + 63 * 2 ^ 12], by (unfold Fetches; decide)⟩,
   ⟨iss .st, word opPan + 63 * 2 ^ 16, 0, stWords [word opPan + 63 * 2 ^ 16], by (unfold Fetches; decide)⟩,
   ⟨iss .st, word opCsav, 0, stWords [word opCsav], by (unfold Fetches; decide)⟩,
   ⟨iss .ld, word opMrd, 2 ^ 34 - 1, stWords [word opMrd, 2 ^ 34 - 1], by (unfold Fetches; decide)⟩⟩

theorem witness_SendsArriveAndRunsPost :
    (∃ (i : Issue) (w x : Nat) (s : State), Fetches i opSend w x s ∧ inRect s (corePart (getCore s i.core.lcid))
      (fSendDst w) = true) ∧
    (∃ (i : Issue) (w x : Nat) (s : State), Fetches i opSend w x s ∧ inRect s (corePart (getCore s i.core.lcid))
      (fSendDst w) = false) ∧
    (∃ (c : CoreId) (cyc : Nat) (m : Xfer) (l r : List Xfer) (s : State), Arrives c cyc m l r s ∧ m.gone = [] ∧
      m.data.length % 64 = 0 ∧ 64 * m.line + m.data.length ≤ lsBytes ∧ inPark (getCore s c.lcid) = false ∧ ((getCore s
      c.lcid).semCyc = cyc ∨ semFaults s c.lcid = []) ∧ (getCore s c.lcid).dead = false) ∧
    (∃ (c : CoreId) (cyc : Nat) (m : Xfer) (l r : List Xfer) (s : State), Arrives c cyc m l r s ∧ inPark (getCore s
      c.lcid) = true) ∧
    (∃ (c : CoreId) (cyc : Nat) (z : BeatLoss) (m : Xfer) (l r : List Xfer) (s : State), Arrives c cyc m l r s ∧
      m.data.length % 64 = 0 ∧ inPark (getCore s c.lcid) = false ∧ ((getCore s c.lcid).semCyc = cyc ∨ semFaults s
      c.lcid = []) ∧ (getCore s c.lcid).dead = false ∧ z.winner.lcid < m.src ∧ z.beat < m.data.length / 64 ∧ placeOn
      (recvRole (m.src / 2 ^ 14) (m.dst / 2 ^ 14)) z.place = true) ∧
    (∃ (c : CoreId) (k : StackNo) (tick seq cyc : Nat) (r : Inbound) (s : State), mayPost (getCore s c.lcid).landing
      k.val tick seq = some r ∧ inPark (getCore s c.lcid) = false ∧ ((getCore s c.lcid).semCyc = cyc ∨ semFaults s
      c.lcid = []) ∧ (getCore s c.lcid).dead = false) ∧
    (∃ (c : CoreId) (k : StackNo) (tick seq : Nat) (s : State), mayPost (getCore s c.lcid).landing k.val tick seq =
      none) :=
  ⟨⟨iss .st, word opSend, 0, { stWords [word opSend] with hif := { hif0 with partAt := [(0, [1, 0, 79, 0, 79])] } },
    by (unfold Fetches; decide)⟩,
   ⟨iss .st, word opSend + 79, 0,
     { stWords [word opSend + 79] with hif := { hif0 with partAt := [(0, [1, 0, 0, 0, 78])] } },
     by (unfold Fetches; decide)⟩,
   ⟨c000, 0,
     { src := 1, dst := 0, due := 0, gone := [], line := 3071, cnt := 1, sem := 0, bank := 0, data := List.replicate 64 1#8 },
     [], [],
     { stWords [] with mesh := [{ src := 1, dst := 0, due := 0, gone := [], line := 3071, cnt := 1, sem := 0, bank := 0, data := List.replicate 64 1#8 }] },
     by (unfold Arrives; decide)⟩,
   ⟨c000, 0,
     { src := 1, dst := 0, due := 0, gone := [], line := 3071, cnt := 1, sem := 0, bank := 0, data := List.replicate 64 1#8 },
     [], [],
     { stCore { coreWith [] with parkLeft := 1 } with mesh := [{ src := 1, dst := 0, due := 0, gone := [], line := 3071, cnt := 1, sem := 0, bank := 0, data := List.replicate 64 1#8 }] },
     by (unfold Arrives; decide)⟩,
   ⟨c000, 0, { beat := 0, place := .edge 47, winner := c000 },
     { src := 2 * 2 ^ 14 + 1, dst := 0, due := 0, gone := [], line := 3071, cnt := 1, sem := 0, bank := 0, data := List.replicate 64 1#8 },
     [], [],
     { stWords [] with mesh := [{ src := 2 * 2 ^ 14 + 1, dst := 0, due := 0, gone := [], line := 3071, cnt := 1, sem := 0, bank := 0, data := List.replicate 64 1#8 }] },
     by (unfold Arrives; decide)⟩,
   ⟨c000, 0, 0, 5, 0, { stack := 0, tick := 0, seq := 5, cnt := 1, sem := 0, bank := 0, landed := true }, stCore
     { coreWith [] with landing := [{ stack := 0, tick := 0, seq := 5, cnt := 1, sem := 0, bank := 0, landed := true }] },
     by decide⟩,
   ⟨c000, 0, 0, 5, stCore
     { coreWith [] with landing := [{ stack := 0, tick := 0, seq := 4, cnt := 0, sem := 0, bank := 0, landed := false }, { stack := 0, tick := 0, seq := 5, cnt := 1, sem := 0, bank := 0, landed := true }] },
     by decide⟩⟩

theorem witness_HallSendsFlitsAndPieces :
    (∃ (i : Issue) (w x d p : Nat) (pl : Plan) (s : State), Fetches i opHsnd w x s ∧ getPlan s (corePart (getCore s
      i.core.lcid)) = some pl ∧ hsndDests s pl (fHStream w) = [d] ∧ d ≠ myId s ∧ (∀ e ∈ pl.streams, e.num = fHStream w
      → e.transport ≠ 3) ∧ (∀ f ∈ (hsndFrames s w x d (outBytes s i (fHSl w) (fHLen x + 1))), routePort s (corePart
      (getCore s i.core.lcid)) f = some p)) ∧
    (∃ (i : Issue) (w x p : Nat) (pl : Plan) (s : State), Fetches i opColl w x s ∧ getPlan s (corePart (getCore s
      i.core.lcid)) = some pl ∧ fCKind w ≠ 5 ∧ ((pl.pos + stepOf (fCSeg x)) % max 1 pl.npkg) ≠ myId s ∧ (∀ (f : Frame)
      (q : Nat), f ∈ (collFrames s (corePart (getCore s i.core.lcid)) (fCCtx w) (fCKind w) 0 (segOf (fCSeg x)) (stepOf
      (fCSeg x)) ((pl.pos + stepOf (fCSeg x)) % max 1 pl.npkg) (outBytes s i (fCSl w) (fCLen w + 1))) → routePort s
      (corePart (getCore s i.core.lcid)) { f with seq := q } = some p)) :=
  ⟨⟨iss .st, word opHsnd, 0, 1, 0, planPair,
    { stHall with cores := [(0, { coreWith [word opHsnd] with bound := 1 })] }, by (unfold Fetches; decide)⟩,
   ⟨iss .st, word opColl, 1, 0, planPair,
     { stHall with cores := [(0, { coreWith [word opColl, 1] with bound := 1 })] }, by (unfold Fetches; decide),
     by decide, by decide, by decide, route_seq _ _ _ _ (by decide)⟩⟩

theorem witness_StalledAndDeadlockedCoresAreServed :
    (∃ (c : CoreId) (cyc : Nat) (s : State), (getCore s c.lcid).dead = false ∧ running s = true ∧ stuck s c.lcid =
      true ∧ getF s (R.DIE_DEADLOCK_WIN.WIN c.die.val) ≤ deadCount s c.lcid cyc) ∧
    (∃ (c : CoreId) (cyc : Nat) (s : State), ((getCore s c.lcid).dead = true ∨ running s = false ∨ (engModes (getCore
      s c.lcid)).all isBlocked = false ∨ noInbound s c.lcid = false ∨ deadCount s c.lcid cyc < getF s
      (R.DIE_DEADLOCK_WIN.WIN c.die.val))) ∧
    (∃ (i : Issue) (w x : Nat) (s : State), Fetches i opTend w x s) ∧
    (∃ (c : CoreId) (e : Engine) (cyc : Nat) (g : Held) (s : State), issueOpen s = true ∧ coreOpen (getCore s c.lcid)
      = true ∧ (getEng (getCore s c.lcid) e.no).mode = .stalled g ∧ mayResume s g cyc = true ∧ g.issue.core = c ∧
      g.issue.eng = e ∧ (∀ a ∈ g.issue.acc, a.kind = .pending) ∧ (getCore s c.lcid).dead = false ∧ wOp g.w = opVop ∧
      vFits g.w (fVCnt g.w + 1) 4) ∧
    (∃ (c : CoreId) (e : Engine) (cyc : Nat) (g : Held) (s : State), issueOpen s = true ∧ coreOpen (getCore s c.lcid)
      = true ∧ e.no < 2 ∧ (getCore s c.lcid).paired = false ∧ smGet none (getCore s c.lcid).heldLdw e.no = some g ∧
      mayResume s g cyc = true ∧ g.issue.core = c ∧ g.issue.eng = e ∧ (∀ a ∈ g.issue.acc, a.kind = .pending)) ∧
    (∃ (c : CoreId) (e : Engine) (cyc : Nat) (g : Held) (s : State), (getEng (getCore s c.lcid) e.no).mode = .stalled
      g ∧ mayResume s g cyc = false) ∧
    (∃ (c : CoreId) (s : State), getF s R.TOP_MODE.BOOST = 1 ∧ getF s R.HTH_BOOST_EN.LEND = 1 ∧ (engModes (getCore s
      c.lcid)).all (fun m => atRest m || isBlocked m) = true ∧ (engModes (getCore s c.lcid)).any isBlocked = true ∧
      noInbound s c.lcid = true) :=
  ⟨⟨c000, 2 ^ 20, stCore
    { core0 with engs := (List.range 6).map fun e => (e, { mode := .blocked 0 1 true false 0, idx := 1, free := 0 }) },
    by decide⟩,
   ⟨c000, 0, stCore
     { core0 with engs := (List.range 6).map fun e => (e, { mode := .blocked 0 1 true false 0, idx := 1, free := 0 }) },
     by decide⟩,
   ⟨iss .ld, word opTend, 0, stWords [word opTend], by (unfold Fetches; decide)⟩,
   ⟨c000, .ve, 1, { issue := iss .ve, w := word opVop + 2 ^ 41, x := 0, first := 0, descs := [] }, stCore
     { core0 with engs := [(3, { mode := .stalled { issue := iss .ve, w := word opVop + 2 ^ 41, x := 0, first := 0, descs := [] }, idx := 2, free := 0 })] },
     by (unfold vFits; decide)⟩,
   ⟨c000, .ae0, 1, { issue := iss .ae0, w := word opLdw, x := 0, first := 0, descs := [] }, stCore
     { core0 with heldLdw := [(0, some { issue := iss .ae0, w := word opLdw, x := 0, first := 0, descs := [] })] },
     by decide⟩,
   ⟨c000, .ve, 0, { issue := iss .ve, w := word opVop + 2 ^ 41, x := 0, first := 0, descs := [] }, stCore
     { core0 with engs := [(3, { mode := .stalled { issue := iss .ve, w := word opVop + 2 ^ 41, x := 0, first := 0, descs := [] }, idx := 2, free := 0 })] },
     by decide⟩,
   ⟨c000,
     { stRunning [(R.TOP_MODE.BOOST, 1), (R.HTH_BOOST_EN.LEND, 1)] with cores := [(0, { core0 with engs := [(0, { mode := .blocked 0 1 true false 0, idx := 1, free := 0 })] })] },
     by decide⟩⟩

theorem witness_RunsQueueAndTakeTheirChannel :
    (∃ (k : StackNo) (c : ChanNo) (r : Run) (l rest : List Run) (s : State), NextToArrive (chanKey k c) r l rest s ∧
      (getChan s (chanKey k c)).queue.length < 32) ∧
    (∃ (r : Run), isPan r = false) ∧
    (∃ (r : Run) (cmd tensor n : Nat) (e : TensorE) (s : State), r.kind = .pan cmd tensor ∧ cmd < 2 ∧ r.beats = 64 * n
      ∧ n ≤ 16 ∧ unitOk s r.pa = true ∧ extentOf s r.part (r.pa / 2 ^ 36) tensor r.pa n = some e) ∧
    (∃ (r : Run) (tensor n : Nat) (xs : List Word) (e : TensorE) (s : State), r.kind = .pan 2 tensor ∧ extentAt s
      r.part (r.pa / 2 ^ 36) tensor r.pa = some e ∧ tScatter e = true ∧ e.nc = 32 ∧ scatterRows 32 (r.beats + 1)
      r.data = some [(n, xs)] ∧ xs.length = 32) ∧
    (∃ (r : Run) (tensor n : Nat) (p : List Word) (e : TensorE) (s : State), r.kind = .pan 3 tensor ∧ sweepOf s (r.pa
      / 2 ^ 36) r = some (p, n, e)) ∧
    (∃ (k : StackNo) (c : ChanNo) (s : State), 32 ≤ (getChan s (chanKey k c)).queue.length) ∧
    (∃ (k : StackNo) (c : ChanNo) (bt : Nat) (r : Run) (rs : List Run) (s : State), s.tick.draining = false ∧ chanFree
      s (chanKey k c) bt = true ∧ (getChan s (chanKey k c)).retry = none ∧ (getChan s (chanKey k c)).queue = r :: rs ∧
      isPan r = false ∧ mayStart s k c bt r = true ∧ (getStk s k).stepOn = false ∧ (getCore s r.core).dead = false) ∧
    (∃ (k : StackNo) (c : ChanNo) (bt j : Nat) (host : List Byte) (q : HostJob) (r : Run) (s : State), s.tick.draining
      = false ∧ chanFree s (chanKey k c) bt = true ∧ nextRun s k c bt = none ∧ hostFirst s k c bt host = some (j, q,
      r) ∧ (q.tries = 0 → guestFirst s k c bt q.order = false) ∧ hostShort s j q r = false ∧ (getStk s k).stepOn =
      false) ∧
    (∃ (k : StackNo) (c : ChanNo) (bt : Nat) (host : List Byte) (s : State), (s.tick.draining = true ∨ chanFree s
      (chanKey k c) bt = false ∨ ((∀ r, mayStart s k c bt r = false) ∧ hostFirst s k c bt host = none))) :=
  ⟨⟨11, 31, { run0 with pa := 11 * 2 ^ 36 + 31 * 2 ^ 31 }, [run0], [],
    { stRunning [] with transit := [run0, { run0 with pa := 11 * 2 ^ 36 + 31 * 2 ^ 31 }] },
    by (unfold NextToArrive; decide +kernel)⟩,
   ⟨run0, by decide +kernel⟩,
   ⟨gradC0 0, 0, 0, 1, ext0, stPan ext0 (gradRun 0) [], by decide +kernel⟩,
   ⟨scatC0 31, 0, 31, List.replicate 32 0#32, { ext0 with flags := 4, nc := 32 }, stPan
     { ext0 with flags := 4, nc := 32 } run0 [], by decide +kernel⟩,
   ⟨sweepC0, 0, 1, wordsOf 16 sweepC0.data, ext0, stPan ext0 sweepRun [], by decide +kernel⟩,
   ⟨0, 0, stChan { chan0 with queue := List.replicate 32 run0 }, by decide +kernel⟩,
   ⟨0, 0, 19968, run0, [], stChan { chan0 with queue := [run0] }, by decide +kernel⟩,
   ⟨0, 0, 0, 15, [], xferJob 0 0 [readAcc 0 64], hostRun State.reset 15 [] (xferJob 0 0 [readAcc 0 64]) (readAcc 0
     64), { State.reset with hif := { hif0 with jobs := [(15, some (xferJob 0 0 [readAcc 0 64]))] } },
     by decide +kernel⟩,
   ⟨0, 0, 9, [], stChan { chan0 with freeAt := 10 }, .inr (.inl (by decide +kernel))⟩⟩

theorem witness_RunEndDeliversRetriesOrFails :
    (∃ (k : StackNo) (c : ChanNo) (r : Run) (s : State), (getChan s (chanKey k c)).cur = some r ∧ r.kind = .write ∧
      r.hinge = none) ∧
    (∃ (k : StackNo) (c : ChanNo) (r : Run) (s : State), (getChan s (chanKey k c)).cur = some r ∧ r.kind = .read ∧
      r.hinge = none ∧ 64 * (r.line + r.beats) ≤ lsBytes ∧ (getCore s r.core).dead = false) ∧
    (∃ (k : StackNo) (c : ChanNo) (r : Run) (z : LineLoss) (s : State), (getChan s (chanKey k c)).cur = some r ∧
      r.kind = .read ∧ r.hinge = none ∧ (getCore s r.core).dead = false ∧ z ∈ runLosses r [z]) ∧
    (∃ (k : StackNo) (c : ChanNo) (r : Run) (s : State), (getChan s (chanKey k c)).cur = some r ∧ NotHost r ∧
      r.retries < 3 ∧ (running s = true → (getChan s (chanKey k c)).retryOcc + runOcc s r ≤ resv s k)) ∧
    (∃ (k : StackNo) (c : ChanNo) (r : Run) (s : State), (getChan s (chanKey k c)).cur = some r ∧ NotHost r ∧ 3 ≤
      r.retries) ∧
    (∃ (k : StackNo) (c : ChanNo) (r : Run) (s : State), (getChan s (chanKey k c)).cur = some r ∧ NotHost r ∧ isRead r
      = true) :=
  ⟨⟨0, 0, { run0 with kind := .write, data := [1#8] }, stChan
    { chan0 with cur := some { run0 with kind := .write, data := [1#8] } }, by decide +kernel⟩,
   ⟨0, 0, { run0 with line := 3071 }, stChan { chan0 with cur := some { run0 with line := 3071 } }, by decide +kernel⟩,
   ⟨0, 0, { run0 with line := 3071 }, { line := 3071, place := .link c000 0, winner := 0 }, stChan
     { chan0 with cur := some { run0 with line := 3071 } }, by decide +kernel⟩,
   ⟨0, 0, { run0 with retries := 2 }, stChan { chan0 with cur := some { run0 with retries := 2 } }, rfl, (fun _ _ h =>
     nomatch h), by decide +kernel⟩,
   ⟨0, 0, { run0 with retries := 3 }, stChan { chan0 with cur := some { run0 with retries := 3 } }, rfl, (fun _ _ h =>
     nomatch h), by decide +kernel⟩,
   ⟨0, 0, run0, stChan { chan0 with cur := some run0 }, rfl, (fun _ _ h => nomatch h), by decide +kernel⟩⟩

theorem witness_WindowsMarginingAndZeroingUseTheChannel :
    (∃ (k : StackNo) (c : ChanNo) (bt : Nat) (s : State), getF s R.TOP_MODE.BOOST = 0 ∧ windowsStand s = true ∧ bt ∈
      (tickWindows s k c).map (fun w => ceilDiv (768 * w) 10) ∧ (getStk s k).stepOn = false) ∧
    (∃ (k : StackNo) (c : ChanNo) (bt : Nat) (s : State), running s = true ∧ getF s R.TOP_MODE.BOOST = 1 ∧ chanFree s
      (chanKey k c) bt = true ∧ windowDue s k c bt = true ∧ (getStk s k).stepOn = false) ∧
    (∃ (k : StackNo) (c : ChanNo) (bt : Nat) (s : State), running s = true ∧ getF s R.TOP_MODE.BOOST = 1 ∧ windowDue s
      k c bt = false) ∧
    (∃ (k : StackNo) (c : ChanNo) (bt : Nat) (s : State), makeupSpan s bt = true ∧ 0 < debt s (chanKey k c) ∧ chanFree
      s (chanKey k c) bt = true ∧ clearOfWindows s k c bt windowOcc = true ∧ (getStk s k).stepOn = false) ∧
    (∃ (k : StackNo) (s : State), getF s (R.STK_MARGIN_CTL.LANE k) ≤ 80) ∧
    (∃ (k : StackNo) (bt : Nat) (s : State), marginOpen s k bt = true) :=
  ⟨⟨0, 0, 299520, stRunning [], by decide +kernel⟩,
   ⟨0, 0, 599040, stRunning [(R.TOP_MODE.BOOST, 1)], by decide +kernel⟩,
   ⟨0, 0, 0, stRunning [(R.TOP_MODE.BOOST, 1)], by decide +kernel⟩,
   ⟨0, 0, 620000,
     { stRunning [] with refresh := { State.reset.refresh with owed := 1 }, tick := { State.reset.tick with atD := true } },
     by decide +kernel⟩,
   ⟨0, st [(R.STK_MARGIN_CTL.LANE 0, 80)], by decide +kernel⟩,
   ⟨0, 0, { State.reset with stks := [(0, { stack0 with margin := true })] }, by decide +kernel⟩⟩

theorem witness_GradientCommandsUpdateTheGradientArea :
    (∃ (k : StackNo) (c : ChanNo) (sv : Served) (tensor : Nat) (r : Run) (rest : List Run) (e : TensorE) (s s1 :
      State), PanHead k c sv r rest s ∧ r.kind = .unit 0 tensor ∧ r.data.length = 4096 ∧ extentOf s r.part k tensor
      r.pa 1 = some e ∧ 1 ≤ e.mb ∧ smGet false (getPan s k).swept (unitNo r.pa) = false ∧ (srcOf s k (unitNo r.pa) = 0
      ∨ srcOf s k (unitNo r.pa) = r.core + 1) ∧ journal k r.pa true 0 s = some s1) ∧
    (∃ (k : StackNo) (c : ChanNo) (sv : Served) (tensor : Nat) (r : Run) (rest : List Run) (e : TensorE) (s s1 :
      State), PanHead k c sv r rest s ∧ r.kind = .unit 1 tensor ∧ r.data.length = 4096 ∧ extentOf s r.part k tensor
      r.pa 1 = some e ∧ smGet false (getPan s k).swept (unitNo r.pa) = false ∧ (srcOf s k (unitNo r.pa) = 0 ∨ srcOf s
      k (unitNo r.pa) = r.core + 1) ∧ journal k r.pa true 0 s = some s1 ∧ fW (flagByte s k (unitNo r.pa)) = true ∧
      fCnt (flagByte s k (unitNo r.pa)) < e.mb ∧ fCnt (flagByte s k (unitNo r.pa)) < 15) ∧
    (∃ (k : StackNo) (c : ChanNo) (sv : Served) (tensor : Nat) (r : Run) (rest : List Run) (s s1 : State), PanHead k c
      sv r rest s ∧ r.kind = .unit 2 tensor ∧ r.beats = 2 ∧ r.line < 32 ∧ r.pa / 2 ^ 36 = k.val ∧ smGet false (getPan
      s k).swept (unitNo r.pa) = false ∧ journal k r.pa true 0 s = some s1) ∧
    (∃ (k : StackNo) (c : ChanNo) (sv : Served) (tensor : Nat) (r : Run) (rest : List Run) (s : State), PanHead k c sv
      r rest s ∧ r.kind = .unit 2 tensor ∧ r.beats = 0) :=
  ⟨⟨0, 0, sv0 19968, 0, gradRun 0, [], ext0, stPan ext0 (gradRun 0) [], (journal 0 0 true 0 (stPan ext0 (gradRun 0)
    [])).get (by decide +kernel), ⟨rfl, rfl, by decide +kernel, by decide +kernel, rfl, rfl, rfl, rfl⟩, rfl,
    List.length_replicate, by decide +kernel, by decide +kernel, by decide +kernel, by decide +kernel,
    (Option.some_get _).symm⟩,
   ⟨0, 0, sv0 19968, 0, gradRun 1, [], { ext0 with mb := 2 }, stPan { ext0 with mb := 2 } (gradRun 1) [(0, mkFlag 1)],
     (journal 0 0 true 0 (stPan { ext0 with mb := 2 } (gradRun 1) [(0, mkFlag 1)])).get (by decide +kernel), ⟨rfl,
     rfl, by decide +kernel, by decide +kernel, rfl, rfl, rfl, rfl⟩, rfl, List.length_replicate, by decide +kernel,
     by decide +kernel, by decide +kernel, (Option.some_get _).symm, by decide +kernel, by decide +kernel,
     by decide +kernel⟩,
   ⟨0, 0, sv0 19968, 0, scatRun 2 31, [], stPan ext0 (scatRun 2 31) [], (journal 0 0 true 0 (stPan ext0 (scatRun 2 31)
     [])).get (by decide +kernel), ⟨rfl, rfl, by decide +kernel, by decide +kernel, rfl, rfl, rfl, rfl⟩, rfl, rfl,
     by decide +kernel, by decide +kernel, by decide +kernel, (Option.some_get _).symm⟩,
   ⟨0, 0, sv0 19968, 0, scatRun 0 0, [], stPan ext0 (scatRun 0 0) [], ⟨rfl, rfl, by decide +kernel, by decide +kernel,
     rfl, rfl, rfl, rfl⟩, rfl, rfl⟩⟩

theorem witness_SweepUpdatesTheMasterWeights :
    (∃ (k : StackNo) (c : ChanNo) (sv : Served) (tensor : Nat) (r : Run) (rest : List Run) (e : TensorE) (q : PanSec)
      (s s1 : State), PanHead k c sv r rest s ∧ r.kind = .unit 3 tensor ∧ r.pa / 2 ^ 36 = k.val ∧ extentOf s r.part k
      tensor r.pa 1 = some e ∧ sweepSkipped s k = false ∧ tNorm e = false ∧ tWc e = 0 ∧ panSec s r.part = some q ∧
      srcOf s k (unitNo r.pa) = 0 ∧ fW (flagByte s k (unitNo r.pa)) = true ∧ e.mb ≤ fCnt (flagByte s k (unitNo r.pa))
      ∧ journal k r.pa false e.alg s = some s1) ∧
    (∃ (k : StackNo) (c : ChanNo) (sv : Served) (tensor : Nat) (r : Run) (rest : List Run) (e : TensorE) (s : State),
      PanHead k c sv r rest s ∧ r.kind = .unit 3 tensor ∧ r.pa / 2 ^ 36 = k.val ∧ extentOf s r.part k tensor r.pa 1 =
      some e ∧ srcOf s k (unitNo r.pa) = 0 ∧ sweepSkipped s k = true) :=
  ⟨⟨0, 0, sv0 19968, 0, sweepRun, [], ext0, panSec0 ext0, stPan ext0 sweepRun [(0, mkFlag 1)], (journal 0 0 false 0
    (stPan ext0 sweepRun [(0, mkFlag 1)])).get (by decide +kernel), ⟨rfl, rfl, by decide +kernel, by decide +kernel,
    rfl, rfl, rfl, rfl⟩, rfl, by decide +kernel, by decide +kernel, by decide +kernel, by decide +kernel,
    by decide +kernel, by decide +kernel, by decide +kernel, by decide +kernel, by decide +kernel, (Option.some_get
    _).symm⟩,
   ⟨0, 0, sv0 19968, 0, sweepRun, [], ext0, setFs (stPan ext0 sweepRun []) [(R.PAN_STA.GVALID 0, 1), (R.PAN_STA.GSAT
     0, 1)], ⟨rfl, rfl, by decide +kernel, by decide +kernel, rfl, rfl, rfl, rfl⟩, rfl, by decide +kernel,
     by decide +kernel, by decide +kernel, by decide +kernel⟩⟩

theorem witness_ExportAndImportMoveTheShard :
    (∃ (k : StackNo) (s : State), getF s (R.PAN_EXP_STA.BUSY k) = 0) ∧
    (∃ (k x : StackNo) (c : ChanNo) (r : Run) (q : HostJob) (a : HostAcc) (tensor content pa : Nat) (torn : Bool) (e :
      TensorE) (l : List TensorE) (s : State), (getChan s (chanKey k c)).cur = some r ∧ r.kind = .host (expJob x)
      false ∧ getJob s (expJob x) = some q ∧ q.todo = [a] ∧ a.wr = false ∧ a.len ≤ 64 * r.beats ∧ q.phase = 0 ∧
      (getPan s x).xfer = some (false, tensor, content, pa, torn) ∧ shardOf s x tensor = e :: l) ∧
    (∃ (k x : StackNo) (c : ChanNo) (r : Run) (q : HostJob) (a : HostAcc) (tensor content pa : Nat) (e : TensorE) (l :
      List TensorE) (s : State), (getChan s (chanKey k c)).cur = some r ∧ r.kind = .host (expJob x) false ∧ getJob s
      (expJob x) = some q ∧ q.todo = [a] ∧ a.wr = false ∧ a.len ≤ 64 * r.beats ∧ q.phase = 1 ∧ (getPan s x).xfer =
      some (true, tensor, content, pa, false) ∧ shardOf s x tensor = e :: l) ∧
    (∃ (k : StackNo) (c : ChanNo) (r : Run) (j : Nat) (q : HostJob) (s : State), (getChan s (chanKey k c)).cur = some
      r ∧ r.kind = .host j true ∧ getJob s j = some q) ∧
    (∃ (k : StackNo) (dir : Bool) (tensor content pa : Nat) (q : HostJob) (s : State), (getPan s k).xfer = some (dir,
      tensor, content, pa, false) ∧ getJob s (expJob k) = some q ∧ exportOver dir q = true ∧ q.fault = 0) ∧
    (∃ (k : StackNo) (dir : Bool) (tensor content pa : Nat) (torn : Bool) (q : HostJob) (s : State), (getPan s k).xfer
      = some (dir, tensor, content, pa, torn) ∧ getJob s (expJob k) = some q ∧ exportOver dir q = true ∧ (q.fault ≠ 0
      ∨ torn = true) ∧ q.fault < 16) ∧
    (∃ (k : StackNo) (dir : Bool) (tensor content pa : Nat) (torn : Bool) (q : HostJob) (s : State), (getPan s k).xfer
      = some (dir, tensor, content, pa, torn) ∧ getJob s (expJob k) = some q ∧ exportOver dir q = false) :=
  ⟨⟨0, State.reset, by decide +kernel⟩,
   ⟨0, 0, 0, { run0 with kind := .host 16 false }, xferJob 0 0 [readAcc 0 64], readAcc 0 64, 0, 1, 2 ^ 31, false,
     ext0, [], stXfer false false (xferJob 0 0 [readAcc 0 64]) (.host 16 false), by decide +kernel⟩,
   ⟨0, 0, 0, { run0 with kind := .host 16 false }, xferJob 1 0 [readAcc 0 64], readAcc 0 64, 0, 1, 2 ^ 31, ext0, [],
     stXfer true false (xferJob 1 0 [readAcc 0 64]) (.host 16 false), by decide +kernel⟩,
   ⟨0, 0, { run0 with kind := .host 16 true }, 16, xferJob 1 0 [writeAcc 0 [1#8]], stXfer false false (xferJob 1 0
     [writeAcc 0 [1#8]]) (.host 16 true), by decide +kernel⟩,
   ⟨0, true, 0, 1, 2 ^ 31, xferJob 2 0 [], stXfer true false (xferJob 2 0 []) .read, by decide +kernel⟩,
   ⟨0, false, 0, 1, 2 ^ 31, true, xferJob 1 0 [], stXfer false true (xferJob 1 0 []) .read, by decide +kernel⟩,
   ⟨0, true, 0, 1, 2 ^ 31, false, xferJob 1 0 [], stXfer true false (xferJob 1 0 []) .read, by decide +kernel⟩⟩

theorem witness_EgressSlotSendsWhatItsSlotIsFor :
    (∃ (p : PortNo) (slot : Nat) (x : SyncTx) (xs : List SyncTx) (s : State), PortSends p s ∧ slot % 16 = 15 ∧
      (getPort s p).syncQ = x :: xs) ∧
    (∃ (p : PortNo) (slot : Nat) (e : FabE) (f : Frame) (s : State), PortSends p s ∧ slot % 16 ≠ 15 ∧ (getPort s
      p).goback = none ∧ (portRoutes s p).find? (holdsSlot s slot) = some e ∧ plannedOpen s = true ∧ (getPort s
      p).held.length < 1024 ∧ ((getPort s p).planned.find? fun g => matchesRoute g e) = some f) ∧
    (∃ (p : PortNo) (s : State), PortSends p s ∧ (getPort s p).syncQ = [] ∧ (getPort s p).goback = none ∧ (getPort s
      p).planned = [] ∧ (getPort s p).ctrlQ = [] ∧ (getPort s p).testQ = []) :=
  ⟨⟨0, 15, { frame := frame0, sent := 0 }, [], stPort { port0 with syncQ := [{ frame := frame0, sent := 0 }] },
    by (unfold PortSends; decide +kernel)⟩,
   ⟨0, 0, planPair.fabric.headD { ptick := 0, slot0 := 0, nslot := 0, port := 0, cls := 0, stream := 0, dest := 0 },
     { frame0 with dst := 1 }, { stHall with ports := [(0, { port0 with planned := [{ frame0 with dst := 1 }] })] },
     by (unfold PortSends; decide +kernel)⟩,
   ⟨0, stPort port0, by (unfold PortSends; decide +kernel)⟩⟩

theorem witness_ReceivedFramesAreCheckedAndPlaced :
    (∃ (p : PortNo) (f : Frame) (uncorr : Nat) (s : State), getF s (R.PORT_STA.UP p) = 1 ∧ (getPort s p).retraining =
      false ∧ (f.crc ≠ frameCrc f ∨ uncorr ≠ 0)) ∧
    (∃ (p : PortNo) (f : Frame) (s : State), getF s (R.PORT_STA.UP p) = 1 ∧ (getPort s p).retraining = false ∧
      inService s p = true ∧ f.crc = frameCrc f ∧ f.cls = clsData ∧ f.kind = 0 ∧ f.bc = false ∧ f.dst = myId s ∧
      f.ackv = false ∧ lseqDist f.lseq (getPort s p).e = 0 ∧ LandsHere f s) ∧
    (∃ (p : PortNo) (f : Frame) (s : State), getF s (R.PORT_STA.UP p) = 1 ∧ (getPort s p).retraining = false ∧
      inService s p = true ∧ f.crc = frameCrc f ∧ f.cls ≤ clsColl ∧ f.ackv = false ∧ 0 < lseqDist f.lseq (getPort s
      p).e ∧ lseqDist f.lseq (getPort s p).e < 0x800 ∧ (getPort s p).gap = false) ∧
    (∃ (p : PortNo) (f : Frame) (s : State), getF s (R.PORT_STA.UP p) = 1 ∧ (getPort s p).retraining = false ∧ f.crc =
      frameCrc f ∧ f.cls = clsCtrl ∧ f.kind = 0 ∧ f.ackv = true ∧ f.nak = false ∧ ackValid (getPort s p) f.ack = true) :=
  ⟨⟨0, spoiled frame0, 0, stPort port0, by decide, by decide, .inl (spoiled_crc _)⟩,
   ⟨0, sealed { frame0 with src := 1, stream := 1 }, stHall, by decide, by decide, by decide, sealed_crc _, by decide,
     by decide, by decide, by decide, by decide, by decide, by (unfold LandsHere; decide)⟩,
   ⟨0, sealed { frame0 with src := 1, stream := 1, lseq := 1 }, stHall, by decide, by decide, by decide, sealed_crc _,
     by decide, by decide, by decide, by decide, by decide⟩,
   ⟨0, sealed { frame0 with cls := clsCtrl, ackv := true, ack := 1 }, stPort
     { port0 with lseq := 1, held := [(frame0, 1)] }, by decide, by decide, sealed_crc _, by decide, by decide,
     by decide, by decide, by decide⟩⟩

theorem witness_PortTimersReplayRetrainAndFail :
    (∃ (p : PortNo) (s : State), (getPort s p).gap = true) ∧
    (∃ (p : PortNo) (f : Frame) (n : Nat) (rest : List (Frame × Nat)) (s : State), (getPort s p).held = (f, n) :: rest
      ∧ n < 4 ∧ (getPort s p).goback = none ∧ (getPort s p).retraining = false) ∧
    (∃ (p : PortNo) (f : Frame) (n : Nat) (rest : List (Frame × Nat)) (s : State), (getPort s p).held = (f, n) :: rest
      ∧ 4 ≤ n ∧ (getPort s p).goback = none ∧ (getPort s p).retraining = false ∧ usableDup s p = none ∧ (getPort s
      p).lastRetrain = none) ∧
    (∃ (p : PortNo) (s : State), getF s (R.PORT_STA.DOWN p) = 0 ∧ (getPort s p).retraining = true) ∧
    (∃ (p : PortNo) (s : State), getF s (R.PORT_STA.DOWN p) = 0) ∧
    (∃ (p : PortNo) (s : State), getF s (R.PORT_LASER.SAFE p) = 0) :=
  ⟨⟨0, stPort { port0 with gap := true }, by decide +kernel⟩,
   ⟨0, frame0, 3, [], stPort { port0 with held := [(frame0, 3)] }, by decide +kernel⟩,
   ⟨0, frame0, 4, [], stPort { port0 with held := [(frame0, 4)] }, by decide +kernel⟩,
   ⟨0, stPort { port0 with retraining := true }, by decide +kernel⟩,
   ⟨0, stPort port0, by decide +kernel⟩,
   ⟨47, State.reset, by decide +kernel⟩⟩

theorem witness_RebindingMovesTheLinkToItsDuplicate :
    (∃ (p : PortNo) (s : State), isDup s p = true ∧ dupTarget s p ≠ p ∧ getF s (R.PORT_STA.ACTIVE p) = 0 ∧ (∀ h ∈
      (getPort s (dupTarget s p)).held, h.2 < 4)) ∧
    (∃ (p : PortNo) (s : State), isDup s p = true ∧ dupTarget s p ≠ p ∧ (getPort s (dupTarget s p)).rebinding = true ∧
      (∀ h ∈ (getPort s (dupTarget s p)).held, h.2 < 4)) ∧
    (∃ (p : PortNo) (j : Nat) (s : State), (getPort s p).rebinding = true ∧ dupOf s p = some j) ∧
    (∃ (p : PortNo) (s : State), (getPort s p).rebinding = true) ∧
    (∃ (p : PortNo) (s : State), getF s (R.PORT_STA.UP p) = 1) :=
  ⟨⟨1, st (dupFs ++ pairFs), by decide +kernel⟩,
   ⟨1, { st (dupFs ++ pairFs) with ports := [(0, { port0 with rebinding := true })] }, by decide +kernel⟩,
   ⟨0, 1, { st (dupFs ++ pairFs) with ports := [(0, { port0 with rebinding := true })] }, by decide +kernel⟩,
   ⟨0, stPort { port0 with rebinding := true }, by decide +kernel⟩,
   ⟨0, stPort port0, by decide +kernel⟩⟩

theorem witness_ContributionsAndSignaturesAreCollected :
    (∃ (part : Nat) (pl : Plan) (r : Ready) (s : State), r ∈ readyAll s part pl) ∧
    (∃ (part : Fin 4) (ctx : Fin 8) (pl : Plan) (e : CollE) (r : Ready) (s : State), getPlan s part = some pl ∧
      collEntry pl ctx = some e ∧ (readyAll s part pl).find? (fun x => x.ctx == ctx.val && x.seg == r.seg && x.k ==
      r.k) = some r ∧ isFirst (readyAll s part pl) r = true ∧ engineDone s part r (pieceFrames (r.bytes.length / 64))
      = true) ∧
    (∃ (part : Fin 4) (ctx : Fin 8) (seg k : Nat) (pl : Plan) (s : State), getPlan s part = some pl ∧ (∀ r ∈ readyAll
      s part pl, r.ctx = ctx.val → r.seg = seg → r.k = k → isFirst (readyAll s part pl) r = false ∨ engineDone s part
      r (pieceFrames (r.bytes.length / 64)) = false)) ∧
    (∃ (f : Nat) (data : List Byte) (s : State), lockstepOn s = true ∧ running s = true ∧ f ≤ 12 ∧ data.length = (if f
      = 12 then 128 else 256)) ∧
    (∃ (tick : Nat) (s : State), (lockstepOn s = false ∨ running s = false ∨ tick ≠ tickNum s)) :=
  ⟨⟨0, planPair, ready0, stSum, by decide +kernel⟩,
   ⟨0, 0, planPair, collE0, ready0, { stSum with counter := 1 }, by decide +kernel⟩,
   ⟨0, 0, 0, 0, planPair, stHall, by decide +kernel⟩,
   ⟨12, List.replicate 128 0#8, stRunning [(R.FLT_LOCKSTEP_CTL.EN, 1), (R.FLT_LOCKSTEP_STA.ACTIVE, 1)],
     by decide +kernel⟩,
   ⟨1, stRunning [], by decide +kernel⟩⟩

theorem witness_GuestRequestsAreCheckedAndServed :
    (∃ (f : GFlit) (s : State), FromGuest f s ∧ f.type = 1 ∧ formatOk f = true ∧ getF s (R.PG_CTL.EN 0x40) = 1 ∧
      requestCheck s false f = none) ∧
    (∃ (f : GFlit) (s : State), FromGuest f s ∧ f.type = 2 ∧ formatOk f = true ∧ getF s (R.PG_CTL.EN 0x40) = 1 ∧
      requestCheck s true f = none) ∧
    (∃ (f : GFlit) (cause win : Nat) (s : State), FromGuest f s ∧ f.type = 1 ∧ formatOk f = true ∧ getF s (R.PG_CTL.EN
      0x40) = 1 ∧ requestCheck s false f = some (cause, win) ∧ getF s R.GST_VIOL_INFO.VALID = 0) ∧
    (∃ (f : GFlit) (part : Nat) (e : StreamE) (s : State), FromGuest f s ∧ f.type = 5 ∧ formatOk f = true ∧
      guestStream s f.stream = some (part, e) ∧ smGet 0 s.guest.seen f.stream < e.tiles * gTileFlits e.fmt ∧ LandsHere
      (strmFrame e f) s) ∧
    (∃ (sv : Served) (q : GReq) (rest : List GReq) (bs : List Byte) (s : State), s.guest.reqs = q :: rest ∧
      GuestServes sv q s ∧ q.data = some bs ∧ guestUp s = true ∧ guestFenced s = false ∧ s.guest.wait = [] ∧
      s.guest.held.length < 1024) ∧
    (∃ (sv : Served) (q : GReq) (rest : List GReq) (s : State), s.guest.reqs = q :: rest ∧ GuestServes sv q s ∧ q.data
      = none ∧ guestUp s = true ∧ guestFenced s = false ∧ s.guest.wait = [] ∧ s.guest.held.length < 1024) :=
  ⟨⟨gSealed { gflit0 with type := 1, len := 4, addr := 2 ^ 12 - 256 }, stGuest [],
    by (unfold FromGuest; decide +kernel)⟩,
   ⟨gSealed { gflit0 with type := 2, len := 1, addr := 0, payload := List.replicate 64 1#8 }, stGuest
     [(R.STK_CHAN_CLASS.CELLAR 0, 1)], by (unfold FromGuest; decide +kernel)⟩,
   ⟨gSealed { gflit0 with type := 1, len := 4, addr := 2 ^ 12 }, 3, 0, stGuest [],
     by (unfold FromGuest; decide +kernel)⟩,
   ⟨gSealed { gflit0 with type := 5, len := 1, stream := 9 }, 0, guestE,
     { stGuest [(R.TICK_NUM.RUN, 1)] with plans := [(0, some { plan0 with streams := [guestE] })] },
     by (unfold LandsHere FromGuest; decide +kernel)⟩,
   ⟨sv0 19968, gReqW, [], List.replicate 64 1#8, stServe gReqW, by (unfold GuestServes Clean; decide +kernel)⟩,
   ⟨sv0 19968, gReqR, [], stServe gReqR, by (unfold GuestServes Clean; decide +kernel)⟩⟩

theorem witness_GuestLinkPowerAndReset :
    (∃ (f : GFlit) (s : State), guestUp s = true ∧ gCrc f = f.crc ∧ guestFenced s = false ∧ f.type = 8 ∧ f.len = 0 ∧
      bitsOf f.addr 12 1 = 1 ∧ bitsOf f.addr 13 1 = 0 ∧ gDist (f.addr % 4096) (gOldest s.guest) ≤ s.guest.held.length
      ∧ s.guest.wait = []) ∧
    (∃ (s : State), guestUp s = true) ∧
    (∃ (s : State), guestUp s = true ∧ s.guest.held ≠ [] ∧ (∀ h ∈ s.guest.held, h.2 < 4)) ∧
    (∃ (byGuest : Bool) (s : State), getF s R.GST_STA.LINK_UP = 1 ∧ (s.guest.retraining = true ∨ byGuest = true) ∧
      (s.guest.held.all fun h => h.1.type != 6) = true ∧ s.guest.wait = []) ∧
    (∃ (byGuest : Bool) (s : State), getF s R.GST_STA.LINK_UP = 1 ∧ (s.guest.retraining = true ∨ byGuest = true) ∧
      s.guest.wait = []) ∧
    (∃ (s : State), s.guest.retraining = false) ∧
    (∃ (s : State), getF s R.GST_STA.MOD0_UP = 1) ∧
    (∃ (s : State), s.fuse.guestOption = true) ∧
    (∃ (s : State), s.fuse.guestOption = true ∧ (running s && guestBound s) = false) ∧
    (∃ (s : State), s.fuse.guestOption = true ∧ running s = true ∧ guestBound s = true) ∧
    (∃ (s : State), getF s R.GST_STA.IN_RESET = 1) ∧
    (∃ (f : List Byte) (s : State), getF s R.GST_STA.IN_RESET = 1 ∧ guestFrame f = true ∧ guestRegNo f =
      s.fuse.guestReg) ∧
    (∃ (f : List Byte) (s : State), getF s R.GST_STA.IN_RESET = 1 ∧ guestFrame f = true ∧ guestRegNo f ≠
      s.fuse.guestReg) :=
  ⟨⟨gSealed { gflit0 with type := 8, addr := 2 ^ 12 + 1 },
    { stGuest [] with guest := { guest0 with seq := 1, held := [(gflit0, 1)] } }, by decide +kernel⟩,
   ⟨stGuest [], by decide +kernel⟩,
   ⟨{ stGuest [] with guest := { guest0 with seq := 1, held := [(gflit0, 3)] } }, by decide +kernel⟩,
   ⟨false, { stGuest [] with guest := { guest0 with seq := 1, held := [(gflit0, 4)], retraining := true } },
     by decide +kernel⟩,
   ⟨true, { stGuest [] with guest := { guest0 with seq := 1, held := [({ gflit0 with type := 6 }, 4)] } },
     by decide +kernel⟩,
   ⟨stGuest [], by decide +kernel⟩,
   ⟨stGuest [(R.GST_STA.MOD0_UP, 1)], by decide +kernel⟩,
   ⟨stGuest [], by decide +kernel⟩,
   ⟨stGuest [], by decide +kernel⟩,
   ⟨{ stGuest [(R.TICK_NUM.RUN, 1)] with plans := [(0, some { plan0 with streams := [guestE] })] }, by decide +kernel⟩,
   ⟨st [(R.GST_STA.IN_RESET, 1)], by decide +kernel⟩,
   ⟨discFrame 2 3 0 0 unitId0, st [(R.GST_STA.IN_RESET, 1)], by decide +kernel⟩,
   ⟨discFrame 2 3 0 0 { unitId0 with part := 1023 }, st [(R.GST_STA.IN_RESET, 1)], by decide +kernel⟩⟩

theorem witness_DiscoveryAndBundleReplay :
    (∃ (d : DieNo) (port : Fin 3) (frame : List Byte) (s : State), probing s = true ∧ discGood frame = true ∧ frame =
      (getDisc s (4 + (3 * d.val + port.val))).req) ∧
    (∃ (d : DieNo) (frame : List Byte) (s : State), probing s = true ∧ discGood frame = true ∧ frame = (getDisc s
      d).req) ∧
    (∃ (d : DieNo) (port : Option (Fin 3)) (frame : List Byte) (s : State), (probing s = false ∨ discGood frame =
      false ∨ frame ≠ (getDisc s (discKey d port)).req)) ∧
    (∃ (d : DieNo) (port : Option (Fin 3)) (frame : List Byte) (s : State), probing s = true ∧ discGood frame = true ∧
      frame = (getDisc s (discKey d port)).rsp ∧ (getDisc s (discKey d port)).gaveUp = false) ∧
    (∃ (d : DieNo) (port : Option (Fin 3)) (s : State), probing s = true ∧ (getDisc s (discKey d port)).answered =
      false ∧ (getDisc s (discKey d port)).gaveUp = false ∧ 0 < (getDisc s (discKey d port)).tries ∧ (getDisc s
      (discKey d port)).tries < 10) ∧
    (∃ (d : DieNo) (s : State), probing s = true ∧ (getDisc s d).answered = false ∧ (getDisc s d).gaveUp = false ∧ 10
      ≤ (getDisc s d).tries ∧ (getDisc s d).bundle < 24) ∧
    (∃ (d b e x : Nat) (s : State), d < 4 ∧ b < 24 ∧ crossConnect s d b = some (e, x)) ∧
    (∃ (d : DieNo) (b : Fin 24) (seq : Nat) (s : State), seq % 1024 ∉ resendsOf s (bundleKey d b) ∧ (∀ x ∈ resendsOf s
      (bundleKey d b), x ∈ flitsOf (holdFlit (bundleKey d b) (seq % 1024) s) (bundleKey d b))) ∧
    (∃ (d : DieNo) (b : Fin 24) (seq x : Nat) (s : State), seq % 1024 ∉ resendsOf s (bundleKey d b) ∧ x ∈ resendsOf s
      (bundleKey d b) ∧ x ∉ flitsOf (holdFlit (bundleKey d b) (seq % 1024) s) (bundleKey d b)) ∧
    (∃ (d : DieNo) (b : Fin 24) (seq : Nat) (s : State), seq % 1024 ∈ resendsOf s (bundleKey d b)) :=
  ⟨⟨0, 2, probe0, stProbe 6 { disc0 with req := probe0 }, by decide +kernel⟩,
   ⟨0, probe0, stProbe 0 { disc0 with req := probe0 }, by decide +kernel⟩,
   ⟨0, none, probe0, stProbe 0 disc0, by decide +kernel⟩,
   ⟨0, some 2, probe0, stProbe 6 { disc0 with rsp := probe0 }, by decide +kernel⟩,
   ⟨0, none, stProbe 0 { disc0 with tries := 9 }, by decide +kernel⟩,
   ⟨0, stProbe 0 { disc0 with tries := 10, bundle := 23 }, by decide +kernel⟩,
   ⟨0, 0, 3, 23, st [(R.EDGE_ROLE_LO.ROLE 0, 2), (R.EDGE_ROLE_HI.ROLE 3, 3 * 2 ^ 14)], by decide +kernel⟩,
   ⟨3, 23, 0, stBundle [1023], by decide +kernel⟩,
   ⟨3, 23, 5, 1023, stBundle [], by decide +kernel⟩,
   ⟨3, 23, 1023, stBundle [1023], by decide +kernel⟩⟩

theorem witness_DrainReleaseAndTestContent :
    (∃ (s : State), running s = true ∧ s.tick.draining = false) ∧
    (∃ (s : State), running s = false) ∧
    (∃ (d : Nat) (s : State), running s = true ∧ s.tick.draining = false ∧ s.tick.faultDrain = false ∧ getF s
      R.FLT_DRAIN_CMD.AT_TICK = 1 ∧ tickCmp (getF s R.FLT_DRAIN_CMD.TICK) (tickNum s) = .newer d ∧ 2 ≤ d) ∧
    (∃ (s : State), s.tick.draining = true) ∧
    (∃ (s : State), topState s = stDrain ∧ getF s R.FLT_STA.DRAINED = 1) ∧
    (∃ (s : State), (topState s ≠ stDrain ∨ getF s R.FLT_STA.DRAINED = 0)) ∧
    (∃ (c : CoreId) (e : Engine) (n j : Nat) (s : State), TestCompares c e n j s) ∧
    (∃ (c : CoreId) (e : Engine) (n j a b : Nat) (s : State), TestCompares c e n j s ∧ a ≠ b) :=
  ⟨⟨stRunning [], by decide +kernel⟩,
   ⟨State.reset, by decide +kernel⟩,
   ⟨2, stRunning [(R.FLT_DRAIN_CMD.AT_TICK, 1), (R.FLT_DRAIN_CMD.TICK, 2)], by decide +kernel⟩,
   ⟨{ stRunning [] with tick := { State.reset.tick with draining := true } }, by decide +kernel⟩,
   ⟨st [(R.TOP_STATE.STATE, stDrain), (R.FLT_STA.DRAINED, 1)], by decide +kernel⟩,
   ⟨st [(R.TOP_STATE.STATE, stDrain)], by decide +kernel⟩,
   ⟨c000, .ae0, 0, 0, st [(R.TST_CTL.EN, 1)], by (unfold TestCompares; decide +kernel)⟩,
   ⟨c000, .ae0, 0, 0, 1, 2, st [(R.TST_CTL.EN, 1)], by (unfold TestCompares; decide +kernel)⟩⟩

theorem witness_InputSwitchOpensAndCloses :
    (∃ (s : State), s.hearth.closed = false ∧ s.hearth.ocLatch = false) ∧
    (∃ (s : State), (s.hearth.closed = true ∨ s.hearth.ocLatch = true)) ∧
    (∃ (i : Instr) (cause : Nat) (s : State), s.hearth.closed = true ∧ (i, cause) ∈ [(.inputUndervoltage false, 2),
      (.inputUndervoltage true, 2), (.inputOvervoltage, 3), (.inputOvercurrent, 4), (.inputReverseCurrent, 2)]) ∧
    (∃ (i : Instr) (s : State), s.hearth.closed = false ∧ i ∈ [.inputUndervoltage false, .inputOvervoltage,
      .inputOvercurrent]) ∧
    (∃ (s : State), s.hearth.closed = true) :=
  ⟨⟨State.reset, by decide⟩,
   ⟨stServed [], by decide⟩,
   ⟨.inputOvercurrent, 4, stServed [], by decide⟩,
   ⟨.inputOvercurrent, State.reset, by decide⟩,
   ⟨stServed [], by decide⟩⟩

theorem witness_LimiterActsAfterBallast :
    (∃ (m : Meter) (s : State), m.avg10us ≤ 5600 ∧ m.above10ms = false ∧ m.avg100ms ≤ getF s R.HTH_CAP_EFF.CAP ∧ (getF
      s R.TOP_MODE.BOOST = 1 ∨ running s = false ∨ m.energy < energyBound s)) ∧
    (∃ (m : Meter) (c : Nat) (s : State), ((c = 0 ∧ 5600 < m.avg10us) ∨ (c = 1 ∧ m.avg10us ≤ 5600 ∧ m.above10ms =
      true) ∨ (c = 2 ∧ m.avg10us ≤ 5600 ∧ m.above10ms = false ∧ getF s R.HTH_CAP_EFF.CAP < m.avg100ms) ∨ (c = 3 ∧
      m.avg10us ≤ 5600 ∧ m.above10ms = false ∧ m.avg100ms ≤ getF s R.HTH_CAP_EFF.CAP ∧ getF s R.TOP_MODE.BOOST = 0 ∧
      running s = true ∧ energyBound s ≤ m.energy)) ∧ s.hearth.ballast ≠ 0) ∧
    (∃ (m : Meter) (c : Nat) (s : State), ((c = 0 ∧ 5600 < m.avg10us) ∨ (c = 1 ∧ m.avg10us ≤ 5600 ∧ m.above10ms =
      true) ∨ (c = 2 ∧ m.avg10us ≤ 5600 ∧ m.above10ms = false ∧ getF s R.HTH_CAP_EFF.CAP < m.avg100ms) ∨ (c = 3 ∧
      m.avg10us ≤ 5600 ∧ m.above10ms = false ∧ m.avg100ms ≤ getF s R.HTH_CAP_EFF.CAP ∧ getF s R.TOP_MODE.BOOST = 0 ∧
      running s = true ∧ energyBound s ≤ m.energy)) ∧ s.hearth.ballast = 0) :=
  ⟨⟨{ meter0 with avg10us := 5600 }, State.reset, by decide⟩,
   ⟨{ meter0 with avg10us := 5601 }, 0, { State.reset with hearth := { hearth0 with ballast := 1 } }, by decide⟩,
   ⟨{ meter0 with energy := 1 }, 3, stRunning [], by decide⟩⟩

theorem witness_ClocksAndBallastFollowTheirBudgets :
    (∃ (s : State), getF s R.HTH_BALLAST.EN = 1 ∧ s.hearth.atLimit = false ∧ s.hearth.resync = false) ∧
    (∃ (s : State), (getF s R.HTH_BALLAST.EN ≠ 1 ∨ s.hearth.atLimit = true ∨ s.hearth.resync = true)) ∧
    (∃ (d : Draw) (a b : Nat) (s : State), d.currents = some (a, b) ∧ getF s R.HTH_RAMP_LIMIT.RAMP * 1000 < max a b -
      min a b) ∧
    (∃ (d : Draw) (a b : Nat) (s : State), d.currents = some (a, b) ∧ max a b - min a b ≤ getF s R.HTH_RAMP_LIMIT.RAMP
      * 1000) :=
  ⟨⟨{ State.reset with hearth := { hearth0 with resync := false } }, by decide⟩,
   ⟨State.reset, by decide⟩,
   ⟨{ work := 100, idle := 0, currents := some (0, 40001) }, 0, 40001, State.reset, by decide⟩,
   ⟨{ work := 100, idle := 0, currents := some (0, 40000) }, 0, 40000, State.reset, by decide⟩⟩

theorem witness_TemperaturesSetTheCapsAndTrip :
    (∃ (s : State), s.hearth.trip = false) ∧
    (∃ (s : State), s.hearth.trip = true) ∧
    (∃ (k : StackNo) (s : State), 1600 ≤ ofTwos16 (getF s (R.STK_TEMP.TEMP k))) ∧
    (∃ (k : StackNo) (s : State), ofTwos16 (getF s (R.STK_TEMP.TEMP k)) < 1600) :=
  ⟨⟨State.reset, by decide⟩,
   ⟨{ State.reset with hearth := { hearth0 with trip := true } }, by decide⟩,
   ⟨11, st [(R.STK_TEMP.TEMP 11, 1600)], by decide⟩,
   ⟨11, st [(R.STK_TEMP.TEMP 11, 1599)], by decide⟩⟩

theorem witness_CoolantIsEstimatedAndChecked :
    (∃ (power : Nat) (rise : Int) (s : State), target s 1 = none ∧ 400 ≤ power ∧ 48 ≤ 10 * rise) ∧
    (∃ (power : Nat) (rise : Int) (s : State), target s 1 = none ∧ (power < 400 ∨ 10 * rise < 48)) ∧
    (∃ (f : Nat) (s : State), s.hearth.flow = some f ∧ f < 400) ∧
    (∃ (f : Nat) (s : State), s.hearth.flow = some f ∧ 400 ≤ f) ∧
    (∃ (x : Int) (s : State), s.hearth.inlet = some x ∧ 720 < x) ∧
    (∃ (x : Int) (s : State), s.hearth.inlet = some x ∧ x ≤ 720) ∧
    (∃ (power : Nat) (s : State), checkRuns s = true ∧ 400 ≤ power ∧ 48 ≤ 10 * (ofTwos16 (getF s
      R.HTH_COOLANT_T.OUTLET) - ofTwos16 (getF s R.HTH_COOLANT_T.INLET))) ∧
    (∃ (power : Nat) (s : State), checkRuns s = true ∧ 400 ≤ power ∧ 10 * (ofTwos16 (getF s R.HTH_COOLANT_T.OUTLET) -
      ofTwos16 (getF s R.HTH_COOLANT_T.INLET)) ≤ -48 ∧ getF s R.HTH_COOLANT_STA.REVERSED = 0) ∧
    (∃ (power : Nat) (s : State), (s.hearth.closed = false ∨ getF s R.BU_PHASE.PHASE = 0 ∨ power < 400)) :=
  ⟨⟨400, 5, State.reset, by decide⟩,
   ⟨400, 4, State.reset, by decide⟩,
   ⟨399, { State.reset with hearth := { hearth0 with flow := some 399 } }, by decide⟩,
   ⟨400, { State.reset with hearth := { hearth0 with flow := some 400 } }, by decide⟩,
   ⟨721, { State.reset with hearth := { hearth0 with inlet := some 721 } }, by decide⟩,
   ⟨720, { State.reset with hearth := { hearth0 with inlet := some 720 } }, by decide⟩,
   ⟨400, stServed [(R.BU_PHASE.PHASE, 1), (R.HTH_COOLANT_T.OUTLET, 5)], by decide⟩,
   ⟨400, stServed [(R.BU_PHASE.PHASE, 1), (R.HTH_COOLANT_T.OUTLET, 2 ^ 16 - 5)], by decide⟩,
   ⟨399, stServed [], by decide⟩⟩

theorem witness_SensorBusPollsAndFences :
    (∃ (s : State), getF s R.SNS_BUS_CTL.EN = 1 ∧ getF s R.SNS_BUS_STA.FENCED = 0) ∧
    (∃ (s : State), (getF s R.SNS_BUS_CTL.EN = 0 ∨ getF s R.SNS_BUS_STA.FENCED = 1)) ∧
    (∃ (n : Fin 8) (s : State), getF s R.SNS_BUS_CTL.EN = 1 ∧ getF s R.SNS_BUS_STA.FENCED = 0 ∧ getF s
      (R.SNS_TARGET.STATE n) = 2) ∧
    (∃ (s : State), getF s R.SNS_BUS_STA.FENCED = 1 ∧ s.sns.asked = false) ∧
    (∃ (s : State), (getF s R.SNS_BUS_STA.FENCED = 0 ∨ s.sns.asked = true)) :=
  ⟨⟨State.reset, by decide⟩,
   ⟨st [(R.SNS_BUS_STA.FENCED, 1)], by decide⟩,
   ⟨7, st [(R.SNS_TARGET.STATE 7, 2)], by decide⟩,
   ⟨st [(R.SNS_BUS_STA.FENCED, 1)], by decide⟩,
   ⟨{ st [(R.SNS_BUS_STA.FENCED, 1)] with sns := { nacks := [], asked := true } }, by decide⟩⟩

theorem witness_BringupPhasesRunInTheirOrder :
    (∃ (i : Instr) (k : Nat) (s0 s1 : Bool) (reg : Option (List Byte)) (bad : List (Nat × Bool)) (tr : TrainRes) (c :
      CheckRes) (x : SelfRes) (s : State), (i, k) ∈ [(.bringupP0, 0), (.fwAuth s0 s1, 1), (.discovery reg, 2),
      (.atticRestore bad, 3), (.training tr, 4), (.errorRateCheck c, 5), (.selfTest x, 6), (.bringupZeroing, 7),
      (.ready, 8)] ∧ (s.hearth.closed = false ∨ s.bu.next ≠ k)) ∧
    (∃ (s : State), s.hearth.closed = true ∧ s.bu.next = 0 ∧ s.hearth.trip = false ∧ getF s R.FLT_SUSPECT.FLAGGED = 0) ∧
    (∃ (s : State), s.hearth.closed = true ∧ s.bu.next = 0 ∧ s.hearth.trip = true) ∧
    (∃ (s0 s1 : Bool) (s : State), s.hearth.closed = true ∧ s.bu.next = 1 ∧ (s0 = true ∨ s1 = true) ∧ getF s
      R.FLT_SUSPECT.FLAGGED = 0) ∧
    (∃ (s0 s1 : Bool) (s : State), s.hearth.closed = true ∧ s.bu.next = 1 ∧ s0 = false ∧ s1 = false) ∧
    (∃ (s : State), s.hearth.closed = true ∧ s.bu.next = 2 ∧ (∀ d, d < 4 → dieSilent s d = false) ∧ getF s
      R.FLT_SUSPECT.FLAGGED = 0) ∧
    (∃ (s : State), s.hearth.closed = true ∧ s.bu.next = 2 ∧ (∃ d, d < 4 ∧ dieSilent s d = true)) ∧
    (∃ (s : State), s.hearth.closed = true ∧ s.bu.next = 7 ∧ getF s R.FLT_SUSPECT.FLAGGED = 0) ∧
    (∃ (s : State), s.hearth.closed = true ∧ s.bu.next = 8) :=
  ⟨⟨.ready, 8, false, false, none, [], train0, check0, self0, State.reset, by decide⟩,
   ⟨stPhase 0 [], by decide⟩,
   ⟨{ stPhase 0 [] with hearth := { hearth0 with closed := true, trip := true } }, by decide⟩,
   ⟨true, false, stPhase 1 [], by decide⟩,
   ⟨false, false, stPhase 1 [], by decide⟩,
   ⟨{ stPhase 2 [] with bu := { bringup0 with next := 2, disc := (List.range 16).map fun k => (k, { disc0 with answered := true }) } },
     by decide⟩,
   ⟨stPhase 2 [], by decide⟩,
   ⟨stPhase 7 [], by decide⟩,
   ⟨stPhase 8 [], by decide⟩⟩

theorem witness_RestoreBringsBackTheRecordedSettings :
    ∃ (s : State), s.hearth.closed = true ∧ s.bu.next = 3 ∧ getF s R.FLT_SUSPECT.FLAGGED = 0 :=
  ⟨stPhase 3 [], by decide⟩

theorem witness_TrainingChecksAndTheSelfTestPrepareTheDies :
    (∃ (s : State), s.hearth.closed = true ∧ s.bu.next = 4 ∧ getF s R.FLT_SUSPECT.FLAGGED = 0) ∧
    (∃ (s : State), s.hearth.closed = true ∧ s.bu.next = 5 ∧ getF s R.FLT_SUSPECT.FLAGGED = 0) ∧
    (∃ (s : State), s.hearth.closed = true ∧ s.bu.next = 6 ∧ getF s R.FLT_SUSPECT.FLAGGED = 0) :=
  ⟨⟨stPhase 4 [], by decide⟩,
   ⟨stPhase 5 [], by decide⟩,
   ⟨stPhase 6 [], by decide⟩⟩

theorem witness_ResetsStartABringupOrClearTheHostInterface :
    (∃ (w : Word) (s : State), regsServed s = true ∧ w.toNat % 2 = 1 ∧ w.toNat / 2 ^ 16 = 0xA5A5 ∧ (topState s =
      stReady ∨ topState s = stDrain ∨ topState s = stFlagged)) ∧
    (∃ (w : Word) (s : State), regsServed s = true ∧ (w.toNat % 2 = 0 ∨ w.toNat / 2 ^ 16 ≠ 0xA5A5 ∨ topState s =
      stBringup ∨ topState s = stRun)) ∧
    (∃ (v : Fin 4) (s : State), (regsServed s = false ∨ v ≠ 0)) ∧
    (∃ (i : Instr) (s : State), i ∈ [.perstN, .hotReset] ∧ s.hearth.closed = true) ∧
    (∃ (i : Instr) (s : State), i ∈ [.perstN, .hotReset] ∧ s.hearth.closed = false) ∧
    (∃ (s : State), s.hearth.closed = true) :=
  ⟨⟨0xA5A50001#32, stServed [(R.TOP_STATE.STATE, stFlagged)], by decide⟩,
   ⟨0xA5A40001#32, stServed [(R.TOP_STATE.STATE, stReady)], by decide⟩,
   ⟨3, stServed [], by decide⟩,
   ⟨.hotReset, stServed [], by decide⟩,
   ⟨.perstN, State.reset, by decide⟩,
   ⟨stServed [], by decide⟩⟩

theorem witness_AtticRecordsAreWrittenInTurn :
    (∃ (r : Nat) (c : List Nat) (s : State), s.attic.writing = some (r, c)) ∧
    (∃ (s : State), s.attic.writing = none) ∧
    (∃ (s : State), s.hearth.closed = true) ∧
    (∃ (s : State), getF s R.ATTIC_RESTORE_STA.DONE = 1 ∧ s.attic.writing = none ∧ s.attic.queue = []) ∧
    (∃ (s : State) (r : Nat) (c : List Nat), getF s R.ATTIC_RESTORE_STA.DONE = 1 ∧ s.attic.writing = some (r, c)) ∧
    (∃ (s : State), getF s R.ATTIC_RESTORE_STA.DONE = 1 ∧ topState s ≠ stRun ∧ topState s ≠ stBringup) ∧
    (∃ (i : Instr) (s : State), i ∈ [.atticSync, .clearSettings] ∧ getF s R.ATTIC_RESTORE_STA.DONE = 0) ∧
    (∃ (s : State), (topState s = stRun ∨ topState s = stBringup)) ∧
    (∃ (s : State), regsServed s = true) :=
  ⟨⟨0, [0], { stServed [] with attic := { attic0 with writing := some (0, [0]) } }, by decide⟩,
   ⟨stServed [], by decide⟩,
   ⟨stServed [], by decide⟩,
   ⟨stServed [], by decide⟩,
   ⟨{ stServed [] with attic := { attic0 with writing := some (0, [0]) } }, 0, [0], by decide⟩,
   ⟨stServed [(R.TOP_STATE.STATE, stReady)], by decide⟩,
   ⟨.clearSettings, State.reset, by decide⟩,
   ⟨stServed [], by decide⟩,
   ⟨stServed [], by decide⟩⟩

theorem witness_PartitionsChangeHandsAndRun :
    (∃ (s : State), getF s R.PART_ZERO_STA.REGIONS = 0 ∧ (getF s R.PART_OWNER_CMD.TO ≤ 3 ∨ getF s R.PART_OWNER_CMD.TO
      = 7) ∧ (∀ r ∈ ((List.range (getF s R.PART_OWNER_CMD.COUNT)).map (getF s R.PART_OWNER_CMD.FIRST + ·)),
      regionExists s r = true ∧ planLists s r = false)) ∧
    (∃ (s : State), (getF s R.PART_ZERO_STA.REGIONS = 1 ∨ ∃ r ∈ ((List.range (getF s R.PART_OWNER_CMD.COUNT)).map
      (getF s R.PART_OWNER_CMD.FIRST + ·)), regionExists s r = false ∨ planLists s r = true)) ∧
    (∃ (s : State), (getF s R.PART_ZERO_STA.CORES = 1 ∨ getF s R.PART_ZERO_STA.LANDING = 1)) ∧
    (∃ (s : State), getF s R.PART_ZERO_STA.CORES = 0 ∧ getF s R.PART_ZERO_STA.LANDING = 0 ∧ getF s
      R.PART_ZERO_STA.REGIONS = 1) ∧
    (∃ (d : Nat) (s : State), running s = true ∧ tickCmp (getF s R.PART_RUN.TICK) (tickNum s) = .newer d ∧ 2 ≤ d ∧
      (getF s R.PART_RUN.PART) ≠ 0 ∧ partVal s (getF s R.PART_RUN.PART) 6 = 1 ∧ (getPlan s (getF s
      R.PART_RUN.PART)).isSome = true ∧ secRunning s (getF s R.PART_RUN.PART) = false ∧ isFiller s (getF s
      R.PART_RUN.PART) = false) ∧
    (∃ (d : Nat) (s : State), running s = true ∧ tickCmp (getF s R.PART_RUN.TICK) (tickNum s) = .newer d ∧ d < 2) ∧
    (∃ (d : Nat) (s : State) (q : _), running s = true ∧ tickCmp (getF s R.PART_RUN.TICK) (tickNum s) = .newer d ∧
      smGet none s.secs (getF s R.PART_RUN.PART) = some q ∧ 1 ≤ d) ∧
    (∃ (d : Nat) (s : State), running s = true ∧ tickCmp (getF s R.PART_RUN.TICK) (tickNum s) = .newer d ∧ smGet none
      s.secs (getF s R.PART_RUN.PART) = none) ∧
    (∃ (i : Instr) (s : State), i ∈ [.partRunStart, .partRunStop] ∧ running s = false) ∧
    (∃ (w : Word) (s : State), regsServed s = true ∧ pageOpen s 0x06 = true ∧ running s = false ∧ w.toNat / 4 % 4 = 0
      ∧ crossOk s 0x06 = true) :=
  ⟨⟨st [(R.PART_OWNER_CMD.FIRST, 3071), (R.PART_OWNER_CMD.COUNT, 1), (R.PART_OWNER_CMD.TO, 7)], by decide +kernel⟩,
   ⟨st [(R.PART_OWNER_CMD.FIRST, 3072), (R.PART_OWNER_CMD.COUNT, 1)], by decide +kernel⟩,
   ⟨st [(R.PART_ZERO_STA.LANDING, 1)], by decide +kernel⟩,
   ⟨st [(R.PART_ZERO_STA.REGIONS, 1)], by decide +kernel⟩,
   ⟨2,
     { stRunning [(R.PART_RUN.PART, 1), (R.PART_RUN.TICK, 2)] with plans := [(1, some { plan0 with part := 1 })], hif := { hif0 with partAt := [(1, [1, 0, 9, 0, 9, 0, 1, 0, 0])] } },
     by decide +kernel⟩,
   ⟨1, stRunning [(R.PART_RUN.PART, 1), (R.PART_RUN.TICK, 1)], by decide +kernel⟩,
   ⟨1,
     { stRunning [(R.PART_RUN.PART, 1), (R.PART_RUN.TICK, 1)] with secs := [(1, some { start := 0, stop := none })] },
     { start := 0, stop := none }, by decide +kernel⟩,
   ⟨1, stRunning [(R.PART_RUN.PART, 1), (R.PART_RUN.TICK, 1)], by decide +kernel⟩,
   ⟨.partRunStop, State.reset, by decide +kernel⟩,
   ⟨0xFFFFFFF3#32, stServed [], by decide +kernel⟩⟩

theorem witness_RegisterWritesFollowTheirViewsAndRights :
    (∃ (view off : Nat) (w : Word) (s : State), regsServed s = true ∧ pageOpen s 0x03 = true ∧ view < 4 ∧ 0x20 ≤ off ∧
      assigned 0x03 off = true ∧ getF s (R.PG_CTL.EN 0x03) = 0 ∧ (∀ e ∈ (takenFields s false view w.toNat (regFlds
      (.pf 0) 0x03 off)), fieldOk s e.1 e.2 = true) ∧ crossOk (setFs s (takenFields s false view w.toNat (regFlds (.pf
      0) 0x03 off))) 0x03 = true) ∧
    (∃ (view off : Nat) (w : Word) (s : State), regsServed s = true ∧ pageOpen s 0x03 = true ∧ view < 4 ∧ 0x20 ≤ off ∧
      assigned 0x03 off = true ∧ getF s (R.PG_CTL.EN 0x03) = 0 ∧ ((∃ e ∈ (takenFields s false view w.toNat (regFlds
      (.pf 0) 0x03 off)), fieldOk s e.1 e.2 = false) ∨ crossOk (setFs s (takenFields s false view w.toNat (regFlds
      (.pf 0) 0x03 off))) 0x03 = false)) ∧
    (∃ (view off : Nat) (s : State), regsServed s = true ∧ pageOpen s 0x03 = true ∧ view < 4 ∧ 0x20 ≤ off ∧ assigned
      0x03 off = true ∧ getF s (R.PG_CTL.EN 0x03) = 1 ∧ (∃ f ∈ pageFlds 0x03, f.off = off ∧ f.acc = .rwd)) ∧
    (∃ (n : Fin 4) (pg view off : Nat) (s : State), regsServed s = true ∧ pageOpen s pg = true ∧ view < 4 ∧ assigned
      pg off = true ∧ n ≠ 0 ∧ pg ∉ [0x06, 0x41, 0x50, 0x52] ∧ ¬ (pg = 0 ∧ off = 0x64)) ∧
    (∃ (pg view off : Nat) (s : State), view < 16 ∧ off < 2 ^ 12 ∧ (regsServed s = false ∨ 4 ≤ view ∨ assigned pg off
      = false)) ∧
    (∃ (pg view off : Nat) (s : State), regsServed s = true ∧ pageOpen s pg = true ∧ postedPage pg = true ∧ view < 4 ∧
      assigned pg off = true ∧ off ≠ 0x14 ∧ off ≠ 0x18 ∧ getF s (R.PG_STA.WBUSY pg) = 0) ∧
    (∃ (pg view off : Nat) (s : State), regsServed s = true ∧ pageOpen s pg = true ∧ postedPage pg = true ∧ view < 4 ∧
      assigned pg off = true ∧ off ≠ 0x14 ∧ off ≠ 0x18 ∧ getF s (R.PG_STA.WBUSY pg) = 1) ∧
    (∃ (n view off w : Nat) (s : State), smGet none s.hif.posted 0x04 = some (n, view, off, w) ∧ view < 4 ∧ 0x20 ≤ off
      ∧ getF s (R.PG_CTL.EN 0x04) = 0 ∧ (∀ e ∈ takenFields s false view w (regFlds (reqOf n) 0x04 off), fieldOk s e.1
      e.2 = true)) ∧
    (∃ (pg : Nat) (s : State), smGet none s.hif.posted pg = none) ∧
    (∃ (pg : Nat) (s : State), regsServed s = true ∧ pageOpen s pg = true ∧ pg ∈ [0x00, 0x02, 0x05, 0x08, 0x10, 0x18,
      0x41, 0x42, 0x50, 0x51] ∧ getF s (R.PG_CTL.EN pg) = 0) ∧
    (∃ (pg : Nat) (s : State), regsServed s = true ∧ pageOpen s pg = true ∧ pg ∈ [0x00, 0x02, 0x05, 0x08, 0x10, 0x18,
      0x41, 0x42, 0x50, 0x51] ∧ getF s (R.PG_CTL.EN pg) = 1 ∧ (running s = false ∨ enClearRunning pg = true)) ∧
    (∃ (pg : Nat) (s : State), regsServed s = true ∧ pageOpen s pg = true ∧ pg ∈ [0x00, 0x02, 0x05, 0x08, 0x10, 0x18,
      0x41, 0x42, 0x50, 0x51] ∧ getF s (R.PG_CTL.EN pg) = 1 ∧ running s = true ∧ enClearRunning pg = false) :=
  ⟨⟨0, 0x48, 4000#32, stServed [], by decide +kernel⟩,
   ⟨1, 0x48, 2#32, stServed [], by decide +kernel⟩,
   ⟨0, 0x48, stServed [(R.PG_CTL.EN 0x03, 1)], by decide +kernel⟩,
   ⟨3, 0x03, 0, 0x48, stServed [], by decide +kernel⟩,
   ⟨0x03, 4, 0x48, stServed [], by decide +kernel⟩,
   ⟨0x04, 3, 0x40, stServed [], by decide +kernel⟩,
   ⟨0x04, 3, 0x40, stServed [(R.PG_STA.WBUSY 0x04, 1)], by decide +kernel⟩,
   ⟨0, 0, 0x50, 3, { stServed [] with hif := { hif0 with posted := [(4, some (0, 0, 0x50, 3))] } }, by decide +kernel⟩,
   ⟨0x04, State.reset, by decide +kernel⟩,
   ⟨0x51, stServed [], by decide +kernel⟩,
   ⟨0x50, stServed [(R.PG_CTL.EN 0x50, 1), (R.TICK_NUM.RUN, 1)], by decide +kernel⟩,
   ⟨0x00, stServed [(R.PG_CTL.EN 0x00, 1), (R.TICK_NUM.RUN, 1)], by decide +kernel⟩⟩

theorem witness_AcknowledgementsAreMadeAgainstTheSequence :
    (∃ (r : Req) (pg : Nat) (w : Word) (s : State), regsServed s = true ∧ pageOpen s pg = true ∧ pageExists pg = true
      ∧ mayWrite s r pg 0x14 0 = true ∧ w.toNat / 2 ^ 16 = getF s (R.PG_EVT_SEQ.SEQ (hdrPage r pg)) ∧ smGet false
      s.hif.lapped (hdrPage r pg) = false) ∧
    (∃ (r : Req) (pg : Nat) (w : Word) (s : State), regsServed s = true ∧ pageOpen s pg = true ∧ pageExists pg = true
      ∧ mayWrite s r pg 0x14 0 = true ∧ (w.toNat / 2 ^ 16 ≠ getF s (R.PG_EVT_SEQ.SEQ (hdrPage r pg)) ∨ smGet false
      s.hif.lapped (hdrPage r pg) = true)) ∧
    (∃ (e : Ev) (p : Nat), p ≠ e.page) ∧
    (∃ (pg : Nat) (s : State), regsServed s = true ∧ readOpen s pg = true ∧ pageExists pg = true) :=
  ⟨⟨.pf 0, 0x03, 0x0005FFFF#32, stServed [(R.PG_EVT_SEQ.SEQ 0x03, 5)], by decide +kernel⟩,
   ⟨.pf 3, 0x52, 0x0004FFFF#32, stServed [(R.PG_EVT_SEQ.SEQ (reqPage 0x52 3), 5)], by decide +kernel⟩,
   ⟨E.TICK.OVERRUN, 0x04, by decide +kernel⟩,
   ⟨0x03, stServed [], by decide +kernel⟩⟩

theorem witness_ReadsLatchTheirWordsAndTheCoreWindowAnswers :
    (∃ (pg : Nat) (s : State), regsServed s = true ∧ readOpen s pg = true ∧ pageExists pg = true) ∧
    (∃ (r : Req) (s : State), regsServed s = true ∧ getF s R.ATTIC_RESTORE_STA.DONE = 1 ∧ smGet none s.latch (latchKey
      r 0x03 0x40) = none) ∧
    (∃ (r : Req) (s : State), regsServed s = true ∧ getF s R.ATTIC_RESTORE_STA.DONE = 1 ∧ smGet none s.latch (latchKey
      r 0x03 0x54) = none) ∧
    (∃ (r : Req) (s : State), regsServed s = true ∧ getF s R.ATTIC_RESTORE_STA.DONE = 1 ∧ smGet none s.latch (latchKey
      r 0x03 0x78) = none) ∧
    (∃ (r : Req) (k : StackNo) (q : Fin 3) (s : State), regsServed s = true ∧ getF s R.ATTIC_RESTORE_STA.DONE = 1 ∧
      smGet none s.latch (latchKey r (0x60 + k) (if q = 0 then 0x60 else if q = 1 then 0x70 else 0x90)) = none) ∧
    (∃ (r : Req) (k : StackNo) (s : State), regsServed s = true ∧ getF s R.ATTIC_RESTORE_STA.DONE = 1 ∧ smGet none
      s.latch (latchKey r (0x60 + k) 0x80) = none) ∧
    (∃ (r : Req) (s : State) (e : _), regsServed s = true ∧ getF s R.ATTIC_RESTORE_STA.DONE = 1 ∧ smGet none s.flt.log
      (getF s R.FLT_LOG_PTR.SEQ % 1024) = some e ∧ smGet none s.latch (latchKey r 0x05 0x48) = none) ∧
    (∃ (r : Req) (s : State), regsServed s = true ∧ getF s R.ATTIC_RESTORE_STA.DONE = 1 ∧ smGet none s.latch (latchKey
      r 0x01 0x50) = none) ∧
    (∃ (n : Fin 4) (w : Word) (s : State), regsServed s = true ∧ getF s R.ATTIC_RESTORE_STA.DONE = 1 ∧ getF s
      (R.CW_STA.BUSY n) = 0 ∧ cwRefused s (.pf n) ([regWord s (0x50 + 0x1000 * n) 0x40, w.toNat % 2 ^ 18, 0, 0]) =
      false) ∧
    (∃ (n : Fin 4) (w : Word) (s : State), regsServed s = true ∧ getF s R.ATTIC_RESTORE_STA.DONE = 1 ∧ (getF s
      (R.CW_STA.BUSY n) = 1 ∨ cwRefused s (.pf n) ([regWord s (0x50 + 0x1000 * n) 0x40, w.toNat % 2 ^ 18, 0, 0]) =
      true)) ∧
    (∃ (n : Fin 4) (w : Word) (s : State), regsServed s = true ∧ getF s R.ATTIC_RESTORE_STA.DONE = 1 ∧ getF s
      (R.CW_STA.BUSY n) = 0 ∧ cwRefused s (.pf n) ([regWord s (0x50 + 0x1000 * n) 0x40, getF s (R.CW_ADDR.ADDR n), 1,
      w.toNat]) = false) ∧
    (∃ (r : Req) (s : State), regsServed s = true ∧ getF s R.ATTIC_RESTORE_STA.DONE = 1 ∧ smGet none s.latch (latchKey
      r (0x50 : Nat) 0x48) = none ∧ getF s (R.CW_SEL.INC r.no) = 0) ∧
    (∃ (r : Req) (s : State), regsServed s = true ∧ getF s R.ATTIC_RESTORE_STA.DONE = 1 ∧ getF s (R.CW_SEL.INC r.no) =
      1 ∧ getF s (R.CW_STA.BUSY r.no) = 0 ∧ cwRefused s r ([regWord s (0x50 + 0x1000 * r.no) 0x40, (getF s
      (R.CW_ADDR.ADDR r.no) + 4) % 2 ^ 18, 0, 0]) = false) ∧
    (∃ (r : Req) (q : List Nat) (s : State), smGet none s.hif.cw r.no = some q ∧ cwTurn s r.no = false) ∧
    (∃ (r : Req) (q : List Nat) (s : State), smGet none s.hif.cw r.no = some q ∧ cwBound s (cwLcid q) = true ∧
      cwTarget q ≠ 5 ∧ cwWrite q = false ∧ (s.tick.atD = false ∨ s.tick.draining = true)) ∧
    (∃ (r : Req) (q : List Nat) (s : State), smGet none s.hif.cw r.no = some q ∧ cwTurn s r.no = true ∧ cwWrite q =
      true ∧ cwBound s (cwLcid q) = true) ∧
    (∃ (r : Req) (q : List Nat) (s : State), smGet none s.hif.cw r.no = some q ∧ cwTurn s r.no = true ∧ cwWrite q =
      true ∧ cwBound s (cwLcid q) = false) ∧
    (∃ (r : Req) (q : List Nat) (s : State), smGet none s.hif.cw r.no = some q ∧ cwTurn s r.no = true ∧ cwWrite q =
      false ∧ s.hearth.trip = false) ∧
    (∃ (r : Req) (q : List Nat) (s : State), smGet none s.hif.cw r.no = some q ∧ cwTurn s r.no = true ∧ cwWrite q =
      false) ∧
    (∃ (r : Req) (q : List Nat) (s : State), smGet none s.hif.cw r.no = some q ∧ cwTurn s r.no = true ∧ cwWrite q =
      false ∧ cwTarget q = 0) :=
  ⟨⟨0x03, stServed [], by decide +kernel⟩,
   ⟨.smb, stServed [], by decide +kernel⟩,
   ⟨.pf 3, stServed [], by decide +kernel⟩,
   ⟨.pf 3, stServed [], by decide +kernel⟩,
   ⟨.pf 0, 11, 2, stServed [], by decide +kernel⟩,
   ⟨.pf 0, 11, stServed [], by decide +kernel⟩,
   ⟨.pf 0, { stServed [] with flt := { log := [(0, some log0)], peerSig := [], peerGot := [] } }, log0,
     by decide +kernel⟩,
   ⟨.pf 0, stServed [], by decide +kernel⟩,
   ⟨0, 0x2FFFC#32, stServed [(R.DIE_MAP_STA.LOADED 0, 1)], by decide +kernel⟩,
   ⟨3, 0x30000#32, stServed [], by decide +kernel⟩,
   ⟨0, 0xFFFFFFFF#32, stServed [(R.DIE_MAP_STA.LOADED 0, 1)], by decide +kernel⟩,
   ⟨.pf 1, stServed [], by decide +kernel⟩,
   ⟨.pf 0, stServed [(R.DIE_MAP_STA.LOADED 0, 1), (R.CW_SEL.INC 0, 1)], by decide +kernel⟩,
   ⟨.pf 0, [0, 0x2FFFC, 0, 0],
     { stServed [] with hif := { hif0 with cw := [(0, some [0, 0x2FFFC, 0, 0])], cwOrder := [] } }, by decide +kernel⟩,
   ⟨.pf 0, [0, 0x2FFFC, 0, 0],
     { stRunning [] with hif := { hif0 with cw := [(0, some [0, 0x2FFFC, 0, 0])], cwOrder := [0] }, plans := [(0, some plan0)], cores := [(0, { core0 with bound := 1 })] },
     by decide +kernel⟩,
   ⟨.pf 0, [0, 0x2FFFC, 1, 5],
     { stRunning [] with hif := { hif0 with cw := [(0, some [0, 0x2FFFC, 1, 5])], cwOrder := [0] }, plans := [(0, some plan0)], cores := [(0, { core0 with bound := 1 })] },
     by decide +kernel⟩,
   ⟨.pf 0, [0, 0x2FFFC, 1, 5],
     { stServed [] with hif := { hif0 with cw := [(0, some [0, 0x2FFFC, 1, 5])], cwOrder := [0] } },
     by decide +kernel⟩,
   ⟨.pf 0, [0, 0x2FFFC, 0, 0],
     { stServed [] with hif := { hif0 with cw := [(0, some [0, 0x2FFFC, 0, 0])], cwOrder := [0] } },
     by decide +kernel⟩,
   ⟨.pf 0, [0, 0x2FFFC, 0, 0],
     { stServed [] with hif := { hif0 with cw := [(0, some [0, 0x2FFFC, 0, 0])], cwOrder := [0] } },
     by decide +kernel⟩,
   ⟨.pf 0, [0, 0x2FFFC, 0, 0],
     { stServed [] with hif := { hif0 with cw := [(0, some [0, 0x2FFFC, 0, 0])], cwOrder := [0] } },
     by decide +kernel⟩⟩

theorem witness_HostTransfersReachTheirPartitionsRegions :
    (∃ (n : Fin 16) (s : State), getF s (R.HIF_DMA_STA.BUSY n) = 0 ∧ (256 * getF s (R.HIF_DMA_LEN.LEN n)) ≠ 0 ∧
      partExists s (getF s (R.HIF_PF_MAP.CH n)) = true ∧ spanOwned s (getF s (R.HIF_PF_MAP.CH n)) (256 * getF s
      (R.HIF_DMA_PA.PA n)) (256 * getF s (R.HIF_DMA_LEN.LEN n)) = true) ∧
    (∃ (n : Fin 16) (s : State), getF s (R.HIF_DMA_STA.BUSY n) = 0 ∧ ((256 * getF s (R.HIF_DMA_LEN.LEN n)) = 0 ∨
      partExists s (getF s (R.HIF_PF_MAP.CH n)) = false ∨ spanOwned s (getF s (R.HIF_PF_MAP.CH n)) (256 * getF s
      (R.HIF_DMA_PA.PA n)) (256 * getF s (R.HIF_DMA_LEN.LEN n)) = false)) ∧
    (∃ (n : Fin 16) (s : State), getF s (R.HIF_DMA_STA.BUSY n) = 1) ∧
    (∃ (k : StackNo) (c : ChanNo) (r : Run) (n : Fin 16) (q : HostJob) (a : HostAcc) (l : List HostAcc) (s : State),
      (getChan s (chanKey k c)).cur = some r ∧ r.kind = .host n false ∧ getJob s n = some q ∧ q.todo = a :: l ∧ a.wr =
      false) ∧
    (∃ (n : Fin 16) (q : HostJob) (s : State), getJob s n = some q ∧ q.fault = 0 ∧ q.todo = []) ∧
    (∃ (n : Fin 16) (q : HostJob) (s : State), getJob s n = some q ∧ q.fault ≠ 0) ∧
    (∃ (n : Fin 16) (q : HostJob) (s : State), getJob s n = some q ∧ q.fault = 0 ∧ q.todo ≠ []) ∧
    (∃ (k : StackNo) (c : ChanNo) (bt : Nat) (host : List Byte) (n : Fin 16) (q : HostJob) (r : Run) (s : State),
      s.tick.draining = false ∧ chanFree s (chanKey k c) bt = true ∧ nextRun s k c bt = none ∧ hostFirst s k c bt host
      = some (n.val, q, r) ∧ (q.tries = 0 → guestFirst s k c bt q.order = false) ∧ hostShort s n q r = true) ∧
    (∃ (f : Fin 4) (off n x : Nat) (v : Served) (s : State), regsServed s = true ∧ (bar2Regions s f)[off / 2 ^ 28]? =
      some x ∧ off % 2 ^ 28 + n ≤ 2 ^ 28 ∧ 0 < n ∧ bar2May s (bar2Run s f false ((x * 2 ^ 28 + off % 2 ^ 28), n)) v.bt
      = true ∧ Clean v) ∧
    (∃ (f : Fin 4) (off n x : Nat) (v : Served) (s : State) (bs : List Byte), regsServed s = true ∧ (bar2Regions s
      f)[off / 2 ^ 28]? = some x ∧ off % 2 ^ 28 + n ≤ 2 ^ 28 ∧ 0 < n ∧ bs.length = n ∧ bar2May s (bar2Run s f true ((x
      * 2 ^ 28 + off % 2 ^ 28), n)) v.bt = true ∧ Clean v) ∧
    (∃ (f : Fin 4) (off n x : Nat) (v : Served) (s : State), regsServed s = true ∧ (bar2Regions s f)[off / 2 ^ 28]? =
      some x ∧ off % 2 ^ 28 + n ≤ 2 ^ 28 ∧ 0 < n ∧ bar2May s (bar2Run s f false ((x * 2 ^ 28 + off % 2 ^ 28), n)) v.bt
      = false) ∧
    (∃ (f : Fin 4) (off n x : Nat) (v : Served) (s : State), regsServed s = true ∧ (bar2Regions s f)[off / 2 ^ 28]? =
      some x ∧ off % 2 ^ 28 + n ≤ 2 ^ 28 ∧ 0 < n ∧ bar2May s (bar2Run s f false ((x * 2 ^ 28 + off % 2 ^ 28), n)) v.bt
      = true ∧ running s = false ∧ 4 ≤ v.errs ∧ v.ecc = .clean) ∧
    (∃ (f : Fin 4) (off n : Nat) (s : State), regsServed s = true ∧ 0 < n ∧ (bar2Regions s f).length * 2 ^ 28 < off +
      n) ∧
    (∃ (l : LinkInfo) (s : State), s.hearth.closed = true ∧ l.up = true ∧ (l.width = 8 ∨ l.width = 16)) ∧
    (∃ (l : LinkInfo) (s : State), s.hearth.closed = true ∧ (l.up = false ∨ (l.width ≠ 8 ∧ l.width ≠ 16))) :=
  ⟨⟨15, st [(R.STK_CHAN_CLASS.CELLAR 0, 2 ^ 31), (R.HIF_DMA_PA.PA 15, 31 * 2 ^ 23), (R.HIF_DMA_LEN.LEN 15, 1)],
    by decide +kernel⟩,
   ⟨15, State.reset, by decide +kernel⟩,
   ⟨15, st [(R.HIF_DMA_STA.BUSY 15, 1)], by decide +kernel⟩,
   ⟨0, 0, { run0 with kind := .host 15 false }, 15, xferJob 0 0 [readAcc 0 256], readAcc 0 256, [], stDma
     { run0 with kind := .host 15 false } (xferJob 0 0 [readAcc 0 256]), by decide +kernel⟩,
   ⟨15, xferJob 0 0 [], stDma run0 (xferJob 0 0 []), by decide +kernel⟩,
   ⟨15, xferJob 0 1 [readAcc 0 64], stDma run0 (xferJob 0 1 [readAcc 0 64]), by decide +kernel⟩,
   ⟨15, xferJob 0 0 [readAcc 0 64], stDma run0 (xferJob 0 0 [readAcc 0 64]), by decide +kernel⟩,
   ⟨11, 0, 0, [], 15, xferJob 0 0 [dmaIn], hostRun State.reset 15 [] (xferJob 0 0 [dmaIn]) dmaIn, stDma run0 (xferJob
     0 0 [dmaIn]), by decide +kernel⟩,
   ⟨0, 2 ^ 28 - 1, 1, firstRegion, sv0 0, stServed [], by (unfold Clean; decide +kernel)⟩,
   ⟨0, 2 ^ 28 - 1, 1, firstRegion, sv0 0, stServed [], [1#8], by (unfold Clean; decide +kernel)⟩,
   ⟨0, 2 ^ 28 - 1, 1, firstRegion, sv0 0,
     { stServed [] with chans := [(firstRegion / 8, { chan0 with freeAt := 1 })] }, by decide +kernel⟩,
   ⟨0, 2 ^ 28 - 1, 1, firstRegion, { bt := 0, errs := 4, ecc := .clean }, stServed [], by decide +kernel⟩,
   ⟨3, 0, 1, stServed [], by decide +kernel⟩,
   ⟨{ link0 with up := true, width := 16 }, stServed [], by decide +kernel⟩,
   ⟨{ link0 with up := true, width := 4 }, stServed [], by decide +kernel⟩⟩

theorem witness_ManagementPortAnswers :
    (∃ (s : State), regsServed s = true) ∧
    (∃ (s : State) (i : Instr) (bs : List Byte), regsServed s = true ∧ i ∈ [.winAddr bs false, .winWrite bs false]) ∧
    (∃ (s : State), regsServed s = true ∧ winNames s s.hif.win = false) ∧
    (∃ (s : State), ∃ f ∈ mgmtFlds, regsServed s = true ∧ winNames s (barOffset 0x42 0 f.off) = true ∧ readOpen s 0x42
      = true ∧ smGet none s.latch (latchKey .smb 0x42 f.off) = none ∧ s.hif.win = barOffset 0x42 0 f.off) ∧
    (∃ (s : State) (pg off : Nat), regsServed s = true ∧ pg ∉ [0x00, 0x01, 0x02, 0x04, 0x05, 0x42] ∧ assigned pg off =
      true ∧ pageOpen s pg = true ∧ s.hif.win = barOffset pg 0 off) ∧
    (∃ (s : State), regsServed s = true ∧ pageOpen s 0x42 = true ∧ getF s (R.PG_CTL.EN 0x42) = 0 ∧ s.hif.win =
      barOffset 0x42 0 0x40) ∧
    (∃ (s : State), regsServed s = true ∧ alertLow s = true) ∧
    (∃ (s : State), regsServed s = true ∧ alertLow s = false) ∧
    (∃ (i : Instr) (bs : List Byte) (pec : Bool) (s : State), regsServed s = false ∧ i ∈ [.winAddr bs pec, .winWrite
      bs pec, .winRead, .state, .winStatus, .alertResponse]) :=
  ⟨⟨stServed [], by decide +kernel⟩,
   ⟨stServed [], .winWrite [] false, [], by decide +kernel⟩,
   ⟨{ stServed [] with hif := { hif0 with win := barOffset 0x03 4 0 } }, by decide +kernel⟩,
   ⟨{ stServed [] with hif := { hif0 with win := barOffset 0x42 0 0x40 } }, R.MGT_SMB_ADDR.ADDR, by decide +kernel⟩,
   ⟨{ stServed [] with hif := { hif0 with win := barOffset 0x03 0 0x48 } }, 0x03, 0x48, by decide +kernel⟩,
   ⟨{ stServed [] with hif := { hif0 with win := barOffset 0x42 0 0x40 } }, by decide +kernel⟩,
   ⟨stServed [(R.PG_EVT.EVT 0x42, 1), (R.PG_EVT_EN.EN (reqPage 0x42 4), 1)], by decide +kernel⟩,
   ⟨stServed [], by decide +kernel⟩,
   ⟨.state, [], false, State.reset, by decide +kernel⟩⟩

/-! ### Well-formedness refuses (one ill-formed term for each check) -/

def badLine (e : Engine) : Issue := { iss e with acc := [{ line := 3072, cyc := 0, kind := .corrected }] }
def badAcc : LsAcc := { line := 0, cyc := 0, kind := .conflict 8 0 0 }
def badId : IdentMsg := { pkg := 4096, port := 0, serial := 0, bind := 0, heardPkg := 0, heardPort := 0 }
def flit0 : GFlit := { type := 0, len := 0, seq := 0, tag := 0, addr := 0, stream := 0, payload := [], crc := 0 }
def badFrames : List Frame :=
  [{ frame0 with cls := 8 }, { frame0 with kind := 16 }, { frame0 with beats := 8 }, { frame0 with src := 4096 },
   { frame0 with dst := 4096 }, { frame0 with tick := 2 ^ 24 }, { frame0 with seq := 2 ^ 16 }, { frame0 with stream := 2 ^ 16 },
   { frame0 with tile := 2 ^ 24 }, { frame0 with foff := 256 }, { frame0 with payload := List.replicate 257 0#8 },
   { frame0 with lseq := 4096 }, { frame0 with ack := 4096 }, { frame0 with crc := 2 ^ 32 }]
def badFlits : List GFlit :=
  [{ flit0 with type := 16 }, { flit0 with len := 5, payload := List.replicate 320 0#8 }, { flit0 with seq := 4096 },
   { flit0 with tag := 4096 }, { flit0 with addr := 2 ^ 40 }, { flit0 with stream := 2 ^ 16 }, { flit0 with payload := [0#8] },
   { flit0 with crc := 2 ^ 32 }]

theorem refused_tick : ([.timeReq 0 (2 ^ 64) false, .timeRsp 0 0 0 (2 ^ 64) false, .launch 4096 0, .launch 0 (2 ^ 64), .go (2 ^ 64),
    .nogo (2 ^ 64), .stretch 0 256 0, .abort 0 256 0, .void 4096 0, .replayMark 0 (2 ^ 24)] : List Instr).all (fun i => !i.wf) = true := by
  decide +kernel
theorem refused_issue : ([.nop (badLine .ve), .wait (badLine .ve), .sadd (badLine .ve), .ssub (badLine .ve), .tend (badLine .ve),
    .halt (badLine .ve), .fmt (badLine .ve), .ldw (badLine .ae0), .sww (badLine .ae0), .mma (badLine .ae0) 0, .drn (badLine .ae0),
    .pair (badLine .ae0) none, .mvm (badLine .mv), .mvd (badLine .mv) false, .vop (badLine .ve), .vsf (badLine .ve),
    .vred (badLine .ve), .vqnt (badLine .ve), .vrng (badLine .ve), .vcvt (badLine .ve), .vsel (badLine .ve)] : List Instr).all
    (fun i => !i.wf) = true := by decide +kernel
theorem refused_transfer : ([.mrd (badLine .ld), .mwr (badLine .st), .send (badLine .st), .hsnd (badLine .st), .coll (badLine .st),
    .pan (badLine .st), .ild (badLine .ld), .csav (badLine .st), .crst (badLine .ld), .tst (badLine .ae0),
    .nop { iss .ve with acc := [badAcc] }, .doorwayArrival c000 0 [] [badAcc], .memoryRunPost c000 0 (2 ^ 24) 0 0] :
    List Instr).all (fun i => !i.wf) = true := by decide +kernel
theorem refused_frames : badFrames.all (fun f => !(Instr.frameReceive 0 f 0 0).wf) = true := by decide +kernel
theorem refused_flits :
    badFlits.all (fun f => !(Instr.guestRd f).wf && !(Instr.guestWr f).wf && !(Instr.strmOut f).wf && !(Instr.guestLink f).wf) = true := by
  decide +kernel
theorem refused_links : ([.rebind 0 4096, .rebindAck 0 4096, .ident 0 badId, .lockstep 0 256 [], .reductionAdd 0 0 (2 ^ 16) 0 none,
    .discReq 0 none [], .discRsp 0 none [], .discovery (some []), .resetDone true true (some []), .testBlockCompare c000 .ae0 0 (2 ^ 64) 0] : List Instr).all (fun i => !i.wf) = true := by
  decide +kernel
theorem refused_bringup : ([.training { train0 with bundles := [96] }, .training { train0 with dataLanes := [(0, 64)] },
    .training { train0 with lanes := [(384, 0)] }, .training { train0 with units := [(530, [], [])] }, .errorRateCheck { check0 with bundles := [(96, 0)] },
    .errorRateCheck { check0 with lanes := [(384, 0, 0)] }, .selfTest { self0 with cores := [(0, 80, 0)] },
    .selfTest { self0 with cores := [(0, 0, 84)] }] : List Instr).all (fun i => !i.wf) = true := by decide +kernel
theorem refused_host : ([.registerWrite .smb (2 ^ 28) 0, .registerWrite .smb 2 0, .pageEnable .smb 256, .pageDisable .smb 256,
    .pgEvtAck .smb 256 0, .pgEvtSeqRead .smb 256, .postedWriteDone 256, .bar2Access 0 (2 ^ 36) 4 none [],
    .bar2Access 0 0 4 (some []) [], .winAddr [] true, .winWrite [] true, .linkChange { link0 with gen := 8 },
    .linkChange { link0 with width := 32 }, .convFault 256] : List Instr).all (fun i => !i.wf) = true := by decide +kernel

/-! ### Effects: expected values from the spec's worked examples and rules -/

/-- A property of the next state. -/
def after (i : Instr) (s : State) (p : State → Bool) : Bool := match exec i s with | .next t => p t | _ => false

/-- Stamps across the wrap (worked example after R42, items 1 to 4). -/
theorem test_stamps : [tickCmp 0 0xFFFFFF, tickCmp 0xFFFFFF 0, tickCmp 0xFFFFFD 2, tickCmp 0x800002 2] =
    [.newer 1, .older 1, .older 5, .far] := by decide +kernel

/-- One failed bundle (worked example after R57): EDGE_ROLE_LO 0xA955_5155 and EDGE_ROLE_HI 0x3FFA. -/
theorem test_roles : rolesOf 0x20 = some (0xA9555155 + 0x3FFA * 2 ^ 32) := by decide +kernel

/-- Row 37 of SPX2 with three bad cores (worked example after R65). -/
theorem test_spare_row : [0, 4, 5, 39, 40, 79].map (goodCol [5, 41, 42] 84 0) = [0, 4, 6, 40, 43, 82] := by decide +kernel
theorem test_lcid : (CoreId.mk 2 37 41).lcid = 0x92A9 := by decide +kernel

/-- One semaphore, one cycle (worked example after R99): VE's take is granted, ST's is not; then 4 093, then 3. -/
def waitST : WaitRec := { eng := 5, sem := 9, key := 9, n := 4090, take := true, p := false, ps := 0, granted := true }
def semCore : Core :=
  { core0 with sem := [(9, 4090)], semCyc := 7, semDelta := [(9, 9)], semTake := [(9, 4090)], semWaits := [waitST],
               engs := [(3, { eng0 with mode := .blocked 9 6 true false 0 }), (5, { mode := .running, idx := 1, free := 8 })],
               outst := [{ eng := 5, due := some 7, p := false, ps := 0, run := none }] }
theorem test_sem_take : after (.waitGrant c000 .ve 7) (stCore semCore) (fun t => (getEng (getCore t 0) 3).mode == .running &&
    (getEng (getCore t 0) 5).mode == .blocked 9 4090 true false 0 && semVal (getCore t 0) 9 == 4093) = true := by decide +kernel

/-- Truncation decides a rounding (worked example after R131): −1 of the middle term is −2 units, the sum 205 520 899. -/
theorem test_truncation : alignTerm 17 27 (.fin true 9 (-12)) = -2 ∧ alignTerm 17 27 (.fin false 11 (-11)) = 5 := by decide +kernel

/-- Draining a block to MXFP8 (worked example after R135). -/
def mx8 : Nat := 3 + 2 * 16
def mxVals : List Val := [val32 0x44750000#32, val32 0xC0530000#32, val32 0x3A800000#32, val32 0x42260000#32]
theorem test_mxfp8 : quantBlock mx8 [0, 0, 0, 0] mxVals = (0x80, [0x7E, 0xBD, 0x00, 0x5A]) := by decide +kernel
theorem test_mxfp8_drawn : quantElem (mx8 + 2 * 2 ^ 10) 0x80 0xB3C1 (val32 0x42260000#32) = 0x5B := by decide +kernel

/-- Re-blocking an MXFP4 column (worked example after R140). -/
theorem test_mxfp4 : quantBlock (7 + 2 * 16) [0, 0, 0, 0]
    [decodeScaled (7 + 2 * 16) 0x7F 7, decodeScaled (7 + 2 * 16) 0x7C 3, decodeScaled (7 + 2 * 16) 0x7E 5,
     decodeScaled (7 + 2 * 16) 0x7D 3] = (0x7F, [7, 0, 3, 1]) := by decide +kernel

/-- Words of Table 6.7: FMT, LDW, MMA and DRN. -/
theorem test_word_fmt : [wOp 0x1800000000000231, fFmtD 0x231, fFmtV 0x231] = [opFmt, 1, 0x23] := by decide +kernel
theorem test_word_ldw : [wOp 0x40000008003FC180, fLdwB 0x40000008003FC180, fLdwN 0x40000008003FC180, fLdwK 0x40000008003FC180,
    fLdwD 0x40000008003FC180] = [opLdw, 0x180, 7, 31, 1] := by decide +kernel
theorem test_word_mma : [wOp 0x480000023007F000, fMmaA 0x480000023007F000, fMmaM 0x480000023007F000, fMmaAD 0x480000023007F000,
    fMmaBD 0x480000023007F000, fMmaMstr 0x11] = [opMma, 0, 127, 1, 1, 17] ∧ fMmaStart 0x480000023007F000 = true := by decide +kernel
theorem test_word_drn : [wOp 0x4D1800000007F300, fDrnO 0x4D1800000007F300, fDrnL 0x4D1800000007F300, wPS 0x4D1800000007F300,
    fDrnOtstr 0x40] = [opDrn, 0x300, 127, 3, 64] ∧ wP 0x4D1800000007F300 = true := by decide +kernel
/-- The FMT of Table 6.7 executes: descriptor 1 holds 0x23 from cycle 1, not before. -/
theorem test_fmt : after (.fmt (iss .ae0)) (stWords [0x1800000000000231])
    (fun t => rdDesc (getCore t 0) 1 1 == 0x23 && rdDesc (getCore t 0) 0 1 == 0) = true := by decide +kernel

/-- Windows of channel 7.21 (worked example after R199): tick 1's offsets. -/
theorem test_windows : tickWindows { st [(R.STK_REF_PHASE.STAGGER 7, 120), (R.TICK_LEN.LEN, 10000)] with
    tick := { State.reset.tick with job := 1 } } 7 21 = [320, 4220, 8120] := by decide +kernel
/-- A 2 KiB run occupies 2 179 byte times; RESV is 15 360 at the defaults (R192, R202). -/
theorem test_occupancy : occOf 2048 = 2179 ∧ resv (st [(R.TICK_LEN.LEN, 10000)]) 7 = 15360 := by decide +kernel

/-- A gap across the wrap (worked example after R260): ACK 4 093 frees three of ten frames; an ACK past them is not valid. -/
def heldPort : Port := { port0 with lseq := 4, held := (List.range 10).map fun i => ({ frame0 with lseq := (4090 + i) % 4096 }, 1) }
theorem test_ack_wrap : (freeHeld 4093 heldPort).held.length = 7 ∧ oldest (freeHeld 4093 heldPort) = 4093 := by decide +kernel
theorem test_ack_valid : ackValid heldPort 4093 = true ∧ ackValid heldPort 5 = false := by decide +kernel

/-- A three-hop route (worked example after R265). -/
def st1536 (id : Nat) : State := st [(R.HALL_PORTMAP.D0, 16), (R.HALL_PORTMAP.D1, 12), (R.HALL_PORTMAP.D2, 8), (R.TOP_PKG_ID.ID, id)]
theorem test_coords : [coord (st1536 0) 1000 0, coord (st1536 0) 1000 1, coord (st1536 0) 1000 2, coord (st1536 0) 1409 0,
    coord (st1536 0) 1409 1, coord (st1536 0) 1409 2, pkgAt (st1536 0) 1 2 5, pkgAt (st1536 0) 1 4 5, usedPorts (st1536 0)] =
    [8, 2, 5, 1, 4, 7, 993, 1025, 33] := by decide +kernel

/-- Register places (R413): PAN_STEP of PANTRY0, PORT_LASER of OP18, STA of HIF_DMA_3, STK_MARGIN_CTL of STACK7. -/
theorem test_addresses : [barOffset (R.PAN_STEP.STEP 0).page 0 (R.PAN_STEP.STEP 0).off,
    barOffset (R.PORT_LASER.EN 18).page 0 (R.PORT_LASER.EN 18).off, barOffset (R.HIF_DMA_STA.BUSY 3).page 0 (R.HIF_DMA_STA.BUSY 3).off,
    barOffset (R.STK_MARGIN_CTL.START 7).page 1 (R.STK_MARGIN_CTL.START 7).off] = [0x600048, 0x240094, 0x410174, 0x37105C] := by
  decide +kernel

/-- A stale acknowledgement on STACK7 (worked example after R408), steps 1 to 5. -/
def stStack7 : State := stServed [(R.PG_EVT_SEQ.SEQ 0x37, 0xFFFF), (R.PG_EVT.EVT 0x37, 9)]
theorem test_ack_stale : after (.pgEvtAck (.pf 0) 0x37 0xFFFE0001#32) stStack7
    (fun t => getF t (R.PG_EVT.EVT 0x37) == 9 && getF t (R.PG_STA.ACK_STALE 0x37) == 1) = true := by decide +kernel
theorem test_ack_fresh : after (.pgEvtAck (.pf 0) 0x37 0xFFFF0009#32) stStack7
    (fun t => getF t (R.PG_EVT.EVT 0x37) == 0 && getF t (R.PG_STA.ACK_STALE 0x37) == 0) = true := by decide +kernel
/-- Step 6: a further event makes SEQ wrap to 0 and LAP 1. -/
theorem test_seq_wraps : getF (raise (E.STACK.RETRY 7) stStack7) (R.PG_EVT_SEQ.SEQ 0x37) = 0 ∧
    getF (raise (E.STACK.RETRY 7) stStack7) (R.PG_EVT_SEQ.LAP 0x37) = 1 := by decide +kernel

/-- A write through the SET alias (R398) sets the bits that are 1 in it and leaves every other: TICK_STRETCH_MAX 8 and 2. -/
theorem test_set_alias : after (.registerWrite (.pf 0) 0x00031060 2#32) (stServed [])
    (fun t => getF t R.TICK_STRETCH_MAX.MAX == 10) = true := by decide +kernel
/-- A correction of −3 ns is slewed by standing still for one nanosecond (R12). -/
theorem test_slew_back : (idle (stSlew (-3))).counter = (stSlew (-3)).counter ∧ (idle (stSlew (-3))).sync.slew = -2 := by decide +kernel

/-- A disabled command queue: two idle steps count two nanoseconds (log 1). -/
theorem test_idle : (idle (idle State.reset)).counter = 2 := by decide +kernel
/-! ### The plan image is loaded -/

/-- A CRC and a read of memory, taken in pieces. -/
theorem crc_append (p : Nat) (a b : List Byte) : ∀ c, crc32Run p c (a ++ b) = crc32Run p (crc32Run p c a) b := by
  induction a with
  | nil => intro c; rfl
  | cons x a ih => intro c; exact ih _

theorem rdMems_add (s : State) (m n : Nat) : ∀ a, rdMems s a (m + n) = rdMems s a m ++ rdMems s (a + m) n := by
  induction m with
  | zero => intro a; simp [rdMems, smGetList]
  | succ m ih =>
    intro a
    have := ih (a + 1)
    simp only [rdMems] at this ⊢
    rw [show m + 1 + n = m + n + 1 by omega, smGetList, this, smGetList, List.cons_append]
    rw [show a + 1 + m = a + (m + 1) by omega]

theorem rdMems_120 (s : State) (a : Nat) : rdMems s a 120 = rdMems s a 40 ++ (rdMems s (a + 40) 40 ++ rdMems s (a + 80) 40) := by
  rw [show 120 = 40 + (40 + 40) from rfl, rdMems_add, rdMems_add]

theorem rdMems_200 (s : State) (a : Nat) :
    rdMems s a 200 = rdMems s a 40 ++ (rdMems s (a + 40) 40 ++ rdMems s (a + 80) 120) := by
  rw [show 200 = 40 + (40 + 120) from rfl, rdMems_add, rdMems_add]

/-- The CRC of a 324-byte image, taken in pieces. -/
theorem imgCrc_pieces (s : State) (a c1 c2 c3 c4 c5 c6 c7 c8 c9 : Nat) (hl : hLength s a - 124 = 200)
    (h0 : crc32Run 0x82F63B78 4294967295 (rdMems s a 40) = c1) (h1 : crc32Run 0x82F63B78 c1 (rdMems s (a + 40) 40) = c2)
    (h2 : crc32Run 0x82F63B78 c2 (rdMems s (a + 80) 40) = c3) (h3 : crc32Run 0x82F63B78 c3 [0#8, 0#8, 0#8, 0#8] = c4)
    (h4 : crc32Run 0x82F63B78 c4 (rdMems s (a + 124) 40) = c5)
    (h5 : crc32Run 0x82F63B78 c5 (rdMems s (a + 124 + 40) 40) = c6)
    (h6 : crc32Run 0x82F63B78 c6 (rdMems s (a + 124 + 80) 40) = c7)
    (h7 : crc32Run 0x82F63B78 c7 (rdMems s (a + 124 + 80 + 40) 40) = c8)
    (h8 : crc32Run 0x82F63B78 c8 (rdMems s (a + 124 + 80 + 80) 40) = c9) : imgCrc s a = c9 ^^^ 4294967295 := by
  unfold imgCrc crc32c
  rw [hl, rdMems_200, rdMems_120, rdMems_120]
  simp only [crc_append, h0, h1, h2, h3, h4, h5, h6, h7, h8]

theorem badCrc_of_match (s : State) (a : Nat) (h : (imgCrc s a != hCrc s a) = false) (hs : placedAll s a = []) :
    badCrc s a = [] := by
  simp [badCrc, h, hdrFail, hs]

theorem firstErr_cons (c : Unit → List LoadErr) (cs : List (Unit → List LoadErr)) (h : c () = [])
    (hs : firstErr cs = none) : firstErr (c :: cs) = none := by
  unfold firstErr; rw [h]; exact hs

theorem image_crc0 : crc32Run 0x82F63B78 4294967295 (rdMems stImage 1048576 40) = 2405721872 := by decide +kernel
theorem image_crc1 : crc32Run 0x82F63B78 2405721872 (rdMems stImage (1048576 + 40) 40) = 320841523 := by decide +kernel
theorem image_crc2 : crc32Run 0x82F63B78 320841523 (rdMems stImage (1048576 + 80) 40) = 3172200283 := by decide +kernel
theorem image_crc3 : crc32Run 0x82F63B78 3172200283 [0#8, 0#8, 0#8, 0#8] = 823932197 := by decide +kernel
theorem image_crc4 : crc32Run 0x82F63B78 823932197 (rdMems stImage (1048576 + 124) 40) = 2638762954 := by decide +kernel
theorem image_crc5 : crc32Run 0x82F63B78 2638762954 (rdMems stImage (1048576 + 124 + 40) 40) = 1614702965 := by decide +kernel
theorem image_crc6 : crc32Run 0x82F63B78 1614702965 (rdMems stImage (1048576 + 124 + 80) 40) = 689754854 := by decide +kernel
theorem image_crc7 : crc32Run 0x82F63B78 689754854 (rdMems stImage (1048576 + 124 + 80 + 40) 40) = 1155849648 := by decide +kernel
theorem image_crc8 : crc32Run 0x82F63B78 1155849648 (rdMems stImage (1048576 + 124 + 80 + 80) 40) = 3395222664 := by decide +kernel
theorem image_length : hLength stImage 1048576 - 124 = 200 := by decide +kernel
theorem image_field : hCrc stImage 1048576 = 3395222664 ^^^ 4294967295 := by decide +kernel
theorem image_crc : (imgCrc stImage 1048576 != hCrc stImage 1048576) = false := by
  rw [imgCrc_pieces _ _ _ _ _ _ _ _ _ _ _ image_length image_crc0 image_crc1 image_crc2 image_crc3 image_crc4 image_crc5
    image_crc6 image_crc7 image_crc8, image_field, bne_self_eq_false]

/-- The loader finds no fault in the image. -/
theorem image_at : loadAddr stImage 0 = 1048576 := by decide +kernel
theorem image_role : roleOf stImage 1048576 = 0 := by decide +kernel
theorem image_check : badCrc stImage 1048576 = [] := badCrc_of_match _ _ image_crc (by decide +kernel)
theorem image_loads : loadChecks stImage (loadAddr stImage 0) 0 = none := by
  rw [image_at]; unfold loadChecks; rw [image_role]
  refine firstErr_cons _ _ (by decide +kernel) (firstErr_cons _ _ (by decide +kernel) (firstErr_cons _ _ image_check ?_))
  decide +kernel

theorem witness_PlansAreLoadedUnloadedAndRestarted :
    (∃ (f : Fin 4) (s : State), loadRefused s f = false) ∧
    (∃ (f : Fin 4) (s : State), (getF s (R.PLAN_STA.BUSY f) = 1 ∨ zeroingFor s f = true ∨ getF s (R.PG_STA.ZEROING
      0x19) = 1 ∨ (running s = true ∧ hPartition s (loadAddr s f) = 0) ∨ (f ≠ 0 ∧ getF s (R.PART_RUN_STA.RUN f) = 1))) ∧
    (∃ (f : Fin 4) (q : HostJob) (s : State), getF s (R.PLAN_STA.BUSY f) = 1 ∧ getJob s (loadJob f) = some q ∧ q.fault
      = 0 ∧ q.todo ≠ []) ∧
    (∃ (f : Fin 4) (q : HostJob) (s : State), getF s (R.PLAN_STA.BUSY f) = 1 ∧ getJob s (loadJob f) = some q ∧ q.fault
      ≠ 0) ∧
    (∃ (f : Fin 4) (s : State), getF s (R.PLAN_STA.BUSY f) = 1 ∧ imageRead s f = true ∧ imageLost s f = false ∧ hMagic
      s (loadAddr s f) ≠ 0x4C50514D) ∧
    (∃ (f : Fin 4) (s : State), getF s (R.PLAN_STA.BUSY f) = 1 ∧ imageRead s f = true ∧ imageLost s f = false ∧
      loadChecks s (loadAddr s f) f = none) ∧
    (∃ (f : Fin 4) (s : State), getF s (R.PLAN_STA.BUSY f) = 0) ∧
    (∃ (f : Fin 4) (s : State), Canonical s ∧ getF s (R.PLAN_STA.BUSY f) = 0 ∧ (if f = 0 then running s else
      secRunning s f) = false) ∧
    (∃ (f : Fin 4) (s : State), (getF s (R.PLAN_STA.BUSY f) = 1 ∨ (if f = 0 then running s else secRunning s f) =
      true)) ∧
    (∃ (pl : Plan) (s : State), primary s = some pl ∧ running s = false ∧ getF s (R.PLAN_STA.BUSY 0) = 0) ∧
    (∃ (f : Fin 4) (s : State), (f ≠ 0 ∨ primary s = none ∨ running s = true ∨ getF s (R.PLAN_STA.BUSY f) = 1)) :=
  ⟨⟨3, State.reset, by decide +kernel⟩,
   ⟨3, st [(R.PLAN_STA.BUSY 3, 1)], by decide +kernel⟩,
   ⟨0, xferJob 0 0 [readAcc 0 64],
     { st [(R.PLAN_STA.BUSY 0, 1)] with hif := { hif0 with jobs := [(28, some (xferJob 0 0 [readAcc 0 64]))] } },
     by decide +kernel⟩,
   ⟨0, xferJob 0 2 [readAcc 0 64],
     { st [(R.PLAN_STA.BUSY 0, 1)] with hif := { hif0 with jobs := [(28, some (xferJob 0 2 [readAcc 0 64]))] } },
     by decide +kernel⟩,
   ⟨0, st [(R.PLAN_STA.BUSY 0, 1)], by decide +kernel⟩,
   ⟨0, stImage, by decide +kernel, by decide +kernel, by decide +kernel, image_loads⟩,
   ⟨0, State.reset, by decide +kernel⟩,
   ⟨0, stReadyPlan, by (unfold Canonical; decide +kernel)⟩,
   ⟨0, { stReadyPlan with regs := (stRunning []).regs }, by decide +kernel⟩,
   ⟨plan0, stReadyPlan, by decide +kernel⟩,
   ⟨3, State.reset, by decide +kernel⟩⟩


end Sys2Proof.Machine
end

section
/-! The statements about the step itself: an empty queue, what every row keeps, and a register write. -/

namespace Sys2Proof.Machine

/-! ### An empty queue (R9, R10, R12; logs 1, 5) -/

theorem step_of_empty {s : State} (h : s.pending = []) : step s = .next (idle s) := by
  unfold step; rw [h]

theorem step_of_front {s : State} {c : Instr} {rest : List Instr} (h : s.pending = c :: rest) :
    step s = exec c { s with pending := rest } := by
  unfold step; rw [h]

/-- R12: a nanosecond of a correction is due on a package that is not the root, has some left to slew, and slewed the last at
least 10 000 ns of the reference ago. -/
theorem slewDue_iff (s : State) : slewDue s = true ↔ isRoot s = false ∧ s.sync.slew ≠ 0 ∧ 10000 ≤ s.sync.ref := by
  simp [slewDue, and_assoc]

theorem idle_of_not_slewDue {s : State} (h : slewDue s = false) :
    idle s = { s with counter := (s.counter + 1) % 2 ^ 64, sync := { s.sync with ref := min 10000 (s.sync.ref + 1) } } := by
  simp [idle, h, countOn]

theorem idle_of_slew_pos {s : State} (h : slewDue s = true) (hp : 0 < s.sync.slew) :
    idle s = { s with counter := (s.counter + 1) % 2 ^ 64, sync := { s.sync with slew := s.sync.slew - 1, ref := 0 } } := by
  simp [idle, h, hp, countOn]

theorem idle_of_slew_neg {s : State} (h : slewDue s = true) (hn : s.sync.slew < 0) :
    idle s = { s with sync := { s.sync with slew := s.sync.slew + 1, ref := 0 } } := by
  simp [idle, h, Int.not_lt.mpr (Int.le_of_lt hn)]

/-- Settles O2: an empty queue lets time pass, in the three ways of `idle`. -/
theorem emptyQueueCountsOneNanosecond : Obligations.EmptyQueueCountsOneNanosecond := by
  refine ⟨fun s hq hs => ?_, fun s hq hs hp => ?_, fun s hq hs hn => ?_, slewDue_iff⟩
  · rw [step_of_empty hq, idle_of_not_slewDue hs]
  · rw [step_of_empty hq, idle_of_slew_pos hs hp]
  · rw [step_of_empty hq, idle_of_slew_neg hs hn]

/-! ### What every row keeps -/

/-- No row changes the fuses, the queue or the canonical form. -/
theorem exec_good {b s t : State} (h : Good b s) : ∀ i : Instr, exec i s = .next t → Good b t
  | .syncPeriod, e => execSyncPeriod_good _ h e
  | .timeReq _ _ _, e => execTimeReq_good _ _ _ _ h e
  | .timeRsp p _ _ _ _, e => execTimeRsp_good p _ _ _ _ _ h e
  | .syncPeriodMissed, e => execSyncPeriodMissed_good _ h e
  | .launchEnable _, e => execLaunchEnable_good _ _ h e
  | .launch _ _, e => execLaunch_good _ _ _ h e
  | .goDeadline, e => execGoDeadline_good _ h e
  | .go _, e => execGo_good _ _ h e
  | .nogo l, e => execNogo_good l _ h e
  | .launchGoTimeout, e => execLaunchGoTimeout_good _ h e
  | .decisionPoint, e => execDecisionPoint_good _ h e
  | .verdictPoint _, e => execVerdictPoint_good _ _ h e
  | .stretch k n c, e => execStretch_good k n c _ h e
  | .abort p c k, e => execAbort_good p c k _ h e
  | .void _ _, e => execVoid_good _ _ _ h e
  | .replayQuiesced, e => execReplayQuiesced_good _ h e
  | .replayStart, e => execReplayStart_good _ h e
  | .replayMark _ _, e => execReplayMark_good _ _ _ h e
  | .tickBoundary, e => execTickBoundary_good _ h e
  | .ibLateSwap _, e => execIbLateSwap_good _ _ h e
  | .nop _, e => execNop_good _ _ h e
  | .wait _, e => execWait_good _ _ h e
  | .waitGrant _ _ _, e => execWaitGrant_good _ _ _ _ h e
  | .sadd _, e => execSadd_good _ _ h e
  | .ssub _, e => execSsub_good _ _ h e
  | .tend _, e => execTend_good _ _ h e
  | .halt _, e => execHalt_good _ _ h e
  | .fmt _, e => execFmt_good _ _ h e
  | .ldw _, e => execLdw_good _ _ h e
  | .sww _, e => execSww_good _ _ h e
  | .mma _ _, e => execMma_good _ _ _ h e
  | .feederResume _ _ _ _, e => execFeederResume_good _ _ _ _ _ h e
  | .drn _, e => execDrn_good _ _ h e
  | .pair _ _, e => execPair_good _ _ _ h e
  | .mvm _, e => execMvm_good _ _ h e
  | .mvd _ _, e => execMvd_good _ _ _ h e
  | .vop _, e => execVop_good _ _ h e
  | .vsf _, e => execVsf_good _ _ h e
  | .vred _, e => execVred_good _ _ h e
  | .vqnt _, e => execVqnt_good _ _ h e
  | .vrng _, e => execVrng_good _ _ h e
  | .vcvt _, e => execVcvt_good _ _ h e
  | .vsel _, e => execVsel_good _ _ h e
  | .mrd _, e => execMrd_good _ _ h e
  | .mwr _, e => execMwr_good _ _ h e
  | .send _, e => execSend_good _ _ h e
  | .hsnd _, e => execHsnd_good _ _ h e
  | .coll _, e => execColl_good _ _ h e
  | .pan _, e => execPan_good _ _ h e
  | .ild _, e => execIld_good _ _ h e
  | .csav _, e => execCsav_good _ _ h e
  | .crst _, e => execCrst_good _ _ h e
  | .tst _, e => execTst_good _ _ h e
  | .instructionComplete _ _ _, e => execInstructionComplete_good _ _ _ _ h e
  | .doorwayArrival _ _ _ _, e => execDoorwayArrival_good _ _ _ _ _ h e
  | .memoryRunPost _ _ _ _ _, e => execMemoryRunPost_good _ _ _ _ _ _ h e
  | .deadlock _ _, e => execDeadlock_good _ _ _ h e
  | .coreGate _, e => execCoreGate_good _ _ h e
  | .coreUngate _, e => execCoreUngate_good _ _ h e
  | .runRequest _ _, e => execRunRequest_good _ _ _ h e
  | .runStart _ _ _ _, e => execRunStart_good _ _ _ _ _ h e
  | .runEnd _ _ _ _ _ _, e => execRunEnd_good _ _ _ _ _ _ _ h e
  | .refreshWindow _ _ _, e => execRefreshWindow_good _ _ _ _ h e
  | .makeupWindow _ _ _, e => execMakeupWindow_good _ _ _ _ h e
  | .stkMarginStart _, e => execStkMarginStart_good _ _ h e
  | .marginStep _ _ _, e => execMarginStep_good _ _ _ _ h e
  | .channelZeroingDone _, e => execChannelZeroingDone_good _ _ h e
  | .gradWr _ _ _, e => execGradWr_good _ _ _ _ h e
  | .gradAdd _ _ _, e => execGradAdd_good _ _ _ _ h e
  | .scatterAdd _ _ _, e => execScatterAdd_good _ _ _ _ h e
  | .sweep _ _ _, e => execSweep_good _ _ _ _ h e
  | .panExport _, e => execPanExport_good _ _ h e
  | .panImport _, e => execPanImport_good _ _ h e
  | .exportDone _, e => execExportDone_good _ _ h e
  | .gnsClr _, e => execGnsClr_good _ _ h e
  | .egressSlot _ _, e => execEgressSlot_good _ _ _ h e
  | .frameReceive _ _ _ _, e => execFrameReceive_good _ _ _ _ _ h e
  | .nakTimeout _, e => execNakTimeout_good _ _ h e
  | .replayTimeout _, e => execReplayTimeout_good _ _ h e
  | .retrainDone _, e => execRetrainDone_good _ _ h e
  | .lossOfLight _, e => execLossOfLight_good _ _ h e
  | .retrainTimeout _, e => execRetrainTimeout_good _ _ h e
  | .rebind _ _, e => execRebind_good _ _ _ h e
  | .rebindAck _ _, e => execRebindAck_good _ _ _ h e
  | .rebindRepeat _, e => execRebindRepeat_good _ _ h e
  | .rebindTimeout _, e => execRebindTimeout_good _ _ h e
  | .identTimer _, e => execIdentTimer_good _ _ h e
  | .ident _ _, e => execIdent_good _ _ _ h e
  | .laserSafe _, e => execLaserSafe_good _ _ h e
  | .portLaserWrite _ _, e => execPortLaserWrite_good _ _ _ h e
  | .lockstep _ _ _, e => execLockstep_good _ _ _ _ h e
  | .reductionAdd _ _ _ _ _, e => execReductionAdd_good _ _ _ _ _ _ h e
  | .guestRd _, e => execGuestRd_good _ _ h e
  | .guestWr _, e => execGuestWr_good _ _ h e
  | .strmOut _, e => execStrmOut_good _ _ h e
  | .guestLink _, e => execGuestLink_good _ _ h e
  | .guestAckTimer, e => execGuestAckTimer_good _ h e
  | .guestRequestServe _, e => execGuestRequestServe_good _ _ h e
  | .guestPwr, e => execGuestPwr_good _ h e
  | .moduleLost _, e => execModuleLost_good _ _ h e
  | .gstReset, e => execGstReset_good _ h e
  | .resetDone _ _ _, e => execResetDone_good _ _ _ _ h e
  | .discReq _ _ _, e => execDiscReq_good _ _ _ _ h e
  | .discRsp _ _ _, e => execDiscRsp_good _ _ _ _ h e
  | .discRetry _ _, e => execDiscRetry_good _ _ _ h e
  | .bundleFlit _ _ _ _, e => execBundleFlit_good _ _ _ _ _ h e
  | .drainReqPin, e => execDrainReqPin_good _ h e
  | .fltDrainCmdDrain, e => execFltDrainCmdDrain_good _ h e
  | .fltDrainCmdRelease, e => execFltDrainCmdRelease_good _ h e
  | .drained, e => execDrained_good _ h e
  | .testBlockCompare _ _ _ _ _, e => execTestBlockCompare_good _ _ _ _ _ _ h e
  | .inputSwitchClose, e => execInputSwitchClose_good _ h e
  | .pwrEnLow, e => execPwrEnLow_good _ h e
  | .inputUndervoltage _, e => execInputUndervoltage_good _ _ h e
  | .inputOvervoltage, e => execInputOvervoltage_good _ h e
  | .inputOvercurrent, e => execInputOvercurrent_good _ h e
  | .inputReverseCurrent, e => execInputReverseCurrent_good _ h e
  | .limiterEval _, e => execLimiterEval_good _ _ h e
  | .ballastStep _, e => execBallastStep_good _ _ h e
  | .boostClockUpdate _, e => execBoostClockUpdate_good _ _ h e
  | .sensorScan _, e => execSensorScan_good _ _ h e
  | .thermalCapStep, e => execThermalCapStep_good _ h e
  | .tjTrip _ _, e => execTjTrip_good _ _ _ h e
  | .dramCrit _, e => execDramCrit_good _ _ h e
  | .flowEstimate _ _, e => execFlowEstimate_good _ _ _ h e
  | .coolantLoss, e => execCoolantLoss_good _ h e
  | .inletCrit, e => execInletCrit_good _ h e
  | .coolantCheck _, e => execCoolantCheck_good _ _ h e
  | .sensorPoll _, e => execSensorPoll_good _ _ h e
  | .sensorRepoll _ _, e => execSensorRepoll_good _ _ _ h e
  | .snsBusRetry _, e => execSnsBusRetry_good _ _ h e
  | .bringupP0, e => execBringupP0_good _ h e
  | .fwAuth _ _, e => execFwAuth_good _ _ _ h e
  | .discovery _, e => execDiscovery_good _ _ h e
  | .atticRestore _, e => execAtticRestore_good _ _ h e
  | .training _, e => execTraining_good _ _ h e
  | .errorRateCheck _, e => execErrorRateCheck_good _ _ h e
  | .selfTest _, e => execSelfTest_good _ _ h e
  | .bringupZeroing, e => execBringupZeroing_good _ h e
  | .ready, e => execReady_good _ h e
  | .topResetCmd _ _, e => execTopResetCmd_good _ _ _ h e
  | .perstN, e => execPerstN_good _ h e
  | .atticWriteCommit, e => execAtticWriteCommit_good _ h e
  | .atticPackageTimer, e => execAtticPackageTimer_good _ h e
  | .atticSync, e => execAtticSync_good _ h e
  | .clearSettings, e => execClearSettings_good _ h e
  | .coldNext, e => execColdNext_good _ h e
  | .planLoad _, e => execPlanLoad_good _ _ h e
  | .planLoadDone _ _, e => execPlanLoadDone_good _ _ _ h e
  | .unload _, e => execUnload_good _ _ h e
  | .restart _, e => execRestart_good _ _ h e
  | .partOwnerCmd, e => execPartOwnerCmd_good _ h e
  | .zeroed, e => execZeroed_good _ h e
  | .partRunStart, e => execPartRunStart_good _ h e
  | .partRunStop, e => execPartRunStop_good _ h e
  | .pageEnable _ _, e => execPageEnable_good _ _ _ h e
  | .pageDisable _ _, e => execPageDisable_good _ _ _ h e
  | .registerWrite _ _ _, e => execRegisterWrite_good _ _ _ _ h e
  | .postedWriteDone _, e => execPostedWriteDone_good _ _ h e
  | .pgEvtAck _ _ _, e => execPgEvtAck_good _ _ _ _ h e
  | .pgEvtSeqRead _ _, e => execPgEvtSeqRead_good _ _ _ h e
  | .tickCountLoRead _, e => execTickCountLoRead_good _ _ h e
  | .tickLaunchLoRead _, e => execTickLaunchLoRead_good _ _ h e
  | .tickJobLoRead _, e => execTickJobLoRead_good _ _ h e
  | .panLowWordRead _ _ _, e => execPanLowWordRead_good _ _ _ _ h e
  | .panGnsSmall0Read _ _, e => execPanGnsSmall0Read_good _ _ _ h e
  | .fltLogDataRead _, e => execFltLogDataRead_good _ _ h e
  | .atticHistDataRead _, e => execAtticHistDataRead_good _ _ h e
  | .cwAddrWrite _ _, e => execCwAddrWrite_good _ _ _ h e
  | .cwDataWrite _ _, e => execCwDataWrite_good _ _ _ h e
  | .cwDataRead _, e => execCwDataRead_good _ _ h e
  | .coreWinAccessDone _ _, e => execCoreWinAccessDone_good _ _ _ h e
  | .dmaStart _, e => execDmaStart_good _ _ h e
  | .dmaDone _, e => execDmaDone_good _ _ h e
  | .bar2Access _ _ _ _ _, e => execBar2Access_good _ _ _ _ _ _ h e
  | .winAddr _ _, e => execWinAddr_good _ _ _ h e
  | .winRead, e => execWinRead_good _ h e
  | .winWrite _ _, e => execWinWrite_good _ _ _ h e
  | .state, e => execState_good _ h e
  | .winStatus, e => execWinStatus_good _ h e
  | .guestReplayTimeout, e => execGuestReplayTimeout_good _ h e
  | .guestRetrain _ _ _ _, e => execGuestRetrain_good _ _ _ _ _ h e
  | .lightReturns _, e => execLightReturns_good _ _ h e
  | .linkChange _, e => execLinkChange_good _ _ h e
  | .hotReset, e => execHotReset_good _ h e
  | .functionLevelReset _, e => execFunctionLevelReset_good _ _ h e
  | .alertResponse, e => execAlertResponse_good _ h e
  | .convFault _, e => execConvFault_good _ _ h e

/-- A step takes the front off the queue, and keeps the fuses and the canonical form. -/
theorem step_good {s t : State} (hc : Canonical s) (e : step s = .next t) :
    Good { s with pending := s.pending.tail } t := by
  cases hq : s.pending with
  | nil =>
    rw [step_of_empty hq] at e
    cases e
    obtain ⟨hf, hp, hcan⟩ := idle_good s (good_refl hc)
    exact ⟨hf, hp.trans hq, hcan⟩
  | cons c rest =>
    rw [step_of_front hq] at e
    exact exec_good (s := { s with pending := rest }) ⟨rfl, rfl, hc⟩ c e

/-- Settles O5, from what every row keeps. -/
theorem noStepTouchesFusesOrTheWaitingQueue : Obligations.NoStepTouchesFusesOrTheWaitingQueue := by
  intro s t hc e
  obtain ⟨hf, hp, -⟩ := step_good hc e
  exact ⟨hf, hp⟩

/-! ### A write of TICK_ROOT that takes the root away (R12, R13; log 5) -/

/-- A served package that is the time root by default: TICK_ROOT and TOP_PKG_ID are 0, and the stored LOCK still reads 0. -/
def servedRoot : State :=
  { setF State.reset R.ATTIC_RESTORE_STA.DONE 1 with hearth := { hearth0 with pwrEn := true, closed := true } }

/-- Writing 1 to TICK_ROOT names another root: the package keeps the lock it had as the root, so the stored LOCK rises. -/
theorem getF_lock_servedRoot_write :
    getF (writeReg (.pf 0) (barOffset 0x03 0 0x70) 1 servedRoot) R.TICK_SYNC_STA.LOCK = 1 := by decide

/-- Refutes O56: its first clause has an accepted write leave every field of the TICK page beside its register as it is, but
the write of TICK_ROOT at 0x70 on a package that was the root sets LOCK at 0x74 (`noteRoot`, log 5). -/
theorem not_registerWritesFollowTheirViewsAndRights : ¬ Obligations.RegisterWritesFollowTheirViewsAndRights := by
  intro h
  obtain ⟨hwrite, -⟩ := h
  obtain ⟨haccepted, -⟩ := hwrite 0 0x70 1#32 servedRoot (by decide) (by decide) (by decide) (by decide) (by decide)
  obtain ⟨t, ht, -, hother, -⟩ := haccepted (by decide) (by decide) (by decide)
  have hkept : getF t R.TICK_SYNC_STA.LOCK = getF servedRoot R.TICK_SYNC_STA.LOCK :=
    hother R.TICK_SYNC_STA.LOCK (by decide) (.inl (by decide))
  have hzero : getF servedRoot R.TICK_SYNC_STA.LOCK = 0 := by decide
  have hone : getF t R.TICK_SYNC_STA.LOCK = 1 := by
    cases ht
    exact getF_lock_servedRoot_write
  omega

end Sys2Proof.Machine
end

section
/-! The canonical form, whatever command runs: O4, from what every row keeps. -/

namespace Sys2Proof.Machine

/-- Settles O4: `step_good` says that a step from a canonical state ends in one, by the `Good` lemma of its row. -/
theorem everyStepKeepsTheCanonicalForm : Obligations.EveryStepKeepsTheCanonicalForm := by
  intro s t hc e
  obtain ⟨-, -, hcan⟩ := step_good hc e
  exact hcan

end Sys2Proof.Machine
end

section
/-! What an update leaves as it was: the registers beside a list, the raised events, the parts of the state. -/

namespace Sys2Proof.Machine

/-! ### Registers beside a list -/

theorem RegsBut.refl (fs : List Fld) (s : State) : RegsBut fs s s := fun _ _ => rfl

theorem RegsBut.trans {fs : List Fld} {s t u : State} (h : RegsBut fs s t) (k : RegsBut fs t u) : RegsBut fs s u :=
  fun x hx => (k x hx).trans (h x hx)

theorem RegsBut.mono {fs gs : List Fld} {s t : State} (h : RegsBut fs s t) (hs : fs ⊆ gs) : RegsBut gs s t :=
  fun x hx => h x fun hm => hx (List.map_subset _ hs hm)

theorem RegsBut.of_regs {fs : List Fld} {s t : State} (h : t.regs = s.regs) : RegsBut fs s t := fun x _ => by rw [h]

/-- A field that is not listed reads as before. -/
theorem RegsBut.getF_eq {fs : List Fld} {s t : State} (h : RegsBut fs s t) {g : Fld} (hg : fldKey g ∉ fs.map fldKey) :
    getF t g = getF s g := by
  unfold getF; rw [h _ hg]

theorem regsBut_setF {fs : List Fld} (s : State) {f : Fld} (v : Nat) (hf : f ∈ fs) : RegsBut fs s (setF s f v) :=
  fun _ hk => smGet_smSet_other 0 _ _ _ _ fun he => hk (he ▸ List.mem_map_of_mem hf)

theorem regsBut_setFs {fs : List Fld} (l : List (Fld × Nat)) (s : State) (hl : ∀ e ∈ l, e.1 ∈ fs) :
    RegsBut fs s (setFs s l) := by
  induction l generalizing s with
  | nil => exact .refl _ _
  | cons e l ih =>
    exact (regsBut_setF s e.2 (hl e (by simp))).trans (ih _ fun x hx => hl x (by simp [hx]))

theorem regsBut_raise {fs : List Fld} (e : Ev) (s : State) (he : evFlds e ⊆ fs) : RegsBut fs s (raise e s) := by
  have hevt : R.PG_EVT.EVT e.page ∈ fs := he (by simp [evFlds])
  have hseq : R.PG_EVT_SEQ.SEQ e.page ∈ fs := he (by simp [evFlds])
  have hlap : R.PG_EVT_SEQ.LAP e.page ∈ fs := he (by simp [evFlds])
  have h2 := (regsBut_setF s (getF s (R.PG_EVT.EVT e.page) ||| 2 ^ e.bit) hevt).trans
    (regsBut_setF _ (getF s (R.PG_EVT_SEQ.SEQ e.page) + 1) hseq)
  unfold raise
  refine RegsBut.trans ?_ (.of_regs (signal_regs _ _ _ _))
  dsimp only
  split
  · exact h2.trans (regsBut_setF _ _ hlap)
  · exact h2

/-! ### Raised events -/

/-- Every event raised in `s` is raised in `t`. -/
def RaisedKept (s t : State) : Prop := ∀ e : Ev, e.bit < 16 → raised e s → raised e t

theorem RaisedKept.refl (s : State) : RaisedKept s s := fun _ _ h => h

theorem RaisedKept.trans {s t u : State} (h : RaisedKept s t) (k : RaisedKept t u) : RaisedKept s u :=
  fun e hb hr => k e hb (h e hb hr)

theorem RaisedKept.of_regs {s t : State} (h : t.regs = s.regs) : RaisedKept s t := fun e _ hr => by
  unfold raised at hr ⊢; rwa [getF_congr h]

theorem raisedKept_raise (e : Ev) (s : State) : RaisedKept s (raise e s) := fun e' hb hr => raised_mono e' e s hb hr

/-- The place of a field within its page. -/
def fldPlace (f : Fld) : Nat := f.off * 32 + f.lo

/-- A field that lies beside PG_EVT within the page. -/
abbrev NotEvt (f : Fld) : Prop := fldPlace f % 2 ^ 17 ≠ 0x180

theorem fldKey_ne_evt {f : Fld} (h : NotEvt f) (p : Nat) : fldKey f ≠ fldKey (R.PG_EVT.EVT p) := by
  have hp : (f.off * 32 + f.lo) % 2 ^ 17 ≠ 0x180 := h
  simp only [fldKey, R.PG_EVT.EVT]
  omega

theorem raisedKept_setF (s : State) {f : Fld} (v : Nat) (h : NotEvt f) : RaisedKept s (setF s f v) :=
  fun e _ hr => raised_setF e s f v (fldKey_ne_evt h e.page) hr

theorem raisedKept_setFs (l : List (Fld × Nat)) (s : State) (hl : ∀ e ∈ l, NotEvt e.1) : RaisedKept s (setFs s l) := by
  induction l generalizing s with
  | nil => exact .refl s
  | cons e l ih => exact (raisedKept_setF s e.2 (hl e (by simp))).trans (ih _ fun x hx => hl x (by simp [hx]))

/-! ### Parts of the state -/

theorem ChangesOnly.refl (ps : List Part) (s : State) : ChangesOnly ps s s := fun p _ => by cases p <;> rfl

theorem Part.same_trans {p : Part} {s t u : State} (h : p.same s t) (k : p.same t u) : p.same s u := by
  cases p <;> exact k.trans h

theorem ChangesOnly.trans {ps : List Part} {s t u : State} (h : ChangesOnly ps s t) (k : ChangesOnly ps t u) :
    ChangesOnly ps s u := fun p hp => Part.same_trans (h p hp) (k p hp)

theorem ChangesOnly.mono {ps qs : List Part} {s t : State} (h : ChangesOnly ps s t) (hs : ps ⊆ qs) : ChangesOnly qs s t :=
  fun p hp => h p fun hm => hp (hs hm)

theorem changesOnly_setF (s : State) (f : Fld) (v : Nat) : ChangesOnly [.regs] s (setF s f v) := fun p hp => by
  cases p <;> simp_all [Part.same]

theorem changesOnly_setFs (s : State) (l : List (Fld × Nat)) : ChangesOnly [.regs] s (setFs s l) := fun p hp => by
  cases p <;> simp_all [Part.same]

theorem changesOnly_raise (e : Ev) (s : State) : ChangesOnly [.regs, .out, .hif] s (raise e s) := fun p hp => by
  cases p <;> simp_all [Part.same]

/-! ### The log (R303) -/

/-- The fields that a log entry may write. -/
def logFlds : List Fld := [R.FLT_LOG_HEAD.SEQ, R.FLT_LOG_HEAD.LAP] ++ evFlds E.FAULT.FAULT_LOGGED

/-- The entry that a fault leaves in the log (Table 11.4). -/
def entryOf (r : FaultRec) (recur : Bool) (s : State) : LogEntry :=
  { seq := getF s R.FLT_LOG_HEAD.SEQ, code := r.code,
    flags := r.cls + b2n (s.tick.replay == .running) * 4 + b2n recur * 8 + b2n (!running s) * 16,
    unit := r.unit, unitId := r.unitId, tick := tickNum s, cycle := r.cyc % 2 ^ 16,
    extra := r.extra, time := s.counter, detail := r.detail % 2 ^ 64 }

/-- An entry takes its place in the ring. -/
def putEntry (e : LogEntry) (s : State) : State :=
  { s with flt := { s.flt with log := smSet none s.flt.log (e.seq % 1024) (some e) } }

/-- The head moves past SEQ `q`; LAP toggles where SEQ wraps. -/
def advanceHead (q : Nat) (s : State) : State :=
  let s := setF s R.FLT_LOG_HEAD.SEQ (q + 1)
  if q = 2 ^ 16 - 1 then raise E.FAULT.LOG_LAP (setF s R.FLT_LOG_HEAD.LAP (1 - getF s R.FLT_LOG_HEAD.LAP)) else s

/-- What a log entry does, in its three steps. -/
theorem logEntry_eq (r : FaultRec) (b : Bool) (s : State) :
    logEntry r b s =
      raise E.FAULT.FAULT_LOGGED (advanceHead (getF s R.FLT_LOG_HEAD.SEQ) (putEntry (entryOf r b s) s)) := rfl

theorem changesOnly_putEntry (e : LogEntry) (s : State) : ChangesOnly [.flt] s (putEntry e s) := fun p hp => by
  cases p <;> simp_all [Part.same, putEntry]

theorem changesOnly_advanceHead (q : Nat) (s : State) : ChangesOnly [.regs, .out, .hif] s (advanceHead q s) := by
  have h1 := (changesOnly_setF s R.FLT_LOG_HEAD.SEQ (q + 1)).mono (qs := [.regs, .out, .hif]) (by simp)
  unfold advanceHead
  dsimp only
  split
  · exact h1.trans (((changesOnly_setF _ _ _).mono (by simp)).trans (changesOnly_raise _ _))
  · exact h1

theorem changesOnly_logEntry (r : FaultRec) (b : Bool) (s : State) :
    ChangesOnly [.regs, .out, .hif, .flt] s (logEntry r b s) := by
  rw [logEntry_eq]
  exact ((changesOnly_putEntry _ s).mono (by simp)).trans
    (((changesOnly_advanceHead _ _).mono (by simp)).trans ((changesOnly_raise _ _).mono (by simp)))

theorem regsBut_advanceHead (q : Nat) (s : State) : RegsBut logFlds s (advanceHead q s) := by
  have h1 : RegsBut logFlds s (setF s R.FLT_LOG_HEAD.SEQ (q + 1)) := regsBut_setF _ _ (by decide)
  unfold advanceHead
  dsimp only
  split
  · exact h1.trans ((regsBut_setF _ _ (by decide)).trans (regsBut_raise _ _ (by decide)))
  · exact h1

theorem regsBut_logEntry (r : FaultRec) (b : Bool) (s : State) : RegsBut logFlds s (logEntry r b s) := by
  rw [logEntry_eq]
  exact (regsBut_advanceHead _ (putEntry _ s)).trans (regsBut_raise _ _ (by decide))

theorem raisedKept_advanceHead (q : Nat) (s : State) : RaisedKept s (advanceHead q s) := by
  have h1 : RaisedKept s (setF s R.FLT_LOG_HEAD.SEQ (q + 1)) := raisedKept_setF _ _ (by decide)
  unfold advanceHead
  dsimp only
  split
  · exact h1.trans ((raisedKept_setF _ _ (by decide)).trans (raisedKept_raise _ _))
  · exact h1

theorem raisedKept_logEntry (r : FaultRec) (b : Bool) (s : State) : RaisedKept s (logEntry r b s) := by
  rw [logEntry_eq]
  exact (raisedKept_advanceHead _ (putEntry _ s)).trans (raisedKept_raise _ _)

theorem changesOnly_logOnly (code unit id cyc detail : Nat) (s : State) :
    ChangesOnly [.regs, .out, .hif, .flt] s (logOnly code unit id cyc detail s) := changesOnly_logEntry _ _ s

theorem regsBut_logOnly (code unit id cyc detail : Nat) (s : State) :
    RegsBut logFlds s (logOnly code unit id cyc detail s) := regsBut_logEntry _ _ s

theorem raisedKept_logOnly (code unit id cyc detail : Nat) (s : State) :
    RaisedKept s (logOnly code unit id cyc detail s) := raisedKept_logEntry _ _ s

end Sys2Proof.Machine
end

section
/-! The messages of the tick and the overrun: SYNC frames queued on the ports, and what a declared overrun leaves. -/

namespace Sys2Proof.Machine

/-! ### Bytes -/

@[simp] theorem length_leBytes (k n : Nat) : (leBytes k n).length = k := by
  induction k generalizing n with
  | zero => rfl
  | succ k ih => simp [leBytes, ih]

/-! ### Queued SYNC frames (R254, R262) -/

theorem getPort_updPort (s : State) (p q : Nat) (f : Port → Port) :
    getPort (updPort s p f) q = if p = q then f (getPort s p) else getPort s q := smGet_smUpd _ _ _ _ _

theorem changesOnly_queueSync (p : Nat) (f : Frame) (s : State) : ChangesOnly [.ports] s (queueSync p f s) := fun q hq => by
  cases q <;> simp_all [Part.same]

theorem getPort_queueSync_same (p : Nat) (f : Frame) (s : State) :
    (getPort (queueSync p f s) p).syncQ = (getPort s p).syncQ ++ [⟨f, 0⟩] := by
  unfold queueSync; rw [getPort_updPort, if_pos rfl]

/-- A frame that waits on a port still waits when another is queued. -/
theorem syncQ_queueSync_of_mem {x : SyncTx} {q : Nat} (p : Nat) (f : Frame) (s : State) (h : x ∈ (getPort s q).syncQ) :
    x ∈ (getPort (queueSync p f s) q).syncQ := by
  unfold queueSync
  rw [getPort_updPort]
  split
  · next hp => subst hp; simp [h]
  · exact h

theorem changesOnly_queueSyncs (f : Frame) (ps : List Nat) (s : State) : ChangesOnly [.ports] s (queueSyncs f s ps) := by
  induction ps generalizing s with
  | nil => exact .refl _ s
  | cons p ps ih => exact (changesOnly_queueSync p f s).trans (ih _)

theorem syncQ_queueSyncs_of_mem {x : SyncTx} {q : Nat} (f : Frame) (ps : List Nat) (s : State)
    (h : x ∈ (getPort s q).syncQ) : x ∈ (getPort (queueSyncs f s ps) q).syncQ := by
  induction ps generalizing s with
  | nil => exact h
  | cons p ps ih => exact ih _ (syncQ_queueSync_of_mem p f s h)

theorem mem_syncQ_queueSyncs (f : Frame) (ps : List Nat) (s : State) {q : Nat} (hq : q ∈ ps) :
    ⟨f, 0⟩ ∈ (getPort (queueSyncs f s ps) q).syncQ := by
  induction ps generalizing s with
  | nil => simp at hq
  | cons p ps ih =>
    rcases List.mem_cons.mp hq with rfl | hq
    · exact syncQ_queueSyncs_of_mem f ps _ (by rw [getPort_queueSync_same]; simp)
    · exact ih _ hq

theorem changesOnly_broadcast (k : Nat) (pl : List Byte) (s : State) : ChangesOnly [.ports] s (broadcast k pl s) :=
  changesOnly_queueSyncs _ _ s

/-- A broadcast waits on every dimension port. -/
theorem mem_syncQ_broadcast (k : Nat) (pl : List Byte) (s : State) {p : Nat} (hp : p ∈ dimPorts s 0) :
    ⟨syncFrame s k 0 true pl, 0⟩ ∈ (getPort (broadcast k pl s) p).syncQ := mem_syncQ_queueSyncs _ _ _ hp

/-- The payload of a SYNC frame begins with the bytes given. -/
theorem syncFrame_payload_take (s : State) (k d : Nat) (bc : Bool) {n : Nat} {pl : List Byte} (h : pl.length = n) :
    (syncFrame s k d bc pl).payload.take n = pl := List.take_left' h

/-! ### What is read of the registers alone -/

theorem running_congr {s t : State} (h : t.regs = s.regs) : running t = running s := by
  unfold running flagF; rw [getF_congr h]

theorem flagF_of_eq_one {s : State} {f : Fld} (h : getF s f = 1) : flagF s f = true := by simp [flagF, h]

theorem flagF_of_eq_zero {s : State} {f : Fld} (h : getF s f = 0) : flagF s f = false := by simp [flagF, h]

end Sys2Proof.Machine
end

section
/-! The sync exchange (R10 to R13). -/

namespace Sys2Proof.Machine

/-! ### LOCK -/

theorem changesOnly_setLock (b : Bool) (s : State) : ChangesOnly [.regs, .out, .hif] s (setLock b s) := by
  unfold setLock raiseIf
  have h1 := (changesOnly_setF s R.TICK_SYNC_STA.LOCK (if b then 1 else 0)).mono (qs := [.regs, .out, .hif]) (by simp)
  split
  · exact h1.trans (changesOnly_raise _ _)
  · exact h1

theorem regsBut_setLock (b : Bool) (s : State) :
    RegsBut (R.TICK_SYNC_STA.LOCK :: evFlds E.TICK.SYNC_LOCK) s (setLock b s) := by
  have h1 : RegsBut (R.TICK_SYNC_STA.LOCK :: evFlds E.TICK.SYNC_LOCK) s (setB s R.TICK_SYNC_STA.LOCK b) :=
    regsBut_setF _ _ (by simp)
  unfold setLock raiseIf
  split
  · exact h1.trans (regsBut_raise _ _ (by simp))
  · exact h1

theorem getF_setLock (b : Bool) (s : State) : getF (setLock b s) R.TICK_SYNC_STA.LOCK = if b then 1 else 0 := by
  have h1 : getF (setB s R.TICK_SYNC_STA.LOCK b) R.TICK_SYNC_STA.LOCK = if b then 1 else 0 :=
    getF_setB _ _ _ (by decide)
  unfold setLock raiseIf
  split
  · rw [getF_raise_other _ _ _ (by decide), h1]
  · exact h1

end Sys2Proof.Machine
end

section
/-! An overrun: what its record and its declaration do, and what they leave (R29). -/

namespace Sys2Proof.Machine

/-- The fields that an overrun writes. -/
def ovrFlds : List Fld := [R.TICK_OVR_SRC.PKG, R.TICK_OVR_SRC.CAUSE, R.TICK_OVR_SRC.VALID] ++ evFlds E.TICK.OVERRUN ++ logFlds

theorem changesOnly_enterDrain (b : Bool) (s : State) : ChangesOnly [.tick] s (enterDrain b s) := by
  unfold enterDrain
  split
  · exact .refl _ s
  · exact fun p hp => by cases p <;> simp_all [Part.same]

theorem regsBut_enterDrain (fs : List Fld) (b : Bool) (s : State) : RegsBut fs s (enterDrain b s) :=
  .of_regs (changesOnly_enterDrain b s .regs (by decide))

theorem raisedKept_enterDrain (b : Bool) (s : State) : RaisedKept s (enterDrain b s) :=
  .of_regs (changesOnly_enterDrain b s .regs (by decide))

theorem enterDrain_draining (b : Bool) (s : State) : (enterDrain b s).tick.draining = true := by
  unfold enterDrain
  split
  · assumption
  · rfl

/-- The registers that name an overrun. -/
def ovrSrc (pkg cause : Nat) (s : State) : State :=
  setFs s [(R.TICK_OVR_SRC.PKG, pkg), (R.TICK_OVR_SRC.CAUSE, cause), (R.TICK_OVR_SRC.VALID, 1)]

theorem regsBut_ovrSrc (pkg cause : Nat) (s : State) : RegsBut ovrFlds s (ovrSrc pkg cause s) :=
  regsBut_setFs _ s (by simp [ovrFlds])

theorem raisedKept_ovrSrc (pkg cause : Nat) (s : State) : RaisedKept s (ovrSrc pkg cause s) :=
  raisedKept_setFs _ s (by
    simpa using (by decide : NotEvt R.TICK_OVR_SRC.PKG ∧ NotEvt R.TICK_OVR_SRC.CAUSE ∧ NotEvt R.TICK_OVR_SRC.VALID))

/-- The first overrun since launch is recorded, in four steps. -/
theorem recordOverrun_of_first {pkg cause : Nat} {s : State} (h : flagF s R.TICK_OVR_SRC.VALID = false) :
    recordOverrun pkg cause s =
      enterDrain false (logOnly 0x43 uPkg 0 0 (pkg + cause * 2 ^ 12) (raise E.TICK.OVERRUN (ovrSrc pkg cause s))) := by
  simp [recordOverrun, h, ovrSrc]

theorem recordOverrun_of_valid {pkg cause : Nat} {s : State} (h : flagF s R.TICK_OVR_SRC.VALID = true) :
    recordOverrun pkg cause s = s := by simp [recordOverrun, h]

theorem changesOnly_recordOverrun (pkg cause : Nat) (s : State) :
    ChangesOnly [.regs, .out, .hif, .flt, .tick] s (recordOverrun pkg cause s) := by
  cases h : flagF s R.TICK_OVR_SRC.VALID with
  | true => rw [recordOverrun_of_valid h]; exact .refl _ s
  | false =>
    rw [recordOverrun_of_first h]
    refine ((changesOnly_setFs s _).mono (by simp)).trans <| ((changesOnly_raise _ _).mono (by simp)).trans <|
      ((changesOnly_logOnly _ _ _ _ _ _).mono (by simp)).trans <| (changesOnly_enterDrain _ _).mono (by simp)

theorem regsBut_recordOverrun (pkg cause : Nat) (s : State) : RegsBut ovrFlds s (recordOverrun pkg cause s) := by
  cases h : flagF s R.TICK_OVR_SRC.VALID with
  | true => rw [recordOverrun_of_valid h]; exact .refl _ s
  | false =>
    rw [recordOverrun_of_first h]
    refine (regsBut_ovrSrc pkg cause s).trans <| (regsBut_raise E.TICK.OVERRUN _ (by decide)).trans <|
      ((regsBut_logOnly _ _ _ _ _ _).mono (by decide)).trans <| regsBut_enterDrain _ _ _

theorem raisedKept_recordOverrun (pkg cause : Nat) (s : State) : RaisedKept s (recordOverrun pkg cause s) := by
  cases h : flagF s R.TICK_OVR_SRC.VALID with
  | true => rw [recordOverrun_of_valid h]; exact .refl s
  | false =>
    rw [recordOverrun_of_first h]
    exact (raisedKept_ovrSrc pkg cause s).trans <| (raisedKept_raise _ _).trans <|
      (raisedKept_logOnly _ _ _ _ _ _).trans (raisedKept_enterDrain _ _)

/-- A package that has recorded no overrun records this one. -/
theorem firstOverrun_recordOverrun {pkg cause : Nat} {s : State} (hv : getF s R.TICK_OVR_SRC.VALID = 0)
    (hp : pkg < 4096) (hc : cause < 16) : FirstOverrun pkg cause (recordOverrun pkg cause s) := by
  rw [recordOverrun_of_first (flagF_of_eq_zero hv)]
  have hregs : RegsBut (evFlds E.TICK.OVERRUN ++ logFlds) (ovrSrc pkg cause s)
      (enterDrain false (logOnly 0x43 uPkg 0 0 (pkg + cause * 2 ^ 12) (raise E.TICK.OVERRUN (ovrSrc pkg cause s)))) :=
    (regsBut_raise _ _ (by decide)).trans <| ((regsBut_logOnly _ _ _ _ _ _).mono (by decide)).trans <|
      regsBut_enterDrain _ _ _
  refine ⟨?_, ?_, ?_, ?_, enterDrain_draining _ _⟩
  · rw [hregs.getF_eq (by decide)]
    exact getF_setF _ _ _
  · rw [hregs.getF_eq (by decide)]
    show getF (setF (setF (setF s _ _) _ _) _ _) _ = _
    rw [getF_setF_other _ _ _ _ (by decide), getF_setF_other _ _ _ _ (by decide), getF_setF]
    exact Nat.mod_eq_of_lt hp
  · rw [hregs.getF_eq (by decide)]
    show getF (setF (setF (setF s _ _) _ _) _ _) _ = _
    rw [getF_setF_other _ _ _ _ (by decide), getF_setF]
    exact Nat.mod_eq_of_lt hc
  · exact ((raisedKept_logOnly _ _ _ _ _ _).trans (raisedKept_enterDrain _ _)) _ (by decide) (raised_raise _ _ (by decide))

/-! ### Declaring one -/

/-- The ABORT of a declared overrun (R29). -/
def sendAbort (cause : Nat) (s : State) : State :=
  broadcast 7 (leBytes 2 (myId s) ++ leBytes 1 cause ++ leBytes 3 (tickNum s)) s

theorem declareOverrun_of_first {cause : Nat} {s : State} (hv : flagF s R.TICK_OVR_SRC.VALID = false)
    (hr : running s = true) : declareOverrun cause s = recordOverrun (myId s) cause (sendAbort cause s) := by
  simp [declareOverrun, hv, hr, sendAbort]

theorem declareOverrun_of_valid {cause : Nat} {s : State} (hv : flagF s R.TICK_OVR_SRC.VALID = true) :
    declareOverrun cause s = s := by simp [declareOverrun, hv]

theorem sendAbort_regs (cause : Nat) (s : State) : (sendAbort cause s).regs = s.regs :=
  changesOnly_broadcast _ _ s .regs (by decide)

theorem changesOnly_declareOverrun (cause : Nat) (s : State) :
    ChangesOnly [.regs, .out, .hif, .flt, .tick, .ports] s (declareOverrun cause s) := by
  unfold declareOverrun
  split
  · exact .refl _ s
  · exact ((changesOnly_broadcast _ _ s).mono (by simp)).trans ((changesOnly_recordOverrun _ _ _).mono (by simp))

theorem regsBut_declareOverrun (cause : Nat) (s : State) : RegsBut ovrFlds s (declareOverrun cause s) := by
  unfold declareOverrun
  split
  · exact .refl _ s
  · exact (RegsBut.of_regs (changesOnly_broadcast _ _ s .regs (by decide))).trans (regsBut_recordOverrun _ _ _)

theorem raisedKept_declareOverrun (cause : Nat) (s : State) : RaisedKept s (declareOverrun cause s) := by
  unfold declareOverrun
  split
  · exact .refl s
  · exact (RaisedKept.of_regs (changesOnly_broadcast _ _ s .regs (by decide))).trans (raisedKept_recordOverrun _ _ _)

/-- A running package that has recorded no overrun records its own and sends ABORT. -/
theorem declareOverrun_first {cause : Nat} {s : State} (hr : running s = true) (hv : getF s R.TICK_OVR_SRC.VALID = 0)
    (hid : myId s < 4096) (hc : cause < 16) :
    FirstOverrun (myId s) cause (declareOverrun cause s) ∧ AbortSent cause s (declareOverrun cause s) := by
  rw [declareOverrun_of_first (flagF_of_eq_zero hv) hr]
  refine ⟨firstOverrun_recordOverrun ((getF_congr (sendAbort_regs _ _) _).trans hv) hid hc, fun p hp => ?_⟩
  refine ⟨syncFrame s 7 0 true (leBytes 2 (myId s) ++ leBytes 1 cause ++ leBytes 3 (tickNum s)), rfl, rfl, rfl, rfl,
    syncFrame_payload_take s 7 0 true (by simp), ?_⟩
  have hports : (recordOverrun (myId s) cause (sendAbort cause s)).ports = (sendAbort cause s).ports :=
    changesOnly_recordOverrun _ _ _ .ports (by decide)
  unfold getPort
  rw [hports]
  exact mem_syncQ_broadcast 7 _ s hp

end Sys2Proof.Machine
end

section
/-! The decision point, the messages of an overrun, and O13 (R26, R29, R30). -/

namespace Sys2Proof.Machine

/-! ### The ports of a broadcast -/

/-- A field of a later page than every field listed reads as before. -/
theorem RegsBut.getF_eq_of_page {fs : List Fld} {s t : State} (h : RegsBut fs s t) {g : Fld}
    (hg : ∀ f ∈ fs, fldKey f < g.page * 2 ^ 17) : getF t g = getF s g := by
  refine h.getF_eq fun hm => ?_
  obtain ⟨f, hf, he⟩ := List.mem_map.mp hm
  have := hg f hf
  unfold fldKey at he this
  omega

/-- Every field of the PORCH pages and the pages behind them reads alike. -/
def PorchAlike (s t : State) : Prop := ∀ f : Fld, 0x20 ≤ f.page → getF t f = getF s f

theorem PorchAlike.of_regs {s t : State} (h : t.regs = s.regs) : PorchAlike s t := fun f _ => getF_congr h f

theorem porchAlike_raise {e : Ev} (he : e.page < 0x20) (s : State) : PorchAlike s (raise e s) := fun f hf => by
  refine (regsBut_raise e s (List.Subset.refl _)).getF_eq_of_page fun g hg => ?_
  simp only [evFlds, List.mem_cons, List.not_mem_nil, or_false] at hg
  rcases hg with rfl | rfl | rfl <;> simp only [fldKey, R.PG_EVT.EVT, R.PG_EVT_SEQ.SEQ, R.PG_EVT_SEQ.LAP] <;> omega

theorem carrier_congr {s t : State} (h : PorchAlike s t) (k : Nat) : carrier t k = carrier s k := by
  have hrole : ∀ p, getF t (R.PORT_BIND.ROLE p) = getF s (R.PORT_BIND.ROLE p) := fun p => h _ (by simp [R.PORT_BIND.ROLE])
  have hact : ∀ p, getF t (R.PORT_STA.ACTIVE p) = getF s (R.PORT_STA.ACTIVE p) := fun p => h _ (by simp [R.PORT_STA.ACTIVE])
  have hnow : ∀ p, getF t (R.PORT_STA.NOWFOR p) = getF s (R.PORT_STA.NOWFOR p) := fun p => h _ (by simp [R.PORT_STA.NOWFOR])
  have hdown : ∀ p, getF t (R.PORT_STA.DOWN p) = getF s (R.PORT_STA.DOWN p) := fun p => h _ (by simp [R.PORT_STA.DOWN])
  have hreb : ∀ p, getF t (R.PORT_STA.REBOUND p) = getF s (R.PORT_STA.REBOUND p) := fun p =>
    h _ (by simp [R.PORT_STA.REBOUND])
  have huse : ∀ p, getF t (R.PORT_STA.USABLE p) = getF s (R.PORT_STA.USABLE p) := fun p => h _ (by simp [R.PORT_STA.USABLE])
  simp only [carrier, flagF, hrole, hact, hnow, hdown, hreb, huse]
  rfl

theorem dimPorts_congr {s t : State} (h : PorchAlike s t) (lo : Nat) : dimPorts t lo = dimPorts s lo := by
  have hrole : ∀ p, getF t (R.PORT_BIND.ROLE p) = getF s (R.PORT_BIND.ROLE p) := fun p => h _ (by simp [R.PORT_BIND.ROLE])
  have hdim : ∀ p, getF t (R.PORT_BIND.DIM p) = getF s (R.PORT_BIND.DIM p) := fun p => h _ (by simp [R.PORT_BIND.DIM])
  simp only [dimPorts, hrole, hdim, carrier_congr h]

/-- What an ABORT names is read of the registers. -/
theorem abortSent_of_alike {cause : Nat} {s s' t : State} (h : AbortSent cause s' t) (hp : PorchAlike s s')
    (hid : myId s' = myId s) (hn : tickNum s' = tickNum s) : AbortSent cause s t := by
  unfold AbortSent at h ⊢
  rwa [dimPorts_congr hp, hid, hn] at h

/-! ### The decision point (R26) -/

/-- The secondaries whose cores have not come to rest will stop. -/
def stopUnready (s : State) : State := [1, 2, 3].foldl (fun s n => if partAtRest s n then s else stopLater n 2 s) s

/-- What the package decides at D, the last cycle closed. -/
def judgeD (s : State) : State :=
  if !s.tick.atD then s
  else if !partAtRest s 0 || tickBlocked s then needStretch s
  else if flagF s R.TICK_STRETCH_CNT.VOIDED && !sumsComplete s 0 then declareOverrun 1 s
  else sendLockstep s

theorem decision_eq (s : State) : decision s = judgeD (stopUnready (closeSems (AtD s))) := rfl

theorem changesOnly_stopLater (n c : Nat) (s : State) : ChangesOnly [.secStop] s (stopLater n c s) := by
  unfold stopLater
  split
  · exact fun p hp => by cases p <;> simp_all [Part.same]
  · exact .refl _ s

theorem changesOnly_stopUnready (s : State) : ChangesOnly [.secStop] s (stopUnready s) := by
  have step : ∀ (n : Nat) (s : State), ChangesOnly [.secStop] s (if partAtRest s n then s else stopLater n 2 s) := by
    intro n s
    split
    · exact .refl _ s
    · exact changesOnly_stopLater n 2 s
  exact ((step 1 s).trans (step 2 _)).trans (step 3 _)

theorem stopUnready_of_rest {s : State} (h : ∀ n, n ≠ 0 → partAtRest s n = true) : stopUnready s = s := by
  simp [stopUnready, h]

theorem partAtRest_congr {s t : State} (h : t.cores = s.cores) (n : Nat) : partAtRest t n = partAtRest s n := by
  unfold partAtRest; rw [h]

theorem changesOnly_redoGuest (s : State) : ChangesOnly [.mem, .guest] s (redoGuest s) := by
  unfold redoGuest
  have fold : ∀ (l : List (Nat × List Byte × List Byte)) (s : State),
      ChangesOnly [.mem, .guest] s (l.foldl (fun s e => wrMems s e.1 e.2.2) s) := by
    intro l
    induction l with
    | nil => exact fun s => .refl _ s
    | cons e l ih =>
      exact fun s => ChangesOnly.trans (fun p hp => by cases p <;> simp_all [Part.same]) (ih (wrMems s e.1 e.2.2))
  split
  · exact (fold s.guest.wrote s).trans fun p hp => by cases p <;> simp_all [Part.same]
  · exact .refl _ s

theorem redoGuest_of_done {s : State} (h : s.guest.undone = false) : redoGuest s = s := by simp [redoGuest, h]

/-- Where the guest wrote nothing, no byte stands anew. -/
theorem redoGuest_mem_of_none {s : State} (h : s.guest.wrote = []) : (redoGuest s).mem = s.mem := by
  unfold redoGuest
  split
  · rw [h]; rfl
  · rfl

theorem changesOnly_AtD (s : State) : ChangesOnly [.tick, .mem, .guest] s (AtD s) :=
  ChangesOnly.trans (t := { s with tick := { s.tick with atD := true } })
    (fun p hp => by cases p <;> simp_all [Part.same]) ((changesOnly_redoGuest _).mono (by simp))

theorem AtD_tick (s : State) : (AtD s).tick = { s.tick with atD := true } := changesOnly_redoGuest _ .tick (by decide)
theorem AtD_regs (s : State) : (AtD s).regs = s.regs := changesOnly_AtD s .regs (by decide)
theorem AtD_cores (s : State) : (AtD s).cores = s.cores := changesOnly_AtD s .cores (by decide)

theorem decision_of_running {s : State} (hr : running s = true) (hd : s.tick.draining = false) (ha : s.tick.atD = false)
    (hc : closeSems (AtD s) = AtD s) : exec .decisionPoint s = .next (judgeD (stopUnready (AtD s))) := by
  show execDecisionPoint s = _
  simp [execDecisionPoint, hr, hd, ha, decision_eq, hc]

/-- Cores of the primary that have not come to rest need a stretch. -/
theorem judgeD_of_unrest {s : State} (ha : s.tick.atD = true) (hp : partAtRest s 0 = false) : judgeD s = needStretch s := by
  simp [judgeD, ha, hp]

theorem needStretch_over {s : State} (hv : getF s R.TICK_STRETCH_CNT.VOIDED = 0)
    (hm : getF s R.TICK_STRETCH_MAX.MAX ≤ getF s R.TICK_STRETCH_CNT.CUR) : needStretch s = declareOverrun 0 s := by
  unfold needStretch
  rw [flagF_of_eq_zero hv]
  simp only [Bool.false_eq_true, if_false]
  rw [if_pos (by omega)]

/-! ### O13 -/

/-- A declared overrun after STRETCH_LATE, of a message that comes too late (R30). -/
theorem stretchLate_declares {s : State} (hr : running s = true) (hid : myId s < 4096) :
    (getF s R.TICK_OVR_SRC.VALID = 0 → raised E.TICK.STRETCH_LATE (declareOverrun 2 (raise E.TICK.STRETCH_LATE s)) ∧
      FirstOverrun (myId s) 2 (declareOverrun 2 (raise E.TICK.STRETCH_LATE s)) ∧
      AbortSent 2 s (declareOverrun 2 (raise E.TICK.STRETCH_LATE s))) ∧
    (getF s R.TICK_OVR_SRC.VALID = 1 → raised E.TICK.STRETCH_LATE (declareOverrun 2 (raise E.TICK.STRETCH_LATE s)) ∧
      (declareOverrun 2 (raise E.TICK.STRETCH_LATE s)).ports = s.ports) := by
  have hlate : raised E.TICK.STRETCH_LATE (declareOverrun 2 (raise E.TICK.STRETCH_LATE s)) :=
    raisedKept_declareOverrun _ _ _ (by decide) (raised_raise _ s (by decide))
  have hsame : ∀ f : Fld, fldKey f ∉ (evFlds E.TICK.STRETCH_LATE).map fldKey →
      getF (raise E.TICK.STRETCH_LATE s) f = getF s f := fun f hf =>
    (regsBut_raise _ s (List.Subset.refl _)).getF_eq hf
  have hid' : myId (raise E.TICK.STRETCH_LATE s) = myId s := hsame _ (by decide)
  have hrun : running (raise E.TICK.STRETCH_LATE s) = true := by
    unfold running flagF at hr ⊢; rwa [hsame _ (by decide)]
  refine ⟨fun hv => ?_, fun hv => ⟨hlate, ?_⟩⟩
  · obtain ⟨hfirst, hsent⟩ := declareOverrun_first (cause := 2) hrun ((hsame _ (by decide)).trans hv) (hid' ▸ hid)
      (by decide)
    exact ⟨hlate, hid' ▸ hfirst, abortSent_of_alike hsent (porchAlike_raise (by decide) s) hid' (hsame _ (by decide))⟩
  · rw [declareOverrun_of_valid (flagF_of_eq_one ((hsame _ (by decide)).trans hv))]
    exact raise_ports _ s

/-- At D, with TICK_STRETCH_MAX stretches made and cores at work, the package declares an overrun (R29). -/
theorem decisionPoint_overrun {s : State} (hr : running s = true) (hd : s.tick.draining = false) (ha : s.tick.atD = false)
    (hc : closeSems (AtD s) = AtD s) (hp : partAtRest s 0 = false) (hv : getF s R.TICK_STRETCH_CNT.VOIDED = 0)
    (hm : getF s R.TICK_STRETCH_MAX.MAX ≤ getF s R.TICK_STRETCH_CNT.CUR) :
    exec .decisionPoint s = .next (declareOverrun 0 (stopUnready (AtD s))) := by
  have hstop := changesOnly_stopUnready (AtD s)
  have hregs : (stopUnready (AtD s)).regs = s.regs := (hstop .regs (by decide)).trans (AtD_regs s)
  have hcores : (stopUnready (AtD s)).cores = s.cores := (hstop .cores (by decide)).trans (AtD_cores s)
  have htick : (stopUnready (AtD s)).tick = { s.tick with atD := true } := (hstop .tick (by decide)).trans (AtD_tick s)
  rw [decision_of_running hr hd ha hc, judgeD_of_unrest (by rw [htick]) ((partAtRest_congr hcores 0).trans hp),
    needStretch_over ((getF_congr hregs _).trans hv) (by rw [getF_congr hregs, getF_congr hregs]; exact hm)]

theorem tickCmp_self (a : Nat) : tickCmp a a = .same := by
  have : subMod 24 a a = 0 := by unfold subMod; omega
  simp [tickCmp, this]

/-- Settles O13: each message by its first guard; the declarations by `declareOverrun_first`. -/
theorem overrunIsDeclaredAndRecordedOnce : Obligations.OverrunIsDeclaredAndRecordedOnce := by
  refine ⟨?_, ?_, ?_, ?_, ?_, ?_, ?_, ?_⟩
  · intro s pkg cause tick _ hr hv hp hc _
    have hch := changesOnly_recordOverrun pkg cause s
    exact ⟨recordOverrun pkg cause s, by simp [exec, execAbort, abortRx, hr], firstOverrun_recordOverrun hv hp hc,
      hch .mem (by decide), hch .cores (by decide)⟩
  · intro s pkg cause tick hr hv
    exact ⟨s, by simp [exec, execAbort, abortRx, hr, recordOverrun_of_valid (flagF_of_eq_one hv)], rfl⟩
  · intro s pkg cause tick hr
    exact ⟨s, by simp [exec, execAbort, abortRx, hr], rfl⟩
  · intro s _ hr hd ha hu hc hp hvoid hm hid
    have hexec := decisionPoint_overrun hr hd ha hc hp hvoid hm
    have hAtD : AtD s = { s with tick := { s.tick with atD := true } } := redoGuest_of_done hu
    have hch : ChangesOnly [.tick, .secStop] s (stopUnready (AtD s)) :=
      ChangesOnly.trans (t := AtD s) (hAtD ▸ fun p hp => by cases p <;> simp_all [Part.same])
        ((changesOnly_stopUnready _).mono (by simp))
    have hregs : (stopUnready (AtD s)).regs = s.regs := hch .regs (by decide)
    have hid' : myId (stopUnready (AtD s)) = myId s := getF_congr hregs _
    have hall := (hch.mono (qs := [.tick, .secStop, .regs, .out, .hif, .flt, .ports]) (by simp)).trans
      ((changesOnly_declareOverrun 0 _).mono (by simp))
    refine ⟨fun hv => ⟨_, hexec, ?_⟩, fun hv => ⟨_, hexec, ?_⟩⟩
    · obtain ⟨hfirst, hsent⟩ := declareOverrun_first (cause := 0) ((running_congr hregs).trans hr)
        ((getF_congr hregs _).trans hv) (hid' ▸ hid) (by decide)
      exact ⟨hid' ▸ hfirst, abortSent_of_alike hsent (.of_regs hregs) hid' (getF_congr hregs _), hall .mem (by decide),
        hall .cores (by decide)⟩
    · rw [declareOverrun_of_valid (flagF_of_eq_one ((getF_congr hregs _).trans hv))]
      exact ⟨hch .ports (by decide), hregs⟩
  · intro s hr hd
    exact ⟨⟨s, by simp [exec, execTickBoundary, hr, hd], rfl⟩, ⟨s, by simp [exec, execDecisionPoint, hd], rfl⟩,
      fun dw => ⟨s, by simp [exec, execVerdictPoint, hd], rfl⟩⟩
  · intro s tick k src d _ hr hd ht hold hid
    have hne : tick % 2 ^ 24 ≠ nextNum s := by
      intro he
      rw [Nat.mod_eq_of_lt ht] at he
      rw [← he, tickCmp_self] at hold
      exact absurd hold (by simp)
    have hexec : exec (.stretch tick k src) s = .next (declareOverrun 2 (raise E.TICK.STRETCH_LATE s)) := by
      show Host.Outcome.next (stretchRx tick k s) = _
      unfold stretchRx
      rw [if_neg (by simp [hr, hd]), if_neg hne, hold]
    obtain ⟨h0, h1⟩ := stretchLate_declares hr hid
    exact ⟨fun hv => ⟨_, hexec, h0 hv⟩, fun hv => ⟨_, hexec, h1 hv⟩⟩
  · intro s pkg tick _ hr hd ht hid
    have hexec : exec (.void pkg tick) s = .next (declareOverrun 2 (raise E.TICK.STRETCH_LATE s)) := by
      simp [exec, execVoid, voidRx, hr, hd, ht]
    obtain ⟨h0, h1⟩ := stretchLate_declares hr hid
    exact ⟨fun hv => ⟨_, hexec, h0 hv⟩, fun hv => ⟨_, hexec, h1 hv⟩⟩
  · intro s pkg tick hr
    exact ⟨s, by simp [exec, execVoid, voidRx, hr], rfl⟩

end Sys2Proof.Machine
end

section
/-! The sync exchange: the frames of a period, a measured offset and a missed period (R10 to R13). -/

namespace Sys2Proof.Machine

theorem changesOnly_withSync (s : State) (x : Sync) : ChangesOnly [.sync] s { s with sync := x } := fun p hp => by
  cases p <;> simp_all [Part.same]

theorem changesOnly_withTick (s : State) (x : Tick) : ChangesOnly [.tick] s { s with tick := x } := fun p hp => by
  cases p <;> simp_all [Part.same]

/-! ### TIME frames -/

/-- A queued SYNC frame is the last of its port's queue. -/
theorem queueSync_appends (p : Nat) (f : Frame) {s t : State} (h : t.ports = s.ports) :
    (getPort (queueSync p f t) p).syncQ = (getPort s p).syncQ ++ [⟨f, 0⟩] := by
  rw [getPort_queueSync_same]
  unfold getPort
  rw [h]

/-- A sync period has begun: HOPS stands and the exchange is open. -/
def periodBegun (s : State) : State :=
  let t := setF s R.TICK_SYNC_STA.HOPS (hopsTo s (getF s R.TICK_ROOT.ROOT))
  { t with sync := { t.sync with xchg := some s.counter } }

theorem changesOnly_periodBegun (s : State) : ChangesOnly [.sync, .regs] s (periodBegun s) :=
  ((changesOnly_setF s _ _).mono (by simp)).trans ((changesOnly_withSync _ _).mono (by simp))

theorem regsBut_periodBegun (s : State) : RegsBut [R.TICK_SYNC_STA.HOPS] s (periodBegun s) :=
  regsBut_setF s (hopsTo s (getF s R.TICK_ROOT.ROOT)) (List.mem_singleton_self _)

/-- A period with a route to the root sends its TIME_REQ (R10). -/
theorem syncPeriod_of_route {s : State} {p : Nat} (hr : isRoot s = false) (hp : syncRoute s = some p) :
    exec .syncPeriod s =
      .next (queueSync p (syncFrame s 0 (expectedPeer s p).1 false (leBytes 8 s.counter)) (periodBegun s)) := by
  show execSyncPeriod s = _
  simp only [execSyncPeriod, hr, hp]
  rfl

/-! ### A measured offset -/

/-- The fields that a completed exchange writes before the offset takes effect. -/
def xchgFlds : List Fld := [R.TICK_OFFSET.OFFSET, R.TICK_SYNC_STA.MISSED, R.TICK_SYNC_STA.RESID]

/-- The state in which a measured offset takes effect: the exchange is over, OFFSET, MISSED and RESID stand. -/
def xchgDone (d : Int) (s : State) : State :=
  setFs (takeFree { s with sync := { s.sync with xchg := none } }).2
    [(R.TICK_OFFSET.OFFSET, twos32 d), (R.TICK_SYNC_STA.MISSED, 0), (R.TICK_SYNC_STA.RESID, (takeFree s).1.toNat)]

theorem timeRsp_completes {s : State} {t1 : Nat} (p : PortNo) (t2 t3 : Nat) (hr : isRoot s = false)
    (hx : s.sync.xchg = some t1) :
    exec (.timeRsp p t1 t2 t3 false) s =
      .next (applyOffset (syncOffset t1 t2 t3 s.counter) (xchgDone (syncOffset t1 t2 t3 s.counter) s)) := by
  show Host.Outcome.next (timeRspRx t1 t2 t3 false s) = _
  simp [timeRspRx, hr, hx, rxStamp, takeFree, xchgDone]

theorem xchgDone_sync (d : Int) (s : State) : (xchgDone d s).sync = { s.sync with xchg := none } := setFs_sync _ _
theorem xchgDone_counter (d : Int) (s : State) : (xchgDone d s).counter = s.counter := setFs_counter _ _

theorem regsBut_xchgDone (d : Int) (s : State) : RegsBut xchgFlds s (xchgDone d s) :=
  regsBut_setFs _ (takeFree { s with sync := { s.sync with xchg := none } }).2 (by simp [xchgFlds])

theorem running_xchgDone (d : Int) (s : State) : running (xchgDone d s) = running s := by
  unfold running flagF
  rw [(regsBut_xchgDone d s).getF_eq (by decide)]

theorem missed_xchgDone (d : Int) (s : State) : getF (xchgDone d s) R.TICK_SYNC_STA.MISSED = 0 := by
  show getF (setF (setF _ _ _) _ _) _ = 0
  rw [getF_setF_other _ _ _ _ (by decide), getF_setF]
  rfl

/-- Before the first lock the counter steps by the offset (R12). -/
theorem applyOffset_steps (d : Int) {s : State} (hl : s.sync.locked = false) (hr : running s = false) :
    applyOffset d s = setLock true (stepCounter d { s with sync := { s.sync with locked := true, slew := 0 } }) := by
  simp [applyOffset, hl, hr]

/-- A locked or running package slews; the bound of R11 tells LOCK. -/
def slewBy (d : Int) (s : State) : State :=
  setLock (decide (d.natAbs ≤ 25)) { s with sync := { s.sync with slew := d } }

theorem applyOffset_slews (d : Int) {s : State} (h : s.sync.locked = true ∨ running s = true) :
    applyOffset d s = slewBy d s ∨ applyOffset d s = declareOverrun 4 (slewBy d s) := by
  have hno : (!s.sync.locked && !running s) = false := by rcases h with h | h <;> simp [h]
  unfold applyOffset
  rw [hno]
  simp only [Bool.false_eq_true, if_false]
  split
  · exact .inr rfl
  · exact .inl rfl

theorem changesOnly_slewBy (d : Int) (s : State) : ChangesOnly [.sync, .regs, .out, .hif] s (slewBy d s) :=
  ((changesOnly_withSync s _).mono (by simp)).trans ((changesOnly_setLock _ _).mono (by simp))

theorem slewBy_sync (d : Int) (s : State) : (slewBy d s).sync = { s.sync with slew := d } :=
  changesOnly_setLock _ { s with sync := { s.sync with slew := d } } .sync (by decide)

/-- What a slewed offset leaves: an overrun declared on the way changes neither the count nor LOCK. -/
theorem applyOffset_slewed (d : Int) {s : State} (h : s.sync.locked = true ∨ running s = true) :
    (applyOffset d s).sync = { s.sync with slew := d } ∧ (applyOffset d s).counter = s.counter ∧
      getF (applyOffset d s) R.TICK_SYNC_STA.LOCK = if d.natAbs ≤ 25 then 1 else 0 := by
  have hcount : (slewBy d s).counter = s.counter := changesOnly_slewBy d s .counter (by decide)
  have hlock : getF (slewBy d s) R.TICK_SYNC_STA.LOCK = if d.natAbs ≤ 25 then 1 else 0 := by
    simp [slewBy, getF_setLock]
  have hch := changesOnly_declareOverrun 4 (slewBy d s)
  rcases applyOffset_slews d h with he | he <;> rw [he]
  · exact ⟨slewBy_sync d s, hcount, hlock⟩
  · exact ⟨(hch .sync (by decide)).trans (slewBy_sync d s), (hch .counter (by decide)).trans hcount,
      ((regsBut_declareOverrun 4 _).getF_eq (by decide)).trans hlock⟩

/-! ### O8 -/

/-- Fewer than four missed periods only count (R13). -/
theorem syncPeriodMissed_counts {s : State} (hr : isRoot s = false) (hm : getF s R.TICK_SYNC_STA.MISSED < 3) :
    exec .syncPeriodMissed s =
      .next (incSat { s with sync := { s.sync with xchg := none } } R.TICK_SYNC_STA.MISSED 1) ∧
    getF (incSat { s with sync := { s.sync with xchg := none } } R.TICK_SYNC_STA.MISSED 1) R.TICK_SYNC_STA.MISSED =
      getF s R.TICK_SYNC_STA.MISSED + 1 := by
  have hn : getF (incSat { s with sync := { s.sync with xchg := none } } R.TICK_SYNC_STA.MISSED 1) R.TICK_SYNC_STA.MISSED =
      getF s R.TICK_SYNC_STA.MISSED + 1 := by
    rw [getF_incSat]
    show min _ (getF s R.TICK_SYNC_STA.MISSED + 1) = _
    have : 15 ≤ 2 ^ R.TICK_SYNC_STA.MISSED.width - 1 := by decide
    omega
  refine ⟨?_, hn⟩
  show execSyncPeriodMissed s = _
  simp only [execSyncPeriodMissed, hr, hn, Bool.false_eq_true, if_false]
  rw [if_neg (by omega : ¬ getF s R.TICK_SYNC_STA.MISSED + 1 = 4), if_pos (by omega)]

/-- Settles O8: the frame of a period and of its answer; the offset steps or slews as `applyOffset_steps` and
`applyOffset_slewed` say; a missed period counts. -/
theorem syncExchangeMeasuresTheOffset : Obligations.SyncExchangeMeasuresTheOffset := by
  refine ⟨?_, ?_, ?_, ?_, ?_⟩
  · intro s p hr hp
    refine ⟨_, syncPeriod_of_route hr hp, by simp [periodBegun], ?_, ?_,
      syncFrame s 0 (expectedPeer s p).1 false (leBytes 8 s.counter), rfl, rfl, ?_, ?_⟩
    · exact ((changesOnly_periodBegun s).mono (by simp)).trans ((changesOnly_queueSync _ _ _).mono (by simp))
    · exact (regsBut_periodBegun s).trans (.of_regs (by simp))
    · exact syncFrame_payload_take _ _ _ _ (by simp)
    · exact queueSync_appends p _ (changesOnly_periodBegun s .ports (by decide))
  · intro s p t1 copy
    refine ⟨timeReqRx p t1 copy s, rfl, changesOnly_queueSync _ _ s,
      syncFrame s 1 (expectedPeer s p).1 false (leBytes 8 t1 ++ leBytes 8 (rxStamp copy s) ++ leBytes 8 s.counter),
      rfl, rfl, ?_, queueSync_appends p _ rfl⟩
    exact syncFrame_payload_take _ _ _ _ (by simp)
  · intro s p t1 t2 t3 _ hr hx hl hrun
    have hl' : (xchgDone (syncOffset t1 t2 t3 s.counter) s).sync.locked = false := by rw [xchgDone_sync]; exact hl
    refine ⟨_, timeRsp_completes p t2 t3 hr hx, ?_⟩
    rw [applyOffset_steps _ hl' ((running_xchgDone _ s).trans hrun)]
    have hch := changesOnly_setLock true (stepCounter (syncOffset t1 t2 t3 s.counter)
      { xchgDone (syncOffset t1 t2 t3 s.counter) s with
        sync := { (xchgDone (syncOffset t1 t2 t3 s.counter) s).sync with locked := true, slew := 0 } })
    refine ⟨?_, ?_, by simp [getF_setLock], ?_, ?_⟩
    · rw [hch .sync (by decide)]
      simp [stepCounter, xchgDone_sync]
    · rw [hch .sync (by decide)]
      rfl
    · rw [(regsBut_setLock true _).getF_eq (by decide)]
      exact missed_xchgDone _ s
    · rw [hch .counter (by decide)]
      simp only [stepCounter, xchgDone_counter]
      exact Int.toNat_of_nonneg (Int.emod_nonneg _ (by decide))
  · intro s p t1 t2 t3 _ hr hx hor
    obtain ⟨hsync, hcount, hlock⟩ := applyOffset_slewed (syncOffset t1 t2 t3 s.counter)
      (s := xchgDone (syncOffset t1 t2 t3 s.counter) s) (by rw [xchgDone_sync, running_xchgDone]; exact hor)
    exact ⟨_, timeRsp_completes p t2 t3 hr hx, by rw [hsync, xchgDone_sync], hcount.trans (xchgDone_counter _ s),
      by rw [hsync], hlock⟩
  · intro s _ hr hm
    obtain ⟨hexec, hn⟩ := syncPeriodMissed_counts hr hm
    exact ⟨_, hexec, by simp, hn,
      ((changesOnly_withSync s _).mono (by simp)).trans ((changesOnly_setF _ _ _).mono (by simp)),
      regsBut_setF { s with sync := { s.sync with xchg := none } } _ (by simp)⟩

end Sys2Proof.Machine
end

section
/-! The collection of digests, GO and NOGO (R22). -/

namespace Sys2Proof.Machine

/-! ### A launch that is given up -/

theorem changesOnly_setEnable (p : Nat) (b : Bool) (s : State) : ChangesOnly [.regs] s (setEnable p b s) :=
  changesOnly_setFs _ _

theorem regsBut_setEnable (p : Nat) (b : Bool) (s : State) :
    RegsBut [R.PG_CTL.EN p, R.PG_STA.ENABLED p] s (setEnable p b s) := regsBut_setFs _ _ (by simp)

theorem getF_setEnable_tick (b : Bool) (s : State) : getF (setEnable 0x03 b s) (R.PG_CTL.EN 0x03) = b2n b := by
  show getF (setF (setF s _ _) _ _) _ = _
  rw [getF_setF_other _ _ _ _ (by decide), getF_setF]
  cases b <;> rfl

theorem abortLaunch_tick (s : State) :
    (abortLaunch s).tick = { s.tick with pend := none, armed := false, digests := [] } :=
  (raise_tick _ _).trans (setFs_tick _ _)

theorem regsBut_abortLaunch (s : State) :
    RegsBut ([R.PG_CTL.EN 0x03, R.PG_STA.ENABLED 0x03] ++ evFlds E.TICK.LAUNCH_ABORT) s (abortLaunch s) :=
  ((regsBut_setEnable 0x03 false { s with tick := { s.tick with pend := none, armed := false, digests := [] } }).mono
    (by simp)).trans (regsBut_raise _ _ (by simp))

/-- A launch that is given up: nothing is pending, LAUNCH_ABORT is raised, the page is disabled, TOP_STATE stands. -/
theorem abortLaunch_givesUp (s : State) :
    (abortLaunch s).tick.pend = none ∧ raised E.TICK.LAUNCH_ABORT (abortLaunch s) ∧
      getF (abortLaunch s) (R.PG_CTL.EN 0x03) = 0 ∧ topState (abortLaunch s) = topState s := by
  refine ⟨by rw [abortLaunch_tick], raised_raise _ _ (by decide), ?_, (regsBut_abortLaunch s).getF_eq (by decide)⟩
  exact ((regsBut_raise _ _ (List.Subset.refl _)).getF_eq (by decide)).trans (getF_setEnable_tick false _)

/-! ### O10 -/

/-- Settles O10: the root's notes, its verdict, and each way of a pending launch by its first guard. -/
theorem goOrNogoDecidesAPendingLaunch : Obligations.GoOrNogoDecidesAPendingLaunch := by
  refine ⟨?_, ?_, ?_, ?_, ?_, ?_⟩
  · intro s src d hr
    refine ⟨noteDigest src d s, by simp [exec, execLaunch, launchRx, hr], by simp [noteDigest], ?_, ?_,
      changesOnly_withTick s _⟩
    · intro e he heq
      rcases List.mem_cons.mp he with rfl | he
      · rfl
      · simp [heq] at he
    · intro e he hne
      exact List.mem_cons_of_mem _ (List.mem_filter.mpr ⟨he, by simpa using hne⟩)
  · intro s l own _ hp hr ha hrun hall
    have hch := changesOnly_broadcast 3 (leBytes 8 (tickLaunch s)) { s with tick := { s.tick with armed := true } }
    refine ⟨broadcast 3 (leBytes 8 (tickLaunch s)) { s with tick := { s.tick with armed := true } },
      by simp [exec, execGoDeadline, hp, hr, ha, hrun, hall], ?_, ?_, ?_⟩
    · rw [hch .tick (by decide)]
    · rw [hch .tick (by decide)]; exact hp
    · exact ((changesOnly_withTick s _).mono (by simp)).trans (hch.mono (by simp))
  · intro s l own _ hp hr ha hrun hall
    obtain ⟨hpend, habort, hen, _⟩ := abortLaunch_givesUp (broadcast 4 (leBytes 8 (tickLaunch s)) s)
    exact ⟨_, by simp [exec, execGoDeadline, hp, hr, ha, hrun, hall], hpend, habort, hen⟩
  · intro s hp hrun
    exact ⟨_, by simp [exec, execGo, goRx, hp, hrun], rfl⟩
  · intro s l _ hp hrun
    exact ⟨abortLaunch s, by simp [exec, execNogo, nogoRx, hp, hrun], abortLaunch_givesUp s⟩
  · intro s _ hp hrun ha
    exact ⟨abortLaunch s, by simp [exec, execLaunchGoTimeout, hp, hrun, ha], abortLaunch_givesUp s⟩

end Sys2Proof.Machine
end

section
/-! Enabling the TICK page: the checks and the pending launch (R21). -/

namespace Sys2Proof.Machine

/-- The fields that clearing a reject record writes. -/
def rejectFlds (p : Nat) : List Fld :=
  [R.PG_STA.CFG_REJECT p, R.PG_CFGREJ_ADDR.OFFSET p, R.PG_CFGREJ_ADDR.VIEW p, R.PG_CFGREJ_ADDR.PF p, R.PG_CFGREJ_ADDR.SMB p]

theorem changesOnly_clearReject (p : Nat) (s : State) : ChangesOnly [.regs] s (clearReject p s) := changesOnly_setFs _ _

theorem regsBut_clearReject (p : Nat) (s : State) : RegsBut (rejectFlds p) s (clearReject p s) :=
  regsBut_setFs _ _ (by simp [rejectFlds])

/-- An open TICK page that function 0 enables. -/
theorem launchEnable_of_open {s : State} (h : pageOpen s 0x03 = true) :
    exec (.launchEnable (.pf 0)) s = .next (tickEnable s) := by
  show execLaunchEnable _ s = _
  simp [execLaunchEnable, h, mayWrite]

/-! ### A launch that fails its checks -/

/-- Outside READY, less than 1 ms ahead or without lock no launch begins (R21). -/
theorem launchOk_eq_false {s : State}
    (h : topState s ≠ stReady ∨ tickLaunch s < s.counter + 1000000 ∨ lockNow s = false) : launchOk s = false := by
  rcases h with h | h | h
  · simp [launchOk, h]
  · have : launchAhead s = false := by simp [launchAhead, h]
    simp [launchOk, this]
  · simp [launchOk, h]

/-- The enable that fails (R21). -/
def failEnable (s : State) : State := raise E.TICK.LAUNCH_PAST (setB (clearReject 0x03 s) (R.PG_CTL.EN 0x03) false)

theorem tickEnable_of_not_ok {s : State} (he : getF s (R.PG_CTL.EN 0x03) = 0) (hk : launchOk s = false) :
    tickEnable s = failEnable s := by
  simp [tickEnable, flagF_of_eq_zero he, hk, failEnable]

theorem regsBut_failEnable (s : State) :
    RegsBut (rejectFlds 0x03 ++ [R.PG_CTL.EN 0x03] ++ evFlds E.TICK.LAUNCH_PAST) s (failEnable s) :=
  ((regsBut_clearReject 0x03 s).mono (by simp)).trans
    ((regsBut_setF _ _ (by simp)).trans (regsBut_raise _ _ (by simp)))

theorem getF_failEnable (s : State) : getF (failEnable s) (R.PG_CTL.EN 0x03) = 0 :=
  ((regsBut_raise _ _ (List.Subset.refl _)).getF_eq (by decide)).trans (getF_setB _ _ false (by decide))

theorem failEnable_tick (s : State) : (failEnable s).tick = s.tick :=
  (raise_tick _ _).trans (changesOnly_clearReject 0x03 s .tick (by decide))

/-! ### A launch that passes -/

/-- The fields that a pending launch writes. -/
def launchFlds : List Fld :=
  rejectFlds 0x03 ++ [R.PG_CTL.EN 0x03, R.PG_STA.ENABLED 0x03, R.TICK_LAUNCH_LO.LAUNCH, R.TICK_LAUNCH_HI.LAUNCH]

/-- TICK_LAUNCH and the page's enable stand, the launch is pending (R21, R22). -/
def launchPending (s : State) : State :=
  let l := tickLaunch s
  let n := subMod 64 l (resumeTick s * tickLen s)
  let t := setLaunch n (setEnable 0x03 true (clearReject 0x03 s))
  { t with tick := { t.tick with pend := some (l, launchDigest s l), armed := false, nominal := n } }

theorem changesOnly_setLaunch (n : Nat) (s : State) : ChangesOnly [.regs] s (setLaunch n s) :=
  (changesOnly_setF s _ _).trans (changesOnly_setF _ _ _)

theorem regsBut_setLaunch (n : Nat) (s : State) :
    RegsBut [R.TICK_LAUNCH_LO.LAUNCH, R.TICK_LAUNCH_HI.LAUNCH] s (setLaunch n s) :=
  (regsBut_setF s _ (by simp)).trans (regsBut_setF _ _ (by simp))

/-- TICK_LAUNCH holds 64 bits. -/
theorem tickLaunch_setLaunch (n : Nat) (s : State) : tickLaunch (setLaunch n s) = n % 2 ^ 64 := by
  have hhi : getF (setLaunch n s) R.TICK_LAUNCH_HI.LAUNCH = n / 2 ^ 32 % 2 ^ 32 := getF_setF _ _ _
  have hlo : getF (setLaunch n s) R.TICK_LAUNCH_LO.LAUNCH = n % 2 ^ 32 :=
    (getF_setF_other _ _ _ _ (by decide)).trans (getF_setF _ _ _)
  unfold tickLaunch
  rw [hhi, hlo]
  omega

theorem changesOnly_launchPending (s : State) : ChangesOnly [.regs, .tick] s (launchPending s) := by
  unfold launchPending
  exact ((changesOnly_clearReject 0x03 s).mono (by simp)).trans <| ((changesOnly_setEnable 0x03 true _).mono (by simp)).trans <|
    ((changesOnly_setLaunch _ _).mono (by simp)).trans <| (changesOnly_withTick _ _).mono (by simp)

theorem regsBut_launchPending (s : State) : RegsBut launchFlds s (launchPending s) :=
  RegsBut.trans ((regsBut_clearReject 0x03 s).mono (by simp [launchFlds])) <|
    RegsBut.trans ((regsBut_setEnable 0x03 true _).mono (by simp [launchFlds])) <|
    (regsBut_setLaunch (subMod 64 (tickLaunch s) (resumeTick s * tickLen s)) _).mono (by simp [launchFlds])

theorem getF_launchPending (s : State) : getF (launchPending s) (R.PG_CTL.EN 0x03) = 1 :=
  (((regsBut_setLaunch _ _).getF_eq (by decide)).trans (getF_setEnable_tick true (clearReject 0x03 s)) :)

theorem tickLaunch_launchPending (s : State) :
    tickLaunch (launchPending s) = subMod 64 (tickLaunch s) (resumeTick s * tickLen s) := by
  show tickLaunch (setLaunch _ _) = _
  rw [tickLaunch_setLaunch]
  exact Nat.mod_mod _ _

/-- The enable that passes: the digest is noted at the root or leaves for it. -/
theorem tickEnable_of_ok {s : State} (he : getF s (R.PG_CTL.EN 0x03) = 0) (hk : launchOk s = true) :
    ∃ t, tickEnable s = t ∧ t.tick.pend = (launchPending s).tick.pend ∧ t.tick.armed = (launchPending s).tick.armed ∧
      ChangesOnly [.tick, .ports] (launchPending s) t := by
  refine ⟨_, rfl, ?_⟩
  have hb : tickEnable s = beginLaunch s := by simp [tickEnable, flagF_of_eq_zero he, hk]
  rw [hb]
  unfold beginLaunch
  dsimp only
  split
  · exact ⟨rfl, rfl, (changesOnly_withTick _ _).mono (by simp)⟩
  · split
    · exact ⟨by simp [launchPending], by simp [launchPending], (changesOnly_queueSync _ _ _).mono (by simp)⟩
    · exact ⟨rfl, rfl, .refl _ _⟩

/-! ### O9 -/

/-- Settles O9: an enable whose checks fail is `failEnable`; one that passes leaves what `launchPending` says. -/
theorem tickEnableChecksAndBeginsTheLaunch : Obligations.TickEnableChecksAndBeginsTheLaunch := by
  refine ⟨?_, ?_⟩
  · intro s _ ho he h
    refine ⟨tickEnable s, launchEnable_of_open ho, ?_⟩
    rw [tickEnable_of_not_ok he (launchOk_eq_false h)]
    exact ⟨raised_raise _ _ (by decide), getF_failEnable s, (regsBut_failEnable s).getF_eq (by decide),
      by rw [failEnable_tick]⟩
  · intro s _ ho he hk
    obtain ⟨t, ht, hpend, harmed, hch⟩ := tickEnable_of_ok he hk
    have hregs : t.regs = (launchPending s).regs := hch .regs (by decide)
    have hlp := changesOnly_launchPending s
    refine ⟨t, (launchEnable_of_open ho).trans (by rw [ht]), hpend, harmed, ?_, ?_, ?_, ?_, ?_⟩
    · unfold tickLaunch
      rw [getF_congr hregs, getF_congr hregs]
      exact tickLaunch_launchPending s
    · rw [getF_congr hregs]; exact getF_launchPending s
    · exact (getF_congr hregs _).trans ((regsBut_launchPending s).getF_eq (by decide))
    · exact (hch .mem (by decide)).trans (hlp .mem (by decide))
    · exact (hch .cores (by decide)).trans (hlp .cores (by decide))

end Sys2Proof.Machine
end

section
/-! Stretches, and the decision and verdict points of a package at rest (R26 to R28). -/

namespace Sys2Proof.Machine

/-! ### A stretch -/

/-- The counts of a stretch and the launch count that it moves (R27). -/
def stretchCounts (s : State) : State :=
  let t := setLaunch (tickLaunch s + getF s R.TICK_STRETCH_Q.Q) s
  incSat (setF t R.TICK_STRETCH_CNT.CUR (getF t R.TICK_STRETCH_CNT.CUR + 1)) R.TICK_STRETCH_CNT.TOTAL 1

/-- D and V lie ahead again. -/
def pointsAhead (s : State) : State := { s with tick := { s.tick with atD := false, atV := false } }

/-- A stretch without its event. -/
def stretchMoved (s : State) : State :=
  addDebt (getF s R.TICK_STRETCH_Q.Q) (undoGuest (pointsAhead (stretchCounts s)))

theorem changesOnly_stretchCounts (s : State) : ChangesOnly [.regs] s (stretchCounts s) :=
  (changesOnly_setLaunch _ s).trans ((changesOnly_setF _ _ _).trans (changesOnly_setF _ _ _))

theorem changesOnly_undoGuest (s : State) : ChangesOnly [.mem, .guest] s (undoGuest s) := by
  have fold : ∀ l : List (Nat × List Byte × List Byte),
      ChangesOnly [.mem, .guest] s (l.foldr (fun e s => wrMems s e.1 e.2.1) s) := by
    intro l
    induction l with
    | nil => exact .refl _ s
    | cons e l ih => exact ih.trans fun p hp => by cases p <;> simp_all [Part.same]
  unfold undoGuest
  split
  · exact .refl _ s
  · exact (fold s.guest.wrote).trans fun p hp => by cases p <;> simp_all [Part.same]

/-- Where the guest wrote nothing, no byte is taken back. -/
theorem undoGuest_mem_of_none {s : State} (h : s.guest.wrote = []) : (undoGuest s).mem = s.mem := by
  unfold undoGuest
  split
  · rfl
  · rw [h]; rfl

theorem changesOnly_addDebt (n : Nat) (s : State) : ChangesOnly [.refresh] s (addDebt n s) := fun p hp => by
  cases p <;> simp_all [Part.same, addDebt]

theorem changesOnly_stretchMoved (s : State) :
    ChangesOnly [.tick, .mem, .guest, .refresh] (stretchCounts s) (stretchMoved s) :=
  ((changesOnly_withTick _ _).mono (by simp)).trans <| ((changesOnly_undoGuest _).mono (by simp)).trans <|
    (changesOnly_addDebt _ _).mono (by simp)

theorem stretchMoved_tick (s : State) : (stretchMoved s).tick = { s.tick with atD := false, atV := false } := by
  have hc : (stretchCounts s).tick = s.tick := changesOnly_stretchCounts s .tick (by decide)
  show (undoGuest _).tick = _
  rw [changesOnly_undoGuest _ .tick (by decide), pointsAhead, hc]

theorem stretchMoved_mem {s : State} (h : s.guest.wrote = []) : (stretchMoved s).mem = s.mem := by
  have hc := changesOnly_stretchCounts s
  have hw : (pointsAhead (stretchCounts s)).guest.wrote = [] := (congrArg Guest.wrote (hc .guest (by decide))).trans h
  exact (undoGuest_mem_of_none hw).trans (hc .mem (by decide))

theorem changesOnly_applyStretch (s : State) :
    ChangesOnly [.regs, .tick, .mem, .guest, .refresh, .out, .hif] s (applyStretch s) :=
  ((changesOnly_stretchCounts s).mono (by simp)).trans <| ((changesOnly_stretchMoved s).mono (by simp)).trans <|
    (changesOnly_raise _ _).mono (by simp)

theorem applyStretch_tick (s : State) : (applyStretch s).tick = { s.tick with atD := false, atV := false } :=
  (raise_tick _ _).trans (stretchMoved_tick s)

/-- A field beside the event's reads as the counts left it. -/
theorem getF_applyStretch (s : State) {f : Fld} (hf : fldKey f ∉ (evFlds E.TICK.STRETCH).map fldKey) :
    getF (applyStretch s) f = getF (stretchCounts s) f :=
  ((regsBut_raise _ _ (List.Subset.refl _)).getF_eq hf).trans
    (getF_congr (changesOnly_stretchMoved s .regs (by decide)) f)

theorem tickLaunch_stretchCounts (s : State) :
    tickLaunch (stretchCounts s) = (tickLaunch s + getF s R.TICK_STRETCH_Q.Q) % 2 ^ 64 := by
  have hsame : RegsBut [R.TICK_STRETCH_CNT.CUR, R.TICK_STRETCH_CNT.TOTAL]
      (setLaunch (tickLaunch s + getF s R.TICK_STRETCH_Q.Q) s) (stretchCounts s) :=
    (regsBut_setF _ _ (by simp)).trans (regsBut_setF _ _ (by simp))
  unfold tickLaunch
  rw [hsame.getF_eq (by decide), hsame.getF_eq (by decide)]
  exact tickLaunch_setLaunch _ s

theorem cur_stretchCounts {s : State} (h : getF s R.TICK_STRETCH_CNT.CUR < 15) :
    getF (stretchCounts s) R.TICK_STRETCH_CNT.CUR = getF s R.TICK_STRETCH_CNT.CUR + 1 := by
  unfold stretchCounts
  dsimp only
  rw [getF_incSat_other _ _ _ _ (by decide), getF_setF, (regsBut_setLaunch _ s).getF_eq (by decide)]
  exact Nat.mod_eq_of_lt (by show _ < 16; omega)

theorem total_stretchCounts (s : State) :
    getF (stretchCounts s) R.TICK_STRETCH_CNT.TOTAL = satAdd (2 ^ 24 - 1) (getF s R.TICK_STRETCH_CNT.TOTAL) 1 := by
  unfold stretchCounts
  dsimp only
  rw [getF_incSat, getF_setF_other _ _ _ _ (by decide), (regsBut_setLaunch _ s).getF_eq (by decide)]
  rfl

/-- A stretch applied where the guest wrote nothing (R27). -/
theorem stretchApplied_applyStretch {s : State} (hw : s.guest.wrote = []) (hc : getF s R.TICK_STRETCH_CNT.CUR < 15) :
    StretchApplied s (applyStretch s) := by
  have hch := changesOnly_applyStretch s
  refine ⟨?_, ?_, ?_, by rw [applyStretch_tick], by rw [applyStretch_tick], raised_raise _ _ (by decide),
    by rw [applyStretch_tick], ?_, hch .cores (by decide)⟩
  · unfold tickLaunch
    rw [getF_applyStretch s (by decide), getF_applyStretch s (by decide)]
    exact tickLaunch_stretchCounts s
  · rw [getF_applyStretch s (by decide), cur_stretchCounts hc]
  · rw [getF_applyStretch s (by decide), total_stretchCounts]
  · exact (raise_mem _ _).trans (stretchMoved_mem hw)

/-- A stretch applied is one of every state that agrees in what it names. -/
theorem StretchApplied.of_alike {s u t : State} (h : StretchApplied u t) (hr : u.regs = s.regs)
    (hj : u.tick.job = s.tick.job) (hm : u.mem = s.mem) (hc : u.cores = s.cores) : StretchApplied s t := by
  unfold StretchApplied tickLaunch at h ⊢
  rwa [getF_congr hr, getF_congr hr, getF_congr hr, getF_congr hr, getF_congr hr, hj, hm, hc] at h

/-! ### The package's own stretch -/

/-- The payload of this package's STRETCH (R27). -/
def stretchBytes (s : State) : List Byte :=
  leBytes 3 (nextNum s) ++ leBytes 1 (getF s R.TICK_STRETCH_CNT.CUR + 1) ++ leBytes 2 (myId s)

/-- The STRETCH of this package has left and is noted (R27). -/
def stretchSent (s : State) : State :=
  let t := broadcast 5 (stretchBytes s) s
  { t with tick := { t.tick with stretchSeen := (nextNum s, getF s R.TICK_STRETCH_CNT.CUR + 1) :: t.tick.stretchSeen } }

theorem needStretch_applies {s : State} (hv : getF s R.TICK_STRETCH_CNT.VOIDED = 0)
    (hm : getF s R.TICK_STRETCH_CNT.CUR < getF s R.TICK_STRETCH_MAX.MAX) :
    needStretch s = applyStretch (stretchSent s) := by
  have hnext : nextNum (broadcast 5 (stretchBytes s) s) = nextNum s := by
    unfold nextNum tickNum
    rw [getF_congr (changesOnly_broadcast _ _ s .regs (by decide))]
  rw [stretchSent, ← hnext, needStretch, flagF_of_eq_zero hv]
  simp only [Bool.false_eq_true, if_false]
  rw [if_neg (by omega)]
  rfl

theorem changesOnly_stretchSent (s : State) : ChangesOnly [.ports, .tick] s (stretchSent s) :=
  ((changesOnly_broadcast _ _ s).mono (by simp)).trans ((changesOnly_withTick _ _).mono (by simp))

theorem stretchSent_tick (s : State) :
    (stretchSent s).tick =
      { s.tick with stretchSeen := (nextNum s, getF s R.TICK_STRETCH_CNT.CUR + 1) :: s.tick.stretchSeen } := by
  unfold stretchSent
  dsimp only
  rw [changesOnly_broadcast _ _ s .tick (by decide)]

/-- The STRETCH waits on every dimension port. -/
theorem stretchSent_frame (s : State) {p : Nat} (hp : p ∈ dimPorts s 0) :
    ∃ f : Frame, f.cls = clsSync ∧ f.kind = 5 ∧ f.bc = true ∧
      f.payload.take 6 = leBytes 3 (nextNum s) ++ leBytes 1 (getF s R.TICK_STRETCH_CNT.CUR + 1) ++ leBytes 2 (myId s) ∧
      ⟨f, 0⟩ ∈ (getPort (stretchSent s) p).syncQ :=
  ⟨syncFrame s 5 0 true (stretchBytes s), rfl, rfl, rfl, syncFrame_payload_take s 5 0 true (by simp [stretchBytes]),
    mem_syncQ_broadcast 5 _ s hp⟩

/-! ### At D and V -/

theorem AtD_wrote {s : State} (h : s.guest.wrote = []) : (AtD s).guest.wrote = [] := by
  unfold AtD redoGuest
  split
  · simp [h, onGuest]
  · exact h

/-- A package at rest at D that nothing holds back lets the boundary stand. -/
theorem judgeD_of_rest {s : State} (ha : s.tick.atD = true) (hp : partAtRest s 0 = true) (hb : tickBlocked s = false)
    (hv : getF s R.TICK_STRETCH_CNT.VOIDED = 0) (he : getF s R.FLT_LOCKSTEP_CTL.EN = 0) : judgeD s = s := by
  simp [judgeD, ha, hp, hb, flagF_of_eq_zero hv, sendLockstep, lockstepOn, flagF_of_eq_zero he]

/-- A package without lock-step has nothing to compare at V. -/
theorem lockstepVerdict_of_off {s : State} (h : getF s R.FLT_LOCKSTEP_CTL.EN = 0) :
    lockstepVerdict { s with tick := { s.tick with atV := true } } = { s with tick := { s.tick with atV := true } } := by
  have hoff : lockstepOn { s with tick := { s.tick with atV := true } } = false := by
    simp only [lockstepOn, flagF_of_eq_zero (s := { s with tick := { s.tick with atV := true } }) h, Bool.false_and]
  simp [lockstepVerdict, hoff]

/-- No partition lacks an arrival. -/
theorem landingShort_of_due {s : State}
    (h : ∀ n, landingDue s n ≤ landedFrames s n ∧ guestDue s n ≤ guestLanded s n) (n : Nat) :
    landingShort s n = false := by
  obtain ⟨hl, hg⟩ := h n
  simp [landingShort, hl, hg]

/-- At V with all arrivals there the commit is made (R91). -/
theorem verdict_commits {dw : List CommitAcc} {s : State} (hs : ∀ n, landingShort s n = false)
    (hc : sumsComplete s 0 = true) (hb : tickBlocked s = false) (hl : replayLate s = false)
    (hb' : tickBlocked (commitTick dw s) = false) (hd : (commitTick dw s).tick.draining = false)
    (he : getF (commitTick dw s) R.FLT_LOCKSTEP_CTL.EN = 0) :
    verdict dw s = { commitTick dw s with tick := { (commitTick dw s).tick with atV := true } } := by
  simp only [verdict, List.foldl, hs, hc, hb, hl, Bool.not_true, Bool.or_self, Bool.false_eq_true, if_false]
  revert hb' hd he
  generalize commitTick dw s = u
  intro hb' hd he
  rw [if_neg (by simp [hb', hd])]
  exact lockstepVerdict_of_off he

/-- A STRETCH with the next index is applied, one with another index dropped (R27). -/
theorem stretchRx_next {s : State} (k : Nat) (hr : running s = true) (hd : s.tick.draining = false) :
    stretchRx (nextNum s) k s =
      if !flagF s R.TICK_STRETCH_CNT.VOIDED && k == getF s R.TICK_STRETCH_CNT.CUR + 1 then applyStretch s else s := by
  have hmod : nextNum s % 2 ^ 24 = nextNum s := Nat.mod_eq_of_lt (Nat.mod_lt _ (by decide))
  unfold stretchRx
  rw [if_neg (by simp [hr, hd]), if_pos hmod]

/-! ### O12 -/

/-- Settles O12: `judgeD_of_rest`, `verdict_commits`, and a stretch heard or made by `stretchApplied_applyStretch`. -/
theorem stretchPostponesTheBoundary : Obligations.StretchPostponesTheBoundary := by
  refine ⟨?_, ?_, ?_, ?_, ?_⟩
  · intro s hr hd ha hc hp hb hv he
    have hrest : ∀ n, partAtRest (AtD s) n = true := fun n => (partAtRest_congr (AtD_cores s) n).trans (hp n)
    have htick := AtD_tick s
    have hregs := AtD_regs s
    refine ⟨AtD s, ?_, rfl, by rw [htick], ?_⟩
    · rw [decision_of_running hr hd ha hc, stopUnready_of_rest fun n _ => hrest n]
      congr 1
      refine judgeD_of_rest (by rw [htick]) (hrest 0) ?_ ((getF_congr hregs _).trans hv) ((getF_congr hregs _).trans he)
      unfold tickBlocked; rw [htick]; exact hb
    · unfold closing tickLaunch tickLen
      rw [getF_congr hregs, getF_congr hregs, getF_congr hregs, htick]
  · intro s dw hr hd ha hv hdue hc hb hl hb' hd' he
    refine ⟨_, ?_, rfl⟩
    show execVerdictPoint dw s = _
    simp only [execVerdictPoint, hr, hd, ha, hv, Bool.not_false, Bool.and_self, if_true]
    rw [verdict_commits (landingShort_of_due hdue) hc hb hl hb' hd' he]
  · intro s src _ hr hd hw hv hc
    refine ⟨applyStretch s, ?_, stretchApplied_applyStretch hw hc, changesOnly_applyStretch s .ports (by decide)⟩
    show Host.Outcome.next (stretchRx _ _ s) = _
    simp [stretchRx_next _ hr hd, flagF_of_eq_zero hv]
  · intro s _ hr hd ha hw hc hrest hp hv hm hlt
    have hregs := AtD_regs s
    have hst : stopUnready (AtD s) = AtD s :=
      stopUnready_of_rest fun n hn => (partAtRest_congr (AtD_cores s) n).trans (hrest n hn)
    have hsent := changesOnly_stretchSent (AtD s)
    have hsregs : (stretchSent (AtD s)).regs = s.regs := (hsent .regs (by decide)).trans hregs
    have hcur : getF (AtD s) R.TICK_STRETCH_CNT.CUR = getF s R.TICK_STRETCH_CNT.CUR := getF_congr hregs _
    have hnext : nextNum (AtD s) = nextNum s := by unfold nextNum tickNum; rw [getF_congr hregs]
    have hid : myId (AtD s) = myId s := getF_congr hregs _
    refine ⟨applyStretch (stretchSent (AtD s)), ?_, ?_, ?_, fun p hp' => ?_⟩
    · rw [decision_of_running hr hd ha hc, hst,
        judgeD_of_unrest (by rw [AtD_tick]) ((partAtRest_congr (AtD_cores s) 0).trans hp),
        needStretch_applies ((getF_congr hregs _).trans hv) (by rw [hcur, getF_congr hregs]; exact hm)]
    · have hwrote : (stretchSent (AtD s)).guest.wrote = [] :=
        (congrArg Guest.wrote (hsent .guest (by decide))).trans (AtD_wrote hw)
      refine StretchApplied.of_alike (stretchApplied_applyStretch hwrote ((getF_congr hsregs _).trans_lt hlt)) hsregs ?_ ?_ ?_
      · rw [stretchSent_tick, AtD_tick]
      · exact (hsent .mem (by decide)).trans (redoGuest_mem_of_none hw)
      · exact (hsent .cores (by decide)).trans (AtD_cores s)
    · rw [applyStretch_tick, stretchSent_tick, hnext, hcur]
      exact List.mem_cons_self ..
    · rw [← dimPorts_congr (.of_regs hregs)] at hp'
      obtain ⟨f, hcls, hkind, hbc, hpay, hq⟩ := stretchSent_frame (AtD s) hp'
      rw [hnext, hcur, hid] at hpay
      refine ⟨f, hcls, hkind, hbc, hpay, ?_⟩
      unfold getPort at hq ⊢
      rwa [changesOnly_applyStretch _ .ports (by decide)]
  · intro s k src hr hd hk
    refine ⟨s, ?_, rfl⟩
    show Host.Outcome.next (stretchRx _ _ s) = _
    simp [stretchRx_next _ hr hd, hk]

end Sys2Proof.Machine
end

section
/-! VOID and the replay: the postponed boundary, the source that is dropped, the withdrawn tick (R33, R35). -/

namespace Sys2Proof.Machine

/-! ### The replay postponement (R33) -/

/-- The boundary that a VOID asks for: the larger of where it stands and the nominal one after it and 6 000 ns. -/
def voidedClosing (s : State) : Nat :=
  max (closing s) ((s.tick.nominal + (s.tick.job + 1) * tickLen s + tickLen s + 6000) % 2 ^ 64)

/-- The counts of a postponement and the launch count that it moves. -/
def voidCounts (s : State) : State :=
  incSat (setB (setLaunch (tickLaunch s + (voidedClosing s - closing s)) s) R.TICK_STRETCH_CNT.VOIDED true)
    R.FLT_REPLAY_CNT.RX 1

/-- A postponement without its event: D and V lie ahead again. -/
def voidMoved (s : State) : State := addDebt (voidedClosing s - closing s) (pointsAhead (voidCounts s))

theorem postpone_of_first {s : State} (hv : getF s R.TICK_STRETCH_CNT.VOIDED = 0) :
    postpone s = raise E.TICK.VOID_RX (voidMoved s) := by
  unfold postpone
  rw [flagF_of_eq_zero hv]
  rfl

theorem postpone_of_voided {s : State} (hv : getF s R.TICK_STRETCH_CNT.VOIDED = 1) : postpone s = s := by
  simp [postpone, flagF_of_eq_one hv]

theorem changesOnly_voidCounts (s : State) : ChangesOnly [.regs] s (voidCounts s) :=
  (changesOnly_setLaunch _ s).trans ((changesOnly_setF _ _ _).trans (changesOnly_setF _ _ _))

theorem regsBut_voidCounts (s : State) :
    RegsBut [R.TICK_LAUNCH_LO.LAUNCH, R.TICK_LAUNCH_HI.LAUNCH, R.TICK_STRETCH_CNT.VOIDED, R.FLT_REPLAY_CNT.RX] s
      (voidCounts s) :=
  ((regsBut_setLaunch _ s).mono (by simp)).trans ((regsBut_setF _ _ (by simp)).trans (regsBut_setF _ _ (by simp)))

theorem tickLaunch_voidCounts (s : State) :
    tickLaunch (voidCounts s) = (tickLaunch s + (voidedClosing s - closing s)) % 2 ^ 64 := by
  have hsame : RegsBut [R.TICK_STRETCH_CNT.VOIDED, R.FLT_REPLAY_CNT.RX]
      (setLaunch (tickLaunch s + (voidedClosing s - closing s)) s) (voidCounts s) :=
    (regsBut_setF _ _ (by simp)).trans (regsBut_setF _ _ (by simp))
  unfold tickLaunch
  rw [hsame.getF_eq (by decide), hsame.getF_eq (by decide)]
  exact tickLaunch_setLaunch _ s

theorem voided_voidCounts (s : State) : getF (voidCounts s) R.TICK_STRETCH_CNT.VOIDED = 1 :=
  (getF_incSat_other _ _ _ _ (by decide)).trans (getF_setB _ _ true (by decide))

theorem voidMoved_regs (s : State) : (voidMoved s).regs = (voidCounts s).regs := rfl

theorem voidMoved_tick (s : State) : (voidMoved s).tick = { s.tick with atD := false, atV := false } := by
  show { (voidCounts s).tick with atD := false, atV := false } = _
  rw [changesOnly_voidCounts s .tick (by decide)]

theorem changesOnly_voidMoved (s : State) : ChangesOnly [.regs, .tick, .refresh] s (voidMoved s) :=
  ((changesOnly_voidCounts s).mono (by simp)).trans <| ((changesOnly_withTick _ _).mono (by simp)).trans <|
    (changesOnly_addDebt _ _).mono (by simp)

theorem changesOnly_postpone (s : State) : ChangesOnly [.regs, .tick, .refresh, .out, .hif] s (postpone s) := by
  cases h : flagF s R.TICK_STRETCH_CNT.VOIDED with
  | true => simp only [postpone, h, if_true]; exact .refl _ s
  | false =>
    have he : postpone s = raise E.TICK.VOID_RX (voidMoved s) := by unfold postpone; rw [h]; rfl
    rw [he]
    exact ((changesOnly_voidMoved s).mono (by simp)).trans ((changesOnly_raise _ _).mono (by simp))

/-- The first VOID for a boundary postpones it and leaves D and V ahead (R33). -/
theorem postpone_first {s : State} (hv : getF s R.TICK_STRETCH_CNT.VOIDED = 0) :
    closing (postpone s) = voidedClosing s ∧ raised E.TICK.VOID_RX (postpone s) ∧
      getF (postpone s) R.TICK_STRETCH_CNT.VOIDED = 1 ∧ (postpone s).tick = { s.tick with atD := false, atV := false } := by
  have hregs : ∀ f, fldKey f ∉ (evFlds E.TICK.VOID_RX).map fldKey → getF (postpone s) f = getF (voidCounts s) f := by
    intro f hf
    rw [postpone_of_first hv, (regsBut_raise _ _ (List.Subset.refl _)).getF_eq hf, getF_congr (voidMoved_regs s)]
  have htick : (postpone s).tick = { s.tick with atD := false, atV := false } := by
    rw [postpone_of_first hv, raise_tick, voidMoved_tick]
  refine ⟨?_, by rw [postpone_of_first hv]; exact raised_raise _ _ (by decide), ?_, htick⟩
  · have hlaunch : tickLaunch (postpone s) = (tickLaunch s + (voidedClosing s - closing s)) % 2 ^ 64 := by
      rw [← tickLaunch_voidCounts]
      unfold tickLaunch
      rw [hregs _ (by decide), hregs _ (by decide)]
    have hlen : tickLen (postpone s) = tickLen s :=
      (hregs _ (by decide)).trans ((regsBut_voidCounts s).getF_eq (by decide))
    have hlt : voidedClosing s < 2 ^ 64 := by
      unfold voidedClosing closing
      omega
    have hle : closing s ≤ voidedClosing s := Nat.le_max_left _ _
    have hcur : closing s = (tickLaunch s + (s.tick.job + 1) * tickLen s) % 2 ^ 64 := rfl
    have hnew : closing (postpone s) = (tickLaunch (postpone s) + (s.tick.job + 1) * tickLen s) % 2 ^ 64 := by
      rw [closing, htick, hlen]
    rw [hnew, hlaunch]
    omega
  · rw [hregs _ (by decide), voided_voidCounts]

/-! ### A source that is dropped (R33) -/

/-- The source's arrivals of the tick leave the Landing and are counted. -/
def landDropped (src tick : Nat) (s : State) : State :=
  restartSums src
    (incSat { s with hall := { s.hall with land := s.hall.land.filter fun f => !(f.src == src && f.tick == tick) } }
      R.HALL_LAND_ERR.VOIDDROP (s.hall.land.filter fun f => f.src == src && f.tick == tick).length)

theorem dropSource_eq (src tick : Nat) (s : State) :
    dropSource src tick s = landDropped src tick s ∨
    dropSource src tick s =
      { landDropped src tick s with
        tick := { (landDropped src tick s).tick with voidedSrcs := (landDropped src tick s).tick.voidedSrcs ++ [src] } } := by
  unfold dropSource
  dsimp only
  split
  · exact .inl rfl
  · exact .inr rfl

theorem dropSource_voidedSrcs (src tick : Nat) (s : State) : src ∈ (dropSource src tick s).tick.voidedSrcs := by
  unfold dropSource
  dsimp only
  split
  · next h => exact List.contains_iff_mem.mp h
  · simp

theorem changesOnly_landDropped (src tick : Nat) (s : State) :
    ChangesOnly [.hall, .regs, .reduce] s (landDropped src tick s) := fun p hp => by
  cases p <;> simp_all [Part.same, landDropped, restartSums]

theorem changesOnly_dropSource (src tick : Nat) (s : State) :
    ChangesOnly [.hall, .regs, .reduce, .tick] s (dropSource src tick s) := by
  have h := (changesOnly_landDropped src tick s).mono (qs := [.hall, .regs, .reduce, .tick]) (by simp)
  rcases dropSource_eq src tick s with he | he <;> rw [he]
  · exact h
  · exact h.trans ((changesOnly_withTick _ _).mono (by simp))

theorem dropSource_land (src tick : Nat) (s : State) :
    (dropSource src tick s).hall.land = s.hall.land.filter fun f => !(f.src == src && f.tick == tick) := by
  rcases dropSource_eq src tick s with he | he <;> rw [he] <;> simp [landDropped, restartSums]

theorem dropSource_regs (src tick : Nat) (s : State) : (dropSource src tick s).regs = (landDropped src tick s).regs := by
  rcases dropSource_eq src tick s with he | he <;> rw [he]

theorem regsBut_dropSource (src tick : Nat) (s : State) :
    RegsBut [R.HALL_LAND_ERR.VOIDDROP] s (dropSource src tick s) := by
  have h : RegsBut [R.HALL_LAND_ERR.VOIDDROP] s (landDropped src tick s) :=
    regsBut_setF { s with hall := { s.hall with land := s.hall.land.filter fun f => !(f.src == src && f.tick == tick) } } _
      (List.mem_singleton_self _)
  exact h.trans (.of_regs (dropSource_regs src tick s))

theorem raisedKept_dropSource (src tick : Nat) (s : State) : RaisedKept s (dropSource src tick s) := by
  have h : RaisedKept s (landDropped src tick s) :=
    raisedKept_setF { s with hall := { s.hall with land := s.hall.land.filter fun f => !(f.src == src && f.tick == tick) } } _
      (by decide : NotEvt R.HALL_LAND_ERR.VOIDDROP)
  exact h.trans (.of_regs (dropSource_regs src tick s))

theorem closing_dropSource (src tick : Nat) (s : State) : closing (dropSource src tick s) = closing s := by
  have h := regsBut_dropSource src tick s
  unfold closing tickLaunch tickLen
  rw [h.getF_eq (by decide), h.getF_eq (by decide), h.getF_eq (by decide), dropSource_job src tick s (b := s) rfl]

/-- No arrival of the source's tick is left, and none of another source is gone. -/
theorem dropSource_land_spec (src tick : Nat) (s : State) :
    (∀ f ∈ (dropSource src tick s).hall.land, ¬ (f.src = src ∧ f.tick = tick)) ∧
      ∀ f ∈ s.hall.land, f.src ≠ src → f ∈ (dropSource src tick s).hall.land := by
  rw [dropSource_land]
  refine ⟨fun f hf => ?_, fun f hf hne => List.mem_filter.mpr ⟨hf, by simp [hne]⟩⟩
  have hkeep := (List.mem_filter.mp hf).2
  rintro ⟨hsrc, htick⟩
  simp [hsrc, htick] at hkeep

/-! ### O14 -/

/-- A VOID of another package for the current tick postpones and drops (R33). -/
theorem void_of_other {s : State} {pkg : Nat} (hr : running s = true) (hd : s.tick.draining = false) (hp : pkg ≠ myId s) :
    exec (.void pkg (tickNum s)) s = .next (dropSource pkg (tickNum s) (postpone s)) := by
  show Host.Outcome.next (voidRx _ _ s) = _
  simp [voidRx, hr, hd, hp]

/-- The first VOID of this package withdraws its tick: it stops issue and will replay (R32, R35). -/
theorem void_of_own {s : State} (hr : running s = true) (hd : s.tick.draining = false) (hrep : s.tick.replay = .none)
    (hv : getF s R.TICK_STRETCH_CNT.VOIDED = 0) :
    exec (.void (myId s) (tickNum s)) s =
      .next { postpone s with tick := { (postpone s).tick with replay := .quiescing, voidCode := none } } := by
  obtain ⟨_, _, _, htick⟩ := postpone_first hv
  show Host.Outcome.next (voidRx _ _ s) = _
  simp [voidRx, hr, hd, secondFault, hrep, withdraw, quiesce, htick]

/-- Settles O14: `postpone_first` and `dropSource_land_spec` for a VOID of another package, `void_of_own` for the own one;
then the mark, the quiet package and the start of the replay. -/
theorem voidWithdrawsATick : Obligations.VoidWithdrawsATick := by
  refine ⟨?_, ?_, ?_, ?_, ?_, ?_⟩
  · intro s pkg _ hr hd hp hv
    obtain ⟨hclose, hraised, hvoided, _⟩ := postpone_first hv
    obtain ⟨hgone, hkept⟩ := dropSource_land_spec pkg (tickNum s) (postpone s)
    have hpost := changesOnly_postpone s
    have hdrop := changesOnly_dropSource pkg (tickNum s) (postpone s)
    refine ⟨_, void_of_other hr hd hp, (closing_dropSource _ _ _).trans hclose,
      raisedKept_dropSource _ _ _ _ (by decide) hraised, dropSource_voidedSrcs _ _ _, hgone, fun f hf hne => ?_,
      ((regsBut_dropSource _ _ _).getF_eq (by decide)).trans hvoided,
      dropSource_job _ _ _ (postpone_job s rfl),
      (hdrop .mem (by decide)).trans (hpost .mem (by decide)), (hdrop .cores (by decide)).trans (hpost .cores (by decide))⟩
    exact hkept f ((congrArg Hall.land (hpost .hall (by decide))).symm ▸ hf) hne
  · intro s pkg hr hd hp hv
    have hdrop := changesOnly_dropSource pkg (tickNum s) s
    refine ⟨_, void_of_other hr hd hp, ?_⟩
    rw [postpone_of_voided hv]
    exact ⟨closing_dropSource _ _ _, dropSource_voidedSrcs _ _ _, (dropSource_land_spec _ _ _).1, dropSource_job _ _ _ rfl,
      hdrop .mem (by decide), hdrop .cores (by decide)⟩
  · intro s _ hr hd hrep hv
    obtain ⟨_, hraised, hvoided, _⟩ := postpone_first hv
    exact ⟨_, void_of_own hr hd hrep hv, rfl, hvoided, hraised, changesOnly_postpone s .mem (by decide)⟩
  · intro s src
    refine ⟨{ s with tick := { s.tick with voidedSrcs := s.tick.voidedSrcs.filter fun x => x != src } },
      by simp [exec, execReplayMark, markRx], by simp, changesOnly_withTick s _, fun x hx => ?_⟩
    simp [hx]
  · intro s hr hd hrep
    exact ⟨prepareReplay s, by simp [exec, execReplayQuiesced, hr, hd, hrep], rfl⟩
  · intro s _ hr hd hrep
    exact ⟨beginReplay s, by simp [exec, execReplayStart, hr, hd, hrep], beginReplay_job s rfl,
      raised_raise _ _ (by decide)⟩

end Sys2Proof.Machine
end

section
/-! The job tick over a boundary: what closes a tick and what opens one leave it, and the late swap (R16, R22, R93). -/

namespace Sys2Proof.Machine

/-! ### What keeps the tick's own state -/

theorem foldl_tick {α : Type} {f : State → α → State} (hf : ∀ s a, (f s a).tick = s.tick) (l : List α) (s : State) :
    (l.foldl f s).tick = s.tick := by
  induction l generalizing s with
  | nil => rfl
  | cons a l ih => exact (ih (f s a)).trans (hf s a)

@[simp] theorem logOnly_tick (code unit id cyc detail : Nat) (s : State) :
    (logOnly code unit id cyc detail s).tick = s.tick := changesOnly_logOnly _ _ _ _ _ s .tick (by decide)

@[simp] theorem set128_tick (f : Nat → Fld) (v : Nat) (s : State) : (set128 f v s).tick = s.tick := setFs_tick _ _

@[simp] theorem raiseSec_tick (n : Nat) (e : Ev) (s : State) : (raiseSec n e s).tick = s.tick := by simp [raiseSec]

@[simp] theorem showLanding_tick (s : State) : (showLanding s).tick = s.tick := rfl

/-! ### What closes a tick -/

@[simp] theorem stopSec_tick (n cause : Nat) (s : State) : (stopSec n cause s).tick = s.tick := by
  unfold stopSec; split <;> simp

@[simp] theorem stopSecs_tick (s : State) : (stopSecs s).tick = s.tick :=
  foldl_tick (fun s n => by dsimp only; split <;> simp) _ s

@[simp] theorem endSecs_tick (s : State) : (endSecs s).tick = s.tick :=
  foldl_tick (fun s n => by
    split
    · split <;> simp
    · rfl) _ s

@[simp] theorem closeCommit_tick (s : State) : (closeCommit s).tick = s.tick := rfl

@[simp] theorem closeReduce_tick (s : State) : (closeReduce s).tick = s.tick := rfl

@[simp] theorem landNorm_tick (a : Acc128) (s : State) : (landNorm a s).tick = s.tick :=
  foldl_tick (fun s k => by simp) _ s

@[simp] theorem closeHall_tick (s : State) : (closeHall s).tick = s.tick := by
  unfold closeHall
  dsimp only
  split <;> simp [freeLanding]

@[simp] theorem clearGns_tick (k : Nat) (s : State) : (clearGns k s).tick = s.tick := by
  unfold clearGns
  split
  · rfl
  · rw [updPan_tick, setFs_tick, set128_tick, set128_tick]

@[simp] theorem latchNorm_tick (k : Nat) (s : State) : (latchNorm k s).tick = s.tick := by simp [latchNorm]

@[simp] theorem addGns_tick (k mbatch : Nat) (s : State) : (addGns k mbatch s).tick = s.tick := by
  unfold addGns
  split
  · rfl
  · dsimp only
    split <;> simp

@[simp] theorem stepAdvance_tick (mbatch : Nat) (s : State) : (stepAdvance mbatch s).tick = s.tick :=
  foldl_tick (fun s k => by simp [stepPan]) _ s

@[simp] theorem closePan_tick (k : Nat) (s : State) : (closePan k s).tick = s.tick := by simp [closePan]

@[simp] theorem closePantries_tick (s : State) : (closePantries s).tick = s.tick := by
  have hclear : (allStacks.foldl (fun s k => clearGns k s) s).tick = s.tick := foldl_tick (fun s k => by simp) _ s
  unfold closePantries
  dsimp only
  rw [foldl_tick (fun s k => closePan_tick k s)]
  split
  · next n st mb _ =>
    have hlatch : ∀ s : State, (allStacks.foldl (fun s k => latchNorm k s) s).tick = s.tick :=
      foldl_tick (fun s k => latchNorm_tick k s) _
    split <;> split <;> simp [hclear, hlatch]
  · exact hclear

@[simp] theorem abortMargin_tick (k c : Nat) (s : State) : (abortMargin k c s).tick = s.tick := by
  unfold abortMargin; split <;> simp

@[simp] theorem closeStacks_tick (s : State) : (closeStacks s).tick = s.tick :=
  foldl_tick (fun s k => by simp [peakF]) _ s

@[simp] theorem rebaseChans_tick (s : State) : (rebaseChans s).tick = s.tick := by simp [rebaseChans]

@[simp] theorem closeHearth_tick (s : State) : (closeHearth s).tick = s.tick := by
  cases h : flagF s R.HTH_BALLAST.EN <;> simp [closeHearth, takeFree, h]

@[simp] theorem closeDies_tick (s : State) : (closeDies s).tick = s.tick := foldl_tick (fun s d => by simp) _ s

@[simp] theorem clearSigs_tick (s : State) : (clearSigs s).tick = s.tick := by simp [clearSigs]

@[simp] theorem settleGuest_tick (s : State) : (settleGuest s).tick = s.tick := by
  show (redoGuest s).tick = s.tick
  exact changesOnly_redoGuest s .tick (by decide)

theorem clearTick_job (s : State) : (clearTick s).tick.job = s.tick.job := by simp [clearTick]

/-- Closing a tick leaves its number. -/
theorem closeTick_job (s : State) : (closeTick s).tick.job = s.tick.job := by
  simp [closeTick, clearTick_job]

/-! ### What opens a tick -/

theorem closeSem_job {b : State} (c : Nat) (s : State) (h : s.tick.job = b.tick.job) :
    (closeSem c s).tick.job = b.tick.job := takeFaults_job _ _ (by simpa using h)

theorem boundaryPost_tick (s : State) (p : Nat × Nat × Nat × Nat) : (boundaryPost s p).tick = s.tick := by
  unfold boundaryPost; split <;> simp

theorem boundaryPosts_job (s : State) : (boundaryPosts s).tick.job = s.tick.job := by
  unfold boundaryPosts
  refine takeFaults_job _ _ ?_
  rw [foldl_tick (fun s c => updCore_tick s c semClose)]
  show (List.foldl boundaryPost _ _).tick.job = _
  rw [foldl_tick boundaryPost_tick]
  exact foldl_job (fun s c h => closeSem_job c s h) _ s rfl

@[simp] theorem startSecs_tick (n : Nat) (s : State) : (startSecs n s).tick = s.tick :=
  foldl_tick (fun s i => by
    split
    · split <;> simp
    · rfl) _ s

@[simp] theorem openCores_tick (s : State) : (openCores s).tick = s.tick := by
  unfold openCores
  rw [foldl_tick (fun s c => by simp)]
  simp

@[simp] theorem sendFlit_tick (f : GFlit) (s : State) : (sendFlit f s).tick = s.tick := by
  unfold sendFlit; split <;> simp [sendSeq, emitFlit]

@[simp] theorem grantCredits_tick (s : State) : (grantCredits s).tick = s.tick := by
  unfold grantCredits; split <;> simp

/-- The tick that opens has the number given. -/
theorem openTick_job (n : Nat) (s : State) : (openTick n s).tick.job = n := by
  unfold openTick
  refine issueNorm_job (b := { s with tick := { s.tick with job := n } }) _ (foldl_job (fun s i h => ?_) _ _ ?_)
  · split
    · exact sendPhase2_job _ _ h
    · exact h
  · refine foldl_job (fun s e h => voidOther_job _ _ _ _ h) _ _ ?_
    rw [grantCredits_tick, openCores_tick, startSecs_tick, boundaryPosts_job, setFs_tick]

/-! ### Boundaries (R16) -/

/-- A running package that stands at V and is neither draining nor about to replay closes its tick. -/
theorem tickBoundary_of_running {s : State} (hr : running s = true) (hv : s.tick.atV = true) (hd : s.tick.draining = false)
    (hrep : s.tick.replay = .none) : exec .tickBoundary s = .next (boundary s) := by
  show execTickBoundary s = _
  simp [execTickBoundary, hr, hv, hd, hrep]

theorem boundary_opens {s : State} (hc : closeSems s = s) (hv : s.tick.atV = true) (hh : s.tick.haltNext = false)
    (hp : s.tick.planned ≠ some (s.tick.job + 1)) : boundary s = openTick (s.tick.job + 1) (closeTick s) := by
  simp [boundary, hc, hv, hh, hp]

theorem boundary_drains {s : State} (hc : closeSems s = s) (hv : s.tick.atV = true)
    (h : s.tick.haltNext = true ∨ s.tick.planned = some (s.tick.job + 1)) :
    boundary s = enterDrain true (boundaryPosts (closeTick s)) := by
  rcases h with h | h <;> simp [boundary, hc, hv, h]

/-! ### The late swap (R93) -/

theorem getCore_updCore_same (s : State) (c : Nat) (f : Core → Core) : getCore (updCore s c f) c = f (getCore s c) := by
  unfold getCore updCore; rw [smGet_smUpd, if_pos rfl]

theorem getCore_updCore_other (s : State) (f : Core → Core) {c d : Nat} (h : d ≠ c) :
    getCore (updCore s c f) d = getCore s d := by
  unfold getCore updCore; rw [smGet_smUpd, if_neg (Ne.symm h)]

/-- Changing engines changes nothing else of the core. -/
theorem foldl_updEng (f : Core → Nat → Eng → Eng) (l : List Nat) (c : Core) :
    ∃ m, l.foldl (fun c e => updEng c e (f c e)) c = { c with engs := m } := by
  induction l generalizing c with
  | nil => exact ⟨c.engs, rfl⟩
  | cons e l ih =>
    obtain ⟨m, hm⟩ := ih (updEng c e (f c e))
    exact ⟨m, hm⟩

/-- The pending half is active, its bank and entry points in force. -/
theorem swapHalves_fields (s : State) (c : Core) :
    (swapHalves s c).activeB = (!c.activeB) ∧ (swapHalves s c).ready = false ∧ (swapHalves s c).bank = c.pendBank ∧
      (swapHalves s c).entries = c.pendEntries := by
  obtain ⟨m, hm⟩ := foldl_updEng (fun c e => entryEng c.lone e (c.entries.getD e 0)) (List.range 6)
    { c with
      activeB := !c.activeB, ready := false, bank := c.pendBank, entries := c.pendEntries,
      fill := c.pendFill, pendFill := 0, lone := c.pendFill != 0 && !secRunning s c.pendFill }
  have he : swapHalves s c = _ := hm
  rw [he]
  exact ⟨rfl, rfl, rfl, rfl⟩

/-- The copies of R25 taken anew. -/
def recopied (c : Core) : Core := { c with copyEntries := (takeCopies c).copyEntries, copyBank := c.bank }

theorem recopied_fields (c : Core) :
    (recopied c).activeB = c.activeB ∧ (recopied c).ready = c.ready ∧ (recopied c).bank = c.bank ∧
      (recopied c).entries = c.entries := ⟨rfl, rfl, rfl, rfl⟩

theorem ibLateSwap_of_ready {s : State} {c : CoreId} (ho : issueOpen s = true) (hl : lateCore s (getCore s c.lcid) = true)
    (hr : (getCore s c.lcid).ready = true) :
    exec (.ibLateSwap c) s = .next (updCore s c.lcid fun co => recopied (swapHalves s co)) := by
  show execIbLateSwap c s = _
  simp only [execIbLateSwap, ho, hl, hr, Bool.and_self, if_true]
  rfl

/-! ### O11 -/

/-- Settles O11: the job tick by `openTick_job` and `closeTick_job`, the late swap by `swapHalves_fields`. -/
theorem boundaryOpensTheNextTick : Obligations.BoundaryOpensTheNextTick := by
  refine ⟨?_, ?_, ?_, ?_⟩
  · intro s hr hv hd hrep hc hh hp
    refine ⟨_, tickBoundary_of_running hr hv hd hrep, ?_⟩
    rw [boundary_opens hc hv hh hp]
    exact openTick_job _ _
  · intro s hr hv hd hrep hc h
    refine ⟨_, tickBoundary_of_running hr hv hd hrep, ?_⟩
    rw [boundary_drains hc hv h]
    exact ⟨enterDrain_job true _ ((boundaryPosts_job _).trans (closeTick_job s)), enterDrain_draining _ _⟩
  · intro s _ hr hp ha ht
    refine ⟨launchTick s, ?_, ?_, raised_raise _ _ (by decide)⟩
    · show execTickBoundary s = _
      simp [execTickBoundary, hr, hp, ha, ht]
    · show (raise _ _).tick.job = _
      rw [raise_tick, openTick_job]
      rfl
  · intro s c _ ho hl hr
    obtain ⟨hact, hready, hbank, hent⟩ := swapHalves_fields s (getCore s c.lcid)
    obtain ⟨kact, kready, kbank, kent⟩ := recopied_fields (swapHalves s (getCore s c.lcid))
    refine ⟨updCore s c.lcid fun co => recopied (swapHalves s co), ibLateSwap_of_ready ho hl hr, ?_, ?_, ?_, ?_,
      fun p hp => ?_, fun d hd => getCore_updCore_other s _ hd⟩
    · rw [getCore_updCore_same, kact, hact]
    · rw [getCore_updCore_same, kready, hready]
    · rw [getCore_updCore_same, kbank, hbank]
    · rw [getCore_updCore_same, kent, hent]
    · cases p <;> simp_all [Part.same]

end Sys2Proof.Machine
end

section
/-! A register word as read depends on the fields of its own offset (R396). -/

namespace Sys2Proof.Machine

theorem fusedVal_congr {s t : State} (h : t.fuse = s.fuse) (f : Fld) : fusedVal t f = fusedVal s f := by
  unfold fusedVal; rw [h]

/-- What a field shows depends on its value, on the counter, the bring-up, the fuses and who is the root. -/
theorem showF_congr {s t : State} {f : Fld} (hf : getF t f = getF s f) (hcount : t.counter = s.counter) (hbu : t.bu = s.bu)
    (hfuse : t.fuse = s.fuse) (hroot : isRoot t = isRoot s) : showF t f = showF s f := by
  unfold showF
  rw [hf, hcount, hbu, hroot, fusedVal_congr hfuse]

/-- A word whose fields show alike reads alike. -/
theorem regWord_congr {s t : State} {pg off : Nat} (h : ∀ f ∈ pageFlds pg, f.off = off → showF t f = showF s f) :
    regWord t pg off = regWord s pg off := by
  refine List.foldl_ext _ _ 0 fun w f hf => ?_
  split
  · next hc => rw [h f hf hc.1]
  · rfl

end Sys2Proof.Machine
end

section
/-! Instructions that put a memory run on its way: what an issue leaves, and the run (R39, R112, R168, R191, R223). -/

namespace Sys2Proof.Machine

/-! ### An engine that has issued -/

/-- The engine past its words (R83); of a stopped filler only LD's first word runs (R381). -/
def advancedEng (i : Issue) (w : Nat) (lone : Bool) (g : Eng) : Eng :=
  { g with idx := g.idx + (if twoWord (wOp w) then 2 else 1), free := i.cyc + 1, mode := if lone then .atTend else g.mode }

/-- The core whose engine has issued. -/
def advanced (i : Issue) (w : Nat) (c : Core) : Core := updEng c i.eng.no (advancedEng i w c.lone)

theorem getEng_updEng_same (c : Core) (e : Nat) (f : Eng → Eng) : getEng (updEng c e f) e = f (getEng c e) := by
  unfold getEng updEng; rw [smGet_smUpd, if_pos rfl]

theorem getEng_updEng_other (c : Core) (f : Eng → Eng) {e d : Nat} (h : d ≠ e) : getEng (updEng c e f) d = getEng c d := by
  unfold getEng updEng; rw [smGet_smUpd, if_neg (Ne.symm h)]

theorem issued_cases (i : Issue) (w : Nat) (s : State) :
    issued i w s = if wV w then incSat (updCore s i.core.lcid (advanced i w)) R.TOP_VARIANCE_CNT.COUNT 1
      else updCore s i.core.lcid (advanced i w) := rfl

theorem issued_cores (i : Issue) (w : Nat) (s : State) :
    (issued i w s).cores = (updCore s i.core.lcid (advanced i w)).cores := by
  rw [issued_cases]; split <;> simp

theorem getCore_issued (i : Issue) (w : Nat) (s : State) :
    getCore (issued i w s) i.core.lcid = advanced i w (getCore s i.core.lcid) := by
  unfold getCore
  rw [issued_cores]
  exact getCore_updCore_same s _ _

theorem getCore_issued_other (i : Issue) (w : Nat) (s : State) {d : Nat} (h : d ≠ i.core.lcid) :
    getCore (issued i w s) d = getCore s d := by
  unfold getCore
  rw [issued_cores]
  exact getCore_updCore_other s _ h

theorem changesOnly_updCore (s : State) (c : Nat) (f : Core → Core) : ChangesOnly [.cores] s (updCore s c f) := fun p hp => by
  cases p <;> simp_all [Part.same]

theorem changesOnly_issued (i : Issue) (w : Nat) (s : State) : ChangesOnly [.cores, .regs] s (issued i w s) := by
  have hc := (changesOnly_updCore s i.core.lcid (advanced i w)).mono (qs := [.cores, .regs]) (by simp)
  rw [issued_cases]
  split
  · exact hc.trans ((changesOnly_setF _ _ _).mono (by simp))
  · exact hc

theorem issued_transit (i : Issue) (w : Nat) (s : State) : (issued i w s).transit = s.transit :=
  changesOnly_issued i w s .transit (by decide)

theorem regsBut_issued (i : Issue) (w : Nat) (s : State) : RegsBut [R.TOP_VARIANCE_CNT.COUNT] s (issued i w s) := by
  have hc : RegsBut [R.TOP_VARIANCE_CNT.COUNT] s (updCore s i.core.lcid (advanced i w)) := .of_regs (updCore_regs ..)
  rw [issued_cases]
  split
  · exact hc.trans (regsBut_setF _ _ (by simp))
  · exact hc

/-- The V mark is counted (R47). -/
theorem count_issued (i : Issue) (w : Nat) (s : State) :
    getF (issued i w s) R.TOP_VARIANCE_CNT.COUNT =
      if wV w then satAdd (2 ^ 32 - 1) (getF s R.TOP_VARIANCE_CNT.COUNT) 1 else getF s R.TOP_VARIANCE_CNT.COUNT := by
  have hc : getF (updCore s i.core.lcid (advanced i w)) R.TOP_VARIANCE_CNT.COUNT = getF s R.TOP_VARIANCE_CNT.COUNT :=
    getF_congr (updCore_regs ..) _
  rw [issued_cases]
  split
  · rw [getF_incSat, hc]; rfl
  · exact hc

/-- The engine of an instruction that may issue runs. -/
theorem mode_of_canIssue {s : State} {i : Issue} (h : canIssue s i = true) : (engOf i s).mode = .running := by
  unfold canIssue at h
  simp only [Bool.and_eq_true, beq_iff_eq] at h
  obtain ⟨⟨_, hmode⟩, _⟩ := h
  exact hmode

/-- `Issued` of a state that differs from the issue's in the issuing core and the parts `ps` alone. -/
theorem Issued.of_core {i : Issue} {w free : Nat} {o : List Outst} {hide : Core → Core} {ps : List Part} {s t : State}
    {c : Core} (hs : canIssue s i = true) (hcore : getCore t i.core.lcid = c)
    (heng : getEng c i.eng.no = { advancedEng i w (getCore s i.core.lcid).lone (engOf i s) with free := free })
    (hothers : ∀ e, e ≠ i.eng.no → getEng c e = getEng (getCore s i.core.lcid) e)
    (houtst : c.outst = (getCore s i.core.lcid).outst ++ o) (hhide : hide (bare c) = hide (bare (getCore s i.core.lcid)))
    (hcores : ∀ d, d ≠ i.core.lcid → getCore t d = getCore (issued i w s) d)
    (hparts : ChangesOnly (.cores :: ps) (issued i w s) t) (hps : Part.regs ∉ ps) :
    Issued i w free (goesOn i s) o hide ps s t where
  eng := by
    show getEng (getCore t i.core.lcid) i.eng.no = _
    rw [hcore, heng, advancedEng, mode_of_canIssue hs]
    rfl
  others := by rw [hcore]; exact hothers
  outst := by rw [hcore, houtst]
  core := by rw [hcore, hhide]
  cores d hd := (hcores d hd).trans (getCore_issued_other i w s hd)
  count := (getF_congr (hparts .regs (by simp [hps])) _).trans (count_issued i w s)
  regs := (regsBut_issued i w s).trans (.of_regs (hparts .regs (by simp [hps])))
  parts := ((changesOnly_issued i w s).mono (by simp)).trans (hparts.mono (by simp))

/-! ### The word that issues -/

section
variable {i : Issue} {op w x : Nat} {s : State}

theorem willIssue_of_fetches (h : Fetches i op w x s) : willIssue i op s = true := by
  obtain ⟨hcan, hpar, _, hw, hop, hlegal, hlen, _⟩ := h
  subst hw
  unfold willIssue
  simp only [Bool.and_eq_true, decide_eq_true_eq, Bool.not_eq_true', beq_iff_eq]
  exact ⟨⟨⟨⟨hcan, hlen⟩, hpar⟩, hlegal⟩, hop⟩

/-- The instruction acts on the state its issue leaves. -/
theorem issueOp_of_fetches (h : Fetches i op w x s) (eff : Nat → Nat → State → State) :
    issueOp i op eff s = eff w (if twoWord op then x else 0) (issued i w s) := by
  obtain ⟨hcan, hpar, _, hw, hop, hlegal, hlen, hx⟩ := h
  have hw' : fetchWord (getCore s i.core.lcid) (getEng (getCore s i.core.lcid) i.eng.no).idx = w := hw
  have hlen' : (getEng (getCore s i.core.lcid) i.eng.no).idx + (if twoWord op then 1 else 0) <
      listLen (getCore s i.core.lcid) := hlen
  have hsecond : (if twoWord op then fetchWord (getCore s i.core.lcid) ((getEng (getCore s i.core.lcid) i.eng.no).idx + 1)
      else 0) = if twoWord op then x else 0 := by
    split
    · next h2 => exact hx h2
    · rfl
  have hroom : (twoWord op && decide (listLen (getCore s i.core.lcid) ≤
      (getEng (getCore s i.core.lcid) i.eng.no).idx + 1)) = false := by
    cases h2 : twoWord op
    · rfl
    · rw [h2] at hlen'
      simpa using hlen'
  unfold issueOp
  simp only [hw', hsecond, hroom, hcan, hpar, hlegal, hop]
  rw [if_neg (by simp), if_neg (by omega)]
  simp

theorem Fetches.second (h : Fetches i op w x s) (h2 : twoWord op = true) :
    fetchWord (getCore s i.core.lcid) ((engOf i s).idx + 1) = x := by
  obtain ⟨_, _, _, _, _, _, _, hx⟩ := h
  exact hx h2

/-- An address in memory: the transfer issues. -/
theorem issueMem_of_fetches (h : Fetches i op w x s) {span : Nat → Nat → Nat × Nat} {eff : Nat → Nat → State → State}
    (hspan : spanOk s (span w (fetchWord (getCore s i.core.lcid) ((engOf i s).idx + 1))).1
      (span w (fetchWord (getCore s i.core.lcid) ((engOf i s).idx + 1))).2 = true) :
    issueMem i op span eff s = .next (eff w (if twoWord op then x else 0) (issued i w s)) := by
  rw [← issueOp_of_fetches h eff]
  obtain ⟨_, _, _, hw, _⟩ := h
  subst hw
  unfold issueMem
  dsimp only
  rw [if_neg]
  intro hbad
  simp only [engOf] at hspan
  simp [hspan] at hbad

/-- An address outside memory is a fault (R190). -/
theorem issueMem_of_no_memory {span : Nat → Nat → Nat × Nat} {eff : Nat → Nat → State → State}
    (h : Fetches i op w x s) (h2 : twoWord op = true) (hspan : spanOk s (span w x).1 (span w x).2 = false) :
    issueMem i op span eff s = .fault (.noMemory (span w x).1) := by
  have hwill := willIssue_of_fetches h
  have hx := h.second h2
  obtain ⟨_, _, _, hw, _⟩ := h
  subst hw hx
  unfold issueMem
  dsimp only
  rw [if_pos]
  · rfl
  · simp only [engOf] at hspan
    simp [hspan, hwill]

/-- A transfer of two words whose address names memory issues. -/
theorem issueMem_two {span : Nat → Nat → Nat × Nat} {eff : Nat → Nat → State → State} (h : Fetches i op w x s)
    (h2 : twoWord op = true) (hspan : spanOk s (span w x).1 (span w x).2 = true) :
    issueMem i op span eff s = .next (eff w x (issued i w s)) := by
  rw [issueMem_of_fetches h (by rw [h.second h2]; exact hspan), if_pos h2]

theorem Fetches.can (h : Fetches i op w x s) : canIssue s i = true := h.1
theorem Fetches.acc (h : Fetches i op w x s) : i.acc = [] := h.2.2.1

end

/-! ### Accesses that meet nothing -/

theorem chargeAcc_nil {i : Issue} (h : i.acc = []) (s : State) : chargeAcc i s = s := by
  unfold chargeAcc; rw [h]; rfl

theorem onEdge_nil {i : Issue} (h : i.acc = []) (role : Option Nat) : onEdge role i = i := by
  cases i; simp_all [onEdge]

theorem usedFree_nil {i : Issue} (h : i.acc = []) (s : State) : usedFree (edgeLines i.acc) s = s := by
  rw [h]; rfl

theorem outbound_nil {i : Issue} (h : i.acc = []) (w n : Nat) (s : State) :
    outbound i w n s = completes i w (i.cyc + n - 1) (holdFor i n s) := by
  unfold outbound; rw [chargeAcc_nil h, usedFree_nil h]

/-! ### What a run is made of, before and after the issue -/

theorem newRun_issued (i : Issue) (w : Nat) (s : State) : newRun (issued i w s) i = newRun s i := by
  have hn : tickNum (issued i w s) = tickNum s := (regsBut_issued i w s).getF_eq (by decide)
  have hf : (issued i w s).fuse = s.fuse := changesOnly_issued i w s .fuse (by decide)
  funext kind pa beats seq data
  unfold newRun btOfCyc gradeF
  rw [hn, hf, getCore_issued]
  rfl

theorem hingeOf_issued (i : Issue) (w v x : Nat) (s : State) : hingeOf (issued i w s) i v x = hingeOf s i v x := by
  unfold hingeOf issueDesc
  rw [getCore_issued]
  rfl

theorem outBytes_issued (i : Issue) (w line n : Nat) (s : State) : outBytes (issued i w s) i line n = outBytes s i line n := by
  have hf : (issued i w s).freeCtr = s.freeCtr := changesOnly_issued i w s .freeCtr (by decide)
  unfold outBytes lsView
  rw [getCore_issued, hf]
  rfl

theorem ildAddr_issued (i : Issue) (w pa : Nat) (s : State) : ildAddr (issued i w s) pa = ildAddr s pa := by
  have hch := changesOnly_issued i w s
  have hfill : ∀ n, isFiller (issued i w s) n = isFiller s n := fun n => by
    unfold isFiller partVal partVals; rw [hch .hif (by decide)]
  have hsecs : (issued i w s).secs = s.secs := hch .secs (by decide)
  have htick : (issued i w s).tick = s.tick := hch .tick (by decide)
  have hred : (issued i w s).redirect = s.redirect := hch .redirect (by decide)
  unfold ildAddr redirecting
  simp only [hfill, hsecs, htick, hred]

/-- The words of Table 3.5's header that come from the registers lie beside the V count. -/
theorem regWord_issued (i : Issue) (w : Nat) {off : Nat} (s : State)
    (hlo : ∀ f ∈ pageFlds 0, f.off = off → fldKey f ∉ [R.TOP_VARIANCE_CNT.COUNT].map fldKey) :
    regWord (issued i w s) 0 off = regWord s 0 off := by
  have hch := changesOnly_issued i w s
  have hr := regsBut_issued i w s
  refine regWord_congr fun f hf ho => showF_congr (hr.getF_eq (hlo f hf ho)) (hch .counter (by decide)) (hch .bu (by decide))
    (hch .fuse (by decide)) ?_
  unfold isRoot myId
  rw [hr.getF_eq (by decide), hr.getF_eq (by decide)]

/-! ### A run that is awaited (R83, R104) -/

/-- What is awaited of a run at its core's Doorway. -/
def inboundOf (r : Run) : Inbound :=
  { stack := r.pa / 2 ^ 36, tick := r.tick, seq := r.seq, cnt := r.cnt, sem := r.sem, bank := r.bank, landed := false }

/-- The instruction that a run completes. -/
def outstOf (i : Issue) (w : Nat) (r : Run) : Outst :=
  { eng := i.eng.no, due := none, p := wP w, ps := wPS w, run := some (r.pa / 2 ^ 36, r.tick, r.seq) }

/-- The core that awaits a run. -/
def awaiting (i : Issue) (w : Nat) (r : Run) (c : Core) : Core :=
  { c with landing := c.landing ++ [inboundOf r], outst := c.outst ++ [outstOf i w r] }

/-- A run is put on its way and awaited, and its instruction completes with it. -/
def runAwaited (i : Issue) (w : Nat) (r : Run) (s : State) : State :=
  completesWith i w (r.pa / 2 ^ 36) r.tick r.seq (await r (addRun r s))

theorem changesOnly_addRun (r : Run) (s : State) : ChangesOnly [.transit] s (addRun r s) := fun p hp => by
  cases p <;> simp_all [Part.same, addRun]

theorem changesOnly_runAwaited (i : Issue) (w : Nat) (r : Run) (s : State) :
    ChangesOnly [.cores, .transit] s (runAwaited i w r s) :=
  ((changesOnly_addRun r s).mono (by simp)).trans <| ((changesOnly_updCore _ _ _).mono (by simp)).trans <|
    (changesOnly_updCore _ _ _).mono (by simp)

theorem getCore_runAwaited {i : Issue} {r : Run} (w : Nat) (s : State) (h : r.core = i.core.lcid) :
    getCore (runAwaited i w r s) i.core.lcid = awaiting i w r (getCore s i.core.lcid) := by
  unfold runAwaited completesWith await
  rw [getCore_updCore_same, h, getCore_updCore_same]
  rfl

theorem getCore_runAwaited_other {i : Issue} {r : Run} (w : Nat) (s : State) (h : r.core = i.core.lcid) {d : Nat}
    (hd : d ≠ i.core.lcid) : getCore (runAwaited i w r s) d = getCore s d := by
  unfold runAwaited completesWith await
  rw [getCore_updCore_other _ _ hd, h, getCore_updCore_other _ _ hd]
  rfl

/-- The issue of an instruction that reads memory: its run is on its way. -/
theorem readRun_of_issue {i : Issue} {w : Nat} {r : Run} {s : State} (hs : canIssue s i = true) (hr : r.core = i.core.lcid) :
    ReadRun i w r s (runAwaited i w r (issued i w s)) := by
  have hcore : getCore (runAwaited i w r (issued i w s)) i.core.lcid =
      awaiting i w r (advanced i w (getCore s i.core.lcid)) := by rw [getCore_runAwaited w _ hr, getCore_issued]
  refine ⟨Issued.of_core hs hcore ?_ ?_ rfl rfl (fun d hd => getCore_runAwaited_other w _ hr hd)
    (changesOnly_runAwaited i w r _) (by decide), ?_, ?_⟩
  · exact getEng_updEng_same _ _ _
  · exact fun e he => getEng_updEng_other _ _ he
  · rw [← issued_transit i w s]; rfl
  · rw [hcore]; rfl

/-! ### A run that carries beats (R83, Table 6.1) -/

/-- The core whose engine is held one cycle a beat; it completes with the last. -/
def beating (i : Issue) (w n : Nat) (c : Core) : Core :=
  { updEng c i.eng.no (fun g => { g with free := i.cyc + n }) with outst := c.outst ++ [doneAt i w (i.cyc + n - 1)] }

theorem getCore_beats (i : Issue) (w n : Nat) (s : State) :
    getCore (completes i w (i.cyc + n - 1) (holdFor i n s)) i.core.lcid = beating i w n (getCore s i.core.lcid) := by
  unfold completes holdFor
  rw [getCore_updCore_same, getCore_updCore_same]
  rfl

theorem getEng_beating_same (i : Issue) (w n : Nat) (c : Core) :
    getEng (beating i w n c) i.eng.no = { getEng c i.eng.no with free := i.cyc + n } :=
  getEng_updEng_same c i.eng.no fun g => { g with free := i.cyc + n }

theorem getEng_beating_other (i : Issue) (w n : Nat) (c : Core) {e : Nat} (he : e ≠ i.eng.no) :
    getEng (beating i w n c) e = getEng c e :=
  getEng_updEng_other c (fun g => { g with free := i.cyc + n }) he

theorem getCore_beats_other (i : Issue) (w n : Nat) (s : State) {d : Nat} (hd : d ≠ i.core.lcid) :
    getCore (completes i w (i.cyc + n - 1) (holdFor i n s)) d = getCore s d := by
  unfold completes holdFor
  rw [getCore_updCore_other _ _ hd, getCore_updCore_other _ _ hd]

/-- The issue of an outbound transfer, after what it does besides: `u` differs from the issue's state in the issuing
core, by `f`, and in the runs on their way. -/
theorem issued_beats {i : Issue} {w n : Nat} {hide f : Core → Core} {s u : State} (hs : canIssue s i = true)
    (hu : getCore u i.core.lcid = f (getCore (issued i w s) i.core.lcid))
    (hf : ∀ c, (f c).engs = c.engs ∧ (f c).outst = c.outst ∧
      ∀ m o, hide (bare { f c with engs := m, outst := o }) = hide (bare c))
    (hother : ∀ d, d ≠ i.core.lcid → getCore u d = getCore (issued i w s) d)
    (hparts : ChangesOnly [.cores, .transit] (issued i w s) u) :
    Issued i w (i.cyc + n) (goesOn i s) [doneAt i w (i.cyc + n - 1)] hide [.transit] s
      (completes i w (i.cyc + n - 1) (holdFor i n u)) := by
  obtain ⟨hengs, houtst, hhide⟩ := hf (advanced i w (getCore s i.core.lcid))
  have hcore : getCore (completes i w (i.cyc + n - 1) (holdFor i n u)) i.core.lcid =
      beating i w n (f (advanced i w (getCore s i.core.lcid))) := by rw [getCore_beats, hu, getCore_issued]
  have heng : ∀ e, getEng (f (advanced i w (getCore s i.core.lcid))) e = getEng (advanced i w (getCore s i.core.lcid)) e :=
    fun e => by unfold getEng; rw [hengs]
  refine Issued.of_core hs hcore ?_ (fun e he => ?_) ?_ (hhide _ _) (fun d hd => ?_) ?_ (by decide)
  · rw [getEng_beating_same, heng, advanced, getEng_updEng_same]
    rfl
  · rw [getEng_beating_other _ _ _ _ he, heng, advanced, getEng_updEng_other _ _ he]
  · show (f (advanced i w (getCore s i.core.lcid))).outst ++ _ = _
    rw [houtst]
    rfl
  · rw [getCore_beats_other _ _ _ _ hd, hother d hd]
  · exact hparts.trans (((changesOnly_updCore _ _ _).mono (by simp)).trans ((changesOnly_updCore _ _ _).mono (by simp)))

/-- A run added at the issue goes on its way with the beats. -/
theorem issued_addRun {i : Issue} {w n : Nat} (r : Run) {s : State} (hs : canIssue s i = true) :
    Issued i w (i.cyc + n) (goesOn i s) [doneAt i w (i.cyc + n - 1)] id [.transit] s
      (completes i w (i.cyc + n - 1) (holdFor i n (addRun r (issued i w s)))) :=
  issued_beats (f := id) hs rfl (fun _ => ⟨rfl, rfl, fun _ _ => rfl⟩) (fun _ _ => rfl)
    ((changesOnly_addRun r _).mono (by simp))

theorem beats_transit (i : Issue) (w n : Nat) (r : Run) {s u : State} (h : u.transit = s.transit) :
    (completes i w (i.cyc + n - 1) (holdFor i n (addRun r u))).transit = s.transit ++ [r] := by
  rw [← h]; rfl

/-! ### The saved context (R112) -/

/-- The running CRC and the mask of a CSAV. -/
def saving (w : Nat) (data : List Byte) (c : Core) : Core :=
  { c with
    savCrc := crc32Run 0x82F63B78 (if fSPart w = 0 then 0xFFFFFFFF else c.savCrc) data,
    savMask := if fSPart w = 0 then 0 else if fSPart w = 2 then c.savMask ||| 2 ^ fSBnk w else c.savMask }

theorem saving_keeps (w : Nat) (data : List Byte) (c : Core) :
    (saving w data c).engs = c.engs ∧ (saving w data c).outst = c.outst ∧ ∀ m o,
      { bare { saving w data c with engs := m, outst := o } with savCrc := 0, savMask := 0 } =
        { bare c with savCrc := 0, savMask := 0 } := ⟨rfl, rfl, fun _ _ => rfl⟩

/-- The bytes that a CSAV saves. -/
def savedBytes (i : Issue) (w : Nat) (s : State) : List Byte :=
  ctxPart s i.core.lcid (fSPart w) (fSBnk w) (getCore s i.core.lcid)

theorem savedBytes_issued (i : Issue) (w : Nat) (s : State) : savedBytes i w (issued i w s) = savedBytes i w s := by
  have h48 : regWord (issued i w s) 0 0x48 = regWord s 0 0x48 := regWord_issued i w s (by decide)
  have h4C : regWord (issued i w s) 0 0x4C = regWord s 0 0x4C := regWord_issued i w s (by decide)
  have hhead : ctxHeader (issued i w s) i.core.lcid (getCore (issued i w s) i.core.lcid) =
      ctxHeader s i.core.lcid (getCore s i.core.lcid) := by
    unfold ctxHeader
    rw [h48, h4C, getCore_issued]
    rfl
  unfold savedBytes ctxPart
  rw [hhead, getCore_issued]
  rfl

/-- The core has noted what a CSAV saves. -/
def ctxNoted (i : Issue) (w : Nat) (data : List Byte) (s : State) : State := updCore s i.core.lcid (saving w data)

/-- The run of a CSAV. -/
def csavRun (i : Issue) (w x : Nat) (data : List Byte) (s : State) : Run :=
  newRun s i (.csav (fSPart w) (fSBnk w)) (fXPa x) (partBeats (fSPart w)) (fSSeq w) data

/-- A CSAV whose accesses meet nothing: the run carries the part's bytes. -/
theorem csavEff_nil {i : Issue} {w x : Nat} (h : i.acc = []) (s : State) :
    csavEff i w x s =
      completes i w (i.cyc + partBeats (fSPart w) - 1) (holdFor i (partBeats (fSPart w))
        (addRun (csavRun i w x (savedBytes i w s) (ctxNoted i w (savedBytes i w s) s))
          (ctxNoted i w (savedBytes i w s) s))) := by
  have hlost : lostLines i.acc = [] := by rw [h]; rfl
  unfold csavEff
  simp only [onEdge_nil h, hlost, outbound_nil h, ite_self, List.isEmpty_nil, if_true]
  rfl

/-! ### O24 -/

/-- Settles O24: the reads by `readRun_of_issue`, the writes by `issued_addRun` and `issued_beats`. -/
theorem transfersSendTheirRuns : Obligations.TransfersSendTheirRuns := by
  refine ⟨?_, ?_, ?_, ?_, ?_, ?_, ?_⟩
  · intro i w x s hf hspan
    refine ⟨mrdEff i w x (issued i w s), ?_, ?_⟩
    · show execMrd i s = _
      exact issueMem_two hf rfl hspan
    · simp only [mrdEff, chargeAcc_nil hf.acc, newRun_issued, hingeOf_issued]
      exact readRun_of_issue hf.can rfl
  · intro i w x s hf hspan
    refine ⟨ildEff i w 0 (issued i w s), ?_, ?_⟩
    · show execIld i s = _
      exact issueMem_of_fetches hf hspan
    · simp only [ildEff, chargeAcc_nil hf.acc, newRun_issued, ildAddr_issued]
      exact readRun_of_issue hf.can rfl
  · intro i w x s hf hspan
    refine ⟨crstEff i w x (issued i w s), ?_, ?_⟩
    · show execCrst i s = _
      exact issueMem_two hf rfl hspan
    · simp only [crstEff, chargeAcc_nil hf.acc, newRun_issued]
      exact readRun_of_issue hf.can rfl
  · intro i w x s hf hspan
    refine ⟨mwrEff i w x (issued i w s), ?_, ?_⟩
    · show execMwr i s = _
      exact issueMem_two hf rfl hspan
    · simp only [mwrEff, onEdge_nil hf.acc, outbound_nil hf.acc, newRun_issued, hingeOf_issued, outBytes_issued]
      exact ⟨issued_addRun _ hf.can, beats_transit i w _ _ (issued_transit i w s)⟩
  · intro i w x s hf hspan
    refine ⟨panEff i w x (issued i w s), ?_, ?_⟩
    · show execPan i s = _
      exact issueMem_two hf rfl hspan
    · simp only [panEff, onEdge_nil hf.acc, outbound_nil hf.acc, newRun_issued, outBytes_issued]
      exact ⟨issued_addRun _ hf.can, beats_transit i w _ _ (issued_transit i w s)⟩
  · intro i w x s hf hspan
    refine ⟨csavEff i w x (issued i w s), ?_, ?_⟩
    · show execCsav i s = _
      exact issueMem_two hf rfl hspan
    · rw [csavEff_nil hf.acc, savedBytes_issued]
      refine ⟨issued_beats hf.can (getCore_updCore_same _ _ _) (saving_keeps w _)
        (fun d hd => getCore_updCore_other _ _ hd)
        (((changesOnly_updCore _ _ _).mono (by simp)).trans ((changesOnly_addRun _ _).mono (by simp))), _,
        beats_transit i w _ _ ((updCore_transit ..).trans (issued_transit i w s)), rfl, rfl, rfl, rfl, ?_, rfl⟩
      exact (regsBut_issued i w s).getF_eq (by decide)
  · intro i w x s hf hspan
    show execMrd i s = _
    exact issueMem_of_no_memory hf rfl hspan

end Sys2Proof.Machine
end

section
/-! Reads: the word returned, the words latched, the pointers moved (R49, R236, R303, R370, R396, R397, R407). -/

namespace Sys2Proof.Machine

/-! ### Words of one field -/

/-- A field of the pages from CORE_WIN on shows what it holds. -/
theorem showF_of_page {s : State} {f : Fld} (h : 0x50 ≤ f.page) : showF s f = getF s f := by
  have hne : ∀ g : Fld, g.page < 0x50 → f ≠ g := by
    rintro g hg rfl
    omega
  simp [showF, fusedVal, hne R.TOP_PART_ID.GRADE (by decide), hne R.TOP_TIMID.GRADE (by decide),
    hne R.TOP_PART_ID.GUEST (by decide), hne R.TOP_STEPPING.GUEST_REG (by decide), hne R.TICK_COUNT_LO.COUNT (by decide),
    hne R.BU_TIME_US.TIME (by decide), hne R.BU_MODE.COLD_NEXT (by decide), hne R.TICK_COUNT_HI.COUNT (by decide),
    hne R.TICK_SYNC_STA.LOCK (by decide), hne R.TICK_OFFSET.OFFSET (by decide), hne R.TICK_SYNC_STA.HOPS (by decide),
    hne R.TICK_SYNC_STA.MISSED (by decide)]

/-- The fields that a word of the page shows. -/
def wordFlds (pg off : Nat) : List Fld :=
  (pageFlds pg).filter fun f => decide (f.off = off ∧ (f.acc ≠ .cmd ∨ f = R.BU_MODE.COLD_NEXT))

theorem regWord_eq (s : State) (pg off : Nat) :
    regWord s pg off = (wordFlds pg off).foldl (fun w f => w + showF s f * 2 ^ f.lo) 0 := by
  unfold regWord wordFlds
  rw [List.foldl_filter]
  simp only [decide_eq_true_eq]

/-- A word of one field at its bottom shows the field. -/
theorem regWord_single (s : State) {pg off : Nat} {f : Fld} (h : wordFlds pg off = [f]) (hlo : f.lo = 0) :
    regWord s pg off = showF s f := by
  rw [regWord_eq, h]
  simp [hlo]

/-! ### A read that takes place -/

/-- A word returned to its requester. -/
def returned (r : Req) (v : Nat) (s : State) : State :=
  { s with out := { s.out with rd := smSet 0 s.out.rd r.no (BitVec.ofNat 32 v) } }

theorem returned_rd (r : Req) (v : Nat) (s : State) : smGet 0 (returned r v s).out.rd r.no = BitVec.ofNat 32 v := by
  unfold returned
  exact (smGet_smSet 0 _ _ _ _).trans (if_pos rfl)

theorem changesOnly_returned (r : Req) (v : Nat) (s : State) : ChangesOnly [.out] s (returned r v s) := fun p hp => by
  cases p <;> simp_all [Part.same, returned]

/-- A read of an assigned register of a page that reads as it stands. -/
theorem readReg_of_open {r : Req} {pg off : Nat} {s : State} (hs : regsServed s = true) (ho : readOpen s pg = true)
    (ha : assigned pg off = true) : readReg r pg off s = returned r (readWord s r pg off) (readEffect r pg off s) := by
  simp [readReg, hs, ho, ha, returned]

/-- A block register that the requester holds no latch of reads as it stands. -/
theorem readWord_of_open {r : Req} {pg off : Nat} {s : State} (ho : readOpen s pg = true) (ha : assigned pg off = true)
    (hoff : 0x20 ≤ off) (hl : smGet none s.latch (latchKey r pg off) = none) :
    readWord s r pg off = blockWord s r pg off := by
  simp [readWord, ho, ha, Nat.not_lt.mpr hoff, hl]

/-- From P3 on every page reads as it stands (R354). -/
theorem readOpen_of_done {s : State} (h : getF s R.ATTIC_RESTORE_STA.DONE = 1) (pg : Nat) : readOpen s pg = true := by
  simp [readOpen, pageOpen, flagF_of_eq_one h]

/-! ### Latches (R397) -/

section
variable {α : Type} [DecidableEq α]

theorem smGet_foldl_smSet (d : α) {key : Nat → Nat} (hkey : Function.Injective key) (v : Nat → α) {j : Nat} (l : List Nat)
    (m : SMap α) (h : j ∈ l ∨ smGet d m (key j) = v j) :
    smGet d (l.foldl (fun m o => smSet d m (key o) (v o)) m) (key j) = v j := by
  induction l generalizing m with
  | nil => simpa using h
  | cons o l ih =>
    refine ih _ ?_
    by_cases ho : o = j
    · right
      rw [smGet_smSet, if_pos (by rw [ho]), ho]
    · rcases h with h | h
      · left
        simpa [Ne.symm ho] using h
      · right
        rw [smGet_smSet_other d _ _ _ _ (fun he => ho (hkey he)), h]

theorem smGet_foldl_smSet_other (d : α) {key : Nat → Nat} (v : Nat → α) {k : Nat} (l : List Nat) (m : SMap α)
    (h : ∀ o ∈ l, key o ≠ k) : smGet d (l.foldl (fun m o => smSet d m (key o) (v o)) m) k = smGet d m k := by
  induction l generalizing m with
  | nil => rfl
  | cons o l ih =>
    rw [List.foldl_cons, ih _ fun x hx => h x (by simp [hx]), smGet_smSet_other d _ _ _ _ (h o (by simp))]

end

theorem latchKey_injective (r : Req) (pg : Nat) : Function.Injective (latchKey r pg) := fun a b h => by
  unfold latchKey at h
  omega

theorem reqNo_injective : Function.Injective Req.no := by
  rintro (n | _) (m | _) h
  · exact congrArg _ (Fin.ext h)
  · exact absurd h (Nat.ne_of_lt n.isLt)
  · exact absurd h.symm (Nat.ne_of_lt m.isLt)
  · rfl

/-- A read captures the words it latches, as they stand. -/
theorem takeLatches_latch (r : Req) {pg off o : Nat} (s : State) (h : o ∈ latches pg off) :
    smGet none (takeLatches r pg off s).latch (latchKey r pg o) = some (blockWord s r pg o) :=
  smGet_foldl_smSet none (latchKey_injective r pg) (fun o => some (blockWord s r pg o)) _ _ (.inl h)

theorem changesOnly_takeLatches (r : Req) (pg off : Nat) (s : State) :
    ChangesOnly [.latch] s (takeLatches r pg off s) := fun p hp => by
  cases p <;> simp_all [Part.same, takeLatches]

/-- The latches of other requesters stay. -/
theorem takeLatches_latch_other {r q : Req} {pg off o : Nat} (s : State) (hq : q ≠ r) (ho : pg * 0x1000 + o < 2 ^ 32)
    (hl : ∀ x ∈ latches pg off, pg * 0x1000 + x < 2 ^ 32) :
    smGet none (takeLatches r pg off s).latch (latchKey q pg o) = smGet none s.latch (latchKey q pg o) := by
  refine smGet_foldl_smSet_other none _ _ _ fun x hx he => hq (reqNo_injective ?_)
  have := hl x hx
  unfold latchKey at he
  omega

/-- A read that moves no pointer and starts no access latches. -/
theorem readEffect_of_plain {r : Req} {pg off : Nat} (s : State) (h10 : off ≠ 0x10) (h5 : ¬ (pg = 0x05 ∧ off = 0x48))
    (h1 : ¬ (pg = 0x01 ∧ off = 0x50)) (hcw : ¬ (pg = 0x50 ∧ off = 0x48 ∧ flagF s (R.CW_SEL.INC r.no) = true)) :
    readEffect r pg off s = takeLatches r pg off s := by
  unfold readEffect
  rw [if_neg h10, if_neg h5, if_neg h1, if_neg hcw]

/-- What a latching read of a block register leaves. -/
theorem readReg_latches {r : Req} {pg off : Nat} {s : State} (hs : regsServed s = true)
    (hd : getF s R.ATTIC_RESTORE_STA.DONE = 1) (ha : assigned pg off = true) (hoff : 0x20 ≤ off)
    (hl : smGet none s.latch (latchKey r pg off) = none) (he : readEffect r pg off s = takeLatches r pg off s) :
    smGet 0 (readReg r pg off s).out.rd r.no = BitVec.ofNat 32 (blockWord s r pg off) ∧
      (readReg r pg off s).latch = (takeLatches r pg off s).latch ∧ ChangesOnly [.out, .latch] s (readReg r pg off s) := by
  have ho := readOpen_of_done hd pg
  rw [readReg_of_open hs ho ha, readWord_of_open ho ha hoff hl, he]
  exact ⟨returned_rd _ _ _, rfl, ((changesOnly_takeLatches r pg off s).mono (by simp)).trans
    ((changesOnly_returned _ _ _).mono (by simp))⟩

/-! ### The words as the pages show them -/

/-- Where no other word stands, a block register shows its fields. -/
theorem blockWord_pantry (s : State) (r : Req) (k : StackNo) (off : Nat) :
    blockWord s r (0x60 + k) off = regWord s (0x60 + k) off := by
  have hk := k.isLt
  have hb : blkPage r (0x60 + k) = 0x60 + k := by
    unfold blkPage hdrPage
    rw [if_neg (by omega), if_neg (by omega)]
  unfold blockWord
  rw [hb]
  simp only [show ¬ (0x60 + k.val = 0x01) by omega, show ¬ (0x60 + k.val = 0x02) by omega,
    show ¬ (0x60 + k.val = 0x05) by omega,
    show ¬ (0x60 + k.val ≤ 0x0B) by omega, show ¬ (0x60 + k.val ≤ 0x13) by omega, show ¬ (0x60 + k.val = 0x18) by omega,
    show ¬ (0x60 + k.val ≤ 0x3B) by omega, show ¬ (0x60 + k.val = 0x06) by omega, false_and, and_false, if_false]

theorem blockWord_tick (s : State) (r : Req) (off : Nat) : blockWord s r 0x03 off = regWord s 0x03 off := by
  simp [blockWord, blkPage, hdrPage]

theorem blockWord_cw (s : State) (r : Req) (off : Nat) :
    blockWord s r 0x50 off = regWord s (0x50 + r.no * 0x1000) off := by
  simp [blockWord, blkPage, reqPage]

end Sys2Proof.Machine
end

section
/-! The reads of O58: the event sequence, the 64-bit counts, the Pantry's wide words, the ring and the histories, CW_DATA. -/

namespace Sys2Proof.Machine

/-! ### PG_EVT_SEQ (R407) -/

/-- The word of PG_EVT_SEQ: SEQ and LAP. -/
theorem headerWord_seq (s : State) (r : Req) (pg : Nat) :
    headerWord s r pg 0x10 =
      getF s (R.PG_EVT_SEQ.SEQ (hdrPage r pg)) + 2 ^ 16 * getF s (R.PG_EVT_SEQ.LAP (hdrPage r pg)) := by
  simp [headerWord, hdrFlds, R.PG_ID.PAGE, R.PG_ID.REV, R.PG_ID.PRESENT, R.PG_CTL.EN, R.PG_STA.ENABLED, R.PG_STA.WBUSY,
    R.PG_STA.CFG_REJECT, R.PG_STA.FENCED, R.PG_STA.ZEROING, R.PG_STA.ACK_STALE, R.PG_EVT.EVT, R.PG_EVT_SEQ.SEQ,
    R.PG_EVT_SEQ.LAP, R.PG_EVT_ACK.MASK, R.PG_EVT_ACK.SEQ, R.PG_EVT_EN.EN, R.PG_CFGREJ_ADDR.OFFSET, R.PG_CFGREJ_ADDR.VIEW,
    R.PG_CFGREJ_ADDR.PF, R.PG_CFGREJ_ADDR.SMB, Nat.mul_comm]

theorem assigned_of_header {pg off : Nat} (hp : pageExists pg = true) (h4 : off % 4 = 0) (h : off < 0x20) :
    assigned pg off = true := by simp [assigned, hp, h4, h]

/-- The read of SEQ ends a lap (R407). -/
def lapEnded (r : Req) (pg : Nat) (s : State) : State :=
  { s with hif := { s.hif with lapped := smSet false s.hif.lapped (hdrPage r pg) false } }

theorem pgEvtSeqRead_reads (r : Req) (pg : Nat) (s : State) (hs : regsServed s = true) (ho : readOpen s pg = true)
    (hp : pageExists pg = true) :
    Answers (.pgEvtSeqRead r pg) s fun t =>
      smGet 0 t.out.rd r.no = BitVec.ofNat 32 (getF s (R.PG_EVT_SEQ.SEQ (hdrPage r pg)) +
        2 ^ 16 * getF s (R.PG_EVT_SEQ.LAP (hdrPage r pg))) ∧
      smGet false t.hif.lapped (hdrPage r pg) = false ∧ t.regs = s.regs ∧ ChangesOnly [.out, .hif] s t := by
  have ha : assigned pg 0x10 = true := assigned_of_header hp rfl (by decide)
  have hw : readWord s r pg 0x10 = headerWord s r pg 0x10 := by simp [readWord, ha, ho]
  have heff : readEffect r pg 0x10 s = lapEnded r pg s := rfl
  refine ⟨returned r (readWord s r pg 0x10) (lapEnded r pg s), ?_, ?_, ?_, rfl, ?_⟩
  · show Host.Outcome.next (readReg r pg 0x10 s) = _
    rw [readReg_of_open hs ho ha, heff]
  · rw [returned_rd, hw, headerWord_seq]
  · show smGet false (smSet false s.hif.lapped (hdrPage r pg) false) (hdrPage r pg) = false
    rw [smGet_smSet, if_pos rfl]
  · exact ChangesOnly.trans (t := lapEnded r pg s) (fun p hp => by cases p <;> simp_all [Part.same, lapEnded])
      ((changesOnly_returned _ _ _).mono (by simp))

/-! ### The 64-bit counts of the TICK page (R49) -/

theorem tickCountLoRead_latches (r : Req) (s : State) (hs : regsServed s = true) (hd : getF s R.ATTIC_RESTORE_STA.DONE = 1)
    (hl : smGet none s.latch (latchKey r 0x03 0x40) = none) :
    Answers (.tickCountLoRead r) s fun t =>
      smGet 0 t.out.rd r.no = BitVec.ofNat 32 s.counter ∧
      smGet none t.latch (latchKey r 0x03 0x44) = some (s.counter / 2 ^ 32 % 2 ^ 32) ∧
      (∀ q : Req, q ≠ r → ∀ o, o < 0x1000 →
        smGet none t.latch (latchKey q 0x03 o) = smGet none s.latch (latchKey q 0x03 o)) ∧
      ChangesOnly [.out, .latch] s t := by
  have hlo : blockWord s r 0x03 0x40 = s.counter % 2 ^ 32 := by
    rw [blockWord_tick, regWord_single s (f := R.TICK_COUNT_LO.COUNT) (by decide) rfl]
    rfl
  have hhi : blockWord s r 0x03 0x44 = s.counter / 2 ^ 32 % 2 ^ 32 := by
    rw [blockWord_tick, regWord_single s (f := R.TICK_COUNT_HI.COUNT) (by decide) rfl]
    rfl
  obtain ⟨hrd, hlatch, hch⟩ := readReg_latches (off := 0x40) hs hd (by decide) (by decide) hl
    (readEffect_of_plain s (by decide) (by decide) (by decide) (by simp))
  refine ⟨readReg r 0x03 0x40 s, rfl, ?_, ?_, fun q hq o ho => ?_, hch⟩
  · rw [hrd, hlo]
    exact BitVec.eq_of_toNat_eq (by simp)
  · rw [hlatch, takeLatches_latch r s (by decide), hhi]
  · rw [hlatch]
    exact takeLatches_latch_other s hq (by omega) (by decide)

theorem tickLaunchLoRead_latches (r : Req) (s : State) (hs : regsServed s = true) (hd : getF s R.ATTIC_RESTORE_STA.DONE = 1)
    (hl : smGet none s.latch (latchKey r 0x03 0x54) = none) :
    Answers (.tickLaunchLoRead r) s fun t =>
      smGet 0 t.out.rd r.no = BitVec.ofNat 32 (getF s R.TICK_LAUNCH_LO.LAUNCH) ∧
      smGet none t.latch (latchKey r 0x03 0x58) = some (getF s R.TICK_LAUNCH_HI.LAUNCH) ∧ ChangesOnly [.out, .latch] s t := by
  have hlo : blockWord s r 0x03 0x54 = getF s R.TICK_LAUNCH_LO.LAUNCH := by
    rw [blockWord_tick, regWord_single s (f := R.TICK_LAUNCH_LO.LAUNCH) (by decide) rfl]
    rfl
  have hhi : blockWord s r 0x03 0x58 = getF s R.TICK_LAUNCH_HI.LAUNCH := by
    rw [blockWord_tick, regWord_single s (f := R.TICK_LAUNCH_HI.LAUNCH) (by decide) rfl]
    rfl
  obtain ⟨hrd, hlatch, hch⟩ := readReg_latches (off := 0x54) hs hd (by decide) (by decide) hl
    (readEffect_of_plain s (by decide) (by decide) (by decide) (by simp))
  exact ⟨readReg r 0x03 0x54 s, rfl, by rw [hrd, hlo], by rw [hlatch, takeLatches_latch r s (by decide), hhi], hch⟩

theorem tickJobLoRead_latches (r : Req) (s : State) (hs : regsServed s = true) (hd : getF s R.ATTIC_RESTORE_STA.DONE = 1)
    (hl : smGet none s.latch (latchKey r 0x03 0x78) = none) :
    Answers (.tickJobLoRead r) s fun t =>
      smGet 0 t.out.rd r.no = BitVec.ofNat 32 (getF s R.TICK_JOB_LO.JOB) ∧
      smGet none t.latch (latchKey r 0x03 0x7C) = some (getF s R.TICK_JOB_HI.JOB) ∧ ChangesOnly [.out, .latch] s t := by
  have hlo : blockWord s r 0x03 0x78 = getF s R.TICK_JOB_LO.JOB := by
    rw [blockWord_tick, regWord_single s (f := R.TICK_JOB_LO.JOB) (by decide) rfl]
    rfl
  have hhi : blockWord s r 0x03 0x7C = getF s R.TICK_JOB_HI.JOB := by
    rw [blockWord_tick, regWord_single s (f := R.TICK_JOB_HI.JOB) (by decide) rfl]
    rfl
  obtain ⟨hrd, hlatch, hch⟩ := readReg_latches (off := 0x78) hs hd (by decide) (by decide) hl
    (readEffect_of_plain s (by decide) (by decide) (by decide) (by simp))
  exact ⟨readReg r 0x03 0x78 s, rfl, by rw [hrd, hlo], by rw [hlatch, takeLatches_latch r s (by decide), hhi], hch⟩

/-! ### The Pantry's wide words (R236, R248) -/

/-- A latching read of a PANTRY page: the word, and each word that it captures. -/
theorem pantryRead_latches (r : Req) (k : StackNo) {off : Nat} {s : State} (hs : regsServed s = true)
    (hd : getF s R.ATTIC_RESTORE_STA.DONE = 1) (ha : assigned (0x60 + k) off = true) (hoff : 0x20 ≤ off)
    (hl : smGet none s.latch (latchKey r (0x60 + k) off) = none) :
    smGet 0 (readReg r (0x60 + k) off s).out.rd r.no = BitVec.ofNat 32 (regWord s (0x60 + k) off) ∧
      (∀ o ∈ latches (0x60 + k) off, smGet none (readReg r (0x60 + k) off s).latch (latchKey r (0x60 + k) o) =
        some (regWord s (0x60 + k) o)) ∧
      ChangesOnly [.out, .latch] s (readReg r (0x60 + k) off s) := by
  obtain ⟨hrd, hlatch, hch⟩ := readReg_latches hs hd ha hoff hl
    (readEffect_of_plain s (by omega) (by omega) (by omega) (by omega))
  refine ⟨by rw [hrd, blockWord_pantry], fun o ho => ?_, hch⟩
  rw [hlatch, takeLatches_latch r s ho, blockWord_pantry]

/-- The offsets of PAN_NORM_ACC, PAN_NORM_GLB and PAN_GNS_BIG. -/
def lowOff (q : Fin 3) : Nat := if q = 0 then 0x60 else if q = 1 then 0x70 else 0x90

theorem lowOff_ge : ∀ q : Fin 3, 0x20 ≤ lowOff q := by decide

theorem assigned_pantry (k : StackNo) :
    (∀ q : Fin 3, assigned (0x60 + k) (lowOff q) = true ∧
        latches (0x60 + k) (lowOff q) = [lowOff q + 4, lowOff q + 8, lowOff q + 12]) ∧
      assigned (0x60 + k) 0x80 = true ∧
      latches (0x60 + k) 0x80 = [0x84, 0x88, 0x8C, 0x90, 0x94, 0x98, 0x9C, 0x58] := by
  revert k
  decide

theorem panLowWordRead_latches (r : Req) (k : StackNo) (q : Fin 3) (s : State) (hs : regsServed s = true)
    (hd : getF s R.ATTIC_RESTORE_STA.DONE = 1) (hl : smGet none s.latch (latchKey r (0x60 + k) (lowOff q)) = none) :
    Answers (.panLowWordRead r k q) s fun t =>
      smGet 0 t.out.rd r.no = BitVec.ofNat 32 (regWord s (0x60 + k) (lowOff q)) ∧
      (∀ j, j ∈ [4, 8, 12] →
        smGet none t.latch (latchKey r (0x60 + k) (lowOff q + j)) = some (regWord s (0x60 + k) (lowOff q + j))) ∧
      ChangesOnly [.out, .latch] s t := by
  obtain ⟨ha, hlat⟩ := (assigned_pantry k).1 q
  obtain ⟨hrd, hlatch, hch⟩ := pantryRead_latches r k hs hd ha (lowOff_ge q) hl
  refine ⟨readReg r (0x60 + k) (lowOff q) s, rfl, hrd, fun j hj => hlatch _ ?_, hch⟩
  rw [hlat]
  simp only [List.mem_cons, List.not_mem_nil, or_false] at hj ⊢
  omega

theorem panGnsSmall0Read_latches (r : Req) (k : StackNo) (s : State) (hs : regsServed s = true)
    (hd : getF s R.ATTIC_RESTORE_STA.DONE = 1) (hl : smGet none s.latch (latchKey r (0x60 + k) 0x80) = none) :
    Answers (.panGnsSmall0Read r k) s fun t =>
      smGet 0 t.out.rd r.no = BitVec.ofNat 32 (regWord s (0x60 + k) 0x80) ∧
      (∀ o, o ∈ [0x84, 0x88, 0x8C, 0x90, 0x94, 0x98, 0x9C, 0x58] →
        smGet none t.latch (latchKey r (0x60 + k) o) = some (regWord s (0x60 + k) o)) ∧
      ChangesOnly [.out, .latch] s t := by
  obtain ⟨_, ha, hlat⟩ := assigned_pantry k
  obtain ⟨hrd, hlatch, hch⟩ := pantryRead_latches r k hs hd ha (by decide) hl
  exact ⟨readReg r (0x60 + k) 0x80 s, rfl, hrd, fun o ho => hlatch o (hlat ▸ ho), hch⟩

/-! ### The ring and the histories (R303, R370) -/

/-- A pointer that a read of its data register moves. -/
theorem bump_reads {f : Fld} (s : State) : getF (bump f s) f = (getF s f + 1) % 2 ^ f.width ∧ RegsBut [f] s (bump f s) :=
  ⟨getF_setF _ _ _, regsBut_setF s _ (by simp)⟩

theorem fltLogDataRead_moves (r : Req) (s : State) (hs : regsServed s = true) (hd : getF s R.ATTIC_RESTORE_STA.DONE = 1)
    (e : LogEntry) (he : smGet none s.flt.log (getF s R.FLT_LOG_PTR.SEQ % 1024) = some e)
    (hl : smGet none s.latch (latchKey r 0x05 0x48) = none) :
    Answers (.fltLogDataRead r) s fun t =>
      smGet 0 t.out.rd r.no = BitVec.ofNat 32 (bitsOf (logBytes e) (32 * getF s R.FLT_LOG_PTR.WORD) 32) ∧
      getF t R.FLT_LOG_PTR.WORD = (getF s R.FLT_LOG_PTR.WORD + 1) % 8 ∧ RegsBut [R.FLT_LOG_PTR.WORD] s t ∧
      t.flt = s.flt := by
  have ho := readOpen_of_done hd 0x05
  have hw : blockWord s r 0x05 0x48 = bitsOf (logBytes e) (32 * getF s R.FLT_LOG_PTR.WORD) 32 := by
    simp [blockWord, logWord, he]
  have heff : readEffect r 0x05 0x48 s = bump R.FLT_LOG_PTR.WORD s := by simp [readEffect]
  obtain ⟨hword, hbut⟩ := bump_reads (f := R.FLT_LOG_PTR.WORD) s
  refine ⟨returned r (readWord s r 0x05 0x48) (bump R.FLT_LOG_PTR.WORD s), ?_, ?_, hword, hbut, rfl⟩
  · show Host.Outcome.next (readReg r 0x05 0x48 s) = _
    rw [readReg_of_open hs ho (by decide), heff]
  · rw [returned_rd, readWord_of_open ho (by decide) (by decide) hl, hw]

theorem atticHistDataRead_moves (r : Req) (s : State) (hs : regsServed s = true) (hd : getF s R.ATTIC_RESTORE_STA.DONE = 1)
    (hl : smGet none s.latch (latchKey r 0x01 0x50) = none) :
    Answers (.atticHistDataRead r) s fun t =>
      smGet 0 t.out.rd r.no = BitVec.ofNat 32 (bitsOf (histBytes (getHist s (getF s R.ATTIC_HIST_PTR.UNIT * 2 ^ 24 +
        getF s R.ATTIC_HIST_PTR.ID))) (32 * getF s R.ATTIC_HIST_PTR.WORD) 32) ∧
      getF t R.ATTIC_HIST_PTR.WORD = (getF s R.ATTIC_HIST_PTR.WORD + 1) % 4 ∧ RegsBut [R.ATTIC_HIST_PTR.WORD] s t ∧
      t.attic = s.attic := by
  have ho := readOpen_of_done hd 0x01
  have hw : blockWord s r 0x01 0x50 = bitsOf (histBytes (getHist s (getF s R.ATTIC_HIST_PTR.UNIT * 2 ^ 24 +
      getF s R.ATTIC_HIST_PTR.ID))) (32 * getF s R.ATTIC_HIST_PTR.WORD) 32 := by simp [blockWord, histWord]
  have heff : readEffect r 0x01 0x50 s = bump R.ATTIC_HIST_PTR.WORD s := by simp [readEffect]
  obtain ⟨hword, hbut⟩ := bump_reads (f := R.ATTIC_HIST_PTR.WORD) s
  refine ⟨returned r (readWord s r 0x01 0x50) (bump R.ATTIC_HIST_PTR.WORD s), ?_, ?_, hword, hbut, rfl⟩
  · show Host.Outcome.next (readReg r 0x01 0x50 s) = _
    rw [readReg_of_open hs ho (by decide), heff]
  · rw [returned_rd, readWord_of_open ho (by decide) (by decide) hl, hw]

/-! ### CW_DATA where it starts no access (R115) -/

/-- A requester's number is one of the five. -/
theorem reqNo_lt (r : Req) : r.no < 5 := by
  rcases r with n | _
  · exact Nat.lt_of_lt_of_le n.isLt (by decide)
  · exact Nat.lt_add_one 4

/-- The words of a requester's CORE_WIN set that hold one field. -/
theorem wordFlds_cw {n : Nat} (hn : n < 5) : wordFlds (0x50 + n * 0x1000) 0x48 = [R.CW_DATA.DATA n] := by
  revert n
  decide

theorem blockWord_cwData (s : State) (r : Req) : blockWord s r 0x50 0x48 = getF s (R.CW_DATA.DATA r.no) := by
  rw [blockWord_cw, regWord_single s (wordFlds_cw (reqNo_lt r)) rfl]
  exact showF_of_page (by simp [R.CW_DATA.DATA])

theorem cwDataRead_plain (r : Req) (s : State) (hs : regsServed s = true) (hd : getF s R.ATTIC_RESTORE_STA.DONE = 1)
    (hl : smGet none s.latch (latchKey r (0x50 : Nat) 0x48) = none) (hi : getF s (R.CW_SEL.INC r.no) = 0) :
    Answers (.cwDataRead r) s fun t =>
      smGet 0 t.out.rd r.no = BitVec.ofNat 32 (getF s (R.CW_DATA.DATA r.no)) ∧ t.regs = s.regs ∧ t.hif = s.hif ∧
      t.cores = s.cores := by
  obtain ⟨hrd, _, hch⟩ := readReg_latches hs hd (by decide) (by decide) hl
    (readEffect_of_plain s (by decide) (by decide) (by decide) (by simp [flagF_of_eq_zero hi]))
  exact ⟨readReg r 0x50 0x48 s, rfl, by rw [hrd, blockWord_cwData], hch .regs (by decide), hch .hif (by decide),
    hch .cores (by decide)⟩

end Sys2Proof.Machine
end

section
/-! CORE_WIN: an access that starts or is refused, by a write or a read of its registers (R115, R116). -/

namespace Sys2Proof.Machine

/-! ### What R116 judges -/

/-- A field of a page before every field listed reads as before. -/
theorem RegsBut.getF_eq_of_below {fs : List Fld} {s t : State} (h : RegsBut fs s t) {g : Fld}
    (hg : ∀ f ∈ fs, fldKey g < fldKey f) : getF t g = getF s g := by
  refine h.getF_eq fun hm => ?_
  obtain ⟨f, hf, he⟩ := List.mem_map.mp hm
  have := hg f hf
  omega

theorem cwLcid_lt (q : List Nat) : cwLcid q < 2 ^ 16 := Nat.mod_lt _ (by decide)

/-- The judgement of R116 depends on the partitions, the maps of the dies and, for a write, on whether the core is bound. -/
theorem cwRefused_congr {s t : State} {r : Req} {q : List Nat} (hhif : t.hif = s.hif)
    (hload : ∀ d, d < 4 → getF t (R.DIE_MAP_STA.LOADED d) = getF s (R.DIE_MAP_STA.LOADED d))
    (hbound : cwWrite q = true → cwBound t (cwLcid q) = cwBound s (cwLcid q)) : cwRefused t r q = cwRefused s r q := by
  have hl := cwLcid_lt q
  have huse : cwUsable t q = cwUsable s q := by
    unfold cwUsable flagF
    rw [hload _ (by omega)]
  have hval : ∀ n i, partVal t n i = partVal s n i := fun n i => by unfold partVal partVals; rw [hhif]
  have hfill : ∀ n, isFiller t n = isFiller s n := fun n => by unfold isFiller; rw [hval, hval]
  have hrect : ∀ n, inRect t n (cwLcid q) = inRect s n (cwLcid q) := fun n => by
    unfold inRect rectPart
    simp only [hval, hfill]
  have hslice : ∀ n, sliceMask t n = sliceMask s n := fun n => by
    unfold sliceMask
    simp only [hval, hfill]
  have hright : cwRight t r q = cwRight s r q := by
    unfold cwRight
    simp only [hval, hfill, hrect, hslice]
  have hwrite : (cwWrite q && cwBound t (cwLcid q)) = (cwWrite q && cwBound s (cwLcid q)) := by
    cases h : cwWrite q
    · rfl
    · rw [hbound h]
  unfold cwRefused
  rw [huse, hhif, hrect, hright, hwrite]

/-- The marks of the dies lie before the CORE_WIN pages. -/
theorem loaded_of_regsBut {fs : List Fld} {s t : State} (h : RegsBut fs s t) (hfs : ∀ f ∈ fs, 0x50 ≤ f.page) {d : Nat}
    (hd : d < 4) : getF t (R.DIE_MAP_STA.LOADED d) = getF s (R.DIE_MAP_STA.LOADED d) := by
  refine h.getF_eq_of_below fun f hf => ?_
  have := hfs f hf
  simp only [fldKey, R.DIE_MAP_STA.LOADED]
  omega

/-- CW_STA.BYPASS lies beside what tells whether a core is bound. -/
theorem cwBound_of_bypass {n : Nat} {s t : State} (h : RegsBut [R.CW_STA.BYPASS n] s t) (hcores : t.cores = s.cores)
    (hplans : t.plans = s.plans) (l : Nat) : cwBound t l = cwBound s l := by
  have hsec : ∀ k, secRunning t k = secRunning s k := fun k => by
    unfold secRunning flagF
    rw [h.getF_eq (by simp only [List.map_cons, List.map_nil, List.mem_singleton, fldKey, R.PART_RUN_STA.RUN, R.CW_STA.BYPASS]
                      omega)]
  have hrun : running t = running s := by
    unfold running flagF
    rw [h.getF_eq (by simp only [List.map_cons, List.map_nil, List.mem_singleton, fldKey, R.TICK_NUM.RUN, R.CW_STA.BYPASS]
                      omega)]
  unfold cwBound partRuns getPlan getCore
  simp only [hrun, hsec, hcores, hplans]

/-! ### An access starts or is refused -/

/-- The access that a requester's registers describe; a write's data with it. -/
def cwReq (r : Req) (wr : Option Nat) (s : State) : List Nat :=
  [regWord s (blkPage r 0x50) 0x40, getF s (R.CW_ADDR.ADDR r.no), if wr.isSome then 1 else 0, wr.getD 0]

/-- CW_STA.BYPASS tells of the access whether its core may be used. -/
def bypassed (r : Req) (q : List Nat) (s : State) : State := setB s (R.CW_STA.BYPASS r.no) (!cwUsable s q)

/-- The access waits its turn. -/
def cwOpened (n : Nat) (q : List Nat) (s : State) : State :=
  setB { s with hif := { s.hif with cw := smSet none s.hif.cw n (some q), cwOrder := s.hif.cwOrder ++ [n] } }
    (R.CW_STA.BUSY n) true

theorem cwOpened_cw (n : Nat) (q : List Nat) (s : State) : (cwOpened n q s).hif.cw = smSet none s.hif.cw n (some q) := rfl

theorem regsBut_bypassed (r : Req) (q : List Nat) (s : State) : RegsBut [R.CW_STA.BYPASS r.no] s (bypassed r q s) :=
  regsBut_setF s _ (by simp)

theorem changesOnly_bypassed (r : Req) (q : List Nat) (s : State) : ChangesOnly [.regs] s (bypassed r q s) :=
  changesOnly_setF _ _ _

theorem cwRefused_bypassed (r : Req) (q : List Nat) (s : State) : cwRefused (bypassed r q s) r q = cwRefused s r q := by
  have hb := regsBut_bypassed r q s
  have hch := changesOnly_bypassed r q s
  exact cwRefused_congr (hch .hif (by decide)) (fun d hd => loaded_of_regsBut hb (by simp [R.CW_STA.BYPASS]) hd)
    fun _ => cwBound_of_bypass hb (hch .cores (by decide)) (hch .plans (by decide)) _

/-- A set that is busy, or an access that R116 refuses. -/
theorem cwStart_of_refused {r : Req} {wr : Option Nat} {s : State}
    (h : getF s (R.CW_STA.BUSY r.no) = 1 ∨ cwRefused s r (cwReq r wr s) = true) :
    cwStart r wr s = cwRefuse r.no s ∨ cwStart r wr s = cwRefuse r.no (bypassed r (cwReq r wr s) s) := by
  by_cases hb : flagF s (R.CW_STA.BUSY r.no) = true
  · left
    unfold cwStart
    rw [if_pos hb]
  · right
    have hr : cwRefused (bypassed r (cwReq r wr s) s) r (cwReq r wr s) = true :=
      (cwRefused_bypassed _ _ _).trans (h.resolve_left fun h1 => hb (flagF_of_eq_one h1))
    unfold cwStart
    rw [if_neg hb]
    exact if_pos hr

theorem cwStart_of_free {r : Req} {wr : Option Nat} {s : State} (hb : getF s (R.CW_STA.BUSY r.no) = 0)
    (hr : cwRefused s r (cwReq r wr s) = false) :
    cwStart r wr s = cwOpened r.no (cwReq r wr s) (bypassed r (cwReq r wr s) s) := by
  have hr' : ¬ cwRefused (bypassed r (cwReq r wr s) s) r (cwReq r wr s) = true := by rw [cwRefused_bypassed, hr]; simp
  unfold cwStart
  rw [if_neg (by rw [flagF_of_eq_zero hb]; simp)]
  exact if_neg hr'

theorem raise_cw (e : Ev) (s : State) : (raise e s).hif.cw = s.hif.cw := by
  have hsig : ∀ (pg b f : Nat) (s : State), (signal pg b f s).hif = s.hif := fun pg b f s => by unfold signal; split <;> rfl
  unfold raise
  dsimp only
  rw [hsig]
  split <;> simp

theorem changesOnly_cwRefuse (n : Nat) (s : State) : ChangesOnly [.regs, .out, .hif] s (cwRefuse n s) :=
  ((changesOnly_setF s _ _).mono (by simp)).trans ((changesOnly_raise _ _).mono (by simp))

/-- The requester numbers' fields lie beside the events of the page. -/
theorem cwFld_ne_evt {n : Nat} (hn : n < 5) :
    ∀ g ∈ [R.CW_STA.REFUSED n, R.CW_STA.BUSY n, R.CW_STA.UE n, R.CW_DATA.DATA n, R.CW_ADDR.ADDR n],
      fldKey g ∉ (evFlds E.CORE_WIN.CW_REFUSED).map fldKey ∧ fldKey g ∉ (evFlds E.CORE_WIN.CW_UE).map fldKey := by
  revert n
  decide

theorem getF_cwRefuse {n : Nat} (hn : n < 5) (s : State) : getF (cwRefuse n s) (R.CW_STA.REFUSED n) = 1 :=
  ((regsBut_raise _ _ (List.Subset.refl _)).getF_eq (cwFld_ne_evt hn _ (by simp)).1).trans (getF_setB _ _ true Nat.one_pos)

/-- A refused access leaves REFUSED and its event, and no access of the requester's starts. -/
theorem cwRefuse_spec {n : Nat} (hn : n < 5) (s : State) :
    getF (cwRefuse n s) (R.CW_STA.REFUSED n) = 1 ∧ raised E.CORE_WIN.CW_REFUSED (cwRefuse n s) ∧
      (cwRefuse n s).hif.cw = s.hif.cw ∧ (cwRefuse n s).cores = s.cores :=
  ⟨getF_cwRefuse hn s, raised_raise _ _ (by decide), raise_cw _ _, changesOnly_cwRefuse n s .cores (by decide)⟩

theorem cwStart_refused {r : Req} {wr : Option Nat} {s : State}
    (h : getF s (R.CW_STA.BUSY r.no) = 1 ∨ cwRefused s r (cwReq r wr s) = true) :
    getF (cwStart r wr s) (R.CW_STA.REFUSED r.no) = 1 ∧ raised E.CORE_WIN.CW_REFUSED (cwStart r wr s) ∧
      (cwStart r wr s).hif.cw = s.hif.cw ∧ (cwStart r wr s).cores = s.cores := by
  rcases cwStart_of_refused h with he | he <;> rw [he]
  · exact cwRefuse_spec (reqNo_lt r) s
  · exact cwRefuse_spec (reqNo_lt r) (bypassed r _ s)

/-- An access that starts is held for its requester; no other's changes. -/
theorem cwStart_started {r : Req} {wr : Option Nat} {s : State} (hb : getF s (R.CW_STA.BUSY r.no) = 0)
    (hr : cwRefused s r (cwReq r wr s) = false) :
    getF (cwStart r wr s) (R.CW_STA.BUSY r.no) = 1 ∧ smGet none (cwStart r wr s).hif.cw r.no = some (cwReq r wr s) ∧
      (∀ m, m ≠ r.no → smGet none (cwStart r wr s).hif.cw m = smGet none s.hif.cw m) ∧ (cwStart r wr s).cores = s.cores ∧
      RegsBut [R.CW_STA.BYPASS r.no, R.CW_STA.BUSY r.no] s (cwStart r wr s) := by
  rw [cwStart_of_free hb hr]
  refine ⟨getF_setB _ _ true Nat.one_pos, ?_, fun m hm => ?_, rfl, ?_⟩
  · rw [cwOpened_cw, smGet_smSet, if_pos rfl]
  · rw [cwOpened_cw, smGet_smSet_other none _ _ _ _ (Ne.symm hm)]
    rfl
  · exact ((regsBut_bypassed r _ s).mono (by simp)).trans
      (regsBut_setF { bypassed r (cwReq r wr s) s with hif := _ } _ (by simp))

end Sys2Proof.Machine
end

section
/-! The writes of CW_ADDR and CW_DATA and the advancing read of CW_DATA: each starts an access or is refused (R115, R116). -/

namespace Sys2Proof.Machine

/-! ### A write that reaches a CORE_WIN register -/

/-- No field of the pages from CORE_WIN on has a range of its own. -/
theorem fieldOk_of_page {s : State} {f : Fld} (h : 0x50 ≤ f.page) (v : Nat) : fieldOk s f v = true := by
  have hpages : (ownRange s).all (fun e => decide (e.1.page < 0x50)) = true := rfl
  have hnone : (ownRange s).find? (fun e => e.1 == f) = none := by
    refine List.find?_eq_none.mpr fun e he heq => ?_
    have hlt := of_decide_eq_true (List.all_eq_true.mp hpages e he)
    rw [← eq_of_beq heq] at h
    omega
  unfold fieldOk
  rw [hnone]

theorem takeField_of_page {f : Fld} (h : 0x50 ≤ f.page) (v : Nat) (s : State) : takeField (f, v) s = setF s f v := by
  unfold takeField
  dsimp only
  rw [if_neg (by omega), if_neg (by omega)]

theorem queueKept_of_page {f : Fld} (h : 0x50 ≤ f.page) (hk : f.kept = false) (pg v : Nat) (s : State) :
    queueKept pg [(f, v)] s = s := by
  have hne : f ≠ R.TOP_PKG_ID.ID := by
    rintro rfl
    exact absurd h (by decide)
  simp [queueKept, hne, hk]

/-- A write that names another root leaves LOCK; one that does not, at most the slewing of a root (R12). -/
def rootKept (s : State) : State := if isRoot s then { s with sync := { s.sync with slew := 0 } } else s

theorem rootKept_regs (s : State) : (rootKept s).regs = s.regs := by unfold rootKept; split <;> rfl

theorem changesOnly_rootKept (s : State) : ChangesOnly [.sync] s (rootKept s) := by
  unfold rootKept
  split
  · exact changesOnly_withSync s _
  · exact .refl _ s

theorem noteRoot_of_lock {s t : State} (h : lockNow t = lockNow s) : noteRoot false s t = rootKept t := by
  have hl : lockNow (rootKept t) = lockNow s := by
    rw [← h]
    unfold lockNow isRoot myId flagF
    simp only [getF_congr (rootKept_regs t)]
  have hid : noteRoot false s t = raiseIf (!lockNow s && lockNow (rootKept t)) E.TICK.SYNC_LOCK (rootKept t) := rfl
  rw [hid, hl]
  cases lockNow s <;> rfl

theorem lockNow_of_regsBut {fs : List Fld} {s t : State} (h : RegsBut fs s t) (hfs : ∀ f ∈ fs, 0x50 ≤ f.page) :
    lockNow t = lockNow s := by
  have hlow : ∀ g : Fld, fldKey g < 0x50 * 2 ^ 17 → getF t g = getF s g := fun g hg => by
    refine h.getF_eq_of_below fun f hf => ?_
    have := hfs f hf
    unfold fldKey at hg ⊢
    omega
  unfold lockNow isRoot myId flagF
  rw [hlow _ (by decide), hlow _ (by decide), hlow _ (by decide)]

/-- A write of the CORE_WIN page that reaches its block. -/
theorem writeReg_cw {n : Fin 4} {off w : Nat} {s : State} (hs : regsServed s = true)
    (hd : getF s R.ATTIC_RESTORE_STA.DONE = 1) (h40 : 0x40 ≤ off) (hoff : off < 0x1000) (ha : assigned 0x50 off = true) :
    writeReg (.pf n) (barOffset 0x50 0 off) w s = writeBlock (.pf n) 0x50 0 off w s := by
  have hpg : barOffset 0x50 0 off / 2 ^ 16 = 0x50 := by unfold barOffset; omega
  have hview : barOffset 0x50 0 off / 2 ^ 12 % 16 = 0 := by unfold barOffset; omega
  have ho : barOffset 0x50 0 off % 2 ^ 12 = off := by unfold barOffset; omega
  have hopen : pageOpen s 0x50 = true := by simp [pageOpen, flagF_of_eq_one hd]
  have hmay : ∀ v, mayWrite s (.pf n) 0x50 off v = true := fun v => by
    have h14 : off ≠ 0x14 := by omega
    have h18 : off ≠ 0x18 := by omega
    simp [mayWrite, pfMayWrite, h14, h18, h40]
  unfold writeReg
  simp only [hpg, hview, ho, hs, ha, hopen, hmay]
  simp only [Bool.not_true, Bool.or_false, Nat.not_lt_zero, decide_false, Bool.false_eq_true, if_false,
    Bool.false_and]
  unfold admitted applyWrite
  rw [if_neg (by omega), if_neg (by omega), if_neg (by omega), if_neg (by decide), if_neg (by omega), if_neg (by omega)]

theorem regFlds_cw (n : Fin 4) :
    regFlds (.pf n) 0x50 0x44 = [R.CW_ADDR.ADDR n] ∧ regFlds (.pf n) 0x50 0x48 = [R.CW_DATA.DATA n] := by
  revert n
  decide

/-- CW_ADDR has taken the word written. -/
def addrWritten (n : Fin 4) (w : Word) (s : State) : State :=
  rootKept (setF s (R.CW_ADDR.ADDR n) (fieldOf (R.CW_ADDR.ADDR n) w.toNat))

theorem cwAddrWrite_starts {n : Fin 4} {w : Word} {s : State} (hs : regsServed s = true)
    (hd : getF s R.ATTIC_RESTORE_STA.DONE = 1) :
    exec (.cwAddrWrite (.pf n) w) s = .next (cwStart (.pf n) none (addrWritten n w s)) := by
  have hpage : 0x50 ≤ (R.CW_ADDR.ADDR n).page := Nat.le_add_right _ _
  have hlock : lockNow (setF s (R.CW_ADDR.ADDR n) (fieldOf (R.CW_ADDR.ADDR n) w.toNat)) = lockNow s :=
    lockNow_of_regsBut (regsBut_setF s _ (List.mem_singleton_self _)) (by simpa using hpage)
  have htaken : ∀ en, takenFields s en 0 w.toNat [R.CW_ADDR.ADDR n] =
      [(R.CW_ADDR.ADDR n, fieldOf (R.CW_ADDR.ADDR n) w.toNat)] := fun en => by cases en <;> rfl
  have hrwd : rwdHit s 0 w.toNat [R.CW_ADDR.ADDR n] = false := rfl
  have hcross : ∀ t : State, crossOk t 0x50 = true := fun _ => rfl
  have hcmd : ∀ t : State, startCmds 0 w.toNat [R.CW_ADDR.ADDR n] t = t := fun _ => rfl
  show Host.Outcome.next (writeReg _ _ _ _) = _
  rw [writeReg_cw hs hd (by decide) (by decide) (by decide)]
  unfold writeBlock
  rw [(regFlds_cw n).1, if_neg (by simp [writeIgnored])]
  simp only [show storedOnly 0x50 0x44 = true from rfl, htaken, hrwd, hcross, if_true, List.all_cons, List.all_nil,
    fieldOk_of_page hpage, Bool.and_self, Bool.not_true, Bool.or_self, Bool.and_false, Bool.false_eq_true, if_false,
    List.foldl_cons, List.foldl_nil, takeField_of_page hpage, queueKept_of_page hpage rfl,
    show ((0x50 : Nat) == 0x03) = false from rfl, noteRoot_of_lock hlock, hcmd]
  simp [afterWrite, addrWritten]

theorem cwDataWrite_starts {n : Fin 4} {w : Word} {s : State} (hs : regsServed s = true)
    (hd : getF s R.ATTIC_RESTORE_STA.DONE = 1) :
    exec (.cwDataWrite (.pf n) w) s = .next (cwStart (.pf n) (some w.toNat) (rootKept s)) := by
  have hrwd : rwdHit s 0 w.toNat [R.CW_DATA.DATA n] = false := rfl
  have hcross : ∀ t : State, crossOk t 0x50 = true := fun _ => rfl
  have hcmd : ∀ t : State, startCmds 0 w.toNat [R.CW_DATA.DATA n] t = t := fun _ => rfl
  have hword : ∀ t : State, fieldAfter t 0 w.toNat (R.CW_DATA.DATA n) = w.toNat := fun t => by
    show w.toNat >>> 0 % 2 ^ 32 = w.toNat
    exact Nat.mod_eq_of_lt w.isLt
  show Host.Outcome.next (writeReg _ _ _ _) = _
  rw [writeReg_cw hs hd (by decide) (by decide) (by decide)]
  unfold writeBlock
  rw [(regFlds_cw n).2, if_neg (by simp [writeIgnored])]
  simp only [show storedOnly 0x50 0x48 = false from rfl, hrwd, hcross, Bool.false_eq_true, if_false, List.all_nil,
    Bool.not_true, Bool.or_self, Bool.and_false, List.foldl_nil, show ((0x50 : Nat) == 0x03) = false from rfl,
    noteRoot_of_lock (s := s) (t := s) rfl, Req.no, hword, hcmd]
  simp [afterWrite, queueKept]

/-! ### The access that the registers then describe -/

/-- CW_SEL's fields lie on the page and beside CW_ADDR; BUSY and INC too. -/
theorem cwSel_flds {n : Nat} (hn : n < 5) :
    (∀ f ∈ pageFlds (0x50 + n * 0x1000), f.off = 0x40 → 0x50 ≤ f.page ∧ fldKey f ∉ [R.CW_ADDR.ADDR n].map fldKey) ∧
      fldKey (R.CW_STA.BUSY n) ∉ [R.CW_ADDR.ADDR n].map fldKey := by
  revert n
  decide

theorem cwSel_of_regsBut {n : Nat} (hn : n < 5) {s t : State} (h : RegsBut [R.CW_ADDR.ADDR n] s t) :
    regWord t (0x50 + n * 0x1000) 0x40 = regWord s (0x50 + n * 0x1000) 0x40 :=
  regWord_congr fun f hf ho => by
    obtain ⟨hpage, hkey⟩ := (cwSel_flds hn).1 f hf ho
    rw [showF_of_page hpage, showF_of_page hpage, h.getF_eq hkey]

/-- CW_STA lies beside CW_ADDR and CW_DATA. -/
theorem cwSta_flds {n : Nat} (hn : n < 5) :
    fldKey (R.CW_ADDR.ADDR n) ∉ [R.CW_STA.BYPASS n, R.CW_STA.BUSY n].map fldKey ∧
      fldKey (R.CW_DATA.DATA n) ∉ [R.CW_STA.BYPASS n, R.CW_STA.BUSY n].map fldKey := by
  revert n
  decide

/-- An access that reads, described once CW_ADDR has changed. -/
theorem cwReq_read {r : Req} {s t : State} (h : RegsBut [R.CW_ADDR.ADDR r.no] s t) :
    cwReq r none t = [regWord s (0x50 + 0x1000 * r.no) 0x40, getF t (R.CW_ADDR.ADDR r.no), 0, 0] := by
  have hsel := cwSel_of_regsBut (reqNo_lt r) h
  rw [Nat.mul_comm] at hsel
  unfold cwReq
  rw [show blkPage r 0x50 = 0x50 + 0x1000 * r.no by simp [blkPage, reqPage, Nat.mul_comm], hsel]
  rfl

/-- R116 judges an access that reads alike before and after CW_ADDR changes. -/
theorem cwRefused_read {r : Req} {q : List Nat} {s t : State} (h : RegsBut [R.CW_ADDR.ADDR r.no] s t) (hhif : t.hif = s.hif)
    (hq : cwWrite q = false) : cwRefused t r q = cwRefused s r q :=
  cwRefused_congr hhif (fun _ hd => loaded_of_regsBut h (by simp [R.CW_ADDR.ADDR]) hd) fun hw => by simp [hq] at hw

/-! ### The clauses of O58 on starts -/

theorem regsBut_addrWritten (n : Fin 4) (w : Word) (s : State) : RegsBut [R.CW_ADDR.ADDR n] s (addrWritten n w s) :=
  (regsBut_setF s _ (List.mem_singleton_self _)).trans (.of_regs (rootKept_regs _))

theorem changesOnly_addrWritten (n : Fin 4) (w : Word) (s : State) : ChangesOnly [.regs, .sync] s (addrWritten n w s) :=
  ((changesOnly_setF s _ _).mono (by simp)).trans ((changesOnly_rootKept _).mono (by simp))

theorem getF_addrWritten (n : Fin 4) (w : Word) (s : State) :
    getF (addrWritten n w s) (R.CW_ADDR.ADDR n) = w.toNat % 2 ^ 18 := by
  unfold addrWritten
  rw [getF_congr (rootKept_regs _), getF_setF]
  show (w.toNat >>> 0 % 2 ^ 18) % 2 ^ 18 = _
  rw [Nat.mod_mod]
  rfl

theorem cwAddrWrite_answers (n : Fin 4) (w : Word) (s : State) (hs : regsServed s = true)
    (hd : getF s R.ATTIC_RESTORE_STA.DONE = 1) :
    let q := [regWord s (0x50 + 0x1000 * n) 0x40, w.toNat % 2 ^ 18, 0, 0]
    (getF s (R.CW_STA.BUSY n) = 0 → cwRefused s (.pf n) q = false → Answers (.cwAddrWrite (.pf n) w) s fun t =>
      getF t (R.CW_ADDR.ADDR n) = w.toNat % 2 ^ 18 ∧ getF t (R.CW_STA.BUSY n) = 1 ∧ smGet none t.hif.cw n = some q ∧
      (∀ m, m ≠ n.val → smGet none t.hif.cw m = smGet none s.hif.cw m) ∧ t.cores = s.cores) ∧
    ((getF s (R.CW_STA.BUSY n) = 1 ∨ cwRefused s (.pf n) q = true) → Answers (.cwAddrWrite (.pf n) w) s fun t =>
      getF t (R.CW_STA.REFUSED n) = 1 ∧ raised E.CORE_WIN.CW_REFUSED t ∧ t.hif.cw = s.hif.cw ∧ t.cores = s.cores) := by
  intro q
  have hn : n.val < 5 := reqNo_lt (.pf n)
  have hbut := regsBut_addrWritten n w s
  have hch := changesOnly_addrWritten n w s
  have hhif : (addrWritten n w s).hif = s.hif := hch .hif (by decide)
  have hcores : (addrWritten n w s).cores = s.cores := hch .cores (by decide)
  have hq : cwReq (.pf n) none (addrWritten n w s) = q := by
    rw [cwReq_read (r := .pf n) hbut]
    exact congrArg (fun a => [_, a, 0, 0]) (getF_addrWritten n w s)
  have hbusy : getF (addrWritten n w s) (R.CW_STA.BUSY n) = getF s (R.CW_STA.BUSY n) := hbut.getF_eq (cwSel_flds hn).2
  have href : cwRefused (addrWritten n w s) (.pf n) q = cwRefused s (.pf n) q := cwRefused_read hbut hhif rfl
  refine ⟨fun hb hr => ⟨_, cwAddrWrite_starts hs hd, ?_⟩, fun h => ⟨_, cwAddrWrite_starts hs hd, ?_⟩⟩
  · obtain ⟨hset, hcw, hother, hc, hr'⟩ := cwStart_started (r := .pf n) (wr := none) (hbusy.trans hb)
      (by rw [hq, href, hr])
    exact ⟨(hr'.getF_eq (cwSta_flds hn).1).trans (getF_addrWritten n w s), hset, hq ▸ hcw,
      fun m hm => hhif ▸ hother m hm, hc.trans hcores⟩
  · obtain ⟨hset, hraised, hcw, hc⟩ := cwStart_refused (r := .pf n) (wr := none) (s := addrWritten n w s)
      (h.imp hbusy.trans fun h => by rw [hq, href, h])
    exact ⟨hset, hraised, hcw.trans (by rw [hhif]), hc.trans hcores⟩

theorem cwDataWrite_answers (n : Fin 4) (w : Word) (s : State) (hs : regsServed s = true)
    (hd : getF s R.ATTIC_RESTORE_STA.DONE = 1) (hb : getF s (R.CW_STA.BUSY n) = 0) :
    let q := [regWord s (0x50 + 0x1000 * n) 0x40, getF s (R.CW_ADDR.ADDR n), 1, w.toNat]
    cwRefused s (.pf n) q = false → Answers (.cwDataWrite (.pf n) w) s fun t =>
      getF t (R.CW_STA.BUSY n) = 1 ∧ smGet none t.hif.cw n = some q ∧
      getF t (R.CW_DATA.DATA n) = getF s (R.CW_DATA.DATA n) ∧ t.cores = s.cores := by
  intro q hr
  have hn : n.val < 5 := reqNo_lt (.pf n)
  have hregs := rootKept_regs s
  have hch := changesOnly_rootKept s
  have hq : cwReq (.pf n) (some w.toNat) (rootKept s) = q := by
    have hsel := cwSel_of_regsBut hn (.of_regs (fs := [R.CW_ADDR.ADDR n]) hregs)
    rw [Nat.mul_comm] at hsel
    unfold cwReq
    rw [show blkPage (.pf n) 0x50 = 0x50 + 0x1000 * n.val by simp [blkPage, reqPage, Req.no, Nat.mul_comm], hsel,
      getF_congr hregs]
    rfl
  have href : cwRefused (rootKept s) (.pf n) q = cwRefused s (.pf n) q :=
    cwRefused_congr (hch .hif (by decide)) (fun d _ => getF_congr hregs _) fun _ =>
      cwBound_of_bypass (.of_regs (fs := [R.CW_STA.BYPASS n]) hregs) (hch .cores (by decide)) (hch .plans (by decide)) _
  obtain ⟨hset, hcw, _, hc, hbut⟩ := cwStart_started (r := .pf n) (wr := some w.toNat) (s := rootKept s)
    ((getF_congr hregs _).trans hb) (by rw [hq, href, hr])
  exact ⟨_, cwDataWrite_starts hs hd, hset, hq ▸ hcw, (hbut.getF_eq (cwSta_flds hn).2).trans (getF_congr hregs _),
    hc.trans (hch .cores (by decide))⟩

theorem cwDataRead_advances (r : Req) (s : State) (hs : regsServed s = true) (hd : getF s R.ATTIC_RESTORE_STA.DONE = 1)
    (hi : getF s (R.CW_SEL.INC r.no) = 1) (hb : getF s (R.CW_STA.BUSY r.no) = 0) :
    let q := [regWord s (0x50 + 0x1000 * r.no) 0x40, (getF s (R.CW_ADDR.ADDR r.no) + 4) % 2 ^ 18, 0, 0]
    cwRefused s r q = false → Answers (.cwDataRead r) s fun t =>
      getF t (R.CW_ADDR.ADDR r.no) = (getF s (R.CW_ADDR.ADDR r.no) + 4) % 2 ^ 18 ∧ getF t (R.CW_STA.BUSY r.no) = 1 ∧
      smGet none t.hif.cw r.no = some q := by
  intro q hr
  have hn := reqNo_lt r
  have hadv : cwAdvance r.no s = setF s (R.CW_ADDR.ADDR r.no) (getF s (R.CW_ADDR.ADDR r.no) + 4) := by
    simp [cwAdvance, flagF_of_eq_one hi]
  have hbut : RegsBut [R.CW_ADDR.ADDR r.no] s (cwAdvance r.no s) := hadv ▸ regsBut_setF s _ (by simp)
  have haddr : getF (cwAdvance r.no s) (R.CW_ADDR.ADDR r.no) = (getF s (R.CW_ADDR.ADDR r.no) + 4) % 2 ^ 18 := by
    rw [hadv, getF_setF]
    rfl
  have hhif : (cwAdvance r.no s).hif = s.hif := by rw [hadv]; rfl
  have hq : cwReq r none (cwAdvance r.no s) = q := by rw [cwReq_read hbut, haddr]
  have heff : readEffect r 0x50 0x48 s = cwStart r none (cwAdvance r.no s) := by
    simp [readEffect, flagF_of_eq_one hi]
  obtain ⟨hset, hcw, _, _, hbut'⟩ := cwStart_started (r := r) (wr := none) (s := cwAdvance r.no s)
    ((hbut.getF_eq (cwSel_flds hn).2).trans hb) (by rw [hq, cwRefused_read hbut hhif rfl, hr])
  refine ⟨returned r (readWord s r 0x50 0x48) (cwStart r none (cwAdvance r.no s)), ?_, ?_, hset, hq ▸ hcw⟩
  · show Host.Outcome.next (readReg r 0x50 0x48 s) = _
    rw [readReg_of_open hs (readOpen_of_done hd _) (by decide), heff]
  · exact (hbut'.getF_eq (cwSta_flds hn).1).trans haddr

end Sys2Proof.Machine
end

section
/-! CORE_WIN: an access that completes, without an uncorrectable error (R90, R91, R115, R116). -/

namespace Sys2Proof.Machine

/-! ### Bytes -/

theorem leNat_lt (l : List Byte) : leNat l < 2 ^ (8 * l.length) := by
  induction l with
  | nil => simp [leNat]
  | cons b l ih =>
    have hb : b.toNat < 2 ^ 8 := b.isLt
    have hp : 2 ^ (8 * (l.length + 1)) = 2 ^ 8 * 2 ^ (8 * l.length) := by rw [← Nat.pow_add]; congr 1; omega
    simp only [leNat, List.length_cons, hp]
    omega

theorem length_smGetList {α : Type} (d : α) (m : SMap α) (a n : Nat) : (smGetList d m a n).length = n := by
  induction n generalizing a with
  | zero => rfl
  | succ n ih => simp [smGetList, ih]

/-! ### The turn (R91, R115) -/

/-- An access whose turn it is may be served. -/
theorem servable_of_turn {n : Nat} {q : List Nat} {s : State} (hq : smGet none s.hif.cw n = some q)
    (ht : cwTurn s n = true) : cwServable s q = true := by
  have hfind := eq_of_beq ht
  have hserv := List.find?_some hfind
  simpa only [hq] using hserv

/-- An access of a bound core waits for the guard (R91). -/
theorem turn_of_bound {n : Nat} {q : List Nat} {s : State} (hq : smGet none s.hif.cw n = some q)
    (hb : cwBound s (cwLcid q) = true) (h5 : cwTarget q ≠ 5) (hw : cwWrite q = false)
    (hg : s.tick.atD = false ∨ s.tick.draining = true) : cwTurn s n = false := by
  refine Bool.eq_false_iff.mpr fun ht => ?_
  have hserv := servable_of_turn hq ht
  rcases hg with hg | hg <;> simp [cwServable, hb, h5, hw, hg] at hserv

/-! ### The access leaves the window -/

/-- The access has left the window and was not refused. -/
def leftWindow (n : Nat) (s : State) : State := setB (cwClose n s) (R.CW_STA.REFUSED n) false

theorem cwDone_refused {n : Nat} {ecc : WinEcc} {q : List Nat} {s : State} (hq : smGet none s.hif.cw n = some q)
    (ht : cwTurn s n = true) (hw : cwWrite q = true) (hb : cwBound s (cwLcid q) = true) :
    cwDone n ecc s = cwRefuse n (cwClose n s) := by
  simp [cwDone, hq, ht, hw, hb]

theorem cwDone_write {n : Nat} {ecc : WinEcc} {q : List Nat} {s : State} (hq : smGet none s.hif.cw n = some q)
    (ht : cwTurn s n = true) (hw : cwWrite q = true) (hb : cwBound s (cwLcid q) = false) :
    cwDone n ecc s = cwAdvance n (updCore (leftWindow n s) (cwLcid q) (cwPut q)) := by
  simp [cwDone, hq, ht, hw, hb, leftWindow]

theorem cwDone_read {n : Nat} {ecc : WinEcc} {q : List Nat} {s : State} (hq : smGet none s.hif.cw n = some q)
    (ht : cwTurn s n = true) (hw : cwWrite q = false) : cwDone n ecc s = cwReadDone n q ecc (leftWindow n s) := by
  simp [cwDone, hq, ht, hw, leftWindow]

theorem regsBut_cwClose (n : Nat) (s : State) : RegsBut [R.CW_STA.BUSY n] s (cwClose n s) :=
  regsBut_setF { s with hif := _ } _ (List.mem_singleton_self _)

theorem regsBut_leftWindow (n : Nat) (s : State) : RegsBut [R.CW_STA.BUSY n, R.CW_STA.REFUSED n] s (leftWindow n s) :=
  ((regsBut_cwClose n s).mono (by simp)).trans (regsBut_setF _ _ (by simp))

theorem changesOnly_cwClose (n : Nat) (s : State) : ChangesOnly [.hif, .regs] s (cwClose n s) := fun p hp => by
  cases p <;> simp_all [Part.same, cwClose]

theorem changesOnly_leftWindow (n : Nat) (s : State) : ChangesOnly [.hif, .regs] s (leftWindow n s) :=
  (changesOnly_cwClose n s).trans ((changesOnly_setF _ _ _).mono (by simp))

theorem cwClose_cw (n : Nat) (s : State) : smGet none (cwClose n s).hif.cw n = none := by
  show smGet none (smSet none s.hif.cw n none) n = none
  rw [smGet_smSet, if_pos rfl]

theorem busy_cwClose (n : Nat) (s : State) : getF (cwClose n s) (R.CW_STA.BUSY n) = 0 := getF_setB _ _ false Nat.one_pos

/-- The fields of a requester's set are told apart by their keys. -/
theorem cwFlds_apart {n : Nat} (hn : n < 5) :
    fldKey (R.CW_STA.BUSY n) ∉ [R.CW_STA.REFUSED n].map fldKey ∧
    (∀ g ∈ [R.CW_STA.BUSY n, R.CW_STA.REFUSED n], fldKey g ∉ [R.CW_DATA.DATA n, R.CW_STA.UE n].map fldKey ∧
      fldKey g ∉ [R.CW_ADDR.ADDR n].map fldKey) ∧
    (∀ g ∈ [R.CW_SEL.INC n, R.CW_ADDR.ADDR n], fldKey g ∉ [R.CW_STA.BUSY n, R.CW_STA.REFUSED n].map fldKey) ∧
    fldKey (R.CW_STA.UE n) ≠ fldKey (R.CW_DATA.DATA n) := by
  revert n
  decide

theorem leftWindow_sta {n : Nat} (hn : n < 5) (s : State) :
    getF (leftWindow n s) (R.CW_STA.BUSY n) = 0 ∧ getF (leftWindow n s) (R.CW_STA.REFUSED n) = 0 :=
  ⟨((regsBut_setF _ _ (List.mem_singleton_self _)).getF_eq (cwFlds_apart hn).1).trans (busy_cwClose n s),
    getF_setB _ _ false Nat.one_pos⟩

theorem changesOnly_cwAdvance (n : Nat) (s : State) : ChangesOnly [.regs] s (cwAdvance n s) := by
  unfold cwAdvance
  split
  · exact changesOnly_setF _ _ _
  · exact .refl _ s

theorem regsBut_cwAdvance (n : Nat) (s : State) : RegsBut [R.CW_ADDR.ADDR n] s (cwAdvance n s) := by
  unfold cwAdvance
  split
  · exact regsBut_setF _ _ (by simp)
  · exact .refl _ s

/-! ### Writes -/

theorem coreWinDone_refused {n : Nat} (hn : n < 5) (s : State) :
    getF (cwRefuse n (cwClose n s)) (R.CW_STA.REFUSED n) = 1 ∧ raised E.CORE_WIN.CW_REFUSED (cwRefuse n (cwClose n s)) ∧
      smGet none (cwRefuse n (cwClose n s)).hif.cw n = none ∧ getF (cwRefuse n (cwClose n s)) (R.CW_STA.BUSY n) = 0 ∧
      (cwRefuse n (cwClose n s)).cores = s.cores := by
  obtain ⟨hset, hraised, hcw, hcores⟩ := cwRefuse_spec hn (cwClose n s)
  refine ⟨hset, hraised, hcw ▸ cwClose_cw n s, ?_, hcores⟩
  calc getF (cwRefuse n (cwClose n s)) (R.CW_STA.BUSY n)
      = getF (setB (cwClose n s) (R.CW_STA.REFUSED n) true) (R.CW_STA.BUSY n) :=
        (regsBut_raise _ _ (List.Subset.refl _)).getF_eq (cwFld_ne_evt hn _ (by simp)).1
    _ = getF (cwClose n s) (R.CW_STA.BUSY n) :=
        (regsBut_setF _ _ (List.mem_singleton_self _)).getF_eq (cwFlds_apart hn).1
    _ = 0 := busy_cwClose n s

/-- A write that is served changes its core alone, and CW_ADDR where INC asks for it. -/
theorem coreWinDone_write {n : Nat} (hn : n < 5) (q : List Nat) (s : State) :
    let t := cwAdvance n (updCore (leftWindow n s) (cwLcid q) (cwPut q))
    getCore t (cwLcid q) = cwPut q (getCore s (cwLcid q)) ∧ (∀ d, d ≠ cwLcid q → getCore t d = getCore s d) ∧
      getF t (R.CW_STA.BUSY n) = 0 ∧ getF t (R.CW_STA.REFUSED n) = 0 ∧ smGet none t.hif.cw n = none ∧
      (getF s (R.CW_SEL.INC n) = 1 → getF t (R.CW_ADDR.ADDR n) = (getF s (R.CW_ADDR.ADDR n) + 4) % 2 ^ 18) := by
  intro t
  have hch := changesOnly_cwAdvance n (updCore (leftWindow n s) (cwLcid q) (cwPut q))
  have hbut := regsBut_cwAdvance n (updCore (leftWindow n s) (cwLcid q) (cwPut q))
  have hcore : ∀ d, getCore t d = getCore (updCore (leftWindow n s) (cwLcid q) (cwPut q)) d := fun d => by
    unfold getCore
    rw [hch .cores (by decide)]
  have hserved : ∀ d, getCore (leftWindow n s) d = getCore s d := fun _ => rfl
  obtain ⟨hbusy, href⟩ := leftWindow_sta hn s
  obtain ⟨_, happ, hsel, _⟩ := cwFlds_apart hn
  refine ⟨?_, fun d hd => ?_, ?_, ?_, ?_, fun hi => ?_⟩
  · rw [hcore, getCore_updCore_same, hserved]
  · rw [hcore, getCore_updCore_other _ _ hd, hserved]
  · exact (hbut.getF_eq (happ _ (by simp)).2).trans hbusy
  · exact (hbut.getF_eq (happ _ (by simp)).2).trans href
  · have hhif : t.hif = (leftWindow n s).hif := hch .hif (by decide)
    rw [hhif]
    exact cwClose_cw n s
  · have hinc : flagF (updCore (leftWindow n s) (cwLcid q) (cwPut q)) (R.CW_SEL.INC n) = true :=
      flagF_of_eq_one (((regsBut_leftWindow n s).getF_eq (hsel _ (by simp))).trans hi)
    have hadv : t = setF (updCore (leftWindow n s) (cwLcid q) (cwPut q)) (R.CW_ADDR.ADDR n)
        (getF (updCore (leftWindow n s) (cwLcid q) (cwPut q)) (R.CW_ADDR.ADDR n) + 4) := if_pos hinc
    have haddr : getF (updCore (leftWindow n s) (cwLcid q) (cwPut q)) (R.CW_ADDR.ADDR n) = getF s (R.CW_ADDR.ADDR n) :=
      (regsBut_leftWindow n s).getF_eq (hsel _ (by simp))
    rw [hadv, getF_setF, haddr]
    rfl

/-! ### Reads -/

/-- DATA and UE take their values; the read has drawn its free value. -/
def shownWord (n v u : Nat) (s : State) : State := setFs (takeFree s).2 [(R.CW_DATA.DATA n, v), (R.CW_STA.UE n, u)]

/-- What a read shows its requester: DATA and UE, with the event of an uncorrectable error. -/
def readShown (n : Nat) (ue : Bool) (v : Nat) (s : State) : State :=
  raiseIf ue E.CORE_WIN.CW_UE (shownWord n (if ue then 0 else v) (b2n ue) s)

/-- The word that a read of the window returns; while the compute rails are off it is free (R339). -/
def windowWord (q : List Nat) (s : State) : Nat :=
  if s.hearth.trip then (takeFree s).1.toNat else cwRead (takeFree s).2 q (takeFree s).1.toNat

theorem cwReadDone_eq (n : Nat) (q : List Nat) (ecc : WinEcc) (s : State) :
    cwReadDone n q ecc s =
      takeFaults (cwFaults (readShown n (ecc == .uncorrectable) (windowWord q s) s) q ecc)
        (readShown n (ecc == .uncorrectable) (windowWord q s) s) := rfl

theorem regsBut_shownWord (n v u : Nat) (s : State) :
    RegsBut [R.CW_DATA.DATA n, R.CW_STA.UE n] s (shownWord n v u s) := regsBut_setFs _ (takeFree s).2 (by simp)

theorem changesOnly_shownWord (n v u : Nat) (s : State) : ChangesOnly [.freeCtr, .regs] s (shownWord n v u s) := fun p hp => by
  cases p <;> simp_all [Part.same, takeFree, shownWord]

theorem regsBut_readShown (n : Nat) (ue : Bool) (v : Nat) (s : State) :
    RegsBut ([R.CW_DATA.DATA n, R.CW_STA.UE n] ++ evFlds E.CORE_WIN.CW_UE) s (readShown n ue v s) := by
  cases ue with
  | false => exact (regsBut_shownWord n v 0 s).mono (by simp)
  | true => exact ((regsBut_shownWord n 0 1 s).mono (by simp)).trans (regsBut_raise _ _ (by simp))

theorem changesOnly_readShown (n : Nat) (ue : Bool) (v : Nat) (s : State) :
    ChangesOnly [.freeCtr, .regs, .out, .hif] s (readShown n ue v s) := by
  cases ue with
  | false => exact (changesOnly_shownWord n v 0 s).mono (by simp)
  | true => exact ((changesOnly_shownWord n 0 1 s).mono (by simp)).trans ((changesOnly_raise _ _).mono (by simp))

theorem getF_shownWord {n : Nat} (hn : n < 5) (v u : Nat) (s : State) :
    getF (shownWord n v u s) (R.CW_DATA.DATA n) = v % 2 ^ 32 ∧ getF (shownWord n v u s) (R.CW_STA.UE n) = u % 2 := by
  obtain ⟨_, _, _, hne⟩ := cwFlds_apart hn
  refine ⟨?_, getF_setF _ _ _⟩
  show getF (setF (setF _ _ _) _ _) _ = _
  rw [getF_setF_other _ _ _ _ hne, getF_setF]
  rfl

/-- DATA and UE as the read leaves them. -/
theorem getF_readShown {n : Nat} (hn : n < 5) (ue : Bool) (v : Nat) (s : State) :
    getF (readShown n ue v s) (R.CW_DATA.DATA n) = (if ue then 0 else v) % 2 ^ 32 ∧
      getF (readShown n ue v s) (R.CW_STA.UE n) = b2n ue := by
  have hkey := cwFld_ne_evt hn
  cases ue with
  | false => exact getF_shownWord hn v 0 s
  | true =>
    obtain ⟨hd, hu⟩ := getF_shownWord hn 0 1 s
    exact ⟨((regsBut_raise _ _ (List.Subset.refl _)).getF_eq (hkey _ (by simp)).2).trans hd,
      ((regsBut_raise _ _ (List.Subset.refl _)).getF_eq (hkey _ (by simp)).2).trans hu⟩

theorem getCore_leftWindow (n : Nat) (s : State) (d : Nat) : getCore (leftWindow n s) d = getCore s d := rfl

theorem getCore_takeFree (s : State) (d : Nat) : getCore (takeFree s).2 d = getCore s d := rfl

theorem cwRead_store {q : List Nat} (h : cwTarget q = 0) (s : State) (x : Nat) :
    cwRead s q x = leNat (lsRead (getCore s (cwLcid q)) (cwAddr q) 4) := by
  unfold cwRead
  rw [h]
  rfl

theorem cwRead_acc {q : List Nat} (h : cwTarget q = 1) (s : State) (x : Nat) :
    cwRead s q x = (smGet 0 (getCore s (cwLcid q)).acc (cwAddr q / 4)).toNat := by
  unfold cwRead
  rw [h]
  rfl

/-- A read without an error shows its word and takes no fault (R90). -/
theorem cwReadDone_clean (n : Nat) (q : List Nat) {s : State} (htrip : s.hearth.trip = false) :
    cwReadDone n q .clean s = shownWord n (cwRead (takeFree s).2 q (takeFree s).1.toNat) 0 s := by
  have hnone : ∀ u, cwFaults u q .clean = [] := fun u => by unfold cwFaults; split <;> rfl
  have hword : windowWord q s = cwRead (takeFree s).2 q (takeFree s).1.toNat := by
    unfold windowWord
    rw [htrip]
    rfl
  rw [cwReadDone_eq, hnone, hword]
  rfl

theorem coreWinDone_clean {n : Nat} (hn : n < 5) (q : List Nat) {s : State} (htrip : s.hearth.trip = false) :
    let t := cwReadDone n q .clean (leftWindow n s)
    (cwTarget q = 0 → getF t (R.CW_DATA.DATA n) = leNat (lsRead (getCore s (cwLcid q)) (cwAddr q) 4)) ∧
      (cwTarget q = 1 → getF t (R.CW_DATA.DATA n) = (smGet 0 (getCore s (cwLcid q)).acc (cwAddr q / 4)).toNat) ∧
      getF t (R.CW_STA.UE n) = 0 ∧ getF t (R.CW_STA.BUSY n) = 0 ∧ smGet none t.hif.cw n = none ∧ t.cores = s.cores := by
  have htrip' : (leftWindow n s).hearth.trip = false :=
    (congrArg Hearth.trip (changesOnly_leftWindow n s .hearth (by decide))).trans htrip
  intro t
  have ht : t = _ := cwReadDone_clean n q htrip'
  obtain ⟨_, happ, _, _⟩ := cwFlds_apart hn
  obtain ⟨hdata, hue⟩ := getF_shownWord hn (cwRead (takeFree (leftWindow n s)).2 q (takeFree (leftWindow n s)).1.toNat) 0
    (leftWindow n s)
  have hbut := regsBut_shownWord n (cwRead (takeFree (leftWindow n s)).2 q (takeFree (leftWindow n s)).1.toNat) 0
    (leftWindow n s)
  have hch := changesOnly_shownWord n (cwRead (takeFree (leftWindow n s)).2 q (takeFree (leftWindow n s)).1.toNat) 0
    (leftWindow n s)
  rw [ht]
  refine ⟨fun h0 => ?_, fun h1 => ?_, hue, ?_, ?_, ?_⟩
  · have hlt := leNat_lt (lsRead (getCore s (cwLcid q)) (cwAddr q) 4)
    rw [lsRead, length_smGetList] at hlt
    rw [hdata, cwRead_store h0, getCore_takeFree, getCore_leftWindow]
    exact Nat.mod_eq_of_lt hlt
  · rw [hdata, cwRead_acc h1, getCore_takeFree, getCore_leftWindow]
    exact Nat.mod_eq_of_lt (BitVec.isLt _)
  · exact (hbut.getF_eq (happ _ (by simp)).1).trans (leftWindow_sta hn s).1
  · rw [hch .hif (by decide)]
    exact cwClose_cw n s
  · exact (hch .cores (by decide)).trans (changesOnly_leftWindow n s .cores (by decide))

/-! ### A corrected error (R90) -/

/-- The entry of a fault stands where the head was. -/
theorem logEntry_log (r : FaultRec) (b : Bool) (s : State) :
    smGet none (logEntry r b s).flt.log (getF s R.FLT_LOG_HEAD.SEQ % 1024) = some (entryOf r b s) := by
  rw [logEntry_eq, raise_flt, changesOnly_advanceHead _ _ .flt (by decide)]
  show smGet none (smSet none s.flt.log (getF s R.FLT_LOG_HEAD.SEQ % 1024) (some (entryOf r b s))) _ = _
  rw [smGet_smSet, if_pos rfl]

/-- One fault: its entry, then its outcome. -/
theorem takeFaults_one (r : FaultRec) (s : State) :
    takeFaults [r] s = faultOutcome r (recurs r s) (getF s R.FLT_LOG_HEAD.SEQ) (logFault r s) := rfl

/-- A fault that is logged only leaves its entry. -/
theorem takeFaults_logged {r : FaultRec} (h : r.cls = clLogged) (s : State) :
    takeFaults [r] s = logEntry r (recurs r s) s := by
  rw [takeFaults_one]
  unfold faultOutcome logFault
  rw [if_pos h, if_pos h]

/-- The log's head lies beside the CORE_WIN page. -/
theorem cwFlds_log {n : Nat} (hn : n < 5) :
    fldKey R.FLT_LOG_HEAD.SEQ ∉ [R.CW_STA.BUSY n, R.CW_STA.REFUSED n].map fldKey ∧
    fldKey R.FLT_LOG_HEAD.SEQ ∉ ([R.CW_DATA.DATA n, R.CW_STA.UE n] ++ evFlds E.CORE_WIN.CW_UE).map fldKey ∧
    fldKey (R.CW_STA.UE n) ∉ logFlds.map fldKey := by
  revert n
  decide

/-- The head where a read's fault is logged is the head as the access found it. -/
theorem seq_readShown {n : Nat} (hn : n < 5) (ue : Bool) (v : Nat) (s : State) :
    getF (readShown n ue v (leftWindow n s)) R.FLT_LOG_HEAD.SEQ = getF s R.FLT_LOG_HEAD.SEQ := by
  obtain ⟨hs, hr, _⟩ := cwFlds_log hn
  exact ((regsBut_readShown n ue v _).getF_eq hr).trans ((regsBut_leftWindow n s).getF_eq hs)

theorem coreWinDone_corrected {n : Nat} (hn : n < 5) {q : List Nat} (s : State) (h0 : cwTarget q = 0) :
    let t := cwReadDone n q .corrected (leftWindow n s)
    getF t (R.CW_STA.UE n) = 0 ∧ t.cores = s.cores ∧
      ∃ x, smGet none t.flt.log (getF s R.FLT_LOG_HEAD.SEQ % 1024) = some x ∧ x.code = 0x16 ∧ x.unitId = cwLcid q := by
  intro t
  obtain ⟨_, _, hlog⟩ := cwFlds_log hn
  have hfault : ∀ u, cwFaults u q .corrected =
      [coreFault u (cwLcid q) 0x16 clLogged (nowCyc u) (64 * (cwAddr q / 64))] := fun u => by
    unfold cwFaults
    rw [if_neg (by simp [h0])]
  obtain ⟨u, hu⟩ : ∃ u, u = readShown n false (windowWord q (leftWindow n s)) (leftWindow n s) := ⟨_, rfl⟩
  obtain ⟨r, hr⟩ : ∃ r, r = coreFault u (cwLcid q) 0x16 clLogged (nowCyc u) (64 * (cwAddr q / 64)) := ⟨_, rfl⟩
  have ht : t = logEntry r (recurs r u) u := by
    have heq : t = takeFaults (cwFaults u q .corrected) u := hu ▸ cwReadDone_eq n q .corrected (leftWindow n s)
    rw [heq, hfault, ← hr, takeFaults_logged (hr ▸ rfl)]
  have hseq : getF u R.FLT_LOG_HEAD.SEQ = getF s R.FLT_LOG_HEAD.SEQ := hu ▸ seq_readShown hn _ _ s
  rw [ht]
  refine ⟨?_, ?_, entryOf r (recurs r u) u, ?_, hr ▸ rfl, hr ▸ rfl⟩
  · rw [(regsBut_logEntry _ _ u).getF_eq hlog, hu]
    exact (getF_readShown hn false _ _).2
  · rw [changesOnly_logEntry _ _ u .cores (by decide), hu, changesOnly_readShown _ _ _ _ .cores (by decide)]
    exact changesOnly_leftWindow n s .cores (by decide)
  · rw [← hseq]
    exact logEntry_log _ _ u

end Sys2Proof.Machine
end

section
/-! What taking a fault of a core leaves: the registers that it may write, and the entries that it may add to the log
(R301 to R309). -/

namespace Sys2Proof.Machine

/-! ### The entries of the log -/

/-- At most `m` entries join the log: the head has moved by that many, and no other place of the ring has changed. -/
def LogTrail (m : Nat) (s t : State) : Prop :=
  ∃ d, d ≤ m ∧ getF t R.FLT_LOG_HEAD.SEQ % 2 ^ 16 = (getF s R.FLT_LOG_HEAD.SEQ + d) % 2 ^ 16 ∧
    ∀ j, (∀ i, i < d → (getF s R.FLT_LOG_HEAD.SEQ + i) % 1024 ≠ j) → smGet none t.flt.log j = smGet none s.flt.log j

theorem LogTrail.quiet {s t : State} (hflt : t.flt = s.flt) (hseq : getF t R.FLT_LOG_HEAD.SEQ = getF s R.FLT_LOG_HEAD.SEQ) :
    LogTrail 0 s t := ⟨0, Nat.le_refl 0, by rw [hseq]; rfl, fun _ _ => by rw [hflt]⟩

theorem LogTrail.mono {m k : Nat} {s t : State} (h : LogTrail m s t) (hk : m ≤ k) : LogTrail k s t := by
  obtain ⟨d, hd, hseq, hlog⟩ := h
  exact ⟨d, Nat.le_trans hd hk, hseq, hlog⟩

theorem LogTrail.trans {m k : Nat} {s t u : State} (h : LogTrail m s t) (h' : LogTrail k t u) : LogTrail (m + k) s u := by
  obtain ⟨d, hd, hseq, hlog⟩ := h
  obtain ⟨e, he, hseq', hlog'⟩ := h'
  refine ⟨d + e, Nat.add_le_add hd he, by omega, fun j hj => ?_⟩
  rw [hlog' j fun i hi => ?_, hlog j fun i hi => hj i (by omega)]
  have := hj (d + i) (by omega)
  omega

/-- The head's field is not the event registers'. -/
theorem seq_advanceHead (q : Nat) (s : State) : getF (advanceHead q s) R.FLT_LOG_HEAD.SEQ = (q + 1) % 2 ^ 16 := by
  have h1 : getF (setF s R.FLT_LOG_HEAD.SEQ (q + 1)) R.FLT_LOG_HEAD.SEQ = (q + 1) % 2 ^ 16 := getF_setF _ _ _
  unfold advanceHead
  dsimp only
  split
  · rw [getF_raise_other _ _ _ (by decide), getF_setF_other _ _ _ _ (by decide), h1]
  · exact h1

theorem seq_logEntry (r : FaultRec) (b : Bool) (s : State) :
    getF (logEntry r b s) R.FLT_LOG_HEAD.SEQ = (getF s R.FLT_LOG_HEAD.SEQ + 1) % 2 ^ 16 := by
  rw [logEntry_eq, getF_raise_other _ _ _ (by decide), seq_advanceHead]

theorem logTrail_logEntry (r : FaultRec) (b : Bool) (s : State) : LogTrail 1 s (logEntry r b s) := by
  refine ⟨1, Nat.le_refl 1, by rw [seq_logEntry, Nat.mod_mod], fun j hj => ?_⟩
  rw [logEntry_eq, raise_flt, changesOnly_advanceHead _ _ .flt (by decide)]
  show smGet none (smSet none s.flt.log (getF s R.FLT_LOG_HEAD.SEQ % 1024) (some (entryOf r b s))) j = _
  exact smGet_smSet_other none s.flt.log _ _ _ (hj 0 (by decide))

/-! ### What a fault leaves -/

/-- The Attic's fields that a queued record may write (R364). -/
def atticFltFlds : List Fld :=
  [R.ATTIC_STA.PENDING, R.ATTIC_STA.QUEUE, R.ATTIC_STA.EPOCH_SAT] ++ evFlds E.ATTIC.SYNCED

/-- The fields that a fenced core may write (R312). -/
def fenceFlds : List Fld :=
  [R.FLT_FENCE_MAP.DIE, R.PG_STA.FENCED 8, R.PG_STA.FENCED 9, R.PG_STA.FENCED 10, R.PG_STA.FENCED 11]

/-- The fields that a flag cause may write (R305, R309, R316, R428). -/
def flagFlds : List Fld :=
  [R.FLT_SUSPECT.CAUSE, R.FLT_SUSPECT.LOGSEQ, R.FLT_SUSPECT.FLAGGED, R.FLT_SUSPECT.SUSPECT, R.TOP_STATE.STATE] ++
    evFlds E.TOP.STATE ++ evFlds E.FAULT.FLAGGED

/-- The fields that a postponed boundary may write (R33). -/
def voidFlds : List Fld :=
  [R.TICK_LAUNCH_LO.LAUNCH, R.TICK_LAUNCH_HI.LAUNCH, R.TICK_STRETCH_CNT.VOIDED, R.FLT_REPLAY_CNT.RX] ++ evFlds E.TICK.VOID_RX

/-- The fields that taking a fault of a core may write. -/
def takenFlds : List Fld :=
  logFlds ++ atticFltFlds ++ [R.FLT_STA.PERM_PENDING, R.FLT_STA.PENDING] ++ fenceFlds ++ flagFlds ++ ovrFlds ++ voidFlds

/-- Of the registers none but those of a fault differ, and the log has at most `m` entries more. -/
structure FaultLeaves (m : Nat) (s t : State) : Prop where
  regs : RegsBut takenFlds s t
  log : LogTrail m s t

theorem FaultLeaves.trans {m k : Nat} {s t u : State} (h : FaultLeaves m s t) (h' : FaultLeaves k t u) :
    FaultLeaves (m + k) s u := ⟨h.regs.trans h'.regs, h.log.trans h'.log⟩

theorem FaultLeaves.mono {m k : Nat} {s t : State} (h : FaultLeaves m s t) (hk : m ≤ k) : FaultLeaves k s t :=
  ⟨h.regs, h.log.mono hk⟩

/-- A change that logs nothing. -/
theorem FaultLeaves.quiet {fs : List Fld} {s t : State} (h : RegsBut fs s t) (hflt : t.flt = s.flt) (hfs : fs ⊆ takenFlds)
    (hseq : fldKey R.FLT_LOG_HEAD.SEQ ∉ fs.map fldKey) : FaultLeaves 0 s t :=
  ⟨h.mono hfs, .quiet hflt (h.getF_eq hseq)⟩

theorem FaultLeaves.refl (s : State) : FaultLeaves 0 s s := .quiet (.refl [] s) rfl (by simp) (by simp)

/-- A change of neither the registers nor the log. -/
theorem FaultLeaves.of_same {s t : State} (hregs : t.regs = s.regs) (hflt : t.flt = s.flt) : FaultLeaves 0 s t :=
  .quiet (.of_regs (fs := []) hregs) hflt (by simp) (by simp)

theorem faultLeaves_logEntry (r : FaultRec) (b : Bool) (s : State) : FaultLeaves 1 s (logEntry r b s) :=
  ⟨(regsBut_logEntry r b s).mono (by decide), logTrail_logEntry r b s⟩

/-! ### The Attic's queue (R364) -/

theorem changesOnly_syncLess (r : Nat) (s : State) : ChangesOnly [.regs, .out, .hif, .attic] s (syncLess r s) := by
  have fold : ∀ (l : List (List Nat)) (s : State),
      ChangesOnly [.regs, .out, .hif, .attic] s (l.foldl (fun s _ => raise E.ATTIC.SYNCED s) s) := by
    intro l
    induction l with
    | nil => exact fun s => .refl _ s
    | cons x l ih => exact fun s => ((changesOnly_raise _ s).mono (by simp)).trans (ih _)
  exact ChangesOnly.trans (fun p hp => by cases p <;> simp_all [Part.same]) (fold _ _)

theorem regsBut_syncLess (r : Nat) (s : State) : RegsBut atticFltFlds s (syncLess r s) := by
  have fold : ∀ (l : List (List Nat)) (s : State),
      RegsBut atticFltFlds s (l.foldl (fun s _ => raise E.ATTIC.SYNCED s) s) := by
    intro l
    induction l with
    | nil => exact fun s => .refl _ s
    | cons x l ih => exact fun s => (regsBut_raise E.ATTIC.SYNCED s (by decide)).trans (ih _)
  exact fold _ _

theorem changesOnly_atticNext (l : List (Nat × List Nat)) (s : State) :
    ChangesOnly [.regs, .out, .hif, .attic] s (atticNext l s) := by
  induction l generalizing s with
  | nil => exact fun p hp => by cases p <;> simp_all [Part.same, atticNext]
  | cons e l ih =>
    unfold atticNext
    split
    · exact ((changesOnly_setF s _ _).mono (by simp)).trans <| ((changesOnly_raise _ _).mono (by simp)).trans <|
        (changesOnly_syncLess _ _).trans (ih _)
    · exact fun p hp => by cases p <;> simp_all [Part.same]

theorem regsBut_atticNext (l : List (Nat × List Nat)) (s : State) : RegsBut atticFltFlds s (atticNext l s) := by
  induction l generalizing s with
  | nil => exact .of_regs rfl
  | cons e l ih =>
    unfold atticNext
    split
    · exact (regsBut_setF s _ (by decide)).trans <| (regsBut_raise _ _ (by decide)).trans <|
        (regsBut_syncLess _ _).trans (ih _)
    · exact .of_regs rfl

theorem changesOnly_queueRec (r : Nat) (s : State) : ChangesOnly [.regs, .out, .hif, .attic] s (queueRec r s) := by
  have henq : ChangesOnly [.regs, .out, .hif, .attic] s (enqueue r false s) := fun p hp => by
    cases p <;> simp_all [Part.same, enqueue]
  have hshow : ∀ u, ChangesOnly [.regs, .out, .hif, .attic] u (showAttic u) := fun u => (changesOnly_setFs u _).mono (by simp)
  refine henq.trans ?_
  unfold queueRec queueReq atticGo
  split
  · exact (changesOnly_atticNext _ _).trans (hshow _)
  · exact hshow _

theorem regsBut_queueRec (r : Nat) (s : State) : RegsBut atticFltFlds s (queueRec r s) := by
  have henq : RegsBut atticFltFlds s (enqueue r false s) := .of_regs rfl
  have hshow : ∀ u, RegsBut atticFltFlds u (showAttic u) := fun u => regsBut_setFs _ u (by simp [atticFltFlds])
  refine henq.trans ?_
  unfold queueRec queueReq atticGo
  split
  · exact (regsBut_atticNext _ _).trans (hshow _)
  · exact hshow _

theorem faultLeaves_queueRec (r : Nat) (s : State) : FaultLeaves 0 s (queueRec r s) :=
  .quiet (regsBut_queueRec r s) (changesOnly_queueRec r s .flt (by decide)) (by decide) (by decide)

/-! ### Single fields and events -/

theorem faultLeaves_setF (s : State) {f : Fld} (v : Nat) (hf : f ∈ takenFlds)
    (hseq : fldKey R.FLT_LOG_HEAD.SEQ ≠ fldKey f) : FaultLeaves 0 s (setF s f v) :=
  .quiet (fs := [f]) (regsBut_setF s v (by simp)) rfl (by simpa using hf) (by simpa using hseq)

theorem faultLeaves_raise (e : Ev) (s : State) (he : evFlds e ⊆ takenFlds)
    (hseq : fldKey R.FLT_LOG_HEAD.SEQ ∉ (evFlds e).map fldKey) : FaultLeaves 0 s (raise e s) :=
  .quiet (regsBut_raise e s (List.Subset.refl _)) (raise_flt _ _) he hseq

/-! ### Histories and fences (R312, R319, R320) -/

/-- A change of the histories alone, its record queued. -/
theorem faultLeaves_histRec (h : SMap Hist) (k : Nat) (s : State) : FaultLeaves 0 s (queueRec k { s with hist := h }) :=
  (FaultLeaves.of_same (s := s) (t := { s with hist := h }) rfl rfl).trans (faultLeaves_queueRec _ _)

theorem faultLeaves_markPermanent (unit id : Nat) (s : State) : FaultLeaves 1 s (markPermanent unit id s) := by
  have hlog : ∀ h k, FaultLeaves 1 s (logOnly 0x47 unit id 0 0 (queueRec k { s with hist := h })) := fun h k =>
    (faultLeaves_histRec h k s).trans (faultLeaves_logEntry _ _ _)
  unfold markPermanent
  dsimp only
  split
  · exact (FaultLeaves.refl s).mono (by decide)
  · split
    · exact hlog _ _
    · exact ((hlog _ _).trans (faultLeaves_setF _ _ (by decide) (by decide))).trans
        (faultLeaves_raise _ _ (by decide) (by decide))

theorem faultLeaves_histEvent (unit id : Nat) (s : State) : FaultLeaves 1 s (histEvent unit id s) := by
  have hpend : ∀ h k v, FaultLeaves 0 s (setF (queueRec k { s with hist := h }) R.FLT_STA.PENDING v) := fun h k v =>
    (faultLeaves_histRec h k s).trans (faultLeaves_setF _ _ (by decide) (by decide))
  unfold histEvent
  split
  · exact (FaultLeaves.refl s).mono (by decide)
  · dsimp only
    split
    · split
      · exact (hpend _ _ _).trans (faultLeaves_markPermanent _ _ _)
      · exact (hpend _ _ _).mono (by decide)
    · exact (hpend _ _ _).mono (by decide)

/-- A core's page is one of the four DIE pages. -/
theorem fenced_mem {p : Nat} (h : 8 ≤ p) (h' : p ≤ 11) : R.PG_STA.FENCED p ∈ fenceFlds := by
  have : p = 8 ∨ p = 9 ∨ p = 10 ∨ p = 11 := by omega
  rcases this with rfl | rfl | rfl | rfl <;> simp [fenceFlds]

theorem faultLeaves_fenceCore {id : Nat} (h : id < 2 ^ 16) (s : State) : FaultLeaves 0 s (fenceUnit uCore id s) := by
  have hmem : R.PG_STA.FENCED (8 + id / 2 ^ 14) ∈ fenceFlds := fenced_mem (by omega) (by omega)
  have h1 : RegsBut fenceFlds s (setB s (R.PG_STA.FENCED (8 + id / 2 ^ 14)) true) := regsBut_setF s _ hmem
  have h2 : RegsBut fenceFlds s (fenceUnit uCore id s) :=
    h1.trans ((regsBut_setF _ _ (by simp [fenceFlds])).trans (.of_regs (updCore_regs ..)))
  exact .quiet h2 rfl (by decide) (by decide)

/-! ### Flags and drains (R305, R307, R309, R316, R428) -/

theorem faultLeaves_recordFlag (cause seq : Nat) (s : State) : FaultLeaves 0 s (recordFlag cause seq s) := by
  unfold recordFlag
  split
  · exact .refl s
  · exact .quiet (fs := flagFlds) (regsBut_setFs _ s (by simp [flagFlds])) (setFs_flt _ _) (by decide) (by decide)

theorem faultLeaves_setTop (v : Nat) (s : State) : FaultLeaves 0 s (setTop v s) := by
  unfold setTop
  split
  · exact .refl s
  · exact (faultLeaves_setF s v (by decide) (by decide)).trans (faultLeaves_raise _ _ (by decide) (by decide))

theorem faultLeaves_goFlagged (s : State) : FaultLeaves 0 s (goFlagged s) := by
  unfold goFlagged
  split
  · exact .refl s
  · exact (faultLeaves_setTop _ s).trans (faultLeaves_raise _ _ (by decide) (by decide))

theorem faultLeaves_idleFlag (cause : Nat) (s : State) : FaultLeaves 0 s (idleFlag cause s) := by
  unfold idleFlag
  split
  · exact .refl s
  · split
    · exact faultLeaves_goFlagged s
    · split
      · exact faultLeaves_goFlagged s
      · exact .refl s

theorem faultLeaves_faultDrain (s : State) : FaultLeaves 0 s (faultDrain s) := .of_same rfl rfl

theorem faultLeaves_setSuspect (s : State) : FaultLeaves 0 s (setSuspect s) := by
  unfold setSuspect
  split
  · exact .refl s
  · exact ((faultLeaves_setF s _ (by decide) (by decide)).trans (faultLeaves_raise _ _ (by decide) (by decide))).trans
      (faultLeaves_queueRec _ _)

theorem faultLeaves_silentError (seq : Nat) (s : State) : FaultLeaves 0 s (silentError seq s) :=
  ((faultLeaves_setSuspect s).trans (faultLeaves_recordFlag _ _ _)).trans (faultLeaves_faultDrain _)

/-! ### Overruns and voids (R29, R32, R33) -/

theorem faultLeaves_enterDrain (b : Bool) (s : State) : FaultLeaves 0 s (enterDrain b s) :=
  .of_same (changesOnly_enterDrain b s .regs (by decide)) (changesOnly_enterDrain b s .flt (by decide))

theorem faultLeaves_recordOverrun (pkg cause : Nat) (s : State) : FaultLeaves 1 s (recordOverrun pkg cause s) := by
  cases h : flagF s R.TICK_OVR_SRC.VALID with
  | true => rw [recordOverrun_of_valid h]; exact (FaultLeaves.refl s).mono (by decide)
  | false =>
    rw [recordOverrun_of_first h]
    have hsrc : FaultLeaves 0 s (ovrSrc pkg cause s) :=
      .quiet (fs := [R.TICK_OVR_SRC.PKG, R.TICK_OVR_SRC.CAUSE, R.TICK_OVR_SRC.VALID]) (regsBut_setFs _ s (by simp))
        (setFs_flt _ _) (by decide) (by decide)
    exact ((hsrc.trans (faultLeaves_raise E.TICK.OVERRUN _ (by decide) (by decide))).trans (faultLeaves_logEntry _ _ _)).trans
      (faultLeaves_enterDrain _ _)

theorem faultLeaves_broadcast (k : Nat) (pl : List Byte) (s : State) : FaultLeaves 0 s (broadcast k pl s) :=
  .of_same (changesOnly_broadcast k pl s .regs (by decide)) (changesOnly_broadcast k pl s .flt (by decide))

theorem faultLeaves_declareOverrun (cause : Nat) (s : State) : FaultLeaves 1 s (declareOverrun cause s) := by
  unfold declareOverrun
  split
  · exact (FaultLeaves.refl s).mono (by decide)
  · exact (faultLeaves_broadcast _ _ s).trans (faultLeaves_recordOverrun _ _ _)

theorem faultLeaves_postpone (s : State) : FaultLeaves 0 s (postpone s) := by
  cases h : flagF s R.TICK_STRETCH_CNT.VOIDED with
  | true => simp only [postpone, h, if_true]; exact .refl s
  | false =>
    have he : postpone s = raise E.TICK.VOID_RX (voidMoved s) := by unfold postpone; rw [h]; rfl
    have hmoved : RegsBut voidFlds s (voidMoved s) :=
      ((regsBut_voidCounts s).mono (by simp [voidFlds])).trans (.of_regs (voidMoved_regs s))
    rw [he]
    exact (FaultLeaves.quiet hmoved (changesOnly_voidMoved s .flt (by decide)) (by decide) (by decide)).trans
      (faultLeaves_raise _ _ (by decide) (by decide))

theorem faultLeaves_voidSelf (why : Option (Nat × Nat)) (s : State) : FaultLeaves 1 s (voidSelf why s) := by
  have hq : ∀ u, FaultLeaves 0 u (quiesce why u) := fun u => by
    unfold quiesce
    split
    · exact .of_same rfl rfl
    · exact .refl u
  have h0 := ((faultLeaves_broadcast 6 (leBytes 2 (myId s) ++ leBytes 3 (tickNum s)) s).trans
    (faultLeaves_postpone _)).trans (hq _)
  unfold voidSelf withdraw
  dsimp only
  split
  · exact h0.trans (faultLeaves_declareOverrun _ _)
  · exact h0.mono (by decide)

/-! ### The outcome of a core's fault (R301 to R306) -/

/-- After its own entry a fault's history adds at most two more. -/
theorem faultLeaves_logFault (r : FaultRec) (s : State) : FaultLeaves 2 (logEntry r (recurs r s) s) (logFault r s) := by
  unfold logFault
  dsimp only
  split
  · exact (FaultLeaves.refl _).mono (by decide)
  · split
    · exact (faultLeaves_histEvent _ _ _).trans (faultLeaves_markPermanent _ _ _)
    · exact (faultLeaves_histEvent _ _ _).mono (by decide)

theorem faultLeaves_outcome {r : FaultRec} (hu : r.unit = uCore) (hid : r.unitId < 2 ^ 16) (recur : Bool) (seq : Nat)
    (s : State) : FaultLeaves 2 s (faultOutcome r recur seq s) := by
  have hfence : ∀ u, FaultLeaves 0 u (fenceUnit r.unit r.unitId u) := fun u => hu ▸ faultLeaves_fenceCore hid u
  have hfenceIf : ∀ (c : Prop) [Decidable c] (u : State), FaultLeaves 0 u (if c then fenceUnit r.unit r.unitId u else u) := by
    intro c _ u
    split
    · exact hfence u
    · exact .refl u
  have hperm : FaultLeaves 1 s (if recur then recordFlag (recurCause r) seq
      (if hasHist r.unit then markPermanent r.unit r.unitId s else s) else s) := by
    split
    · split
      · exact (faultLeaves_markPermanent _ _ s).trans (faultLeaves_recordFlag _ _ _)
      · exact (faultLeaves_recordFlag _ _ s).mono (by decide)
    · exact (FaultLeaves.refl s).mono (by decide)
  unfold faultOutcome
  dsimp only
  split
  · exact (FaultLeaves.refl s).mono (by decide)
  split
  · exact (((hfenceIf _ s).trans (faultLeaves_recordFlag _ _ _)).trans (faultLeaves_idleFlag _ _)).mono (by decide)
  split
  · exact ((hfenceIf _ s).trans (faultLeaves_recordFlag _ _ _)).mono (by decide)
  split
  · exact ((hperm.trans (hfenceIf _ _)).trans (faultLeaves_recordFlag _ _ _)).trans (faultLeaves_declareOverrun _ _)
  split
  · exact (((hfence s).trans (faultLeaves_recordFlag _ _ _)).trans (faultLeaves_faultDrain _)).mono (by decide)
  split
  · exact FaultLeaves.mono (m := 0) (.of_same (s := s) rfl rfl) (by decide)
  split
  · exact (faultLeaves_silentError _ s).mono (by decide)
  · exact (faultLeaves_voidSelf _ s).mono (by decide)

/-- A fault of a core: its entry stays where the head was, and no register but those of a fault differs. -/
theorem takeFaults_core {r : FaultRec} (hu : r.unit = uCore) (hid : r.unitId < 2 ^ 16) (s : State) :
    RegsBut takenFlds s (takeFaults [r] s) ∧
      smGet none (takeFaults [r] s).flt.log (getF s R.FLT_LOG_HEAD.SEQ % 1024) = some (entryOf r (recurs r s) s) := by
  have hrest := (faultLeaves_logFault r s).trans
    (faultLeaves_outcome hu hid (recurs r s) (getF s R.FLT_LOG_HEAD.SEQ) (logFault r s))
  rw [takeFaults_one]
  refine ⟨(faultLeaves_logEntry r _ s).regs.trans hrest.regs, ?_⟩
  obtain ⟨d, hd, _, hlog⟩ := hrest.log
  rw [hlog _ fun i hi => ?_, logEntry_log]
  rw [seq_logEntry]
  omega

end Sys2Proof.Machine
end

section
/-! An uncorrectable error of a CORE_WIN read (R90), and O58. -/

namespace Sys2Proof.Machine

/-- What a fault may write lies beside a requester's set and the events of the page. -/
theorem cwFlds_taken {n : Nat} (hn : n < 5) :
    ∀ g ∈ [R.CW_DATA.DATA n, R.CW_STA.UE n, R.PG_EVT.EVT 0x50], fldKey g ∉ takenFlds.map fldKey := by
  revert n
  decide

theorem ueFault_unit (s : State) (c cyc line : Nat) :
    (ueFault s c cyc line).unit = uCore ∧ (ueFault s c cyc line).unitId = c ∧
      ((ueFault s c cyc line).code = 0x17 ∨ (ueFault s c cyc line).code = 0x18) := by
  unfold ueFault
  split
  · exact ⟨rfl, rfl, .inl rfl⟩
  · exact ⟨rfl, rfl, .inr rfl⟩

/-- The read's fault, where its target is the core's store, leaves what the read shows. -/
theorem takeFaults_cw {n : Nat} (hn : n < 5) (q : List Nat) (u : State) :
    (∀ g ∈ [R.CW_DATA.DATA n, R.CW_STA.UE n, R.PG_EVT.EVT 0x50],
      getF (takeFaults (cwFaults u q .uncorrectable) u) g = getF u g) ∧
    (cwTarget q = 0 → ∃ x, smGet none (takeFaults (cwFaults u q .uncorrectable) u).flt.log
      (getF u R.FLT_LOG_HEAD.SEQ % 1024) = some x ∧ (x.code = 0x17 ∨ x.code = 0x18) ∧ x.unitId = cwLcid q) := by
  by_cases h0 : cwTarget q = 0
  · obtain ⟨r, hr⟩ : ∃ r, r = ueFault u (cwLcid q) (nowCyc u) (cwAddr q / 64) := ⟨_, rfl⟩
    have hfault : cwFaults u q .uncorrectable = [r] := by
      unfold cwFaults
      rw [if_neg (by simp [h0]), hr]
    obtain ⟨hunit, hid, hcode⟩ := ueFault_unit u (cwLcid q) (nowCyc u) (cwAddr q / 64)
    rw [← hr] at hunit hid hcode
    obtain ⟨hregs, hlog⟩ := takeFaults_core hunit (hid ▸ cwLcid_lt q) u
    rw [hfault]
    exact ⟨fun g hg => hregs.getF_eq (cwFlds_taken hn g hg), fun _ => ⟨_, hlog, hcode, hid⟩⟩
  · have hnone : cwFaults u q .uncorrectable = [] := by
      unfold cwFaults
      rw [if_pos h0]
    rw [hnone]
    exact ⟨fun _ _ => rfl, fun h => absurd h h0⟩

theorem coreWinDone_uncorrectable {n : Nat} (hn : n < 5) (q : List Nat) (s : State) :
    let t := cwReadDone n q .uncorrectable (leftWindow n s)
    getF t (R.CW_DATA.DATA n) = 0 ∧ getF t (R.CW_STA.UE n) = 1 ∧ raised E.CORE_WIN.CW_UE t ∧
      (cwTarget q = 0 → ∃ x, smGet none t.flt.log (getF s R.FLT_LOG_HEAD.SEQ % 1024) = some x ∧
        (x.code = 0x17 ∨ x.code = 0x18) ∧ x.unitId = cwLcid q) := by
  intro t
  obtain ⟨u, hu⟩ : ∃ u, u = readShown n true (windowWord q (leftWindow n s)) (leftWindow n s) := ⟨_, rfl⟩
  have ht : t = takeFaults (cwFaults u q .uncorrectable) u := hu ▸ cwReadDone_eq n q .uncorrectable (leftWindow n s)
  have hseq : getF u R.FLT_LOG_HEAD.SEQ = getF s R.FLT_LOG_HEAD.SEQ := hu ▸ seq_readShown hn _ _ s
  obtain ⟨hdata, hue⟩ := getF_readShown hn true (windowWord q (leftWindow n s)) (leftWindow n s)
  have hraised : raised E.CORE_WIN.CW_UE u := hu ▸ raised_raise _ _ (by decide)
  obtain ⟨hsame, hlog⟩ := takeFaults_cw hn q u
  rw [ht]
  refine ⟨?_, ?_, ?_, hseq ▸ hlog⟩
  · rw [hsame _ (by simp), hu, hdata]
    rfl
  · rw [hsame _ (by simp), hu, hue]
    rfl
  · unfold raised at hraised ⊢
    rw [show R.PG_EVT.EVT E.CORE_WIN.CW_UE.page = R.PG_EVT.EVT 0x50 from rfl] at hraised ⊢
    rw [hsame _ (by simp), hraised]

/-- An access that ends is `cwDone`. -/
theorem coreWinAccessDone_eq (r : Req) (e : WinEcc) (s : State) :
    exec (.coreWinAccessDone r e) s = .next (cwDone r.no e s) := rfl

/-- Settles O58: the reads, the starts and the ends of CORE_WIN accesses, a clause each. -/
theorem readsLatchTheirWordsAndTheCoreWindowAnswers : Obligations.ReadsLatchTheirWordsAndTheCoreWindowAnswers := by
  refine ⟨pgEvtSeqRead_reads, tickCountLoRead_latches, fun r s hs hd => ⟨tickLaunchLoRead_latches r s hs hd,
    tickJobLoRead_latches r s hs hd⟩, panLowWordRead_latches, panGnsSmall0Read_latches, fun r s hs hd =>
    ⟨fltLogDataRead_moves r s hs hd, atticHistDataRead_moves r s hs hd⟩, cwAddrWrite_answers, cwDataWrite_answers,
    cwDataRead_plain, cwDataRead_advances, ?_⟩
  intro r q e s hq
  have hn := reqNo_lt r
  refine ⟨fun ht => ?_, turn_of_bound hq, fun ht hw hb => ?_, fun ht hw hb => ?_, fun ht hw htrip => ?_, fun ht hw => ?_,
    fun ht hw h0 => ?_⟩
  · rw [coreWinAccessDone_eq]
    simp [cwDone, hq, ht]
  · exact ⟨_, coreWinAccessDone_eq r e s, cwDone_refused hq ht hw hb ▸ coreWinDone_refused hn s⟩
  · exact ⟨_, coreWinAccessDone_eq r e s, cwDone_write hq ht hw hb ▸ coreWinDone_write hn q s⟩
  · exact ⟨_, coreWinAccessDone_eq r .clean s, cwDone_read hq ht hw ▸ coreWinDone_clean hn q htrip⟩
  · exact ⟨_, coreWinAccessDone_eq r .uncorrectable s, cwDone_read hq ht hw ▸ coreWinDone_uncorrectable hn q s⟩
  · exact ⟨_, coreWinAccessDone_eq r .corrected s, cwDone_read hq ht hw ▸ coreWinDone_corrected hn s h0⟩

end Sys2Proof.Machine
end

section
/-! What taking a fault that fences nothing leaves: the registers of a fault, its entry in the log, and the parts that it
may change (R301 to R309). -/

namespace Sys2Proof.Machine

/-- The parts that a fault may change where it fences no unit. -/
def faultParts : List Part := [.regs, .out, .hif, .flt, .hist, .attic, .tick, .ports, .refresh, .secStop]

/-- What `FaultLeaves` says, and of the parts only those of a fault differ. -/
structure FaultStep (m : Nat) (s t : State) : Prop where
  leaves : FaultLeaves m s t
  parts : ChangesOnly faultParts s t

/-- The fault fences no unit: it is no hard one, and no residue of the reduction engine, which fences it when it recurs
(R294, R304). -/
def Unfencing (r : FaultRec) : Prop := r.cls ≠ clHard ∧ r.code ≠ 0x30

theorem unfencing_mkFault {code cls : Nat} (unit id cyc detail : Nat) (hc : cls ≠ clHard) (h : code ≠ 0x30) :
    Unfencing (mkFault code cls unit id cyc detail) := ⟨hc, h⟩

theorem FaultStep.refl (s : State) : FaultStep 0 s s := ⟨.refl s, .refl _ s⟩

theorem FaultStep.trans {m k : Nat} {s t u : State} (h : FaultStep m s t) (h' : FaultStep k t u) : FaultStep (m + k) s u :=
  ⟨h.leaves.trans h'.leaves, h.parts.trans h'.parts⟩

theorem FaultStep.mono {m k : Nat} {s t : State} (h : FaultStep m s t) (hk : m ≤ k) : FaultStep k s t :=
  ⟨h.leaves.mono hk, h.parts⟩

/-- A known step whose parts are among a fault's. -/
theorem FaultStep.of_parts {m : Nat} {ps : List Part} {s t : State} (h : FaultLeaves m s t) (hp : ChangesOnly ps s t)
    (hs : ps ⊆ faultParts) : FaultStep m s t := ⟨h, hp.mono hs⟩

theorem faultStep_raise (e : Ev) (s : State) (he : evFlds e ⊆ takenFlds)
    (hseq : fldKey R.FLT_LOG_HEAD.SEQ ∉ (evFlds e).map fldKey) : FaultStep 0 s (raise e s) :=
  .of_parts (faultLeaves_raise e s he hseq) (changesOnly_raise e s) (by decide)

theorem faultStep_setF (s : State) {f : Fld} (v : Nat) (hf : f ∈ takenFlds)
    (hseq : fldKey R.FLT_LOG_HEAD.SEQ ≠ fldKey f) : FaultStep 0 s (setF s f v) :=
  .of_parts (faultLeaves_setF s v hf hseq) (changesOnly_setF s f v) (by decide)

theorem faultStep_logEntry (r : FaultRec) (b : Bool) (s : State) : FaultStep 1 s (logEntry r b s) :=
  .of_parts (faultLeaves_logEntry r b s) (changesOnly_logEntry r b s) (by decide)

/-! ### Histories (R319, R320) -/

theorem changesOnly_withHist (s : State) (h : SMap Hist) : ChangesOnly [.hist] s { s with hist := h } := fun p hp => by
  cases p <;> simp_all [Part.same]

theorem faultStep_histRec (h : SMap Hist) (k : Nat) (s : State) : FaultStep 0 s (queueRec k { s with hist := h }) :=
  ⟨faultLeaves_histRec h k s,
    ((changesOnly_withHist s h).mono (by decide)).trans ((changesOnly_queueRec k _).mono (by decide))⟩

theorem faultStep_markPermanent (unit id : Nat) (s : State) : FaultStep 1 s (markPermanent unit id s) := by
  have hlog : ∀ h k, FaultStep 1 s (logOnly 0x47 unit id 0 0 (queueRec k { s with hist := h })) := fun h k =>
    (faultStep_histRec h k s).trans (faultStep_logEntry _ _ _)
  unfold markPermanent
  dsimp only
  split
  · exact (FaultStep.refl s).mono (by decide)
  · split
    · exact hlog _ _
    · exact ((hlog _ _).trans (faultStep_setF _ _ (by decide) (by decide))).trans
        (faultStep_raise _ _ (by decide) (by decide))

theorem faultStep_histEvent (unit id : Nat) (s : State) : FaultStep 1 s (histEvent unit id s) := by
  have hpend : ∀ h k v, FaultStep 0 s (setF (queueRec k { s with hist := h }) R.FLT_STA.PENDING v) := fun h k v =>
    (faultStep_histRec h k s).trans (faultStep_setF _ _ (by decide) (by decide))
  unfold histEvent
  split
  · exact (FaultStep.refl s).mono (by decide)
  · dsimp only
    split
    · split
      · exact (hpend _ _ _).trans (faultStep_markPermanent _ _ _)
      · exact (hpend _ _ _).mono (by decide)
    · exact (hpend _ _ _).mono (by decide)

theorem faultStep_logFault (r : FaultRec) (s : State) : FaultStep 2 (logEntry r (recurs r s) s) (logFault r s) := by
  unfold logFault
  dsimp only
  split
  · exact (FaultStep.refl _).mono (by decide)
  · split
    · exact (faultStep_histEvent _ _ _).trans (faultStep_markPermanent _ _ _)
    · exact (faultStep_histEvent _ _ _).mono (by decide)

/-! ### Flags and drains (R305, R307, R309, R316, R428) -/

theorem changesOnly_recordFlag (cause seq : Nat) (s : State) : ChangesOnly [.regs] s (recordFlag cause seq s) := by
  unfold recordFlag
  split
  · exact .refl _ s
  · exact changesOnly_setFs s _

theorem changesOnly_setTop (v : Nat) (s : State) : ChangesOnly [.regs, .out, .hif] s (setTop v s) := by
  unfold setTop
  split
  · exact .refl _ s
  · exact ((changesOnly_setF s _ _).mono (by simp)).trans (changesOnly_raise _ _)

theorem changesOnly_goFlagged (s : State) : ChangesOnly [.regs, .out, .hif] s (goFlagged s) := by
  unfold goFlagged
  split
  · exact .refl _ s
  · exact (changesOnly_setTop _ s).trans (changesOnly_raise _ _)

theorem changesOnly_idleFlag (cause : Nat) (s : State) : ChangesOnly [.regs, .out, .hif] s (idleFlag cause s) := by
  unfold idleFlag
  split
  · exact .refl _ s
  · split
    · exact changesOnly_goFlagged s
    · split
      · exact changesOnly_goFlagged s
      · exact .refl _ s

theorem changesOnly_setSuspect (s : State) : ChangesOnly [.regs, .out, .hif, .attic] s (setSuspect s) := by
  unfold setSuspect
  split
  · exact .refl _ s
  · exact ((changesOnly_setF s _ _).mono (by simp)).trans
      (((changesOnly_raise _ _).mono (by simp)).trans (changesOnly_queueRec _ _))

theorem faultStep_recordFlag (cause seq : Nat) (s : State) : FaultStep 0 s (recordFlag cause seq s) :=
  .of_parts (faultLeaves_recordFlag cause seq s) (changesOnly_recordFlag cause seq s) (by decide)

theorem faultStep_faultDrain (s : State) : FaultStep 0 s (faultDrain s) :=
  .of_parts (faultLeaves_faultDrain s) (changesOnly_withTick s _) (by decide)

theorem faultStep_silentError (seq : Nat) (s : State) : FaultStep 0 s (silentError seq s) :=
  ((FaultStep.of_parts (faultLeaves_setSuspect s) (changesOnly_setSuspect s) (by decide)).trans
    (faultStep_recordFlag _ _ _)).trans (faultStep_faultDrain _)

/-! ### Overruns and voids (R29, R32, R33) -/

theorem changesOnly_quiesce (why : Option (Nat × Nat)) (s : State) : ChangesOnly [.tick] s (quiesce why s) := by
  unfold quiesce
  split
  · exact changesOnly_withTick s _
  · exact .refl _ s

theorem changesOnly_voidSelf (why : Option (Nat × Nat)) (s : State) :
    ChangesOnly [.regs, .out, .hif, .flt, .tick, .ports, .refresh] s (voidSelf why s) := by
  have h0 : ChangesOnly [.regs, .out, .hif, .flt, .tick, .ports, .refresh] s
      (quiesce why (postpone (sendVoid (myId s) (tickNum s) s))) :=
    ((changesOnly_broadcast _ _ s).mono (by simp)).trans <|
      ((changesOnly_postpone _).mono (by simp)).trans ((changesOnly_quiesce _ _).mono (by simp))
  unfold voidSelf withdraw
  dsimp only
  split
  · exact h0.trans ((changesOnly_declareOverrun _ _).mono (by simp))
  · exact h0

/-! ### The outcome -/

theorem faultStep_outcome {r : FaultRec} (hr : Unfencing r) (recur : Bool) (seq : Nat) (s : State) :
    FaultStep 2 s (faultOutcome r recur seq s) := by
  obtain ⟨hard, residue⟩ := hr
  have hflag : ∀ c n u, FaultStep 0 u (recordFlag c n u) := faultStep_recordFlag
  have hover : ∀ u, FaultStep 1 u (declareOverrun 5 u) := fun u =>
    .of_parts (faultLeaves_declareOverrun 5 u) (changesOnly_declareOverrun 5 u) (by decide)
  have hsec : ∀ m, FaultStep 0 s { s with secStop := m } := fun m =>
    .of_parts (ps := [.secStop]) (.of_same rfl rfl) (fun p hp => by cases p <;> simp_all [Part.same]) (by decide)
  have hperm : FaultStep 1 s (if recur then recordFlag (recurCause r) seq
      (if hasHist r.unit then markPermanent r.unit r.unitId s else s) else s) := by
    split
    · split
      · exact (faultStep_markPermanent _ _ s).trans (hflag _ _ _)
      · exact (hflag _ _ s).mono (by decide)
    · exact (FaultStep.refl s).mono (by decide)
  unfold faultOutcome
  dsimp only
  rw [if_neg hard, if_neg hard,
    if_neg (show ¬ (r.cls = clHard ∨ (recur = true ∧ r.code = 0x30)) by simp [hard, residue])]
  split
  · exact (FaultStep.refl s).mono (by decide)
  split
  · exact ((hflag _ _ _).trans (.of_parts (faultLeaves_idleFlag _ _) (changesOnly_idleFlag _ _) (by decide))).mono (by decide)
  split
  · exact (hflag _ _ _).mono (by decide)
  split
  · exact (hperm.trans (hflag _ _ _)).trans (hover _)
  split
  · exact (hsec _).mono (by decide)
  split
  · exact (faultStep_silentError _ s).mono (by decide)
  · exact (FaultStep.of_parts (faultLeaves_voidSelf _ s) (changesOnly_voidSelf _ s) (by decide)).mono (by decide)

/-- What is left of a fault that fences nothing: its entry where the head was, the registers beside a fault's, and the
parts beside a fault's. -/
structure FaultTaken (r : FaultRec) (s t : State) : Prop where
  regs : RegsBut takenFlds s t
  entry : smGet none t.flt.log (getF s R.FLT_LOG_HEAD.SEQ % 1024) = some (entryOf r (recurs r s) s)
  parts : ChangesOnly faultParts s t

theorem takeFault_taken {r : FaultRec} (hr : Unfencing r) (s : State) : FaultTaken r s (takeFault r s) := by
  have hrest := (faultStep_logFault r s).trans (faultStep_outcome hr (recurs r s) (getF s R.FLT_LOG_HEAD.SEQ) (logFault r s))
  have hlog := faultStep_logEntry r (recurs r s) s
  unfold takeFault
  rw [takeFaults_one]
  refine ⟨hlog.leaves.regs.trans hrest.leaves.regs, ?_, hlog.parts.trans hrest.parts⟩
  obtain ⟨d, hd, _, hkept⟩ := hrest.leaves.log
  rw [hkept _ fun i hi => ?_, logEntry_log]
  rw [seq_logEntry]
  omega

/-- An event beside a fault's fields stays raised. -/
theorem FaultTaken.raised_kept {r : FaultRec} {s t : State} (h : FaultTaken r s t) {e : Ev}
    (he : fldKey (R.PG_EVT.EVT e.page) ∉ takenFlds.map fldKey) (hr : raised e s) : raised e t := by
  unfold raised at hr ⊢
  rwa [h.regs.getF_eq he]

end Sys2Proof.Machine
end

section
/-! Discovery, the cross-connect and the replay of a bundle's flit (R51, R52, R55, R56, R58), and O41. -/

namespace Sys2Proof.Machine

/-! ### Discovery (R51, R52) -/

theorem getDisc_updDisc (s : State) (k j : Nat) (f : Disc → Disc) :
    getDisc (updDisc s k f) j = if k = j then f (getDisc s k) else getDisc s j := smGet_smUpd _ _ _ _ _

theorem getDisc_updDisc_same (s : State) (k : Nat) (f : Disc → Disc) : getDisc (updDisc s k f) k = f (getDisc s k) := by
  rw [getDisc_updDisc, if_pos rfl]

theorem getDisc_updDisc_other (s : State) (f : Disc → Disc) {k j : Nat} (h : j ≠ k) :
    getDisc (updDisc s k f) j = getDisc s j := by
  rw [getDisc_updDisc, if_neg h.symm]

theorem changesOnly_withBu (s : State) (b : Bringup) : ChangesOnly [.bu] s { s with bu := b } := fun p hp => by
  cases p <;> simp_all [Part.same]

theorem changesOnly_updDisc (s : State) (k : Nat) (f : Disc → Disc) : ChangesOnly [.bu] s (updDisc s k f) :=
  changesOnly_withBu s _

/-- A die's probe of a port that has not answered. -/
def probed (req : List Byte) (q : Disc) : Disc := if q.answered then q else { q with req := req, tries := max 1 q.tries }

theorem probePorts_eq (d id : Nat) (s : State) :
    probePorts d id s = updDisc (updDisc (updDisc s (4 + stackOn d 0) (probed (dieReq s d id 0)))
      (4 + stackOn d 1) (probed (dieReq s d id 1))) (4 + stackOn d 2) (probed (dieReq s d id 2)) := rfl

theorem getDisc_probePorts (d id : Nat) {p : Nat} (hp : p < 3) (s : State) :
    getDisc (probePorts d id s) (4 + stackOn d p) = probed (dieReq s d id p) (getDisc s (4 + stackOn d p)) := by
  rw [probePorts_eq]
  have : p = 0 ∨ p = 1 ∨ p = 2 := by omega
  rcases this with rfl | rfl | rfl <;> simp [getDisc_updDisc, stackOn]

theorem getDisc_probePorts_other (d id : Nat) {k : Nat} (hk : k < 4) (s : State) :
    getDisc (probePorts d id s) k = getDisc s k := by
  have hne : ∀ p, k ≠ 4 + stackOn d p := fun p => by omega
  rw [probePorts_eq, getDisc_updDisc_other _ _ (hne 2), getDisc_updDisc_other _ _ (hne 1), getDisc_updDisc_other _ _ (hne 0)]

theorem changesOnly_probePorts (d id : Nat) (s : State) : ChangesOnly [.bu] s (probePorts d id s) :=
  (changesOnly_updDisc s _ _).trans ((changesOnly_updDisc _ _ _).trans (changesOnly_updDisc _ _ _))

theorem discReq_spoilt {d : DieNo} {port : Option (Fin 3)} {frame : List Byte} {s : State}
    (h : probing s = false ∨ discGood frame = false ∨ frame ≠ (getDisc s (discKey d port)).req) :
    exec (.discReq d port frame) s = .next s := by
  have hc : (!probing s || !discGood frame || frame != (getDisc s (discKey d port)).req) = true := by
    rcases h with h | h | h <;> simp [h]
  show execDiscReq d port frame s = _
  simp only [execDiscReq, if_pos hc]

theorem discReq_whole {d : DieNo} {port : Option (Fin 3)} {frame : List Byte} {s : State} (hp : probing s = true)
    (hg : discGood frame = true) (hf : frame = (getDisc s (discKey d port)).req) :
    (!probing s || !discGood frame || frame != (getDisc s (discKey d port)).req) = false := by
  simp [hp, hg, ← hf]

/-- A stack takes its identity and answers. -/
theorem discReq_stack {d : DieNo} {port : Fin 3} {frame : List Byte} {s : State} (hp : probing s = true)
    (hg : discGood frame = true) (hf : frame = (getDisc s (4 + stackOn d port)).req) :
    exec (.discReq d (some port) frame) s = .next (updDisc s (4 + stackOn d port) fun q =>
      { q with taken := some (leNat ((frame.drop 2).take 1)),
               rsp := discFrame 2 2 (leNat ((frame.drop 2).take 1)) (leNat ((frame.drop 3).take 1))
                 (stackId s (stackOn d port)) }) := by
  show execDiscReq d (some port) frame s = _
  unfold execDiscReq
  dsimp only
  rw [discReq_whole (port := some port) hp hg hf]
  rfl

/-- A die takes its number, answers and probes its memory ports. -/
theorem discReq_die {d : DieNo} {frame : List Byte} {s : State} (hp : probing s = true)
    (hg : discGood frame = true) (hf : frame = (getDisc s d).req) :
    exec (.discReq d none frame) s = .next (probePorts d (leNat ((frame.drop 2).take 1)) (updDisc s d fun q =>
      { q with taken := some (leNat ((frame.drop 2).take 1)),
               rsp := discFrame 2 1 (leNat ((frame.drop 2).take 1)) (leNat ((frame.drop 3).take 1)) (dieId s d) })) := by
  show execDiscReq d none frame s = _
  unfold execDiscReq
  dsimp only
  rw [discReq_whole (port := none) hp hg hf]
  rfl

theorem discRsp_whole {d : DieNo} {port : Option (Fin 3)} {frame : List Byte} {s : State} (hp : probing s = true)
    (hg : discGood frame = true) (hf : frame = (getDisc s (discKey d port)).rsp) :
    exec (.discRsp d port frame) s = .next (updDisc s (discKey d port) fun q =>
      if q.gaveUp then q else { q with answered := true, ident := frame }) := by
  have hc : (!probing s || !discGood frame || frame != (getDisc s (discKey d port)).rsp) = false := by simp [hp, hg, ← hf]
  show execDiscRsp d port frame s = _
  unfold execDiscRsp
  dsimp only
  rw [hc]
  rfl

/-! ### Tries and failed bundles (R51, R52, R54) -/

theorem discRetry_again {d : DieNo} {port : Option (Fin 3)} {s : State} (hp : probing s = true)
    (ha : (getDisc s (discKey d port)).answered = false) (hg : (getDisc s (discKey d port)).gaveUp = false)
    (h0 : 0 < (getDisc s (discKey d port)).tries) (h10 : (getDisc s (discKey d port)).tries < 10) :
    exec (.discRetry d port) s = .next (updDisc s (discKey d port) fun q => { q with tries := q.tries + 1 }) := by
  show execDiscRetry d port s = _
  unfold execDiscRetry
  dsimp only
  rw [if_neg (by simp [hp, ha, hg]; omega), if_pos h10]

theorem discRetry_nextBundle {d : DieNo} {s : State} (hp : probing s = true) (ha : (getDisc s d).answered = false)
    (hg : (getDisc s d).gaveUp = false) (h10 : 10 ≤ (getDisc s d).tries) :
    exec (.discRetry d none) s = .next (updDisc (failBundle d (getDisc s d).bundle s) d fun q =>
      { q with tries := 1, bundle := q.bundle + 1, gaveUp := q.bundle == 23 }) := by
  show execDiscRetry d none s = _
  unfold execDiscRetry
  dsimp only [discKey]
  rw [if_neg (by simp [hp, ha, hg]; omega), if_neg (by omega)]
  rfl

/-- The event registers lie beside the failed bundles. -/
theorem failed_ne_evFlds (d : Nat) (e : Ev) : ∀ f ∈ evFlds e, fldKey f ≠ fldKey (R.EDGE_FAIL.FAILED d) := by
  simp only [evFlds, List.mem_cons, List.not_mem_nil, or_false, forall_eq_or_imp, forall_eq, fldKey, R.PG_EVT.EVT,
    R.PG_EVT_SEQ.SEQ, R.PG_EVT_SEQ.LAP, R.EDGE_FAIL.FAILED]
  omega

theorem bitsOf_one_eq_one_iff (w b : Nat) : bitsOf w b 1 = 1 ↔ w.testBit b = true := by
  rw [bitsOf_one]
  split <;> simp_all

/-- The failed bundles after one more. -/
theorem failed_failBundle (d b : Nat) (s : State) {c : Nat} (hc : c < 24) :
    (getF (failBundle d b s) (R.EDGE_FAIL.FAILED d)).testBit c =
      ((getF s (R.EDGE_FAIL.FAILED d)).testBit c || decide (c = b)) := by
  unfold failBundle
  split
  · next h =>
    rw [bitsOf_one_eq_one_iff] at h
    by_cases hb : c = b
    · rw [hb, h]; rfl
    · simp [hb]
  · rw [getF_raise_other _ _ _ (failed_ne_evFlds d _), getF_setF, Nat.testBit_mod_two_pow, Nat.testBit_or,
      Nat.testBit_two_pow]
    simp [R.EDGE_FAIL.FAILED, hc, eq_comm]

theorem changesOnly_failBundle (d b : Nat) (s : State) : ChangesOnly [.regs, .out, .hif] s (failBundle d b s) := by
  unfold failBundle
  split
  · exact .refl _ s
  · exact ((changesOnly_setF s _ _).mono (by simp)).trans (changesOnly_raise _ _)

/-! ### The cross-connect (R55, R56) -/

theorem length_takeWhile_ne (l : List Nat) (b : Nat) : (l.takeWhile (fun x => x != b)).length = l.idxOf b := by
  induction l with
  | nil => rfl
  | cons a l ih => by_cases h : a = b <;> simp [h, ih]

/-- Two lists joined place by place are joined the other way round. -/
theorem joined_back {l m : List Nat} (hm : m.Nodup) {b x : Nat} (hb : b ∈ l) (h : m[l.idxOf b]? = some x) :
    x ∈ m ∧ l[m.idxOf x]? = some b := by
  obtain ⟨hlt, rfl⟩ := List.getElem?_eq_some_iff.mp h
  refine ⟨List.getElem_mem hlt, ?_⟩
  rw [hm.idxOf_getElem, List.getElem?_eq_getElem (List.idxOf_lt_length_iff.mpr hb), List.getElem_idxOf]

theorem mem_roleBundles {s : State} {d role b : Nat} : b ∈ roleBundles s d role ↔ b < 24 ∧ bundleRole s d b = role := by
  simp [roleBundles]

theorem nodup_roleBundles (s : State) (d role : Nat) : (roleBundles s d role).Nodup := List.nodup_range.filter _

theorem crossConnect_left {s : State} {d b : Nat} (h : bundleRole s d b = 2) :
    crossConnect s d b = (roleBundles s (leftOf d) 3)[(roleBundles s d 2).idxOf b]?.map fun x => (leftOf d, x) := by
  simp [crossConnect, h, length_takeWhile_ne]

theorem crossConnect_right {s : State} {d b : Nat} (h : bundleRole s d b = 3) :
    crossConnect s d b = (roleBundles s (rightOf d) 2)[(roleBundles s d 3).idxOf b]?.map fun x => (rightOf d, x) := by
  simp [crossConnect, h, length_takeWhile_ne]

theorem role_of_crossConnect {s : State} {d b : Nat} {y : Nat × Nat} (h : crossConnect s d b = some y) :
    bundleRole s d b = 2 ∨ bundleRole s d b = 3 := by
  by_contra hn
  simp only [not_or] at hn
  simp [crossConnect, hn] at h

/-- What the cross-connect joins, it joins the other way round. -/
theorem crossConnect_symm {s : State} {d b e x : Nat} (hd : d < 4) (hb : b < 24) (h : crossConnect s d b = some (e, x)) :
    ((bundleRole s d b = 2 ∧ e = (d + 3) % 4 ∧ bundleRole s e x = 3) ∨
      (bundleRole s d b = 3 ∧ e = (d + 1) % 4 ∧ bundleRole s e x = 2)) ∧ crossConnect s e x = some (d, b) := by
  rcases role_of_crossConnect h with hr | hr
  · rw [crossConnect_left hr] at h
    obtain ⟨y, hy, hxy⟩ := Option.map_eq_some_iff.mp h
    obtain ⟨rfl, rfl⟩ := Prod.mk.inj hxy
    obtain ⟨hmem, hback⟩ := joined_back (nodup_roleBundles _ _ _) (mem_roleBundles.mpr ⟨hb, hr⟩) hy
    have hrole := (mem_roleBundles.mp hmem).2
    have hd' : rightOf (leftOf d) = d := by unfold rightOf leftOf; omega
    refine ⟨.inl ⟨hr, rfl, hrole⟩, ?_⟩
    rw [crossConnect_right hrole, hd', hback]
    rfl
  · rw [crossConnect_right hr] at h
    obtain ⟨y, hy, hxy⟩ := Option.map_eq_some_iff.mp h
    obtain ⟨rfl, rfl⟩ := Prod.mk.inj hxy
    obtain ⟨hmem, hback⟩ := joined_back (nodup_roleBundles _ _ _) (mem_roleBundles.mpr ⟨hb, hr⟩) hy
    have hrole := (mem_roleBundles.mp hmem).2
    have hd' : leftOf (rightOf d) = d := by unfold rightOf leftOf; omega
    refine ⟨.inr ⟨hr, rfl, hrole⟩, ?_⟩
    rw [crossConnect_left hrole, hd', hback]
    rfl

/-! ### The flits of a bundle (R58) -/

theorem resendsOf_setResends (k : Nat) (l : List Nat) (s : State) : resendsOf (setResends k l s) k = l := by
  unfold resendsOf setResends
  exact (smGet_smSet _ _ _ _ _).trans (if_pos rfl)

theorem resendsOf_congr {s t : State} (h : t.bu.resend = s.bu.resend) (k : Nat) : resendsOf t k = resendsOf s k := by
  unfold resendsOf; rw [h]

theorem flitsOf_congr {s t : State} (h : t.bu.flits = s.bu.flits) (k : Nat) : flitsOf t k = flitsOf s k := by
  unfold flitsOf; rw [h]

theorem berOf_congr {s t : State} (h : t.bu.ber = s.bu.ber) (k : Nat) : berOf t k = berOf s k := by
  unfold berOf; rw [h]

theorem resendsOf_holdFlit (k j q : Nat) (s : State) : resendsOf (holdFlit k q s) j = resendsOf s j := resendsOf_congr rfl j

theorem resendsOf_addBer (k j i n : Nat) (s : State) : resendsOf (addBer k i n s) j = resendsOf s j := resendsOf_congr rfl j

theorem flitsOf_addBer (k j i n : Nat) (s : State) : flitsOf (addBer k i n s) j = flitsOf s j := flitsOf_congr rfl j

theorem flitsOf_setResends (k j : Nat) (l : List Nat) (s : State) : flitsOf (setResends k l s) j = flitsOf s j :=
  flitsOf_congr rfl j

theorem berOf_setResends (k j : Nat) (l : List Nat) (s : State) : berOf (setResends k l s) j = berOf s j := berOf_congr rfl j

theorem berOf_holdFlit (k j q : Nat) (s : State) : berOf (holdFlit k q s) j = berOf s j := berOf_congr rfl j

theorem changesOnly_setResends (k : Nat) (l : List Nat) (s : State) : ChangesOnly [.bu] s (setResends k l s) :=
  changesOnly_withBu s _

theorem changesOnly_holdFlit (k q : Nat) (s : State) : ChangesOnly [.bu] s (holdFlit k q s) := changesOnly_withBu s _

theorem changesOnly_addBer (k i n : Nat) (s : State) : ChangesOnly [.bu] s (addBer k i n s) := changesOnly_withBu s _

/-- The flit that enters the replay buffer stands in it. -/
theorem mem_flitsOf_holdFlit (k q : Nat) (s : State) : q ∈ flitsOf (holdFlit k q s) k := by
  unfold flitsOf holdFlit
  dsimp only
  rw [smGet_smSet, if_pos rfl, List.drop_append_of_le_length (by simp)]
  simp

theorem berOf_ne_nil (s : State) (k : Nat) : berOf s k ≠ [] := by
  unfold berOf
  split <;> simp_all

theorem berOf_addBer (k i n : Nat) (s : State) :
    berOf (addBer k i n s) k = (berOf s k).set i (satAdd 255 ((berOf s k).getD i 0) n) := by
  have hne : (berOf s k).set i (satAdd 255 ((berOf s k).getD i 0) n) ≠ [] := by simp [berOf_ne_nil]
  generalize hl : (berOf s k).set i (satAdd 255 ((berOf s k).getD i 0) n) = l at hne
  have hget : smGet [] (addBer k i n s).bu.ber k = if l = [0, 0, 0] then [] else l := by
    subst hl
    exact (smGet_smSet _ _ _ _ _).trans (if_pos rfl)
  unfold berOf
  rw [hget]
  by_cases hz : l = [0, 0, 0]
  · rw [if_pos hz, hz]
  · rw [if_neg hz]
    split
    · contradiction
    · rfl

/-- The resends counted. -/
theorem resends_addBer (k n : Nat) (s : State) :
    (berOf (addBer k 0 n s) k).getD 0 0 = satAdd 255 ((berOf s k).getD 0 0) n := by
  rw [berOf_addBer]
  obtain ⟨a, l, hl⟩ := List.exists_cons_of_ne_nil (berOf_ne_nil s k)
  rw [hl]
  rfl

/-- No flit has left the buffer that is still awaited. -/
theorem expireResends_of_held {d k : Nat} {s : State} (h : ∀ x ∈ resendsOf s k, x ∈ flitsOf s k) :
    expireResends d k s = s := by
  have hf : (resendsOf s k).filter (fun x => (flitsOf s k).contains x) = resendsOf s k :=
    List.filter_eq_self.mpr fun x hx => by simpa using h x hx
  unfold expireResends
  exact if_pos (congrArg List.length hf)

/-- An awaited flit that has left the buffer is beyond link replay. -/
theorem expireResends_of_gone {d k x : Nat} {s : State} (hx : x ∈ resendsOf s k) (hg : x ∉ flitsOf s k) :
    expireResends d k s =
      beyondReplay d k (setResends k ((resendsOf s k).filter fun x => (flitsOf s k).contains x) s) := by
  have hlen : ((resendsOf s k).filter fun x => (flitsOf s k).contains x).length ≠ (resendsOf s k).length := fun he =>
    hg (by simpa using List.filter_eq_self.mp (List.filter_sublist.eq_of_length he) x hx)
  unfold expireResends
  exact if_neg hlen

/-- Link replay has failed: the awaited flits stay, the event is raised, and the fault is logged of the bundle. -/
theorem beyondReplay_spec (d : DieNo) (k : Nat) (s : State) :
    resendsOf (beyondReplay d k s) k = resendsOf s k ∧ raised (E.EDGE.BEYOND_REPLAY d) (beyondReplay d k s) ∧
      ∃ e, smGet none (beyondReplay d k s).flt.log (getF s R.FLT_LOG_HEAD.SEQ % 1024) = some e ∧ e.code = 0x38 ∧
        e.unitId = k := by
  have hevt : ∀ d : DieNo, fldKey (R.PG_EVT.EVT (E.EDGE.BEYOND_REPLAY d).page) ∉ takenFlds.map fldKey := by decide
  have hbit : ∀ d : DieNo, (E.EDGE.BEYOND_REPLAY d).bit < 16 := by decide
  have hhead : ∀ d : DieNo, ∀ f ∈ evFlds (E.EDGE.BEYOND_REPLAY d), fldKey f ≠ fldKey R.FLT_LOG_HEAD.SEQ := by decide
  obtain ⟨u, hu⟩ : ∃ u, u = raise (E.EDGE.BEYOND_REPLAY d) (addBer k 1 1 s) := ⟨_, rfl⟩
  have htaken := takeFault_taken (unfencing_mkFault uBundle k 0 0 (cls := clVoid) (code := 0x38) (by decide) (by decide)) u
  have hseq : getF u R.FLT_LOG_HEAD.SEQ = getF s R.FLT_LOG_HEAD.SEQ := by
    rw [hu, getF_raise_other _ _ _ (hhead d)]
    exact getF_congr (changesOnly_addBer k 1 1 s .regs (by decide)) _
  have hbu : (beyondReplay d k s).bu = (addBer k 1 1 s).bu := by
    unfold beyondReplay
    rw [← hu, htaken.parts .bu (by decide), hu]
    exact raise_bu _ _
  refine ⟨?_, ?_, ?_⟩
  · rw [resendsOf_congr (congrArg Bringup.resend hbu), resendsOf_addBer]
  · unfold beyondReplay
    rw [← hu]
    exact htaken.raised_kept (hevt d) (hu ▸ raised_raise _ _ (hbit d))
  · unfold beyondReplay
    rw [← hu, ← hseq]
    exact ⟨_, htaken.entry, rfl, rfl⟩

theorem bundleFlit_awaited {d : DieNo} {b : Fin 24} {seq : Nat} {bad : Bool} {s : State}
    (h : seq % 1024 ∈ resendsOf s (bundleKey d b)) :
    exec (.bundleFlit d b seq bad) s = .next
      (let t := setResends (bundleKey d b) ((resendsOf s (bundleKey d b)).filter fun x => x != seq % 1024) s
       if bad then beyondReplay d (bundleKey d b) t else t) := by
  show execBundleFlit d b seq bad s = _
  unfold execBundleFlit
  dsimp only
  rw [if_pos (by simpa using h)]

theorem bundleFlit_new {d : DieNo} {b : Fin 24} {seq : Nat} {bad : Bool} {s : State}
    (h : seq % 1024 ∉ resendsOf s (bundleKey d b)) :
    exec (.bundleFlit d b seq bad) s = .next
      (let t := expireResends d (bundleKey d b) (holdFlit (bundleKey d b) (seq % 1024) s)
       if bad then addBer (bundleKey d b) 0 1 (setResends (bundleKey d b) (resendsOf t (bundleKey d b) ++ [seq % 1024]) t)
       else t) := by
  show execBundleFlit d b seq bad s = _
  unfold execBundleFlit
  dsimp only
  rw [if_neg (by simpa using h)]

/-! ### O41 -/

/-- Settles O41: discovery by what `updDisc` leaves, the cross-connect by `crossConnect_symm`, a flit by
`bundleFlit_new`, `bundleFlit_awaited` and `beyondReplay_spec`. -/
theorem discoveryAndBundleReplay : Obligations.DiscoveryAndBundleReplay := by
  refine ⟨?_, ?_, fun d port frame s h => discReq_spoilt h, ?_, ?_, ?_, fun d b e x s => crossConnect_symm, ?_, ?_, ?_, ?_⟩
  · intro d port frame s hp hg hf id
    exact ⟨_, discReq_stack hp hg hf, getDisc_updDisc_same _ _ _, fun k hk => getDisc_updDisc_other _ _ hk,
      changesOnly_updDisc _ _ _⟩
  · intro d frame s hp hg hf id
    refine ⟨_, discReq_die hp hg hf, ?_, ?_, fun p hp3 ha => ?_,
      (changesOnly_updDisc _ _ _).trans (changesOnly_probePorts _ _ _)⟩
    · rw [getDisc_probePorts_other _ _ d.isLt, getDisc_updDisc_same]
    · rw [getDisc_probePorts_other _ _ d.isLt, getDisc_updDisc_same]
    · have hne : 4 + stackOn d p ≠ d := by have := d.isLt; omega
      show (getDisc _ (4 + stackOn d p)).req = _ ∧ 0 < (getDisc _ (4 + stackOn d p)).tries
      rw [getDisc_probePorts _ _ hp3, getDisc_updDisc_other _ _ hne, probed,
        if_neg (show ¬ (getDisc s (4 + stackOn d p)).answered = true from ne_true_of_eq_false ha)]
      exact ⟨rfl, Nat.lt_of_lt_of_le Nat.one_pos (Nat.le_max_left _ _)⟩
  · intro d port frame s hp hg hf hgave
    refine ⟨_, discRsp_whole hp hg hf, ?_, fun k hk => getDisc_updDisc_other _ _ hk, changesOnly_updDisc _ _ _⟩
    rw [getDisc_updDisc_same, if_neg (by simp [hgave])]
  · intro d port s hp ha hg h0 h10
    exact ⟨_, discRetry_again hp ha hg h0 h10, getDisc_updDisc_same _ _ _, changesOnly_updDisc _ _ _⟩
  · intro d s hp ha hg h10 hb
    have hdisc : getDisc (failBundle d (getDisc s d).bundle s) d = getDisc s d := by
      unfold getDisc
      rw [changesOnly_failBundle _ _ s .bu (by decide)]
    refine ⟨_, discRetry_nextBundle hp ha hg h10, ?_, ?_, ?_, ?_⟩
    · rw [getF_congr (changesOnly_updDisc _ _ _ .regs (by decide)), bitsOf_one_eq_one_iff, failed_failBundle _ _ _ hb]
      simp
    all_goals rw [getDisc_updDisc_same, hdisc]
    simp
  · intro d b seq s k hq hheld
    refine ⟨_, bundleFlit_new hq, ?_⟩
    dsimp only
    rw [if_pos rfl, expireResends_of_held (s := holdFlit k (seq % 1024) s) hheld, resendsOf_holdFlit, resendsOf_addBer,
      resendsOf_setResends, flitsOf_addBer, flitsOf_setResends, resends_addBer, berOf_setResends, berOf_holdFlit]
    refine ⟨rfl, mem_flitsOf_holdFlit _ _ _, rfl, ?_⟩
    exact (changesOnly_holdFlit _ _ s).trans ((changesOnly_setResends _ _ _).trans (changesOnly_addBer _ _ _ _))
  · intro d b seq x s k hq hx hgone
    refine ⟨_, bundleFlit_new hq, ?_⟩
    dsimp only
    rw [if_neg (by simp), expireResends_of_gone (d := d) (s := holdFlit k (seq % 1024) s) hx hgone]
    obtain ⟨hres, hevt, hlog⟩ := beyondReplay_spec d k (setResends k
      ((resendsOf (holdFlit k (seq % 1024) s) k).filter fun x => (flitsOf (holdFlit k (seq % 1024) s) k).contains x)
      (holdFlit k (seq % 1024) s))
    refine ⟨?_, hevt, hlog⟩
    rw [hres, resendsOf_setResends]
    simp [hgone]
  · intro d b seq s hq
    refine ⟨_, bundleFlit_awaited hq, ?_⟩
    dsimp only
    rw [if_pos rfl]
    obtain ⟨hres, hevt, hlog⟩ := beyondReplay_spec d (bundleKey d b) (setResends (bundleKey d b)
      ((resendsOf s (bundleKey d b)).filter fun x => x != seq % 1024) s)
    refine ⟨?_, hevt, hlog⟩
    rw [hres, resendsOf_setResends]
    simp
  · intro d b seq s hq
    exact ⟨_, bundleFlit_awaited hq, resendsOf_setResends _ _ _, changesOnly_setResends _ _ _⟩

end Sys2Proof.Machine
end

section
/-! Several register fields written together, and an event raised under a condition. -/

namespace Sys2Proof.Machine

/-- A field of a list that names no field twice reads the value listed. -/
theorem getF_setFs {l : List (Fld × Nat)} (hl : (l.map fun e => fldKey e.1).Nodup) {f : Fld} {v : Nat} (h : (f, v) ∈ l)
    (s : State) : getF (setFs s l) f = v % 2 ^ f.width := by
  induction l generalizing s with
  | nil => simp at h
  | cons e l ih =>
    obtain ⟨hne, hnd⟩ := List.nodup_cons.mp (by simpa only [List.map_cons] using hl)
    rcases List.mem_cons.mp h with rfl | h
    · show getF (setFs (setF s f v) l) f = _
      rw [getF_setFs_other _ _ _ fun x hx he =>
        hne (he ▸ List.mem_map_of_mem (f := fun e : Fld × Nat => fldKey e.1) hx), getF_setF]
    · exact ih hnd h _

theorem getF_setFs_lt {l : List (Fld × Nat)} (hl : (l.map fun e => fldKey e.1).Nodup) {f : Fld} {v : Nat} (h : (f, v) ∈ l)
    (hv : v < 2 ^ f.width) (s : State) : getF (setFs s l) f = v := (getF_setFs hl h s).trans (Nat.mod_eq_of_lt hv)

theorem changesOnly_setB (s : State) (f : Fld) (b : Bool) : ChangesOnly [.regs] s (setB s f b) := changesOnly_setF s f _

theorem regsBut_setB {fs : List Fld} (s : State) {f : Fld} (b : Bool) (hf : f ∈ fs) : RegsBut fs s (setB s f b) :=
  regsBut_setF s _ hf

theorem raisedKept_setB (s : State) {f : Fld} (b : Bool) (h : NotEvt f) : RaisedKept s (setB s f b) := raisedKept_setF s _ h

theorem changesOnly_raiseIf (b : Bool) (e : Ev) (s : State) : ChangesOnly [.regs, .out, .hif] s (raiseIf b e s) := by
  cases b
  · exact .refl _ s
  · exact changesOnly_raise e s

theorem regsBut_raiseIf {fs : List Fld} (b : Bool) (e : Ev) (s : State) (he : evFlds e ⊆ fs) :
    RegsBut fs s (raiseIf b e s) := by
  cases b
  · exact .refl _ s
  · exact regsBut_raise e s he

theorem raisedKept_raiseIf (b : Bool) (e : Ev) (s : State) : RaisedKept s (raiseIf b e s) := by
  cases b
  · exact .refl s
  · exact raisedKept_raise e s

theorem changesOnly_onGuest (f : Guest → Guest) (s : State) : ChangesOnly [.guest] s (onGuest f s) := fun p hp => by
  cases p <;> simp_all [Part.same]

end Sys2Proof.Machine
end

section
/-! The guest's link: what it sends, its acknowledgements, its replay and its retrain (R68, R71). -/

namespace Sys2Proof.Machine

/-! ### Flits sent -/

theorem emitFlit_eq (f : GFlit) (s : State) : emitFlit f s = onGuest (fun g => { g with sent := g.sent ++ [gSealed f] }) s := rfl

/-- Held flits that are sent again go out in their order. -/
theorem foldl_emitFlit (hs : List (GFlit × Nat)) (s : State) :
    hs.foldl (fun s h => emitFlit h.1 s) s =
      onGuest (fun g => { g with sent := g.sent ++ hs.map fun h => gSealed h.1 }) s := by
  induction hs generalizing s with
  | nil => simp [onGuest]
  | cons h hs ih =>
    rw [List.foldl_cons, ih]
    simp [emitFlit_eq, onGuest]

theorem changesOnly_sendLink (s : State) : ChangesOnly [.guest] s (sendLink s) :=
  (changesOnly_onGuest _ s).trans (changesOnly_onGuest _ _)

theorem sendWaiting_of_none {l : List GFlit} (h : l = []) (s : State) : sendWaiting l s = s := by rw [h, sendWaiting]

theorem gDist_self (a : Nat) : gDist a a = 0 := by unfold gDist subMod; omega

/-- A flit is sent at once on a link that is up, with nothing waiting and room in the replay buffer. -/
theorem sendFlit_of_room {f : GFlit} {s : State} (hup : guestUp s = true) (hw : s.guest.wait = [])
    (hh : s.guest.held.length < 1024) :
    sendFlit f s = onGuest (fun g => { g with
      seq := (g.seq + 1) % 4096, held := g.held ++ [({ f with seq := s.guest.seq }, 1)],
      sent := g.sent ++ [gSealed { f with seq := s.guest.seq }] }) s := by
  unfold sendFlit
  rw [if_pos ⟨hup, hw, hh⟩]
  rfl

/-! ### Acknowledgement and replay (R71, R257, R258) -/

/-- A LINK flit that acknowledges and asks for no replay frees the flits held before its ACK. -/
theorem takeLink_acks {f : GFlit} {s : State} (hv : bitsOf f.addr 12 1 = 1) (hn : bitsOf f.addr 13 1 = 0)
    (hd : gDist (f.addr % 4096) (gOldest s.guest) ≤ s.guest.held.length) (hw : s.guest.wait = []) :
    takeLink f s =
      { s with guest := { s.guest with held := s.guest.held.drop (gDist (f.addr % 4096) (gOldest s.guest)) } } := by
  unfold takeLink
  dsimp only
  rw [if_neg (by omega), if_neg (by omega), sendWaiting_of_none (by exact hw)]
  rfl

/-- With no flit sent four times, all that is held is sent again. -/
theorem guestGoback_oldest {s : State} (h : ∀ h ∈ s.guest.held, h.2 < 4) :
    guestGoback (gOldest s.guest) s = onGuest (fun g => { g with
      sent := g.sent ++ g.held.map fun h => gSealed h.1, held := g.held.map fun h => (h.1, h.2 + 1) }) s := by
  have hany : (s.guest.held.any fun h => decide (4 ≤ h.2)) = false := by
    simpa [List.any_eq_false] using h
  have hmap : (s.guest.held.map fun h => if s.guest.held.contains h = true then (h.1, h.2 + 1) else h) =
      s.guest.held.map fun h => (h.1, h.2 + 1) :=
    List.map_congr_left fun x hx => if_pos (by simpa using hx)
  unfold guestGoback
  rw [gDist_self, List.drop_zero]
  dsimp only
  rw [hany, if_neg (by simp), foldl_emitFlit]
  show onGuest _ _ = _
  simp only [onGuest, hmap]

theorem guestReplayTimeout_of_held {s : State} (hup : guestUp s = true) (hne : s.guest.held ≠ [])
    (h : ∀ h ∈ s.guest.held, h.2 < 4) :
    exec .guestReplayTimeout s = .next (onGuest (fun g => { g with
      sent := g.sent ++ g.held.map fun h => gSealed h.1, held := g.held.map fun h => (h.1, h.2 + 1) }) s) := by
  show execGuestReplayTimeout s = _
  unfold execGuestReplayTimeout
  rw [if_neg (by simp [hup, hne]), guestGoback_oldest h]

/-! ### A module is lost (R68) -/

theorem moduleDown_of_down {s : State} (h : getF s R.GST_STA.MOD0_UP = 1) :
    let t := moduleDown 0 s
    getF t R.GST_STA.MOD0_UP = 0 ∧ raised E.GUEST.MODULE_LOST t ∧
      getF t R.GST_STA.LINK_UP = (if getF s R.GST_STA.MOD1_UP = 1 then getF s R.GST_STA.LINK_UP else 0) := by
  obtain ⟨u, hu⟩ : ∃ u, u = raise E.GUEST.MODULE_LOST (setB s R.GST_STA.MOD0_UP false) := ⟨_, rfl⟩
  have hdown : getF u R.GST_STA.MOD0_UP = 0 := by
    rw [hu, getF_raise_other _ _ _ (by decide)]
    exact getF_setB _ _ false (by decide)
  have hkept : RegsBut (R.GST_STA.MOD0_UP :: evFlds E.GUEST.MODULE_LOST) s u :=
    hu ▸ (regsBut_setB s false (by simp)).trans (regsBut_raise _ _ (by simp))
  have hraised : raised E.GUEST.MODULE_LOST u := hu ▸ raised_raise _ _ (by decide)
  have hmod1 : getF u R.GST_STA.MOD1_UP = getF s R.GST_STA.MOD1_UP := hkept.getF_eq (by decide)
  have ht : moduleDown 0 s = if getF s R.GST_STA.MOD1_UP = 1 then u else setB u R.GST_STA.LINK_UP false := by
    unfold moduleDown
    dsimp only
    rw [if_pos rfl, if_neg (by simp [flagF_of_eq_one h]), ← hu, flagF_of_eq_zero hdown]
    simp [flagF, hmod1]
  intro t
  rw [show t = _ from ht]
  split
  · exact ⟨hdown, hraised, hkept.getF_eq (by decide)⟩
  · refine ⟨?_, raisedKept_setB _ _ (by decide) _ (by decide) hraised, getF_setB _ _ false (by decide)⟩
    rw [getF_setB_other _ _ _ _ (by decide), hdown]

/-! ### The retrain (R71) -/

/-- Both sequence states are reset, the held flits lost. -/
def linkReset (s : State) : State :=
  onGuest (fun g => { g with seq := 0, e := 0, held := [], nakNext := false, gap := false, ackDue := false,
                             retraining := false }) s

theorem guestRetrain_of_asked {byGuest lostOut : Bool} {s : State} (hl : getF s R.GST_STA.LINK_UP = 1)
    (h : s.guest.retraining = true ∨ byGuest = true) :
    exec (.guestRetrain true true byGuest lostOut) s =
      .next (sendWaiting (guestReset lostOut s).guest.wait (guestReset lostOut s)) := by
  show execGuestRetrain true true byGuest lostOut s = _
  unfold execGuestRetrain
  rw [if_pos (by rcases h with h | h <;> simp [flagF_of_eq_one hl, h])]
  rfl

theorem guestReset_of_kept {s : State} (h : (s.guest.held.all fun h => h.1.type != 6) = true) :
    guestReset false s = linkReset s := by
  have hany : (s.guest.held.any fun h => h.1.type == 6) = false := by
    rw [List.any_eq_false]
    intro x hx
    have := List.all_eq_true.mp h x hx
    simpa using this
  unfold guestReset
  dsimp only
  rw [hany]
  rfl

/-- A flit lost is a fault of the guest's link. -/
theorem guestReset_of_lost (s : State) :
    guestReset true s = takeFault (mkFault 0x39 clVoid uGuest 0 0 0) (linkReset s) := rfl

end Sys2Proof.Machine
end

section
/-! The guest's fence, power and reset (R69, R70, R76, R78), and O40. -/

namespace Sys2Proof.Machine

/-! ### The fence (R69, R76) -/

/-- The fields that a fence of the guest writes. -/
def guestFenceFlds : List Fld := [R.PG_STA.FENCED 0x40, R.FLT_FENCE_MAP.GUEST, R.GST_STA.FENCED] ++ logFlds

/-- Of the flits that wait only stream flits stay. -/
def streamsWait (s : State) : State := onGuest (fun g => { g with wait := g.wait.filter fun f => f.type == 6 }) s

/-- The fence without its log entry. -/
def guestCut (s : State) : State :=
  setFs (streamsWait s) [(R.PG_STA.FENCED 0x40, 1), (R.FLT_FENCE_MAP.GUEST, 1), (R.GST_STA.FENCED, 1)]

theorem fenceGuest_eq (s : State) : fenceGuest s = logOnly 0x42 uGuest 0 0 0 (guestCut s) := rfl

theorem changesOnly_guestCut (s : State) : ChangesOnly [.guest, .regs] s (guestCut s) :=
  ChangesOnly.trans (t := streamsWait s) ((changesOnly_onGuest _ s).mono (by simp))
    ((changesOnly_setFs (streamsWait s) _).mono (by simp))

theorem guestCut_guest (s : State) :
    (guestCut s).guest = { s.guest with wait := s.guest.wait.filter fun f => f.type == 6 } := setFs_guest _ _

theorem regsBut_guestCut (s : State) : RegsBut guestFenceFlds s (guestCut s) :=
  RegsBut.trans (t := streamsWait s) (.of_regs rfl) (regsBut_setFs _ (streamsWait s) (by simp [guestFenceFlds]))

theorem getF_guestCut (s : State) :
    getF (guestCut s) R.GST_STA.FENCED = 1 ∧ getF (guestCut s) (R.PG_STA.FENCED 0x40) = 1 := by
  unfold guestCut
  exact ⟨getF_setFs_lt (by decide) (by simp) (by decide) _, getF_setFs_lt (by decide) (by simp) (by decide) _⟩

theorem changesOnly_fenceGuest (s : State) : ChangesOnly [.guest, .regs, .out, .hif, .flt] s (fenceGuest s) := by
  rw [fenceGuest_eq]
  exact ((changesOnly_guestCut s).mono (by simp)).trans ((changesOnly_logOnly _ _ _ _ _ _).mono (by simp))

theorem fenceGuest_guest (s : State) :
    (fenceGuest s).guest = { s.guest with wait := s.guest.wait.filter fun f => f.type == 6 } := by
  rw [fenceGuest_eq, changesOnly_logOnly _ _ _ _ _ _ .guest (by decide), guestCut_guest]

theorem regsBut_fenceGuest (s : State) : RegsBut guestFenceFlds s (fenceGuest s) := by
  rw [fenceGuest_eq]
  exact (regsBut_guestCut s).trans ((regsBut_logOnly _ _ _ _ _ _).mono (by decide))

theorem getF_fenceGuest (s : State) :
    getF (fenceGuest s) R.GST_STA.FENCED = 1 ∧ getF (fenceGuest s) (R.PG_STA.FENCED 0x40) = 1 := by
  rw [fenceGuest_eq, (regsBut_logOnly _ _ _ _ _ _).getF_eq (by decide), (regsBut_logOnly _ _ _ _ _ _).getF_eq (by decide)]
  exact getF_guestCut s

/-! ### Power (R69) -/

theorem guestPwr_fences {s : State} (ho : s.fuse.guestOption = true) :
    Answers .guestPwr s fun t =>
      getF t R.GST_STA.POWER_ON = 0 ∧ getF t R.GST_STA.FENCED = 1 ∧ getF t (R.PG_STA.FENCED 0x40) = 1 ∧
      raised E.GUEST.GUEST_PWR t ∧ t.mem = s.mem := by
  obtain ⟨u, hu⟩ : ∃ u, u = setB s R.GST_STA.POWER_ON false := ⟨_, rfl⟩
  obtain ⟨hfenced, hpage⟩ := getF_fenceGuest u
  refine ⟨raise E.GUEST.GUEST_PWR (fenceGuest u), ?_, ?_, ?_, ?_, raised_raise _ _ (by decide), ?_⟩
  · show execGuestPwr s = _
    unfold execGuestPwr
    rw [if_pos ho, hu]
  · rw [getF_raise_other _ _ _ (by decide), (regsBut_fenceGuest u).getF_eq (by decide), hu]
    exact getF_setB _ _ false (by decide)
  · rw [getF_raise_other _ _ _ (by decide), hfenced]
  · rw [getF_raise_other _ _ _ (by decide), hpage]
  · rw [raise_mem, changesOnly_fenceGuest u .mem (by decide), hu]
    rfl

/-! ### Reset (R78) -/

theorem gstReset_resets {s : State} (ho : s.fuse.guestOption = true) (h : (running s && guestBound s) = false) :
    Answers .gstReset s fun t =>
      getF t R.GST_STA.IN_RESET = 1 ∧ getF t R.GST_STA.LINK_UP = 0 ∧ t.guest.held = [] ∧ t.guest.reqs = [] ∧
      t.guest.credits = 0 := by
  obtain ⟨u, hu⟩ : ∃ u, u = setFs s [(R.GST_STA.IN_RESET, 1), (R.GST_STA.POWER_ON, 1), (R.GST_STA.LINK_UP, 0),
    (R.GST_STA.MOD0_UP, 0), (R.GST_STA.MOD1_UP, 0)] := ⟨_, rfl⟩
  refine ⟨onGuest (fun g => { guest0 with ownerAt := g.ownerAt, wrote := g.wrote, undone := g.undone }) u, ?_, ?_, ?_,
    rfl, rfl, rfl⟩
  · show Host.Outcome.next (guestResetCmd s) = _
    unfold guestResetCmd
    rw [if_neg (by simp [ho]), if_neg (by simp [h]), hu]
  · rw [getF_congr (onGuest_regs _ u), hu]
    exact getF_setFs_lt (by decide) (by simp) (by decide) s
  · rw [getF_congr (onGuest_regs _ u), hu]
    exact getF_setFs_lt (by decide) (by simp) (by decide) s

theorem gstReset_refused {s : State} (ho : s.fuse.guestOption = true) (hr : running s = true) (hb : guestBound s = true) :
    exec .gstReset s = .next (raise E.GUEST.RESET_REFUSED s) := by
  show Host.Outcome.next (guestResetCmd s) = _
  unfold guestResetCmd
  rw [if_neg (by simp [ho]), if_pos (by simp [hr, hb])]

/-! ### The reset's end (R70, R78) -/

/-- The fields that training the modules writes. -/
def trainGuestFlds : List Fld := [R.GST_STA.MOD0_UP, R.GST_STA.MOD1_UP, R.GST_STA.LINK_UP] ++ evFlds E.GUEST.GUEST_UP

/-- The modules' own fields after training. -/
def modulesSet (t0 t1 : Bool) (s : State) : State :=
  setFs s [(R.GST_STA.MOD0_UP, b2n (t0 && guestAnswered s)), (R.GST_STA.MOD1_UP, b2n (t1 && guestAnswered s)),
    (R.GST_STA.LINK_UP, b2n (t0 && guestAnswered s || t1 && guestAnswered s))]

theorem trainGuest_eq (t0 t1 : Bool) (s : State) :
    trainGuest t0 t1 s =
      raiseIf (!(t0 && guestAnswered s) || !(t1 && guestAnswered s)) E.GUEST.MODULE_LOST
        (raiseIf ((t0 && guestAnswered s || t1 && guestAnswered s) && !flagF s R.GST_STA.LINK_UP) E.GUEST.GUEST_UP
          (modulesSet t0 t1 s)) := rfl

theorem regsBut_trainGuest (t0 t1 : Bool) (s : State) : RegsBut trainGuestFlds s (trainGuest t0 t1 s) := by
  rw [trainGuest_eq]
  exact (regsBut_setFs _ s (by simp [trainGuestFlds])).trans <| (regsBut_raiseIf _ _ _ (by decide)).trans
    (regsBut_raiseIf _ _ _ (by decide))

theorem changesOnly_trainGuest (t0 t1 : Bool) (s : State) : ChangesOnly [.regs, .out, .hif] s (trainGuest t0 t1 s) := by
  rw [trainGuest_eq]
  exact ((changesOnly_setFs s _).mono (by simp)).trans ((changesOnly_raiseIf _ _ _).trans (changesOnly_raiseIf _ _ _))

theorem raisedKept_trainGuest (t0 t1 : Bool) (s : State) : RaisedKept s (trainGuest t0 t1 s) := by
  rw [trainGuest_eq]
  exact (raisedKept_setFs _ s (by
    simpa using (by decide : NotEvt R.GST_STA.MOD0_UP ∧ NotEvt R.GST_STA.MOD1_UP ∧ NotEvt R.GST_STA.LINK_UP))).trans <|
    (raisedKept_raiseIf _ _ _).trans (raisedKept_raiseIf _ _ _)

theorem linkUp_trainGuest (t0 t1 : Bool) (s : State) :
    getF (trainGuest t0 t1 s) R.GST_STA.LINK_UP = if (t0 || t1) && guestAnswered s then 1 else 0 := by
  rw [trainGuest_eq, (regsBut_raiseIf _ _ _ (List.Subset.refl _)).getF_eq (by decide),
    (regsBut_raiseIf _ _ _ (List.Subset.refl _)).getF_eq (by decide)]
  unfold modulesSet
  have hkeys : ([R.GST_STA.MOD0_UP, R.GST_STA.MOD1_UP, R.GST_STA.LINK_UP].map fldKey).Nodup := by decide
  refine (getF_setFs_lt (l := [(_, _), (_, _), (_, _)]) (v := b2n (t0 && guestAnswered s || t1 && guestAnswered s)) hkeys
    (.tail _ (.tail _ (.head _))) ?_ s).trans ?_
  · generalize (t0 && guestAnswered s || t1 && guestAnswered s) = b
    revert b; decide
  · cases t0 <;> cases t1 <;> cases guestAnswered s <;> rfl

theorem getF_unfenceGuest (s : State) :
    getF (unfenceGuest s) R.GST_STA.FENCED = 0 ∧ getF (unfenceGuest s) (R.PG_STA.FENCED 0x40) = 0 := by
  unfold unfenceGuest
  exact ⟨getF_setFs_lt (by decide) (by simp) (by decide) s, getF_setFs_lt (by decide) (by simp) (by decide) s⟩

theorem regsBut_unfenceGuest (s : State) :
    RegsBut [R.GST_STA.FENCED, R.FLT_FENCE_MAP.GUEST, R.PG_STA.FENCED 0x40, R.GST_VIOL_INFO.VALID] s (unfenceGuest s) :=
  regsBut_setFs _ s (by simp)

/-- The state from which the identity is read when a reset completes: out of reset, the fence lifted. -/
def resetLifted (s : State) : State := unfenceGuest (setB s R.GST_STA.IN_RESET false)

theorem getF_resetLifted (s : State) :
    getF (resetLifted s) R.GST_STA.IN_RESET = 0 ∧ getF (resetLifted s) R.GST_STA.FENCED = 0 ∧
      getF (resetLifted s) (R.PG_STA.FENCED 0x40) = 0 := by
  unfold resetLifted
  refine ⟨?_, getF_unfenceGuest _⟩
  rw [(regsBut_unfenceGuest _).getF_eq (by decide)]
  exact getF_setB _ _ false (by decide)

theorem resetDone_of_reset {m0 m1 : Bool} {g : Option (List Byte)} {s : State} (h : getF s R.GST_STA.IN_RESET = 1) :
    exec (.resetDone m0 m1 g) s =
      .next (raise E.GUEST.RESET_DONE (trainGuest m0 m1 (readIdentity g (resetLifted s)))) := by
  show execResetDone m0 m1 g s = _
  unfold execResetDone
  rw [if_neg (by simp [flagF_of_eq_one h])]
  rfl

/-- Beside the modules' fields, the end of a reset leaves what the reading of the identity left. -/
theorem getF_resetDone {m0 m1 : Bool} (u : State) {f : Fld} (hf : fldKey f ∉ trainGuestFlds.map fldKey) :
    getF (raise E.GUEST.RESET_DONE (trainGuest m0 m1 u)) f = getF u f :=
  ((regsBut_raise _ _ (by decide)).getF_eq hf).trans ((regsBut_trainGuest m0 m1 u).getF_eq hf)

theorem linkUp_resetDone (m0 m1 : Bool) (u : State) :
    getF (raise E.GUEST.RESET_DONE (trainGuest m0 m1 u)) R.GST_STA.LINK_UP =
      if (m0 || m1) && guestAnswered u then 1 else 0 := by
  rw [getF_raise_other _ _ _ (by decide), linkUp_trainGuest]

/-- The identity of a guest die stands in the guest's page. -/
def identityTaken (f : List Byte) (s : State) : State :=
  setF (onGuest (fun g => { g with ident := f }) s) R.GST_STA.REG_NO (guestRegNo f)

theorem identityTaken_guest (f : List Byte) (s : State) : (identityTaken f s).guest = { s.guest with ident := f } :=
  setF_guest _ _ _

theorem getF_identityTaken {f : List Byte} {s : State} {g : Fld} (h : fldKey R.GST_STA.REG_NO ≠ fldKey g) :
    getF (identityTaken f s) g = getF s g :=
  (getF_setF_other _ _ _ _ h).trans (getF_congr (onGuest_regs _ s) g)

theorem regNo_identityTaken (f : List Byte) (s : State) : getF (identityTaken f s) R.GST_STA.REG_NO = guestRegNo f :=
  (getF_setF _ _ _).trans (Nat.mod_eq_of_lt (Nat.mod_lt _ (by decide)))

theorem readIdentity_known {f : List Byte} {s : State} (hf : guestFrame f = true) (hr : guestRegNo f = s.fuse.guestReg) :
    readIdentity (some f) s = identityTaken f s := by
  unfold readIdentity
  dsimp only
  rw [if_neg (by simp [hf])]
  exact if_pos hr

theorem readIdentity_other {f : List Byte} {s : State} (hf : guestFrame f = true) (hr : guestRegNo f ≠ s.fuse.guestReg) :
    readIdentity (some f) s = raise E.GUEST.GUEST_ID (fenceGuest (identityTaken f s)) := by
  unfold readIdentity
  dsimp only
  rw [if_neg (by simp [hf])]
  exact if_neg hr

theorem ne_nil_of_guestFrame {f : List Byte} (h : guestFrame f = true) : f ≠ [] := by
  rintro rfl
  exact absurd h (by decide)

theorem resetLifted_fuse (s : State) : (resetLifted s).fuse = s.fuse := setFs_fuse _ _

/-- A guest that does not answer trains no module. -/
theorem resetDone_unanswered {m0 m1 : Bool} {s : State} (h : getF s R.GST_STA.IN_RESET = 1) :
    Answers (.resetDone m0 m1 none) s fun t =>
      getF t R.GST_STA.IN_RESET = 0 ∧ getF t R.GST_STA.FENCED = 0 ∧ getF t (R.PG_STA.FENCED 0x40) = 0 ∧
      getF t R.GST_STA.LINK_UP = 0 ∧ raised E.GUEST.RESET_DONE t := by
  obtain ⟨u, hu⟩ : ∃ u, u = readIdentity none (resetLifted s) := ⟨_, rfl⟩
  have hregs : u.regs = (resetLifted s).regs := hu ▸ rfl
  have hident : guestAnswered u = false := hu ▸ rfl
  obtain ⟨hreset, hfenced, hpage⟩ := getF_resetLifted s
  refine ⟨_, resetDone_of_reset h, ?_⟩
  dsimp only
  rw [← hu, getF_resetDone u (by decide), getF_resetDone u (by decide), getF_resetDone u (by decide), linkUp_resetDone, hident,
    getF_congr hregs, getF_congr hregs, getF_congr hregs]
  exact ⟨hreset, hfenced, hpage, by simp, raised_raise _ _ (by decide)⟩

/-- A guest with the fused registration number is up with its modules. -/
theorem resetDone_known {m0 m1 : Bool} {f : List Byte} {s : State} (h : getF s R.GST_STA.IN_RESET = 1)
    (hf : guestFrame f = true) (hr : guestRegNo f = s.fuse.guestReg) :
    Answers (.resetDone m0 m1 (some f)) s fun t =>
      getF t R.GST_STA.IN_RESET = 0 ∧ getF t R.GST_STA.FENCED = 0 ∧ getF t (R.PG_STA.FENCED 0x40) = 0 ∧
      getF t R.GST_STA.LINK_UP = (if m0 || m1 then 1 else 0) ∧ getF t R.GST_STA.REG_NO = guestRegNo f ∧ t.guest.ident = f ∧
      raised E.GUEST.RESET_DONE t := by
  obtain ⟨u, hu⟩ : ∃ u, u = identityTaken f (resetLifted s) := ⟨_, rfl⟩
  have hread : readIdentity (some f) (resetLifted s) = u := by
    rw [hu]; exact readIdentity_known hf (by rw [resetLifted_fuse, hr])
  have hguest : u.guest.ident = f := by rw [hu, identityTaken_guest]
  have hanswered : guestAnswered u = true := by simpa [guestAnswered, hguest] using ne_nil_of_guestFrame hf
  have hkept : ∀ g : Fld, fldKey R.GST_STA.REG_NO ≠ fldKey g → getF u g = getF (resetLifted s) g := fun g hg => by
    rw [hu]; exact getF_identityTaken hg
  have hreg : getF u R.GST_STA.REG_NO = guestRegNo f := by rw [hu]; exact regNo_identityTaken _ _
  obtain ⟨hreset, hfenced, hpage⟩ := getF_resetLifted s
  refine ⟨_, resetDone_of_reset h, ?_⟩
  dsimp only
  rw [hread, getF_resetDone u (by decide), getF_resetDone u (by decide), getF_resetDone u (by decide), linkUp_resetDone,
    hanswered, getF_resetDone u (by decide), hkept _ (by decide), hkept _ (by decide), hkept _ (by decide), raise_guest,
    changesOnly_trainGuest m0 m1 u .guest (by decide)]
  exact ⟨hreset, hfenced, hpage, by rw [Bool.and_true], hreg, hguest, raised_raise _ _ (by decide)⟩

/-- A guest with another number is fenced again. -/
theorem resetDone_other {m0 m1 : Bool} {f : List Byte} {s : State} (h : getF s R.GST_STA.IN_RESET = 1)
    (hf : guestFrame f = true) (hr : guestRegNo f ≠ s.fuse.guestReg) :
    Answers (.resetDone m0 m1 (some f)) s fun t => getF t R.GST_STA.FENCED = 1 ∧ raised E.GUEST.GUEST_ID t := by
  refine ⟨_, resetDone_of_reset h, ?_⟩
  dsimp only
  rw [readIdentity_other hf (by rwa [resetLifted_fuse]), getF_resetDone _ (by decide), getF_raise_other _ _ _ (by decide)]
  exact ⟨(getF_fenceGuest _).1, ((raisedKept_trainGuest _ _ _).trans (raisedKept_raise _ _)) _ (by decide)
    (raised_raise _ _ (by decide))⟩

/-! ### O40 -/

theorem guestLink_whole {f : GFlit} {s : State} (hup : guestUp s = true) (hc : gCrc f = f.crc) (hf : guestFenced s = false)
    (ht : f.type = 8) (hl : f.len = 0) : exec (.guestLink f) s = .next (takeLink f s) := by
  have hok : formatOk f = true := by simp [formatOk, ht, hl]
  show Host.Outcome.next (guestRx 8 f (takeLink f) s) = _
  unfold guestRx
  rw [if_neg (by simp [hup, hc, hf]), if_pos ht, if_neg (by simp), if_pos hok]

/-- Settles O40: the link's rows by what they leave of `guest`, the fence by `getF_fenceGuest`, the end of a reset by how
the identity reads. -/
theorem guestLinkPowerAndReset : Obligations.GuestLinkPowerAndReset := by
  refine ⟨?_, ?_, ?_, ?_, ?_, ?_, ?_, fun s => guestPwr_fences, fun s => gstReset_resets, ?_,
    fun m0 m1 s => resetDone_unanswered, fun m0 m1 f s => resetDone_known, fun m0 m1 f s => resetDone_other⟩
  · intro f s hup hc hf ht hl hv hn hd hw
    exact ⟨_, guestLink_whole hup hc hf ht hl, takeLink_acks hv hn hd hw⟩
  · intro s hup
    refine ⟨_, by show execGuestAckTimer s = _; unfold execGuestAckTimer; rw [if_neg (by simp [hup])], ?_⟩
    refine ⟨⟨_, rfl, rfl, ?_⟩, rfl, rfl, (changesOnly_onGuest _ s).trans (changesOnly_sendLink _)⟩
    simp [linkFlit, onGuest]
  · intro s hup hne hh
    exact ⟨_, guestReplayTimeout_of_held hup hne hh, rfl, rfl, changesOnly_onGuest _ s⟩
  · intro byGuest s hl h hheld hw
    refine ⟨_, guestRetrain_of_asked hl h, ?_⟩
    rw [guestReset_of_kept hheld]
    exact sendWaiting_of_none hw _
  · intro byGuest s hl h hw
    have htaken := takeFault_taken (unfencing_mkFault uGuest 0 0 0 (cls := clVoid) (code := 0x39) (by decide) (by decide))
      (linkReset s)
    have hguest := htaken.parts .guest (by decide)
    refine ⟨_, guestRetrain_of_asked hl h, ?_⟩
    rw [guestReset_of_lost, sendWaiting_of_none ((congrArg Guest.wait hguest).trans hw)]
    exact ⟨congrArg Guest.held hguest, congrArg Guest.seq hguest, _, htaken.entry, rfl, rfl⟩
  · intro m0 m1 lostOut s h
    show execGuestRetrain m0 m1 false lostOut s = _
    unfold execGuestRetrain
    rw [if_neg (by simp [h])]
  · intro s h
    exact ⟨_, rfl, moduleDown_of_down h⟩
  · intro s ho hr hb
    exact ⟨_, gstReset_refused ho hr hb, raised_raise _ _ (by decide), raise_guest _ _⟩

end Sys2Proof.Machine
end

section
/-! What the guest sends (R71 to R76), the service of its requests (R72, R200), and O39. -/

namespace Sys2Proof.Machine

/-! ### A flit that the link accepts (R71) -/

/-- The flit's sequence number was the one awaited. -/
def gTaken (s : State) : State := onGuest (fun g => { g with e := (g.e + 1) % 4096, gap := false, ackDue := true }) s

theorem changesOnly_gTaken (s : State) : ChangesOnly [.guest] s (gTaken s) := changesOnly_onGuest _ s

theorem gTaken_regs (s : State) : (gTaken s).regs = s.regs := rfl

theorem guestRx_taken {f : GFlit} {eff : State → State} {s : State} (h : FromGuest f s)
    (ht : f.type = 1 ∨ f.type = 2 ∨ f.type = 5) (hf : formatOk f = true) : guestRx f.type f eff s = eff (gTaken s) := by
  obtain ⟨hup, hcrc, hfree, hseq⟩ := h
  have htake : takeGSeq f s = (true, gTaken s) := by unfold takeGSeq; rw [hseq]; exact if_pos rfl
  have hlegal : (f.type == 1 || f.type == 2 || f.type == 5) = true := by
    rcases ht with h | h | h <;> simp [h]
  unfold guestRx
  rw [if_neg (by simp [hup, hcrc, hfree]), if_neg (by omega), htake]
  simp [hf]

/-! ### Memory requests (R72 to R76) -/

theorem requestCheck_congr {s t : State} (hregs : t.regs = s.regs) (hhif : t.hif = s.hif)
    (hcredits : t.guest.credits = s.guest.credits) (wr : Bool) (f : GFlit) : requestCheck t wr f = requestCheck s wr f := by
  simp only [requestCheck, guestWindow, flagF, spanOk, isCellar, getF_congr hregs, hhif, hcredits]
  rfl

/-- A request as it waits: accepted last of all that came from outside. -/
def gReqOf (wr : Bool) (f : GFlit) (s : State) : GReq :=
  { data := if wr then some f.payload else none, addr := f.addr, len := f.len, tag := f.tag, tick := s.tick.job,
    order := s.hif.accepted }

/-- The request takes its credits and waits. -/
def requestWaits (wr : Bool) (f : GFlit) (s : State) : State :=
  { s with
    hif := { s.hif with accepted := s.hif.accepted + 1 }
    guest := { s.guest with credits := s.guest.credits - f.len, reqs := s.guest.reqs ++ [gReqOf wr f s] } }

theorem changesOnly_requestWaits (wr : Bool) (f : GFlit) (s : State) : ChangesOnly [.guest, .hif] s (requestWaits wr f s) :=
  fun p hp => by cases p <;> simp_all [Part.same, requestWaits]

theorem guestRequest_passed {wr : Bool} {f : GFlit} {s : State} (hen : getF s (R.PG_CTL.EN 0x40) = 1)
    (hc : requestCheck s wr f = none) : guestRequest wr f s = requestWaits wr f s := by
  unfold guestRequest
  rw [if_neg (by simp [flagF_of_eq_one hen]), hc]
  rfl

theorem guestRequest_failed {wr : Bool} {f : GFlit} {cause win : Nat} {s : State} (hen : getF s (R.PG_CTL.EN 0x40) = 1)
    (hc : requestCheck s wr f = some (cause, win)) : guestRequest wr f s = violation cause win f s := by
  unfold guestRequest
  rw [if_neg (by simp [flagF_of_eq_one hen]), hc]

/-- What the first violation records. -/
def violRecord (cause win : Nat) (f : GFlit) : List (Fld × Nat) :=
  [(R.GST_VIOL_ADDR.ADDR, f.addr / 2 ^ 8), (R.GST_VIOL_INFO.ADDR_LO, f.addr / 2 ^ 6), (R.GST_VIOL_INFO.CAUSE, cause),
   (R.GST_VIOL_INFO.WIN, win), (R.GST_VIOL_INFO.TYPE, f.type), (R.GST_VIOL_INFO.TAG, f.tag), (R.GST_VIOL_INFO.VALID, 1)]

theorem violation_first {cause win : Nat} {f : GFlit} {s : State} (h : getF s R.GST_VIOL_INFO.VALID = 0) :
    violation cause win f s = raise E.GUEST.GUEST_VIOL (fenceGuest (setFs s (violRecord cause win f))) := by
  unfold violation
  rw [flagF_of_eq_zero h]
  rfl

theorem getF_violation {cause win : Nat} {f : GFlit} {s : State} (h : getF s R.GST_VIOL_INFO.VALID = 0) {e : Fld} {v : Nat}
    (he : (e, v) ∈ violRecord cause win f) (hfree : fldKey e ∉ (guestFenceFlds ++ evFlds E.GUEST.GUEST_VIOL).map fldKey) :
    getF (violation cause win f s) e = v % 2 ^ e.width := by
  have hkeys : ([R.GST_VIOL_ADDR.ADDR, R.GST_VIOL_INFO.ADDR_LO, R.GST_VIOL_INFO.CAUSE, R.GST_VIOL_INFO.WIN, R.GST_VIOL_INFO.TYPE,
    R.GST_VIOL_INFO.TAG, R.GST_VIOL_INFO.VALID].map fldKey).Nodup := by decide
  have hkept := ((regsBut_fenceGuest (setFs s (violRecord cause win f))).mono
      (List.subset_append_left _ (evFlds E.GUEST.GUEST_VIOL))).trans
    (regsBut_raise E.GUEST.GUEST_VIOL (fenceGuest (setFs s (violRecord cause win f))) (List.subset_append_right _ _))
  rw [violation_first h, hkept.getF_eq hfree]
  exact getF_setFs (l := violRecord cause win f) hkeys he s

theorem guest_violation {cause win : Nat} {f : GFlit} {s : State} (h : getF s R.GST_VIOL_INFO.VALID = 0) :
    (violation cause win f s).guest = { s.guest with wait := s.guest.wait.filter fun f => f.type == 6 } := by
  rw [violation_first h, raise_guest, fenceGuest_guest, setFs_guest]

theorem mem_violation {cause win : Nat} {f : GFlit} {s : State} (h : getF s R.GST_VIOL_INFO.VALID = 0) :
    (violation cause win f s).mem = s.mem := by
  rw [violation_first h, raise_mem, changesOnly_fenceGuest _ .mem (by decide), setFs_mem]

/-! ### Stream flits land (R74, R175) -/

theorem consumers_congr {s t : State} (hplans : t.plans = s.plans) (hregs : t.regs = s.regs) (part src stream : Nat) :
    consumers t part src stream = consumers s part src stream := by
  simp only [consumers, getPlan, hplans, myId, getF_congr hregs]

theorem framePart_congr {s t : State} (hregs : t.regs = s.regs) (seq : Nat) : framePart t seq = framePart s seq := by
  simp only [framePart, getF_congr hregs]

theorem landUse_congr {s t : State} (hregs : t.regs = s.regs) (hhall : t.hall = s.hall) (part : Nat) :
    landUse t part = landUse s part := by
  simp only [landUse, hhall, framePart_congr hregs]

theorem landShare_congr {s t : State} (hhif : t.hif = s.hif) (part : Nat) : landShare t part = landShare s part := by
  simp only [landShare, landUnits, partVal, partVals, hhif]

theorem LandsHere.congr {f : Frame} {s t : State} (h : LandsHere f s) (ht : ChangesOnly [.guest] s t) : LandsHere f t := by
  have hregs : t.regs = s.regs := ht .regs (by decide)
  have hhall : t.hall = s.hall := ht .hall (by decide)
  have htick : t.tick = s.tick := ht .tick (by decide)
  unfold LandsHere
  rw [running_congr hregs, framePart_congr hregs, consumers_congr (ht .plans (by decide)) hregs, landUse_congr hregs hhall,
    landShare_congr (ht .hif (by decide)), hhall, htick, tickNum, getF_congr hregs]
  exact h

/-- The frame is held with the offset at which it came. -/
def frameLanded (f : Frame) (s : State) : State :=
  showLanding { s with hall := { s.hall with land := s.hall.land ++ [{ f with came := s.counter }] } }

theorem changesOnly_frameLanded (f : Frame) (s : State) : ChangesOnly [.hall, .regs] s (frameLanded f s) :=
  fun p hp => by cases p <;> simp_all [Part.same, frameLanded, showLanding]

theorem frameLanded_hall (f : Frame) (s : State) :
    (frameLanded f s).hall.land = s.hall.land ++ [{ f with came := s.counter }] := rfl

theorem landArrival_of_lands {f : Frame} {s : State} (h : LandsHere f s) : landArrival f s = frameLanded f s := by
  obtain ⟨hrun, hpart, htick, hvoid, hcons, hnew, hroom⟩ := h
  have hnone : (s.hall.land.find? fun g => g.src == f.src && g.tick == f.tick && g.seq == f.seq) = none := by
    rw [List.find?_eq_none]
    intro g hg
    simpa [and_assoc] using hnew g hg
  unfold landArrival
  dsimp only
  rw [if_neg (by simp [hrun]), if_neg (by simp [hpart]), if_neg (by simp [hvoid]), htick, tickCmp_self, hpart]
  dsimp only
  rw [if_neg (by simp [hcons])]
  unfold landPlace
  rw [hnone]
  exact if_neg (by omega)

theorem guestStream_congr {s t : State} (hregs : t.regs = s.regs) (hplans : t.plans = s.plans) (n : Nat) :
    guestStream t n = guestStream s n := by
  simp only [guestStream, partRuns, getPlan, hplans, running_congr hregs, secRunning, flagF, getF_congr hregs]
  rfl

/-- One more flit of the stream has been seen. -/
def strmSeen (f : GFlit) (s : State) : State :=
  onGuest (fun g => { g with seen := smSet 0 g.seen f.stream (smGet 0 s.guest.seen f.stream + 1) }) s

theorem seen_strmSeen (f : GFlit) (s : State) :
    smGet 0 (strmSeen f s).guest.seen f.stream = smGet 0 s.guest.seen f.stream + 1 := by
  unfold strmSeen onGuest
  dsimp only
  rw [smGet_smSet, if_pos rfl]

theorem strmRx_lands {f : GFlit} {part : Nat} {e : StreamE} {s : State} (hg : guestStream s f.stream = some (part, e))
    (hs : smGet 0 s.guest.seen f.stream < e.tiles * gTileFlits e.fmt) (hl : LandsHere (strmFrame e f) s) :
    strmRx f s = frameLanded (strmFrame e f) (strmSeen f s) := by
  unfold strmRx
  rw [hg]
  dsimp only
  rw [if_neg (by omega)]
  exact landArrival_of_lands (hl.congr (changesOnly_onGuest _ s))

/-! ### The oldest request is served (R72, R200) -/

/-- An access without errors takes its channel from its byte time on. -/
def chanTaken (ch bt occ : Nat) (s : State) : State := updChan s ch fun q => { q with start := bt, freeAt := bt + occ }

theorem changesOnly_chanTaken (ch bt occ : Nat) (s : State) : ChangesOnly [.chans] s (chanTaken ch bt occ s) :=
  fun p hp => by cases p <;> simp_all [Part.same, chanTaken]

theorem freeAt_chanTaken (ch bt occ : Nat) (s : State) : (getChan (chanTaken ch bt occ s) ch).freeAt = bt + occ := by
  unfold chanTaken getChan updChan
  rw [smGet_smUpd, if_pos rfl]

theorem serveAccess_clean {k c occ : Nat} {reads : Bool} {r : Run} {sv : Served} {s : State} (h : Clean sv)
    (hstep : (getStk s k).stepOn = false) (hpart : tokenPart r = 0) :
    serveAccess k c occ reads r sv s = (chanTaken (chanKey k c) sv.bt occ s, true) := by
  obtain ⟨herrs, hecc⟩ := h
  have habort : abortMargin k c (chanTaken (chanKey k c) sv.bt occ s) = chanTaken (chanKey k c) sv.bt occ s :=
    if_neg (by show ¬((getStk s k).stepOn = true ∧ _); simp [hstep])
  have htokens : ∀ t, takeTokens k 0 occ t = t := fun t => if_pos rfl
  unfold serveAccess
  dsimp only
  unfold chanTaken at habort ⊢
  rw [hecc, herrs, hpart, htokens, habort, retryAccess]
  rfl

theorem chanKey_div_mod (ch : Nat) : chanKey (ch / 32) (ch % 32) = ch := Nat.div_add_mod ch 32

/-- The oldest request, its access passed, waits no longer. -/
def reqServed (sv : Served) (q : GReq) (rest : List GReq) (s : State) : State :=
  onGuest (fun g => { g with reqs := rest }) (chanTaken (chanOf q.addr) sv.bt (occOf (64 * q.len)) s)

theorem changesOnly_reqServed (sv : Served) (q : GReq) (rest : List GReq) (s : State) :
    ChangesOnly [.chans, .guest] s (reqServed sv q rest s) :=
  ((changesOnly_chanTaken _ _ _ s).mono (by decide)).trans ((changesOnly_onGuest _ _).mono (by decide))

theorem reqServed_guest (sv : Served) (q : GReq) (rest : List GReq) (s : State) :
    (reqServed sv q rest s).guest = { s.guest with reqs := rest } := rfl

theorem freeAt_reqServed (sv : Served) (q : GReq) (rest : List GReq) (s : State) :
    (getChan (reqServed sv q rest s) (chanOf q.addr)).freeAt = sv.bt + occOf (64 * q.len) := freeAt_chanTaken _ _ _ s

theorem guestRequestServe_clean {sv : Served} {q : GReq} {rest : List GReq} {s : State} (hreqs : s.guest.reqs = q :: rest)
    (h : GuestServes sv q s) : exec (.guestRequestServe sv) s = .next (answerGuest q (reqServed sv q rest s)) := by
  obtain ⟨hrun, hfree, hplan, hhost, hstep, hclean⟩ := h
  show execGuestRequestServe sv s = _
  unfold execGuestRequestServe
  rw [hreqs]
  dsimp only
  rw [if_neg (by simp [hrun, hfree, hplan, hhost]), serveAccess_clean hclean hstep rfl, chanKey_div_mod]
  rfl

theorem guestUp_congr {s t : State} (hregs : t.regs = s.regs) (hre : t.guest.retraining = s.guest.retraining) :
    guestUp t = guestUp s := by simp only [guestUp, flagF, getF_congr hregs, hre]

theorem guestFenced_congr {s t : State} (hregs : t.regs = s.regs) : guestFenced t = guestFenced s := by
  simp only [guestFenced, flagF, getF_congr hregs]

/-- A read is answered with what its addresses hold. -/
theorem answerGuest_read {q : GReq} {s : State} (hd : q.data = none) (hf : guestFenced s = false) :
    answerGuest q s =
      sendFlit { gflit0 with type := 3, len := q.len, tag := q.tag, payload := rdMems s q.addr (64 * q.len) } s := by
  unfold answerGuest
  rw [hd]
  exact if_neg (by simp [hf])

theorem answerGuest_write {q : GReq} {bs : List Byte} {s : State} (hd : q.data = some bs) (hf : guestFenced s = false) :
    answerGuest q s = sendFlit { gflit0 with type := 4, tag := q.tag } (serveWrite q.addr bs s) := by
  have hregs : (serveWrite q.addr bs s).regs = s.regs := by unfold serveWrite; split <;> rfl
  unfold answerGuest
  rw [hd]
  exact if_neg (by rw [guestFenced_congr hregs]; simp [hf])

/-- The bytes written, and a note of what they replace. -/
def writeNoted (pa : Nat) (bs : List Byte) (s : State) : State :=
  { s with mem := smSetList 0 s.mem pa bs,
           guest := { s.guest with wrote := s.guest.wrote ++ [(pa, rdMems s pa bs.length, bs)] } }

theorem serveWrite_running {pa : Nat} {bs : List Byte} {s : State} (h : running s = true) :
    serveWrite pa bs s = writeNoted pa bs s := by
  unfold serveWrite
  rw [if_pos h]
  rfl

theorem changesOnly_writeNoted (pa : Nat) (bs : List Byte) (s : State) : ChangesOnly [.mem, .guest] s (writeNoted pa bs s) :=
  fun p hp => by cases p <;> simp_all [Part.same, writeNoted]

theorem smGetList_eq_map {β : Type} (d : β) (m : SMap β) (n : Nat) :
    ∀ a, smGetList d m a n = (List.range n).map fun i => smGet d m (a + i) := by
  induction n with
  | zero => exact fun a => rfl
  | succ n ih =>
    intro a
    rw [smGetList, ih, List.range_succ_eq_map, List.map_cons, List.map_map]
    exact congrArg _ (List.map_congr_left fun i _ => by simp [Nat.add_right_comm, Nat.add_assoc])

theorem smGetList_smSetList {β : Type} [DecidableEq β] (d : β) (m : SMap β) (a : Nat) (vs : List β) :
    smGetList d (smSetList d m a vs) a vs.length = vs := by
  rw [smGetList_eq_map]
  refine List.ext_getElem (by simp) fun i _ hi => ?_
  simp [smGet_smSetList, hi]

theorem rdMems_written {s t : State} {a : Nat} {bs : List Byte} (h : t.mem = smSetList 0 s.mem a bs) :
    rdMems t a bs.length = bs := by
  unfold rdMems
  rw [h, smGetList_smSetList]

theorem rdMem_unwritten {s t : State} {pa a : Nat} {bs : List Byte} (h : t.mem = smSetList 0 s.mem pa bs)
    (ha : a < pa ∨ pa + bs.length ≤ a) : rdMem t a = rdMem s a := by
  unfold rdMem
  rw [h, smGet_smSetList, if_neg (by omega)]

/-! ### O39 -/

theorem requestWaits_gTaken (wr : Bool) (f : GFlit) (s : State) :
    (requestWaits wr f (gTaken s)).guest = { s.guest with
        e := (s.guest.e + 1) % 4096, gap := false, ackDue := true, credits := s.guest.credits - f.len,
        reqs := s.guest.reqs ++ [gReqOf wr f s] } ∧
      (requestWaits wr f (gTaken s)).hif = { s.hif with accepted := s.hif.accepted + 1 } ∧
      ChangesOnly [.guest, .hif] s (requestWaits wr f (gTaken s)) :=
  ⟨rfl, rfl, ((changesOnly_gTaken s).mono (by decide)).trans (changesOnly_requestWaits wr f _)⟩

/-- A memory request that passes its checks waits. -/
theorem guestRx_request_passed {wr : Bool} {f : GFlit} {s : State} (h : FromGuest f s)
    (ht : f.type = 1 ∨ f.type = 2 ∨ f.type = 5) (hf : formatOk f = true) (hen : getF s (R.PG_CTL.EN 0x40) = 1)
    (hc : requestCheck s wr f = none) :
    guestRx f.type f (guestRequest wr f) s = requestWaits wr f (gTaken s) := by
  rw [guestRx_taken h ht hf]
  exact guestRequest_passed ((getF_congr (gTaken_regs s) _).trans hen) ((requestCheck_congr rfl rfl rfl wr f).trans hc)

/-- The sealed response and the flits it follows. -/
theorem sent_of_room {f : GFlit} {s t : State} (hup : guestUp t = true) (hg : t.guest.wait = s.guest.wait)
    (hheld : t.guest.held = s.guest.held) (hsent : t.guest.sent = s.guest.sent) (hseq : t.guest.seq = s.guest.seq)
    (hw : s.guest.wait = []) (hh : s.guest.held.length < 1024) :
    (sendFlit f t).guest.sent = s.guest.sent ++ [gSealed { f with seq := s.guest.seq }] ∧
      (sendFlit f t).guest.reqs = t.guest.reqs ∧ ChangesOnly [.guest] t (sendFlit f t) := by
  rw [sendFlit_of_room hup (hg.trans hw) (by rw [hheld]; exact hh)]
  exact ⟨by rw [← hsent, ← hseq]; rfl, rfl, changesOnly_onGuest _ t⟩

/-- Settles O39: a flit in sequence by its check; a service by the access and by its response. -/
theorem guestRequestsAreCheckedAndServed : Obligations.GuestRequestsAreCheckedAndServed := by
  refine ⟨?_, ?_, ?_, ?_, ?_, ?_⟩
  · intro f s h ht hf hen hc
    have hrx := guestRx_request_passed (wr := false) h (.inl ht) hf hen hc
    rw [ht] at hrx
    exact ⟨_, congrArg Host.Outcome.next hrx, requestWaits_gTaken false f s⟩
  · intro f s h ht hf hen hc
    have hrx := guestRx_request_passed (wr := true) h (.inr (.inl ht)) hf hen hc
    rw [ht] at hrx
    exact ⟨_, congrArg Host.Outcome.next hrx, requestWaits_gTaken true f s⟩
  · intro f cause win s h ht hf hen hc hfirst
    have hrx := guestRx_taken (eff := guestRequest false f) h (.inl ht) hf
    have hfirst' : getF (gTaken s) R.GST_VIOL_INFO.VALID = 0 := (getF_congr (gTaken_regs s) _).trans hfirst
    rw [ht, guestRequest_failed ((getF_congr (gTaken_regs s) _).trans hen)
      ((requestCheck_congr rfl rfl rfl false f).trans hc)] at hrx
    refine ⟨_, congrArg Host.Outcome.next hrx, ?_, ?_, ?_, ?_, ?_, ?_, ?_, mem_violation hfirst'⟩
    · rw [violation_first hfirst']
      exact raised_raise _ _ (by decide)
    · rw [violation_first hfirst', getF_raise_other _ _ _ (by decide)]
      exact (getF_fenceGuest _).1
    · exact getF_violation hfirst' (v := cause) (by simp [violRecord]) (by decide)
    · exact getF_violation hfirst' (v := win) (by simp [violRecord]) (by decide)
    · exact (getF_violation hfirst' (v := f.type) (by simp [violRecord]) (by decide)).trans (by rw [ht]; rfl)
    · rw [guest_violation hfirst']
      rfl
    · rw [guest_violation hfirst']
      rfl
  · intro f part e s h ht hf hg hs hl
    have hrx := guestRx_taken (eff := strmRx f) h (.inr (.inr ht)) hf
    rw [ht, strmRx_lands ((guestStream_congr (gTaken_regs s) rfl _).trans hg) hs (hl.congr (changesOnly_gTaken s))] at hrx
    have hkept : ChangesOnly [.guest, .hall, .regs] s (frameLanded (strmFrame e f) (strmSeen f (gTaken s))) :=
      ((changesOnly_gTaken s).mono (by decide)).trans <|
        ((changesOnly_onGuest _ (gTaken s)).mono (by decide)).trans ((changesOnly_frameLanded _ _).mono (by decide))
    refine ⟨_, congrArg Host.Outcome.next hrx, frameLanded_hall _ _, ?_, hkept .mem (by decide), hkept .cores (by decide)⟩
    rw [changesOnly_frameLanded _ _ .guest (by decide)]
    exact seen_strmSeen f (gTaken s)
  · intro sv q rest bs s hreqs h hd hup hf hw hh
    obtain ⟨u, hu⟩ : ∃ u, u = reqServed sv q rest s := ⟨_, rfl⟩
    have hkept : ChangesOnly [.chans, .guest] s u := by rw [hu]; exact changesOnly_reqServed sv q rest s
    have hregs : u.regs = s.regs := hkept .regs (by decide)
    have hguest : u.guest = { s.guest with reqs := rest } := by rw [hu, reqServed_guest]
    have hmem : (writeNoted q.addr bs u).mem = smSetList 0 s.mem q.addr bs :=
      congrArg (smSetList 0 · q.addr bs) (hkept .mem (by decide))
    have hfree : (getChan u (chanOf q.addr)).freeAt = sv.bt + occOf (64 * q.len) := by rw [hu, freeAt_reqServed]
    obtain ⟨hsent, hrest, hparts⟩ := sent_of_room (f := { gflit0 with type := 4, tag := q.tag }) (s := s)
      (t := writeNoted q.addr bs u) ((guestUp_congr hregs (show u.guest.retraining = _ by rw [hguest])).trans hup)
      (by simp [writeNoted, hguest]) (by simp [writeNoted, hguest]) (by simp [writeNoted, hguest])
      (by simp [writeNoted, hguest]) hw hh
    have hans := answerGuest_write hd ((guestFenced_congr hregs).trans hf)
    rw [serveWrite_running ((running_congr hregs).trans h.1)] at hans
    refine ⟨_, (guestRequestServe_clean hreqs h).trans (congrArg _ (by rw [← hu, hans])), ?_, ?_, ?_, ?_, ?_, ?_⟩
    · exact rdMems_written ((hparts .mem (by decide)).trans hmem)
    · exact fun a ha => rdMem_unwritten ((hparts .mem (by decide)).trans hmem) ha
    · rw [hrest]; simp [writeNoted, hguest]
    · rw [← hfree]
      exact congrArg (fun m => (smGet chan0 m (chanOf q.addr)).freeAt) (hparts .chans (by decide))
    · exact ⟨_, hsent, rfl, rfl, rfl⟩
    · exact (hkept.mono (by decide)).trans (((changesOnly_writeNoted _ _ u).mono (by decide)).trans (hparts.mono (by decide)))
  · intro sv q rest s hreqs h hd hup hf hw hh
    obtain ⟨u, hu⟩ : ∃ u, u = reqServed sv q rest s := ⟨_, rfl⟩
    have hkept : ChangesOnly [.chans, .guest] s u := by rw [hu]; exact changesOnly_reqServed sv q rest s
    have hregs : u.regs = s.regs := hkept .regs (by decide)
    have hguest : u.guest = { s.guest with reqs := rest } := by rw [hu, reqServed_guest]
    have hread : rdMems u q.addr (64 * q.len) = rdMems s q.addr (64 * q.len) :=
      congrArg (smGetList 0 · q.addr (64 * q.len)) (hkept .mem (by decide))
    obtain ⟨hsent, hrest, hparts⟩ := sent_of_room
      (f := { gflit0 with type := 3, len := q.len, tag := q.tag, payload := rdMems u q.addr (64 * q.len) }) (s := s) (t := u)
      ((guestUp_congr hregs (by rw [hguest])).trans hup) (by rw [hguest]) (by rw [hguest]) (by rw [hguest]) (by rw [hguest]) hw hh
    refine ⟨_, (guestRequestServe_clean hreqs h).trans
      (congrArg _ (by rw [← hu, answerGuest_read hd ((guestFenced_congr hregs).trans hf)])), ?_, ?_, ?_⟩
    · rw [hrest, hguest]
    · exact ⟨_, hsent, rfl, rfl, hread⟩
    · exact hkept.trans (hparts.mono (by decide))

end Sys2Proof.Machine
end

section
/-! The core at the end of a transfer: its Bell board, its local store, and O25 (R97 to R104). -/

namespace Sys2Proof.Machine

/-! ### One core steps -/

/-- Core `l` has become `f` of what it was, and nothing else differs. -/
structure CoreStep (l : Nat) (f : Core → Core) (s t : State) : Prop where
  core : getCore t l = f (getCore s l)
  others : ∀ d, d ≠ l → getCore t d = getCore s d
  parts : ChangesOnly [.cores] s t

theorem CoreStep.refl (l : Nat) (s : State) : CoreStep l id s s := ⟨rfl, fun _ _ => rfl, .refl _ s⟩

theorem CoreStep.trans {l : Nat} {f g : Core → Core} {s t u : State} (h : CoreStep l f s t) (h' : CoreStep l g t u) :
    CoreStep l (g ∘ f) s u :=
  ⟨by rw [h'.core, h.core]; rfl, fun d hd => (h'.others d hd).trans (h.others d hd), h.parts.trans h'.parts⟩

theorem coreStep_updCore (l : Nat) (f : Core → Core) (s : State) : CoreStep l f s (updCore s l f) :=
  ⟨getCore_updCore_same s l f, fun _ hd => getCore_updCore_other s f hd, changesOnly_updCore s l f⟩

/-! ### The Bell board (R97 to R99) -/

/-- The two cores have the same Bell board. -/
def SameBoard (c d : Core) : Prop :=
  d.sem = c.sem ∧ d.semCyc = c.semCyc ∧ d.semDelta = c.semDelta ∧ d.semTake = c.semTake

theorem SemMoves.of_board {cyc k take : Nat} {add : Int} {c c' d d' : Core} (h : SemMoves cyc k take add c d)
    (hc : SameBoard c' c) (hd : SameBoard d d') : SemMoves cyc k take add c' d' := by
  obtain ⟨hcs, hcc, hcd, hct⟩ := hc
  obtain ⟨hds, hdc, hdd, hdt⟩ := hd
  unfold SemMoves semStart semTaken semAdded semTouched semVal semRaw at h ⊢
  rw [hds, hdc, hdd, hdt]
  rw [hcs, hcc, hcd, hct] at h
  exact h

/-- The cycle closes without a fault where no semaphore it changes leaves its range (R99). -/
theorem semFaults_eq_nil_iff (s : State) (l : Nat) :
    semFaults s l = [] ↔
      ∀ k ∈ semTouched (getCore s l), 0 ≤ semRaw (getCore s l) k ∧ semRaw (getCore s l) k ≤ 4095 := by
  unfold semFaults
  rw [List.filterMap_eq_nil_iff]
  refine forall₂_congr fun k _ => ?_
  constructor
  · intro h
    split at h
    · simp at h
    split at h
    · simp at h
    omega
  · intro h
    rw [if_neg (by omega), if_neg (by omega)]

theorem semFaults_of_board {s t : State} {l : Nat} (h : SameBoard (getCore s l) (getCore t l)) (hs : semFaults s l = []) :
    semFaults t l = [] := by
  obtain ⟨hsem, _, hdelta, htake⟩ := h
  rw [semFaults_eq_nil_iff] at hs ⊢
  unfold semTouched semRaw at hs ⊢
  rw [hsem, hdelta, htake]
  exact hs

/-- An addition is among the changes of the held cycle. -/
def deltaAdded (key : Nat) (n : Int) (c : Core) : Core := { c with semDelta := smUpd 0 c.semDelta key (· + n) }

/-- The board after an addition in a cycle. -/
def bell (cyc key : Nat) (n : Int) (c : Core) : Core := deltaAdded key n (semAt cyc c)

theorem coreStep_semAdd {l cyc key : Nat} {n : Int} {s : State}
    (h : (getCore s l).semCyc = cyc ∨ semFaults s l = []) : CoreStep l (bell cyc key n) s (semAdd l cyc key n s) := by
  unfold semAdd semSync
  split
  · next heq =>
    have hbell : bell cyc key n (getCore s l) = deltaAdded key n (getCore s l) := by
      unfold bell semAt
      rw [if_pos heq]
    have hstep := coreStep_updCore l (deltaAdded key n) s
    exact ⟨hstep.core.trans hbell.symm, hstep.others, hstep.parts⟩
  · next hne =>
    have hnone : semFaults s l = [] := h.resolve_left hne
    have htake : takeFaults (semFaults s l) (updCore s l (semAt cyc)) = updCore s l (semAt cyc) := by rw [hnone]; rfl
    rw [htake]
    exact (coreStep_updCore l (semAt cyc) s).trans (coreStep_updCore l (deltaAdded key n) _)

theorem smGet_foldl_semVal (c : Core) (j : Nat) (ks : List Nat) (m : SMap Nat) :
    smGet 0 (ks.foldl (fun m k => smSet 0 m k (semVal c k)) m) j = if j ∈ ks then semVal c j else smGet 0 m j := by
  split
  · next h => exact smGet_foldl_smSet (key := id) 0 Function.injective_id (semVal c) ks m (.inl h)
  · next h => exact smGet_foldl_smSet_other (key := id) 0 (semVal c) ks m fun o ho he => h (he ▸ ho)

theorem semCyc_semAt (cyc : Nat) (c : Core) : (semAt cyc c).semCyc = cyc := by
  unfold semAt; split
  · assumption
  · rfl

theorem sem_semAt (cyc j : Nat) (c : Core) : smGet 0 (semAt cyc c).sem j = semStart c cyc j := by
  unfold semAt semStart
  by_cases h : c.semCyc = cyc
  · rw [if_pos h, if_neg (by simp [h])]
  · rw [if_neg h]
    refine (smGet_foldl_semVal c j (semTouched c) c.sem).trans ?_
    simp [h]

theorem semTake_semAt (cyc j : Nat) (c : Core) : smGet 0 (semAt cyc c).semTake j = semTaken c cyc j := by
  unfold semAt semTaken
  split
  · rfl
  · rfl

theorem semDelta_semAt (cyc j : Nat) (c : Core) : smGet 0 (semAt cyc c).semDelta j = semAdded c cyc j := by
  unfold semAt semAdded
  split
  · rfl
  · rfl

theorem semMoves_bell (cyc key : Nat) (n : Int) (c : Core) : SemMoves cyc key 0 n c (bell cyc key n c) := by
  have hcyc : (bell cyc key n c).semCyc = cyc := semCyc_semAt cyc c
  refine ⟨hcyc, fun j => ?_, fun j => ?_, fun j => ?_⟩
  · rw [← sem_semAt cyc j c]
    unfold semStart
    rw [if_neg (by simp [hcyc])]
    rfl
  · rw [← semTake_semAt cyc j c]
    unfold semTaken
    rw [if_pos hcyc, ite_self]
    rfl
  · rw [← semDelta_semAt cyc j c]
    unfold semAdded
    rw [if_pos hcyc]
    refine (smGet_smUpd 0 _ key j (· + n)).trans ?_
    by_cases hj : j = key
    · simp [hj]
    · simp [hj, Ne.symm hj]

/-! ### The end of a transfer at its core (R103 to R105) -/

/-- The core after a post of `cnt`; none is made of 0. -/
def posted (cyc bank sem cnt : Nat) : Core → Core := if cnt = 0 then id else bell cyc (semKey bank sem) cnt

/-- The core whose inbound transfer ended in a cycle. -/
def inboundOver (cyc : Nat) (c : Core) : Core := { c with inboundEnd := max c.inboundEnd (cyc + 1) }

theorem coreStep_doorPost {l cyc bank sem cnt : Nat} {s : State} (hp : inPark (getCore s l) = false)
    (h : (getCore s l).semCyc = cyc ∨ semFaults s l = []) :
    CoreStep l (posted cyc bank sem cnt) s (doorPost l cyc bank sem cnt s) := by
  unfold doorPost posted
  split
  · exact .refl l s
  · rw [if_neg (by simp [hp])]
    exact coreStep_semAdd h

theorem lapse_of_not_dead {l cyc : Nat} {s : State} (h : (getCore s l).dead = false) : lapse l cyc s = s := by
  unfold lapse
  rw [if_neg (by simp [h])]

theorem dead_semAt (cyc : Nat) (c : Core) : (semAt cyc c).dead = c.dead := by
  unfold semAt; split <;> rfl

theorem dead_posted (cyc bank sem cnt : Nat) (c : Core) : (posted cyc bank sem cnt c).dead = c.dead := by
  unfold posted
  split
  · rfl
  · exact dead_semAt cyc c

/-- A transfer ends at a core that is not parked and reports no DEADLOCK: it posts. -/
theorem coreStep_transferEnds {l cyc bank sem cnt : Nat} {s : State} (hp : inPark (getCore s l) = false)
    (h : (getCore s l).semCyc = cyc ∨ semFaults s l = []) (hd : (getCore s l).dead = false) :
    CoreStep l (inboundOver cyc ∘ posted cyc bank sem cnt) s
      (lapse l cyc (endInbound l cyc (doorPost l cyc bank sem cnt s))) := by
  have hstep := (coreStep_doorPost (bank := bank) (sem := sem) (cnt := cnt) hp h).trans
    (coreStep_updCore l (inboundOver cyc) (doorPost l cyc bank sem cnt s))
  have hdead : (getCore (endInbound l cyc (doorPost l cyc bank sem cnt s)) l).dead = false :=
    (congrArg Core.dead hstep.core).trans ((dead_posted cyc bank sem cnt _).trans hd)
  rw [lapse_of_not_dead hdead]
  exact hstep

theorem semMoves_posted {cyc bank sem cnt : Nat} (h : 0 < cnt) (c : Core) :
    SemMoves cyc (semKey bank sem) 0 cnt c (posted cyc bank sem cnt c) := by
  unfold posted
  rw [if_neg (by omega)]
  exact semMoves_bell cyc _ _ c

theorem ls_posted (cyc bank sem cnt : Nat) (c : Core) : (posted cyc bank sem cnt c).ls = c.ls := by
  unfold posted bell semAt
  split
  · rfl
  · dsimp only; split <;> rfl

theorem landing_posted (cyc bank sem cnt : Nat) (c : Core) : (posted cyc bank sem cnt c).landing = c.landing := by
  unfold posted bell semAt
  split
  · rfl
  · dsimp only; split <;> rfl

theorem outst_posted (cyc bank sem cnt : Nat) (c : Core) : (posted cyc bank sem cnt c).outst = c.outst := by
  unfold posted bell semAt
  split
  · rfl
  · dsimp only; split <;> rfl

/-! ### What DW-IN writes (R86, R103, R322) -/

/-- The cores differ in the local store and what follows its writes alone. -/
def StoreOnly (c d : Core) : Prop := d = { c with ls := d.ls, fresh := d.fresh, sig := d.sig }

theorem StoreOnly.trans {c d e : Core} (h : StoreOnly c d) (h' : StoreOnly d e) : StoreOnly c e := by
  unfold StoreOnly at *
  rw [h']
  dsimp only
  rw [h]

theorem storeOnly_lsPut (lost : List Nat) (bs : List Byte) : ∀ (c : Core) (a : Nat), StoreOnly c (lsPut lost c a bs) := by
  induction bs with
  | nil => exact fun c a => rfl
  | cons b bs ih =>
    intro c a
    unfold lsPut
    split
    · exact ih _ _
    · exact StoreOnly.trans (d := { c with ls := smSet 0 c.ls a b, fresh := smSet false c.fresh (a / 64) true }) rfl (ih _ _)

theorem storeOnly_sigLines (n : Nat) : ∀ (c : Core) (l : Nat), StoreOnly c (sigLines c l n) := by
  induction n with
  | zero => exact fun c l => rfl
  | succ n ih =>
    intro c l
    exact StoreOnly.trans (d := { c with sig := crc64Run c.sig (leBytes 4 (64 * l) ++ lsRead c (64 * l) 64) }) rfl (ih _ _)

theorem ls_sigLines (n : Nat) : ∀ (c : Core) (l : Nat), (sigLines c l n).ls = c.ls := by
  induction n with
  | zero => exact fun c l => rfl
  | succ n ih => exact fun c l => ih _ _

theorem storeOnly_lsWrite (lost : List Nat) (c : Core) (a : Nat) (bs : List Byte) : StoreOnly c (lsWrite lost c a bs) := by
  unfold lsWrite
  split
  · rfl
  · exact (storeOnly_lsPut lost bs c a).trans (storeOnly_sigLines _ _ _)

/-- A byte after a write that loses no line: the byte written, within the store. -/
theorem lsByte_lsPut (bs : List Byte) : ∀ (c : Core) (a x : Nat),
    lsByte (lsPut [] c a bs) x = if a ≤ x ∧ x < a + bs.length ∧ x < lsBytes then bs.getD (x - a) 0 else lsByte c x := by
  induction bs with
  | nil =>
    intro c a x
    rw [if_neg (by simp; omega)]
    rfl
  | cons b bs ih =>
    intro c a x
    have hlen : (b :: bs).length = bs.length + 1 := rfl
    unfold lsPut
    split
    · next hout =>
      have hout : lsBytes ≤ a := by simpa using hout
      rw [ih, if_neg (by omega), if_neg (by omega)]
    · next hin =>
      have hin : a < lsBytes := by simpa using hin
      rw [ih]
      by_cases hx : a = x
      · subst hx
        rw [if_neg (by omega), if_pos (by omega)]
        simp [lsByte, smGet_smSet]
      · have hbelow : lsByte { c with ls := smSet 0 c.ls a b, fresh := smSet false c.fresh (a / 64) true } x = lsByte c x :=
          smGet_smSet_other 0 c.ls a x b hx
        rw [hbelow]
        by_cases hr : a ≤ x ∧ x < a + (b :: bs).length ∧ x < lsBytes
        · rw [if_pos (by omega), if_pos hr, show x - a = (x - (a + 1)) + 1 by omega, List.getD_cons_succ]
        · rw [if_neg (by omega), if_neg hr]

theorem lsByte_lsWrite (bs : List Byte) (c : Core) (a x : Nat) :
    lsByte (lsWrite [] c a bs) x = if a ≤ x ∧ x < a + bs.length ∧ x < lsBytes then bs.getD (x - a) 0 else lsByte c x := by
  unfold lsWrite
  cases bs with
  | nil => exact (if_neg (show ¬ (a ≤ x ∧ x < a + 0 ∧ x < lsBytes) by omega)).symm
  | cons b bs =>
    rw [if_neg (by simp), ← lsByte_lsPut]
    unfold lsByte
    rw [ls_sigLines]

/-- One beat of an arrival. -/
def beatWrite (lostBeats : List Nat) (line : Nat) (data : List Byte) (c : Core) (b : Nat) : Core :=
  if lostBeats.contains b then c else lsWrite [] c (64 * (line + b)) ((data.drop (64 * b)).take 64)

theorem beatWrite_of_mem {lostBeats : List Nat} {b : Nat} (h : b ∈ lostBeats) (line : Nat) (data : List Byte) (c : Core) :
    beatWrite lostBeats line data c b = c := if_pos (by simpa using h)

theorem beatWrite_of_not_mem {lostBeats : List Nat} {b : Nat} (h : b ∉ lostBeats) (line : Nat) (data : List Byte) (c : Core) :
    beatWrite lostBeats line data c b = lsWrite [] c (64 * (line + b)) ((data.drop (64 * b)).take 64) :=
  if_neg (by simpa using h)

theorem doorWrite_eq (lostBeats : List Nat) (line : Nat) (data : List Byte) (c : Core) :
    doorWrite lostBeats [] line data c = (List.range (data.length / 64)).foldl (beatWrite lostBeats line data) c := rfl

theorem storeOnly_doorWrite (lostBeats : List Nat) (line : Nat) (data : List Byte) (c : Core) :
    StoreOnly c (doorWrite lostBeats [] line data c) := by
  rw [doorWrite_eq]
  generalize data.length / 64 = n
  induction n with
  | zero => rfl
  | succ n ih =>
    rw [List.range_succ, List.foldl_append]
    refine ih.trans ?_
    show StoreOnly _ (beatWrite _ _ _ _ n)
    by_cases hl : n ∈ lostBeats
    · rw [beatWrite_of_mem hl]; rfl
    · rw [beatWrite_of_not_mem hl]
      exact storeOnly_lsWrite _ _ _ _

/-- A byte after the first `n` beats: that of its beat, when that beat was not discarded. -/
theorem lsByte_beats {lostBeats : List Nat} {line : Nat} {data : List Byte} (c : Core) (x : Nat) {n : Nat}
    (hn : 64 * n ≤ data.length) :
    lsByte ((List.range n).foldl (beatWrite lostBeats line data) c) x =
      if 64 * line ≤ x ∧ x < 64 * (line + n) ∧ x < lsBytes ∧ x / 64 - line ∉ lostBeats then data.getD (x - 64 * line) 0
      else lsByte c x := by
  induction n with
  | zero => rw [if_neg (by omega)]; rfl
  | succ n ih =>
    have hlen : ((data.drop (64 * n)).take 64).length = 64 := by simp; omega
    rw [List.range_succ, List.foldl_append]
    show lsByte (beatWrite lostBeats line data _ n) x = _
    have ih := ih (by omega)
    by_cases hl : n ∈ lostBeats
    · have hother : x / 64 - line ∉ lostBeats → ¬ (64 * (line + n) ≤ x ∧ x < 64 * (line + n) + 64) :=
        fun h hx => h (by rwa [show x / 64 - line = n by omega])
      rw [beatWrite_of_mem hl, ih]
      exact if_congr ⟨fun ⟨h1, h2, h3⟩ => ⟨h1, by omega, h3⟩,
        fun ⟨h1, h2, h3, h4⟩ => ⟨h1, by have := hother h4; omega, h3, h4⟩⟩
        rfl rfl
    · rw [beatWrite_of_not_mem hl, lsByte_lsWrite, hlen, ih]
      by_cases hbeat : 64 * (line + n) ≤ x ∧ x < 64 * (line + n) + 64 ∧ x < lsBytes
      · obtain ⟨hlo, hhi, hx⟩ := hbeat
        rw [if_pos ⟨hlo, hhi, hx⟩, if_pos ⟨by omega, by omega, hx, by rwa [show x / 64 - line = n by omega]⟩]
        simp only [List.getD_eq_getElem?_getD]
        rw [List.getElem?_take_of_lt (by omega), List.getElem?_drop, show 64 * n + (x - 64 * (line + n)) = x - 64 * line by omega]
      · rw [if_neg hbeat]
        exact if_congr ⟨fun ⟨h1, h2, h3⟩ => ⟨h1, by omega, h3⟩,
          fun ⟨h1, h2, h3, h4⟩ => ⟨h1, by omega, h3, h4⟩⟩ rfl rfl

theorem lsByte_doorWrite {lostBeats : List Nat} {line : Nat} {data : List Byte} (c : Core) (x : Nat)
    (hn : data.length % 64 = 0) :
    lsByte (doorWrite lostBeats [] line data c) x =
      if 64 * line ≤ x ∧ x < 64 * line + data.length ∧ x < lsBytes ∧ x / 64 - line ∉ lostBeats
      then data.getD (x - 64 * line) 0
      else lsByte c x := by
  rw [doorWrite_eq, lsByte_beats c x (by omega), show 64 * (line + data.length / 64) = 64 * line + data.length by omega]

/-! ### SEND (R100, R101) -/

theorem inRect_congr {s t : State} (hhif : t.hif = s.hif) (n l : Nat) : inRect t n l = inRect s n l := by
  have hval : ∀ n i, partVal t n i = partVal s n i := fun n i => by unfold partVal partVals; rw [hhif]
  simp only [inRect, rectPart, isFiller, hval]
  rfl

theorem corePart_advanced (i : Issue) (w : Nat) (c : Core) : corePart (advanced i w c) = corePart c := rfl

/-- What a SEND puts on the mesh. -/
def sentXfer (i : Issue) (w x : Nat) (data : List Byte) : Xfer :=
  { src := i.core.lcid, dst := fSendDst w, due := i.cyc + sendLatency i.core.lcid (fSendDst w) + (fSendLen x + 1) - 1,
    gone := [], line := fSendDl w, cnt := fSendCnt w, sem := fSendSem w, bank := fSendBank x, data := data }

/-- A transfer is on the mesh. -/
def meshed (m : Xfer) (s : State) : State := { s with mesh := s.mesh ++ [m] }

theorem changesOnly_meshed (m : Xfer) (s : State) : ChangesOnly [.mesh] s (meshed m s) := fun p hp => by
  cases p <;> simp_all [Part.same, meshed]

theorem outst_beating (i : Issue) (w n : Nat) (c : Core) :
    (beating i w n c).outst = c.outst ++ [doneAt i w (i.cyc + n - 1)] := rfl

theorem bare_beating (i : Issue) (w n : Nat) (c : Core) : bare (beating i w n c) = bare c := rfl

theorem outst_advanced (i : Issue) (w : Nat) (c : Core) : (advanced i w c).outst = c.outst := rfl

theorem bare_advanced (i : Issue) (w : Nat) (c : Core) : bare (advanced i w c) = bare c := rfl

/-- The issue of a transfer that goes on the mesh with its beats. -/
theorem issued_meshed {i : Issue} {w n : Nat} (m : Xfer) {s : State} (hs : canIssue s i = true) :
    Issued i w (i.cyc + n) (goesOn i s) [doneAt i w (i.cyc + n - 1)] id [.mesh] s
      (completes i w (i.cyc + n - 1) (holdFor i n (meshed m (issued i w s)))) := by
  have hcore : getCore (completes i w (i.cyc + n - 1) (holdFor i n (meshed m (issued i w s)))) i.core.lcid =
      beating i w n (advanced i w (getCore s i.core.lcid)) :=
    (getCore_beats i w n _).trans (congrArg (beating i w n) (getCore_issued i w s))
  refine Issued.of_core hs hcore ?_ (fun e he => ?_) (by rw [outst_beating, outst_advanced])
    (by rw [bare_beating, bare_advanced]) (fun d hd => getCore_beats_other i w n _ hd) ?_ (by decide)
  · rw [getEng_beating_same, advanced, getEng_updEng_same]
    rfl
  · rw [getEng_beating_other _ _ _ _ he, advanced, getEng_updEng_other _ _ he]
  · exact ((changesOnly_meshed m _).mono (by simp)).trans
      (((changesOnly_updCore _ _ _).mono (by simp)).trans ((changesOnly_updCore _ _ _).mono (by simp)))

theorem sendEff_inside {i : Issue} {w x : Nat} {s : State} (hacc : i.acc = [])
    (h : inRect s (corePart (getCore s i.core.lcid)) (fSendDst w) = true) :
    sendEff i w x s = completes i w (i.cyc + (fSendLen x + 1) - 1) (holdFor i (fSendLen x + 1)
      (meshed (sentXfer i w x (outBytes s i (fSendSl w) (fSendLen x + 1))) s)) := by
  have hgone : edgeLines i.acc = [] := by rw [hacc]; rfl
  unfold sendEff
  rw [if_neg (by simp [h]), onEdge_nil hacc]
  dsimp only
  rw [outbound_nil hacc, hgone]
  rfl

theorem sendEff_outside {i : Issue} {w x : Nat} {s : State}
    (h : inRect s (corePart (getCore s i.core.lcid)) (fSendDst w) = false) :
    sendEff i w x s = illegalOp i.core.lcid i.cyc s := by
  unfold sendEff
  exact if_pos (by simp [h])

/-- A fault of a core that stops the plan fences nothing. -/
theorem unfencing_coreFault (s : State) (c cyc detail : Nat) {code : Nat} (h : code ≠ 0x30) :
    Unfencing (coreFault s c code clPlan cyc detail) := ⟨by show clPlan ≠ clHard; decide, h⟩

theorem illegalOp_taken (c cyc : Nat) (s : State) : FaultTaken (coreFault s c 0x13 clPlan cyc 0) s (illegalOp c cyc s) :=
  takeFault_taken (unfencing_coreFault s c cyc 0 (by decide)) s

/-- A fault leaves every core as it was. -/
theorem FaultTaken.getCore_eq {r : FaultRec} {s t : State} (h : FaultTaken r s t) (d : Nat) : getCore t d = getCore s d := by
  unfold getCore
  rw [h.parts .cores (by decide)]

/-! ### An arrival (R102, R103, R111) -/

theorem takeXfer_append {s : State} {dst cyc : Nat} {m : Xfer} {r : List Xfer} (hd : m.dst = dst)
    (ha : arrivesAt s cyc m = true) :
    ∀ l : List Xfer, (∀ q ∈ l, q.dst ≠ dst ∨ arrivesAt s cyc q = false) →
      takeXfer s dst cyc (l ++ m :: r) = some (m, l ++ r)
  | [], _ => by
    show takeXfer s dst cyc (m :: r) = _
    unfold takeXfer
    exact if_pos (by simp [hd, ha])
  | q :: l, h => by
    have hq := h q (by simp)
    have ih := takeXfer_append (r := r) hd ha l fun x hx => h x (by simp [hx])
    show takeXfer s dst cyc (q :: (l ++ m :: r)) = _
    unfold takeXfer
    rw [if_neg (by rcases hq with hq | hq <;> simp [hq]), ih]
    rfl

theorem takeXfer_of_arrives {c : CoreId} {cyc : Nat} {m : Xfer} {l r : List Xfer} {s : State} (h : Arrives c cyc m l r s) :
    takeXfer s c.lcid cyc s.mesh = some (m, l ++ r) := by
  obtain ⟨hmesh, hbefore, hdst, harr⟩ := h
  rw [hmesh]
  exact takeXfer_append hdst harr l hbefore

/-- What is left on the mesh. -/
def meshLeft (ms : List Xfer) (s : State) : State := { s with mesh := ms }

theorem changesOnly_meshLeft (ms : List Xfer) (s : State) : ChangesOnly [.mesh] s (meshLeft ms s) := fun p hp => by
  cases p <;> simp_all [Part.same, meshLeft]

/-- The store of core `c` after an arrival whose beats `gone` were discarded. -/
def doorWritten (c : CoreId) (gone : List Nat) (m : Xfer) (s : State) : State :=
  updCore s c.lcid (doorWrite gone [] m.line m.data)

/-- The end of transfer `m` at its core. -/
def arrivalEnd (c : CoreId) (cyc : Nat) (m : Xfer) (s : State) : State :=
  lapse c.lcid cyc (endInbound c.lcid cyc (doorPost c.lcid cyc m.bank m.sem m.cnt s))

theorem doorwayArrival_unparked {c : CoreId} {cyc : Nat} {lost : List BeatLoss} {m : Xfer} {l r : List Xfer} {s : State}
    (h : Arrives c cyc m l r s) (hp : inPark (getCore s c.lcid) = false) :
    exec (.doorwayArrival c cyc lost []) s = .next (
      let zs := lost.filter (beatLost m)
      let u := doorWritten c (m.gone ++ zs.map fun z => z.beat) m (meshLeft (l ++ r) s)
      arrivalEnd c cyc m (takeFaults (zs.map (lossFault u m cyc) ++ []) u)) := by
  show execDoorwayArrival c cyc lost [] s = _
  unfold execDoorwayArrival
  rw [takeXfer_of_arrives h]
  dsimp only
  exact congrArg Host.Outcome.next (if_neg (show ¬ inPark (getCore s c.lcid) = true by simp [hp]))

theorem doorwayArrival_whole {c : CoreId} {cyc : Nat} {m : Xfer} {l r : List Xfer} {s : State}
    (h : Arrives c cyc m l r s) (hp : inPark (getCore s c.lcid) = false) (hgone : m.gone = []) :
    exec (.doorwayArrival c cyc [] []) s = .next (arrivalEnd c cyc m (doorWritten c [] m (meshLeft (l ++ r) s))) := by
  rw [doorwayArrival_unparked h hp, hgone]
  rfl

theorem doorwayArrival_lost {c : CoreId} {cyc : Nat} {z : BeatLoss} {m : Xfer} {l r : List Xfer} {s : State}
    (h : Arrives c cyc m l r s) (hp : inPark (getCore s c.lcid) = false) (hz : beatLost m z = true) :
    exec (.doorwayArrival c cyc [z] []) s = .next (arrivalEnd c cyc m
      (takeFault (lossFault (doorWritten c (m.gone ++ [z.beat]) m (meshLeft (l ++ r) s)) m cyc z)
        (doorWritten c (m.gone ++ [z.beat]) m (meshLeft (l ++ r) s)))) := by
  rw [doorwayArrival_unparked h hp, List.filter_cons_of_pos hz]
  rfl

theorem doorwayArrival_parked {c : CoreId} {cyc : Nat} {m : Xfer} {l r : List Xfer} {s : State} (h : Arrives c cyc m l r s)
    (hp : inPark (getCore s c.lcid) = true) :
    exec (.doorwayArrival c cyc [] []) s = .next (illegalOp c.lcid cyc (meshLeft (l ++ r) s)) := by
  show execDoorwayArrival c cyc [] [] s = _
  unfold execDoorwayArrival
  rw [takeXfer_of_arrives h]
  dsimp only
  exact congrArg Host.Outcome.next (if_pos (show inPark (getCore s c.lcid) = true from hp))

/-- A core that differs in its store alone stands as it stood on its Bell board, its park and its report. -/
theorem StoreOnly.board {c d : Core} (h : StoreOnly c d) : SameBoard c d ∧ inPark d = inPark c ∧ d.dead = c.dead := by
  rw [show d = _ from h]
  exact ⟨⟨rfl, rfl, rfl, rfl⟩, rfl, rfl⟩

theorem coreStep_doorWritten (c : CoreId) (gone : List Nat) (m : Xfer) (s : State) :
    CoreStep c.lcid (doorWrite gone [] m.line m.data) s (doorWritten c gone m s) := coreStep_updCore _ _ s

/-- What an arrival's end needs of its core stands after the write of its beats. -/
theorem CoreStep.ends {l cyc : Nat} {f : Core → Core} {s t : State} (h : CoreStep l f s t)
    (hf : StoreOnly (getCore s l) (f (getCore s l)))
    (hp : inPark (getCore s l) = false) (hsem : (getCore s l).semCyc = cyc ∨ semFaults s l = [])
    (hd : (getCore s l).dead = false) :
    inPark (getCore t l) = false ∧ ((getCore t l).semCyc = cyc ∨ semFaults t l = []) ∧ (getCore t l).dead = false := by
  obtain ⟨hboard, hpark, hdead⟩ := hf.board
  rw [← h.core] at hboard hpark hdead
  refine ⟨hpark.trans hp, ?_, hdead.trans hd⟩
  rcases hsem with hsem | hsem
  · exact .inl (hboard.2.1.trans hsem)
  · exact .inr (semFaults_of_board hboard hsem)

theorem lsByte_ends (cyc bank sem cnt : Nat) (c : Core) (a : Nat) :
    lsByte ((inboundOver cyc ∘ posted cyc bank sem cnt) c) a = lsByte c a := by
  show smGet 0 (posted cyc bank sem cnt c).ls a = smGet 0 c.ls a
  rw [ls_posted]

theorem semMoves_ends {cyc bank sem cnt : Nat} (h : 0 < cnt) (c : Core) :
    SemMoves cyc (semKey bank sem) 0 cnt c ((inboundOver cyc ∘ posted cyc bank sem cnt) c) :=
  (semMoves_posted h c).of_board ⟨rfl, rfl, rfl, rfl⟩ ⟨rfl, rfl, rfl, rfl⟩

theorem lsRead_eq_of_bytes {c : Core} {a : Nat} {bs : List Byte} (h : ∀ i, i < bs.length → lsByte c (a + i) = bs.getD i 0) :
    lsRead c a bs.length = bs := by
  unfold lsRead
  rw [smGetList_eq_map]
  refine List.ext_getElem (by simp) fun i _ hi => ?_
  rw [List.getElem_map, List.getElem_range]
  exact (h i hi).trans (by simp [hi])

theorem unfencing_lossFault (s : State) (m : Xfer) (cyc : Nat) (z : BeatLoss) : Unfencing (lossFault s m cyc z) := by
  unfold lossFault
  split <;> exact unfencing_coreFault _ _ _ _ (by decide)

/-- What the log says of a discarded beat. -/
theorem lossFault_says (s : State) (m : Xfer) (cyc : Nat) (z : BeatLoss) :
    (lossFault s m cyc z).code = 0x10 ∧ (lossFault s m cyc z).cyc = cyc ∧
      (lossFault s m cyc z).unitId = (match z.place with | .link router _ => router.lcid | .edge _ => m.src) := by
  unfold lossFault
  cases z.place <;> exact ⟨rfl, rfl, rfl⟩

/-! ### A memory run posts (R83, R104) -/

/-- The core whose run posts: it awaits the run no more, and what the run completes is complete. -/
def runPosted (k tick seq cyc : Nat) (co : Core) : Core :=
  { co with
    landing := co.landing.filter fun q => !(q.stack == k && q.tick == tick && q.seq == seq),
    outst := co.outst.map fun o => if o.run = some (k, tick, seq) then { o with due := some cyc, run := none } else o }

theorem memoryRunPost_may {c : CoreId} {k : StackNo} {tick seq cyc : Nat} {r : Inbound} {s : State}
    (h : mayPost (getCore s c.lcid).landing k.val tick seq = some r) :
    exec (.memoryRunPost c k tick seq cyc) s = .next (lapse c.lcid cyc (endInbound c.lcid cyc
      (doorPost c.lcid cyc r.bank r.sem r.cnt (updCore s c.lcid (runPosted k.val tick seq cyc))))) := by
  show execMemoryRunPost c k tick seq cyc s = _
  unfold execMemoryRunPost
  dsimp only
  rw [h]
  rfl

/-! ### O25 -/

/-- An arrival with no beat discarded writes all its beats and posts (R103). -/
theorem arrival_writes {c : CoreId} {cyc : Nat} {m : Xfer} {l r : List Xfer} {s : State} (harr : Arrives c cyc m l r s)
    (hgone : m.gone = []) (hlen : m.data.length % 64 = 0) (hfit : 64 * m.line + m.data.length ≤ lsBytes)
    (hp : inPark (getCore s c.lcid) = false) (hsem : (getCore s c.lcid).semCyc = cyc ∨ semFaults s c.lcid = [])
    (hd : (getCore s c.lcid).dead = false) :
    Answers (.doorwayArrival c cyc [] []) s fun t =>
      t.mesh = l ++ r ∧ lsRead (getCore t c.lcid) (64 * m.line) m.data.length = m.data ∧
      (∀ a, (a < 64 * m.line ∨ 64 * m.line + m.data.length ≤ a) →
        lsByte (getCore t c.lcid) a = lsByte (getCore s c.lcid) a) ∧
      (0 < m.cnt → SemMoves cyc (semKey m.bank m.sem) 0 m.cnt (getCore s c.lcid) (getCore t c.lcid)) ∧
      (∀ d, d ≠ c.lcid → getCore t d = getCore s d) ∧ ChangesOnly [.mesh, .cores] s t := by
  have hwrite := coreStep_doorWritten c [] m (meshLeft (l ++ r) s)
  obtain ⟨hpark, hboard, hdead⟩ := hwrite.ends (storeOnly_doorWrite _ _ _ _) hp hsem hd
  have hend := coreStep_transferEnds (bank := m.bank) (sem := m.sem) (cnt := m.cnt) hpark hboard hdead
  have hbytes : ∀ a, lsByte (getCore (arrivalEnd c cyc m (doorWritten c [] m (meshLeft (l ++ r) s))) c.lcid) a =
        if 64 * m.line ≤ a ∧ a < 64 * m.line + m.data.length ∧ a < lsBytes ∧ a / 64 - m.line ∉ ([] : List Nat)
        then m.data.getD (a - 64 * m.line) 0 else lsByte (getCore s c.lcid) a := fun a => by
    rw [arrivalEnd, hend.core, lsByte_ends, hwrite.core, lsByte_doorWrite _ _ hlen]
    rfl
  refine ⟨_, doorwayArrival_whole harr hp hgone, ?_, ?_, ?_, ?_, ?_, ?_⟩
  · exact hend.parts .mesh (by decide)
  · refine lsRead_eq_of_bytes fun i hi => ?_
    rw [hbytes, if_pos ⟨by omega, by omega, by omega, by simp⟩, Nat.add_sub_cancel_left]
  · intro a ha
    rw [hbytes, if_neg (by omega)]
  · intro hcnt
    rw [arrivalEnd, hend.core]
    refine (semMoves_ends hcnt _).of_board ?_ ⟨rfl, rfl, rfl, rfl⟩
    rw [hwrite.core]
    exact (storeOnly_doorWrite _ _ _ _).board.1
  · exact fun d hne => (hend.others d hne).trans (hwrite.others d hne)
  · exact ((changesOnly_meshLeft _ s).mono (by decide)).trans
      ((hwrite.parts.mono (by decide)).trans (hend.parts.mono (by decide)))

theorem beatLost_of {m : Xfer} {z : BeatLoss} (hwin : z.winner.lcid < m.src) (hbeat : z.beat < m.data.length / 64)
    (hplace : placeOn (recvRole (m.src / 2 ^ 14) (m.dst / 2 ^ 14)) z.place = true) : beatLost m z = true := by
  unfold beatLost
  rw [hplace, decide_eq_true hwin, decide_eq_true hbeat]
  rfl

/-- A beat discarded for one of a lower source is not written, and its conflict is in the log (R102, R431). -/
theorem arrival_loses {c : CoreId} {cyc : Nat} {z : BeatLoss} {m : Xfer} {l r : List Xfer} {s : State}
    (harr : Arrives c cyc m l r s) (hlen : m.data.length % 64 = 0) (hp : inPark (getCore s c.lcid) = false)
    (hsem : (getCore s c.lcid).semCyc = cyc ∨ semFaults s c.lcid = []) (hd : (getCore s c.lcid).dead = false)
    (hlost : beatLost m z = true) :
    Answers (.doorwayArrival c cyc [z] []) s fun t =>
      t.mesh = l ++ r ∧
      (∀ a, 64 * (m.line + z.beat) ≤ a → a < 64 * (m.line + z.beat) + 64 →
        lsByte (getCore t c.lcid) a = lsByte (getCore s c.lcid) a) ∧
      ∃ e, smGet none t.flt.log (getF s R.FLT_LOG_HEAD.SEQ % 1024) = some e ∧ e.code = 0x10 ∧ e.cycle = cyc % 2 ^ 16 ∧
        e.unitId = (match z.place with | .link router _ => router.lcid | .edge _ => m.src) := by
  obtain ⟨gone, hgone⟩ : ∃ gone, gone = m.gone ++ [z.beat] := ⟨_, rfl⟩
  obtain ⟨u, hu⟩ : ∃ u, u = doorWritten c gone m (meshLeft (l ++ r) s) := ⟨_, rfl⟩
  have hwrite : CoreStep c.lcid (doorWrite gone [] m.line m.data) (meshLeft (l ++ r) s) u := by
    rw [hu]; exact coreStep_doorWritten c gone m _
  obtain ⟨hpark, hboard, hdead⟩ := hwrite.ends (storeOnly_doorWrite _ _ _ _) hp hsem hd
  have htaken := takeFault_taken (unfencing_lossFault u m cyc z) u
  obtain ⟨v, hv⟩ : ∃ v, v = takeFault (lossFault u m cyc z) u := ⟨_, rfl⟩
  rw [← hv] at htaken
  have hcores := htaken.getCore_eq
  have hend := coreStep_transferEnds (s := v) (l := c.lcid) (cyc := cyc) (bank := m.bank) (sem := m.sem) (cnt := m.cnt)
    (by rw [hcores]; exact hpark) (hboard.imp (fun h => by rw [hcores]; exact h)
      fun h => semFaults_of_board (by rw [hcores]; exact ⟨rfl, rfl, rfl, rfl⟩) h) (by rw [hcores]; exact hdead)
  have hentry := htaken.entry
  rw [getF_congr (hwrite.parts .regs (by decide)), getF_congr (changesOnly_meshLeft _ s .regs (by decide))] at hentry
  obtain ⟨hcode, hcyc, hunit⟩ := lossFault_says u m cyc z
  refine ⟨arrivalEnd c cyc m v, (doorwayArrival_lost harr hp hlost).trans (by rw [← hgone, ← hu, ← hv]), ?_, ?_, ?_⟩
  · exact (hend.parts .mesh (by decide)).trans ((htaken.parts .mesh (by decide)).trans (hwrite.parts .mesh (by decide)))
  · intro a hlo hhi
    rw [arrivalEnd, hend.core, lsByte_ends, hcores, hwrite.core, lsByte_doorWrite _ _ hlen, if_neg]
    · rfl
    · rintro ⟨_, _, _, hbeat'⟩
      exact hbeat' (by rw [hgone, show a / 64 - m.line = z.beat by omega]; simp)
  · refine ⟨_, (congrArg (fun f => smGet none f.log _) (hend.parts .flt (by decide))).trans hentry, hcode, ?_, hunit⟩
    show (lossFault u m cyc z).cyc % 2 ^ 16 = _
    rw [hcyc]

/-- A run that may post does so, and the instruction that issued it completes (R83, R104). -/
theorem memoryRun_posts {c : CoreId} {k : StackNo} {tick seq cyc : Nat} {r : Inbound} {s : State}
    (hmay : mayPost (getCore s c.lcid).landing k.val tick seq = some r) (hp : inPark (getCore s c.lcid) = false)
    (hsem : (getCore s c.lcid).semCyc = cyc ∨ semFaults s c.lcid = []) (hd : (getCore s c.lcid).dead = false) :
    Answers (.memoryRunPost c k tick seq cyc) s fun t =>
      (∀ q ∈ (getCore t c.lcid).landing, ¬ (q.stack = k.val ∧ q.tick = tick ∧ q.seq = seq)) ∧
      (∀ o ∈ (getCore s c.lcid).outst, o.run = some (k.val, tick, seq) →
        { o with due := some cyc, run := none } ∈ (getCore t c.lcid).outst) ∧
      (0 < r.cnt → SemMoves cyc (semKey r.bank r.sem) 0 r.cnt (getCore s c.lcid) (getCore t c.lcid)) ∧
      (∀ d, d ≠ c.lcid → getCore t d = getCore s d) ∧ ChangesOnly [.cores] s t := by
  have hpost := coreStep_updCore c.lcid (runPosted k.val tick seq cyc) s
  obtain ⟨u, hu⟩ : ∃ u, u = updCore s c.lcid (runPosted k.val tick seq cyc) := ⟨_, rfl⟩
  rw [← hu] at hpost
  have hboard : SameBoard (getCore s c.lcid) (getCore u c.lcid) := by rw [hpost.core]; exact ⟨rfl, rfl, rfl, rfl⟩
  have hend := coreStep_transferEnds (s := u) (l := c.lcid) (cyc := cyc) (bank := r.bank) (sem := r.sem) (cnt := r.cnt)
    (by rw [hpost.core]; exact hp) (hsem.imp (fun h => hboard.2.1.trans h) fun h => semFaults_of_board hboard h)
    (by rw [hpost.core]; exact hd)
  have hall := hpost.trans hend
  refine ⟨_, (memoryRunPost_may hmay).trans (congrArg Host.Outcome.next (by rw [← hu])), ?_, ?_, ?_, hall.others,
    hall.parts⟩
  · intro q hq
    rw [hall.core] at hq
    have hq : q ∈ (posted cyc r.bank r.sem r.cnt (runPosted k.val tick seq cyc (getCore s c.lcid))).landing := hq
    rw [landing_posted] at hq
    rintro ⟨hk, ht, hs⟩
    simpa [hk, ht, hs] using (List.mem_filter.mp hq).2
  · intro o ho hrun
    rw [hall.core]
    show _ ∈ (posted cyc r.bank r.sem r.cnt (runPosted k.val tick seq cyc (getCore s c.lcid))).outst
    rw [outst_posted]
    exact List.mem_map.mpr ⟨o, ho, if_pos hrun⟩
  · intro hcnt
    rw [hend.core]
    exact (semMoves_ends hcnt _).of_board hboard ⟨rfl, rfl, rfl, rfl⟩

/-- Settles O25: a SEND as the other outbound transfers; an arrival and a post by what their core becomes
(`coreStep_transferEnds`), a lost beat by its fault's entry. -/
theorem sendsArriveAndRunsPost : Obligations.SendsArriveAndRunsPost := by
  refine ⟨?_, ?_, ?_, ?_, ?_, ?_, ?_⟩
  · intro i w x s hf hin
    have hin' : inRect (issued i w s) (corePart (getCore (issued i w s) i.core.lcid)) (fSendDst w) = true := by
      rw [getCore_issued, corePart_advanced, inRect_congr (changesOnly_issued i w s .hif (by decide)), hin]
    refine ⟨sendEff i w x (issued i w s), ?_, ?_⟩
    · exact congrArg Host.Outcome.next (issueOp_of_fetches hf (sendEff i))
    · rw [sendEff_inside hf.acc hin', outBytes_issued]
      refine ⟨issued_meshed _ hf.can, ?_⟩
      show (issued i w s).mesh ++ _ = _
      rw [changesOnly_issued i w s .mesh (by decide)]
      rfl
  · intro i w x s hf hout
    have hout' : inRect (issued i w s) (corePart (getCore (issued i w s) i.core.lcid)) (fSendDst w) = false := by
      rw [getCore_issued, corePart_advanced, inRect_congr (changesOnly_issued i w s .hif (by decide)), hout]
    have htaken := illegalOp_taken i.core.lcid i.cyc (issued i w s)
    have hentry := htaken.entry
    rw [(regsBut_issued i w s).getF_eq (by decide)] at hentry
    refine ⟨sendEff i w x (issued i w s), ?_, ?_⟩
    · exact congrArg Host.Outcome.next (issueOp_of_fetches hf (sendEff i))
    · rw [sendEff_outside hout']
      refine ⟨(htaken.parts .mesh (by decide)).trans (changesOnly_issued i w s .mesh (by decide)), ?_, _, hentry, rfl, rfl⟩
      show (getEng (getCore _ i.core.lcid) i.eng.no).free = _
      rw [htaken.getCore_eq, getCore_issued, advanced, getEng_updEng_same]
      rfl
  · exact fun c cyc m l r s => arrival_writes
  · intro c cyc m l r s harr hp
    have htaken := illegalOp_taken c.lcid cyc (meshLeft (l ++ r) s)
    refine ⟨_, doorwayArrival_parked harr hp, htaken.parts .mesh (by decide), fun a => ?_, _, htaken.entry, rfl, rfl⟩
    rw [htaken.getCore_eq]
    rfl
  · exact fun c cyc z m l r s harr hlen hp hsem hd hwin hbeat hplace =>
      arrival_loses harr hlen hp hsem hd (beatLost_of hwin hbeat hplace)
  · exact fun c k tick seq cyc r s => memoryRun_posts
  · intro c k tick seq cyc s hmay
    show execMemoryRunPost c k tick seq cyc s = _
    unfold execMemoryRunPost
    dsimp only
    rw [hmay]

end Sys2Proof.Machine
end

section
/-! The phases of bring-up: a phase that begins, a bring-up that stops, a row outside its phase (R350, R352). -/

namespace Sys2Proof.Machine

/-! ### Rows and phases -/

theorem phase_of_other {k : Nat} {work : State → Nat × State} {s : State} (h : s.hearth.closed = false ∨ s.bu.next ≠ k) :
    phase k work s = s := by
  unfold phase
  rw [if_neg]
  rcases h with h | h <;> simp [h]

theorem phase_of_next {k : Nat} (work : State → Nat × State) {s : State} (hc : s.hearth.closed = true) (hn : s.bu.next = k) :
    phase k work s = endPhase k (work s).1 (work s).2 := by
  unfold phase
  rw [if_pos (by simp [hc, hn])]

theorem endPhase_next {k : Nat} {s : State} (hk : k ≠ 1) (hf : getF s R.FLT_SUSPECT.FLAGGED = 0) :
    endPhase k 0 s = beginPhase (k + 1) s := by
  unfold endPhase
  rw [if_neg (by simp), if_neg (by simp [flagF_of_eq_zero hf]), if_neg hk]

theorem endPhase_discovery {s : State} (hf : getF s R.FLT_SUSPECT.FLAGGED = 0) :
    endPhase 1 0 s = startDiscovery (beginPhase 2 s) := by
  unfold endPhase
  rw [if_neg (by simp), if_neg (by simp [flagF_of_eq_zero hf]), if_pos rfl]

theorem endPhase_stop {k reason : Nat} {s : State} (h : reason ≠ 0) : endPhase k reason s = stopBringup k reason s :=
  if_pos h

/-! ### A phase begins -/

/-- Phase `k` has begun. -/
structure PhaseBegun (k : Nat) (s t : State) : Prop where
  bu : t.bu = { s.bu with next := k }
  shown : getF t R.BU_PHASE.PHASE = k % 2 ^ 4
  raised : raised E.BRINGUP.PHASE t
  regs : RegsBut (R.BU_PHASE.PHASE :: evFlds E.BRINGUP.PHASE) s t
  parts : ChangesOnly [.bu, .regs, .hif, .out] s t
  kept : RaisedKept s t

/-- The next row is that of phase `k`. -/
def nextPhase (k : Nat) (s : State) : State := { s with bu := { s.bu with next := k } }

theorem changesOnly_nextPhase (k : Nat) (s : State) : ChangesOnly [.bu] s (nextPhase k s) := fun p hp => by
  cases p <;> simp_all [Part.same, nextPhase]

theorem beginPhase_begun (k : Nat) (s : State) : PhaseBegun k s (beginPhase k s) := by
  obtain ⟨u, hu⟩ : ∃ u, u = setF (nextPhase k s) R.BU_PHASE.PHASE k := ⟨_, rfl⟩
  have ht : beginPhase k s = raise E.BRINGUP.PHASE u := by rw [hu]; rfl
  have hbu : u.bu = { s.bu with next := k } := by rw [hu]; exact setF_bu _ _ _
  have hregs : RegsBut [R.BU_PHASE.PHASE] s u := by
    rw [hu]; exact RegsBut.trans (.of_regs rfl) (regsBut_setF (nextPhase k s) _ (by simp))
  have hparts : ChangesOnly [.bu, .regs] s u := by
    rw [hu]; exact ((changesOnly_nextPhase k s).mono (by simp)).trans ((changesOnly_setF _ _ _).mono (by simp))
  have hkept : RaisedKept s u := by
    rw [hu]; exact RaisedKept.trans (.of_regs rfl) (raisedKept_setF (nextPhase k s) _ (by decide))
  rw [ht]
  exact
    { bu := (raise_bu _ _).trans hbu
      shown := by rw [getF_raise_other _ _ _ (by decide), hu]; exact getF_setF _ _ _
      raised := raised_raise _ _ (by decide)
      regs := (hregs.mono (by simp)).trans (regsBut_raise _ _ (by simp))
      parts := (hparts.mono (by simp)).trans ((changesOnly_raise _ _).mono (by simp))
      kept := hkept.trans (raisedKept_raise _ _) }

/-! ### The bring-up stops -/

/-- The fields that a change of TOP_STATE may write. -/
def stateFlds : List Fld := R.TOP_STATE.STATE :: evFlds E.TOP.STATE

theorem regsBut_setTop (v : Nat) (s : State) : RegsBut stateFlds s (setTop v s) := by
  unfold setTop
  split
  · exact .refl _ s
  · exact (regsBut_setF s _ (by decide)).trans (regsBut_raise _ _ (by decide))

theorem raisedKept_setTop (v : Nat) (s : State) : RaisedKept s (setTop v s) := by
  unfold setTop
  split
  · exact .refl s
  · exact (raisedKept_setF s _ (by decide)).trans (raisedKept_raise _ _)

theorem topState_setTop {v : Nat} (hv : v < 2 ^ 3) (s : State) : topState (setTop v s) = v := by
  unfold setTop
  split
  · assumption
  · exact (getF_raise_other _ _ _ (by decide)).trans ((getF_setF _ _ _).trans (Nat.mod_eq_of_lt hv))

theorem regsBut_goFlagged (s : State) : RegsBut (stateFlds ++ evFlds E.FAULT.FLAGGED) s (goFlagged s) := by
  unfold goFlagged
  split
  · exact .refl _ s
  · exact ((regsBut_setTop _ s).mono (by simp)).trans (regsBut_raise _ _ (by simp))

theorem raisedKept_goFlagged (s : State) : RaisedKept s (goFlagged s) := by
  unfold goFlagged
  split
  · exact .refl s
  · exact (raisedKept_setTop _ s).trans (raisedKept_raise _ _)

theorem topState_goFlagged (s : State) : topState (goFlagged s) = stFlagged := by
  unfold goFlagged
  split
  · assumption
  · exact (getF_raise_other _ _ _ (by decide)).trans (topState_setTop (by decide) s)

/-- The fields that a bring-up that stops writes. -/
def stopFlds : List Fld :=
  [R.BU_PHASE.STOP, R.BU_PHASE.REASON, R.BU_TIME_US.TIME] ++ stateFlds ++ evFlds E.FAULT.FLAGGED ++ evFlds E.BRINGUP.BU_FLAGGED

/-- The bring-up has stopped at the end of phase `k`. -/
structure Stopped (k reason : Nat) (s t : State) : Prop where
  bu : t.bu = { s.bu with next := 9 }
  stop : getF t R.BU_PHASE.STOP = k % 2 ^ 4
  reason : getF t R.BU_PHASE.REASON = reason % 2 ^ 8
  top : topState t = stFlagged
  raised : raised E.BRINGUP.BU_FLAGGED t
  regs : RegsBut stopFlds s t
  parts : ChangesOnly [.bu, .regs, .out, .hif] s t
  kept : RaisedKept s t

/-- Phase and reason of the stop are shown. -/
def stopShown (k reason : Nat) (s : State) : State := setFs s [(R.BU_PHASE.STOP, k), (R.BU_PHASE.REASON, reason)]

theorem changesOnly_endBringup (s : State) : ChangesOnly [.bu, .regs] s (endBringup s) := fun p hp => by
  cases p <;> simp_all [Part.same, endBringup]

theorem regsBut_endBringup (s : State) : RegsBut [R.BU_TIME_US.TIME] s (endBringup s) :=
  (regsBut_setF s _ (by simp)).trans (.of_regs rfl)

theorem raisedKept_endBringup (s : State) : RaisedKept s (endBringup s) :=
  (raisedKept_setF s _ (by decide)).trans (.of_regs rfl)

theorem endBringup_bu (s : State) : (endBringup s).bu = { s.bu with next := 9 } := rfl

theorem stopBringup_stopped (k reason : Nat) (s : State) : Stopped k reason s (stopBringup k reason s) := by
  obtain ⟨u, hu⟩ : ∃ u, u = stopShown k reason s := ⟨_, rfl⟩
  have hkeys : ([R.BU_PHASE.STOP, R.BU_PHASE.REASON].map fldKey).Nodup := by decide
  have hstop : getF u R.BU_PHASE.STOP = k % 2 ^ 4 := by
    rw [hu]; exact getF_setFs (l := [(_, _), (_, _)]) (v := k) hkeys (.head _) s
  have hreason : getF u R.BU_PHASE.REASON = reason % 2 ^ 8 := by
    rw [hu]; exact getF_setFs (l := [(_, _), (_, _)]) (v := reason) hkeys (.tail _ (.head _)) s
  have hshown : RegsBut [R.BU_PHASE.STOP, R.BU_PHASE.REASON] s u := by rw [hu]; exact regsBut_setFs _ s (by simp)
  have hkept : RaisedKept s u := by
    rw [hu]; exact raisedKept_setFs _ s (by simpa using (by decide : NotEvt R.BU_PHASE.STOP ∧ NotEvt R.BU_PHASE.REASON))
  have hparts : ChangesOnly [.regs] s u := by rw [hu]; exact changesOnly_setFs s _
  obtain ⟨v, hv⟩ : ∃ v, v = goFlagged (endBringup u) := ⟨_, rfl⟩
  have hrest : RegsBut ([R.BU_TIME_US.TIME] ++ (stateFlds ++ evFlds E.FAULT.FLAGGED)) u v := by
    rw [hv]
    exact ((regsBut_endBringup u).mono (List.subset_append_left _ _)).trans
      ((regsBut_goFlagged _).mono (List.subset_append_right _ _))
  have hvparts : ChangesOnly [.bu, .regs, .out, .hif] u v := by
    rw [hv]; exact ((changesOnly_endBringup u).mono (by simp)).trans ((changesOnly_goFlagged _).mono (by simp))
  have hvbu : v.bu = { s.bu with next := 9 } := by
    rw [hv, changesOnly_goFlagged _ .bu (by decide), endBringup_bu, hparts .bu (by decide)]
  have ht : stopBringup k reason s = raise E.BRINGUP.BU_FLAGGED v := by rw [hv, hu]; rfl
  rw [ht]
  exact
    { bu := (raise_bu _ _).trans hvbu
      stop := by rw [getF_raise_other _ _ _ (by decide), hrest.getF_eq (by decide), hstop]
      reason := by rw [getF_raise_other _ _ _ (by decide), hrest.getF_eq (by decide), hreason]
      top := by
        rw [topState, getF_raise_other _ _ _ (by decide), hv]
        exact topState_goFlagged _
      raised := raised_raise _ _ (by decide)
      regs := (hshown.mono (by decide)).trans <| (hrest.mono (by decide)).trans (regsBut_raise _ _ (by decide))
      parts := (hparts.mono (by simp)).trans (hvparts.trans ((changesOnly_raise _ _).mono (by simp)))
      kept := hkept.trans <| (by
        rw [hv]; exact (raisedKept_endBringup u).trans (raisedKept_goFlagged _) : RaisedKept u v).trans (raisedKept_raise _ _) }

/-- A phase that ends with a reason has stopped the bring-up. -/
theorem endPhase_stopped {k reason : Nat} (h : reason ≠ 0) (s : State) : Stopped k reason s (endPhase k reason s) := by
  rw [endPhase_stop h]
  exact stopBringup_stopped k reason s

/-- A phase other than P1 that ends without a reason has begun the next. -/
theorem endPhase_begun {k : Nat} (hk : k ≠ 1) {s : State} (hf : getF s R.FLT_SUSPECT.FLAGGED = 0) :
    PhaseBegun (k + 1) s (endPhase k 0 s) := by
  rw [endPhase_next hk hf]
  exact beginPhase_begun (k + 1) s

end Sys2Proof.Machine
end

section
/-! P1, P2, P7 and P8, and O49 (R51, R52, R69, R359, R360, R402). -/

namespace Sys2Proof.Machine

/-! ### Discovery (R51, R52, R69) -/

theorem getDisc_startDiscovery (s : State) {d : Nat} (hd : d < 4) :
    getDisc (startDiscovery s) d = { disc0 with req := discFrame 1 0 d d s.fuse.hub, tries := 1 } := by
  have hunfold : startDiscovery s =
      [0, 1, 2, 3].foldl (fun s d => updDisc s d fun _ => { disc0 with req := hubReq s d, tries := 1 }) s := rfl
  rw [hunfold]
  simp only [List.foldl_cons, List.foldl_nil]
  interval_cases d <;> simp [getDisc_updDisc] <;> rfl

theorem changesOnly_startDiscovery (s : State) : ChangesOnly [.bu] s (startDiscovery s) :=
  (changesOnly_updDisc s 0 _).trans <| (changesOnly_updDisc _ 1 _).trans <| (changesOnly_updDisc _ 2 _).trans
    (changesOnly_updDisc _ 3 _)

theorem startDiscovery_bu (s : State) : (startDiscovery s).bu = { s.bu with disc := (startDiscovery s).bu.disc } := rfl

/-- The fields that reading the guest's identity may write. -/
def identityFlds : List Fld := R.GST_STA.REG_NO :: guestFenceFlds ++ evFlds E.GUEST.GUEST_ID

theorem regsBut_readIdentity (g : Option (List Byte)) (s : State) : RegsBut identityFlds s (readIdentity g s) := by
  have hreg : ∀ u : State, ∀ n, RegsBut identityFlds u (setF u R.GST_STA.REG_NO n) :=
    fun u n => regsBut_setF u _ (by simp [identityFlds])
  unfold readIdentity
  split
  · exact .of_regs rfl
  split
  · exact .of_regs rfl
  dsimp only
  split
  · exact RegsBut.trans (.of_regs (onGuest_regs _ s)) (hreg _ _)
  · exact RegsBut.trans (.of_regs (onGuest_regs _ s)) <| (hreg _ _).trans <|
      ((regsBut_fenceGuest _).mono (by simp [identityFlds])).trans (regsBut_raise _ _ (by simp [identityFlds]))

theorem changesOnly_readIdentity (g : Option (List Byte)) (s : State) :
    ChangesOnly [.guest, .regs, .out, .hif, .flt] s (readIdentity g s) := by
  have hguest : ∀ f, ChangesOnly [.guest, .regs, .out, .hif, .flt] s (onGuest f s) :=
    fun f => (changesOnly_onGuest f s).mono (by simp)
  have hreg : ∀ u n, ChangesOnly [.guest, .regs, .out, .hif, .flt] u (setF u R.GST_STA.REG_NO n) :=
    fun u n => (changesOnly_setF u _ n).mono (by simp)
  unfold readIdentity
  split
  · exact hguest _
  split
  · exact hguest _
  dsimp only
  split
  · exact (hguest _).trans (hreg _ _)
  · exact (hguest _).trans <| (hreg _ _).trans <| (changesOnly_fenceGuest _).trans ((changesOnly_raise _ _).mono (by simp))

/-- The guest's rails come up and its identity is read, on option G. -/
def guestRead (g : Option (List Byte)) (s : State) : State :=
  if s.fuse.guestOption then readIdentity g (setB s R.GST_STA.POWER_ON true) else s

theorem regsBut_guestRead (g : Option (List Byte)) (s : State) :
    RegsBut (R.GST_STA.POWER_ON :: identityFlds) s (guestRead g s) := by
  unfold guestRead
  split
  · exact (regsBut_setB s true (by simp)).trans ((regsBut_readIdentity g _).mono (by simp))
  · exact .refl _ s

theorem guestRead_bu (g : Option (List Byte)) (s : State) : (guestRead g s).bu = s.bu := by
  unfold guestRead
  split
  · exact (changesOnly_readIdentity g _ .bu (by decide)).trans (changesOnly_setB s _ _ .bu (by decide))
  · rfl

theorem powerOn_guestRead (g : Option (List Byte)) {s : State} (h : s.fuse.guestOption = true) :
    getF (guestRead g s) R.GST_STA.POWER_ON = 1 := by
  unfold guestRead
  rw [if_pos h, (regsBut_readIdentity g _).getF_eq (by decide)]
  exact getF_setB _ _ true (by decide)

theorem dieSilent_congr {s t : State} (h : t.bu = s.bu) (d : Nat) : dieSilent t d = dieSilent s d := by
  simp only [dieSilent, getDisc, h]

/-- The dies that did not answer. -/
def silentDies (s : State) : List Nat := [0, 1, 2, 3].filter fun d => dieSilent s d

theorem mem_silentDies {s : State} {d : Nat} : d ∈ silentDies s ↔ d < 4 ∧ dieSilent s d = true := by
  unfold silentDies
  rw [List.mem_filter]
  refine and_congr_left fun _ => ?_
  simp
  omega

theorem discoveryWork_eq (g : Option (List Byte)) (s : State) :
    discoveryWork g s =
      (if (silentDies s).isEmpty then 0 else 2,
        (silentDies s).foldl (fun s d => raise (E.DIE.DISC_FAIL d) s) (guestRead g s)) := by
  have h : silentDies (guestRead g s) = silentDies s := by
    unfold silentDies
    simp only [dieSilent_congr (guestRead_bu g s)]
  rw [← h]
  rfl

/-- An event of each listed unit has been raised. -/
theorem raised_foldl_raise (ev : Nat → Ev) (hbit : ∀ d, (ev d).bit < 16) {d : Nat} :
    ∀ (l : List Nat) (s : State), d ∈ l ∨ raised (ev d) s → raised (ev d) (l.foldl (fun s d => raise (ev d) s) s)
  | [], _, h => by simpa using h
  | x :: l, s, h => by
    refine raised_foldl_raise ev hbit l _ ?_
    rcases h with h | h
    · rcases List.mem_cons.mp h with rfl | h
      · exact .inr (raised_raise _ _ (hbit _))
      · exact .inl h
    · exact .inr (raisedKept_raise _ s _ (hbit _) h)

/-! ### P8 (R360, R402) -/

/-- Every listed page is enabled. -/
def pagesEnabled (l : List Nat) (s : State) : State := l.foldl (fun s p => setEnable p true s) s

theorem fldKey_en (p : Nat) : fldKey (R.PG_CTL.EN p) = p * 2 ^ 17 + 128 := by simp [fldKey, R.PG_CTL.EN]

theorem fldKey_enabled (p : Nat) : fldKey (R.PG_STA.ENABLED p) = p * 2 ^ 17 + 256 := by simp [fldKey, R.PG_STA.ENABLED]

theorem getF_setEnable_same (p : Nat) (s : State) :
    getF (setEnable p true s) (R.PG_CTL.EN p) = 1 ∧ getF (setEnable p true s) (R.PG_STA.ENABLED p) = 1 := by
  have hkeys : ([R.PG_CTL.EN p, R.PG_STA.ENABLED p].map fldKey).Nodup := by
    simp [fldKey_en, fldKey_enabled]
  unfold setEnable
  exact ⟨getF_setFs_lt (l := [(_, _), (_, _)]) hkeys (.head _) (show 1 < 2 ^ 1 by decide) s,
    getF_setFs_lt (l := [(_, _), (_, _)]) hkeys (.tail _ (.head _)) (show 1 < 2 ^ 1 by decide) s⟩

theorem getF_setEnable_other {p q : Nat} (h : q ≠ p) (s : State) :
    getF (setEnable q true s) (R.PG_CTL.EN p) = getF s (R.PG_CTL.EN p) ∧
      getF (setEnable q true s) (R.PG_STA.ENABLED p) = getF s (R.PG_STA.ENABLED p) := by
  constructor
  · exact (regsBut_setEnable q true s).getF_eq (by simp [fldKey_en, fldKey_enabled]; omega)
  · exact (regsBut_setEnable q true s).getF_eq (by simp [fldKey_en, fldKey_enabled]; omega)

theorem getF_pagesEnabled {p : Nat} : ∀ (l : List Nat) (s : State),
    getF (pagesEnabled l s) (R.PG_CTL.EN p) = (if p ∈ l then 1 else getF s (R.PG_CTL.EN p)) ∧
      getF (pagesEnabled l s) (R.PG_STA.ENABLED p) = if p ∈ l then 1 else getF s (R.PG_STA.ENABLED p)
  | [], s => ⟨rfl, rfl⟩
  | q :: l, s => by
    obtain ⟨hen, hsta⟩ := getF_pagesEnabled (p := p) l (setEnable q true s)
    have hcons : pagesEnabled (q :: l) s = pagesEnabled l (setEnable q true s) := rfl
    rw [hcons, hen, hsta]
    by_cases hq : q = p
    · subst hq
      simp [getF_setEnable_same q s]
    · simp [getF_setEnable_other hq s, Ne.symm hq]

theorem changesOnly_pagesEnabled (l : List Nat) (s : State) : ChangesOnly [.regs] s (pagesEnabled l s) := by
  induction l generalizing s with
  | nil => exact .refl _ s
  | cons p l ih => exact (changesOnly_setEnable p true s).trans (ih _)

/-- What a plan may use and who owns the guest are taken as the registers stand. -/
def snapped (s : State) : State :=
  onGuest (fun g => { g with ownerAt := getF s R.GST_CTL.OWNER }) (snapAllot (snapParts s))

theorem changesOnly_snapped (s : State) : ChangesOnly [.hif, .reduce, .guest] s (snapped s) := fun p hp => by
  cases p <;> simp_all [Part.same, snapped, snapAllot, snapParts]

/-- Records that differ from what is committed are queued. -/
def recsQueued (l : List Nat) (s : State) : State := l.foldl (fun s r => queueIfNew r s) s

theorem changesOnly_recsQueued (l : List Nat) (s : State) : ChangesOnly [.attic] s (recsQueued l s) := by
  have hqueue : ∀ r u, ChangesOnly [.attic] u (queueIfNew r u) := fun r u => by
    unfold queueIfNew
    split
    · exact .refl _ u
    · exact fun p hp => by cases p <;> simp_all [Part.same, enqueue]
  induction l generalizing s with
  | nil => exact .refl _ s
  | cons r l ih => exact (hqueue r s).trans (ih _)

theorem regsBut_atticGo (s : State) : RegsBut atticFltFlds s (atticGo s) := by
  have hshow : ∀ u, RegsBut atticFltFlds u (showAttic u) := fun u => regsBut_setFs _ u (by simp [atticFltFlds])
  unfold atticGo
  split
  · exact (regsBut_atticNext _ _).trans (hshow _)
  · exact hshow _

theorem changesOnly_atticGo (s : State) : ChangesOnly [.regs, .out, .hif, .attic] s (atticGo s) := by
  have hshow : ∀ u, ChangesOnly [.regs, .out, .hif, .attic] u (showAttic u) := fun u => (changesOnly_setFs u _).mono (by simp)
  unfold atticGo
  split
  · exact (changesOnly_atticNext _ _).trans (hshow _)
  · exact hshow _

/-- Every die's clock at the grade's frequency. -/
def clocksSet (s : State) : State := setClocks (fun _ => 10 * gradeF s) (endBringup s)

/-- The fields of the clocks. -/
def clkFlds : List Fld := [clkFld 0, clkFld 1, clkFld 2, clkFld 3]

theorem regsBut_clocksSet (s : State) : RegsBut (R.BU_TIME_US.TIME :: clkFlds) s (clocksSet s) :=
  ((regsBut_endBringup s).mono (by simp)).trans (regsBut_setFs _ (endBringup s) (by simp [clkFlds]))

theorem getF_clocksSet (s : State) : getF (clocksSet s) R.BU_TIME_US.TIME = bringupTime s ∧
    ∀ d, d < 4 → getF (clocksSet s) (clkFld d) = 10 * gradeF s % 2 ^ 8 := by
  have hkeys : (clkFlds.map fldKey).Nodup := by decide
  constructor
  · unfold clocksSet setClocks
    rw [getF_setFs_other _ _ _ (by simp only [List.map_cons, List.map_nil, List.forall_mem_cons]; decide)]
    exact (getF_setF s R.BU_TIME_US.TIME _).trans (Nat.mod_eq_of_lt (Nat.mod_lt _ (by decide)))
  · intro d hd
    have hw : (clkFld d).width = 8 := by interval_cases d <;> rfl
    rw [← hw]
    refine getF_setFs (l := [0, 1, 2, 3].map fun d => (clkFld d, 10 * gradeF s)) hkeys (List.mem_map_of_mem ?_) _
    simp
    omega

theorem changesOnly_clocksSet (s : State) : ChangesOnly [.bu, .regs] s (clocksSet s) :=
  (changesOnly_endBringup s).trans ((changesOnly_setFs _ _).mono (by simp))

theorem clocksSet_bu (s : State) : (clocksSet s).bu = { s.bu with next := 9 } := setFs_bu _ _

theorem reachReady_eq (s : State) :
    reachReady s = raise E.BRINGUP.READY (setTop stReady (atticGo
      (recsQueued (bringupRecs (clocksSet (snapped (pagesEnabled (readyPages s) s))))
        (clocksSet (snapped (pagesEnabled (readyPages s) s)))))) := rfl

/-- The fields that P8 writes after the pages' enables. -/
def readyFlds : List Fld := R.BU_TIME_US.TIME :: clkFlds ++ atticFltFlds ++ stateFlds ++ evFlds E.BRINGUP.READY

/-- No enable of a page that P8 may enable is among them. -/
theorem en_notMem_readyFlds : ∀ p ∈ pages ++ [1, 2, 3].map (fun f => reqPage 0x52 f),
    fldKey (R.PG_CTL.EN p) ∉ readyFlds.map fldKey ∧ fldKey (R.PG_STA.ENABLED p) ∉ readyFlds.map fldKey := by decide

theorem mem_pages_of_mem_readyPages {p : Nat} {s : State} (h : p ∈ readyPages s) :
    p ∈ pages ++ [1, 2, 3].map (fun f => reqPage 0x52 f) := by
  rcases List.mem_append.mp h with h | h
  · exact List.mem_append_left _ (List.mem_filter.mp h).1
  · exact List.mem_append_right _ h

theorem tick_notMem_readyPages (s : State) : 0x03 ∉ readyPages s := by
  intro h
  rcases List.mem_append.mp h with h | h
  · have := (List.mem_filter.mp h).2
    simp at this
  · revert h
    decide

/-! ### O49 -/

theorem rows_wait (i : Instr) (k : Nat) (s0 s1 : Bool) (reg : Option (List Byte)) (bad : List (Nat × Bool))
    (tr : TrainRes) (c : CheckRes) (x : SelfRes) (s : State)
    (hi : (i, k) ∈ [(.bringupP0, 0), (.fwAuth s0 s1, 1), (.discovery reg, 2), (.atticRestore bad, 3),
      (.training tr, 4), (.errorRateCheck c, 5), (.selfTest x, 6), (.bringupZeroing, 7), (.ready, 8)])
    (h : s.hearth.closed = false ∨ s.bu.next ≠ k) : exec i s = .next s := by
  simp only [List.mem_cons, Prod.mk.injEq, List.mem_nil_iff, or_false] at hi
  have hphase : ∀ work, phase k work s = s := fun work => phase_of_other h
  rcases hi with ⟨rfl, rfl⟩ | ⟨rfl, rfl⟩ | ⟨rfl, rfl⟩ | ⟨rfl, rfl⟩ | ⟨rfl, rfl⟩ | ⟨rfl, rfl⟩ | ⟨rfl, rfl⟩ |
    ⟨rfl, rfl⟩ | ⟨rfl, rfl⟩
  case inr.inr.inr.inr.inr.inr.inr.inr =>
    refine congrArg Host.Outcome.next (if_neg ?_)
    rcases h with h | h <;> simp [h]
  all_goals exact congrArg Host.Outcome.next (hphase _)

/-- P1 with no slot that authenticates: the hub stays in its boot ROM. -/
def inBootRom (s : State) : State := { s with bu := { s.bu with bootRom := true } }

/-- What P7 leaves. -/
theorem changesOnly_zeroAll (s : State) :
    ChangesOnly [.cores, .mem, .mesh, .transit, .pans, .hall, .reduce] s (zeroAll s) := fun p hp => by
  cases p <;> simp_all [Part.same, zeroAll]

/-- P2 ends with every die heard, or stops with DISC_FAIL of each that is silent (R51, R52, R69). -/
theorem discovery_ends {reg : Option (List Byte)} {s : State} (hc : s.hearth.closed = true) (hn : s.bu.next = 2) :
    ((∀ d, d < 4 → dieSilent s d = false) → getF s R.FLT_SUSPECT.FLAGGED = 0 → Answers (.discovery reg) s fun t =>
      t.bu.next = 3 ∧ (s.fuse.guestOption = true → getF t R.GST_STA.POWER_ON = 1)) ∧
    ((∃ d, d < 4 ∧ dieSilent s d = true) → Answers (.discovery reg) s fun t =>
      t.bu.next = 9 ∧ getF t R.BU_PHASE.STOP = 2 ∧ getF t R.BU_PHASE.REASON = 2 ∧ topState t = stFlagged ∧
      ∀ d, d < 4 → dieSilent s d = true → raised (E.DIE.DISC_FAIL d) t) := by
  refine ⟨fun hall hf => ⟨_, congrArg Host.Outcome.next (phase_of_next (discoveryWork reg) hc hn), ?_⟩,
    fun hsome => ⟨_, congrArg Host.Outcome.next (phase_of_next (discoveryWork reg) hc hn), ?_⟩⟩
  · have hnone : silentDies s = [] := by
      refine List.eq_nil_iff_forall_not_mem.mpr fun d hd => ?_
      obtain ⟨hd, hsil⟩ := mem_silentDies.mp hd
      simp [hall d hd] at hsil
    have hwork : discoveryWork reg s = (0, guestRead reg s) := by rw [discoveryWork_eq, hnone]; rfl
    have hbegun := endPhase_begun (k := 2) (by decide) (((regsBut_guestRead reg s).getF_eq (by decide)).trans hf)
    rw [hwork]
    exact ⟨congrArg Bringup.next hbegun.bu, fun ho => (hbegun.regs.getF_eq (by decide)).trans (powerOn_guestRead reg ho)⟩
  · obtain ⟨d, hd, hsil⟩ := hsome
    have hne : (silentDies s).isEmpty = false := by
      rw [List.isEmpty_eq_false_iff]
      exact List.ne_nil_of_mem (mem_silentDies.mpr ⟨hd, hsil⟩)
    obtain ⟨u, hu⟩ : ∃ u, u = (silentDies s).foldl (fun s d => raise (E.DIE.DISC_FAIL d) s) (guestRead reg s) :=
      ⟨_, rfl⟩
    have hwork : discoveryWork reg s = (2, u) := by rw [discoveryWork_eq, hne, hu]; rfl
    have hstop := endPhase_stopped (k := 2) (reason := 2) (by decide) u
    rw [hwork]
    refine ⟨congrArg Bringup.next hstop.bu, hstop.stop, hstop.reason, hstop.top, fun d hd hsil => ?_⟩
    refine hstop.kept _ (show 4 < 16 by decide) ?_
    rw [hu]
    exact raised_foldl_raise E.DIE.DISC_FAIL (fun _ => show 4 < 16 by decide) _ _ (.inl (mem_silentDies.mpr ⟨hd, hsil⟩))

/-- P8 reaches READY with every page but TICK enabled (R350, R360, R402). -/
theorem ready_enables {s : State} (hc : s.hearth.closed = true) (hn : s.bu.next = 8) :
    Answers .ready s fun t =>
      topState t = stReady ∧ raised E.BRINGUP.READY t ∧ t.bu.next = 9 ∧ getF t R.BU_TIME_US.TIME = bringupTime s ∧
      (∀ p ∈ readyPages s, getF t (R.PG_CTL.EN p) = 1 ∧ getF t (R.PG_STA.ENABLED p) = 1) ∧
      getF t (R.PG_CTL.EN 0x03) = getF s (R.PG_CTL.EN 0x03) ∧ (∀ d, d < 4 → getF t (clkFld d) = 10 * gradeF s % 2 ^ 8) ∧
      t.mem = s.mem ∧ t.cores = s.cores := by
  obtain ⟨a, ha⟩ : ∃ a, a = pagesEnabled (readyPages s) s := ⟨_, rfl⟩
  obtain ⟨b, hb⟩ : ∃ b, b = snapped a := ⟨_, rfl⟩
  obtain ⟨c, hclk⟩ : ∃ c, c = clocksSet b := ⟨_, rfl⟩
  obtain ⟨u, hu⟩ : ∃ u, u = setTop stReady (atticGo (recsQueued (bringupRecs c) c)) := ⟨_, rfl⟩
  have hpages : ChangesOnly [.regs] s a := by rw [ha]; exact changesOnly_pagesEnabled _ s
  have hsnap : ChangesOnly [.hif, .reduce, .guest] a b := by rw [hb]; exact changesOnly_snapped a
  have hclkparts : ChangesOnly [.bu, .regs] b c := by rw [hclk]; exact changesOnly_clocksSet b
  have hqueued := changesOnly_recsQueued (bringupRecs c) c
  have hgo := changesOnly_atticGo (recsQueued (bringupRecs c) c)
  have hu' : ChangesOnly [.regs, .out, .hif, .attic] c u := by
    rw [hu]; exact (hqueued.mono (by decide)).trans (hgo.trans ((changesOnly_setTop _ _).mono (by decide)))
  have huregs : RegsBut (atticFltFlds ++ stateFlds) c u := by
    rw [hu]
    exact RegsBut.trans (.of_regs (hqueued .regs (by decide))) <|
      ((regsBut_atticGo _).mono (List.subset_append_left _ _)).trans ((regsBut_setTop _ _).mono (List.subset_append_right _ _))
  have hbase : ChangesOnly [.hif, .reduce, .guest, .regs] s b := (hpages.mono (by decide)).trans (hsnap.mono (by decide))
  have htime : bringupTime b = bringupTime s := by
    unfold bringupTime
    rw [hbase .counter (by decide), hbase .bu (by decide)]
  have hgrade : gradeF b = gradeF s := by unfold gradeF; rw [hbase .fuse (by decide)]
  obtain ⟨hctime, hcclk⟩ := getF_clocksSet b
  rw [← hclk, htime] at hctime
  rw [← hclk, hgrade] at hcclk
  have hcregs : RegsBut (R.BU_TIME_US.TIME :: clkFlds) b c := by rw [hclk]; exact regsBut_clocksSet b
  have hen : ∀ p, p ∈ pages ++ [1, 2, 3].map (fun f => reqPage 0x52 f) → ∀ f ∈ [R.PG_CTL.EN p, R.PG_STA.ENABLED p],
      getF (raise E.BRINGUP.READY u) f = getF a f := fun p hp f hf => by
    have hregs : RegsBut readyFlds b (raise E.BRINGUP.READY u) :=
      (hcregs.mono (by decide)).trans ((huregs.mono (by decide)).trans (regsBut_raise _ _ (by decide)))
    have hkey : fldKey f ∉ readyFlds.map fldKey := by
      obtain ⟨h1, h2⟩ := en_notMem_readyFlds p hp
      rcases List.mem_cons.mp hf with rfl | hf
      · exact h1
      · rwa [List.mem_singleton.mp hf]
    exact (hregs.getF_eq hkey).trans (getF_congr (hsnap .regs (by decide)) _)
  have hexec : exec .ready s = .next (raise E.BRINGUP.READY u) := by
    refine congrArg Host.Outcome.next ((if_pos (by simp [hc, hn])).trans ?_)
    rw [reachReady_eq, hu, hclk, hb, ha]
  refine ⟨_, hexec, ?_, raised_raise _ _ (by decide), ?_, ?_, fun p hp => ?_, ?_, fun d hd => ?_, ?_, ?_⟩
  · rw [topState, getF_raise_other _ _ _ (by decide), hu]
    exact topState_setTop (by decide) _
  · rw [raise_bu, hu' .bu (by decide), hclk, clocksSet_bu]
  · rw [getF_raise_other _ _ _ (by decide), huregs.getF_eq (by decide), hctime]
  · obtain ⟨h1, h2⟩ := getF_pagesEnabled (p := p) (readyPages s) s
    rw [hen p (mem_pages_of_mem_readyPages hp) _ (by simp), hen p (mem_pages_of_mem_readyPages hp) _ (by simp), ha, h1, h2,
      if_pos hp, if_pos hp]
    exact ⟨rfl, rfl⟩
  · obtain ⟨h1, _⟩ := getF_pagesEnabled (p := 0x03) (readyPages s) s
    rw [hen 0x03 (by decide) _ (by simp), ha, h1, if_neg (tick_notMem_readyPages s)]
  · rw [getF_raise_other _ _ _ (by interval_cases d <;> decide), huregs.getF_eq (by interval_cases d <;> decide), hcclk d hd]
  · rw [raise_mem, hu' .mem (by decide), hclkparts .mem (by decide), hbase .mem (by decide)]
  · rw [raise_cores, hu' .cores (by decide), hclkparts .cores (by decide), hbase .cores (by decide)]

/-- Settles O49: every row but P8's is `phase`, whose ends are `endPhase_begun` and `endPhase_stopped`; P8 by the fields
it leaves. -/
theorem bringupPhasesRunInTheirOrder : Obligations.BringupPhasesRunInTheirOrder := by
  refine ⟨rows_wait, ?_, ?_, ?_, ?_, ?_⟩
  · intro s hc hn
    refine ⟨fun htrip hf => ⟨_, congrArg Host.Outcome.next (phase_of_next railsWork hc hn), ?_⟩,
      fun htrip => ⟨_, congrArg Host.Outcome.next (phase_of_next railsWork hc hn), ?_⟩⟩
    · have hreason : (railsWork s).1 = 0 := if_neg (by simp [htrip])
      have hbegun := endPhase_begun (k := 0) (by decide) hf
      rw [hreason]
      exact ⟨hbegun.bu, hbegun.shown, hbegun.raised, hbegun.regs, hbegun.parts⟩
    · have hreason : (railsWork s).1 = 7 := if_pos htrip
      have hstop := endPhase_stopped (k := 0) (reason := 7) (by decide) s
      rw [hreason]
      exact ⟨congrArg Bringup.next hstop.bu, hstop.stop, hstop.reason, hstop.top, hstop.raised⟩
  · intro s0 s1 s hc hn
    refine ⟨fun hslot hf => ⟨_, congrArg Host.Outcome.next (phase_of_next (fwWork s0 s1) hc hn), ?_⟩,
      fun h0 h1 => ⟨_, congrArg Host.Outcome.next (phase_of_next (fwWork s0 s1) hc hn), ?_⟩⟩
    · have hwork : fwWork s0 s1 s = (0, s) := if_pos (by rcases hslot with h | h <;> simp [h])
      have hbegun := beginPhase_begun 2 s
      rw [hwork]
      dsimp only
      rw [endPhase_discovery hf]
      refine ⟨?_, ?_, fun d hd => ?_⟩
      · rw [startDiscovery_bu, hbegun.bu]
      · exact (getF_congr (changesOnly_startDiscovery _ .regs (by decide)) _).trans hbegun.shown
      · rw [getDisc_startDiscovery _ hd, hbegun.parts .fuse (by decide)]
    · have hwork : fwWork s0 s1 s = (1, inBootRom s) := if_neg (by simp [h0, h1])
      have hstop := endPhase_stopped (k := 1) (reason := 1) (by decide) (inBootRom s)
      rw [hwork]
      exact ⟨congrArg Bringup.next hstop.bu, congrArg Bringup.bootRom hstop.bu, hstop.stop, hstop.reason, hstop.top⟩
  · exact fun reg s => discovery_ends
  · intro s hc hn hf
    have hzero := changesOnly_zeroAll s
    have hbegun := endPhase_begun (k := 7) (s := zeroAll s) (by decide) ((getF_congr (hzero .regs (by decide)) _).trans hf)
    have hall := hzero.mono (qs := [.cores, .mem, .mesh, .transit, .pans, .hall, .reduce, .bu, .regs, .hif, .out]) (by decide)
      |>.trans (hbegun.parts.mono (by decide))
    refine ⟨_, congrArg Host.Outcome.next (phase_of_next zeroWork hc hn), ?_⟩
    exact ⟨hbegun.parts .mem (by decide), hbegun.parts .cores (by decide), hbegun.parts .mesh (by decide),
      hbegun.parts .transit (by decide), hbegun.parts .pans (by decide), congrArg Hall.land (hbegun.parts .hall (by decide)),
      congrArg Reduce.sums (hbegun.parts .reduce (by decide)), congrArg Reduce.pieces (hbegun.parts .reduce (by decide)),
      hbegun.bu, hall .plans (by decide), hall .flt (by decide), hall .attic (by decide)⟩
  · exact fun s => ready_enables

end Sys2Proof.Machine
end

section
/-! The self-test and the histories: what P6 leaves of them, and O51 (R319, R321, R358). -/

namespace Sys2Proof.Machine

/-! ### What the end of P6 leaves of the histories -/

theorem changesOnly_foldl {α : Type} {ps : List Part} {f : State → α → State} (h : ∀ s a, ChangesOnly ps s (f s a))
    (l : List α) (s : State) : ChangesOnly ps s (l.foldl f s) := by
  induction l generalizing s with
  | nil => exact .refl _ s
  | cons a l ih => exact (h s a).trans (ih _)

/-- The end of a phase touches neither a history nor a fuse. -/
theorem changesOnly_endPhase (k reason : Nat) (s : State) : ChangesOnly [.bu, .regs, .out, .hif] s (endPhase k reason s) := by
  unfold endPhase
  split
  · exact (stopBringup_stopped k reason s).parts
  split
  · exact (stopBringup_stopped k 9 s).parts
  split
  · exact ((beginPhase_begun 2 s).parts.mono (by decide)).trans ((changesOnly_startDiscovery _).mono (by decide))
  · exact (beginPhase_begun (k + 1) s).parts.mono (by decide)

theorem changesOnly_loadMap (d : Nat) (s : State) : ChangesOnly [.rowMaps, .regs, .out, .hif] s (loadMap d s) := by
  have hmaps : ∀ m, ChangesOnly [.rowMaps] s { s with rowMaps := m } := fun m p hp => by
    cases p <;> simp_all [Part.same]
  exact ((hmaps _).mono (by decide)).trans <| ((changesOnly_setFs _ _).mono (by decide)).trans
    ((changesOnly_raise _ _).mono (by decide))

/-- After its tests P6 loads maps or reports the dies without a spare. -/
theorem changesOnly_selfWork (r : SelfRes) (s : State) :
    ChangesOnly [.rowMaps, .regs, .out, .hif] (testUnits r s) (selfWork r s).2 := by
  unfold selfWork
  dsimp only
  split
  · exact changesOnly_foldl (fun s d => (changesOnly_raise (E.DIE.SPARE_EXHAUSTED d) s).mono (by decide)) _ _
  · exact changesOnly_foldl (fun s d => changesOnly_loadMap d s) _ _

theorem permanent_congr {s t : State} (h : t.hist = s.hist) (unit id : Nat) : permanent t unit id = permanent s unit id := by
  unfold permanent getHist
  rw [h]

theorem mem_badCols {s : State} {d row c : Nat} :
    c ∈ badCols s d row ↔ c < 84 ∧ ((d, row, c) ∈ s.fuse.badCores ∨ permanent s uCore (coreKey d row c) = true) := by
  simp [badCols]

/-! ### The tests and the ageing (R321, R358) -/

theorem hist_queueRec (r : Nat) (s : State) : (queueRec r s).hist = s.hist := changesOnly_queueRec r s .hist (by decide)

theorem changesOnly_histRec (h : SMap Hist) (k : Nat) (s : State) :
    ChangesOnly [.hist, .regs, .out, .hif, .attic] s (queueRec k { s with hist := h }) :=
  ((changesOnly_withHist s h).mono (by decide)).trans ((changesOnly_queueRec _ _).mono (by decide))

/-- The core is one that the self-test tests: it exists and is not fused out. -/
def tested (s : State) (d row col : Nat) : Prop := row < 80 ∧ col < 84 ∧ (d, row, col) ∉ s.fuse.badCores

theorem failCore_of_tested {d row col : Nat} {s : State} (h : tested s d row col) :
    failCore d row col s = queueRec (recHistory (coreKey d row col))
      { s with hist := smUpd hist0 s.hist (coreKey d row col) fun h => { h with cls := 2 } } := by
  obtain ⟨hrow, hcol, hfuse⟩ := h
  unfold failCore
  rw [if_neg]
  rintro (h | h | h)
  · omega
  · omega
  · exact hfuse (by simpa using h)

theorem hist_failCore {d row col : Nat} {s : State} (h : tested s d row col) :
    (failCore d row col s).hist = smUpd hist0 s.hist (coreKey d row col) fun h => { h with cls := 2 } := by
  rw [failCore_of_tested h, hist_queueRec]

theorem powered_failCore {d row col : Nat} {s : State} (h : tested s d row col) :
    powered (failCore d row col s) = powered s := by
  rw [failCore_of_tested h]
  unfold powered
  rw [(regsBut_queueRec _ _).getF_eq (by decide)]
  rfl

theorem fuse_failCore {d row col : Nat} {s : State} (h : tested s d row col) : (failCore d row col s).fuse = s.fuse := by
  rw [failCore_of_tested h, changesOnly_histRec _ _ s .fuse (by decide)]

/-- The units whose class the ageing takes back. -/
def agedUnits (s : State) : List Nat := (s.hist.filter fun e => ageHist (powered s) e.2).map (·.1)

/-- A unit returns to class none. -/
def unclassed (k : Nat) (s : State) : State :=
  queueRec (recHistory k) { s with hist := smUpd hist0 s.hist k fun h => { h with cls := 0 } }

theorem ageHists_eq (s : State) : ageHists s = (agedUnits s).foldl (fun s k => unclassed k s) s := rfl

theorem hist_unclassed (k : Nat) (s : State) :
    (unclassed k s).hist = smUpd hist0 s.hist k fun h => { h with cls := 0 } := hist_queueRec _ _

theorem fuse_ageHists (s : State) : (ageHists s).fuse = s.fuse := by
  rw [ageHists_eq]
  exact changesOnly_foldl (fun s k => changesOnly_histRec _ _ s) _ s .fuse (by decide)

/-- With no flag of a re-test set and one core that fails, the tests are that core's failure and the ageing. -/
theorem testUnits_one {r : SelfRes} {d : DieNo} {row col : Nat} {s : State} (hflag : flaggedUnits s (fun u => !linkUnit u) = [])
    (hr : r.cores = [(d, row, col)]) :
    testUnits r s =
      setF (ageHists (failCore d row col s)) R.FLT_STA.PENDING (pendingTests (ageHists (failCore d row col s))) := by
  unfold testUnits
  rw [hflag, hr]
  rfl

/-! ### O51 -/

/-- P6 of a package whose store of histories lists core 0 of die 0 twice, the second time as a transient unit that had its
last event more than a day of powered time ago. -/
def listedTwice : State :=
  { State.reset with
    hearth := { hearth0 with closed := true }, bu := { State.reset.bu with next := 6 },
    hist := [(coreKey 0 0 0, hist0), (coreKey 0 0 0, { hist0 with times := [0], cls := 1 })],
    regs := [(fldKey R.ATTIC_POWERED.SECONDS, 86401)] }

/-- The self-test finds that core bad. -/
def coreFails : SelfRes := { cores := [(0, 0, 0)], bypass := [], units := [] }

theorem tested_listedTwice : tested listedTwice 0 0 0 := by
  refine ⟨by decide, by decide, ?_⟩
  show (0, 0, 0) ∉ Fuse.std.badCores
  decide

/-- The state in which the histories age: the core is permanent by its first entry, transient by its second. -/
theorem hist_failed_listedTwice : (failCore 0 0 0 listedTwice).hist =
    [(coreKey 0 0 0, { hist0 with cls := 2 }), (coreKey 0 0 0, { hist0 with times := [0], cls := 1 })] := by
  rw [hist_failCore tested_listedTwice]
  decide

theorem agedUnits_listedTwice : agedUnits (failCore 0 0 0 listedTwice) = [coreKey 0 0 0] := by
  have hpowered : powered (failCore 0 0 0 listedTwice) = 86401 := (powered_failCore tested_listedTwice).trans (by decide)
  unfold agedUnits
  rw [hpowered, hist_failed_listedTwice]
  decide

theorem testUnits_listedTwice : testUnits coreFails listedTwice =
    setF (ageHists (failCore 0 0 0 listedTwice)) R.FLT_STA.PENDING (pendingTests (ageHists (failCore 0 0 0 listedTwice))) :=
  testUnits_one (d := 0) rfl rfl

/-- The failed core ages as its second entry says: its history is of class none. -/
theorem not_permanent_listedTwice : permanent (testUnits coreFails listedTwice) uCore (coreKey 0 0 0) = false := by
  have hhist : (testUnits coreFails listedTwice).hist =
      smUpd hist0 (failCore 0 0 0 listedTwice).hist (coreKey 0 0 0) fun h => { h with cls := 0 } := by
    rw [testUnits_listedTwice, setF_hist, ageHists_eq, agedUnits_listedTwice]
    exact hist_unclassed _ _
  unfold permanent getHist
  rw [hhist, hist_failed_listedTwice]
  decide

theorem not_mem_badCores_listedTwice : (0, 0, 0) ∉ (testUnits coreFails listedTwice).fuse.badCores := by
  obtain ⟨-, -, hfuse⟩ := tested_listedTwice
  rwa [testUnits_listedTwice, setF_fuse, fuse_ageHists, fuse_failCore tested_listedTwice]

/-- Refutes O51: the statement speaks of every state, and on a store of histories that lists a core twice the ageing of
R321 undoes the mark of R358, so that the core that failed its test is not mapped around. No canonical store (log 30) lists
a unit twice. -/
theorem not_trainingChecksAndTheSelfTestPrepareTheDies : ¬ Obligations.TrainingChecksAndTheSelfTestPrepareTheDies := by
  unfold Obligations.TrainingChecksAndTheSelfTestPrepareTheDies
  rintro ⟨-, -, hself⟩
  obtain ⟨t, hexec, hcores, -⟩ := hself coreFails listedTwice rfl rfl rfl
  obtain ⟨n, u, hu⟩ : ∃ n u, selfWork coreFails listedTwice = (n, u) := ⟨_, _, rfl⟩
  have ht : endPhase 6 n u = t := by
    have hphase := phase_of_next (selfWork coreFails) (s := listedTwice) (k := 6) rfl rfl
    rw [hu] at hphase
    exact Host.Outcome.next.inj ((congrArg Host.Outcome.next hphase).symm.trans hexec)
  have hwork := changesOnly_selfWork coreFails listedTwice
  rw [hu] at hwork
  have hparts : ChangesOnly [.bu, .rowMaps, .regs, .out, .hif] (testUnits coreFails listedTwice) t :=
    ht ▸ (hwork.mono (by decide)).trans ((changesOnly_endPhase 6 n u).mono (by decide))
  have hbad : 0 ∈ badCols t 0 0 := hcores (0, 0, 0) (List.mem_singleton_self _) (by decide) (by decide)
  obtain ⟨-, hfused | hperm⟩ := mem_badCols.mp hbad
  · rw [hparts .fuse (by decide)] at hfused
    exact not_mem_badCores_listedTwice hfused
  · rw [permanent_congr (hparts .hist (by decide)), not_permanent_listedTwice] at hperm
    exact Bool.false_ne_true hperm

end Sys2Proof.Machine
end

section
/-! Instructions that change their core alone: what their issue leaves, the whole-die report behind TEND and HALT, and O15
(R84, R85, R108, R150, R160, R314). -/

namespace Sys2Proof.Machine

/-! ### The issue, and what follows it in the core -/

/-- `Issued` of a state whose issuing core has gone on by `f`. -/
theorem Issued.of_step {i : Issue} {w free : Nat} {m : EngMode} {o : List Outst} {hide f : Core → Core} {s t : State}
    (h : CoreStep i.core.lcid f (issued i w s) t)
    (heng : getEng (f (advanced i w (getCore s i.core.lcid))) i.eng.no =
      { advancedEng i w (getCore s i.core.lcid).lone (engOf i s) with mode := m, free := free })
    (hothers : ∀ e, e ≠ i.eng.no → getEng (f (advanced i w (getCore s i.core.lcid))) e = getEng (getCore s i.core.lcid) e)
    (houtst : (f (advanced i w (getCore s i.core.lcid))).outst = (getCore s i.core.lcid).outst ++ o)
    (hhide : hide (bare (f (advanced i w (getCore s i.core.lcid)))) = hide (bare (getCore s i.core.lcid))) :
    Issued i w free m o hide [] s t := by
  have hcore := h.core.trans (congrArg f (getCore_issued i w s))
  have hregs : t.regs = (issued i w s).regs := h.parts .regs (by decide)
  exact ⟨by unfold engOf; rw [hcore, heng]; rfl, fun e he => by rw [hcore]; exact hothers e he, by rw [hcore, houtst],
    by rw [hcore, hhide], fun d hd => (h.others d hd).trans (getCore_issued_other i w s hd),
    (getF_congr hregs _).trans (count_issued i w s), (regsBut_issued i w s).trans (.of_regs hregs),
    (changesOnly_issued i w s).trans (h.parts.mono (by simp))⟩

theorem getEng_advanced_same (i : Issue) (w : Nat) (c : Core) :
    getEng (advanced i w c) i.eng.no = advancedEng i w c.lone (getEng c i.eng.no) := getEng_updEng_same ..

theorem getEng_advanced_other (i : Issue) (w : Nat) (c : Core) {e : Nat} (he : e ≠ i.eng.no) :
    getEng (advanced i w c) e = getEng c e := getEng_updEng_other _ _ he

theorem getEng_of_engs {c d : Core} (h : d.engs = c.engs) (e : Nat) : getEng d e = getEng c e := by
  unfold getEng; rw [h]

/-- An issue after which the engine stands as it does past its words. -/
theorem advancedEng_running {i : Issue} (w : Nat) {s : State} (hs : canIssue s i = true) (free : Nat) :
    { advancedEng i w (getCore s i.core.lcid).lone (engOf i s) with free := free } =
      { advancedEng i w (getCore s i.core.lcid).lone (engOf i s) with mode := goesOn i s, free := free } := by
  rw [advancedEng, mode_of_canIssue hs]
  rfl

/-- An instruction of one cycle: its core keeps the engines behind the issue. -/
theorem issued_core {i : Issue} {w : Nat} {o : List Outst} {hide f : Core → Core} {s t : State} (hs : canIssue s i = true)
    (h : CoreStep i.core.lcid f (issued i w s) t)
    (hengs : (f (advanced i w (getCore s i.core.lcid))).engs = (advanced i w (getCore s i.core.lcid)).engs)
    (houtst : (f (advanced i w (getCore s i.core.lcid))).outst = (advanced i w (getCore s i.core.lcid)).outst ++ o)
    (hhide : hide (bare (f (advanced i w (getCore s i.core.lcid)))) =
      hide (bare (advanced i w (getCore s i.core.lcid)))) :
    Issued i w (i.cyc + 1) (goesOn i s) o hide [] s t := by
  rw [outst_advanced] at houtst
  rw [bare_advanced] at hhide
  refine .of_step h ?_ (fun e he => ?_) houtst hhide
  · rw [getEng_of_engs hengs, getEng_advanced_same]
    exact advancedEng_running w hs (i.cyc + 1)
  · rw [getEng_of_engs hengs, getEng_advanced_other _ _ _ he]

/-- The core in which an instruction completes in a cycle. -/
def completing (i : Issue) (w due : Nat) (c : Core) : Core := { c with outst := c.outst ++ [doneAt i w due] }

theorem engs_completing (i : Issue) (w due : Nat) (c : Core) : (completing i w due c).engs = c.engs := rfl

theorem outst_completing (i : Issue) (w due : Nat) (c : Core) :
    (completing i w due c).outst = c.outst ++ [doneAt i w due] := rfl

theorem bare_completing (i : Issue) (w due : Nat) (c : Core) : bare (completing i w due c) = bare c := rfl

theorem coreStep_completes (i : Issue) (w due : Nat) (s : State) :
    CoreStep i.core.lcid (completing i w due) s (completes i w due s) := coreStep_updCore _ _ s

theorem coreStep_beats (i : Issue) (w n : Nat) (s : State) :
    CoreStep i.core.lcid (beating i w n) s (completes i w (i.cyc + n - 1) (holdFor i n s)) :=
  ⟨getCore_beats i w n s, fun _ hd => getCore_beats_other i w n s hd,
    (changesOnly_updCore _ _ _).trans (changesOnly_updCore _ _ _)⟩

/-- An instruction that holds its engine `n` cycles, completes in the last and does nothing else. -/
theorem issued_held {i : Issue} {w n : Nat} {s : State} (hs : canIssue s i = true) :
    Issued i w (i.cyc + n) (goesOn i s) [doneAt i w (i.cyc + n - 1)] id [] s
      (completes i w (i.cyc + n - 1) (holdFor i n (issued i w s))) := by
  refine .of_step (coreStep_beats i w n _) ?_ (fun e he => ?_) ?_ ?_
  · rw [getEng_beating_same, getEng_advanced_same]
    exact advancedEng_running w hs (i.cyc + n)
  · rw [getEng_beating_other _ _ _ _ he, getEng_advanced_other _ _ _ he]
  · rw [outst_beating, outst_advanced]
  · rw [bare_beating, bare_advanced]

/-- Writes of registers that leave each as it reads. -/
theorem Issued.of_quiet {i : Issue} {w free : Nat} {m : EngMode} {o : List Outst} {hide : Core → Core} {ps : List Part}
    {s u t : State} (h : Issued i w free m o hide ps s u) (hregs : RegsBut [] u t) (hparts : ChangesOnly [.regs] u t) :
    Issued i w free m o hide ps s t := by
  have hcore : ∀ d, getCore t d = getCore u d := fun d => by unfold getCore; rw [hparts .cores (by decide)]
  exact ⟨by unfold engOf; rw [hcore]; exact h.eng, by rw [hcore]; exact h.others, by rw [hcore]; exact h.outst,
    by rw [hcore]; exact h.core, fun d hd => (hcore d).trans (h.cores d hd), (hregs.getF_eq (by simp)).trans h.count,
    h.regs.trans (hregs.mono (by simp)), h.parts.trans (hparts.mono (by simp))⟩

/-! ### The whole-die report (R108) -/

/-- A die of which no core reports DEADLOCK does not report it. -/
theorem wholeDie_of_none_dead {s : State} (d : Nat) (h : ∀ e ∈ s.cores, e.2.dead = false) : wholeDie s d = false := by
  unfold wholeDie
  dsimp only
  rw [Bool.and_eq_false_iff]
  cases hbusy : s.cores.filter fun e => e.1 / 2 ^ 14 == d && !(engModes e.2).all atRest with
  | nil => exact .inl rfl
  | cons e l =>
    have hmem : e ∈ s.cores := List.mem_of_mem_filter (hbusy ▸ List.mem_cons_self)
    exact .inr (by simp [h e hmem])

theorem mem_smSet {β : Type} [DecidableEq β] {d v : β} {m : SMap β} {k : Nat} {e : Nat × β} (h : e ∈ smSet d m k v) :
    e = (k, v) ∨ e ∈ m := by
  unfold smSet at h
  split at h
  · exact .inr (mem_smErase h)
  · exact mem_smInsert h

theorem mem_of_smFind {β : Type} {m : SMap β} {k : Nat} {v : β} (h : smFind m k = some v) : (k, v) ∈ m := by
  induction m with
  | nil => simp [smFind] at h
  | cons e m ih =>
    unfold smFind at h
    split at h
    · next hk => exact List.mem_cons.mpr (.inl (Prod.ext hk.symm (Option.some.inj h).symm))
    · exact List.mem_cons_of_mem _ (ih h)

/-- A core that no store lists reports nothing. -/
theorem dead_getCore {s : State} (h : ∀ e ∈ s.cores, e.2.dead = false) (l : Nat) : (getCore s l).dead = false := by
  unfold getCore smGet
  cases hf : smFind s.cores l with
  | none => rfl
  | some c => exact h _ (mem_of_smFind hf)

/-- A change of a core that leaves its report. -/
theorem none_dead_updCore {s : State} {l : Nat} {f : Core → Core} (hf : ∀ c, (f c).dead = c.dead)
    (h : ∀ e ∈ s.cores, e.2.dead = false) : ∀ e ∈ (updCore s l f).cores, e.2.dead = false := by
  intro e he
  rcases mem_smSet (m := s.cores) he with rfl | he
  · exact (hf _).trans (dead_getCore h l)
  · exact h e he

/-- Where the die does not report DEADLOCK, its judgement writes the WHOLE that stands. -/
theorem judgeDie_of_none_dead {s : State} {d : Nat} (cyc : Nat) (h : NoneDead d s) :
    judgeDie d cyc s = setB s (R.DIE_DEADLOCK_STA.WHOLE d) false := by
  unfold judgeDie
  rw [wholeDie_of_none_dead d h.1]
  rfl

theorem regsBut_setB_standing {s : State} {f : Fld} (h : getF s f = 0) : RegsBut [] s (setB s f false) := by
  intro k _
  have hpor : smGet 0 s.regs (fldKey f) = f.por := Nat.xor_eq_zero_iff.mp h
  show smGet 0 (smSet 0 s.regs (fldKey f) (0 % 2 ^ f.width ^^^ f.por)) k = _
  rw [smGet_smSet]
  split
  · next hk => rw [← hk, hpor]; simp
  · rfl

/-! ### TEND and HALT (R84) -/

/-- The engine stands in mode `m`. -/
def stands (i : Issue) (m : EngMode) (c : Core) : Core := updEng c i.eng.no fun g => { g with mode := m }

/-- What an engine that stops leaves, before its die is judged. -/
def restState (i : Issue) (w : Nat) (m : EngMode) (s : State) : State :=
  updCore (completes i w i.cyc (issued i w s)) i.core.lcid (stands i m)

theorem outst_stands (i : Issue) (m : EngMode) (c : Core) : (stands i m c).outst = c.outst := rfl

theorem bare_stands (i : Issue) (m : EngMode) (c : Core) : bare (stands i m c) = bare c := rfl

theorem issued_rests {i : Issue} {w : Nat} {m : EngMode} {s : State} :
    Issued i w (i.cyc + 1) m [doneAt i w i.cyc] id [] s (restState i w m s) := by
  have hstep : CoreStep i.core.lcid (stands i m ∘ completing i w i.cyc) (issued i w s) (restState i w m s) :=
    (coreStep_completes i w i.cyc _).trans (coreStep_updCore _ _ _)
  refine .of_step hstep ?_ (fun e he => ?_) ?_ ?_
  · rw [Function.comp, stands, getEng_updEng_same, getEng_of_engs (engs_completing ..), getEng_advanced_same]
    rfl
  · rw [Function.comp, stands, getEng_updEng_other _ _ he, getEng_of_engs (engs_completing ..), getEng_advanced_other _ _ _ he]
  · rw [Function.comp, outst_stands, outst_completing, outst_advanced]
  · rw [Function.comp, bare_stands, bare_completing, bare_advanced]

/-- None reports DEADLOCK behind the stop. -/
theorem noneDead_restState {i : Issue} {w : Nat} {m : EngMode} {s : State} (h : NoneDead i.core.die.val s) :
    NoneDead i.core.die.val (restState i w m s) := by
  obtain ⟨hdead, hwhole⟩ := h
  refine ⟨none_dead_updCore (fun _ => rfl) (none_dead_updCore (fun _ => rfl) ?_), ?_⟩
  · rw [issued_cores]
    exact none_dead_updCore (fun _ => rfl) hdead
  · exact ((regsBut_issued i w s).getF_eq (by generalize i.core.die = d; revert d; decide)).trans hwhole

/-- An engine that stops on a die of which no core reports DEADLOCK. -/
theorem issued_judged {i : Issue} {w : Nat} {m : EngMode} {s : State} (h : NoneDead i.core.die.val s) :
    Issued i w (i.cyc + 1) m [doneAt i w i.cyc] id [] s (judgeDie i.core.die.val i.cyc (restState i w m s)) := by
  have hrest := noneDead_restState (w := w) (m := m) h
  rw [judgeDie_of_none_dead _ hrest]
  exact issued_rests.of_quiet (regsBut_setB_standing hrest.2) (changesOnly_setF _ _ _)

/-! ### FMT (R85) -/

/-- A value is written to a descriptor in the held cycle. -/
def descWritten (d v : Nat) (c : Core) : Core := { c with descNew := smSet none c.descNew d (some v) }

/-- A core without its descriptors. -/
def noDescs (c : Core) : Core := { c with desc := [], descCyc := 0, descNew := [], descBad := [], descWhen := [] }

theorem descAt_fields (cyc : Nat) (c : Core) :
    (descAt cyc c).engs = c.engs ∧ (descAt cyc c).outst = c.outst ∧ (descAt cyc c).descCyc = cyc ∧
      noDescs (bare (descAt cyc c)) = noDescs (bare c) := by
  unfold descAt
  split
  · next h => exact ⟨rfl, rfl, h, rfl⟩
  · exact ⟨rfl, rfl, rfl, rfl⟩

/-- A descriptor that no FMT of the cycle has named. -/
theorem descAt_fresh {cyc d : Nat} {c : Core}
    (h : ¬ (c.descCyc = cyc ∧ (d ∈ c.descBad ∨ (smGet none c.descNew d).isSome))) :
    d ∉ (descAt cyc c).descBad ∧ (smGet none (descAt cyc c).descNew d).isSome = false := by
  unfold descAt
  split
  · next hc => simpa [hc] using h
  · exact ⟨by simp, rfl⟩

theorem rdDesc_written {cyc cyc' d v : Nat} {c : Core} (hc : c.descCyc = cyc) (h : cyc < cyc') :
    rdDesc (descWritten d v c) cyc' d = v := by
  have hnew : smGet none (descWritten d v c).descNew d = some v := by
    show smGet none (smSet none c.descNew d (some v)) d = _
    rw [smGet_smSet, if_pos rfl]
  have hlt : (descWritten d v c).descCyc < cyc' := by show c.descCyc < cyc'; omega
  unfold rdDesc
  rw [if_pos hlt, hnew]

/-- The core behind an FMT. -/
def fmtCore (i : Issue) (w : Nat) : Core → Core :=
  descWritten (fFmtD w) (fFmtV w) ∘ descAt i.cyc ∘ completing i w i.cyc

theorem fmtCore_fields (i : Issue) (w : Nat) (c : Core) :
    (fmtCore i w c).engs = c.engs ∧ (fmtCore i w c).outst = c.outst ++ [doneAt i w i.cyc] ∧
      noDescs (bare (fmtCore i w c)) = noDescs (bare c) ∧
      ∀ cyc, i.cyc < cyc → rdDesc (fmtCore i w c) cyc (fFmtD w) = fFmtV w := by
  obtain ⟨hengs, houtst, hcyc, hhide⟩ := descAt_fields i.cyc (completing i w i.cyc c)
  exact ⟨hengs, houtst, hhide, fun cyc hlt => rdDesc_written hcyc hlt⟩

/-- An FMT that is its descriptor's one in the cycle. -/
theorem coreStep_fmtEff {i : Issue} {w x : Nat} {s : State}
    (h : ¬ ((getCore s i.core.lcid).descCyc = i.cyc ∧
      (fFmtD w ∈ (getCore s i.core.lcid).descBad ∨ (smGet none (getCore s i.core.lcid).descNew (fFmtD w)).isSome))) :
    CoreStep i.core.lcid (fmtCore i w) s (fmtEff i w x s) := by
  obtain ⟨u, hu⟩ : ∃ u, u = updCore (completes i w i.cyc s) i.core.lcid (descAt i.cyc) := ⟨_, rfl⟩
  have hstep : CoreStep i.core.lcid (descAt i.cyc ∘ completing i w i.cyc) s u :=
    hu ▸ (coreStep_completes i w i.cyc s).trans (coreStep_updCore _ _ _)
  obtain ⟨hbad, hnew⟩ := descAt_fresh (c := completing i w i.cyc (getCore s i.core.lcid)) h
  have hcore : getCore u i.core.lcid = descAt i.cyc (completing i w i.cyc (getCore s i.core.lcid)) := hstep.core
  have heq : fmtEff i w x s = updCore u i.core.lcid (descWritten (fFmtD w) (fFmtV w)) := by
    unfold fmtEff onCore
    dsimp only
    rw [← hu, hcore, if_neg (by simpa using hbad), if_neg (by simp [hnew])]
    rfl
  rw [heq]
  exact hstep.trans (coreStep_updCore _ _ _)

/-! ### O15 -/

/-- The core stands in the given mode of pairing. -/
def pairedAs (b : Bool) (c : Core) : Core := { c with paired := b }

/-- The mode of a pair, and the PAIR that completes. -/
def pairCore (i : Issue) (w : Nat) : Core → Core := completing i w i.cyc ∘ pairedAs (fPairOn w)

theorem pairCore_fields (i : Issue) (w : Nat) (c : Core) :
    (pairCore i w c).engs = c.engs ∧ (pairCore i w c).outst = c.outst ++ [doneAt i w i.cyc] ∧
      pairedAs false (bare (pairCore i w c)) = pairedAs false (bare c) ∧ (pairCore i w c).paired = fPairOn w :=
  ⟨rfl, rfl, rfl, rfl⟩

theorem coreStep_pairEff (i : Issue) (w x : Nat) (s : State) :
    CoreStep i.core.lcid (pairCore i w) s (pairEff (some (fPairOn w)) i w x s) := by
  unfold pairEff
  dsimp only
  rw [if_pos rfl]
  exact (coreStep_updCore i.core.lcid (pairedAs (fPairOn w)) s).trans (coreStep_completes i w i.cyc _)

/-- Settles O15: NOP and TST by `issued_held`, TEND and HALT by `issued_judged`, FMT and PAIR by their core's step. -/
theorem controlInstructionsMoveTheirEngineOnly : Obligations.ControlInstructionsMoveTheirEngineOnly := by
  refine ⟨?_, ?_, ?_, ?_, ?_, ?_⟩
  · intro i w x s hf
    exact ⟨_, congrArg Host.Outcome.next (issueOp_of_fetches hf (nopEff i)), issued_held (n := fNopCyc w + 1) hf.can⟩
  · intro i w x s hf
    exact ⟨_, congrArg Host.Outcome.next (issueOp_of_fetches hf (tstEff i)), issued_held (n := fTCyc w + 1) hf.can⟩
  · intro i w x s hf hnone
    exact ⟨_, congrArg Host.Outcome.next (issueOp_of_fetches hf (tendEff i)), issued_judged hnone⟩
  · intro i w x s hf hnone
    exact ⟨_, congrArg Host.Outcome.next (issueOp_of_fetches hf (haltEff i)), issued_judged hnone⟩
  · intro i w x s hf hfresh
    have hstep := coreStep_fmtEff (s := issued i w s) (w := w) (x := if twoWord opFmt then x else 0)
      (by rw [getCore_issued]; exact hfresh)
    obtain ⟨hengs, houtst, hhide, hread⟩ := fmtCore_fields i w (advanced i w (getCore s i.core.lcid))
    refine ⟨_, congrArg Host.Outcome.next (issueOp_of_fetches hf (fmtEff i)), issued_core hf.can hstep hengs houtst hhide,
      fun cyc hlt => ?_⟩
    rw [hstep.core, getCore_issued]
    exact hread cyc hlt
  · intro i w x s hf
    obtain ⟨hengs, houtst, hhide, hpaired⟩ := pairCore_fields i w (advanced i w (getCore s i.core.lcid))
    have hstep := coreStep_pairEff i w (if twoWord opPair then x else 0) (issued i w s)
    refine ⟨_, congrArg Host.Outcome.next (issueOp_of_fetches hf (pairEff (some (fPairOn w)) i)),
      issued_core hf.can hstep hengs houtst hhide, ?_⟩
    rw [hstep.core, getCore_issued]
    exact hpaired

end Sys2Proof.Machine
end

section
/-! The Bell board under WAIT, SADD, SSUB, the post at completion and the Doorway's post, and O16 (R83, R97 to R99, R103). -/

namespace Sys2Proof.Machine

/-! ### The held cycle -/

theorem coreStep_semSync {l cyc : Nat} {s : State} (h : (getCore s l).semCyc = cyc ∨ semFaults s l = []) :
    CoreStep l (semAt cyc) s (semSync l cyc s) := by
  unfold semSync
  split
  · next heq => exact ⟨(if_pos heq).symm, fun _ _ => rfl, .refl _ s⟩
  · next hne =>
    have hnone : semFaults s l = [] := h.resolve_left hne
    rw [hnone]
    exact coreStep_updCore l (semAt cyc) s

theorem semAt_keeps (cyc : Nat) (c : Core) :
    (semAt cyc c).engs = c.engs ∧ (semAt cyc c).outst = c.outst ∧ (semAt cyc c).lone = c.lone ∧ (semAt cyc c).bank = c.bank ∧
      noSems (bare (semAt cyc c)) = noSems (bare c) := by
  unfold semAt
  split <;> exact ⟨rfl, rfl, rfl, rfl, rfl⟩

/-- A board that opens a cycle holds no WAIT and no take, and may pass to it. -/
theorem OpensCycle.board {l cyc : Nat} {s : State} (h : OpensCycle l cyc s) :
    (semAt cyc (getCore s l)).semWaits = [] ∧ (semAt cyc (getCore s l)).semTake = [] := by
  unfold OpensCycle at h
  unfold semAt
  split at h
  · next heq => rw [if_pos heq]; exact h
  · next hne => rw [if_neg hne]; exact ⟨rfl, rfl⟩

theorem OpensCycle.passes {l cyc : Nat} {s : State} (h : OpensCycle l cyc s) :
    (getCore s l).semCyc = cyc ∨ semFaults s l = [] := by
  unfold OpensCycle at h
  split at h
  · next heq => exact .inl heq
  · exact .inr h

theorem SameBoard.trans {c d e : Core} (h : SameBoard c d) (h' : SameBoard d e) : SameBoard c e := by
  obtain ⟨hs, hc, hd, ht⟩ := h
  obtain ⟨hs', hc', hd', ht'⟩ := h'
  exact ⟨hs'.trans hs, hc'.trans hc, hd'.trans hd, ht'.trans ht⟩

theorem SameBoard.refl (c : Core) : SameBoard c c := ⟨rfl, rfl, rfl, rfl⟩

/-- An issue changes no board. -/
theorem sameBoard_advanced (i : Issue) (w : Nat) (c : Core) : SameBoard c (advanced i w c) := ⟨rfl, rfl, rfl, rfl⟩

theorem sameBoard_issued (i : Issue) (w : Nat) (s : State) :
    SameBoard (getCore s i.core.lcid) (getCore (issued i w s) i.core.lcid) := by
  rw [getCore_issued]; exact sameBoard_advanced ..

theorem passes_of_board {l cyc : Nat} {s t : State} (hb : SameBoard (getCore s l) (getCore t l))
    (h : (getCore s l).semCyc = cyc ∨ semFaults s l = []) : (getCore t l).semCyc = cyc ∨ semFaults t l = [] :=
  h.imp (fun hcyc => hb.2.1.trans hcyc) (semFaults_of_board hb)

theorem semVal_of_board {c d : Core} (h : SameBoard c d) (k : Nat) : semVal d k = semVal c k := by
  obtain ⟨hsem, _, hdelta, htake⟩ := h
  unfold semVal semRaw
  rw [hsem, hdelta, htake]

/-- The core on whose board the WAITs of the cycle and their takes stand as given. -/
def waitsListed (ws : List WaitRec) (t : SMap Nat) (c : Core) : Core := { c with semWaits := ws, semTake := t }

/-- A board of the cycle whose WAITs were judged anew, and which granted `take` of one semaphore more than it had. -/
theorem semMoves_waitsListed {cyc k take : Nat} {ws : List WaitRec} {t : SMap Nat} {c : Core}
    (htake : ∀ j, smGet 0 t j = smGet 0 (semAt cyc c).semTake j + if j = k then take else 0) :
    SemMoves cyc k take 0 c (waitsListed ws t (semAt cyc c)) := by
  obtain ⟨d, hd⟩ : ∃ d, d = waitsListed ws t (semAt cyc c) := ⟨_, rfl⟩
  have hcyc : d.semCyc = cyc := hd ▸ semCyc_semAt cyc c
  have hsem : d.sem = (semAt cyc c).sem := hd ▸ rfl
  have hdelta : d.semDelta = (semAt cyc c).semDelta := hd ▸ rfl
  have htaken : d.semTake = t := hd ▸ rfl
  rw [← hd]
  refine ⟨hcyc, fun j => ?_, fun j => ?_, fun j => ?_⟩
  · rw [← sem_semAt cyc j c, ← hsem]
    unfold semStart
    rw [if_neg (by simp [hcyc])]
  · rw [← semTake_semAt cyc j c, ← htake, ← htaken]
    unfold semTaken
    rw [if_pos hcyc]
  · rw [← semDelta_semAt cyc j c, ← hdelta]
    unfold semAdded
    rw [if_pos hcyc, ite_self, Int.add_zero]

/-! ### SADD and SSUB (R97) -/

theorem sameBoard_completing (i : Issue) (w due : Nat) (c : Core) : SameBoard c (completing i w due c) := ⟨rfl, rfl, rfl, rfl⟩

/-- The core behind an instruction that completes and adds to a semaphore. -/
def bellRung (i : Issue) (w key : Nat) (n : Int) : Core → Core := bell i.cyc key n ∘ completing i w i.cyc

theorem bellRung_fields (i : Issue) (w key : Nat) (n : Int) (c : Core) :
    (bellRung i w key n c).engs = c.engs ∧ (bellRung i w key n c).outst = c.outst ++ [doneAt i w i.cyc] ∧
      noSems (bare (bellRung i w key n c)) = noSems (bare c) := by
  obtain ⟨hengs, houtst, _, _, hhide⟩ := semAt_keeps i.cyc (completing i w i.cyc c)
  exact ⟨hengs, houtst, hhide⟩

theorem semMoves_bellRung (i : Issue) (w key : Nat) (n : Int) (c : Core) :
    SemMoves i.cyc key 0 n c (bellRung i w key n (advanced i w c)) :=
  (semMoves_bell i.cyc key n (completing i w i.cyc (advanced i w c))).of_board
    ((sameBoard_advanced i w c).trans (sameBoard_completing i w i.cyc _)) (.refl _)

/-- An instruction that completes in its cycle and adds to a semaphore of its bank. -/
theorem issued_semAdd {i : Issue} {w sem : Nat} {n : Int} {s : State} (hs : canIssue s i = true)
    (h : (getCore s i.core.lcid).semCyc = i.cyc ∨ semFaults s i.core.lcid = []) :
    Issued i w (i.cyc + 1) (goesOn i s) [doneAt i w i.cyc] noSems [] s
      (semAdd i.core.lcid i.cyc (semKey (getCore (issued i w s) i.core.lcid).bank sem) n (completes i w i.cyc (issued i w s))) ∧
    SemMoves i.cyc (semKey (getCore s i.core.lcid).bank sem) 0 n (getCore s i.core.lcid)
      (getCore (semAdd i.core.lcid i.cyc (semKey (getCore (issued i w s) i.core.lcid).bank sem) n
        (completes i w i.cyc (issued i w s))) i.core.lcid) := by
  have hdone := coreStep_completes i w i.cyc (issued i w s)
  have hboard : SameBoard (getCore s i.core.lcid) (getCore (completes i w i.cyc (issued i w s)) i.core.lcid) := by
    rw [hdone.core]; exact (sameBoard_issued i w s).trans (sameBoard_completing i w i.cyc _)
  have hbank : (getCore (issued i w s) i.core.lcid).bank = (getCore s i.core.lcid).bank := by rw [getCore_issued]; rfl
  rw [hbank]
  have hstep := hdone.trans
    (coreStep_semAdd (key := semKey (getCore s i.core.lcid).bank sem) (n := n) (passes_of_board hboard h))
  obtain ⟨hengs, houtst, hhide⟩ :=
    bellRung_fields i w (semKey (getCore s i.core.lcid).bank sem) n (advanced i w (getCore s i.core.lcid))
  refine ⟨issued_core hs hstep hengs houtst hhide, ?_⟩
  rw [hstep.core, getCore_issued]
  exact semMoves_bellRung ..

/-! ### The evaluation of a WAIT (R97, R98) -/

/-- The WAIT of an engine as its core's board lists it. -/
def waitRec (e bank sem n ps : Nat) (take p : Bool) : WaitRec :=
  { eng := e, sem := sem, key := semKey bank sem, n := n, take := take, p := p, ps := ps, granted := false }

/-- The core behind the judgement of a WAIT with the others of its cycle. -/
def waitJudged (cyc : Nat) (r : WaitRec) (c : Core) : Core :=
  let old := c.semWaits.filter fun x => x.eng != r.eng
  let j := judgeWaits c (addWait r old) []
  settleWaits cyc old j.1 (waitsListed j.1 j.2 c)

/-- The core behind the evaluation of a WAIT in a cycle. -/
def evaluated (e cyc sem n ps : Nat) (take p : Bool) (c : Core) : Core :=
  waitJudged cyc (waitRec e c.bank sem n ps take p) (semAt cyc c)

theorem dead_settleWaits (cyc : Nat) (old new : List WaitRec) :
    ∀ c : Core, (settleWaits cyc old new c).dead = c.dead := by
  have hgrant : ∀ (r : WaitRec) (c : Core), (grantWait cyc r c).dead = c.dead := fun _ _ => rfl
  have hhold : ∀ (r : WaitRec) (c : Core), (holdWait r c).dead = c.dead := fun _ _ => rfl
  have hrevoke : ∀ (r : WaitRec) (c : Core), (revokeWait cyc r c).dead = c.dead := fun r c => by
    unfold revokeWait
    rw [hhold]
    split <;> rfl
  unfold settleWaits
  induction new with
  | nil => exact fun _ => rfl
  | cons r rs ih =>
    intro c
    rw [List.foldl_cons, ih]
    split
    · split
      · rfl
      · exact hrevoke r c
    · split
      · exact hgrant r c
      · exact hhold r c

theorem dead_evaluated (e cyc sem n ps : Nat) (take p : Bool) (c : Core) :
    (evaluated e cyc sem n ps take p c).dead = c.dead := by
  unfold evaluated waitJudged
  exact (dead_settleWaits ..).trans (dead_semAt cyc c)

/-- A WAIT of a core that reports no DEADLOCK changes its core alone. -/
theorem coreStep_waitTry {l e cyc sem n ps : Nat} {take p : Bool} {s : State}
    (h : (getCore s l).semCyc = cyc ∨ semFaults s l = []) (hdead : (getCore s l).dead = false) :
    CoreStep l (evaluated e cyc sem n ps take p) s (waitTry l e cyc sem n take p ps s) := by
  have hstep := (coreStep_semSync h).trans
    (coreStep_updCore l (fun c => waitJudged cyc (waitRec e c.bank sem n ps take p) c) (semSync l cyc s))
  have heval : (fun c => waitJudged cyc (waitRec e c.bank sem n ps take p) c) ∘ semAt cyc =
      evaluated e cyc sem n ps take p := funext fun c => by
    obtain ⟨_, _, _, hbank, _⟩ := semAt_keeps cyc c
    rw [Function.comp, hbank]
    rfl
  rw [heval] at hstep
  unfold waitTry
  dsimp only
  rw [lapse_of_not_dead]
  · exact hstep
  · exact (congrArg Core.dead hstep.core).trans ((dead_evaluated e cyc sem n ps take p _).trans hdead)

theorem addWait_nil (r : WaitRec) : addWait r [] = [r] := rfl

/-- The only WAIT of its cycle. -/
theorem waitJudged_alone {cyc : Nat} {r : WaitRec} {c : Core} (h : c.semWaits = []) :
    waitJudged cyc r c =
      if r.n ≤ smGet 0 c.sem r.key then
        grantWait cyc { r with granted := true }
          (waitsListed [{ r with granted := true }] (if r.take then smUpd 0 [] r.key (· + r.n) else []) c)
      else holdWait { r with granted := false } (waitsListed [{ r with granted := false }] [] c) := by
  have hmet : waitMet c [] r.key r.n = decide (r.n ≤ smGet 0 c.sem r.key) := rfl
  unfold waitJudged
  simp only [h, List.filter_nil, addWait_nil, judgeWaits, hmet]
  by_cases hle : r.n ≤ smGet 0 c.sem r.key
  · simp [settleWaits, hle]
  · simp [settleWaits, hle]

/-- A WAIT judged before another that stood granted and that its take leaves too little: that one is refused after all. -/
theorem waitJudged_before {cyc : Nat} {r q : WaitRec} {c : Core} (h : c.semWaits = [q]) (hlt : r.eng < q.eng)
    (hg : q.granted = true) (hr : r.n ≤ smGet 0 c.sem r.key) (ht : r.take = true)
    (hq : waitMet c (smUpd 0 [] r.key (· + r.n)) q.key q.n = false) :
    waitJudged cyc r c = revokeWait cyc { q with granted := false } (grantWait cyc { r with granted := true }
      (waitsListed [{ r with granted := true }, { q with granted := false }] (smUpd 0 [] r.key (· + r.n)) c)) := by
  have hmet : waitMet c [] r.key r.n = true := decide_eq_true hr
  have hadd : addWait r [q] = [r, q] := by simp [addWait, hlt, Nat.not_lt_of_lt hlt]
  have hold : [q].filter (fun x => x.eng != r.eng) = [q] := by simp [Nat.ne_of_gt hlt]
  unfold waitJudged
  simp only [h, hold, hadd, judgeWaits, hmet, ht, Bool.and_self, if_true, hq]
  simp [settleWaits, hg, Nat.ne_of_gt hlt]

/-- A WAIT judged behind another that stays granted and leaves it too little. -/
theorem waitJudged_behind {cyc : Nat} {r q : WaitRec} {c : Core} (h : c.semWaits = [q]) (hlt : q.eng < r.eng)
    (hg : q.granted = true) (hq : q.n ≤ smGet 0 c.sem q.key) (ht : q.take = true)
    (hr : waitMet c (smUpd 0 [] q.key (· + q.n)) r.key r.n = false) :
    waitJudged cyc r c = holdWait { r with granted := false }
      (waitsListed [{ q with granted := true }, { r with granted := false }] (smUpd 0 [] q.key (· + q.n)) c) := by
  have hmet : waitMet c [] q.key q.n = true := decide_eq_true hq
  have hadd : addWait r [q] = [q, r] := by simp [addWait, hlt, Nat.not_lt_of_lt hlt]
  have hold : [q].filter (fun x => x.eng != r.eng) = [q] := by simp [Nat.ne_of_lt hlt]
  unfold waitJudged
  simp only [h, hold, hadd, judgeWaits, hmet, ht, Bool.and_self, if_true, hr]
  simp [settleWaits, hg, Nat.ne_of_lt hlt]

/-! ### What a judgement leaves of the core -/

theorem getEng_grantWait_same (cyc : Nat) (r : WaitRec) (c : Core) :
    getEng (grantWait cyc r c) r.eng =
      { getEng c r.eng with mode := if c.lone then .atTend else .running, free := cyc + 1 } :=
  getEng_updEng_same c r.eng fun g => { g with mode := if c.lone then .atTend else .running, free := cyc + 1 }

theorem getEng_grantWait_other (cyc : Nat) (r : WaitRec) (c : Core) {e : Nat} (he : e ≠ r.eng) :
    getEng (grantWait cyc r c) e = getEng c e :=
  getEng_updEng_other c (fun g => { g with mode := if c.lone then .atTend else .running, free := cyc + 1 }) he

theorem grantWait_keeps (cyc : Nat) (r : WaitRec) (c : Core) :
    (grantWait cyc r c).outst = c.outst ++ [{ eng := r.eng, due := some cyc, p := r.p, ps := r.ps, run := none }] ∧
      bare (grantWait cyc r c) = bare c ∧ SameBoard c (grantWait cyc r c) := ⟨rfl, rfl, rfl, rfl, rfl, rfl⟩

theorem getEng_holdWait_same (r : WaitRec) (c : Core) :
    getEng (holdWait r c) r.eng = { getEng c r.eng with mode := .blocked r.sem r.n r.take r.p r.ps } :=
  getEng_updEng_same ..

theorem getEng_holdWait_other (r : WaitRec) (c : Core) {e : Nat} (he : e ≠ r.eng) :
    getEng (holdWait r c) e = getEng c e := getEng_updEng_other _ _ he

theorem holdWait_keeps (r : WaitRec) (c : Core) :
    (holdWait r c).outst = c.outst ∧ bare (holdWait r c) = bare c ∧ SameBoard c (holdWait r c) := ⟨rfl, rfl, rfl, rfl, rfl, rfl⟩

theorem waitsListed_keeps (ws : List WaitRec) (t : SMap Nat) (c : Core) :
    (waitsListed ws t c).engs = c.engs ∧ (waitsListed ws t c).outst = c.outst ∧ (waitsListed ws t c).lone = c.lone ∧
      noSems (bare (waitsListed ws t c)) = noSems (bare c) := ⟨rfl, rfl, rfl, rfl⟩

/-- The board of a cycle in which a WAIT was judged alone, and granted or not. -/
def waitGrantedBoard (r : WaitRec) (cyc : Nat) (c : Core) : Core :=
  waitsListed [{ r with granted := true }] (if r.take then smUpd 0 [] r.key (· + r.n) else []) (semAt cyc c)
def waitRefusedBoard (r : WaitRec) (cyc : Nat) (c : Core) : Core := waitsListed [{ r with granted := false }] [] (semAt cyc c)

/-- The core whose evaluated WAIT is granted; its take counts. -/
def waitGranted (e cyc sem n ps : Nat) (take p : Bool) (c : Core) : Core :=
  grantWait cyc (waitRec e c.bank sem n ps take p) (waitGrantedBoard (waitRec e c.bank sem n ps take p) cyc c)

/-- The core whose evaluated WAIT is refused. -/
def waitRefused (e cyc sem n ps : Nat) (take p : Bool) (c : Core) : Core :=
  holdWait (waitRec e c.bank sem n ps take p) (waitRefusedBoard (waitRec e c.bank sem n ps take p) cyc c)

section
variable {e cyc sem n ps : Nat} {take p : Bool} {c : Core}

theorem evaluated_alone (h : (semAt cyc c).semWaits = []) :
    evaluated e cyc sem n ps take p c =
      if n ≤ semStart c cyc (semKey c.bank sem) then waitGranted e cyc sem n ps take p c
      else waitRefused e cyc sem n ps take p c := by
  unfold evaluated
  rw [waitJudged_alone h, sem_semAt]
  rfl

theorem waitsListed_semAt_keeps (ws : List WaitRec) (t : SMap Nat) (cyc : Nat) (c : Core) :
    (∀ e, getEng (waitsListed ws t (semAt cyc c)) e = getEng c e) ∧
      (waitsListed ws t (semAt cyc c)).outst = c.outst ∧ (waitsListed ws t (semAt cyc c)).lone = c.lone ∧
      noSems (bare (waitsListed ws t (semAt cyc c))) = noSems (bare c) := by
  obtain ⟨hengs, houtst, hlone, _, hhide⟩ := semAt_keeps cyc c
  obtain ⟨hengs', houtst', hlone', hhide'⟩ := waitsListed_keeps ws t (semAt cyc c)
  exact ⟨fun e => getEng_of_engs (hengs'.trans hengs) e, houtst'.trans houtst, hlone'.trans hlone, hhide'.trans hhide⟩

theorem waitGranted_leaves :
    getEng (waitGranted e cyc sem n ps take p c) e =
        { getEng c e with mode := if c.lone then .atTend else .running, free := cyc + 1 } ∧
      (∀ d, d ≠ e → getEng (waitGranted e cyc sem n ps take p c) d = getEng c d) ∧
      (waitGranted e cyc sem n ps take p c).outst =
        c.outst ++ [{ eng := e, due := some cyc, p := p, ps := ps, run := none }] ∧
      noSems (bare (waitGranted e cyc sem n ps take p c)) = noSems (bare c) := by
  obtain ⟨r, hr⟩ : ∃ r, r = waitRec e c.bank sem n ps take p := ⟨_, rfl⟩
  obtain ⟨hengs, houtst, hlone, hhide⟩ := waitsListed_semAt_keeps [{ r with granted := true }]
    (if r.take then smUpd 0 [] r.key (· + r.n) else []) cyc c
  have hsame := getEng_grantWait_same cyc r (waitGrantedBoard r cyc c)
  obtain ⟨hdone, hbare, _⟩ := grantWait_keeps cyc r (waitGrantedBoard r cyc c)
  unfold waitGranted
  rw [← hr]
  unfold waitGrantedBoard at hsame hdone hbare ⊢
  refine ⟨?_, fun d hd => ?_, ?_, ?_⟩
  · rw [hengs, hlone, hr] at hsame
    rw [hr]
    exact hsame
  · rw [getEng_grantWait_other cyc r _ (by rw [hr]; exact hd), hengs]
  · rw [hdone, houtst, hr]
    rfl
  · rw [hbare, hhide]

theorem waitRefused_leaves :
    getEng (waitRefused e cyc sem n ps take p c) e = { getEng c e with mode := .blocked sem n take p ps } ∧
      (∀ d, d ≠ e → getEng (waitRefused e cyc sem n ps take p c) d = getEng c d) ∧
      (waitRefused e cyc sem n ps take p c).outst = c.outst ∧
      noSems (bare (waitRefused e cyc sem n ps take p c)) = noSems (bare c) := by
  obtain ⟨r, hr⟩ : ∃ r, r = waitRec e c.bank sem n ps take p := ⟨_, rfl⟩
  obtain ⟨hengs, houtst, _, hhide⟩ := waitsListed_semAt_keeps [{ r with granted := false }] [] cyc c
  have hsame := getEng_holdWait_same r (waitRefusedBoard r cyc c)
  obtain ⟨hdone, hbare, _⟩ := holdWait_keeps r (waitRefusedBoard r cyc c)
  unfold waitRefused
  rw [← hr]
  unfold waitRefusedBoard at hsame hdone hbare ⊢
  refine ⟨?_, fun d hd => ?_, ?_, ?_⟩
  · rw [hengs, hr] at hsame
    rw [hr]
    exact hsame
  · rw [getEng_holdWait_other r _ (by rw [hr]; exact hd), hengs]
  · rw [hdone, houtst]
  · rw [hbare, hhide]

theorem semMoves_waitGranted (h : (semAt cyc c).semTake = []) :
    SemMoves cyc (semKey c.bank sem) (if take then n else 0) 0 c (waitGranted e cyc sem n ps take p c) := by
  obtain ⟨_, _, hboard⟩ := grantWait_keeps cyc (waitRec e c.bank sem n ps take p)
    (waitGrantedBoard (waitRec e c.bank sem n ps take p) cyc c)
  refine (semMoves_waitsListed fun j => ?_).of_board (.refl c) hboard
  rw [h]
  show smGet 0 (if take then smUpd 0 [] (semKey c.bank sem) (· + n) else []) j = _
  cases take
  · simp
  · by_cases hj : j = semKey c.bank sem
    · simp [hj, smGet_smUpd]
    · simp [hj, smGet_smUpd, Ne.symm hj]

theorem semMoves_waitRefused (h : (semAt cyc c).semTake = []) :
    SemMoves cyc (semKey c.bank sem) 0 0 c (waitRefused e cyc sem n ps take p c) := by
  obtain ⟨_, _, hboard⟩ := holdWait_keeps (waitRec e c.bank sem n ps take p)
    (waitRefusedBoard (waitRec e c.bank sem n ps take p) cyc c)
  refine (semMoves_waitsListed fun j => ?_).of_board (.refl c) hboard
  rw [h, ite_self, Nat.add_zero]

end

/-! ### WAITs that issue -/

section
variable {i : Issue} {w x : Nat} {s : State}

/-- The board of the issuing core behind the issue of a WAIT. -/
theorem opensCycle_issued {cyc : Nat} (h : OpensCycle i.core.lcid cyc s) : OpensCycle i.core.lcid cyc (issued i w s) := by
  have hboard := sameBoard_issued i w s
  unfold OpensCycle at h ⊢
  rw [hboard.2.1, show (getCore (issued i w s) i.core.lcid).semWaits = (getCore s i.core.lcid).semWaits by
    rw [getCore_issued]; rfl, hboard.2.2.2]
  split
  · next heq => rwa [if_pos heq] at h
  · next hne => rw [if_neg hne] at h; exact semFaults_of_board hboard h

theorem coreStep_waitEff (hsem : (getCore s i.core.lcid).semCyc = i.cyc ∨ semFaults s i.core.lcid = [])
    (hdead : (getCore s i.core.lcid).dead = false) :
    CoreStep i.core.lcid (evaluated i.eng.no i.cyc (fWaitS w) (fWaitN w) (wPS w) (fWaitT w) (wP w)) (issued i w s)
      (waitEff i w x (issued i w s)) :=
  coreStep_waitTry (passes_of_board (sameBoard_issued i w s) hsem) (by rw [getCore_issued]; exact hdead)

theorem bank_advanced (c : Core) : (advanced i w c).bank = c.bank := rfl

theorem semStart_advanced (c : Core) (cyc k : Nat) : semStart (advanced i w c) cyc k = semStart c cyc k := rfl

/-- A WAIT that is the only one of its cycle. -/
theorem wait_alone (hopen : OpensCycle i.core.lcid i.cyc s)
    (hdead : (getCore s i.core.lcid).dead = false) :
    if fWaitN w ≤ semStart (getCore s i.core.lcid) i.cyc (semKey (getCore s i.core.lcid).bank (fWaitS w)) then
      Issued i w (i.cyc + 1) (goesOn i s) [doneAt i w i.cyc] noSems [] s (waitEff i w x (issued i w s)) ∧
      SemMoves i.cyc (semKey (getCore s i.core.lcid).bank (fWaitS w)) (if fWaitT w then fWaitN w else 0) 0
        (getCore s i.core.lcid) (getCore (waitEff i w x (issued i w s)) i.core.lcid)
    else
      Issued i w (i.cyc + 1) (.blocked (fWaitS w) (fWaitN w) (fWaitT w) (wP w) (wPS w)) [] noSems [] s
        (waitEff i w x (issued i w s)) ∧
      SemMoves i.cyc (semKey (getCore s i.core.lcid).bank (fWaitS w)) 0 0 (getCore s i.core.lcid)
        (getCore (waitEff i w x (issued i w s)) i.core.lcid) := by
  have hstep := coreStep_waitEff (w := w) (x := x) hopen.passes hdead
  obtain ⟨hwaits, htake⟩ := (opensCycle_issued (w := w) hopen).board
  rw [getCore_issued] at hwaits htake
  have heval := evaluated_alone (e := i.eng.no) (sem := fWaitS w) (n := fWaitN w) (ps := wPS w) (take := fWaitT w)
    (p := wP w) hwaits
  have hboard := sameBoard_advanced i w (getCore s i.core.lcid)
  have hcore := hstep.core
  rw [getCore_issued] at hcore
  rw [semStart_advanced, bank_advanced] at heval
  split
  · next hle =>
    rw [if_pos hle] at heval
    obtain ⟨hsame, hother, houtst, hhide⟩ := waitGranted_leaves (e := i.eng.no) (cyc := i.cyc) (sem := fWaitS w)
      (n := fWaitN w) (ps := wPS w) (take := fWaitT w) (p := wP w) (c := advanced i w (getCore s i.core.lcid))
    refine ⟨.of_step hstep ?_ (fun e he => ?_) ?_ ?_, ?_⟩
    · rw [heval, hsame, getEng_advanced_same]
      rfl
    · rw [heval, hother e he, getEng_advanced_other _ _ _ he]
    · rw [heval, houtst, outst_advanced]
      rfl
    · rw [heval, hhide, bare_advanced]
    · rw [hcore, heval]
      exact (semMoves_waitGranted htake).of_board hboard ⟨rfl, rfl, rfl, rfl⟩
  · next hlt =>
    rw [if_neg hlt] at heval
    obtain ⟨hsame, hother, houtst, hhide⟩ := waitRefused_leaves (e := i.eng.no) (cyc := i.cyc) (sem := fWaitS w)
      (n := fWaitN w) (ps := wPS w) (take := fWaitT w) (p := wP w) (c := advanced i w (getCore s i.core.lcid))
    refine ⟨.of_step hstep ?_ (fun e he => ?_) ?_ ?_, ?_⟩
    · rw [heval, hsame, getEng_advanced_same]
      rfl
    · rw [heval, hother e he, getEng_advanced_other _ _ _ he]
    · rw [heval, houtst, outst_advanced, List.append_nil]
    · rw [heval, hhide, bare_advanced]
    · rw [hcore, heval]
      exact (semMoves_waitRefused htake).of_board hboard ⟨rfl, rfl, rfl, rfl⟩

end

/-! ### Two WAITs of a cycle (R98) -/

theorem popDue_append {e cyc : Nat} {o : Outst} {r : List Outst} (ho : o.eng = e) (hd : o.due = some cyc) :
    ∀ l : List Outst, (∀ q ∈ l, ¬ (q.eng = e ∧ q.due = some cyc)) → popDue e cyc (l ++ o :: r) = some (o, l ++ r)
  | [], _ => by
    show popDue e cyc (o :: r) = _
    unfold popDue
    exact if_pos ⟨ho, hd⟩
  | q :: l, h => by
    have ih := popDue_append (r := r) ho hd l fun x hx => h x (by simp [hx])
    show popDue e cyc (q :: (l ++ o :: r)) = _
    unfold popDue
    rw [if_neg (h q (by simp)), ih]
    rfl

/-- An instruction that completes leaves the list of those that have yet to (R83). -/
def outstLeft (os : List Outst) (c : Core) : Core := { c with outst := os }

theorem waitMet_after (c : Core) (k m n : Nat) :
    waitMet c (smUpd 0 [] k (· + n)) k m = decide (m + n ≤ smGet 0 c.sem k) := by
  unfold waitMet
  rw [smGet_smUpd, if_pos rfl, show smGet 0 [] k = 0 from rfl, Nat.zero_add]

/-- A core whose board holds one WAIT of the cycle, granted and to complete in it, whose take leaves too little for another
of `n`. -/
def TakeContested (cyc k n : Nat) (q : WaitRec) (c : Core) : Prop :=
  c.semCyc = cyc ∧ c.semWaits = [q] ∧ q.granted = true ∧ q.take = true ∧ q.key = k ∧
    c.outst = [{ eng := q.eng, due := some cyc, p := q.p, ps := q.ps, run := none }] ∧
    n ≤ smGet 0 c.sem k ∧ q.n ≤ smGet 0 c.sem k ∧ smGet 0 c.sem k < n + q.n

section
variable {e cyc sem n ps : Nat} {p : Bool} {q : WaitRec} {c : Core}

/-- The WAIT first in engine order is granted; the other gives its take back and waits. -/
theorem evaluated_before (h : TakeContested cyc (semKey c.bank sem) n q c) (hlt : e < q.eng) :
    let d := evaluated e cyc sem n ps true p c
    getEng d e = { getEng c e with mode := if c.lone then .atTend else .running, free := cyc + 1 } ∧
      d.semCyc = cyc ∧ smGet 0 d.semTake (semKey c.bank sem) = n ∧
      (getEng d q.eng).mode = .blocked q.sem q.n q.take q.p q.ps ∧
      d.outst = [{ eng := e, due := some cyc, p := p, ps := ps, run := none }] := by
  obtain ⟨hcyc, hwaits, hgranted, _, hkey, houtst, hfits, _, hover⟩ := h
  obtain ⟨r, hr⟩ : ∃ r, r = waitRec e c.bank sem n ps true p := ⟨_, rfl⟩
  obtain ⟨u, hu⟩ : ∃ u, u = waitsListed [{ r with granted := true }, { q with granted := false }]
      (smUpd 0 [] r.key (· + r.n)) c := ⟨_, rfl⟩
  obtain ⟨g, hg⟩ : ∃ g, g = grantWait cyc { r with granted := true } u := ⟨_, rfl⟩
  have hrefused : waitMet c (smUpd 0 [] r.key (· + r.n)) q.key q.n = false := by
    rw [hkey, hr]
    exact (waitMet_after ..).trans (decide_eq_false (by show ¬ q.n + n ≤ smGet 0 c.sem (semKey c.bank sem); omega))
  have heval : evaluated e cyc sem n ps true p c = revokeWait cyc { q with granted := false } g := by
    have hat : semAt cyc c = c := if_pos hcyc
    unfold evaluated
    rw [hat, ← hr, waitJudged_before hwaits (by rw [hr]; exact hlt) hgranted (by rw [hr]; exact hfits) (by rw [hr]; rfl)
      hrefused, ← hu, ← hg]
  have hdone : g.outst = { eng := q.eng, due := some cyc, p := q.p, ps := q.ps, run := none } ::
      [{ eng := e, due := some cyc, p := p, ps := ps, run := none }] := by
    rw [hg, (grantWait_keeps cyc _ u).1, hu, (waitsListed_keeps _ _ c).2.1, houtst, hr]
    rfl
  have hpop : popDue q.eng cyc g.outst = some ({ eng := q.eng, due := some cyc, p := q.p, ps := q.ps, run := none },
      [{ eng := e, due := some cyc, p := p, ps := ps, run := none }]) := by
    rw [hdone]
    exact popDue_append (o := { eng := q.eng, due := some cyc, p := q.p, ps := q.ps, run := none }) rfl rfl [] (by simp)
  have hrevoke : revokeWait cyc { q with granted := false } g = holdWait { q with granted := false }
      (outstLeft [{ eng := e, due := some cyc, p := p, ps := ps, run := none }] g) := by
    unfold revokeWait
    rw [hpop]
    rfl
  have hsame : getEng g e = { getEng c e with mode := if c.lone then .atTend else .running, free := cyc + 1 } := by
    rw [hg, hu, hr]
    exact getEng_grantWait_same ..
  dsimp only
  rw [heval, hrevoke]
  obtain ⟨_, _, hgcyc, _, hgtake⟩ := hg ▸ (grantWait_keeps cyc { r with granted := true } u).2
  refine ⟨?_, ?_, ?_, ?_, rfl⟩
  · exact (getEng_holdWait_other _ _ (Nat.ne_of_lt hlt)).trans hsame
  · exact hgcyc.trans (hu ▸ hcyc)
  · refine (congrArg (smGet 0 · _) hgtake).trans ?_
    rw [hu, hr]
    show smGet 0 (smUpd 0 [] (semKey c.bank sem) (· + n)) (semKey c.bank sem) = n
    rw [smGet_smUpd, if_pos rfl]
    exact Nat.zero_add n
  · exact congrArg Eng.mode (getEng_holdWait_same { q with granted := false } _)

/-- The WAIT first in engine order keeps its take; the one behind it waits. -/
theorem evaluated_behind (h : TakeContested cyc (semKey c.bank sem) n q c) (hlt : q.eng < e) :
    let d := evaluated e cyc sem n ps true p c
    (getEng d e).mode = .blocked sem n true p ps ∧ d.semCyc = cyc ∧ smGet 0 d.semTake (semKey c.bank sem) = q.n ∧
      getEng d q.eng = getEng c q.eng ∧ d.outst = c.outst := by
  obtain ⟨hcyc, hwaits, hgranted, htake, hkey, _, _, hfits, hover⟩ := h
  obtain ⟨r, hr⟩ : ∃ r, r = waitRec e c.bank sem n ps true p := ⟨_, rfl⟩
  have hrefused : waitMet c (smUpd 0 [] q.key (· + q.n)) r.key r.n = false := by
    rw [hkey, hr]
    exact (waitMet_after ..).trans (decide_eq_false (by show ¬ n + q.n ≤ _; omega))
  have heval : evaluated e cyc sem n ps true p c = holdWait { r with granted := false }
      (waitsListed [{ q with granted := true }, { r with granted := false }] (smUpd 0 [] q.key (· + q.n)) c) := by
    have hat : semAt cyc c = c := if_pos hcyc
    unfold evaluated
    rw [hat, ← hr, waitJudged_behind hwaits (by rw [hr]; exact hlt) hgranted (by rw [hkey]; exact hfits) htake hrefused]
  dsimp only
  rw [heval, hr]
  refine ⟨congrArg Eng.mode (getEng_holdWait_same _ _), hcyc, ?_, getEng_holdWait_other _ _ (Nat.ne_of_lt hlt), rfl⟩
  show smGet 0 (smUpd 0 [] q.key (· + q.n)) _ = q.n
  rw [hkey, smGet_smUpd, if_pos rfl]
  exact Nat.zero_add q.n

end

/-! ### O16 -/

/-- A WAIT that holds its engine is judged where the engine is free and its core runs (R98). -/
theorem waitGrant_tries {c : CoreId} {e : Engine} {cyc sem n ps : Nat} {take p : Bool} {s : State}
    (hopen : issueOpen s = true) (hcore : coreOpen (getCore s c.lcid) = true)
    (hmode : (getEng (getCore s c.lcid) e.no).mode = .blocked sem n take p ps)
    (hfree : (getEng (getCore s c.lcid) e.no).free ≤ cyc) :
    exec (.waitGrant c e cyc) s = .next (waitTry c.lcid e.no cyc sem n take p ps s) := by
  show execWaitGrant c e cyc s = _
  unfold execWaitGrant
  dsimp only
  rw [if_neg (by simp [hopen, hcore]), hmode]
  exact congrArg Host.Outcome.next (if_pos hfree)

/-- The core behind an arrival and its end. -/
theorem coreStep_arrival {c : CoreId} {cyc : Nat} {m : Xfer} {ms : List Xfer} {s : State}
    (hp : inPark (getCore s c.lcid) = false) (hsem : (getCore s c.lcid).semCyc = cyc ∨ semFaults s c.lcid = [])
    (hd : (getCore s c.lcid).dead = false) (gone : List Nat) :
    CoreStep c.lcid ((inboundOver cyc ∘ posted cyc m.bank m.sem m.cnt) ∘ doorWrite gone [] m.line m.data)
      (meshLeft ms s) (arrivalEnd c cyc m (doorWritten c gone m (meshLeft ms s))) := by
  have hwrite := coreStep_doorWritten c gone m (meshLeft ms s)
  obtain ⟨hpark, hboard, hdead⟩ := hwrite.ends (storeOnly_doorWrite _ _ _ _) hp hsem hd
  exact hwrite.trans (coreStep_transferEnds hpark hboard hdead)

theorem instructionComplete_pops {c : CoreId} {e : Engine} {cyc : Nat} {o : Outst} {l r : List Outst} {s : State}
    (hout : (getCore s c.lcid).outst = l ++ o :: r) (hl : ∀ q ∈ l, ¬ (q.eng = e.no ∧ q.due = some cyc)) (ho : o.eng = e.no)
    (hd : o.due = some cyc) :
    exec (.instructionComplete c e cyc) s = .next (
      let u := updCore s c.lcid (outstLeft (l ++ r))
      if o.p then semAdd c.lcid cyc (semKey (getCore s c.lcid).bank o.ps) 1 u else u) := by
  show execInstructionComplete c e cyc s = _
  unfold execInstructionComplete
  dsimp only
  rw [hout, popDue_append ho hd l hl]
  rfl

/-- Two WAITs of a cycle that one semaphore cannot both serve: the one first in engine order is granted, whichever issued
first. -/
theorem wait_contested {i : Issue} {w x : Nat} {q : WaitRec} {s : State} (hf : Fetches i opWait w x s)
    (hdead : (getCore s i.core.lcid).dead = false) (hT : fWaitT w = true)
    (hcont : TakeContested i.cyc (semKey (getCore s i.core.lcid).bank (fWaitS w)) (fWaitN w) q (getCore s i.core.lcid)) :
    Answers (.wait i) s fun t =>
      (i.eng.no < q.eng → (engOf i t).mode = goesOn i s ∧
        semTaken (getCore t i.core.lcid) i.cyc (semKey (getCore s i.core.lcid).bank (fWaitS w)) = fWaitN w ∧
        (getEng (getCore t i.core.lcid) q.eng).mode = .blocked q.sem q.n q.take q.p q.ps ∧
        (getCore t i.core.lcid).outst = [doneAt i w i.cyc]) ∧
      (q.eng < i.eng.no → (engOf i t).mode = .blocked (fWaitS w) (fWaitN w) (fWaitT w) (wP w) (wPS w) ∧
        semTaken (getCore t i.core.lcid) i.cyc (semKey (getCore s i.core.lcid).bank (fWaitS w)) = q.n ∧
        getEng (getCore t i.core.lcid) q.eng = getEng (getCore s i.core.lcid) q.eng ∧
        (getCore t i.core.lcid).outst = (getCore s i.core.lcid).outst) := by
  obtain ⟨hcyc, _⟩ := id hcont
  have hstep := coreStep_waitEff (w := w) (x := if twoWord opWait then x else 0) (.inl hcyc) hdead
  have hcore := hstep.core
  rw [getCore_issued, hT] at hcore
  replace hcont : TakeContested i.cyc (semKey (advanced i w (getCore s i.core.lcid)).bank (fWaitS w)) (fWaitN w) q
      (advanced i w (getCore s i.core.lcid)) := hcont
  refine ⟨_, congrArg Host.Outcome.next (issueOp_of_fetches hf (waitEff i)), fun hlt => ?_, fun hlt => ?_⟩
  · obtain ⟨heng, hcyc', htaken, hother, hout⟩ := evaluated_before (ps := wPS w) (p := wP w) hcont hlt
    rw [← hcore] at heng hcyc' htaken hother hout
    refine ⟨congrArg Eng.mode heng, ?_, hother, hout⟩
    unfold semTaken
    rw [if_pos hcyc']
    exact htaken
  · obtain ⟨hmode, hcyc', htaken, hother, hout⟩ := evaluated_behind (ps := wPS w) (p := wP w) hcont hlt
    rw [← hcore] at hmode hcyc' htaken hother hout
    refine ⟨hmode.trans (by rw [hT]), ?_, hother.trans (getEng_advanced_other i w _ (Nat.ne_of_lt hlt)), hout⟩
    unfold semTaken
    rw [if_pos hcyc']
    exact htaken

/-- A WAIT that holds its engine goes on where its semaphore holds enough. -/
theorem waitGrant_grants {c : CoreId} {e : Engine} {cyc sem n ps : Nat} {take p : Bool} {s : State}
    (hopen : issueOpen s = true) (hcore : coreOpen (getCore s c.lcid) = true)
    (hmode : (getEng (getCore s c.lcid) e.no).mode = .blocked sem n take p ps)
    (hfree : (getEng (getCore s c.lcid) e.no).free ≤ cyc) (hcycle : OpensCycle c.lcid cyc s)
    (hdead : (getCore s c.lcid).dead = false)
    (hle : n ≤ semStart (getCore s c.lcid) cyc (semKey (getCore s c.lcid).bank sem)) :
    Answers (.waitGrant c e cyc) s fun t =>
      getEng (getCore t c.lcid) e.no =
        { mode := if (getCore s c.lcid).lone then .atTend else .running, idx := (getEng (getCore s c.lcid) e.no).idx,
          free := cyc + 1 } ∧
      (getCore t c.lcid).outst =
        (getCore s c.lcid).outst ++ [{ eng := e.no, due := some cyc, p := p, ps := ps, run := none }] ∧
      SemMoves cyc (semKey (getCore s c.lcid).bank sem) (if take then n else 0) 0 (getCore s c.lcid) (getCore t c.lcid) ∧
      noSems (bare (getCore t c.lcid)) = noSems (bare (getCore s c.lcid)) ∧
      (∀ d, d ≠ c.lcid → getCore t d = getCore s d) ∧ ChangesOnly [.cores] s t := by
  have hstep := coreStep_waitTry (e := e.no) (sem := sem) (n := n) (ps := ps) (take := take) (p := p) hcycle.passes hdead
  obtain ⟨hwaits, htake⟩ := hcycle.board
  have hafter := hstep.core.trans ((evaluated_alone hwaits).trans (if_pos hle))
  obtain ⟨heng, _, houtst, hhide⟩ := waitGranted_leaves (e := e.no) (cyc := cyc) (sem := sem) (n := n) (ps := ps)
    (take := take) (p := p) (c := getCore s c.lcid)
  refine ⟨_, waitGrant_tries hopen hcore hmode hfree, ?_, ?_, ?_, ?_, hstep.others, hstep.parts⟩
  · rw [hafter, heng]
  · rw [hafter, houtst]
  · rw [hafter]; exact semMoves_waitGranted htake
  · rw [hafter, hhide]

/-- It holds its engine further where the semaphore holds too little. -/
theorem waitGrant_holds {c : CoreId} {e : Engine} {cyc sem n ps : Nat} {take p : Bool} {s : State}
    (hopen : issueOpen s = true) (hcore : coreOpen (getCore s c.lcid) = true)
    (hmode : (getEng (getCore s c.lcid) e.no).mode = .blocked sem n take p ps)
    (hfree : (getEng (getCore s c.lcid) e.no).free ≤ cyc) (hcycle : OpensCycle c.lcid cyc s)
    (hdead : (getCore s c.lcid).dead = false)
    (hlt : semStart (getCore s c.lcid) cyc (semKey (getCore s c.lcid).bank sem) < n) :
    Answers (.waitGrant c e cyc) s fun t =>
      getEng (getCore t c.lcid) e.no = getEng (getCore s c.lcid) e.no ∧ (getCore t c.lcid).outst = (getCore s c.lcid).outst ∧
      SemMoves cyc (semKey (getCore s c.lcid).bank sem) 0 0 (getCore s c.lcid) (getCore t c.lcid) ∧
      (∀ d, d ≠ c.lcid → getCore t d = getCore s d) ∧ ChangesOnly [.cores] s t := by
  have hstep := coreStep_waitTry (e := e.no) (sem := sem) (n := n) (ps := ps) (take := take) (p := p) hcycle.passes hdead
  obtain ⟨hwaits, htake⟩ := hcycle.board
  have hafter := hstep.core.trans ((evaluated_alone hwaits).trans (if_neg (Nat.not_le.mpr hlt)))
  obtain ⟨heng, _, houtst, _⟩ := waitRefused_leaves (e := e.no) (cyc := cyc) (sem := sem) (n := n) (ps := ps)
    (take := take) (p := p) (c := getCore s c.lcid)
  refine ⟨_, waitGrant_tries hopen hcore hmode hfree, ?_, ?_, ?_, hstep.others, hstep.parts⟩
  · rw [hafter, heng, ← hmode]
  · rw [hafter, houtst]
  · rw [hafter]; exact semMoves_waitRefused htake

/-- The Doorway posts the count that the arriving transfer names; a count of 0 is no post. -/
theorem doorwayArrival_posts {c : CoreId} {cyc : Nat} {m : Xfer} {l r : List Xfer} {s : State} (harr : Arrives c cyc m l r s)
    (hp : inPark (getCore s c.lcid) = false) (hsem : (getCore s c.lcid).semCyc = cyc ∨ semFaults s c.lcid = [])
    (hdead : (getCore s c.lcid).dead = false) :
    Answers (.doorwayArrival c cyc [] []) s fun t =>
      (0 < m.cnt → SemMoves cyc (semKey m.bank m.sem) 0 m.cnt (getCore s c.lcid) (getCore t c.lcid)) ∧
      (m.cnt = 0 → ∀ k, semVal (getCore t c.lcid) k = semVal (getCore s c.lcid) k) := by
  have hstep := coreStep_arrival (m := m) (ms := l ++ r) hp hsem hdead m.gone
  have hboard : SameBoard (getCore s c.lcid) (doorWrite m.gone [] m.line m.data (getCore s c.lcid)) :=
    (storeOnly_doorWrite _ _ _ _).board.1
  refine ⟨arrivalEnd c cyc m (doorWritten c m.gone m (meshLeft (l ++ r) s)), ?_, fun hcnt => ?_, fun hcnt k => ?_⟩
  · rw [doorwayArrival_unparked harr hp]
    simp only [List.filter_nil, List.map_nil, List.append_nil]
    rfl
  · rw [hstep.core]
    exact (semMoves_ends hcnt _).of_board hboard ⟨rfl, rfl, rfl, rfl⟩
  · rw [hstep.core, hcnt]
    exact semVal_of_board hboard k

/-- An instruction that completes with P posts 1. -/
theorem instructionComplete_posts {c : CoreId} {e : Engine} {cyc : Nat} {o : Outst} {l r : List Outst} {s : State}
    (hout : (getCore s c.lcid).outst = l ++ o :: r) (hl : ∀ q ∈ l, ¬ (q.eng = e.no ∧ q.due = some cyc)) (ho : o.eng = e.no)
    (hd : o.due = some cyc) (hsem : (getCore s c.lcid).semCyc = cyc ∨ semFaults s c.lcid = []) :
    Answers (.instructionComplete c e cyc) s fun t =>
      (getCore t c.lcid).outst = l ++ r ∧
      (o.p = true → SemMoves cyc (semKey (getCore s c.lcid).bank o.ps) 0 1 (getCore s c.lcid) (getCore t c.lcid)) ∧
      (o.p = false → getCore t c.lcid = { getCore s c.lcid with outst := l ++ r }) ∧
      (∀ d, d ≠ c.lcid → getCore t d = getCore s d) ∧ ChangesOnly [.cores] s t := by
  have hpop := coreStep_updCore c.lcid (outstLeft (l ++ r)) s
  refine ⟨_, instructionComplete_pops hout hl ho hd, ?_⟩
  dsimp only
  cases hp : o.p with
  | false => exact ⟨by rw [if_neg (by simp), hpop.core]; rfl, nofun, fun _ => hpop.core, hpop.others, hpop.parts⟩
  | true =>
    have hboard : SameBoard (getCore s c.lcid) (getCore (updCore s c.lcid (outstLeft (l ++ r))) c.lcid) := by
      rw [hpop.core]; exact ⟨rfl, rfl, rfl, rfl⟩
    have hstep := hpop.trans (coreStep_semAdd (key := semKey (getCore s c.lcid).bank o.ps) (n := 1)
      (passes_of_board hboard hsem))
    rw [if_pos rfl]
    refine ⟨?_, fun _ => ?_, nofun, hstep.others, hstep.parts⟩
    · rw [hstep.core]
      exact (semAt_keeps cyc _).2.1
    · rw [hstep.core]
      exact (semMoves_bell cyc _ _ (outstLeft (l ++ r) (getCore s c.lcid))).of_board ⟨rfl, rfl, rfl, rfl⟩ ⟨rfl, rfl, rfl, rfl⟩

/-- Settles O16: SADD and SSUB by `issued_semAdd`, WAITs by the judgement of their cycle (`wait_alone`, `wait_contested`,
`waitGrant_grants`, `waitGrant_holds`), the posts by the step of their core. -/
theorem semaphoreInstructionsMoveTheBellBoard : Obligations.SemaphoreInstructionsMoveTheBellBoard := by
  refine ⟨?_, ?_, ?_, ?_, fun c e cyc sem n ps take p s => waitGrant_grants, fun c e cyc sem n ps take p s => waitGrant_holds,
    fun c cyc m l r s => doorwayArrival_posts, fun c e cyc o l r s => instructionComplete_posts⟩
  · intro i w x s hf hsem
    exact ⟨_, congrArg Host.Outcome.next (issueOp_of_fetches hf (saddEff i)), issued_semAdd hf.can hsem⟩
  · intro i w x s hf hsem
    exact ⟨_, congrArg Host.Outcome.next (issueOp_of_fetches hf (ssubEff i)), issued_semAdd hf.can hsem⟩
  · intro i w x s hf hopen hdead
    exact ⟨_, congrArg Host.Outcome.next (issueOp_of_fetches hf (waitEff i)), wait_alone hopen hdead⟩
  · intro i w x q s hf c k hdead hcyc hwaits hgranted htake hkey _ houtst _ hT hfits hqfits hover
    exact wait_contested hf hdead hT ⟨hcyc, hwaits, hgranted, htake, hkey, houtst, hfits, hqfits, hover⟩

end Sys2Proof.Machine
end

section
/-! A word that may not issue, and O17 (R82, R94, R95). -/

namespace Sys2Proof.Machine

/-- The engine stands where it stopped. -/
def engStopped (e : Nat) (c : Core) : Core := updEng c e fun g => { g with mode := .stopped }

theorem coreStep_stopEngine (c e : Nat) (s : State) : CoreStep c (engStopped e) s (stopEngine c e s) := coreStep_updCore ..

/-- The engine stands where it stopped, and the fault `r` has the next entry of the log. -/
def StopsWith (r : FaultRec) (i : Issue) (s t : State) : Prop :=
  engOf i t = { engOf i s with mode := .stopped } ∧
    ∃ e, smGet none t.flt.log (getF s R.FLT_LOG_HEAD.SEQ % 1024) = some e ∧ e.code = r.code ∧ e.unit = r.unit ∧
      e.unitId = r.unitId ∧ e.detail = r.detail % 2 ^ 64

theorem stopsWith_of_taken {r : FaultRec} {i : Issue} {s t : State}
    (h : FaultTaken r (stopEngine i.core.lcid i.eng.no s) t) : StopsWith r i s t := by
  have hstop := coreStep_stopEngine i.core.lcid i.eng.no s
  have hseq : getF (stopEngine i.core.lcid i.eng.no s) R.FLT_LOG_HEAD.SEQ = getF s R.FLT_LOG_HEAD.SEQ :=
    getF_congr (hstop.parts .regs (by decide)) _
  refine ⟨?_, entryOf r _ _, hseq ▸ h.entry, rfl, rfl, rfl, rfl⟩
  unfold engOf
  rw [h.getCore_eq, hstop.core]
  exact getEng_updEng_same _ _ _

theorem issueOp_at_end {i : Issue} {op : Nat} {eff : Nat → Nat → State → State} {s : State} (hcan : canIssue s i = true)
    (hend : listLen (getCore s i.core.lcid) ≤ (engOf i s).idx) :
    issueOp i op eff s = illegalOp i.core.lcid i.cyc (stopEngine i.core.lcid i.eng.no s) := by
  unfold issueOp
  dsimp only
  rw [if_neg (by simp [hcan])]
  exact if_pos hend

theorem issueOp_parity {i : Issue} {op : Nat} {eff : Nat → Nat → State → State} {s : State} (hcan : canIssue s i = true)
    (hin : (engOf i s).idx < listLen (getCore s i.core.lcid)) (hpar : i.parity = true) :
    issueOp i op eff s = takeFault (coreFault s i.core.lcid 0x15 clVoid i.cyc (engOf i s).idx)
      (stopEngine i.core.lcid i.eng.no s) := by
  unfold engOf at *
  unfold issueOp
  dsimp only
  rw [if_neg (by simp [hcan]), if_neg (Nat.not_le.mpr hin)]
  exact if_pos hpar

theorem issueOp_illegal {i : Issue} {op : Nat} {eff : Nat → Nat → State → State} {s : State} (hcan : canIssue s i = true)
    (hin : (engOf i s).idx < listLen (getCore s i.core.lcid)) (hpar : i.parity = false)
    (hbad : wordLegal (getCore s i.core.lcid) i.eng (fetchWord (getCore s i.core.lcid) (engOf i s).idx) = false) :
    issueOp i op eff s = illegalOp i.core.lcid i.cyc (stopEngine i.core.lcid i.eng.no s) := by
  unfold engOf at *
  unfold issueOp
  dsimp only
  rw [if_neg (by simp [hcan]), if_neg (Nat.not_le.mpr hin), if_neg (by simp [hpar])]
  exact if_pos (by rw [hbad]; rfl)

/-- Settles O17: what the issue meets stops the engine, and the fault is taken behind the stop. -/
theorem wordThatMayNotIssueStopsItsEngine : Obligations.WordThatMayNotIssueStopsItsEngine := by
  constructor
  · intro i s hcan hbad
    have hstops : execNop i s = .next (illegalOp i.core.lcid i.cyc (stopEngine i.core.lcid i.eng.no s)) := by
      rcases Nat.lt_or_ge (engOf i s).idx (listLen (getCore s i.core.lcid)) with hin | hend
      · obtain ⟨hpar, hword⟩ := hbad.resolve_left (Nat.not_le.mpr hin)
        exact congrArg Host.Outcome.next (issueOp_illegal hcan hin hpar hword)
      · exact congrArg Host.Outcome.next (issueOp_at_end hcan hend)
    obtain ⟨heng, e, hlog, hcode, hunit, hid, _⟩ := stopsWith_of_taken (illegalOp_taken i.core.lcid i.cyc _)
    exact ⟨_, hstops, heng, e, hlog, hcode, hunit, hid⟩
  · intro i s hcan hin hpar
    exact ⟨_, congrArg Host.Outcome.next (issueOp_parity hcan hin hpar),
      stopsWith_of_taken (takeFault_taken ⟨by show clVoid ≠ clHard; decide, by show (0x15 : Nat) ≠ 0x30; decide⟩ _)⟩

end Sys2Proof.Machine
end

section
/-! The report of a deadlock: the entry of a fault that fences nothing behind later ones, and what the judgement of a die
leaves (R105, R107, R108). -/

namespace Sys2Proof.Machine

/-! ### The entry of a fault among later ones (R303) -/

/-- Fewer than a lap of entries later, an entry stands where it was written. -/
theorem entry_kept {r : FaultRec} {b : Bool} {m : Nat} {s t : State} (h : LogTrail m (logEntry r b s) t) (hm : m < 1024) :
    smGet none t.flt.log (getF s R.FLT_LOG_HEAD.SEQ % 1024) = some (entryOf r b s) := by
  obtain ⟨d, hd, _, hkept⟩ := h
  rw [hkept _ fun i hi => ?_, logEntry_log]
  rw [seq_logEntry]
  omega

/-- What follows the entry of a fault that fences nothing. -/
theorem faultStep_takeFault {r : FaultRec} (hr : Unfencing r) (s : State) :
    FaultStep 4 (logEntry r (recurs r s) s) (takeFault r s) :=
  (faultStep_logFault r s).trans (faultStep_outcome hr (recurs r s) (getF s R.FLT_LOG_HEAD.SEQ) (logFault r s))

theorem flags_entryOf {r : FaultRec} (b : Bool) (s : State) (h : r.cls < 4) : (entryOf r b s).flags % 4 = r.cls := by
  show (r.cls + b2n (s.tick.replay == .running) * 4 + b2n b * 8 + b2n (!running s) * 16) % 4 = r.cls
  omega

/-! ### The judgement of a die (R108) -/

/-- The fields that the judgement of a die may write. -/
def wholeFlds (d : Nat) : List Fld := R.DIE_DEADLOCK_STA.WHOLE d :: (evFlds (E.DIE.DIE_DEADLOCK d) ++ logFlds)

theorem regsBut_judgeDie (d cyc : Nat) (s : State) : RegsBut (wholeFlds d) s (judgeDie d cyc s) := by
  unfold judgeDie
  split
  · split
    · exact .refl _ s
    · exact (regsBut_setB s true (by simp [wholeFlds])).trans
        ((regsBut_raise _ _ (by simp [wholeFlds])).trans ((regsBut_logOnly _ _ _ _ _ _).mono (by simp [wholeFlds])))
  · exact regsBut_setB s false (by simp [wholeFlds])

theorem changesOnly_judgeDie (d cyc : Nat) (s : State) : ChangesOnly [.regs, .out, .hif, .flt] s (judgeDie d cyc s) := by
  unfold judgeDie
  split
  · split
    · exact .refl _ s
    · exact ((changesOnly_setF s _ _).mono (by simp)).trans
        (((changesOnly_raise _ _).mono (by simp)).trans (changesOnly_logOnly _ _ _ _ _ _))
  · exact (changesOnly_setF s _ _).mono (by simp)

theorem raisedKept_judgeDie (d : DieNo) (cyc : Nat) (s : State) : RaisedKept s (judgeDie d.val cyc s) := by
  have hplace : ∀ d : DieNo, NotEvt (R.DIE_DEADLOCK_STA.WHOLE d.val) := by decide
  unfold judgeDie
  split
  · split
    · exact .refl s
    · exact (raisedKept_setB s true (hplace d)).trans ((raisedKept_raise _ _).trans (raisedKept_logOnly _ _ _ _ _ _))
  · exact raisedKept_setB s false (hplace d)

theorem getCore_judgeDie (d cyc : Nat) (s : State) (l : Nat) : getCore (judgeDie d cyc s) l = getCore s l := by
  unfold getCore
  rw [changesOnly_judgeDie d cyc s .cores (by decide)]

theorem wholeDie_judgeDie (d e cyc : Nat) (s : State) : wholeDie (judgeDie d cyc s) e = wholeDie s e := by
  unfold wholeDie
  rw [changesOnly_judgeDie d cyc s .cores (by decide)]

/-- WHOLE follows the condition. -/
theorem whole_judgeDie (d : DieNo) (cyc : Nat) (s : State) :
    getF (judgeDie d.val cyc s) (R.DIE_DEADLOCK_STA.WHOLE d.val) = if wholeDie (judgeDie d.val cyc s) d.val then 1 else 0 := by
  have hevt : ∀ d : DieNo, ∀ f ∈ evFlds (E.DIE.DIE_DEADLOCK d.val), fldKey f ≠ fldKey (R.DIE_DEADLOCK_STA.WHOLE d.val) := by
    decide
  have hlog : ∀ d : DieNo, fldKey (R.DIE_DEADLOCK_STA.WHOLE d.val) ∉ logFlds.map fldKey := by decide
  rw [wholeDie_judgeDie]
  unfold judgeDie
  by_cases hwhole : wholeDie s d.val = true
  · rw [if_pos hwhole, if_pos hwhole]
    split
    · next hflag => exact eq_of_beq hflag
    · rw [(regsBut_logOnly _ _ _ _ _ _).getF_eq (hlog d), getF_raise_other _ _ _ (hevt d)]
      exact getF_setB s _ true Nat.one_pos
  · rw [if_neg hwhole, if_neg hwhole]
    exact getF_setB s _ false Nat.one_pos

/-- Its rise is an event. -/
theorem raised_judgeDie {d : Nat} (cyc : Nat) {s : State} (hwhole : wholeDie s d = true)
    (h : getF s (R.DIE_DEADLOCK_STA.WHOLE d) = 0) : raised (E.DIE.DIE_DEADLOCK d) (judgeDie d cyc s) := by
  unfold judgeDie
  rw [if_pos hwhole, if_neg (by simp [flagF_of_eq_zero h])]
  exact raisedKept_logOnly _ _ _ _ _ _ _ (by show 2 < 16; decide) (raised_raise _ _ (by show 2 < 16; decide))

theorem logTrail_judgeDie (d : DieNo) (cyc : Nat) (s : State) : LogTrail 1 s (judgeDie d.val cyc s) := by
  have hapart : ∀ d : DieNo, fldKey (R.DIE_DEADLOCK_STA.WHOLE d.val) ≠ fldKey R.FLT_LOG_HEAD.SEQ ∧
      ∀ f ∈ evFlds (E.DIE.DIE_DEADLOCK d.val), fldKey f ≠ fldKey R.FLT_LOG_HEAD.SEQ := by decide
  have hset : ∀ b, LogTrail 0 s (setB s (R.DIE_DEADLOCK_STA.WHOLE d.val) b) := fun b =>
    .quiet rfl (getF_setB_other s _ _ b (hapart d).1)
  have hevt : ∀ u, LogTrail 0 u (raise (E.DIE.DIE_DEADLOCK d.val) u) := fun u =>
    .quiet (raise_flt _ u) (getF_raise_other _ u _ (hapart d).2)
  unfold judgeDie
  split
  · split
    · exact (LogTrail.quiet rfl rfl).mono (by decide)
    · exact ((hset true).trans (hevt _)).trans (logTrail_logEntry _ _ _)
  · exact (hset false).mono (by decide)

/-! ### The report of a core (R105, R107) -/

/-- The core reports. -/
def reporting (c : Core) : Core := { c with dead := true }

/-- The core's report, counted and raised. -/
def reported (c : CoreId) (s : State) : State :=
  raise (E.DIE.DEADLOCK c.die.val) (setF (updCore s c.lcid reporting) (R.DIE_DEADLOCK_STA.CORES c.die.val)
    (getF s (R.DIE_DEADLOCK_STA.CORES c.die.val) + 1))

/-- The fault of a core in deadlock: a plan fault by V of the tick, after it logged only. -/
def deadlockFault (c : CoreId) (cyc : Nat) (atV : Bool) (s : State) : FaultRec :=
  let ix := fun e => (getEng (getCore s c.lcid) e).idx % 2 ^ 11
  { coreFault (reported c s) c.lcid 0x14 (if atV then clLogged else clPlan) cyc
      (ix 0 + ix 1 * 2 ^ 11 + ix 2 * 2 ^ 22 + ix 3 * 2 ^ 33 + ix 4 * 2 ^ 44) with extra := ix 5 }

theorem changesOnly_reported (c : CoreId) (s : State) : ChangesOnly [.cores, .regs, .out, .hif] s (reported c s) :=
  ((changesOnly_updCore s _ _).mono (by simp)).trans
    (((changesOnly_setF _ _ _).mono (by simp)).trans ((changesOnly_raise _ _).mono (by simp)))

/-- The fields that a report may write beside those of the log. -/
def reportFlds (d : Nat) : List Fld := R.DIE_DEADLOCK_STA.CORES d :: evFlds (E.DIE.DEADLOCK d)

theorem regsBut_reported (c : CoreId) (s : State) : RegsBut (reportFlds c.die.val) s (reported c s) :=
  (RegsBut.of_regs (updCore_regs ..)).trans
    ((regsBut_setF _ _ (by simp [reportFlds])).trans (regsBut_raise _ _ (by simp [reportFlds])))

theorem getCore_reported (c : CoreId) (s : State) : getCore (reported c s) c.lcid = reporting (getCore s c.lcid) := by
  unfold getCore reported
  rw [raise_cores]
  exact getCore_updCore_same s _ _

theorem cores_reported (c : CoreId) (s : State) :
    getF (reported c s) (R.DIE_DEADLOCK_STA.CORES c.die.val) = (getF s (R.DIE_DEADLOCK_STA.CORES c.die.val) + 1) % 2 ^ 16 := by
  have hevt : ∀ d : DieNo, ∀ f ∈ evFlds (E.DIE.DEADLOCK d.val), fldKey f ≠ fldKey (R.DIE_DEADLOCK_STA.CORES d.val) := by decide
  unfold reported
  rw [getF_raise_other _ _ _ (hevt c.die), getF_setF]
  rfl

theorem unfencing_deadlockFault (c : CoreId) (cyc : Nat) (atV : Bool) (s : State) : Unfencing (deadlockFault c cyc atV s) := by
  refine ⟨?_, by show (0x14 : Nat) ≠ 0x30; decide⟩
  show (if atV then clLogged else clPlan) ≠ clHard
  cases atV <;> decide

/-- A core whose condition has held for the window reports, and its die is judged. -/
theorem deadlock_reports {c : CoreId} {cyc : Nat} {s : State} (hdead : (getCore s c.lcid).dead = false)
    (hrun : running s = true) (hstuck : stuck s c.lcid = true)
    (hwin : getF s (R.DIE_DEADLOCK_WIN.WIN c.die.val) ≤ deadCount s c.lcid cyc) :
    exec (.deadlock c cyc) s =
      .next (judgeDie c.die.val cyc (takeFault (deadlockFault c cyc s.tick.atV s) (reported c s))) := by
  have hatV : (reported c s).tick = s.tick := changesOnly_reported c s .tick (by decide)
  show execDeadlock c cyc s = _
  unfold execDeadlock
  dsimp only
  rw [if_neg (by simp [hdead, hrun, hstuck]; omega), ← hatV]
  rfl

theorem deadlock_waits {c : CoreId} {cyc : Nat} {s : State}
    (h : (getCore s c.lcid).dead = true ∨ running s = false ∨ (engModes (getCore s c.lcid)).all isBlocked = false ∨
      noInbound s c.lcid = false ∨ deadCount s c.lcid cyc < getF s (R.DIE_DEADLOCK_WIN.WIN c.die.val)) :
    exec (.deadlock c cyc) s = .next s := by
  have hguard : (getCore s c.lcid).dead = true ∨ running s = false ∨ stuck s c.lcid = false ∨
      deadCount s c.lcid cyc < getF s (R.DIE_DEADLOCK_WIN.WIN c.die.val) := by
    rcases h with h | h | h | h | h
    · exact .inl h
    · exact .inr (.inl h)
    · exact .inr (.inr (.inl (by unfold stuck; rw [h]; rfl)))
    · exact .inr (.inr (.inl (by unfold stuck; rw [h]; exact Bool.and_false _)))
    · exact .inr (.inr (.inr h))
  show execDeadlock c cyc s = _
  unfold execDeadlock
  refine congrArg Host.Outcome.next (if_pos ?_)
  rcases hguard with h | h | h | h <;> simp [h]

/-- What a report leaves: the core's flag, its count, its events, its entry and WHOLE. -/
theorem deadlock_leaves (c : CoreId) (cyc : Nat) (s : State) :
    let t := judgeDie c.die.val cyc (takeFault (deadlockFault c cyc s.tick.atV s) (reported c s))
    (getCore t c.lcid).dead = true ∧ raised (E.DIE.DEADLOCK c.die.val) t ∧
      getF t (R.DIE_DEADLOCK_STA.CORES c.die.val) = (getF s (R.DIE_DEADLOCK_STA.CORES c.die.val) + 1) % 2 ^ 16 ∧
      (∃ e, smGet none t.flt.log (getF s R.FLT_LOG_HEAD.SEQ % 1024) = some e ∧ e.code = 0x14 ∧ e.unitId = c.lcid ∧
        e.flags % 4 = if s.tick.atV then clLogged else clPlan) ∧
      getF t (R.DIE_DEADLOCK_STA.WHOLE c.die.val) = (if wholeDie t c.die.val then 1 else 0) ∧
      (wholeDie t c.die.val = true → getF s (R.DIE_DEADLOCK_STA.WHOLE c.die.val) = 0 →
        raised (E.DIE.DIE_DEADLOCK c.die.val) t) := by
  obtain ⟨r, hr⟩ : ∃ r, r = deadlockFault c cyc s.tick.atV s := ⟨_, rfl⟩
  have hunf : Unfencing r := hr ▸ unfencing_deadlockFault c cyc _ s
  have htaken := takeFault_taken hunf (reported c s)
  have hcounted : ∀ d : DieNo, fldKey (R.DIE_DEADLOCK_STA.CORES d.val) ∉ (wholeFlds d.val).map fldKey ∧
      fldKey (R.DIE_DEADLOCK_STA.CORES d.val) ∉ takenFlds.map fldKey := by decide
  have hwhole : ∀ d : DieNo, fldKey (R.DIE_DEADLOCK_STA.WHOLE d.val) ∉ takenFlds.map fldKey ∧
      fldKey (R.DIE_DEADLOCK_STA.WHOLE d.val) ∉ (reportFlds d.val).map fldKey := by decide
  have hseq : ∀ d : DieNo, fldKey R.FLT_LOG_HEAD.SEQ ∉ (reportFlds d.val).map fldKey := by decide
  have hevt : ∀ d : DieNo, fldKey (R.PG_EVT.EVT (E.DIE.DEADLOCK d.val).page) ∉ takenFlds.map fldKey := by decide
  dsimp only
  rw [← hr]
  refine ⟨?_, ?_, ?_, ⟨entryOf r (recurs r (reported c s)) (reported c s), ?_, ?_, ?_, ?_⟩, whole_judgeDie .., ?_⟩
  · rw [getCore_judgeDie, htaken.getCore_eq, getCore_reported]
    rfl
  · refine raisedKept_judgeDie c.die cyc _ _ (by show 1 < 16; decide) (htaken.raised_kept (hevt c.die) ?_)
    exact raised_raise _ _ (by show 1 < 16; decide)
  · rw [(regsBut_judgeDie _ _ _).getF_eq (hcounted c.die).1, htaken.regs.getF_eq (hcounted c.die).2, cores_reported]
  · rw [← (regsBut_reported c s).getF_eq (hseq c.die)]
    exact entry_kept ((faultStep_takeFault hunf _).leaves.log.trans (logTrail_judgeDie c.die cyc _)) (by decide)
  · rw [hr]; rfl
  · rw [hr]; rfl
  · have hcls : r.cls = if s.tick.atV then clLogged else clPlan := by rw [hr]; rfl
    rw [← hcls]
    exact flags_entryOf _ _ (by rw [hcls]; cases s.tick.atV <;> decide)
  · intro h h0
    rw [wholeDie_judgeDie] at h
    exact raised_judgeDie cyc h
      ((htaken.regs.getF_eq (hwhole c.die).1).trans (((regsBut_reported c s).getF_eq (hwhole c.die).2).trans h0))

end Sys2Proof.Machine
end

section
/-! What a vector instruction stores: its results in the registers or in the lines, and nothing beside them (R156, R164). -/

namespace Sys2Proof.Machine

/-! ### Numbers as bytes, and elements as one number (R126) -/

theorem getD_leBytes (m : Nat) : ∀ (n j : Nat), j < m → (leBytes m n).getD j 0 = BitVec.ofNat 8 (n / 256 ^ j) := by
  induction m with
  | zero => exact fun n j hj => absurd hj (Nat.not_lt_zero j)
  | succ m ih =>
    intro n j hj
    cases j with
    | zero => simp [leBytes]
    | succ j =>
      rw [leBytes, List.getD_cons_succ, ih _ _ (by omega), Nat.div_div_eq_div_mul, Nat.pow_succ, Nat.mul_comm 256]

theorem leNat_leBytes (m : Nat) : ∀ n : Nat, leNat (leBytes m n) = n % 256 ^ m := by
  induction m with
  | zero => exact fun n => (Nat.mod_one n).symm
  | succ m ih =>
    intro n
    rw [leBytes, leNat, ih, BitVec.toNat_ofNat, pow_succ' 256 m]
    exact (Nat.mod_mul (x := n) (a := 256) (b := 256 ^ m)).symm

/-- The number that elements of `w` bits spell. -/
def spelled (w : Nat) (es : List Nat) : Nat := es.foldr (fun e acc => acc * 2 ^ w + e % 2 ^ w) 0

theorem packElems_eq (w : Nat) (es : List Nat) : packElems w es = leBytes (ceilDiv (es.length * w) 8) (spelled w es) := rfl

theorem spelled_digit (w : Nat) (es : List Nat) :
    ∀ k, k < es.length → spelled w es / (2 ^ w) ^ k % 2 ^ w = es.getD k 0 % 2 ^ w := by
  induction es with
  | nil => exact fun k hk => absurd hk (Nat.not_lt_zero k)
  | cons e es ih =>
    have hcons : spelled w (e :: es) = spelled w es * 2 ^ w + e % 2 ^ w := rfl
    intro k hk
    cases k with
    | zero => rw [hcons, Nat.pow_zero, Nat.div_one, Nat.mul_add_mod_self_right, Nat.mod_mod, List.getD_cons_zero]
    | succ k =>
      have hdiv : spelled w (e :: es) / 2 ^ w = spelled w es := by
        rw [hcons, Nat.add_comm, Nat.add_mul_div_right _ _ (Nat.two_pow_pos w),
          Nat.div_eq_of_lt (Nat.mod_lt _ (Nat.two_pow_pos w)), Nat.zero_add]
      rw [Nat.pow_succ, Nat.mul_comm, ← Nat.div_div_eq_div_mul, hdiv, List.getD_cons_succ]
      exact ih k (by simpa using hk)

/-! ### Results in the lines -/

theorem length_packElems32 (es : List Nat) : (packElems 32 es).length = 4 * es.length := by
  rw [packElems_eq, length_leBytes]
  unfold ceilDiv
  omega

/-- Four bytes of the lines spell a result of 32 bits. -/
theorem lsRead_packElems32 {c : Core} {dst k : Nat} {es : List Nat} (hfit : 64 * dst + 4 * es.length ≤ lsBytes)
    (hk : k < es.length) :
    leNat (lsRead (lsWrite [] c (64 * dst) (packElems 32 es)) (64 * dst + 4 * k) 4) = es.getD k 0 % 2 ^ 32 := by
  have hread : lsRead (lsWrite [] c (64 * dst) (packElems 32 es)) (64 * dst + 4 * k)
      (leBytes 4 (spelled 32 es / 256 ^ (4 * k))).length = leBytes 4 (spelled 32 es / 256 ^ (4 * k)) := by
    refine lsRead_eq_of_bytes fun j hj => ?_
    rw [length_leBytes] at hj
    have hlen : ceilDiv (es.length * 32) 8 = 4 * es.length := by unfold ceilDiv; omega
    rw [lsByte_lsWrite, if_pos (by rw [length_packElems32]; omega), getD_leBytes _ _ _ hj, packElems_eq,
      getD_leBytes _ _ _ (by omega), Nat.div_div_eq_div_mul, ← Nat.pow_add]
    congr 3
    omega
  rw [length_leBytes] at hread
  rw [hread, leNat_leBytes, ← spelled_digit 32 es k hk, ← Nat.pow_mul, show 256 ^ (4 * k) = 2 ^ (32 * k) by
    rw [show 256 = 2 ^ 8 from rfl, ← Nat.pow_mul]; congr 1; omega]
  rfl

/-! ### Results in the registers -/

theorem vLane_setLane {c : Core} {r l r' l' : Nat} (v : Word) (hl : l < 16) (hl' : l' < 16) :
    vLane (setLane c r l v) r' l' = if r % 32 = r' % 32 ∧ l = l' then v else vLane c r' l' := by
  have hkey : 16 * (r % 32) + l = 16 * (r' % 32) + l' ↔ r % 32 = r' % 32 ∧ l = l' := by omega
  show smGet 0#32 (smSet 0#32 c.vreg (16 * (r % 32) + l) v) (16 * (r' % 32) + l') = _
  rw [smGet_smSet]
  exact if_congr hkey rfl rfl

/-- Results put in the lanes from a register on, sixteen a register. -/
def lanesSet (dst : Nat) (els : List Nat) (c : Core) : Core :=
  els.zipIdx.foldl (fun c e => setLane c (dst % 32 + e.2 / 16) (e.2 % 16) (BitVec.ofNat 32 e.1)) c

theorem lanesSet_snoc (dst : Nat) (els : List Nat) (a : Nat) (c : Core) :
    lanesSet dst (els ++ [a]) c =
      setLane (lanesSet dst els c) (dst % 32 + els.length / 16) (els.length % 16) (BitVec.ofNat 32 a) := by
  unfold lanesSet
  rw [List.zipIdx_append, List.foldl_append]
  simp

theorem vLane_lanesSet (dst : Nat) (c : Core) (els : List Nat) (hn : els.length ≤ 512) :
    (∀ k, k < els.length → vLane (lanesSet dst els c) (dst % 32 + k / 16) (k % 16) = BitVec.ofNat 32 (els.getD k 0)) ∧
      ∀ r l, r < 32 → l < 16 → (∀ k, k < els.length → r ≠ (dst % 32 + k / 16) % 32 ∨ l ≠ k % 16) →
        vLane (lanesSet dst els c) r l = vLane c r l := by
  induction els using List.reverseRecOn with
  | nil => exact ⟨fun k hk => absurd hk (Nat.not_lt_zero k), fun _ _ _ _ _ => rfl⟩
  | append_singleton els a ih =>
    have hlen : (els ++ [a]).length = els.length + 1 := by simp
    obtain ⟨hset, hkeep⟩ := ih (by omega)
    refine ⟨fun k hk => ?_, fun r l hr hl hne => ?_⟩
    · rw [lanesSet_snoc, vLane_setLane _ (Nat.mod_lt _ (by decide)) (Nat.mod_lt _ (by decide))]
      by_cases hlast : k = els.length
      · rw [if_pos (by rw [hlast]; exact ⟨rfl, rfl⟩), hlast]
        simp
      · rw [if_neg (by omega), hset k (by omega), List.getD_append _ _ _ _ (by omega)]
    · have hlast := hne els.length (by omega)
      rw [lanesSet_snoc, vLane_setLane _ (Nat.mod_lt _ (by decide)) hl, if_neg (by omega)]
      exact hkeep r l hr hl fun k hk => hne k (by omega)

/-! ### The results of an instruction -/

/-- The cores differ in the vector registers, the local store and what follows its writes alone. -/
def VecOnly (c d : Core) : Prop := d = { c with ls := d.ls, fresh := d.fresh, sig := d.sig, vreg := d.vreg }

theorem VecOnly.trans {c d e : Core} (h : VecOnly c d) (h' : VecOnly d e) : VecOnly c e := by
  unfold VecOnly at *
  rw [h']
  dsimp only
  rw [h]

theorem vecOnly_lanesSet (dst : Nat) (els : List Nat) (c : Core) : VecOnly c (lanesSet dst els c) := by
  unfold lanesSet
  generalize els.zipIdx = l
  induction l generalizing c with
  | nil => rfl
  | cons e l ih => exact VecOnly.trans (d := setLane c (dst % 32 + e.2 / 16) (e.2 % 16) (BitVec.ofNat 32 e.1)) rfl (ih _)

theorem ls_lanesSet (dst : Nat) (els : List Nat) (c : Core) : (lanesSet dst els c).ls = c.ls := by
  unfold lanesSet
  generalize els.zipIdx = l
  induction l generalizing c with
  | nil => rfl
  | cons e l ih => exact ih _

theorem StoreOnly.vecOnly {c d : Core} (h : StoreOnly c d) : VecOnly c d := by
  unfold StoreOnly VecOnly at *
  rw [h]

theorem StoreOnly.vreg {c d : Core} (h : StoreOnly c d) : d.vreg = c.vreg := by
  unfold StoreOnly at h
  rw [h]

theorem vOut_registers {w : Nat} (h : fVDr w = true) (lost : List Nat) (n dst : Nat) (els : List Nat) (c : Core) :
    vOut lost w n dst els c = lanesSet dst els c := if_pos h

theorem vOut_lines {w : Nat} (h : fVDr w = false) (lost : List Nat) (n dst : Nat) (els : List Nat) (c : Core) :
    vOut lost w n dst els c = lsWrite lost c (64 * dst) (packElems n els) := if_neg (by simp [h])

theorem vecOnly_vOut (lost : List Nat) (w n dst : Nat) (els : List Nat) (c : Core) : VecOnly c (vOut lost w n dst els c) := by
  cases h : fVDr w with
  | true => rw [vOut_registers h]; exact vecOnly_lanesSet dst els c
  | false => rw [vOut_lines h]; exact (storeOnly_lsWrite _ _ _ _).vecOnly

/-- What a result reads of its core. -/
theorem vResult_congr {c d : Core} (hls : d.ls = c.ls) (hv : d.vreg = c.vreg) (w k : Nat) : vResult d w k = vResult c w k := by
  unfold vResult vLane lsRead
  rw [hls, hv]

theorem VecWrote.congr {w dst n b : Nat} {c c' d d' : Core} (h : VecWrote w dst n b c d) (hc : c'.ls = c.ls ∧ c'.vreg = c.vreg)
    (hd : d'.ls = d.ls ∧ d'.vreg = d.vreg) : VecWrote w dst n b c' d' := by
  obtain ⟨hcl, hcv⟩ := hc
  obtain ⟨hdl, hdv⟩ := hd
  unfold VecWrote vLane lsByte at h ⊢
  rw [hcl, hcv, hdl, hdv]
  exact h

/-- The results of 32 bits, each in its place. -/
theorem vResult_vOut {w n : Nat} {f : Nat → Word} (c : Core) (hfit : vFits w n 4) {k : Nat} (hk : k < n) :
    vResult (vOut [] w 32 (fVDst w) ((List.range n).map fun j => (f j).toNat) c) w k = f k := by
  obtain ⟨els, hels⟩ : ∃ els, els = (List.range n).map fun j => (f j).toNat := ⟨_, rfl⟩
  have hlen : els.length = n := by rw [hels]; simp
  have hget : els.getD k 0 = (f k).toNat := by rw [hels]; simp [hk]
  rw [← hels]
  unfold vFits at hfit
  unfold vResult
  cases h : fVDr w with
  | true =>
    rw [if_pos h] at hfit
    rw [if_pos rfl, vOut_registers h, (vLane_lanesSet _ _ _ (by omega)).1 k (by omega), hget]
    simp
  | false =>
    rw [if_neg (by simp [h])] at hfit
    rw [if_neg (by simp), vOut_lines h, lsRead_packElems32 (by omega) (by omega), hget,
      Nat.mod_eq_of_lt (f k).isLt, BitVec.ofNat_toNat, BitVec.setWidth_eq]

theorem vecWrote_vOut {w n : Nat} {f : Nat → Word} (c : Core) (hfit : vFits w n 4) :
    VecWrote w (fVDst w) n (4 * n) c (vOut [] w 32 (fVDst w) ((List.range n).map fun j => (f j).toNat) c) := by
  obtain ⟨els, hels⟩ : ∃ els, els = (List.range n).map fun j => (f j).toNat := ⟨_, rfl⟩
  have hlen : els.length = n := by rw [hels]; simp
  rw [← hels]
  unfold vFits at hfit
  unfold VecWrote
  cases h : fVDr w with
  | true =>
    rw [if_pos h] at hfit
    rw [if_pos rfl, vOut_registers h]
    refine ⟨ls_lanesSet _ _ c, fun r l hr hl hne => ?_⟩
    exact (vLane_lanesSet (fVDst w) c els (by omega)).2 r l hr hl fun k hk => hne k (by omega)
  | false =>
    rw [if_neg (by simp), vOut_lines h]
    refine ⟨(storeOnly_lsWrite _ _ _ _).vreg, fun a ha => ?_⟩
    rw [lsByte_lsWrite, if_neg (by rw [length_packElems32]; omega)]

/-! ### An instruction whose accesses meet nothing -/

/-- Its core is written, its engine held for its cycles, and it completes behind them. -/
theorem vecOp_nil {i : Issue} {w x rate lat : Nat} {f : (Nat → Byte) → List Nat → Core → Core} {s : State} (h : i.acc = []) :
    vecOp i w x rate lat f s = vTime i w (fVCnt w + 1) rate lat
      (onCore i (f (lsView s (getCore s i.core.lcid) []) []) s) := by
  have hlost : lostLines i.acc = [] := by rw [h]; rfl
  have hdisp : displaced i s = false := by unfold displaced; rw [h]; exact Bool.and_false _
  unfold vecOp orStall
  rw [if_neg (by simp [hdisp]), chargeAcc_nil h]
  dsimp only
  rw [hlost]
  rfl

end Sys2Proof.Machine
end

section
/-! Instructions and weight feeders that go on when their displaced accesses are made, gating, and O27
(R105, R107, R108, R151, R152, R333). -/

namespace Sys2Proof.Machine

/-! ### What goes on (R85, R152) -/

/-- The core with the descriptors of a held instruction in force. -/
def descsHeld (h : Held) (cyc : Nat) (c : Core) : Core :=
  { c with desc := smSetList 0 [] 0 h.descs, descNew := [], descCyc := cyc }

/-- The core with its own descriptors again, those of `c0`. -/
def descsBack (c0 c : Core) : Core :=
  { c with desc := c0.desc, descNew := c0.descNew, descCyc := c0.descCyc, descBad := c0.descBad, descWhen := c0.descWhen }

/-- What the change of descriptors leaves as it was. -/
theorem descsHeld_keeps (h : Held) (cyc : Nat) (c : Core) :
    (descsHeld h cyc c).engs = c.engs ∧ (descsHeld h cyc c).outst = c.outst ∧ (descsHeld h cyc c).dead = c.dead ∧
      (descsHeld h cyc c).ls = c.ls ∧ (descsHeld h cyc c).vreg = c.vreg := ⟨rfl, rfl, rfl, rfl, rfl⟩

theorem descsBack_keeps (c0 c : Core) :
    (descsBack c0 c).engs = c.engs ∧ (descsBack c0 c).outst = c.outst ∧ (descsBack c0 c).dead = c.dead ∧
      (descsBack c0 c).ls = c.ls ∧ (descsBack c0 c).vreg = c.vreg := ⟨rfl, rfl, rfl, rfl, rfl⟩

theorem resumeHeld_eq (h : Held) (cyc : Nat) (eff : Issue → State → State) (s : State) :
    resumeHeld h cyc eff s = updCore (eff (resumedIssue h cyc) (updCore s h.issue.core.lcid (descsHeld h cyc)))
      h.issue.core.lcid (descsBack (getCore s h.issue.core.lcid)) := rfl

/-- Where all its accesses were displaced, the instruction goes on with none that meets anything. -/
theorem acc_resumedIssue {h : Held} (cyc : Nat) (hacc : ∀ a ∈ h.issue.acc, a.kind = .pending) :
    (resumedIssue h cyc).acc = [] :=
  List.filter_eq_nil_iff.mpr fun a ha => by simp [hacc a ha]

theorem rdDesc_descsHeld (h : Held) (cyc d : Nat) (c : Core) : rdDesc (descsHeld h cyc c) cyc d = h.descs.getD d 0 := by
  unfold rdDesc
  rw [if_neg (show ¬ (descsHeld h cyc c).descCyc < cyc from Nat.lt_irrefl cyc)]
  show smGet 0 (smSetList 0 [] 0 h.descs) d = _
  rw [smGet_smSetList]
  split
  · rfl
  · next hout => rw [List.getD_eq_default _ _ (by omega)]; rfl

/-! ### A vector instruction that goes on -/

/-- The engine runs again and is free from a cycle on. -/
def engFreed (e free : Nat) (c : Core) : Core := updEng c e fun g => { g with mode := .running, free := free }

/-- The engine is free from a cycle on. -/
def engHeldTo (e free : Nat) (c : Core) : Core := updEng c e fun g => { g with free := free }

theorem engFreed_keeps (e free : Nat) (c : Core) :
    (engFreed e free c).outst = c.outst ∧ (engFreed e free c).dead = c.dead ∧ (engFreed e free c).ls = c.ls ∧
      (engFreed e free c).vreg = c.vreg := ⟨rfl, rfl, rfl, rfl⟩

/-- The core whose engine a vector instruction holds `n` cycles, and in which it completes. -/
def busied (i : Issue) (w n due : Nat) (c : Core) : Core := completing i w due (engHeldTo i.eng.no (i.cyc + n) c)

theorem busied_keeps (i : Issue) (w n due : Nat) (c : Core) :
    (busied i w n due c).outst = c.outst ++ [doneAt i w due] ∧ (busied i w n due c).dead = c.dead ∧
      (busied i w n due c).ls = c.ls ∧ (busied i w n due c).vreg = c.vreg := ⟨rfl, rfl, rfl, rfl⟩

theorem getEng_busied (i : Issue) (w n due : Nat) (c : Core) :
    getEng (busied i w n due c) i.eng.no = { getEng c i.eng.no with free := i.cyc + n } := by
  unfold busied
  rw [getEng_of_engs (engs_completing ..), engHeldTo, getEng_updEng_same]

theorem coreStep_vTime (i : Issue) (w n rate lat : Nat) (s : State) :
    CoreStep i.core.lcid (busied i w (ceilDiv n rate) (i.cyc + ceilDiv n rate - 1 + lat)) s (vTime i w n rate lat s) :=
  (coreStep_updCore _ _ s).trans (coreStep_updCore _ _ _)

/-- The results of a VOP. -/
def vopVals (rd : Nat → Byte) (w x : Nat) (c : Core) (k : Nat) : Word :=
  vopFn (fVFn w) (vInF rd c w k) (vB c x k) (vC c x k)

/-- The core with the results of a VOP. -/
def vopOut (w x : Nat) (rd : Nat → Byte) (c : Core) : Core :=
  vOut [] w 32 (fVDst w) ((vIdx w).map fun k => (vopVals rd w x c k).toNat) c

theorem vopVals_congr {c d : Core} (h : d.vreg = c.vreg) (rd : Nat → Byte) (w x k : Nat) :
    vopVals rd w x d k = vopVals rd w x c k := by
  unfold vopVals vInF vIn vB vC vLane
  rw [h]

theorem VecOnly.keeps {c d : Core} (h : VecOnly c d) : d.engs = c.engs ∧ d.outst = c.outst ∧ d.dead = c.dead := by
  unfold VecOnly at h
  rw [h]
  exact ⟨rfl, rfl, rfl⟩

theorem vopOut_leaves {w x : Nat} {rd : Nat → Byte} (c : Core) (hfit : vFits w (fVCnt w + 1) 4) :
    (vopOut w x rd c).engs = c.engs ∧ (vopOut w x rd c).outst = c.outst ∧ (vopOut w x rd c).dead = c.dead ∧
      (∀ k, k ≤ fVCnt w → vResult (vopOut w x rd c) w k = vopVals rd w x c k) ∧
      VecWrote w (fVDst w) (fVCnt w + 1) (4 * (fVCnt w + 1)) c (vopOut w x rd c) := by
  obtain ⟨hengs, houtst, hdead⟩ :=
    (vecOnly_vOut [] w 32 (fVDst w) ((vIdx w).map fun k => (vopVals rd w x c k).toNat) c).keeps
  exact ⟨hengs, houtst, hdead, fun k hk => vResult_vOut c hfit (Nat.lt_succ_of_le hk), vecWrote_vOut c hfit⟩

/-- The cycles that a VOP holds its engine (Table 5.7). -/
def vopHold (w : Nat) : Nat := ceilDiv (fVCnt w + 1) 16

theorem coreStep_vopEff {i : Issue} (w x : Nat) (s : State) (h : i.acc = []) :
    CoreStep i.core.lcid
      (busied i w (vopHold w) (i.cyc + vopHold w - 1 + 4) ∘ vopOut w x (lsView s (getCore s i.core.lcid) [])) s
      (vopEff i w x s) := by
  have hout := coreStep_updCore i.core.lcid (vopOut w x (lsView s (getCore s i.core.lcid) [])) s
  have heff : vopEff i w x s = vTime i w (fVCnt w + 1) 16 4
      (updCore s i.core.lcid (vopOut w x (lsView s (getCore s i.core.lcid) []))) := by
    unfold vopEff
    rw [vecOp_nil h]
    rfl
  rw [heff]
  exact hout.trans (coreStep_vTime i w (fVCnt w + 1) 16 4 _)

/-- The core behind a VOP that goes on. -/
def vopResumed (h : Held) (cyc : Nat) (rd : Nat → Byte) (c : Core) : Core :=
  descsBack (engFreed h.issue.eng.no (cyc + 1) c)
    (busied (resumedIssue h cyc) h.w (vopHold h.w) (cyc + vopHold h.w - 1 + 4)
      (vopOut h.w h.x rd (descsHeld h cyc (engFreed h.issue.eng.no (cyc + 1) c))))

theorem heldOp_vop {w : Nat} (hop : wOp w = opVop) (i : Issue) (x first : Nat) (s : State) :
    heldOp i w x first s = vopEff i w x s := by
  unfold heldOp
  rw [hop]
  rfl

theorem lsView_updCore (s : State) (l : Nat) (f : Core → Core) (c : Core) (lost : List Nat) :
    lsView (updCore s l f) c lost = lsView s c lost := rfl

/-- What the core reads of its store while the instruction goes on is what it read before. -/
theorem lsView_descsHeld (h : Held) (cyc : Nat) (s : State) (e : Nat) (c : Core) :
    lsView s (descsHeld h cyc (engFreed e (cyc + 1) c)) [] = lsView s c [] := rfl

theorem coreStep_resumeVop {h : Held} {cyc : Nat} {s : State} (hop : wOp h.w = opVop)
    (hacc : ∀ a ∈ h.issue.acc, a.kind = .pending) :
    CoreStep h.issue.core.lcid (vopResumed h cyc (lsView s (getCore s h.issue.core.lcid) [])) s
      (resumeHeld h cyc (fun i s => heldOp i h.w h.x h.first s)
        (updCore s h.issue.core.lcid (engFreed h.issue.eng.no (cyc + 1)))) := by
  obtain ⟨u, hu⟩ : ∃ u, u = updCore s h.issue.core.lcid (engFreed h.issue.eng.no (cyc + 1)) := ⟨_, rfl⟩
  have hfree : CoreStep h.issue.core.lcid (engFreed h.issue.eng.no (cyc + 1)) s u := hu ▸ coreStep_updCore ..
  have hdesc := coreStep_updCore h.issue.core.lcid (descsHeld h cyc) u
  have hrd : lsView (updCore u h.issue.core.lcid (descsHeld h cyc))
      (getCore (updCore u h.issue.core.lcid (descsHeld h cyc)) (resumedIssue h cyc).core.lcid) [] =
      lsView s (getCore s h.issue.core.lcid) [] := by
    show lsView _ (getCore _ h.issue.core.lcid) [] = _
    rw [hdesc.core, hfree.core, lsView_updCore, hu, lsView_updCore, lsView_descsHeld]
  have hvop := coreStep_vopEff (i := resumedIssue h cyc) h.w h.x (updCore u h.issue.core.lcid (descsHeld h cyc))
    (acc_resumedIssue cyc hacc)
  rw [hrd] at hvop
  have hstep := ((hfree.trans hdesc).trans hvop).trans
    (coreStep_updCore h.issue.core.lcid (descsBack (getCore u h.issue.core.lcid)) _)
  rw [← hu, resumeHeld_eq, heldOp_vop hop]
  refine ⟨hstep.core.trans ?_, hstep.others, hstep.parts⟩
  rw [hfree.core]
  rfl

theorem vopResumed_leaves {h : Held} {cyc : Nat} {rd : Nat → Byte} (c : Core) (hfit : vFits h.w (fVCnt h.w + 1) 4) :
    getEng (vopResumed h cyc rd c) h.issue.eng.no =
        { mode := .running, idx := (getEng c h.issue.eng.no).idx, free := cyc + vopHold h.w } ∧
      (vopResumed h cyc rd c).outst = c.outst ++ [doneAt h.issue h.w (cyc + vopHold h.w - 1 + 4)] ∧
      (vopResumed h cyc rd c).dead = c.dead ∧
      (∀ k, k ≤ fVCnt h.w → vResult (vopResumed h cyc rd c) h.w k = vopVals rd h.w h.x c k) ∧
      VecWrote h.w (fVDst h.w) (fVCnt h.w + 1) (4 * (fVCnt h.w + 1)) c (vopResumed h cyc rd c) := by
  obtain ⟨f, hf⟩ : ∃ f, f = engFreed h.issue.eng.no (cyc + 1) c := ⟨_, rfl⟩
  obtain ⟨d, hd⟩ : ∃ d, d = descsHeld h cyc f := ⟨_, rfl⟩
  obtain ⟨v, hv⟩ : ∃ v, v = vopOut h.w h.x rd d := ⟨_, rfl⟩
  obtain ⟨b, hb⟩ : ∃ b, b = busied (resumedIssue h cyc) h.w (vopHold h.w) (cyc + vopHold h.w - 1 + 4) v := ⟨_, rfl⟩
  obtain ⟨hfout, hfdead, hfls, hfv⟩ := hf ▸ engFreed_keeps h.issue.eng.no (cyc + 1) c
  obtain ⟨hdengs, hdout, hddead, hdls, hdv⟩ := hd ▸ descsHeld_keeps h cyc f
  obtain ⟨hvengs, hvout, hvdead, hvres, hvwrote⟩ := hv ▸ vopOut_leaves (x := h.x) (rd := rd) d hfit
  obtain ⟨hbout, hbdead, hbls, hbv⟩ :=
    hb ▸ busied_keeps (resumedIssue h cyc) h.w (vopHold h.w) (cyc + vopHold h.w - 1 + 4) v
  obtain ⟨hengs, hout, hdead, hls, hvreg⟩ := descsBack_keeps f b
  have heq : vopResumed h cyc rd c = descsBack f b := by rw [hb, hv, hd, hf]; rfl
  have hbeng : getEng b h.issue.eng.no = { getEng v h.issue.eng.no with free := cyc + vopHold h.w } :=
    hb ▸ getEng_busied (resumedIssue h cyc) h.w (vopHold h.w) (cyc + vopHold h.w - 1 + 4) v
  have hfeng : getEng f h.issue.eng.no = { getEng c h.issue.eng.no with mode := .running, free := cyc + 1 } := by
    rw [hf]; exact getEng_updEng_same ..
  rw [heq]
  refine ⟨?_, ?_, ?_, fun k hk => ?_, ?_⟩
  · rw [getEng_of_engs hengs, hbeng, getEng_of_engs hvengs, getEng_of_engs hdengs, hfeng]
  · rw [hout, hbout, hvout, hdout, hfout]
    rfl
  · rw [hdead, hbdead, hvdead, hddead, hfdead]
  · rw [vResult_congr (hls.trans hbls) (hvreg.trans hbv), hvres k hk, vopVals_congr (hdv.trans hfv)]
  · exact hvwrote.congr ⟨(hdls.trans hfls).symm, (hdv.trans hfv).symm⟩ ⟨hls.trans hbls, hvreg.trans hbv⟩

/-! ### A weight feeder that delivers (R144, R151) -/

theorem loadSet_says (rd : Nat → Byte) (lost : List Nat) (d w full : Nat) :
    (loadSet rd lost d w full).desc = d ∧ (loadSet rd lost d w full).kext = fLdwK w + 1 ∧
      (loadSet rd lost d w full).full = some full := by
  unfold loadSet
  generalize (List.range (fLdwN w + 1)).flatMap (fun col => (List.range (fLdwK w + 1)).map fun k => (col, k)) = cells
  refine List.foldlRecOn cells _ (motive := fun v : WSet => v.desc = d ∧ v.kext = fLdwK w + 1 ∧ v.full = some full)
    ⟨rfl, rfl, rfl⟩ fun v hv e _ => ?_
  dsimp only
  by_cases hlost : elemLost lost d (64 * if e.2 < 32 then fLdwB w else fLdwB2 w) (8 * fLdwF w + e.1) (e.2 % 32) = true
  · rw [if_pos hlost]; exact hv
  · rw [if_neg hlost]; exact hv

theorem shSet_setSh {n : Nat} (v : WSet) (c : Core) : shSet (setSh n v c) n = v := by
  unfold shSet setSh
  split
  · rfl
  · rfl

theorem setSh_keeps (n : Nat) (v : WSet) (c : Core) :
    (setSh n v c).engs = c.engs ∧ (setSh n v c).heldLdw = c.heldLdw := by
  unfold setSh
  split <;> exact ⟨rfl, rfl⟩

theorem getCore_usedOver (b : Bool) (s : State) (l : Nat) : getCore (usedOver b s) l = getCore s l := by
  unfold usedOver usedFree
  split <;> rfl

/-- A delivery without a loss or a fault: the set of the engine's array, and the LDW that completes. -/
theorem getCore_ldwLoad {i : Issue} {w : Nat} {s : State} (hacc : i.acc = [])
    (hp : (getCore s i.core.lcid).paired = false) :
    ∃ v, v.desc = issueDesc i s (fLdwD w) ∧ v.kext = fLdwK w + 1 ∧
      v.full = some (i.cyc + loadCycles (issueDesc i s (fLdwD w)) w + 1) ∧
      getCore (ldwLoad i w s) i.core.lcid =
        completing i w (i.cyc + loadCycles (issueDesc i s (fLdwD w)) w) (setSh (arrNo i) v (getCore s i.core.lcid)) := by
  obtain ⟨hd, hk, hf⟩ := loadSet_says (lsView s (getCore s i.core.lcid) []) (feederLost s i.acc)
    (issueDesc i s (fLdwD w)) w (i.cyc + loadCycles (issueDesc i s (fLdwD w)) w + 1)
  refine ⟨_, hd, hk, hf, ?_⟩
  unfold ldwLoad
  rw [chargeAcc_nil hacc, getCore_usedOver]
  refine (coreStep_completes i w _ _).core.trans (congrArg (completing i w _) ?_)
  refine (getCore_updCore_same s i.core.lcid _).trans ?_
  rw [if_neg (by simp [hp])]

/-- The array's LDW is held no more. -/
def ldwFreed (n : Nat) (c : Core) : Core := { c with heldLdw := smSet none c.heldLdw n none }

theorem arrNo_of_array {i : Issue} (h : i.eng.no < 2) : arrNo i = i.eng.no := by
  unfold arrNo
  cases hi : i.eng <;> rw [hi] at h
  · rfl
  · rfl
  all_goals exact absurd h (by decide)

/-- What the delivery of a held set leaves of its core. -/
theorem resumeLoad_leaves {h : Held} {cyc : Nat} {s : State} (harr : h.issue.eng.no < 2)
    (hp : (getCore s h.issue.core.lcid).paired = false) (hacc : ∀ a ∈ h.issue.acc, a.kind = .pending) :
    let t := resumeLoad h.issue.eng.no h cyc s
    let d := h.descs.getD (fLdwD h.w) 0
    (shSet (getCore t h.issue.core.lcid) h.issue.eng.no).desc = d ∧
      (shSet (getCore t h.issue.core.lcid) h.issue.eng.no).kext = fLdwK h.w + 1 ∧
      (shSet (getCore t h.issue.core.lcid) h.issue.eng.no).full = some (cyc + loadCycles d h.w + 1) ∧
      smGet none (getCore t h.issue.core.lcid).heldLdw h.issue.eng.no = none ∧
      getEng (getCore t h.issue.core.lcid) h.issue.eng.no = getEng (getCore s h.issue.core.lcid) h.issue.eng.no := by
  obtain ⟨n, hn⟩ : ∃ n, n = h.issue.eng.no := ⟨_, rfl⟩
  obtain ⟨l, hl⟩ : ∃ l, l = h.issue.core.lcid := ⟨_, rfl⟩
  obtain ⟨u, hu⟩ : ∃ u, u = updCore (updCore s l (ldwFreed n)) l (descsHeld h cyc) := ⟨_, rfl⟩
  obtain ⟨i, hi⟩ : ∃ i, i = resumedIssue h cyc := ⟨_, rfl⟩
  have hil : i.core.lcid = l := by rw [hi, hl]; rfl
  have hin : arrNo i = n := by rw [hn, hi]; exact arrNo_of_array (i := resumedIssue h cyc) harr
  have hcore : getCore u l = descsHeld h cyc (ldwFreed n (getCore s l)) := by
    rw [hu, getCore_updCore_same, getCore_updCore_same]
  have hdesc : issueDesc i u (fLdwD h.w) = h.descs.getD (fLdwD h.w) 0 := by
    unfold issueDesc
    rw [hil, hcore, hi]
    exact rdDesc_descsHeld h cyc _ _
  obtain ⟨v, hvd, hvk, hvf, hload⟩ := getCore_ldwLoad (i := i) (w := h.w) (s := u) (by rw [hi]; exact acc_resumedIssue cyc hacc)
    (by rw [hil, hcore]; rw [← hl] at hp; exact hp)
  rw [hdesc] at hvd hvf hload
  rw [hil, hcore, hin] at hload
  obtain ⟨c1, hc1⟩ : ∃ c1, c1 = setSh n v (descsHeld h cyc (ldwFreed n (getCore s l))) := ⟨_, rfl⟩
  obtain ⟨hengs, hheld⟩ := hc1 ▸ setSh_keeps n v (descsHeld h cyc (ldwFreed n (getCore s l)))
  have hset : shSet c1 n = v := hc1 ▸ shSet_setSh v _
  obtain ⟨c0, hc0⟩ : ∃ c0, getCore (resumeLoad n h cyc s) l =
      descsBack c0 (completing i h.w (i.cyc + loadCycles (h.descs.getD (fLdwD h.w) 0) h.w) c1) := by
    refine ⟨getCore (updCore s l (ldwFreed n)) l, ?_⟩
    rw [hc1, ← hload, hl, hi, hu, hl]
    exact getCore_updCore_same _ _ _
  dsimp only
  rw [← hl, ← hn, hc0]
  refine ⟨?_, ?_, ?_, ?_, ?_⟩
  · exact (congrArg WSet.desc hset).trans hvd
  · exact (congrArg WSet.kext hset).trans hvk
  · refine (congrArg WSet.full hset).trans (hvf.trans ?_)
    rw [hi]; rfl
  · refine (congrArg (smGet none · n) hheld).trans ?_
    show smGet none (smSet none (getCore s l).heldLdw n none) n = none
    rw [smGet_smSet, if_pos rfl]
  · exact getEng_of_engs hengs n

/-- A VOP held by its pending lines goes on when they have been written. -/
theorem feederResume_vop {cyc : Nat} {g : Held} {s : State} (hopen : issueOpen s = true)
    (hcore : coreOpen (getCore s g.issue.core.lcid) = true)
    (hmode : (getEng (getCore s g.issue.core.lcid) g.issue.eng.no).mode = .stalled g) (hmay : mayResume s g cyc = true)
    (hacc : ∀ a ∈ g.issue.acc, a.kind = .pending) (hdead : (getCore s g.issue.core.lcid).dead = false)
    (hop : wOp g.w = opVop) (hfit : vFits g.w (fVCnt g.w + 1) 4) :
    Answers (.feederResume g.issue.core g.issue.eng false cyc) s fun t =>
      getEng (getCore t g.issue.core.lcid) g.issue.eng.no =
        { mode := .running, idx := (getEng (getCore s g.issue.core.lcid) g.issue.eng.no).idx, free := cyc + vopHold g.w } ∧
      (getCore t g.issue.core.lcid).outst =
        (getCore s g.issue.core.lcid).outst ++ [doneAt g.issue g.w (cyc + vopHold g.w - 1 + 4)] ∧
      (∀ k, k ≤ fVCnt g.w → vResult (getCore t g.issue.core.lcid) g.w k =
        vopVals (lsView s (getCore s g.issue.core.lcid) []) g.w g.x (getCore s g.issue.core.lcid) k) ∧
      VecWrote g.w (fVDst g.w) (fVCnt g.w + 1) (4 * (fVCnt g.w + 1)) (getCore s g.issue.core.lcid)
        (getCore t g.issue.core.lcid) ∧ ChangesOnly [.cores] s t := by
  have hstep := coreStep_resumeVop (cyc := cyc) (s := s) hop hacc
  obtain ⟨heng, houtst, hdead', hres, hwrote⟩ := vopResumed_leaves (h := g) (cyc := cyc)
    (rd := lsView s (getCore s g.issue.core.lcid) []) (getCore s g.issue.core.lcid) hfit
  have hexec : exec (.feederResume g.issue.core g.issue.eng false cyc) s =
      .next (resumeEngine g.issue.core g.issue.eng g cyc s) := by
    show execFeederResume _ _ _ _ s = _
    unfold execFeederResume
    dsimp only
    rw [if_neg (by simp [hopen, hcore]), if_neg (by simp), hmode]
    exact congrArg Host.Outcome.next (if_pos hmay)
  have hlapse : resumeEngine g.issue.core g.issue.eng g cyc s =
      resumeHeld g cyc (fun i s => heldOp i g.w g.x g.first s)
        (updCore s g.issue.core.lcid (engFreed g.issue.eng.no (cyc + 1))) := by
    exact lapse_of_not_dead ((congrArg Core.dead hstep.core).trans (hdead'.trans hdead))
  rw [← hstep.core] at heng houtst hres hwrote
  rw [hlapse] at hexec
  exact ⟨_, hexec, heng, houtst, hres, hwrote, hstep.parts⟩

theorem feederResume_load {cyc : Nat} {g : Held} {s : State} (hopen : issueOpen s = true)
    (hcore : coreOpen (getCore s g.issue.core.lcid) = true)
    (hheld : smGet none (getCore s g.issue.core.lcid).heldLdw g.issue.eng.no = some g) (hmay : mayResume s g cyc = true) :
    exec (.feederResume g.issue.core g.issue.eng true cyc) s = .next (resumeLoad g.issue.eng.no g cyc s) := by
  show execFeederResume _ _ _ _ s = _
  unfold execFeederResume
  dsimp only
  rw [if_neg (by simp [hopen, hcore]), if_pos rfl, hheld]
  exact congrArg Host.Outcome.next (if_pos hmay)

theorem feederResume_waits {c : CoreId} {e : Engine} {cyc : Nat} {g : Held} {s : State}
    (hmode : (getEng (getCore s c.lcid) e.no).mode = .stalled g) (hmay : mayResume s g cyc = false) :
    exec (.feederResume c e false cyc) s = .next s := by
  show execFeederResume _ _ _ _ s = _
  unfold execFeederResume
  dsimp only
  rw [if_neg (show ¬ false = true by simp), hmode]
  dsimp only
  rw [if_neg (show ¬ mayResume s g cyc = true by simp [hmay]), ite_self]

/-! ### O27 -/

/-- Settles O27: the report by `deadlock_leaves`, what goes on by `vopResumed_leaves` and `resumeLoad_leaves`, TEND by the
judgement of its die. -/
theorem stalledAndDeadlockedCoresAreServed : Obligations.StalledAndDeadlockedCoresAreServed := by
  refine ⟨?_, fun _ _ _ => deadlock_waits, ?_, ?_, ?_, fun _ _ _ _ _ => feederResume_waits, ?_, ?_⟩
  · intro c cyc s hdead hrun hstuck hwin
    exact ⟨_, deadlock_reports hdead hrun hstuck hwin, deadlock_leaves c cyc s⟩
  · intro i w x s hf
    refine ⟨_, congrArg Host.Outcome.next (issueOp_of_fetches hf (tendEff i)), ?_, whole_judgeDie i.core.die i.cyc _⟩
    have hrest := (issued_rests (i := i) (w := w) (m := .atTend) (s := s)).eng
    unfold engOf at hrest ⊢
    rw [tendEff, getCore_judgeDie]
    exact congrArg Eng.mode hrest
  · intro c e cyc g s hopen hcore hmode hmay hc he hacc hdead hop hfit
    subst hc he
    exact feederResume_vop hopen hcore hmode hmay hacc hdead hop hfit
  · intro c e cyc g s hopen hcore harr hp hheld hmay hc he hacc
    subst hc he
    exact ⟨_, feederResume_load hopen hcore hheld hmay, resumeLoad_leaves harr hp hacc⟩
  · intro c s hboost hlend hrest hblocked hin
    have hstep := coreStep_updCore c.lcid (fun co => { co with gated := true }) s
    refine ⟨_, ?_, hstep.core, hstep.others, hstep.parts⟩
    show execCoreGate c s = _
    unfold execCoreGate
    dsimp only
    rw [if_pos (by simp only [flagF_of_eq_one hboost, flagF_of_eq_one hlend, hrest, hblocked, hin, Bool.and_self])]
  · intro c s
    have hstep := coreStep_updCore c.lcid (fun co => { co with gated := false }) s
    exact ⟨_, rfl, hstep.core, hstep.others, hstep.parts⟩

end Sys2Proof.Machine
end

section
/-! The end of a run: its channel and its core behind it, what it delivers, its retries and its failures, and O29
(R102, R104, R105, R201 to R204, R312). -/

namespace Sys2Proof.Machine

/-! ### A run whose occupancy ends -/

theorem getChan_updChan (s : State) (ch : Nat) (f : Chan → Chan) : getChan (updChan s ch f) ch = f (getChan s ch) := by
  unfold getChan updChan
  rw [smGet_smUpd, if_pos rfl]

theorem changesOnly_updChan (s : State) (ch : Nat) (f : Chan → Chan) : ChangesOnly [.chans] s (updChan s ch f) := fun p hp => by
  cases p <;> simp_all [Part.same]

theorem changesOnly_wrMems (s : State) (a : Nat) (bs : List Byte) : ChangesOnly [.mem] s (wrMems s a bs) := fun p hp => by
  cases p <;> simp_all [Part.same]

/-- The channel that serves no run. -/
def chanIdle (q : Chan) : Chan := { q with cur := none }

/-- The channel is idle, and an inbound transfer that was its run's is over. -/
def runOver (ch : Nat) (r : Run) (cyc : Nat) (s : State) : State :=
  if feedsCore r r.core then endInbound r.core cyc (updChan s ch chanIdle) else updChan s ch chanIdle

theorem runEnd_eq {k : StackNo} {c : ChanNo} {r : Run} {parity : Bool} {ecc : EccOut} {acc : List LsAcc}
    {lost : List LineLoss} {s : State} (hcur : (getChan s (chanKey k c)).cur = some r) (hr : NotHost r) :
    exec (.runEnd k c parity ecc acc lost) s =
      .next (runOutcome k c r parity ecc acc lost (cycOfBt s (getChan s (chanKey k c)).freeAt)
        (runOver (chanKey k c) r (cycOfBt s (getChan s (chanKey k c)).freeAt) s)) := by
  show execRunEnd k c parity ecc acc lost s = _
  unfold execRunEnd
  dsimp only
  rw [hcur]
  dsimp only
  cases hk : r.kind with
  | host j wr => exact absurd hk (hr j wr)
  | _ => rfl

theorem changesOnly_runOver (ch : Nat) (r : Run) (cyc : Nat) (s : State) :
    ChangesOnly [.chans, .cores] s (runOver ch r cyc s) := by
  have hidle := (changesOnly_updChan s ch chanIdle).mono (qs := [.chans, .cores]) (by decide)
  unfold runOver
  split
  · exact hidle.trans ((changesOnly_updCore _ _ _).mono (by decide))
  · exact hidle

theorem getChan_runOver (ch : Nat) (r : Run) (cyc : Nat) (s : State) :
    getChan (runOver ch r cyc s) ch = chanIdle (getChan s ch) := by
  have hidle := getChan_updChan s ch chanIdle
  unfold runOver
  split
  · exact hidle
  · exact hidle

theorem CoresKeep.of_cores {s t : State} (h : t.cores = s.cores) : CoresKeep s t := fun d => by unfold getCore; rw [h]

theorem CoresKeep.trans {s t u : State} (h : CoresKeep s t) (h' : CoresKeep t u) : CoresKeep s u :=
  fun d => (h' d).trans (h d)

/-- Of the cores only the cycle in which an inbound transfer ended differs. -/
theorem coresKeep_endInbound (l cyc : Nat) (s : State) : CoresKeep s (endInbound l cyc s) := fun d => by
  have hstep := coreStep_updCore l (inboundOver cyc) s
  have hend : endInbound l cyc s = updCore s l (inboundOver cyc) := rfl
  rw [hend]
  by_cases hd : d = l
  · rw [hd, hstep.core]
    rfl
  · rw [hstep.others d hd]

theorem coresKeep_runOver (ch : Nat) (r : Run) (cyc : Nat) (s : State) : CoresKeep s (runOver ch r cyc s) := by
  have hidle : CoresKeep s (updChan s ch chanIdle) := .of_cores rfl
  unfold runOver
  split
  · exact hidle.trans (coresKeep_endInbound _ _ _)
  · exact hidle

theorem runOver_write {r : Run} (h : r.kind = .write) (ch cyc : Nat) (s : State) :
    runOver ch r cyc s = updChan s ch chanIdle := if_neg (by simp [feedsCore, h])

theorem feedsCore_read {r : Run} (h : r.kind = .read) : feedsCore r r.core = true := by simp [feedsCore, h]

theorem notHost_of_kind {r : Run} {k : RunKind} (h : r.kind = k) (hk : ∀ j wr, k ≠ .host j wr) : NotHost r :=
  fun j wr => h ▸ hk j wr

/-! ### What a run delivers (R201, R102, R104) -/

/-- A write without a Hinge reaches its bytes. -/
theorem deliverTo_write {r : Run} (h : r.kind = .write) (hh : r.hinge = none) (acc : List LsAcc) (lost : List LineLoss)
    (cyc : Nat) (s : State) : deliverTo r acc lost cyc s = wrMems s r.pa r.data := by
  unfold deliverTo
  rw [if_pos (by simp [feedsCore, h])]
  unfold deliver
  rw [h, hh]
  rfl

/-- What the data of a run that is complete leaves of its core (R104). -/
def dataLanded (r : Run) (c : Core) : Core :=
  { c with landing := c.landing.map fun q =>
      if q.stack = r.pa / 2 ^ 36 ∧ q.tick = r.tick ∧ q.seq = r.seq then { q with landed := true } else q }

/-- The core behind a read whose lines `gone` were lost. -/
def readLanded (r : Run) (gone : List Nat) (bs : List Byte) (c : Core) : Core :=
  dataLanded r (lsWrite gone c (64 * r.line) bs)

theorem ls_readLanded (r : Run) (gone : List Nat) (bs : List Byte) (c : Core) (a : Nat) :
    lsByte (readLanded r gone bs c) a = lsByte (lsWrite gone c (64 * r.line) bs) a := rfl

theorem dead_readLanded (r : Run) (gone : List Nat) (bs : List Byte) (c : Core) :
    (readLanded r gone bs c).dead = c.dead := (storeOnly_lsWrite gone c (64 * r.line) bs).board.2.2

theorem landed_readLanded {r : Run} {gone : List Nat} {bs : List Byte} {c : Core} {q : Inbound}
    (hq : q ∈ (readLanded r gone bs c).landing) (hstack : q.stack = r.pa / 2 ^ 36) (htick : q.tick = r.tick)
    (hseq : q.seq = r.seq) : q.landed = true := by
  obtain ⟨q0, _, hq0⟩ := List.mem_map.mp (show q ∈ (dataLanded r (lsWrite gone c (64 * r.line) bs)).landing from hq)
  split at hq0
  · rw [← hq0]
  · next hne => exact absurd (by rw [hq0]; exact ⟨hstack, htick, hseq⟩) hne

theorem deliver_read {r : Run} (h : r.kind = .read) (hh : r.hinge = none) (gone : List Nat) (cyc : Nat) (s : State) :
    CoreStep r.core (readLanded r gone (rdMems s r.pa (64 * r.beats))) s (deliver r gone cyc s) := by
  have hbytes : runBytes s r = 64 * r.beats := by unfold runBytes; rw [h]
  have hland : deliver r gone cyc s = updCore (updCore s r.core fun co =>
      lsWrite gone co (64 * r.line) (rdMems s r.pa (64 * r.beats))) r.core (dataLanded r) := by
    unfold deliver landed
    rw [h, hh, hbytes]
    dsimp only [hinge, hingeUsed]
    simp only [if_pos]
    rfl
  rw [hland]
  exact (coreStep_updCore _ _ _).trans (coreStep_updCore _ _ _)

/-- The end of a read of a core that reports no DEADLOCK; `zs` of its lines were discarded on their way. -/
theorem deliverTo_read {r : Run} {lost : List LineLoss} (h : r.kind = .read) (cyc : Nat) (s : State) :
    deliverTo r [] lost cyc s = lapse r.core cyc
      (takeFaults ((runLosses r lost).map (lineFault (deliver r ((runLosses r lost).map fun z => z.line) cyc s) r.core
        (stackStation (r.pa / 2 ^ 36)) cyc)) (deliver r ((runLosses r lost).map fun z => z.line) cyc s)) := by
  unfold deliverTo
  rw [if_neg (by simp [feedsCore_read h])]
  dsimp only [lostLines, accFaults, List.filterMap_nil]
  rw [List.nil_append, List.append_nil]

/-- The core whose read ends, its bytes in place. -/
theorem coreStep_readEnd {r : Run} (h : r.kind = .read) (hh : r.hinge = none) (ch cyc : Nat) (gone : List Nat) (s : State) :
    CoreStep r.core (readLanded r gone (rdMems s r.pa (64 * r.beats)) ∘ inboundOver cyc) (updChan s ch chanIdle)
      (deliver r gone cyc (runOver ch r cyc s)) := by
  have hover : runOver ch r cyc s = updCore (updChan s ch chanIdle) r.core (inboundOver cyc) := if_pos (feedsCore_read h)
  have hmem : rdMems (runOver ch r cyc s) r.pa (64 * r.beats) = rdMems s r.pa (64 * r.beats) := by
    unfold rdMems
    rw [changesOnly_runOver ch r cyc s .mem (by decide)]
  have hdeliver := deliver_read h hh gone cyc (runOver ch r cyc s)
  rw [hmem] at hdeliver
  rw [hover] at hdeliver ⊢
  exact (coreStep_updCore _ _ _).trans hdeliver

theorem dead_readEnd {r : Run} (h : r.kind = .read) (hh : r.hinge = none) (ch cyc : Nat) (gone : List Nat) {s : State}
    (hdead : (getCore s r.core).dead = false) : (getCore (deliver r gone cyc (runOver ch r cyc s)) r.core).dead = false :=
  (congrArg Core.dead (coreStep_readEnd h hh ch cyc gone s).core).trans
    ((dead_readLanded r gone _ (inboundOver cyc (getCore s r.core))).trans hdead)

/-- A lost line keeps its bytes. -/
theorem lsByte_lsPut_lost {lost : List Nat} {x : Nat} (hx : x / 64 ∈ lost) (bs : List Byte) :
    ∀ (c : Core) (a : Nat), lsByte (lsPut lost c a bs) x = lsByte c x := by
  induction bs with
  | nil => exact fun _ _ => rfl
  | cons b bs ih =>
    intro c a
    unfold lsPut
    split
    · exact ih _ _
    · next hkept =>
      refine (ih _ _).trans (smGet_smSet_other 0 c.ls a x b fun he => hkept (.inl ?_))
      rw [he]
      simpa using hx

theorem lsByte_lsWrite_lost {lost : List Nat} {x : Nat} (hx : x / 64 ∈ lost) (c : Core) (a : Nat) (bs : List Byte) :
    lsByte (lsWrite lost c a bs) x = lsByte c x := by
  unfold lsWrite
  split
  · rfl
  · unfold lsByte
    rw [ls_sigLines]
    exact lsByte_lsPut_lost hx bs c a

theorem length_rdMems (s : State) (a n : Nat) : (rdMems s a n).length = n := by
  unfold rdMems
  rw [smGetList_eq_map]
  simp

theorem runLosses_one {r : Run} {z : LineLoss} (h : z ∈ runLosses r [z]) : runLosses r [z] = [z] := by
  unfold runLosses at h ⊢
  exact List.filter_eq_self.mpr fun q hq => by
    rw [List.mem_singleton.mp hq]
    exact (List.mem_filter.mp h).2

theorem lineFault_says (s : State) (dst src cyc : Nat) (z : LineLoss) :
    Unfencing (lineFault s dst src cyc z) ∧ (lineFault s dst src cyc z).code = 0x10 := by
  unfold lineFault
  split <;> exact ⟨unfencing_coreFault _ _ _ _ (by decide), rfl⟩

/-! ### A retry (R201, R202) -/

theorem runOcc_congr {s t : State} (h : t.mem = s.mem) (r : Run) : runOcc t r = runOcc s r := by
  have hbytes : runBytes t r = runBytes s r := by
    unfold runBytes segBytes rdMems
    rw [h]
  unfold runOcc
  rw [hbytes]

theorem resv_congr {s t : State} (h : t.regs = s.regs) (k : Nat) : resv t k = resv s k := by
  unfold resv tickLen
  simp only [getF_congr h]

/-- The channel owes a run's retry, and its occupancy. -/
def retryOwed (r : Run) (occ : Nat) (q : Chan) : Chan :=
  { q with retry := some { r with retries := r.retries + 1 }, retryOcc := q.retryOcc + occ }

theorem parityFailed_retries {k c : Nat} {r : Run} {s : State} (hr : r.retries < 3)
    (hroom : running s = true → (getChan s (chanKey k c)).retryOcc + runOcc s r ≤ resv s k) :
    parityFailed k c r s = countRetry k c r (updChan s (chanKey k c) (retryOwed r (runOcc s r))) := by
  unfold parityFailed
  dsimp only
  rw [if_neg (by omega), if_neg fun h => absurd (hroom h.1) (Nat.not_le.mpr h.2)]
  rfl

theorem changesOnly_countRetry (k c : Nat) (r : Run) (s : State) :
    ChangesOnly [.regs, .out, .hif, .flt] s (countRetry k c r s) :=
  ((changesOnly_setF s _ _).mono (by decide)).trans <| ((changesOnly_setF _ _ _).mono (by decide)).trans <|
    ((changesOnly_raise _ _).mono (by decide)).trans (changesOnly_logOnly _ _ _ _ _ _)

/-- A counted retry: RETRIES counts it, and RETRY is raised. -/
theorem countRetry_counts (k : StackNo) (c : Nat) (r : Run) (s : State) :
    getF (countRetry k c r s) (R.STK_RETRY_CNT.RETRIES k) = satAdd (2 ^ 16 - 1) (getF s (R.STK_RETRY_CNT.RETRIES k)) 1 ∧
      raised (E.STACK.RETRY k) (countRetry k c r s) := by
  have hapart : ∀ k : StackNo, fldKey (R.STK_RETRY_CNT.LAST_CHAN k) ≠ fldKey (R.STK_RETRY_CNT.RETRIES k) ∧
      (∀ f ∈ evFlds (E.STACK.RETRY k), fldKey f ≠ fldKey (R.STK_RETRY_CNT.RETRIES k)) ∧
      fldKey (R.STK_RETRY_CNT.RETRIES k) ∉ logFlds.map fldKey := by decide
  obtain ⟨hlast, hevt, hlog⟩ := hapart k
  unfold countRetry
  refine ⟨?_, raisedKept_logOnly _ _ _ _ _ _ _ (by show 0 < 16; decide) (raised_raise _ _ (by show 0 < 16; decide))⟩
  rw [(regsBut_logOnly _ _ _ _ _ _).getF_eq hlog, getF_raise_other _ _ _ hevt, getF_setF_other _ _ _ _ hlast, getF_incSat]
  rfl

/-! ### A run that has failed (R202) -/

/-- The failure counted and raised: a fourth retry was needed. -/
def limitPassed (k : Nat) (s : State) : State := raise (E.STACK.RETRY_LIMIT k) (incSat s (R.STK_RETRY_CNT.FAILED k) 1)

theorem runFailed_limit (k c : Nat) (r : Run) (s : State) :
    runFailed k c true r s = takeFault
      (chanFault k c 0x22 clVoid (cycOfBt s (getChan s (chanKey k c)).freeAt) r.pa r.part) (limitPassed k s) := rfl

theorem unfencing_chanFault (k c : Nat) {code cls : Nat} (cyc pa part : Nat) (hc : cls ≠ clHard) (h : code ≠ 0x30) :
    Unfencing (chanFault k c code cls cyc pa part) := ⟨hc, h⟩

theorem changesOnly_limitPassed (k : Nat) (s : State) : ChangesOnly [.regs, .out, .hif] s (limitPassed k s) :=
  ((changesOnly_setF s _ _).mono (by decide)).trans (changesOnly_raise _ _)

theorem limitPassed_counts (k : StackNo) (s : State) :
    getF (limitPassed k s) (R.STK_RETRY_CNT.FAILED k) = satAdd (2 ^ 8 - 1) (getF s (R.STK_RETRY_CNT.FAILED k)) 1 ∧
      raised (E.STACK.RETRY_LIMIT k) (limitPassed k s) ∧
      getF (limitPassed k s) R.FLT_LOG_HEAD.SEQ = getF s R.FLT_LOG_HEAD.SEQ := by
  have hapart : ∀ k : StackNo, (∀ f ∈ evFlds (E.STACK.RETRY_LIMIT k), fldKey f ≠ fldKey (R.STK_RETRY_CNT.FAILED k)) ∧
      (∀ f ∈ evFlds (E.STACK.RETRY_LIMIT k), fldKey f ≠ fldKey R.FLT_LOG_HEAD.SEQ) ∧
      fldKey (R.STK_RETRY_CNT.FAILED k) ≠ fldKey R.FLT_LOG_HEAD.SEQ := by decide
  obtain ⟨hevt, hseq, hfld⟩ := hapart k
  unfold limitPassed
  refine ⟨?_, raised_raise _ _ (by show 2 < 16; decide), ?_⟩
  · rw [getF_raise_other _ _ _ hevt, getF_incSat]
    rfl
  · rw [getF_raise_other _ _ _ hseq, getF_incSat_other _ _ _ _ hfld]

/-! ### An uncorrectable read (R204, R312) -/

/-- The fields that the fence of a channel may write (R312). -/
def chanFenceFlds (k : Nat) : List Fld := [R.FLT_FENCE_MAP.STACK, R.PG_STA.FENCED (0x30 + k)]

/-- What the fence of a channel leaves. -/
theorem fenceUnit_chan (k : StackNo) (c : ChanNo) (s : State) :
    RegsBut (chanFenceFlds k) s (fenceUnit uChan (chanKey k c) s) ∧
      ChangesOnly [.regs] s (fenceUnit uChan (chanKey k c) s) ∧
      getF (fenceUnit uChan (chanKey k c) s) (R.PG_STA.FENCED (0x30 + k)) = 1 := by
  have hstack : chanKey k c / 32 = k := by unfold chanKey; omega
  have hapart : ∀ k : StackNo, fldKey R.FLT_FENCE_MAP.STACK ≠ fldKey (R.PG_STA.FENCED (0x30 + k)) := by decide
  have hfence : fenceUnit uChan (chanKey k c) s =
      setF (setB s (R.PG_STA.FENCED (0x30 + k)) true) R.FLT_FENCE_MAP.STACK
        (getF (setB s (R.PG_STA.FENCED (0x30 + k)) true) R.FLT_FENCE_MAP.STACK ||| 2 ^ k.val) := by
    show setF (setB s (R.PG_STA.FENCED (0x30 + chanKey k c / 32)) true) R.FLT_FENCE_MAP.STACK
      (getF (setB s (R.PG_STA.FENCED (0x30 + chanKey k c / 32)) true) R.FLT_FENCE_MAP.STACK ||| 2 ^ (chanKey k c / 32)) = _
    rw [hstack]
  rw [hfence]
  refine ⟨(regsBut_setB s true (by simp [chanFenceFlds])).trans (regsBut_setF _ _ (by simp [chanFenceFlds])),
    (changesOnly_setF s _ _).trans (changesOnly_setF _ _ _), ?_⟩
  rw [getF_setF_other _ _ _ _ (hapart k)]
  exact getF_setB s _ true Nat.one_pos

/-- The outcome of a hard fault fences its unit, whatever goes before and behind (R304, R305, R37). -/
theorem hardOutcome_fences {r : FaultRec} (hc : r.cls = clHard) (recur : Bool) (seq : Nat) (s : State) :
    ∃ u, FaultStep 1 s u ∧ FaultStep 1 (fenceUnit r.unit r.unitId u) (faultOutcome r recur seq s) := by
  have hflag : ∀ n u, FaultStep 0 u (recordFlag r.flag n u) := fun n => faultStep_recordFlag r.flag n
  have hone : ∀ {u t}, FaultStep 0 u t → FaultStep 1 u t := fun h => h.mono (by decide)
  have hperm : FaultStep 1 s (if recur then recordFlag (recurCause r) seq
      (if hasHist r.unit then markPermanent r.unit r.unitId s else s) else s) := by
    split
    · split
      · exact (faultStep_markPermanent _ _ s).trans (faultStep_recordFlag _ _ _)
      · exact hone (faultStep_recordFlag _ _ s)
    · exact hone (.refl s)
  unfold faultOutcome
  dsimp only
  rw [if_neg (show ¬ r.cls = clLogged by rw [hc]; decide), if_pos hc, if_pos hc,
    if_pos (show r.cls = clHard ∨ (recur = true ∧ r.code = 0x30) from .inl hc)]
  split
  · exact ⟨s, hone (.refl s), hone ((hflag _ _).trans (.of_parts (faultLeaves_idleFlag _ _) (changesOnly_idleFlag _ _)
      (by decide)))⟩
  split
  · exact ⟨s, hone (.refl s), hone (hflag _ _)⟩
  split
  · exact ⟨_, hperm, (hflag _ _).trans
      (.of_parts (faultLeaves_declareOverrun 5 _) (changesOnly_declareOverrun 5 _) (by decide))⟩
  · exact ⟨s, hone (.refl s), hone ((hflag _ _).trans (faultStep_faultDrain _))⟩

/-- What a fault of a channel leaves: its entry, and of the registers and the parts those of a fault and of its fence. -/
structure ChanFaultTaken (k : Nat) (r : FaultRec) (s t : State) : Prop where
  regs : RegsBut (takenFlds ++ chanFenceFlds k) s t
  entry : smGet none t.flt.log (getF s R.FLT_LOG_HEAD.SEQ % 1024) = some (entryOf r (recurs r s) s)
  parts : ChangesOnly faultParts s t

theorem FaultTaken.of_channel {r : FaultRec} {s t : State} (h : FaultTaken r s t) (k : Nat) : ChanFaultTaken k r s t :=
  ⟨h.regs.mono (by simp), h.entry, h.parts⟩

/-- A hard fault of a channel fences it. -/
theorem takeFault_hard {k : StackNo} {c : ChanNo} {r : FaultRec} (hc : r.cls = clHard) (hu : r.unit = uChan)
    (hid : r.unitId = chanKey k c) (s : State) :
    ChanFaultTaken k r s (takeFault r s) ∧ getF (takeFault r s) (R.PG_STA.FENCED (0x30 + k)) = 1 := by
  have hapart : ∀ k : StackNo, fldKey (R.PG_STA.FENCED (0x30 + k)) ∉ takenFlds.map fldKey ∧
      fldKey R.FLT_LOG_HEAD.SEQ ∉ (chanFenceFlds k).map fldKey := by decide
  obtain ⟨u, hbefore, hbehind⟩ := hardOutcome_fences hc (recurs r s) (getF s R.FLT_LOG_HEAD.SEQ) (logFault r s)
  have htake : takeFault r s = faultOutcome r (recurs r s) (getF s R.FLT_LOG_HEAD.SEQ) (logFault r s) := takeFaults_one r s
  rw [← htake, hu, hid] at hbehind
  obtain ⟨hregs, hparts, hfenced⟩ := fenceUnit_chan k c u
  have hlogged := (faultStep_logEntry r (recurs r s) s).trans ((faultStep_logFault r s).trans hbefore)
  have hfence : LogTrail 0 u (fenceUnit uChan (chanKey k c) u) :=
    .quiet (hparts .flt (by decide)) (hregs.getF_eq (hapart k).2)
  refine ⟨⟨?_, ?_, ?_⟩, (hbehind.leaves.regs.getF_eq (hapart k).1).trans hfenced⟩
  · exact (hlogged.leaves.regs.mono (by simp)).trans ((hregs.mono (by simp)).trans (hbehind.leaves.regs.mono (by simp)))
  · exact entry_kept ((((faultStep_logFault r s).trans hbefore).leaves.log.trans hfence).trans hbehind.leaves.log) (by decide)
  · exact hlogged.parts.trans ((hparts.mono (by decide)).trans hbehind.parts)

/-- An uncorrectable read of channel `c` counted and raised. -/
def ueCounted (k c : Nat) (s : State) : State :=
  raise (E.STACK.ECC_UE k) (setF (incSat s (R.STK_ECC.UE k) 1) (R.STK_ECC.LAST_CHAN k) c)

/-- The fault of an uncorrectable read: of the cellar it voids, of a state channel it is hard (R204, Table 7.4). -/
def ueFaultOf (k c cyc pa part : Nat) (cellar : Bool) : FaultRec :=
  if cellar then chanFault k c 0x25 clVoid cyc pa part else { chanFault k c 0x24 clHard cyc pa part with flag := 3 }

theorem changesOnly_ueCounted (k c : Nat) (s : State) : ChangesOnly [.regs, .out, .hif] s (ueCounted k c s) :=
  ((changesOnly_setF s _ _).mono (by decide)).trans
    (((changesOnly_setF _ _ _).mono (by decide)).trans (changesOnly_raise _ _))

theorem ueCounted_counts (k : StackNo) (c : Nat) (s : State) :
    getF (ueCounted k c s) (R.STK_ECC.UE k) = satAdd (2 ^ 8 - 1) (getF s (R.STK_ECC.UE k)) 1 ∧
      raised (E.STACK.ECC_UE k) (ueCounted k c s) ∧
      getF (ueCounted k c s) R.FLT_LOG_HEAD.SEQ = getF s R.FLT_LOG_HEAD.SEQ ∧
      getF (ueCounted k c s) (R.STK_CHAN_CLASS.CELLAR k) = getF s (R.STK_CHAN_CLASS.CELLAR k) := by
  have hevt : ∀ k : StackNo, ∀ f ∈ evFlds (E.STACK.ECC_UE k), fldKey f ≠ fldKey (R.STK_ECC.UE k) ∧
      fldKey f ≠ fldKey R.FLT_LOG_HEAD.SEQ ∧ fldKey f ≠ fldKey (R.STK_CHAN_CLASS.CELLAR k) := by decide
  have hlast : ∀ k : StackNo, fldKey (R.STK_ECC.LAST_CHAN k) ≠ fldKey (R.STK_ECC.UE k) ∧
      fldKey (R.STK_ECC.LAST_CHAN k) ≠ fldKey R.FLT_LOG_HEAD.SEQ ∧
      fldKey (R.STK_ECC.LAST_CHAN k) ≠ fldKey (R.STK_CHAN_CLASS.CELLAR k) := by decide
  have hue : ∀ k : StackNo, fldKey (R.STK_ECC.UE k) ≠ fldKey R.FLT_LOG_HEAD.SEQ ∧
      fldKey (R.STK_ECC.UE k) ≠ fldKey (R.STK_CHAN_CLASS.CELLAR k) := by decide
  obtain ⟨hlue, hlseq, hlcellar⟩ := hlast k
  obtain ⟨huseq, hucellar⟩ := hue k
  unfold ueCounted
  refine ⟨?_, raised_raise _ _ (by show 4 < 16; decide), ?_, ?_⟩
  · rw [getF_raise_other _ _ _ fun f hf => (hevt k f hf).1, getF_setF_other _ _ _ _ hlue, getF_incSat]
    rfl
  · rw [getF_raise_other _ _ _ fun f hf => (hevt k f hf).2.1, getF_setF_other _ _ _ _ hlseq, getF_incSat_other _ _ _ _ huseq]
  · rw [getF_raise_other _ _ _ fun f hf => (hevt k f hf).2.2, getF_setF_other _ _ _ _ hlcellar,
      getF_incSat_other _ _ _ _ hucellar]

theorem eccLost_eq (k : StackNo) (c : ChanNo) (cyc pa part : Nat) (s : State) :
    eccLost k c cyc pa part s = takeFault (ueFaultOf k c cyc pa part (isCellar s k c)) (ueCounted k c s) := by
  have hcellar : isCellar (ueCounted k c s) k c = isCellar s k c := by
    unfold isCellar
    rw [(ueCounted_counts k c s).2.2.2]
  unfold eccLost ueFaultOf
  rw [← hcellar]
  dsimp only
  cases hc : isCellar (ueCounted k c s) k c with
  | true => exact if_pos hc
  | false => exact if_neg (show ¬ isCellar (ueCounted k c s) k c = true by simp [hc])

/-- Its fault taken: a state channel is fenced. -/
theorem ueFault_taken (k : StackNo) (c : ChanNo) (cyc pa part : Nat) (cellar : Bool) (s : State) :
    ChanFaultTaken k (ueFaultOf k c cyc pa part cellar) s (takeFault (ueFaultOf k c cyc pa part cellar) s) ∧
      (cellar = false → getF (takeFault (ueFaultOf k c cyc pa part cellar) s) (R.PG_STA.FENCED (0x30 + k)) = 1) := by
  cases cellar with
  | true =>
    exact ⟨(takeFault_taken (unfencing_chanFault k c cyc pa part (by decide) (by decide)) s).of_channel k, nofun⟩
  | false =>
    obtain ⟨htaken, hfenced⟩ := takeFault_hard (k := k) (c := c) (r := ueFaultOf k c cyc pa part false) rfl rfl rfl s
    exact ⟨htaken, fun _ => hfenced⟩

/-! ### O29 -/

/-- A write that ends reaches its bytes. -/
theorem writeEnd_delivers {k : StackNo} {c : ChanNo} {r : Run} {s : State} (hcur : (getChan s (chanKey k c)).cur = some r)
    (hkind : r.kind = .write) (hhinge : r.hinge = none) :
    Answers (.runEnd k c false .clean [] []) s fun t =>
      getChan t (chanKey k c) = { getChan s (chanKey k c) with cur := none } ∧
      rdMems t r.pa r.data.length = r.data ∧
      (∀ a, (a < r.pa ∨ r.pa + r.data.length ≤ a) → rdMem t a = rdMem s a) ∧ ChangesOnly [.chans, .mem] s t := by
  refine ⟨_, runEnd_eq hcur (notHost_of_kind hkind nofun), ?_⟩
  rw [runOver_write hkind, show ∀ cyc u, runOutcome k c r false .clean [] [] cyc u = deliverTo r [] [] cyc u from
    fun _ _ => rfl, deliverTo_write hkind hhinge]
  have hmem : (wrMems (updChan s (chanKey k c) chanIdle) r.pa r.data).mem = smSetList 0 s.mem r.pa r.data := rfl
  refine ⟨getChan_updChan s _ chanIdle, ?_, ?_, ?_⟩
  · exact rdMems_written (s := s) hmem
  · intro a ha
    exact rdMem_unwritten hmem ha
  · exact ((changesOnly_updChan s _ _).mono (by decide)).trans ((changesOnly_wrMems _ _ _).mono (by decide))

/-- A read that ends brings its bytes to its core, whose Doorway has them. -/
theorem readEnd_delivers {k : StackNo} {c : ChanNo} {r : Run} {s : State} (hcur : (getChan s (chanKey k c)).cur = some r)
    (hkind : r.kind = .read) (hhinge : r.hinge = none) (hfit : 64 * (r.line + r.beats) ≤ lsBytes)
    (hdead : (getCore s r.core).dead = false) :
    Answers (.runEnd k c false .clean [] []) s fun t =>
      lsRead (getCore t r.core) (64 * r.line) (64 * r.beats) = rdMems s r.pa (64 * r.beats) ∧
      (∀ a, (a < 64 * r.line ∨ 64 * (r.line + r.beats) ≤ a) → lsByte (getCore t r.core) a = lsByte (getCore s r.core) a) ∧
      (∀ q ∈ (getCore t r.core).landing, q.stack = r.pa / 2 ^ 36 → q.tick = r.tick → q.seq = r.seq → q.landed = true) ∧
      (∀ d, d ≠ r.core → getCore t d = getCore s d) ∧ ChangesOnly [.chans, .cores] s t := by
  refine ⟨_, runEnd_eq hcur (notHost_of_kind hkind nofun), ?_⟩
  generalize cycOfBt s (getChan s (chanKey k c)).freeAt = cyc
  obtain ⟨u, hu⟩ : ∃ u, u = deliver r [] cyc (runOver (chanKey k c) r cyc s) := ⟨_, rfl⟩
  have hdead' : (getCore u r.core).dead = false := hu ▸ dead_readEnd hkind hhinge (chanKey k c) cyc [] hdead
  have hend : runOutcome k c r false .clean [] [] cyc (runOver (chanKey k c) r cyc s) = u :=
    (deliverTo_read hkind cyc _).trans ((congrArg (lapse r.core cyc) hu.symm).trans (lapse_of_not_dead hdead'))
  have hstep := coreStep_readEnd hkind hhinge (chanKey k c) cyc [] s
  rw [← hu] at hstep
  have hcore : getCore u r.core = readLanded r [] (rdMems s r.pa (64 * r.beats)) (inboundOver cyc (getCore s r.core)) :=
    hstep.core
  have hbyte : ∀ a, lsByte (getCore u r.core) a =
      if 64 * r.line ≤ a ∧ a < 64 * r.line + 64 * r.beats ∧ a < lsBytes
      then (rdMems s r.pa (64 * r.beats)).getD (a - 64 * r.line) 0 else lsByte (getCore s r.core) a := fun a => by
    rw [hcore, ls_readLanded, lsByte_lsWrite, length_rdMems]
    rfl
  rw [hend]
  refine ⟨?_, fun a ha => ?_, fun q hq hstack htick hseq => ?_, hstep.others, ?_⟩
  · have hlen := length_rdMems s r.pa (64 * r.beats)
    have hread := lsRead_eq_of_bytes (c := getCore u r.core) (a := 64 * r.line) (bs := rdMems s r.pa (64 * r.beats))
      fun j hj => by
        rw [hlen] at hj
        rw [hbyte, if_pos (by omega), Nat.add_sub_cancel_left]
    rwa [hlen] at hread
  · rw [hbyte, if_neg (by omega)]
  · rw [hcore] at hq
    exact landed_readLanded hq hstack htick hseq
  · exact ((changesOnly_updChan s _ _).mono (by decide)).trans (hstep.parts.mono (by decide))

/-- A beat discarded on its way is not written, and is in the log. -/
theorem readEnd_loses {k : StackNo} {c : ChanNo} {r : Run} {z : LineLoss} {s : State}
    (hcur : (getChan s (chanKey k c)).cur = some r) (hkind : r.kind = .read) (hhinge : r.hinge = none)
    (hdead : (getCore s r.core).dead = false) (hz : z ∈ runLosses r [z]) :
    Answers (.runEnd k c false .clean [] [z]) s fun t =>
      (∀ a, 64 * z.line ≤ a → a < 64 * z.line + 64 → lsByte (getCore t r.core) a = lsByte (getCore s r.core) a) ∧
      ∃ e, smGet none t.flt.log (getF s R.FLT_LOG_HEAD.SEQ % 1024) = some e ∧ e.code = 0x10 := by
  refine ⟨_, runEnd_eq hcur (notHost_of_kind hkind nofun), ?_⟩
  generalize cycOfBt s (getChan s (chanKey k c)).freeAt = cyc
  obtain ⟨u, hu⟩ : ∃ u, u = deliver r [z.line] cyc (runOver (chanKey k c) r cyc s) := ⟨_, rfl⟩
  obtain ⟨hunf, hcode⟩ := lineFault_says u r.core (stackStation (r.pa / 2 ^ 36)) cyc z
  have htaken := takeFault_taken hunf u
  have hdead' : (getCore u r.core).dead = false := hu ▸ dead_readEnd hkind hhinge (chanKey k c) cyc [z.line] hdead
  have hend : runOutcome k c r false .clean [] [z] cyc (runOver (chanKey k c) r cyc s) =
      takeFault (lineFault u r.core (stackStation (r.pa / 2 ^ 36)) cyc z) u := by
    refine (deliverTo_read hkind cyc _).trans ?_
    rw [runLosses_one hz, List.map_singleton, List.map_singleton, ← hu]
    exact lapse_of_not_dead (by rw [← hdead', ← htaken.getCore_eq]; rfl)
  have hstep := coreStep_readEnd hkind hhinge (chanKey k c) cyc [z.line] s
  rw [← hu] at hstep
  have hseq : getF u R.FLT_LOG_HEAD.SEQ = getF s R.FLT_LOG_HEAD.SEQ := getF_congr (hstep.parts .regs (by decide)) _
  rw [hend]
  refine ⟨fun a hlo hhi => ?_, _, hseq ▸ htaken.entry, hcode⟩
  rw [htaken.getCore_eq, hstep.core]
  refine (ls_readLanded ..).trans ((lsByte_lsWrite_lost ?_ _ _ _).trans rfl)
  rw [List.mem_singleton]
  omega

/-- A run whose parity fails is retried, within three retries and the reserve. -/
theorem parityEnd_retries {k : StackNo} {c : ChanNo} {r : Run} (acc : List LsAcc) (lost : List LineLoss) {s : State}
    (hcur : (getChan s (chanKey k c)).cur = some r) (hhost : NotHost r) (hr : r.retries < 3)
    (hroom : running s = true → (getChan s (chanKey k c)).retryOcc + runOcc s r ≤ resv s k) :
    Answers (.runEnd k c true .clean acc lost) s fun t =>
      (getChan t (chanKey k c)).retry = some { r with retries := r.retries + 1 } ∧
      (getChan t (chanKey k c)).retryOcc = (getChan s (chanKey k c)).retryOcc + runOcc s r ∧
      (getChan t (chanKey k c)).queue = (getChan s (chanKey k c)).queue ∧
      getF t (R.STK_RETRY_CNT.RETRIES k) = satAdd (2 ^ 16 - 1) (getF s (R.STK_RETRY_CNT.RETRIES k)) 1 ∧
      raised (E.STACK.RETRY k) t ∧ t.mem = s.mem ∧ CoresKeep s t := by
  refine ⟨_, runEnd_eq hcur hhost, ?_⟩
  generalize cycOfBt s (getChan s (chanKey k c)).freeAt = cyc
  obtain ⟨u, hu⟩ : ∃ u, u = runOver (chanKey k c) r cyc s := ⟨_, rfl⟩
  have hover : ChangesOnly [.chans, .cores] s u := by rw [hu]; exact changesOnly_runOver _ _ _ _
  have hchan : getChan u (chanKey k c) = chanIdle (getChan s (chanKey k c)) := hu ▸ getChan_runOver ..
  have hkeep : CoresKeep s u := by rw [hu]; exact coresKeep_runOver _ _ _ _
  have hregs : u.regs = s.regs := hover .regs (by decide)
  have hocc : runOcc u r = runOcc s r := runOcc_congr (hover .mem (by decide)) r
  have hend : runOutcome k c r true .clean acc lost cyc u =
      countRetry k c r (updChan u (chanKey k c) (retryOwed r (runOcc s r))) := by
    rw [← hocc]
    refine parityFailed_retries hr fun hrun => ?_
    rw [hchan, hocc, resv_congr hregs]
    exact hroom (by rw [← running_congr hregs]; exact hrun)
  obtain ⟨hcount, hraised⟩ := countRetry_counts k c r (updChan u (chanKey k c) (retryOwed r (runOcc s r)))
  have hparts := changesOnly_countRetry k c r (updChan u (chanKey k c) (retryOwed r (runOcc s r)))
  rw [← hu, hend]
  have hafter : getChan (countRetry k c r (updChan u (chanKey k c) (retryOwed r (runOcc s r)))) (chanKey k c) =
      retryOwed r (runOcc s r) (chanIdle (getChan s (chanKey k c))) := by
    rw [← hchan, ← getChan_updChan u (chanKey k c) (retryOwed r (runOcc s r))]
    unfold getChan
    rw [hparts .chans (by decide)]
  refine ⟨by rw [hafter]; rfl, by rw [hafter]; rfl, by rw [hafter]; rfl, ?_, hraised, ?_, ?_⟩
  · rw [hcount, ← getF_congr hregs]
    rfl
  · exact (hparts .mem (by decide)).trans (hover .mem (by decide))
  · exact hkeep.trans (.of_cores (hparts .cores (by decide)))

/-- A fourth retry is not made: the run has failed. -/
theorem parityEnd_fails {k : StackNo} {c : ChanNo} {r : Run} (acc : List LsAcc) (lost : List LineLoss) {s : State}
    (hcur : (getChan s (chanKey k c)).cur = some r) (hhost : NotHost r) (hr : 3 ≤ r.retries) :
    Answers (.runEnd k c true .clean acc lost) s fun t =>
      getF t (R.STK_RETRY_CNT.FAILED k) = satAdd (2 ^ 8 - 1) (getF s (R.STK_RETRY_CNT.FAILED k)) 1 ∧
      raised (E.STACK.RETRY_LIMIT k) t ∧
      (∃ e, smGet none t.flt.log (getF s R.FLT_LOG_HEAD.SEQ % 1024) = some e ∧ e.code = 0x22 ∧ e.unitId = chanKey k c) ∧
      t.mem = s.mem ∧ CoresKeep s t := by
  refine ⟨_, runEnd_eq hcur hhost, ?_⟩
  generalize cycOfBt s (getChan s (chanKey k c)).freeAt = cyc
  obtain ⟨u, hu⟩ : ∃ u, u = runOver (chanKey k c) r cyc s := ⟨_, rfl⟩
  have hover : ChangesOnly [.chans, .cores] s u := by rw [hu]; exact changesOnly_runOver _ _ _ _
  have hkeep : CoresKeep s u := by rw [hu]; exact coresKeep_runOver _ _ _ _
  have hregs : u.regs = s.regs := hover .regs (by decide)
  have hend : runOutcome k c r true .clean acc lost cyc u = runFailed k c true r u := if_pos hr
  have htaken := takeFault_taken (unfencing_chanFault k c (cycOfBt u (getChan u (chanKey k c)).freeAt) r.pa r.part
    (code := 0x22) (cls := clVoid) (by decide) (by decide)) (limitPassed k u)
  rw [← runFailed_limit] at htaken
  obtain ⟨hcount, hraised, hseq⟩ := limitPassed_counts k u
  have hapart : ∀ k : StackNo, fldKey (R.STK_RETRY_CNT.FAILED k) ∉ takenFlds.map fldKey ∧
      fldKey (R.PG_EVT.EVT (E.STACK.RETRY_LIMIT k).page) ∉ takenFlds.map fldKey := by decide
  have hparts := changesOnly_limitPassed k u
  rw [← hu, hend]
  have hentry := htaken.entry
  rw [hseq, getF_congr hregs] at hentry
  refine ⟨?_, htaken.raised_kept (hapart k).2 hraised, ⟨_, hentry, rfl, rfl⟩, ?_, ?_⟩
  · rw [htaken.regs.getF_eq (hapart k).1, hcount, getF_congr hregs]
  · exact (htaken.parts .mem (by decide)).trans ((hparts .mem (by decide)).trans (hover .mem (by decide)))
  · exact hkeep.trans (.of_cores ((htaken.parts .cores (by decide)).trans (hparts .cores (by decide))))

/-- An uncorrectable read voids the tick in the cellar, and fences a state channel. -/
theorem uncorrectableEnd_faults {k : StackNo} {c : ChanNo} {r : Run} (acc : List LsAcc) (lost : List LineLoss) {s : State}
    (hcur : (getChan s (chanKey k c)).cur = some r) (hhost : NotHost r) (hread : isRead r = true) :
    Answers (.runEnd k c false .uncorrectable acc lost) s fun t =>
      getF t (R.STK_ECC.UE k) = satAdd (2 ^ 8 - 1) (getF s (R.STK_ECC.UE k)) 1 ∧ raised (E.STACK.ECC_UE k) t ∧
      (∃ e, smGet none t.flt.log (getF s R.FLT_LOG_HEAD.SEQ % 1024) = some e ∧
        e.code = (if isCellar s k c then 0x25 else 0x24) ∧ e.unitId = chanKey k c) ∧
      (isCellar s k c = false → getF t (R.PG_STA.FENCED (0x30 + k)) = 1) ∧ t.mem = s.mem := by
  refine ⟨_, runEnd_eq hcur hhost, ?_⟩
  generalize cycOfBt s (getChan s (chanKey k c)).freeAt = cyc
  obtain ⟨u, hu⟩ : ∃ u, u = runOver (chanKey k c) r cyc s := ⟨_, rfl⟩
  have hover : ChangesOnly [.chans, .cores] s u := by rw [hu]; exact changesOnly_runOver _ _ _ _
  have hregs : u.regs = s.regs := hover .regs (by decide)
  have hcellar : isCellar u k c = isCellar s k c := by unfold isCellar; rw [getF_congr hregs]
  have hend : runOutcome k c r false .uncorrectable acc lost cyc u =
      takeFault (ueFaultOf k c cyc r.pa r.part (isCellar s k c)) (ueCounted k c u) := by
    rw [← hcellar, ← eccLost_eq]
    exact if_pos hread
  obtain ⟨htaken, hfenced⟩ := ueFault_taken k c cyc r.pa r.part (isCellar s k c) (ueCounted k c u)
  obtain ⟨hcount, hraised, hseq, _⟩ := ueCounted_counts k c u
  have hapart : ∀ k : StackNo, fldKey (R.STK_ECC.UE k) ∉ (takenFlds ++ chanFenceFlds k).map fldKey ∧
      fldKey (R.PG_EVT.EVT (E.STACK.ECC_UE k).page) ∉ (takenFlds ++ chanFenceFlds k).map fldKey := by decide
  rw [← hu, hend]
  have hentry := htaken.entry
  rw [hseq, getF_congr hregs] at hentry
  refine ⟨?_, ?_, ⟨_, hentry, ?_, ?_⟩, hfenced, ?_⟩
  · rw [htaken.regs.getF_eq (hapart k).1, hcount, getF_congr hregs]
  · unfold raised at hraised ⊢
    rwa [htaken.regs.getF_eq (hapart k).2]
  · show (ueFaultOf k c cyc r.pa r.part (isCellar s k c)).code = _
    cases isCellar s k c <;> rfl
  · show (ueFaultOf k c cyc r.pa r.part (isCellar s k c)).unitId = _
    cases isCellar s k c <;> rfl
  · exact (htaken.parts .mem (by decide)).trans
      ((changesOnly_ueCounted k c u .mem (by decide)).trans (hover .mem (by decide)))

/-- Settles O29: what is delivered by the core's step, a retry by `countRetry_counts`, a failure and an uncorrectable read
by what their fault leaves. -/
theorem runEndDeliversRetriesOrFails : Obligations.RunEndDeliversRetriesOrFails :=
  ⟨fun _ _ _ _ => writeEnd_delivers, fun _ _ _ _ => readEnd_delivers, fun _ _ _ _ _ => readEnd_loses,
    fun _ _ _ acc lost _ => parityEnd_retries acc lost, fun _ _ _ acc lost _ => parityEnd_fails acc lost,
    fun _ _ _ acc lost _ => uncorrectableEnd_faults acc lost⟩

end Sys2Proof.Machine
end

section
/-! Vector instructions that issue: the words and the one result that VOP, VSF, VSEL, VRNG and VRED write, and O22
(R136 to R138, R164, R230). -/

namespace Sys2Proof.Machine

/-! ### What is read of a core's registers and local store -/

theorem vLane_congr {c d : Core} (h : d.vreg = c.vreg) (r l : Nat) : vLane d r l = vLane c r l := by
  unfold vLane; rw [h]

theorem lsByte_congr {c d : Core} (h : d.ls = c.ls) (a : Nat) : lsByte d a = lsByte c a := by unfold lsByte; rw [h]

theorem lsRead_congr {c d : Core} (h : d.ls = c.ls) (a n : Nat) : lsRead d a n = lsRead c a n := by unfold lsRead; rw [h]

/-! ### The issue of a vector instruction -/

theorem issueOp_two {i : Issue} {op w x : Nat} {s : State} (h : Fetches i op w x s) (h2 : twoWord op = true)
    (eff : Nat → Nat → State → State) : issueOp i op eff s = eff w x (issued i w s) := by
  rw [issueOp_of_fetches h, if_pos h2]

/-- The core reads of its store what it read before the issue. -/
theorem lsView_issued (i : Issue) (w : Nat) (lost : List Nat) (s : State) :
    lsView (issued i w s) (advanced i w (getCore s i.core.lcid)) lost = lsView s (getCore s i.core.lcid) lost := by
  have hctr : (issued i w s).freeCtr = s.freeCtr := changesOnly_issued i w s .freeCtr (by decide)
  funext a
  unfold lsView
  rw [hctr]
  rfl

theorem getEng_busied_other (i : Issue) (w n due : Nat) (c : Core) {e : Nat} (he : e ≠ i.eng.no) :
    getEng (busied i w n due c) e = getEng c e := by
  unfold busied
  rw [getEng_of_engs (engs_completing ..), engHeldTo, getEng_updEng_other _ _ he]

theorem bare_busied (i : Issue) (w n due : Nat) (c : Core) : bare (busied i w n due c) = bare c := rfl

theorem VecOnly.noVec_bare {c d : Core} (h : VecOnly c d) : noVec (bare d) = noVec (bare c) := by
  unfold VecOnly at h
  rw [h]
  rfl

/-- What a vector instruction leaves that holds its engine `n` cycles and whose last result follows `lat` cycles behind
the last input: registers and local store are those of `d`, and nothing else of its core changes but the issue. -/
structure VecLeaves (i : Issue) (w n lat : Nat) (d : Core) (s t : State) : Prop where
  issued : Issued i w (i.cyc + n) (goesOn i s) [doneAt i w (i.cyc + n - 1 + lat)] noVec [] s t
  ls : (getCore t i.core.lcid).ls = d.ls
  vreg : (getCore t i.core.lcid).vreg = d.vreg

/-- A vector instruction that makes `d` of its core behind the issue. -/
theorem vecLeaves_vecOp {i : Issue} {w x rate lat : Nat} {f : (Nat → Byte) → List Nat → Core → Core} {d : Core} {s : State}
    (hcan : canIssue s i = true) (hacc : i.acc = [])
    (hd : f (lsView s (getCore s i.core.lcid) []) [] (advanced i w (getCore s i.core.lcid)) = d)
    (honly : VecOnly (advanced i w (getCore s i.core.lcid)) d) :
    VecLeaves i w (ceilDiv (fVCnt w + 1) rate) lat d s (vecOp i w x rate lat f (issued i w s)) := by
  obtain ⟨n, hn⟩ : ∃ n, n = ceilDiv (fVCnt w + 1) rate := ⟨_, rfl⟩
  have heq : vecOp i w x rate lat f (issued i w s) = vTime i w (fVCnt w + 1) rate lat
      (updCore (issued i w s) i.core.lcid (f (lsView s (getCore s i.core.lcid) []) [])) := by
    rw [vecOp_nil hacc, getCore_issued, lsView_issued]
    rfl
  have hstep := (coreStep_updCore i.core.lcid (f (lsView s (getCore s i.core.lcid) []) []) (issued i w s)).trans
    (coreStep_vTime i w (fVCnt w + 1) rate lat _)
  rw [← heq, ← hn] at hstep
  have hcore : (busied i w n (i.cyc + n - 1 + lat) ∘ f (lsView s (getCore s i.core.lcid) []) [])
      (advanced i w (getCore s i.core.lcid)) = busied i w n (i.cyc + n - 1 + lat) d := by rw [Function.comp, hd]
  have hleft := (hstep.core.trans (congrArg _ (getCore_issued i w s))).trans hcore
  obtain ⟨hengs, houtst, _⟩ := honly.keeps
  obtain ⟨hbout, _, hbls, hbv⟩ := busied_keeps i w n (i.cyc + n - 1 + lat) d
  rw [← hn]
  refine ⟨.of_step hstep ?_ (fun e he => ?_) ?_ ?_, (congrArg Core.ls hleft).trans hbls, (congrArg Core.vreg hleft).trans hbv⟩
  · rw [hcore, getEng_busied, getEng_of_engs hengs, getEng_advanced_same]
    exact advancedEng_running w hcan (i.cyc + n)
  · rw [hcore, getEng_busied_other _ _ _ _ _ he, getEng_of_engs hengs, getEng_advanced_other _ _ _ he]
  · rw [hcore, hbout, houtst, outst_advanced]
  · rw [hcore, bare_busied, honly.noVec_bare, bare_advanced]

/-! ### Words of 32 bits -/

/-- The issue of an instruction that stores a word for each element. -/
theorem wordsWritten {i : Issue} {op w x rate lat : Nat} {f : (Nat → Byte) → List Nat → Core → Core} {val : Nat → Word}
    {s t : State} (hf : Fetches i op w x s) (hfit : vFits w (fVCnt w + 1) 4) (ht : vecOp i w x rate lat f (issued i w s) = t)
    (hout : f (lsView s (getCore s i.core.lcid) []) [] (advanced i w (getCore s i.core.lcid)) =
      vOut [] w 32 (fVDst w) ((vIdx w).map fun k => (val k).toNat) (advanced i w (getCore s i.core.lcid))) :
    Issued i w (i.cyc + ceilDiv (fVCnt w + 1) rate) (goesOn i s)
        [doneAt i w (i.cyc + ceilDiv (fVCnt w + 1) rate - 1 + lat)] noVec [] s t ∧
      (∀ k, k ≤ fVCnt w → vResult (getCore t i.core.lcid) w k = val k) ∧
      VecWrote w (fVDst w) (fVCnt w + 1) (4 * (fVCnt w + 1)) (getCore s i.core.lcid) (getCore t i.core.lcid) := by
  obtain ⟨hiss, hls, hv⟩ := ht ▸ vecLeaves_vecOp (x := x) (rate := rate) (lat := lat) hf.can hf.acc hout (vecOnly_vOut ..)
  refine ⟨hiss, fun k hk => ?_, (vecWrote_vOut (advanced i w (getCore s i.core.lcid)) hfit).congr ⟨rfl, rfl⟩ ⟨hls, hv⟩⟩
  exact (vResult_congr hls hv w k).trans (vResult_vOut _ hfit (Nat.lt_succ_of_le hk))

/-! ### Seed, step and draws behind the issue (R135, R230) -/

theorem jobSeed_issued (i : Issue) (w : Nat) (s : State) : jobSeed (issued i w s) = jobSeed s := by
  have hr := regsBut_issued i w s
  unfold jobSeed
  rw [hr.getF_eq (by decide), hr.getF_eq (by decide)]

theorem trainStep_issued (i : Issue) (w : Nat) (s : State) : trainStep (issued i w s) = trainStep s :=
  (regsBut_issued i w s).getF_eq (by decide)

theorem vrngWord_issued (i : Issue) (w : Nat) (s : State) : vrngWord (issued i w s) = vrngWord s := by
  funext lcid x e
  unfold vrngWord
  rw [jobSeed_issued, trainStep_issued]

/-! ### The words of VSEL and VRNG (R164, R230) -/

/-- VSEL's words under FN 0. -/
theorem vselEff_eq {w : Nat} (hfn : fVFn w = 0) (i : Issue) (x : Nat) (s : State) :
    vselEff i w x s = vecOp i w x 16 2 (fun rd lost c => vOut lost w 32 (fVDst w)
      ((vIdx w).map fun k => (if vMask c x k then vInF rd c w k else vB c x k).toNat) c) s := by
  unfold vselEff
  simp only [hfn, if_true, apply_ite BitVec.toNat]

/-- Of a number stored as a word only the low 32 bits count. -/
theorem vOut_ofNat (lost : List Nat) (w dst : Nat) (ks : List Nat) (g : Nat → Nat) (c : Core) :
    vOut lost w 32 dst (ks.map fun k => (BitVec.ofNat 32 (g k)).toNat) c = vOut lost w 32 dst (ks.map g) c := by
  cases h : fVDr w with
  | true =>
    rw [vOut_registers h, vOut_registers h]
    unfold lanesSet
    rw [List.zipIdx_map, List.zipIdx_map, List.foldl_map, List.foldl_map]
    simp only [Prod.map, id, BitVec.ofNat_toNat, BitVec.setWidth_eq]
  | false =>
    rw [vOut_lines h, vOut_lines h, packElems_eq, packElems_eq]
    unfold spelled
    rw [List.foldr_map, List.foldr_map, List.length_map, List.length_map]
    simp only [BitVec.toNat_ofNat, Nat.mod_mod]

/-- VRNG's words under FN 0. -/
theorem vrngEff_eq {w : Nat} (hfn : fVFn w = 0) (i : Issue) (x : Nat) (s : State) :
    vrngEff i w x s = vecOp i w x 4 12 (fun _ lost c => vOut lost w 32 (fVDst w)
      ((vIdx w).map fun k => (BitVec.ofNat 32 (vrngWord s i.core.lcid x k)).toNat) c) s := by
  unfold vrngEff
  simp only [hfn, vOut_ofNat]

/-! ### VRED (R138) -/

/-- A word in a lane or at a place of a line. -/
def wordStored (lost : List Nat) (w dst pos : Nat) (r : Word) (c : Core) : Core :=
  if fVDr w then setLane c (dst % 32) pos r else lsWrite lost c (64 * dst + 4 * pos) (leBytes 4 r.toNat)

/-- The one word of a VRED. -/
def vredVal (w : Nat) (rd : Nat → Byte) (c : Core) : Word := vredFn (fVFn w) ((vIdx w).map fun k => vInF rd c w k)

theorem vredEff_eq (i : Issue) (w x : Nat) (s : State) :
    vredEff i w x s =
      vecOp i w x 16 6 (fun rd lost c => wordStored lost w (fVDst w) (fVImm x % 16) (vredVal w rd c) c) s := rfl

theorem vecOnly_wordStored (w dst pos : Nat) (r : Word) (c : Core) : VecOnly c (wordStored [] w dst pos r c) := by
  unfold wordStored
  split
  · rfl
  · exact (storeOnly_lsWrite _ _ _ _).vecOnly

theorem wordStored_lane {w pos : Nat} (h : fVDr w = true) (hpos : pos < 16) (dst : Nat) (r : Word) (c : Core) :
    (wordStored [] w dst pos r c).ls = c.ls ∧ ∀ g l, g < 32 → l < 16 →
      vLane (wordStored [] w dst pos r c) g l = if g = dst % 32 ∧ l = pos then r else vLane c g l := by
  have heq : wordStored [] w dst pos r c = setLane c (dst % 32) pos r := if_pos h
  rw [heq]
  refine ⟨rfl, fun g l hg hl => ?_⟩
  rw [vLane_setLane r hpos hl]
  exact if_congr (by omega) rfl rfl

theorem wordStored_line {w dst pos : Nat} (h : fVDr w = false) (hfit : 64 * dst + 4 * pos + 4 ≤ lsBytes) (r : Word)
    (c : Core) :
    (wordStored [] w dst pos r c).vreg = c.vreg ∧
      lsRead (wordStored [] w dst pos r c) (64 * dst + 4 * pos) 4 = leBytes 4 r.toNat ∧
      ∀ a, (a < 64 * dst + 4 * pos ∨ 64 * dst + 4 * pos + 4 ≤ a) → lsByte (wordStored [] w dst pos r c) a = lsByte c a := by
  have heq : wordStored [] w dst pos r c = lsWrite [] c (64 * dst + 4 * pos) (leBytes 4 r.toNat) := if_neg (by simp [h])
  have hlen : (leBytes 4 r.toNat).length = 4 := length_leBytes ..
  rw [heq]
  refine ⟨(storeOnly_lsWrite _ _ _ _).vreg, lsRead_eq_of_bytes (bs := leBytes 4 r.toNat) fun j hj => ?_, fun a ha => ?_⟩
  · rw [lsByte_lsWrite, if_pos (by omega), Nat.add_sub_cancel_left]
  · rw [lsByte_lsWrite, if_neg (by omega)]

theorem vecLeaves_vredEff {i : Issue} {op w x : Nat} {s : State} (hf : Fetches i op w x s) :
    VecLeaves i w (ceilDiv (fVCnt w + 1) 16) 6
      (wordStored [] w (fVDst w) (fVImm x % 16)
        (vredVal w (lsView s (getCore s i.core.lcid) []) (getCore s i.core.lcid)) (advanced i w (getCore s i.core.lcid)))
      s (vredEff i w x (issued i w s)) := by
  rw [vredEff_eq]
  exact vecLeaves_vecOp hf.can hf.acc rfl (vecOnly_wordStored ..)

/-! ### O22 -/

/-- Settles O22: the words by `wordsWritten`, each instruction's values read of its core as it stood; VRED's one word by
`wordStored_lane` and `wordStored_line`. -/
theorem vectorInstructionsWriteTheirElements : Obligations.VectorInstructionsWriteTheirElements := by
  refine ⟨?_, ?_, ?_, ?_, ?_⟩
  · intro i w x s hf hfit
    exact ⟨_, congrArg Host.Outcome.next (issueOp_two hf rfl (vopEff i)), wordsWritten hf hfit rfl rfl⟩
  · intro i w x s hf hfit
    exact ⟨_, congrArg Host.Outcome.next (issueOp_two hf rfl (vsfEff i)), wordsWritten hf hfit rfl rfl⟩
  · intro i w x s hf hfit hfn
    exact ⟨_, congrArg Host.Outcome.next (issueOp_two hf rfl (vselEff i)),
      wordsWritten hf hfit (vselEff_eq hfn i x _).symm rfl⟩
  · intro i w x s hf hfit hfn
    obtain ⟨hiss, hval, hwrote⟩ := wordsWritten hf hfit (vrngEff_eq hfn i x _).symm rfl
    refine ⟨_, congrArg Host.Outcome.next (issueOp_two hf rfl (vrngEff i)), hiss, fun k hk => ?_, hwrote⟩
    rw [hval k hk, vrngWord_issued]
    exact BitVec.toNat_ofNat _ _
  · intro i w x s hf hfit
    obtain ⟨hiss, hls, hv⟩ := vecLeaves_vredEff hf
    refine ⟨_, congrArg Host.Outcome.next (issueOp_two hf rfl (vredEff i)), hiss, fun hdr => ?_, fun hdr => ?_⟩
    · obtain ⟨hstay, hlane⟩ := wordStored_lane hdr (Nat.mod_lt (fVImm x) (by decide)) (fVDst w)
        (vredVal w (lsView s (getCore s i.core.lcid) []) (getCore s i.core.lcid)) (advanced i w (getCore s i.core.lcid))
      exact ⟨hls.trans hstay, fun g l hg hl => (vLane_congr hv g l).trans (hlane g l hg hl)⟩
    · have hroom := hfit hdr
      obtain ⟨hstay, hread, hkeep⟩ := wordStored_line (dst := fVDst w) (pos := fVImm x % 16) hdr (by omega)
        (vredVal w (lsView s (getCore s i.core.lcid) []) (getCore s i.core.lcid)) (advanced i w (getCore s i.core.lcid))
      exact ⟨hv.trans hstay, (lsRead_congr hls _ _).trans hread, fun a ha => (lsByte_congr hls a).trans (hkeep a ha)⟩

end Sys2Proof.Machine
end

section
/-! Vector instructions that convert: elements of any width in the lines, VCVT between formats, VQNT along the line, and O23
(R126, R127, R133, R134, R164). -/

namespace Sys2Proof.Machine

/-! ### Bits of a byte store (R126) -/

theorem elemWidth_le (d : Nat) : elemWidth d ≤ 32 := by
  unfold elemWidth
  split <;> decide

theorem testBit_leNat (bs : List Byte) : ∀ i, (leNat bs).testBit i = (bs.getD (i / 8) 0).getLsbD (i % 8) := by
  induction bs with
  | nil => intro i; simp [leNat]
  | cons b bs ih =>
    intro i
    rw [leNat, Nat.add_comm, show (256 : Nat) = 2 ^ 8 from rfl, Nat.testBit_two_pow_mul_add _ b.isLt]
    by_cases hi : i < 8
    · rw [if_pos hi, Nat.div_eq_of_lt hi, Nat.mod_eq_of_lt hi, BitVec.testBit_toNat, List.getD_cons_zero]
    · rw [if_neg hi, ih, show i / 8 = (i - 8) / 8 + 1 by omega, List.getD_cons_succ, show (i - 8) % 8 = i % 8 by omega]

/-- A bit of the bytes of a number. -/
theorem getLsbD_leBytes {m j i : Nat} (n : Nat) (hj : j < m) (hi : i < 8) :
    ((leBytes m n).getD j 0).getLsbD i = n.testBit (8 * j + i) := by
  rw [getD_leBytes m n j hj, BitVec.getLsbD_ofNat, decide_eq_true hi, Bool.true_and, show (256 : Nat) = 2 ^ 8 from rfl,
    ← Nat.pow_mul, Nat.testBit_div_two_pow, Nat.add_comm]

/-- The bits that `bitsAt` reads, each in its byte. -/
theorem testBit_bitsAt {rd : Nat → Byte} {a w i : Nat} (hw : w ≤ 32) (hi : i < w) :
    (bitsAt rd a w).testBit i = (rd ((a + i) / 8)).getLsbD ((a + i) % 8) := by
  unfold bitsAt
  rw [Nat.testBit_mod_two_pow, decide_eq_true hi, Bool.true_and, Nat.testBit_shiftRight, testBit_leNat]
  have hbyte : (a + i) / 8 = a / 8 + (a % 8 + i) / 8 := by omega
  have hbit : (a + i) % 8 = (a % 8 + i) % 8 := by omega
  have hfive : (a % 8 + i) / 8 < 5 := by omega
  rw [hbyte, hbit]
  generalize (a % 8 + i) / 8 = j at hfive
  congr 1
  interval_cases j <;> rfl

/-- Elements one after another in a byte store, each in its bits. -/
theorem bitsAt_packElems {rd : Nat → Byte} {a w k : Nat} {es : List Nat} (hw : w ≤ 32) (hk : k < es.length)
    (hrd : ∀ j, j < ceilDiv (es.length * w) 8 → rd (a + j) = (packElems w es).getD j 0) :
    bitsAt rd (8 * a + k * w) w = es.getD k 0 % 2 ^ w := by
  refine Nat.eq_of_testBit_eq fun i => ?_
  by_cases hi : i < w
  · have hend : k * w + i < es.length * w := by
      have := Nat.mul_le_mul_right w (Nat.succ_le_of_lt hk)
      rw [Nat.succ_mul] at this
      omega
    have hbyte : (8 * a + k * w + i) / 8 = a + (k * w + i) / 8 := by omega
    have hin : (k * w + i) / 8 < ceilDiv (es.length * w) 8 := by unfold ceilDiv; omega
    rw [testBit_bitsAt hw hi, hbyte, hrd _ hin, packElems_eq, getLsbD_leBytes _ hin (Nat.mod_lt _ (by decide)),
      ← spelled_digit w es k hk, ← Nat.pow_mul, Nat.testBit_mod_two_pow, Nat.testBit_div_two_pow, decide_eq_true hi,
      Bool.true_and, Nat.mul_comm w k]
    congr 1
    omega
  · rw [bitsAt, Nat.testBit_mod_two_pow, Nat.testBit_mod_two_pow, decide_eq_false hi, Bool.false_and, Bool.false_and]

/-! ### Elements of any width -/

/-- Element `k` of a result `wd` bits wide stands at its place: a lane of the DST registers, or its bits of the lines. -/
def ElemStands (w wd k o : Nat) (c : Core) : Prop :=
  if fVDr w then vLane c (fVDst w % 32 + k / 16) (k % 16) = BitVec.ofNat 32 o
  else bitsAt (lsByte c) (512 * fVDst w + k * wd) wd = o % 2 ^ wd

theorem ElemStands.congr {w wd k o : Nat} {c d : Core} (h : ElemStands w wd k o c) (hls : d.ls = c.ls)
    (hv : d.vreg = c.vreg) : ElemStands w wd k o d := by
  unfold ElemStands vLane lsByte at h ⊢
  rw [hls, hv]
  exact h

/-- The elements fit: in the 32 registers, or in the local store (R156, R86). -/
def ElemsFit (w wd n : Nat) : Prop := if fVDr w then n ≤ 512 else 64 * fVDst w + ceilDiv (n * wd) 8 ≤ lsBytes

theorem length_packElems (w : Nat) (es : List Nat) : (packElems w es).length = ceilDiv (es.length * w) 8 :=
  length_leBytes ..

/-- The results of any width, each at its place, and nothing beside them. -/
theorem elems_vOut {w wd n : Nat} (val : Nat → Nat) (c : Core) (hwd : wd ≤ 32) (hfit : ElemsFit w wd n) :
    (∀ k, k < n → ElemStands w wd k (val k) (vOut [] w wd (fVDst w) ((List.range n).map val) c)) ∧
      VecWrote w (fVDst w) n (ceilDiv (n * wd) 8) c (vOut [] w wd (fVDst w) ((List.range n).map val) c) := by
  obtain ⟨els, hels⟩ : ∃ els, els = (List.range n).map val := ⟨_, rfl⟩
  have hlen : els.length = n := by rw [hels]; simp
  have hget : ∀ k, k < n → els.getD k 0 = val k := fun k hk => by rw [hels]; simp [hk]
  rw [← hels]
  unfold ElemsFit at hfit
  unfold ElemStands VecWrote
  cases h : fVDr w with
  | true =>
    rw [if_pos h] at hfit
    obtain ⟨hset, hkeep⟩ := vLane_lanesSet (fVDst w) c els (by omega)
    rw [vOut_registers h]
    simp only [if_true]
    refine ⟨fun k hk => (hset k (by omega)).trans (by rw [hget k hk]), ls_lanesSet _ _ c, fun r l hr hl hne => ?_⟩
    exact hkeep r l hr hl fun k hk => hne k (by omega)
  | false =>
    rw [if_neg (by simp [h])] at hfit
    have hbytes : (packElems wd els).length = ceilDiv (n * wd) 8 := by rw [length_packElems, hlen]
    rw [vOut_lines h]
    simp only [Bool.false_eq_true, if_false]
    refine ⟨fun k hk => ?_, (storeOnly_lsWrite _ _ _ _).vreg, fun a ha => ?_⟩
    · rw [← hget k hk, show 512 * fVDst w = 8 * (64 * fVDst w) by omega]
      refine bitsAt_packElems hwd (by omega) fun j hj => ?_
      rw [hlen] at hj
      rw [lsByte_lsWrite, if_pos (by omega), Nat.add_sub_cancel_left]
    · rw [lsByte_lsWrite, if_neg (by omega)]

/-- The issue of an instruction that stores elements `wd` bits wide. -/
theorem elemsWritten {i : Issue} {op w x rate lat wd : Nat} {f : (Nat → Byte) → List Nat → Core → Core} {val : Nat → Nat}
    {s t : State} (hf : Fetches i op w x s) (hwd : wd ≤ 32) (hfit : ElemsFit w wd (fVCnt w + 1))
    (ht : vecOp i w x rate lat f (issued i w s) = t)
    (hout : f (lsView s (getCore s i.core.lcid) []) [] (advanced i w (getCore s i.core.lcid)) =
      vOut [] w wd (fVDst w) ((vIdx w).map val) (advanced i w (getCore s i.core.lcid))) :
    Issued i w (i.cyc + ceilDiv (fVCnt w + 1) rate) (goesOn i s)
        [doneAt i w (i.cyc + ceilDiv (fVCnt w + 1) rate - 1 + lat)] noVec [] s t ∧
      (∀ k, k ≤ fVCnt w → ElemStands w wd k (val k) (getCore t i.core.lcid)) ∧
      VecWrote w (fVDst w) (fVCnt w + 1) (ceilDiv ((fVCnt w + 1) * wd) 8) (getCore s i.core.lcid)
        (getCore t i.core.lcid) := by
  obtain ⟨hiss, hls, hv⟩ := ht ▸ vecLeaves_vecOp (x := x) (rate := rate) (lat := lat) hf.can hf.acc hout (vecOnly_vOut ..)
  obtain ⟨hstand, hwrote⟩ := elems_vOut val (advanced i w (getCore s i.core.lcid)) hwd hfit
  exact ⟨hiss, fun k hk => (hstand k (Nat.lt_succ_of_le hk)).congr hls hv, hwrote.congr ⟨rfl, rfl⟩ ⟨hls, hv⟩⟩

/-! ### Descriptors and draws behind the issue (R85, R135) -/

theorem rdDesc_issued (i : Issue) (w : Nat) (s : State) :
    rdDesc (getCore (issued i w s) i.core.lcid) i.cyc = rdDesc (getCore s i.core.lcid) i.cyc := by
  rw [getCore_issued]
  rfl

theorem vDraw_issued (i : Issue) (w : Nat) (s : State) : vDraw (issued i w s) i = vDraw s i := by
  funext srt k
  unfold vDraw
  rw [jobSeed_issued, trainStep_issued]

/-! ### VCVT between formats (R133) -/

/-- Element `k` of a VCVT from format `sd` to `td`. -/
def vcvtElem (s : State) (i : Issue) (w x sd td : Nat) (rd : Nat → Byte) (c : Core) (k : Nat) : Nat :=
  convElem td (if dRnd td = 2 then vDraw s i (fVImm x) k else 0)
    (round32 (decodeElem sd (vIn rd c w (elemWidth sd) k)))

/-- VCVT under FN 0, of an input without a block scale. -/
theorem vcvtEff_issued {i : Issue} {w x sd td : Nat} {s : State} (hfn : fVFn w = 0)
    (hsd : rdDesc (getCore s i.core.lcid) i.cyc (fVId x) = sd) (htd : rdDesc (getCore s i.core.lcid) i.cyc (fVOd x) = td)
    (hblock : dBlock sd = 0) :
    vcvtEff i w x (issued i w s) = vecOp i w x 16 4 (fun rd lost c =>
      vOut lost w (elemWidth td) (fVDst w) ((vIdx w).map (vcvtElem s i w x sd td rd c)) c) (issued i w s) := by
  unfold vcvtEff vcvtElem
  simp only [rdDesc_issued, vDraw_issued, hsd, htd, hfn, decodeScaled, hblock, if_true]

/-! ### A tile (R126, R127) -/

/-- The lines of a tile, and its trailer behind them. -/
def tileStored (lost : List Nat) (base wd : Nat) (els : List Nat) (trailer : List Byte) (c : Core) : Core :=
  lsWrite lost (lsWrite lost c base (packElems wd els)) (base + 128 * wd) trailer

theorem storeOnly_tileStored (lost : List Nat) (base wd : Nat) (els : List Nat) (trailer : List Byte) (c : Core) :
    StoreOnly c (tileStored lost base wd els trailer c) :=
  (storeOnly_lsWrite _ _ _ _).trans (storeOnly_lsWrite _ _ _ _)

theorem lsByte_tileStored {base wd : Nat} {els : List Nat} {trailer : List Byte} (hn : els.length ≤ 1024)
    (htr : trailer.length = 64) (hfit : base + (128 * wd + 64) ≤ lsBytes) (c : Core) :
    (∀ j, j < ceilDiv (els.length * wd) 8 →
        lsByte (tileStored [] base wd els trailer c) (base + j) = (packElems wd els).getD j 0) ∧
      (∀ j, j < 64 → lsByte (tileStored [] base wd els trailer c) (base + 128 * wd + j) = trailer.getD j 0) ∧
      ∀ a, (a < base ∨ base + (128 * wd + 64) ≤ a) → lsByte (tileStored [] base wd els trailer c) a = lsByte c a := by
  have hlen : (packElems wd els).length = ceilDiv (els.length * wd) 8 := length_packElems wd els
  have hlines : ceilDiv (els.length * wd) 8 ≤ 128 * wd := by
    have := Nat.mul_le_mul_right wd hn
    unfold ceilDiv
    omega
  refine ⟨fun j hj => ?_, fun j hj => ?_, fun a ha => ?_⟩ <;> rw [tileStored, lsByte_lsWrite]
  · rw [if_neg (by omega), lsByte_lsWrite, if_pos (by omega), Nat.add_sub_cancel_left]
  · rw [if_pos (by omega), Nat.add_sub_cancel_left]
  · rw [if_neg (by omega), lsByte_lsWrite, if_neg (by omega)]

theorem length_trailerBytes (scs : List (Nat × Nat)) : (vqntEff.trailerBytes scs).length = 64 := by
  simp [vqntEff.trailerBytes]

/-- The scale at a place of the trailer, of which all its elements say the same. -/
theorem getD_trailerBytes {scs : List (Nat × Nat)} {e : Nat × Nat} (he : e ∈ scs) (hplace : e.1 < 64)
    (hsame : ∀ e' ∈ scs, e'.1 = e.1 → e'.2 = e.2) : (vqntEff.trailerBytes scs).getD e.1 0 = BitVec.ofNat 8 e.2 := by
  unfold vqntEff.trailerBytes
  rw [List.getD_eq_getElem _ _ (by simpa using hplace), List.getElem_map, List.getElem_range]
  split
  · next e' hfind =>
    exact congrArg (BitVec.ofNat 8) (hsame e' (List.mem_of_find?_eq_some hfind) (by simpa using List.find?_some hfind))
  · next hfind => exact absurd (beq_self_eq_true e.1) (List.find?_eq_none.mp hfind e he)

/-! ### VQNT along the line (R134) -/

/-- The place of a scale whose blocks run along the line. -/
theorem scaleIndex_along {d : Nat} (hb : blockSize d = 16 ∨ blockSize d = 32) (hdir : dDir d = 0) (k : Nat) :
    scaleIndex d (k / 32) (k % 32) = k / blockSize d := by
  have hmin : min (blockSize d) 32 = blockSize d := by omega
  unfold scaleIndex
  dsimp only
  rw [if_pos hdir, hmin]
  rcases hb with hb | hb <;> rw [hb] <;> omega

theorem tileBytes_of_block {d : Nat} (hb : blockSize d = 16 ∨ blockSize d = 32) : tileBytes d = 128 * elemWidth d + 64 := by
  have hne : dBlock d ≠ 0 := fun h0 => by simp [blockSize, h0] at hb
  rw [tileBytes, if_neg hne]

/-- The elements of blocks of `b`, one block after another. -/
def blockElem (b : Nat) (blk : Nat → Nat × List Nat) (k : Nat) : Nat := (blk (k / b)).2.getD (k % b) 0

/-- The scale of element `k`, with its place in the trailer. -/
def blockScaleAt (b : Nat) (blk : Nat → Nat × List Nat) (k : Nat) : Nat × Nat := (k / b, (blk (k / b)).1)

/-- The tile of the first `n` elements of blocks along the line. -/
def blocksStored (lost : List Nat) (d base n : Nat) (blk : Nat → Nat × List Nat) (c : Core) : Core :=
  tileStored lost base (elemWidth d) ((List.range n).map (blockElem (blockSize d) blk))
    (vqntEff.trailerBytes ((List.range n).map (blockScaleAt (blockSize d) blk))) c

theorem blocksStored_reads {d base n : Nat} (blk : Nat → Nat × List Nat) (c : Core)
    (hb : blockSize d = 16 ∨ blockSize d = 32) (hdir : dDir d = 0) (hn : n ≤ 1024) (hfit : base + tileBytes d ≤ lsBytes) :
    (∀ k, k < n →
      elemAt (lsByte (blocksStored [] d base n blk c)) d base (k / 32) (k % 32) =
        blockElem (blockSize d) blk k % 2 ^ elemWidth d ∧
      scaleAt (lsByte (blocksStored [] d base n blk c)) d base (k / 32) (k % 32) = (blk (k / blockSize d)).1 % 256) ∧
    ∀ a, (a < base ∨ base + tileBytes d ≤ a) → lsByte (blocksStored [] d base n blk c) a = lsByte c a := by
  rw [tileBytes_of_block hb] at hfit ⊢
  have hlen : ((List.range n).map (blockElem (blockSize d) blk)).length = n := by simp
  obtain ⟨hlines, htrailer, hkeep⟩ := lsByte_tileStored (els := (List.range n).map (blockElem (blockSize d) blk))
    (by rw [hlen]; exact hn) (length_trailerBytes ((List.range n).map (blockScaleAt (blockSize d) blk))) hfit c
  refine ⟨fun k hk => ⟨?_, ?_⟩, hkeep⟩
  · rw [elemAt, Nat.div_add_mod]
    exact (bitsAt_packElems (elemWidth_le d) (hk.trans_eq hlen.symm) hlines).trans (by simp [hk])
  · have hplace : k / blockSize d < 64 := by rcases hb with hb | hb <;> rw [hb] <;> omega
    have hscale := getD_trailerBytes (scs := (List.range n).map (blockScaleAt (blockSize d) blk))
      (e := blockScaleAt (blockSize d) blk k) (List.mem_map_of_mem (List.mem_range.mpr hk)) hplace ?_
    · rw [scaleAt, scaleIndex_along hb hdir]
      exact (congrArg BitVec.toNat ((htrailer _ hplace).trans hscale)).trans (BitVec.toNat_ofNat _ _)
    · intro e' he' hkey
      obtain ⟨k', _, rfl⟩ := List.mem_map.mp he'
      exact congrArg (fun j => (blk j).1) hkey

/-- Block `j` of a VQNT of consecutive elements. -/
def vqntBlock (s : State) (i : Issue) (w x d : Nat) (rd : Nat → Byte) (c : Core) (j : Nat) : Nat × List Nat :=
  let ks := ((List.range (blockSize d)).map (j * blockSize d + ·)).filter fun k => decide (k < fVCnt w + 1)
  quantBlock d (ks.map fun k => if dRnd d = 2 then vDraw s i (fVImm x / 2 ^ 12 % 2 ^ 20) k else 0)
    (ks.map fun k => val32 (vInF rd c w k))

/-- Every element lies in one of the blocks that are formed. -/
theorem getD_blocks {n b k : Nat} (blk : Nat → Nat × List Nat) (hb : 0 < b) (hk : k < n) :
    ((List.range (ceilDiv n b)).map blk).getD (k / b) (0, []) = blk (k / b) := by
  have hin : k / b < ceilDiv n b := by
    unfold ceilDiv
    rw [Nat.lt_iff_add_one_le, ← Nat.add_div_right k hb]
    exact Nat.div_le_div_right (by omega)
  simp [hin]

/-- A tile of one K-tile holds every element. -/
theorem vqntPlace_one {k : Nat} (hk : k < 1024) : vqntPlace 1 k = (0, k / 32, k % 32) ∧ k / 32 % 32 = k / 32 := by
  refine ⟨?_, by omega⟩
  rw [vqntPlace, Nat.mod_one]

/-- VQNT of blocks along the line, in the lines of one tile. -/
theorem vqntEff_issued {i : Issue} {w x d : Nat} {s : State} (hd : rdDesc (getCore s i.core.lcid) i.cyc (fVOd x) = d)
    (hb : blockSize d = 16 ∨ blockSize d = 32) (hdir : dDir d = 0) (hdr : fVDr w = false) (hn : fVCnt w + 1 ≤ 1024) :
    vqntEff i w x (issued i w s) = vecOp i w x 16 4 (fun rd lost c =>
      blocksStored lost d (64 * fVDst w) (fVCnt w + 1) (vqntBlock s i w x d rd c) c) (issued i w s) := by
  have hone : max 1 (blockSize d / 32) = 1 := by omega
  have hpos : 0 < blockSize d := by omega
  have hmax : max 1 (blockSize d) = blockSize d := Nat.max_eq_right hpos
  have hidx : ∀ k ∈ vIdx w, k < fVCnt w + 1 := fun k hk => List.mem_range.mp hk
  have hmine : ((vIdx w).filter fun k => (vqntPlace 1 k).1 == 0) = vIdx w :=
    List.filter_eq_self.mpr fun k hk => by rw [(vqntPlace_one ((hidx k hk).trans_le hn)).1]; rfl
  unfold vqntEff vqntEff.issueDescV
  dsimp only
  rw [rdDesc_issued, vDraw_issued, hd]
  refine congrArg (fun f => vecOp i w x 16 4 f (issued i w s)) (funext fun rd => funext fun lost => funext fun c => ?_)
  rw [if_neg hpos.ne', if_neg (by simp [hdr]), hone, hmax, List.range_one, List.foldl_cons,
    List.foldl_nil, hmine, Nat.zero_mul, Nat.add_zero]
  refine congrArg₂ (fun els scs => tileStored lost (64 * fVDst w) (elemWidth d) els (vqntEff.trailerBytes scs) c)
    (List.map_congr_left fun k hk => ?_) (List.map_congr_left fun k hk => ?_)
  · exact congrArg (fun b => b.2.getD (k % blockSize d) 0) (getD_blocks (vqntBlock s i w x d rd c) hpos (hidx k hk))
  · obtain ⟨hplace, hline⟩ := vqntPlace_one ((hidx k hk).trans_le hn)
    rw [hplace, hline, scaleIndex_along hb hdir]
    exact congrArg (fun b => (k / blockSize d, b.1)) (getD_blocks (vqntBlock s i w x d rd c) hpos (hidx k hk))

theorem vecLeaves_vqntEff {i : Issue} {op w x d : Nat} {s : State} (hf : Fetches i op w x s)
    (hd : rdDesc (getCore s i.core.lcid) i.cyc (fVOd x) = d) (hb : blockSize d = 16 ∨ blockSize d = 32) (hdir : dDir d = 0)
    (hdr : fVDr w = false) (hn : fVCnt w + 1 ≤ 1024) :
    VecLeaves i w (ceilDiv (fVCnt w + 1) 16) 4
      (blocksStored [] d (64 * fVDst w) (fVCnt w + 1)
        (vqntBlock s i w x d (lsView s (getCore s i.core.lcid) []) (getCore s i.core.lcid)) (advanced i w (getCore s i.core.lcid)))
      s (vqntEff i w x (issued i w s)) := by
  rw [vqntEff_issued hd hb hdir hdr hn]
  exact vecLeaves_vecOp hf.can hf.acc rfl (storeOnly_tileStored ..).vecOnly

/-! ### O23 -/

/-- Settles O23: VCVT by `elemsWritten`, VQNT by what `blocksStored_reads` reads of its tile. -/
theorem vectorConversionsWriteTheirFormats : Obligations.VectorConversionsWriteTheirFormats := by
  refine ⟨?_, ?_⟩
  · intro i w x s hf hfn
    dsimp only
    intro hblock hfit
    exact ⟨_, congrArg Host.Outcome.next (issueOp_two hf rfl (vcvtEff i)),
      elemsWritten hf (elemWidth_le _) hfit (vcvtEff_issued hfn rfl rfl hblock).symm rfl⟩
  · intro i w x s hf
    dsimp only
    intro hb hdir hdr hn hfit
    obtain ⟨hiss, hls, hv⟩ := vecLeaves_vqntEff hf rfl hb hdir hdr hn
    obtain ⟨hread, hkeep⟩ := blocksStored_reads
      (vqntBlock s i w x _ (lsView s (getCore s i.core.lcid) []) (getCore s i.core.lcid))
      (advanced i w (getCore s i.core.lcid)) hb hdir hn hfit
    have hbyte := funext (lsByte_congr hls)
    refine ⟨_, congrArg Host.Outcome.next (issueOp_two hf rfl (vqntEff i)), hiss, hv.trans (storeOnly_tileStored ..).vreg,
      fun k hk => ?_, fun a ha => (congrFun hbyte a).trans (hkeep a ha)⟩
    rw [hbyte]
    exact hread k hk

end Sys2Proof.Machine
end

section
/-! What the instructions of the matrix path share: accesses that meet nothing, tiles within the local store, ranges of
steps that each write their own places, and an issue that holds its engine (R83, R125 to R127, R151). -/

namespace Sys2Proof.Machine

/-! ### Accesses that meet nothing (Table 5.5) -/

theorem feederLost_nil {i : Issue} (h : i.acc = []) (s : State) : feederLost s i.acc = [] := by
  unfold feederLost
  rw [h]
  split <;> rfl

theorem orStall_nil {i : Issue} (h : i.acc = []) (w x first : Nat) (eff : State → State) (s : State) :
    orStall i w x first eff s = eff s := by
  have hdisp : displaced i s = false := by unfold displaced; rw [h]; exact Bool.and_false _
  unfold orStall
  rw [if_neg (by simp [hdisp]), chargeAcc_nil h]

theorem elemLost_nil (d t q p : Nat) : elemLost [] d t q p = false := by simp [elemLost]

/-! ### An instruction of one word -/

theorem issueOp_one {i : Issue} {op w x : Nat} {s : State} (h : Fetches i op w x s) (h1 : twoWord op = false)
    (eff : Nat → Nat → State → State) : issueOp i op eff s = eff w 0 (issued i w s) := by
  rw [issueOp_of_fetches h, if_neg (by simp [h1])]

/-! ### Fields of a word -/

theorem bitsOf_lt (w lo len : Nat) : bitsOf w lo len < 2 ^ len := Nat.mod_lt _ (Nat.two_pow_pos len)

/-! ### Tiles within the local store (R125 to R127) -/

/-- Two readings agree on the bytes of a tile. -/
def SameTile (d t : Nat) (rd rd' : Nat → Byte) : Prop := ∀ b, t ≤ b → b < t + tileBytes d → rd b = rd' b

theorem sameTile_lsView {d t : Nat} (h : tileOver d t = false) (s : State) (c : Core) :
    SameTile d t (lsView s c []) (lsByte c) := by
  intro b _ hb
  have hin : b < lsBytes := by
    unfold tileOver at h
    have := of_decide_eq_false h
    omega
  exact if_neg (by simpa using hin)

theorem bitsAt_congr {rd rd' : Nat → Byte} {a w : Nat} (hw : w ≤ 32)
    (h : ∀ b, a / 8 ≤ b → 8 * b < a + w → rd b = rd' b) : bitsAt rd a w = bitsAt rd' a w := by
  refine Nat.eq_of_testBit_eq fun i => ?_
  by_cases hi : i < w
  · rw [testBit_bitsAt hw hi, testBit_bitsAt hw hi, h _ (by omega) (by omega)]
  · rw [bitsAt, bitsAt, Nat.testBit_mod_two_pow, Nat.testBit_mod_two_pow, decide_eq_false hi, Bool.false_and,
      Bool.false_and]

theorem scaleIndex_lt (d : Nat) {q p : Nat} (hq : q < 32) (hp : p < 32) : scaleIndex d q p < 64 := by
  have hmin : min (blockSize d) 32 = 0 ∨ min (blockSize d) 32 = 16 ∨ min (blockSize d) 32 = 32 := by
    unfold blockSize
    split <;> decide
  unfold scaleIndex
  dsimp only
  generalize min (blockSize d) 32 = m at hmin
  rcases hmin with rfl | rfl | rfl <;> split <;> omega

section
variable {rd rd' : Nat → Byte} {d t q p : Nat}

theorem elemAt_congr (h : SameTile d t rd rd') (hq : q < 32) (hp : p < 32) : elemAt rd d t q p = elemAt rd' d t q p := by
  have hend : (32 * q + p + 1) * elemWidth d ≤ 1024 * elemWidth d := Nat.mul_le_mul_right _ (by omega)
  rw [Nat.succ_mul] at hend
  refine bitsAt_congr (elemWidth_le d) fun b hlo hhi => h b (by omega) ?_
  unfold tileBytes
  omega

theorem scaleAt_congr (h : SameTile d t rd rd') (hb : dBlock d ≠ 0) (hq : q < 32) (hp : p < 32) :
    scaleAt rd d t q p = scaleAt rd' d t q p := by
  have hplace := scaleIndex_lt d hq hp
  exact congrArg BitVec.toNat (h _ (by omega) (by rw [tileBytes, if_neg hb]; omega))

theorem tileVal_congr (h : SameTile d t rd rd') (hq : q < 32) (hp : p < 32) : tileVal rd d t q p = tileVal rd' d t q p := by
  unfold tileVal
  rw [elemAt_congr h hq hp]
  by_cases hb : dBlock d = 0
  · rw [decodeScaled, decodeScaled, if_pos hb, if_pos hb]
  · rw [scaleAt_congr h hb hq hp]

end

/-! ### Steps that each write their own places -/

section
variable {γ β : Type} {rd : γ → Nat → β} {Inv : γ → Prop} {c : γ} {n : Nat}

/-- Of the steps of a range each writes places that no other writes: what such a place reads as is what its own step
made of it, and every other place reads as before. -/
theorem foldl_range_reads {step : γ → Nat → γ} {W : Nat → Nat → Prop} (hc : Inv c)
    (hinv : ∀ d a, a < n → Inv d → Inv (step d a))
    (hkeep : ∀ d a k, a < n → Inv d → ¬ W a k → rd (step d a) k = rd d k)
    (hapart : ∀ a b k, a < b → b < n → W a k → ¬ W b k) :
    Inv ((List.range n).foldl step c) ∧
      (∀ a k, a < n → W a k →
        ∃ d, Inv d ∧ rd d k = rd c k ∧ rd ((List.range n).foldl step c) k = rd (step d a) k) ∧
      ∀ k, (∀ a, a < n → ¬ W a k) → rd ((List.range n).foldl step c) k = rd c k := by
  induction n with
  | zero => exact ⟨hc, fun a k ha => absurd ha (Nat.not_lt_zero a), fun _ _ => rfl⟩
  | succ n ih =>
    obtain ⟨hi, hown, hrest⟩ := ih (fun d a ha => hinv d a (by omega)) (fun d a k ha => hkeep d a k (by omega))
      fun a b k hab hb => hapart a b k hab (by omega)
    rw [List.range_succ, List.foldl_append, List.foldl_cons, List.foldl_nil]
    refine ⟨hinv _ n (Nat.lt_succ_self n) hi, fun a k ha hw => ?_, fun k hk => ?_⟩
    · rcases Nat.lt_succ_iff_lt_or_eq.mp ha with ha | rfl
      · obtain ⟨d, hd, hbefore, hafter⟩ := hown a k ha hw
        have hlast := hkeep _ n k (Nat.lt_succ_self n) hi (hapart a n k ha (Nat.lt_succ_self n) hw)
        exact ⟨d, hd, hbefore, hlast.trans hafter⟩
      · exact ⟨_, hi, hrest k fun b hb hwb => hapart b a k hb (Nat.lt_succ_self a) hwb hw, rfl⟩
    · rw [hkeep _ n k (Nat.lt_succ_self n) hi (hk n (Nat.lt_succ_self n))]
      exact hrest k fun a ha => hk a (by omega)

/-- Cells written row by row, each at a key of its own. -/
theorem foldl_cells_reads {m : Nat} {row : γ → Nat → γ} {cell : Nat → γ → Nat → γ} {key : Nat → Nat → Nat}
    {val : Nat → Nat → β → β} (hc : Inv c) (hinvRow : ∀ d a, Inv d → Inv (row d a))
    (hrow : ∀ d a k, Inv d → rd (row d a) k = rd ((List.range n).foldl (cell a) d) k)
    (hinv : ∀ d a b, Inv d → Inv (cell a d b))
    (hcell : ∀ d a b k, Inv d → rd (cell a d b) k = if k = key a b then val a b (rd d k) else rd d k)
    (hkey : ∀ a b a' b', a < m → b < n → a' < m → b' < n → key a b = key a' b' → a = a' ∧ b = b') :
    Inv ((List.range m).foldl row c) ∧
      (∀ a b, a < m → b < n → rd ((List.range m).foldl row c) (key a b) = val a b (rd c (key a b))) ∧
      ∀ k, (∀ a b, a < m → b < n → k ≠ key a b) → rd ((List.range m).foldl row c) k = rd c k := by
  have hcells : ∀ d a, a < m → Inv d →
      (∀ b, b < n → rd (row d a) (key a b) = val a b (rd d (key a b))) ∧
      ∀ k, (∀ b, b < n → k ≠ key a b) → rd (row d a) k = rd d k := by
    intro d a ha hd
    obtain ⟨_, hown, hrest⟩ := foldl_range_reads (rd := rd) (n := n) (W := fun b k => k = key a b) hd
      (fun e b _ => hinv e a b) (fun e b k _ he hk => by rw [hcell e a b k he, if_neg hk])
      fun b b' k hb hb' hk hk' => hb.ne (hkey a b a b' ha (hb.trans hb') ha hb' (hk.symm.trans hk')).2
    refine ⟨fun b hb => ?_, fun k hk => (hrow d a k hd).trans (hrest k fun b hb => hk b hb)⟩
    obtain ⟨e, he, hbefore, hafter⟩ := hown b _ hb rfl
    rw [hrow d a _ hd, hafter, hcell e a b _ he, if_pos rfl, hbefore]
  obtain ⟨hi, hown, hrest⟩ := foldl_range_reads (rd := rd) (step := row) (n := m)
    (W := fun a k => ∃ b, b < n ∧ k = key a b) hc (fun d a _ => hinvRow d a)
    (fun d a k ha hd hk => (hcells d a ha hd).2 k fun b hb he => hk ⟨b, hb, he⟩)
    fun a a' k haa' ha' ⟨b, hb, hk⟩ ⟨b', hb', hk'⟩ =>
      haa'.ne (hkey a b a' b' (haa'.trans ha') hb ha' hb' (hk.symm.trans hk')).1
  refine ⟨hi, fun a b ha hb => ?_, fun k hk => hrest k fun a ha ⟨b, hb, he⟩ => hk a b ha hb he⟩
  obtain ⟨d, hd, hbefore, hafter⟩ := hown a _ ha ⟨b, hb, rfl⟩
  rw [hafter, (hcells d a ha hd).1 b hb, hbefore]

end

/-! ### An issue that holds its engine (R83) -/

/-- An instruction that makes `f` of its core, holds its engine `n` cycles and completes in cycle `due`. -/
theorem issued_busied {i : Issue} {w n due : Nat} {hide f : Core → Core} {s t : State} (hs : canIssue s i = true)
    (h : CoreStep i.core.lcid (busied i w n due ∘ f) (issued i w s) t)
    (hengs : (f (advanced i w (getCore s i.core.lcid))).engs = (advanced i w (getCore s i.core.lcid)).engs)
    (houtst : (f (advanced i w (getCore s i.core.lcid))).outst = (advanced i w (getCore s i.core.lcid)).outst)
    (hhide : hide (bare (f (advanced i w (getCore s i.core.lcid)))) =
      hide (bare (advanced i w (getCore s i.core.lcid)))) :
    Issued i w (i.cyc + n) (goesOn i s) [doneAt i w due] hide [] s t := by
  obtain ⟨hbout, _⟩ := busied_keeps i w n due (f (advanced i w (getCore s i.core.lcid)))
  refine .of_step h ?_ (fun e he => ?_) ?_ ?_ <;> rw [Function.comp]
  · rw [getEng_busied, getEng_of_engs hengs, getEng_advanced_same]
    exact advancedEng_running w hs (i.cyc + n)
  · rw [getEng_busied_other _ _ _ _ _ he, getEng_of_engs hengs, getEng_advanced_other _ _ _ he]
  · rw [hbout, houtst, outst_advanced]
  · rw [bare_busied, hhide, bare_advanced]

theorem coreStep_busied (i : Issue) (w n due : Nat) (s : State) :
    CoreStep i.core.lcid (busied i w n due) s (completes i w due (holdFor i n s)) :=
  (coreStep_updCore _ _ s).trans (coreStep_updCore _ _ _)

theorem issueDesc_issued (i : Issue) (w : Nat) (s : State) :
    issueDesc i (issued i w s) = rdDesc (getCore s i.core.lcid) i.cyc := rdDesc_issued i w s

/-- An array engine's number is one of two. -/
theorem arrNo_lt (i : Issue) : arrNo i < 2 := by
  unfold arrNo
  split <;> decide

end Sys2Proof.Machine
end

section
/-! Weight sets: LDW, SWW, and O18 (R144, R145, R150). -/

namespace Sys2Proof.Machine

/-! ### The sets of the arrays -/

theorem shSet_setSh_of_lt {n q : Nat} (hn : n < 2) (hq : q < 2) (v : WSet) (c : Core) :
    shSet (setSh n v c) q = if q = n then v else shSet c q := by
  unfold shSet setSh
  interval_cases n <;> interval_cases q <;> rfl

theorem sets_swapSets {n q : Nat} (hn : n < 2) (hq : q < 2) (c : Core) :
    actSet (swapSets n c) q = (if q = n then shSet c q else actSet c q) ∧
      shSet (swapSets n c) q = (if q = n then actSet c q else shSet c q) := by
  unfold actSet shSet swapSets
  interval_cases n <;> interval_cases q <;> exact ⟨rfl, rfl⟩

/-- A set loaded in the shadow of its array, in paired mode in both. -/
def ldwFilled (n : Nat) (v : WSet) (c : Core) : Core := if c.paired then setSh 1 v (setSh 0 v c) else setSh n v c

/-- The sets of an array exchanged, in paired mode those of both. -/
def swwSwapped (n : Nat) (c : Core) : Core := if c.paired then swapSets 1 (swapSets 0 c) else swapSets n c

theorem shSet_ldwFilled {n q : Nat} (hn : n < 2) (hq : q < 2) (v : WSet) (c : Core) :
    shSet (ldwFilled n v c) q = if q = n ∨ c.paired = true then v else shSet c q := by
  unfold ldwFilled
  cases c.paired with
  | true =>
    rw [if_pos rfl, if_pos (.inr rfl), shSet_setSh_of_lt (by decide) hq, shSet_setSh_of_lt (by decide) hq]
    interval_cases q <;> rfl
  | false =>
    rw [if_neg (by decide), shSet_setSh_of_lt hn hq]
    simp

theorem sets_swwSwapped {n q : Nat} (hn : n < 2) (hq : q < 2) (c : Core) :
    if q = n ∨ c.paired = true then actSet (swwSwapped n c) q = shSet c q ∧ shSet (swwSwapped n c) q = actSet c q
    else actSet (swwSwapped n c) q = actSet c q ∧ shSet (swwSwapped n c) q = shSet c q := by
  unfold swwSwapped
  cases c.paired with
  | true =>
    rw [if_pos (.inr rfl), if_pos rfl]
    obtain ⟨hact0, hsh0⟩ := sets_swapSets (n := 0) (by decide) hq c
    obtain ⟨hact1, hsh1⟩ := sets_swapSets (n := 1) (by decide) hq (swapSets 0 c)
    rw [hact1, hsh1, hact0, hsh0]
    interval_cases q <;> exact ⟨rfl, rfl⟩
  | false =>
    obtain ⟨hact, hsh⟩ := sets_swapSets hn hq c
    rw [if_neg (show ¬ false = true by decide), hact, hsh]
    by_cases hqn : q = n <;> simp [hqn]

/-- What the fill and the exchange leave of their core. -/
theorem ldwFilled_leaves (n : Nat) (v : WSet) (c : Core) :
    (ldwFilled n v c).engs = c.engs ∧ (ldwFilled n v c).outst = c.outst ∧
      { bare (ldwFilled n v c) with sh0 := wset0, sh1 := wset0 } = { bare c with sh0 := wset0, sh1 := wset0 } := by
  unfold ldwFilled setSh
  split <;> split <;> exact ⟨rfl, rfl, rfl⟩

theorem swwSwapped_leaves (n : Nat) (c : Core) :
    (swwSwapped n c).engs = c.engs ∧ (swwSwapped n c).outst = c.outst ∧
      { bare (swwSwapped n c) with act0 := wset0, sh0 := wset0, act1 := wset0, sh1 := wset0 } =
        { bare c with act0 := wset0, sh0 := wset0, act1 := wset0, sh1 := wset0 } := by
  unfold swwSwapped swapSets
  split <;> split <;> exact ⟨rfl, rfl, rfl⟩

/-! ### A set as its feeder fills it (R144) -/

/-- Address of the tile that holds k of a column. -/
def ldwTile (w k : Nat) : Nat := 64 * if k < 32 then fLdwB w else fLdwB2 w

/-- A cell filled. -/
def cellFilled (rd : Nat → Byte) (d w col : Nat) (v : WSet) (k : Nat) : WSet :=
  { v with
    elems := smSet 0 v.elems (64 * col + k) (elemAt rd d (ldwTile w k) (8 * fLdwF w + col) (k % 32)),
    scales := smSet 0 v.scales (64 * col + k)
      (if dBlock d = 0 then 0 else scaleAt rd d (ldwTile w k) (8 * fLdwF w + col) (k % 32)) }

/-- A column filled. -/
def colFilled (rd : Nat → Byte) (d w : Nat) (v : WSet) (col : Nat) : WSet :=
  (List.range (fLdwK w + 1)).foldl (cellFilled rd d w col) v

theorem loadSet_nil (rd : Nat → Byte) (d w full : Nat) :
    loadSet rd [] d w full = (List.range (fLdwN w + 1)).foldl (colFilled rd d w)
      { elems := [], scales := [], desc := d, kext := fLdwK w + 1, full := some full } := by
  unfold loadSet colFilled
  simp only [elemLost_nil, Bool.false_eq_true, if_false, List.foldl_flatMap, List.foldl_map]
  rfl

/-- The cells within the extents hold their elements, every other cell holds zero. -/
theorem elems_loadSet (rd : Nat → Byte) (d w full : Nat) {col k : Nat} (hk : k < 64) :
    smGet 0 (loadSet rd [] d w full).elems (64 * col + k) =
      if col ≤ fLdwN w ∧ k ≤ fLdwK w then elemAt rd d (ldwTile w k) (8 * fLdwF w + col) (k % 32) else 0 := by
  have hext : fLdwK w < 64 := bitsOf_lt w 17 6
  obtain ⟨_, hown, hrest⟩ := foldl_cells_reads (rd := fun v : WSet => smGet 0 v.elems) (Inv := fun _ => True)
    (c := { elems := [], scales := [], desc := d, kext := fLdwK w + 1, full := some full })
    (m := fLdwN w + 1) (n := fLdwK w + 1) (row := colFilled rd d w) (cell := cellFilled rd d w)
    (key := fun col k => 64 * col + k) (val := fun col k _ => elemAt rd d (ldwTile w k) (8 * fLdwF w + col) (k % 32))
    trivial (fun _ _ _ => trivial) (fun _ _ _ _ => rfl) (fun _ _ _ _ => trivial)
    (fun v a b j _ => (smGet_smSet 0 v.elems _ j _).trans (if_congr eq_comm rfl rfl))
    (fun a b a' b' _ hb _ hb' h => by omega)
  rw [loadSet_nil]
  split
  · next h => exact hown col k (by omega) (by omega)
  · next h => exact hrest _ fun a b ha hb heq => h (by omega)

/-- A cell read of the local store: its tile lies within. -/
theorem elemAt_ldwTile {d w : Nat} (h : tileOver d (64 * fLdwB w) = false)
    (h2 : 32 ≤ fLdwK w → tileOver d (64 * fLdwB2 w) = false) (s : State) (c : Core) {col k : Nat} (hcol : col < 8)
    (hk : k ≤ fLdwK w) :
    elemAt (lsView s c []) d (ldwTile w k) (8 * fLdwF w + col) (k % 32) =
      elemAt (lsByte c) d (ldwTile w k) (8 * fLdwF w + col) (k % 32) := by
  have hfirst : fLdwF w < 4 := bitsOf_lt w 12 2
  have hover : tileOver d (ldwTile w k) = false := by
    unfold ldwTile
    split
    · exact h
    · exact h2 (by omega)
  exact elemAt_congr (sameTile_lsView hover s c) (by omega) (Nat.mod_lt _ (by decide))

/-! ### LDW (R144) -/

/-- The set that an LDW delivers. -/
def ldwSet (i : Issue) (w : Nat) (s : State) : WSet :=
  loadSet (lsView s (getCore s i.core.lcid) []) [] (rdDesc (getCore s i.core.lcid) i.cyc (fLdwD w)) w
    (i.cyc + loadCycles (rdDesc (getCore s i.core.lcid) i.cyc (fLdwD w)) w + 1)

/-- An LDW that delivers, its accesses clean. -/
theorem coreStep_ldwEff {i : Issue} {w x : Nat} {s : State} (hacc : i.acc = [])
    (hpair : (getCore s i.core.lcid).paired = true → arrNo i = 0)
    (hfree : anyDelivering (getCore s i.core.lcid) (arrNo i) i.cyc = false)
    (hin : tileOver (rdDesc (getCore s i.core.lcid) i.cyc (fLdwD w)) (64 * fLdwB w) = false)
    (hin2 : 32 ≤ fLdwK w → tileOver (rdDesc (getCore s i.core.lcid) i.cyc (fLdwD w)) (64 * fLdwB2 w) = false) :
    CoreStep i.core.lcid
      (completing i w (i.cyc + loadCycles (rdDesc (getCore s i.core.lcid) i.cyc (fLdwD w)) w) ∘
        ldwFilled (arrNo i) (ldwSet i w s)) (issued i w s) (ldwEff i w x (issued i w s)) := by
  have hdisp : displaced i (issued i w s) = false := by unfold displaced; rw [hacc]; exact Bool.and_false _
  have hfree' : anyDelivering (advanced i w (getCore s i.core.lcid)) (arrNo i) i.cyc = false := hfree
  have hpair' : ((advanced i w (getCore s i.core.lcid)).paired && arrNo i == 1) = false := by
    show ((getCore s i.core.lcid).paired && arrNo i == 1) = false
    cases hp : (getCore s i.core.lcid).paired with
    | true => rw [hpair hp]; rfl
    | false => rfl
  have hbeyond : (tileOver (rdDesc (getCore s i.core.lcid) i.cyc (fLdwD w)) (64 * fLdwB w) || (decide (32 ≤ fLdwK w) &&
      tileOver (rdDesc (getCore s i.core.lcid) i.cyc (fLdwD w)) (64 * fLdwB2 w))) = false := by
    rw [hin, Bool.false_or, Bool.and_eq_false_imp]
    exact fun h => hin2 (of_decide_eq_true h)
  have heq : ldwEff i w x (issued i w s) =
      completes i w (i.cyc + loadCycles (rdDesc (getCore s i.core.lcid) i.cyc (fLdwD w)) w)
        (updCore (issued i w s) i.core.lcid (ldwFilled (arrNo i) (ldwSet i w s))) := by
    unfold ldwEff ldwLoad
    dsimp only
    rw [getCore_issued, hpair', hfree', hdisp, issueDesc_issued, feederLost_nil hacc, lsView_issued, hbeyond,
      chargeAcc_nil hacc]
    rfl
  rw [heq]
  exact (coreStep_updCore _ _ _).trans (coreStep_completes _ _ _ _)

/-! ### SWW (R145) -/

/-- An engine that issues was not held, and is not. -/
theorem mmaHolds_advanced {i : Issue} {s : State} (hs : canIssue s i = true) (w n cyc : Nat) :
    mmaHolds (advanced i w (getCore s i.core.lcid)) n cyc = mmaHolds (getCore s i.core.lcid) n cyc := by
  unfold mmaHolds
  by_cases hn : n = i.eng.no
  · have hmode : (getEng (getCore s i.core.lcid) i.eng.no).mode = .running := mode_of_canIssue hs
    rw [hn, getEng_advanced_same, advancedEng, hmode]
    cases (getCore s i.core.lcid).lone <;> rfl
  · rw [getEng_advanced_other _ _ _ hn]
    rfl

/-- An SWW that finds its shadow set full. -/
theorem coreStep_swwEff {i : Issue} {w x : Nat} {s : State} (hs : canIssue s i = true)
    (hpair : (getCore s i.core.lcid).paired = true → arrNo i = 0 ∧ mmaHolds (getCore s i.core.lcid) 0 i.cyc = false ∧
      mmaHolds (getCore s i.core.lcid) 1 i.cyc = false ∧ setFull (getCore s i.core.lcid).sh1 i.cyc = true)
    (hfull : setFull (shSet (getCore s i.core.lcid) (arrNo i)) i.cyc = true) :
    CoreStep i.core.lcid (completing i w i.cyc ∘ swwSwapped (arrNo i)) (issued i w s) (swwEff i w x (issued i w s)) := by
  have hfull' : setFull (shSet (advanced i w (getCore s i.core.lcid)) (arrNo i)) i.cyc = true := hfull
  have heq : swwEff i w x (issued i w s) =
      completes i w i.cyc (updCore (issued i w s) i.core.lcid (swwSwapped (arrNo i))) := by
    unfold swwEff
    dsimp only
    rw [getCore_issued, mmaHolds_advanced hs, mmaHolds_advanced hs, hfull']
    show (if ((getCore s i.core.lcid).paired && _) = true then _ else
      if (true && (!(getCore s i.core.lcid).paired || setFull (getCore s i.core.lcid).sh1 i.cyc)) = true then _ else _) = _
    cases hp : (getCore s i.core.lcid).paired with
    | true =>
      obtain ⟨hn, h0, h1, hfull1⟩ := hpair hp
      rw [hn, h0, h1, hfull1]
      rfl
    | false => rfl
  rw [heq]
  exact (coreStep_updCore _ _ _).trans (coreStep_completes _ _ _ _)

/-! ### O18 -/

/-- Settles O18: LDW by the cells of `elems_loadSet`, SWW by `sets_swwSwapped`. -/
theorem weightLoadsFillTheShadowSetAndSwapsExchangeIt :
    Obligations.WeightLoadsFillTheShadowSetAndSwapsExchangeIt := by
  refine ⟨?_, ?_⟩
  · intro i w x s hf
    dsimp only
    intro hpair hfree hin hin2
    have hstep := coreStep_ldwEff (w := w) (x := 0) hf.acc hpair hfree hin hin2
    obtain ⟨hengs, houtst, hhide⟩ := ldwFilled_leaves (arrNo i) (ldwSet i w s) (advanced i w (getCore s i.core.lcid))
    have hset : ∀ q, q < 2 → shSet (getCore (ldwEff i w 0 (issued i w s)) i.core.lcid) q =
        if q = arrNo i ∨ (getCore s i.core.lcid).paired = true then ldwSet i w s else shSet (getCore s i.core.lcid) q := by
      intro q hq
      rw [hstep.core, getCore_issued]
      exact shSet_ldwFilled (arrNo_lt i) hq _ _
    obtain ⟨hdesc, hkext, hfull⟩ := loadSet_says (lsView s (getCore s i.core.lcid) []) []
      (rdDesc (getCore s i.core.lcid) i.cyc (fLdwD w)) w
      (i.cyc + loadCycles (rdDesc (getCore s i.core.lcid) i.cyc (fLdwD w)) w + 1)
    refine ⟨_, congrArg Host.Outcome.next (issueOp_one hf rfl (ldwEff i)),
      issued_core hf.can hstep hengs (congrArg (· ++ _) houtst) hhide, fun q hq hmine => ?_, fun hp => ?_⟩
    · rw [hset q hq, if_pos hmine]
      refine ⟨hdesc, hkext, hfull, fun col k hcol hk => ?_⟩
      refine (elems_loadSet _ _ w _ hk).trans (if_ctx_congr Iff.rfl (fun h => ?_) fun _ => rfl)
      exact elemAt_ldwTile hin hin2 s _ hcol h.2
    · have hn := arrNo_lt i
      exact (hset (1 - arrNo i) (by omega)).trans (if_neg (by simp [hp]; omega))
  · intro i w x s hf
    dsimp only
    intro hpair hfull
    have hstep := coreStep_swwEff (w := w) (x := 0) hf.can hpair hfull
    obtain ⟨hengs, houtst, hhide⟩ := swwSwapped_leaves (arrNo i) (advanced i w (getCore s i.core.lcid))
    refine ⟨_, congrArg Host.Outcome.next (issueOp_one hf rfl (swwEff i)),
      issued_core hf.can hstep hengs (congrArg (· ++ _) houtst) hhide, fun q hq => ?_⟩
    rw [hstep.core, getCore_issued]
    exact sets_swwSwapped (arrNo_lt i) hq (advanced i w (getCore s i.core.lcid))

end Sys2Proof.Machine
end

section
/-! Accumulations of the arrays: MMA, and O19 (R143, R146, R147, R153). -/

namespace Sys2Proof.Machine

/-! ### The accumulator file -/

/-- The cores differ in the accumulator file and its marks alone. -/
def AccOnly (c d : Core) : Prop :=
  d = { c with acc := d.acc, accOvf := d.accOvf, accReady := d.accReady, accInt := d.accInt }

theorem AccOnly.trans {c d e : Core} (h : AccOnly c d) (h' : AccOnly d e) : AccOnly c e := by
  unfold AccOnly at *
  rw [h']
  dsimp only
  rw [h]

theorem AccOnly.actSet {c d : Core} (h : AccOnly c d) (n : Nat) : actSet d n = actSet c n := by
  unfold AccOnly at h
  rw [h]
  rfl

/-- An accumulator element with its saturation bit. -/
def accAt (c : Core) (k : Nat) : Word × Bool := (smGet 0#32 c.acc k, smGet false c.accOvf k)

/-- An accumulator element written. -/
def accSet (c : Core) (k : Nat) (v : Word × Bool) : Core :=
  { c with acc := smSet 0#32 c.acc k v.1, accOvf := smSet false c.accOvf k v.2 }

theorem accAt_accSet (c : Core) (k j : Nat) (v : Word × Bool) :
    accAt (accSet c k v) j = if j = k then v else accAt c j := by
  unfold accAt accSet
  dsimp only
  rw [smGet_smSet, smGet_smSet]
  by_cases h : j = k
  · simp [h]
  · simp [h, Ne.symm h]

theorem accKey_inj {n r col r' col' s : Nat} (hr : r < 256) (hr' : r' < 256) (hcol : col < 8) (hcol' : col' < 8)
    (h : accKey n (s + r) col = accKey n (s + r') col') : r = r' ∧ col = col' := by
  unfold accKey at h
  omega

/-! ### One row (R143, R147) -/

/-- What row `j` makes of an accumulator element of column `col`. -/
def mmaCell (rd : Nat → Byte) (v : WSet) (da db cls w x j col : Nat) (a : Word × Bool) : Word × Bool :=
  let a0 : Word × Bool := if fMmaStart w then (0#32, false) else a
  if mmaBubble rd [] da (rowGroups cls) w x j then a0
  else mmaElem (intPath da db) ((List.range (rowGroups cls)).map fun g => mmaA rd da w x j g)
    ((List.range (rowGroups cls)).map fun g => setB32 v col g) a0

/-- A column of the row. -/
def mmaCol (rd : Nat → Byte) (n da db cls w x j : Nat) (c : Core) (col : Nat) : Core :=
  accSet c (accKey n (fMmaS w + j) col)
    (mmaCell rd (actSet c n) da db cls w x j col (accAt c (accKey n (fMmaS w + j) col)))

/-- The row's marks: when it is readable, and the path that fed it. -/
def rowMarked (n row ready : Nat) (int : Bool) (c : Core) : Core :=
  { c with accReady := smSet 0 c.accReady (accRowKey n row) ready, accInt := smSet false c.accInt (accRowKey n row) int }

theorem accOnly_rowMarked (n row ready : Nat) (int : Bool) (c : Core) : AccOnly c (rowMarked n row ready int c) := rfl

theorem accAt_rowMarked (n row ready : Nat) (int : Bool) (c : Core) : accAt (rowMarked n row ready int c) = accAt c := rfl

theorem accOnly_mmaCol (rd : Nat → Byte) (n da db cls w x j : Nat) (c : Core) (col : Nat) :
    AccOnly c (mmaCol rd n da db cls w x j c col) := rfl

theorem mmaRow_nil (rd : Nat → Byte) (n da db cls cyc w x : Nat) (c : Core) (j : Nat) :
    mmaRow rd [] n da db cls cyc w x c j =
      rowMarked n (fMmaS w + j) (cyc + j * rowCycles cls + rowCycles cls - 1 + 12) (intPath da db)
        ((List.range 8).foldl (mmaCol rd n da db cls w x j) c) := rfl

theorem accOnly_mmaRow (rd : Nat → Byte) (n da db cls cyc w x : Nat) (c : Core) (j : Nat) :
    AccOnly c (mmaRow rd [] n da db cls cyc w x c j) := by
  rw [mmaRow_nil]
  refine AccOnly.trans ?_ (accOnly_rowMarked ..)
  exact List.foldlRecOn _ _ (motive := AccOnly c) rfl fun d hd col _ => hd.trans (accOnly_mmaCol ..)

/-! ### Every row -/

/-- The rows of an MMA: each element of a row is what its row made of it, every other element stays. -/
theorem accAt_mmaRows (rd : Nat → Byte) (n da db cls cyc w x : Nat) (c : Core) :
    let e := (List.range (fMmaM w + 1)).foldl (mmaRow rd [] n da db cls cyc w x) c
    AccOnly c e ∧
      (∀ j col, j < fMmaM w + 1 → col < 8 → accAt e (accKey n (fMmaS w + j) col) =
        mmaCell rd (actSet c n) da db cls w x j col (accAt c (accKey n (fMmaS w + j) col))) ∧
      ∀ k, (∀ j col, j < fMmaM w + 1 → col < 8 → k ≠ accKey n (fMmaS w + j) col) → accAt e k = accAt c k := by
  have hrows : fMmaM w < 256 := bitsOf_lt w 12 8
  refine foldl_cells_reads (rd := accAt) (Inv := AccOnly c) (cell := mmaCol rd n da db cls w x)
    (key := fun j col => accKey n (fMmaS w + j) col) (val := fun j col => mmaCell rd (actSet c n) da db cls w x j col)
    rfl (fun d j hd => hd.trans (accOnly_mmaRow ..)) (fun d j k _ => by rw [mmaRow_nil, accAt_rowMarked])
    (fun d j col hd => hd.trans (accOnly_mmaCol ..)) ?_ ?_
  · intro d j col k hd
    rw [mmaCol, accAt_accSet, hd.actSet]
    exact if_ctx_congr Iff.rfl (fun h => by rw [h]) fun _ => rfl
  · intro j col j' col' hj hcol hj' hcol' h
    exact accKey_inj (by omega) (by omega) hcol hcol' h

/-! ### What the feeder reads (R146, R147) -/

theorem mmaBubble_congr {rd rd' : Nat → Byte} {w x j : Nat} (lost : List Nat) (da gs : Nat)
    (h : fMmaMask w = true → rd (64 * fMmaMline x + j / 8) = rd' (64 * fMmaMline x + j / 8)) :
    mmaBubble rd lost da gs w x j = mmaBubble rd' lost da gs w x j := by
  unfold mmaBubble
  cases hm : fMmaMask w with
  | true => rw [h hm]
  | false => rfl

theorem mmaA_congr {rd rd' : Nat → Byte} {d w x j g : Nat} (h : SameTile d (mmaTile w x j g) rd rd') :
    mmaA rd d w x j g = mmaA rd' d w x j g :=
  List.map_congr_left fun _ hk => tileVal_congr h (Nat.mod_lt _ (by decide)) (List.mem_range.mp hk)

/-- An MMA whose mask line and tiles lie within the store reads the store's bytes. -/
theorem mmaCell_lsView {da cls w x j : Nat} (hj : j ≤ fMmaM w) (hmask : fMmaMask w = true → fMmaMline x < lsLines)
    (htiles : ∀ g, g < rowGroups cls → tileOver da (mmaTile w x j g) = false) (s : State) (c : Core) (v : WSet)
    (db col : Nat) (a : Word × Bool) :
    mmaCell (lsView s c []) v da db cls w x j col a = mmaCell (lsByte c) v da db cls w x j col a := by
  have hrows : fMmaM w < 256 := bitsOf_lt w 12 8
  have hread : fMmaMask w = true →
      lsView s c [] (64 * fMmaMline x + j / 8) = lsByte c (64 * fMmaMline x + j / 8) := by
    intro hm
    have hline := hmask hm
    have hin : 64 * fMmaMline x + j / 8 < lsBytes := by unfold lsLines at hline; unfold lsBytes; omega
    exact if_neg (by simpa using hin)
  unfold mmaCell
  rw [mmaBubble_congr [] da (rowGroups cls) hread,
    List.map_congr_left fun g hg => mmaA_congr (sameTile_lsView (htiles g (List.mem_range.mp hg)) s c)]

/-! ### MMA -/

/-- The core as an instruction of a cycle finds it with every earlier FMT in force (R85). -/
def descsBy (cyc : Nat) (c : Core) : Core := if c.descCyc < cyc then descAt cyc c else c

theorem descsBy_advanced (i : Issue) (w cyc : Nat) (c : Core) :
    descsBy cyc (advanced i w c) = advanced i w (descsBy cyc c) := by
  show (if c.descCyc < cyc then (if c.descCyc = cyc then _ else _) else _) = _
  unfold descsBy descAt
  split
  · split <;> rfl
  · rfl

theorem descsBy_leaves (cyc : Nat) (c : Core) :
    (descsBy cyc c).engs = c.engs ∧ (descsBy cyc c).outst = c.outst ∧
      noDescs (bare (descsBy cyc c)) = noDescs (bare c) := by
  unfold descsBy
  split
  · obtain ⟨hengs, houtst, _, hhide⟩ := descAt_fields cyc c
    exact ⟨hengs, houtst, hhide⟩
  · exact ⟨rfl, rfl, rfl⟩

/-- The rows accumulated, and their engine's array held until a cycle. -/
def mmaDone (rd : Nat → Byte) (n da db cls cyc w x till : Nat) (c : Core) : Core :=
  let d := (List.range (fMmaM w + 1)).foldl (mmaRow rd [] n da db cls cyc w x) c
  { d with mmaUntil := smSet 0 d.mmaUntil n till }

/-- A core without the accumulator file, its marks and the descriptors. -/
def noAccs (c : Core) : Core :=
  { c with acc := [], accOvf := [], accReady := [], accInt := [], mmaUntil := [], desc := [],
           descCyc := 0, descNew := [], descBad := [], descWhen := [] }

theorem noAccs_of_noDescs {c d : Core} (h : noDescs c = noDescs d) : noAccs c = noAccs d := by
  have hsame : ∀ e, noAccs e = noAccs (noDescs e) := fun _ => rfl
  rw [hsame, h, ← hsame]

theorem mmaDone_leaves (rd : Nat → Byte) (n da db cls cyc w x till : Nat) (c : Core) :
    (mmaDone rd n da db cls cyc w x till c).engs = c.engs ∧ (mmaDone rd n da db cls cyc w x till c).outst = c.outst ∧
      noAccs (bare (mmaDone rd n da db cls cyc w x till c)) = noAccs (bare c) := by
  have honly := (accAt_mmaRows rd n da db cls cyc w x c).1
  unfold AccOnly at honly
  unfold mmaDone
  rw [honly]
  exact ⟨rfl, rfl, rfl⟩

theorem accAt_mmaDone (rd : Nat → Byte) (n da db cls cyc w x till : Nat) (c : Core) (k : Nat) :
    accAt (mmaDone rd n da db cls cyc w x till c) k =
      accAt ((List.range (fMmaM w + 1)).foldl (mmaRow rd [] n da db cls cyc w x) c) k := rfl

theorem accAt_busied (i : Issue) (w n due : Nat) (c : Core) : accAt (busied i w n due c) = accAt c := rfl

section
variable {i : Issue} {first w x da db cls : Nat} {s : State} {c : Core} (hacc : i.acc = [])
  (hc : descsBy i.cyc (getCore s i.core.lcid) = c) (hda : rdDesc c i.cyc (fMmaAD w) = da)
  (hdb : (actSet c (arrNo i)).desc = db) (hcls : rateClass da (rdDesc c i.cyc (fMmaBD w)) = cls)
  (hearly : ∀ j, j ≤ fMmaM w → mmaEarly c (arrNo i) cls i.cyc w j = false)
  (hmovedA : descMoved c first i.cyc (fMmaAD w) = false) (hmovedB : descMoved c first i.cyc (fMmaBD w) = false)
  (hmask : fMmaMask w = true → fMmaMline x < lsLines)
  (htiles : ∀ j g, j ≤ fMmaM w → g < rowGroups cls → tileOver da (mmaTile w x j g) = false)
include hacc hc hda hdb hcls hearly hmovedA hmovedB hmask htiles

/-- An MMA without a hazard, its accesses clean. -/
theorem coreStep_mmaEff :
    ∃ u, CoreStep i.core.lcid
      (busied i w ((fMmaM w + 1) * rowCycles cls) (i.cyc + (fMmaM w + 1) * rowCycles cls + 10) ∘
        (mmaDone (lsView u (advanced i w c) []) (arrNo i) da db cls i.cyc w x (i.cyc + (fMmaM w + 1) * rowCycles cls) ∘
          descsBy i.cyc)) (issued i w s) (mmaEff i first w x (issued i w s)) := by
  obtain ⟨u, hu⟩ : ∃ u, u = onCore i (descsBy i.cyc) (issued i w s) := ⟨_, rfl⟩
  have hstep : CoreStep i.core.lcid (descsBy i.cyc) (issued i w s) u := hu ▸ coreStep_updCore _ _ _
  have hcore : getCore u i.core.lcid = advanced i w c := by
    rw [hstep.core, getCore_issued, descsBy_advanced, hc]
  have hdesc : issueDesc i u = rdDesc c i.cyc := by
    unfold issueDesc
    rw [hcore]
    rfl
  have hset : (actSet (advanced i w c) (arrNo i)).desc = db := hdb
  have hnear : ∀ j ∈ List.range (fMmaM w + 1), j ≤ fMmaM w := fun j hj => Nat.lt_succ_iff.mp (List.mem_range.mp hj)
  have hrows : (List.range (fMmaM w + 1)).any (mmaEarly (advanced i w c) (arrNo i) cls i.cyc w) = false :=
    List.any_eq_false.mpr fun j hj => Bool.not_eq_true _ ▸ hearly j (hnear j hj)
  have hbeyond : ((fMmaMask w && decide (lsLines ≤ fMmaMline x)) || (List.range (fMmaM w + 1)).any fun j =>
      (List.range (rowGroups cls)).any fun g => tileOver da (mmaTile w x j g)) = false := by
    rw [Bool.or_eq_false_iff, Bool.and_eq_false_imp]
    refine ⟨fun hm => decide_eq_false (Nat.not_le.mpr (hmask hm)), List.any_eq_false.mpr fun j hj => ?_⟩
    simpa using fun g hg => htiles j g (hnear j hj) hg
  have heq : mmaEff i first w x (issued i w s) =
      completes i w (i.cyc + (fMmaM w + 1) * rowCycles cls + 10) (holdFor i ((fMmaM w + 1) * rowCycles cls)
        (updCore u i.core.lcid (mmaDone (lsView u (advanced i w c) []) (arrNo i) da db cls i.cyc w x
          (i.cyc + (fMmaM w + 1) * rowCycles cls)))) := by
    unfold mmaEff
    dsimp only
    rw [show onCore i (fun c => if c.descCyc < i.cyc then descAt i.cyc c else c) (issued i w s) = u from hu.symm, hcore,
      hdesc, hset, hda, hcls, hrows, show descMoved (advanced i w c) _ _ _ = false from hmovedA,
      show descMoved (advanced i w c) _ _ _ = false from hmovedB, orStall_nil hacc, feederLost_nil hacc, hbeyond]
    rfl
  rw [heq]
  exact ⟨u, (hstep.trans (coreStep_updCore _ _ _)).trans (coreStep_busied ..)⟩

/-- What an MMA leaves: its issue, the elements of its rows, and every other element as it stood. -/
theorem mmaEff_leaves (hs : canIssue s i = true) :
    Issued i w (i.cyc + (fMmaM w + 1) * rowCycles cls) (goesOn i s)
        [doneAt i w (i.cyc + (fMmaM w + 1) * rowCycles cls + 10)] noAccs [] s (mmaEff i first w x (issued i w s)) ∧
      (∀ j col, j ≤ fMmaM w → col < 8 →
        accAt (getCore (mmaEff i first w x (issued i w s)) i.core.lcid) (accKey (arrNo i) (fMmaS w + j) col) =
          mmaCell (lsByte c) (actSet c (arrNo i)) da db cls w x j col
            (accAt c (accKey (arrNo i) (fMmaS w + j) col))) ∧
      ∀ k, (∀ j col, j ≤ fMmaM w → col < 8 → k ≠ accKey (arrNo i) (fMmaS w + j) col) →
        accAt (getCore (mmaEff i first w x (issued i w s)) i.core.lcid) k = accAt c k := by
  obtain ⟨u, hstep⟩ := coreStep_mmaEff hacc hc hda hdb hcls hearly hmovedA hmovedB hmask htiles
  obtain ⟨rd, hrd⟩ : ∃ rd, rd = lsView u (advanced i w c) [] := ⟨_, rfl⟩
  rw [← hrd] at hstep
  obtain ⟨hengs, houtst, hhide⟩ := descsBy_leaves i.cyc (advanced i w (getCore s i.core.lcid))
  obtain ⟨hdengs, hdoutst, hdhide⟩ := mmaDone_leaves rd (arrNo i) da db cls i.cyc w x
    (i.cyc + (fMmaM w + 1) * rowCycles cls) (descsBy i.cyc (advanced i w (getCore s i.core.lcid)))
  obtain ⟨_, hcell, hkeep⟩ := accAt_mmaRows rd (arrNo i) da db cls i.cyc w x (advanced i w c)
  have hread : ∀ k, accAt (getCore (mmaEff i first w x (issued i w s)) i.core.lcid) k =
      accAt ((List.range (fMmaM w + 1)).foldl (mmaRow rd [] (arrNo i) da db cls i.cyc w x) (advanced i w c)) k := by
    intro k
    rw [hstep.core, getCore_issued, Function.comp, Function.comp, descsBy_advanced, hc, accAt_busied, accAt_mmaDone]
  refine ⟨issued_busied hs hstep (hdengs.trans hengs) (hdoutst.trans houtst)
    (hdhide.trans (noAccs_of_noDescs hhide)), fun j col hj hcol => ?_, fun k hk => ?_⟩
  · rw [hread, hcell j col (by omega) hcol, hrd]
    exact mmaCell_lsView hj hmask (fun g hg => htiles j g hj hg) u (advanced i w c) _ _ _ _
  · exact (hread k).trans (hkeep k fun j col hj hcol => hk j col (by omega) hcol)

end

/-! ### O19 -/

/-- Settles O19 by what `mmaEff_leaves` says of each element. -/
theorem mmaAccumulatesItsRows : Obligations.MmaAccumulatesItsRows := by
  intro i first w x s hf
  dsimp only
  intro hearly hmovedA hmovedB hmask htiles
  obtain ⟨hiss, hcell, hkeep⟩ := mmaEff_leaves hf.acc rfl rfl rfl rfl hearly hmovedA hmovedB hmask htiles hf.can
  exact ⟨_, congrArg Host.Outcome.next (issueOp_two hf rfl (mmaEff i first)), hiss, hcell,
    fun k hk => Prod.ext_iff.mp (hkeep k hk)⟩

end Sys2Proof.Machine
end

section
/-! Accumulations of the matrix-vector unit: MVM, and O21 (R154). -/

namespace Sys2Proof.Machine

/-! ### The activation register (R154, phase 1) -/

/-- The cores differ in the activation register alone. -/
def MvLoadOnly (c d : Core) : Prop :=
  d = { c with mvElems := d.mvElems, mvScales := d.mvScales, mvRows := d.mvRows, mvTiles := d.mvTiles, mvDesc := d.mvDesc }

theorem MvLoadOnly.trans {c d e : Core} (h : MvLoadOnly c d) (h' : MvLoadOnly d e) : MvLoadOnly c e := by
  unfold MvLoadOnly at *
  rw [h']
  dsimp only
  rw [h]

/-- The places of the register that an MVM loads: row, K-tile and k. -/
def mvPlaces (w : Nat) : List (Nat × Nat × Nat) :=
  (List.range (fMvmM w + 1)).flatMap fun r =>
    (List.range (fMvmNkt w + 1)).flatMap fun t => (List.range 32).map fun k => (r, t, k)

/-- A place loaded. -/
def mvPlaced (rd : Nat → Byte) (d w x : Nat) (c : Core) (e : Nat × Nat × Nat) : Core :=
  { c with
    mvElems := smSet 0 c.mvElems (2048 * e.1 + 32 * e.2.1 + e.2.2) (elemAt rd d (mvmATile w x e.2.1) e.1 e.2.2),
    mvScales := smSet 0 c.mvScales (2048 * e.1 + 32 * e.2.1 + e.2.2)
      (if dBlock d = 0 then 0 else scaleAt rd d (mvmATile w x e.2.1) e.1 e.2.2) }

/-- The extent of the register as loaded. -/
def mvExtent (rows tiles d : Nat) (c : Core) : Core := { c with mvRows := rows, mvTiles := tiles, mvDesc := d }

theorem mvLoad_eq (rd : Nat → Byte) (d w x : Nat) (c : Core) :
    mvLoad rd d w x c = mvExtent (fMvmM w + 1) (fMvmNkt w + 1) d ((mvPlaces w).foldl (mvPlaced rd d w x) c) := rfl

theorem mvLoadOnly_mvPlaced (rd : Nat → Byte) (d w x : Nat) (c : Core) (e : Nat × Nat × Nat) :
    MvLoadOnly c (mvPlaced rd d w x c e) := rfl

theorem mvLoadOnly_mvExtent (rows tiles d : Nat) (c : Core) : MvLoadOnly c (mvExtent rows tiles d c) := rfl

theorem mvPlaced_advanced (i : Issue) (rd : Nat → Byte) (v d w x : Nat) (c : Core) (e : Nat × Nat × Nat) :
    mvPlaced rd d w x (advanced i v c) e = advanced i v (mvPlaced rd d w x c e) := rfl

theorem mvExtent_advanced (i : Issue) (v rows tiles d : Nat) (c : Core) :
    mvExtent rows tiles d (advanced i v c) = advanced i v (mvExtent rows tiles d c) := rfl

theorem mvLoadOnly_mvLoad (rd : Nat → Byte) (d w x : Nat) (c : Core) : MvLoadOnly c (mvLoad rd d w x c) := by
  rw [mvLoad_eq]
  refine MvLoadOnly.trans ?_ (mvLoadOnly_mvExtent ..)
  exact List.foldlRecOn _ _ (motive := MvLoadOnly c) rfl fun d hd e _ => hd.trans (mvLoadOnly_mvPlaced ..)

/-- The issue and the load do not meet. -/
theorem mvLoad_advanced (i : Issue) (rd : Nat → Byte) (v d w x : Nat) (c : Core) :
    mvLoad rd d w x (advanced i v c) = advanced i v (mvLoad rd d w x c) := by
  rw [mvLoad_eq, mvLoad_eq, ← mvExtent_advanced]
  exact congrArg _ (List.foldl_hom (advanced i v) fun c e => mvPlaced_advanced i rd v d w x c e)

theorem mvLoad_congr {rd rd' : Nat → Byte} {d w x : Nat}
    (h : ∀ t, t ≤ fMvmNkt w → SameTile d (mvmATile w x t) rd rd') (c : Core) :
    mvLoad rd d w x c = mvLoad rd' d w x c := by
  have hrows : fMvmM w < 4 := bitsOf_lt w 12 2
  rw [mvLoad_eq, mvLoad_eq]
  refine congrArg _ (List.foldl_ext _ _ _ fun c e he => ?_)
  obtain ⟨r, t, k⟩ := e
  obtain ⟨hr, ht, hk⟩ : r < fMvmM w + 1 ∧ t < fMvmNkt w + 1 ∧ k < 32 := by simpa [mvPlaces] using he
  have hsame := h t (by omega)
  have hscale : (if dBlock d = 0 then 0 else scaleAt rd d (mvmATile w x t) r k) =
      if dBlock d = 0 then 0 else scaleAt rd' d (mvmATile w x t) r k :=
    if_ctx_congr Iff.rfl (fun _ => rfl) fun hb => scaleAt_congr hsame hb (by omega) hk
  rw [mvPlaced, mvPlaced, elemAt_congr hsame (by omega) hk, hscale]

/-- The core with the activations of an MVM: loaded, or those that KEEP finds. -/
def mvmLoaded (rd : Nat → Byte) (da w x : Nat) (c : Core) : Core := if fMvmKeep w then c else mvLoad rd da w x c

theorem mvLoadOnly_mvmLoaded (rd : Nat → Byte) (da w x : Nat) (c : Core) : MvLoadOnly c (mvmLoaded rd da w x c) := by
  unfold mvmLoaded
  split
  · rfl
  · exact mvLoadOnly_mvLoad rd da w x c

theorem mvmLoaded_advanced (i : Issue) (rd : Nat → Byte) (v da w x : Nat) (c : Core) :
    mvmLoaded rd da w x (advanced i v c) = advanced i v (mvmLoaded rd da w x c) := by
  unfold mvmLoaded
  split
  · rfl
  · exact mvLoad_advanced i rd v da w x c

/-- Activations read of the local store: their tiles lie within. -/
theorem mvmLoaded_lsView {da w x : Nat}
    (h : ∀ t, t ≤ fMvmNkt w → fMvmKeep w = false → tileOver da (mvmATile w x t) = false) (s : State) (c d : Core) :
    mvmLoaded (lsView s c []) da w x d = mvmLoaded (lsByte c) da w x d := by
  unfold mvmLoaded
  split
  · rfl
  · next hk => exact mvLoad_congr (fun t ht => sameTile_lsView (h t ht (by simpa using hk)) s c) d

/-! ### The MV accumulator (R154, phase 2) -/

/-- The cores differ in the MV accumulator and its marks alone. -/
def MvAccOnly (c d : Core) : Prop :=
  d = { c with mvAcc := d.mvAcc, mvOvf := d.mvOvf, mvInt := d.mvInt, mvReady := d.mvReady }

theorem MvAccOnly.trans {c d e : Core} (h : MvAccOnly c d) (h' : MvAccOnly d e) : MvAccOnly c e := by
  unfold MvAccOnly at *
  rw [h']
  dsimp only
  rw [h]

/-- An element of the MV accumulator with its saturation bit. -/
def mvAt (c : Core) (k : Nat) : Word × Bool := (smGet 0#32 c.mvAcc k, smGet false c.mvOvf k)

/-- An element of the MV accumulator written, with the path that fed it and when it is readable. -/
def mvSet (c : Core) (k : Nat) (int : Bool) (ready : Nat) (v : Word × Bool) : Core :=
  { c with mvAcc := smSet 0#32 c.mvAcc k v.1, mvOvf := smSet false c.mvOvf k v.2,
           mvInt := smSet false c.mvInt k int, mvReady := smSet 0 c.mvReady k ready }

theorem mvAt_mvSet (c : Core) (k j : Nat) (int : Bool) (ready : Nat) (v : Word × Bool) :
    mvAt (mvSet c k int ready v) j = if j = k then v else mvAt c j := by
  unfold mvAt mvSet
  dsimp only
  rw [smGet_smSet, smGet_smSet]
  by_cases h : j = k
  · simp [h]
  · simp [h, Ne.symm h]

theorem mvAccOnly_mvSet (c : Core) (k : Nat) (int : Bool) (ready : Nat) (v : Word × Bool) :
    MvAccOnly c (mvSet c k int ready v) := rfl

/-- Place of row `r` and the `n`-th column of an MVM. -/
def mvmKey (w r n : Nat) : Nat := mvKey r ((fMvmCol0 w + n) % 256)

theorem mvmKey_inj {w r n r' n' : Nat} (hn : n ≤ fMvmN w) (hn' : n' ≤ fMvmN w) (h : mvmKey w r n = mvmKey w r' n') :
    r = r' ∧ n = n' := by
  have hcols : fMvmN w < 256 := bitsOf_lt w 20 8
  unfold mvmKey mvKey at h
  omega

/-- What an MVM with the activations of `c` makes of its element of row `r` and column `n`. -/
def mvmCell (rd : Nat → Byte) (c : Core) (da db w x r n : Nat) (a : Word × Bool) : Word × Bool :=
  mmaElem (intPath da db) ((List.range (fMvmNkt w + 1)).map fun t => mvA c r t)
    ((List.range (fMvmNkt w + 1)).map fun t => mvB rd db x t n) (if fMvmStart w then (0#32, false) else a)

theorem mvBubble_nil (da db w x r n t : Nat) : mvBubble [] da db w x r n t = false := by
  simp [mvBubble, elemLost_nil]

theorem mvElem_nil (rd : Nat → Byte) (c0 : Core) (da db cyc w x : Nat) (c : Core) (r n : Nat) :
    mvElem rd [] c0 da db cyc w x c r n = mvSet c (mvmKey w r n) (intPath da db) (mvLastUse cyc da db w r n + 8)
      (mvmCell rd c0 da db w x r n (mvAt c (mvmKey w r n))) := by
  have hall : (List.range (fMvmNkt w + 1)).filter (fun t => !mvBubble [] da db w x r n t) = List.range (fMvmNkt w + 1) :=
    List.filter_eq_self.mpr fun t _ => by rw [mvBubble_nil]; rfl
  unfold mvElem
  dsimp only
  rw [hall]
  rfl

/-- A row of an MVM. -/
def mvmRow (rd : Nat → Byte) (c0 : Core) (da db cyc w x : Nat) (c : Core) (r : Nat) : Core :=
  (List.range (fMvmN w + 1)).foldl (fun c n => mvElem rd [] c0 da db cyc w x c r n) c

/-- The rows of an MVM: its elements are what it made of them, every other element stays. -/
theorem mvAt_mvmRows (rd : Nat → Byte) (c0 : Core) (da db cyc w x : Nat) (c : Core) :
    let e := (List.range (fMvmM w + 1)).foldl (mvmRow rd c0 da db cyc w x) c
    MvAccOnly c e ∧
      (∀ r n, r < fMvmM w + 1 → n < fMvmN w + 1 →
        mvAt e (mvmKey w r n) = mvmCell rd c0 da db w x r n (mvAt c (mvmKey w r n))) ∧
      ∀ k, (∀ r n, r < fMvmM w + 1 → n < fMvmN w + 1 → k ≠ mvmKey w r n) → mvAt e k = mvAt c k := by
  have honly : ∀ d r n, MvAccOnly c d → MvAccOnly c (mvElem rd [] c0 da db cyc w x d r n) := fun d r n hd => by
    rw [mvElem_nil]
    exact hd.trans (mvAccOnly_mvSet ..)
  refine foldl_cells_reads (rd := mvAt) (Inv := MvAccOnly c) (cell := fun r c n => mvElem rd [] c0 da db cyc w x c r n)
    (key := mvmKey w) (val := fun r n => mvmCell rd c0 da db w x r n) rfl
    (fun d r hd => List.foldlRecOn _ _ (motive := MvAccOnly c) hd fun e he n _ => honly e r n he)
    (fun d r k _ => rfl) (fun d r n hd => honly d r n hd) (fun d r n k _ => ?_) fun r n r' n' _ hn _ hn' h => ?_
  · rw [mvElem_nil, mvAt_mvSet]
    exact if_ctx_congr Iff.rfl (fun h => by rw [h]) fun _ => rfl
  · exact mvmKey_inj (by omega) (by omega) h

/-- Weights read of the local store: their tiles lie within. -/
theorem mvmCell_lsView {da db w x n : Nat}
    (h : ∀ t, t ≤ fMvmNkt w → tileOver db (mvmBTile x t (n / 32)) = false) (s : State) (c c0 : Core) (r : Nat)
    (a : Word × Bool) :
    mvmCell (lsView s c []) c0 da db w x r n a = mvmCell (lsByte c) c0 da db w x r n a := by
  have hread : ∀ t ∈ List.range (fMvmNkt w + 1), mvB (lsView s c []) db x t n = mvB (lsByte c) db x t n := fun t ht =>
    List.map_congr_left fun k hk => tileVal_congr
      (sameTile_lsView (h t (Nat.lt_succ_iff.mp (List.mem_range.mp ht))) s c) (Nat.mod_lt _ (by decide))
      (List.mem_range.mp hk)
  unfold mvmCell
  rw [List.map_congr_left hread]

/-! ### MVM -/

/-- The rows of an MVM accumulated on the activations that it loads or finds. -/
def mvmDone (rd : Nat → Byte) (da db cyc w x : Nat) (c : Core) : Core :=
  (List.range (fMvmM w + 1)).foldl (mvmRow rd (mvmLoaded rd da w x c) da db cyc w x) (mvmLoaded rd da w x c)

/-- A core without the activation register, the MV accumulator and its marks. -/
def noMv (c : Core) : Core :=
  { c with mvElems := [], mvScales := [], mvRows := 0, mvTiles := 0, mvDesc := 0, mvAcc := [], mvOvf := [], mvInt := [],
           mvReady := [] }

theorem MvLoadOnly.leaves {c d : Core} (h : MvLoadOnly c d) :
    d.engs = c.engs ∧ d.outst = c.outst ∧ noMv (bare d) = noMv (bare c) ∧ mvAt d = mvAt c := by
  unfold MvLoadOnly at h
  rw [h]
  exact ⟨rfl, rfl, rfl, rfl⟩

theorem MvAccOnly.leaves {c d : Core} (h : MvAccOnly c d) :
    d.engs = c.engs ∧ d.outst = c.outst ∧ noMv (bare d) = noMv (bare c) ∧
      d.mvElems = c.mvElems ∧ d.mvRows = c.mvRows := by
  unfold MvAccOnly at h
  rw [h]
  exact ⟨rfl, rfl, rfl, rfl, rfl⟩

theorem activations_busied (i : Issue) (w n due : Nat) (c : Core) :
    (busied i w n due c).mvElems = c.mvElems ∧ (busied i w n due c).mvRows = c.mvRows := ⟨rfl, rfl⟩

theorem mvAt_busied (i : Issue) (w n due : Nat) (c : Core) : mvAt (busied i w n due c) = mvAt c := rfl

/-- The cycles that an MVM holds its engine: both phases. -/
def mvmHold (da db w : Nat) : Nat := mvActCycles da w + (fMvmNkt w + 1) * mvTileCycles da db w

section
variable {i : Issue} {w x da db : Nat} {s : State} {c : Core} (hacc : i.acc = []) (hc : getCore s i.core.lcid = c)
  (hda : (if fMvmKeep w then c.mvDesc else rdDesc c i.cyc (fMvmAD w)) = da) (hdb : rdDesc c i.cyc (fMvmBD w) = db)
  (hread : ∀ r n, r ≤ fMvmM w → n ≤ fMvmN w → smGet 0 c.mvRead (mvmKey w r n) ≤ mvFirstUse i.cyc da db w r n)
  (htiles : ∀ t, t ≤ fMvmNkt w → (fMvmKeep w = false → tileOver da (mvmATile w x t) = false) ∧
    ∀ n, n ≤ fMvmN w → tileOver db (mvmBTile x t (n / 32)) = false)
  (hkeep : fMvmKeep w = true → fMvmM w + 1 ≤ c.mvRows ∧ fMvmNkt w + 1 ≤ c.mvTiles)
include hacc hc hda hdb hread htiles hkeep

/-- An MVM without a hazard, its accesses clean. -/
theorem coreStep_mvmEff :
    CoreStep i.core.lcid (busied i w (mvmHold da db w) (i.cyc + mvmHold da db w - 1 + 7) ∘
      mvmDone (lsView (issued i w s) (advanced i w c) []) da db i.cyc w x) (issued i w s) (mvmEff i w x (issued i w s)) := by
  have hcore : getCore (issued i w s) i.core.lcid = advanced i w c := by rw [getCore_issued, hc]
  have hdesc : issueDesc i (issued i w s) = rdDesc c i.cyc := by rw [issueDesc_issued, hc]
  have hdesc' : (if fMvmKeep w then (advanced i w c).mvDesc else rdDesc c i.cyc (fMvmAD w)) = da := hda
  have hearly : ((List.range (fMvmM w + 1)).any fun r => (List.range (fMvmN w + 1)).any fun n =>
      decide (smGet 0 (advanced i w c).mvRead (mvKey r ((fMvmCol0 w + n) % 256)) > mvFirstUse i.cyc da db w r n)) =
        false := by
    simp only [List.any_eq_false, List.mem_range, Bool.not_eq_true, decide_eq_false_iff_not, not_lt, Nat.lt_succ_iff]
    exact fun r hr n hn => hread r n hr hn
  have hkept : (fMvmKeep w && (decide ((advanced i w c).mvRows < fMvmM w + 1) ||
      decide ((advanced i w c).mvTiles < fMvmNkt w + 1))) = false := by
    rw [Bool.and_eq_false_imp]
    intro hk
    obtain ⟨hrows, htls⟩ := hkeep hk
    exact Bool.or_eq_false_iff.mpr ⟨decide_eq_false (Nat.not_lt.mpr hrows), decide_eq_false (Nat.not_lt.mpr htls)⟩
  have hbeyond : ((List.range (fMvmNkt w + 1)).any fun t => (!fMvmKeep w && tileOver da (mvmATile w x t)) ||
      (List.range (fMvmN w + 1)).any fun n => tileOver db (mvmBTile x t (n / 32))) = false := by
    simp only [List.any_eq_false, List.mem_range, Bool.not_eq_true, Bool.or_eq_false_iff, Bool.and_eq_false_imp,
      Bool.not_eq_true', Nat.lt_succ_iff]
    exact htiles
  have heq : mvmEff i w x (issued i w s) = completes i w (i.cyc + mvmHold da db w - 1 + 7) (holdFor i (mvmHold da db w)
      (updCore (issued i w s) i.core.lcid (mvmDone (lsView (issued i w s) (advanced i w c) []) da db i.cyc w x))) := by
    unfold mvmEff
    dsimp only
    rw [hcore, hdesc, hdesc', hdb, hearly, hkept, orStall_nil hacc, feederLost_nil hacc, hbeyond]
    rfl
  rw [heq]
  exact (coreStep_updCore _ _ _).trans (coreStep_busied ..)

/-- What an MVM leaves: its issue, its elements, every other element as it stood, and with KEEP the activations. -/
theorem mvmEff_leaves (hs : canIssue s i = true) :
    Issued i w (i.cyc + mvmHold da db w) (goesOn i s) [doneAt i w (i.cyc + mvmHold da db w - 1 + 7)] noMv [] s
        (mvmEff i w x (issued i w s)) ∧
      (∀ r n, r ≤ fMvmM w → n ≤ fMvmN w →
        mvAt (getCore (mvmEff i w x (issued i w s)) i.core.lcid) (mvmKey w r n) =
          mvmCell (lsByte c) (mvmLoaded (lsByte c) da w x c) da db w x r n (mvAt c (mvmKey w r n))) ∧
      (∀ k, (∀ r n, r ≤ fMvmM w → n ≤ fMvmN w → k ≠ mvmKey w r n) →
        mvAt (getCore (mvmEff i w x (issued i w s)) i.core.lcid) k = mvAt c k) ∧
      (fMvmKeep w = true → (getCore (mvmEff i w x (issued i w s)) i.core.lcid).mvElems = c.mvElems ∧
        (getCore (mvmEff i w x (issued i w s)) i.core.lcid).mvRows = c.mvRows) := by
  have hstep := coreStep_mvmEff hacc hc hda hdb hread htiles hkeep
  obtain ⟨rd, hrd⟩ : ∃ rd, rd = lsView (issued i w s) (advanced i w c) [] := ⟨_, rfl⟩
  obtain ⟨c1, hc1⟩ : ∃ c1, c1 = advanced i w (mvmLoaded (lsByte c) da w x c) := ⟨_, rfl⟩
  rw [← hrd] at hstep
  have hloaded : mvmLoaded rd da w x (advanced i w c) = c1 := by
    rw [hrd, mvmLoaded_lsView (fun t ht => (htiles t ht).1), mvmLoaded_advanced, hc1]
    rfl
  have hdone : mvmDone rd da db i.cyc w x (advanced i w (getCore s i.core.lcid)) =
      (List.range (fMvmM w + 1)).foldl (mvmRow rd c1 da db i.cyc w x) c1 := by
    rw [hc, mvmDone, hloaded]
  obtain ⟨hlengs, hloutst, hlhide, hlat⟩ := (hloaded ▸ mvLoadOnly_mvmLoaded rd da w x (advanced i w c)).leaves
  obtain ⟨honly, hcell, hrest⟩ := mvAt_mvmRows rd c1 da db i.cyc w x c1
  rw [← hdone] at honly hcell hrest
  obtain ⟨hengs, houtst, hhide, helems, hrows⟩ := honly.leaves
  have hcore := hstep.core
  rw [getCore_issued, Function.comp] at hcore
  have hat : mvAt c1 = mvAt c := hlat
  rw [hcore, mvAt_busied]
  refine ⟨issued_busied hs hstep (hengs.trans (hlengs.trans (by rw [hc]))) (houtst.trans (hloutst.trans (by rw [hc])))
    (hhide.trans (hlhide.trans (by rw [hc]))), fun r n hr hn => ?_, fun k hk => ?_, fun hk => ?_⟩
  · rw [hcell r n (by omega) (by omega), hat, hrd, mvmCell_lsView (fun t ht => (htiles t ht).2 n hn), hc1]
    rfl
  · rw [hrest k fun r n hr hn => hk r n (by omega) (by omega), hat]
  · have hkept : mvmLoaded (lsByte c) da w x c = c := if_pos hk
    rw [hkept] at hc1
    obtain ⟨hbelems, hbrows⟩ := activations_busied i w (mvmHold da db w) (i.cyc + mvmHold da db w - 1 + 7)
      (mvmDone rd da db i.cyc w x (advanced i w (getCore s i.core.lcid)))
    have hels : c1.mvElems = (advanced i w c).mvElems := congrArg Core.mvElems hc1
    have hrws : c1.mvRows = (advanced i w c).mvRows := congrArg Core.mvRows hc1
    exact ⟨hbelems.trans (helems.trans hels), hbrows.trans (hrows.trans hrws)⟩

end

/-! ### O21 -/

/-- Settles O21 by what `mvmEff_leaves` says of each element. -/
theorem mvmAccumulatesItsColumns : Obligations.MvmAccumulatesItsColumns := by
  intro i w x s hf
  dsimp only
  intro hread htiles hkeep
  obtain ⟨hiss, hcell, hrest, hkept⟩ := mvmEff_leaves hf.acc rfl rfl rfl hread htiles hkeep hf.can
  exact ⟨_, congrArg Host.Outcome.next (issueOp_two hf rfl (mvmEff i)), hiss, hcell,
    fun k hk => congrArg Prod.fst (hrest k hk), hkept⟩

end Sys2Proof.Machine
end

section
/-! Masked writes of whole 8-byte words, and the 32-bit words that stand in them (R126, R149, R155; log 15). -/

namespace Sys2Proof.Machine

/-! ### Words of 32 bits as bytes (R126) -/

/-- Byte `j` of the `k`-th of some words. -/
theorem getD_packElems32 {es : List Nat} {k j : Nat} (hk : k < es.length) (hj : j < 4) :
    (packElems 32 es).getD (4 * k + j) 0 = (leBytes 4 (es.getD k 0)).getD j 0 := by
  have hlen : ceilDiv (es.length * 32) 8 = 4 * es.length := by unfold ceilDiv; omega
  refine BitVec.eq_of_getLsbD_eq fun i hi => ?_
  have hbit : (spelled 32 es).testBit (32 * k + (8 * j + i)) = (es.getD k 0).testBit (8 * j + i) := by
    have hdigit := congrArg (fun n => n.testBit (8 * j + i)) (spelled_digit 32 es k hk)
    rw [← Nat.pow_mul, Nat.testBit_mod_two_pow, Nat.testBit_mod_two_pow, Nat.testBit_div_two_pow,
      decide_eq_true (show 8 * j + i < 32 by omega), Bool.true_and, Bool.true_and, Nat.add_comm] at hdigit
    exact hdigit
  rw [packElems_eq, getLsbD_leBytes _ (by omega) hi, getLsbD_leBytes _ hj hi, ← hbit]
  congr 1
  omega

/-- A word read where its bytes stand. -/
theorem lsRead_packElems {c : Core} {a k : Nat} {es : List Nat}
    (h : ∀ y, a ≤ y → y < a + 4 * es.length → lsByte c y = (packElems 32 es).getD (y - a) 0) (hk : k < es.length) :
    lsRead c (a + 4 * k) 4 = leBytes 4 (es.getD k 0) := by
  have hlen : (leBytes 4 (es.getD k 0)).length = 4 := length_leBytes ..
  have hread := lsRead_eq_of_bytes (c := c) (a := a + 4 * k) (bs := leBytes 4 (es.getD k 0)) fun j hj => by
    rw [h _ (by omega) (by omega), ← getD_packElems32 hk (by omega)]
    congr 1
    omega
  rwa [hlen] at hread

/-! ### Masked writes (R149, R162; log 15) -/

/-- Words written behind a mask of whole 8-byte words. -/
def wordsMasked (a : Nat) (es : List Nat) (c : Core) : Core :=
  lsWrite [] c (wordMasked a (packElems 32 es)).1 (wordMasked a (packElems 32 es)).2

theorem storeOnly_wordsMasked (a : Nat) (es : List Nat) (c : Core) : StoreOnly c (wordsMasked a es c) :=
  storeOnly_lsWrite ..

/-- The bytes of the words stand in their place, and those outside the 8-byte words that hold them stay. -/
theorem lsByte_wordsMasked {a : Nat} {es : List Nat} (hfit : ceilDiv (a + 4 * es.length) 8 * 8 ≤ lsBytes) (c : Core) :
    (∀ y, a ≤ y → y < a + 4 * es.length → lsByte (wordsMasked a es c) y = (packElems 32 es).getD (y - a) 0) ∧
      ∀ y, (y < a / 8 * 8 ∨ ceilDiv (a + 4 * es.length) 8 * 8 ≤ y) → lsByte (wordsMasked a es c) y = lsByte c y := by
  have hlen : (packElems 32 es).length = 4 * es.length := length_packElems32 es
  have hcover : a + 4 * es.length ≤ ceilDiv (a + 4 * es.length) 8 * 8 := by unfold ceilDiv; omega
  have hmask : (wordMasked a (packElems 32 es)).2 = List.replicate (a - a / 8 * 8) 0#8 ++ packElems 32 es ++
      List.replicate (ceilDiv (a + 4 * es.length) 8 * 8 - (a + 4 * es.length)) 0#8 := by
    unfold wordMasked
    dsimp only
    rw [hlen]
  have hspan : (wordMasked a (packElems 32 es)).2.length = ceilDiv (a + 4 * es.length) 8 * 8 - a / 8 * 8 := by
    rw [hmask, List.length_append, List.length_append, List.length_replicate, List.length_replicate, hlen]
    omega
  have hlo : (wordMasked a (packElems 32 es)).1 = a / 8 * 8 := rfl
  unfold wordsMasked
  refine ⟨fun y hy hy' => ?_, fun y hy => ?_⟩ <;> rw [lsByte_lsWrite, hspan, hlo]
  · rw [if_pos (by omega), hmask, List.getD_append _ _ _ _ (by simp [hlen]; omega),
      List.getD_append_right _ _ _ _ (by simp; omega), List.length_replicate]
    congr 1
    omega
  · rw [if_neg (by omega)]

theorem lsRead_wordsMasked {a k : Nat} {es : List Nat} (hfit : ceilDiv (a + 4 * es.length) 8 * 8 ≤ lsBytes) (c : Core)
    (hk : k < es.length) : lsRead (wordsMasked a es c) (a + 4 * k) 4 = leBytes 4 (es.getD k 0) :=
  lsRead_packElems (lsByte_wordsMasked hfit c).1 hk

end Sys2Proof.Machine
end

section
/-! The drain of an array: DRN to 32-bit words (R149, R162). -/

namespace Sys2Proof.Machine

/-! ### The elements of a line (R132, R149) -/

/-- Rows of one length, one after another. -/
theorem flatMap_range_eq {α : Type} {n : Nat} (hn : 0 < n) (f : Nat → Nat → α) (m : Nat) :
    ((List.range m).flatMap fun a => (List.range n).map (f a)) = (List.range (m * n)).map fun p => f (p / n) (p % n) := by
  induction m with
  | zero => rw [Nat.zero_mul]; rfl
  | succ m ih =>
    have hlast : (List.range n).map (f m) = ((List.range n).map (m * n + ·)).map fun p => f (p / n) (p % n) := by
      rw [List.map_map]
      refine List.map_congr_left fun p hp => ?_
      have hp : p < n := List.mem_range.mp hp
      rw [Function.comp, Nat.mul_comm m, Nat.mul_add_div hn, Nat.mul_add_mod, Nat.div_eq_of_lt hp, Nat.mod_eq_of_lt hp]
      rfl
    rw [List.range_succ, List.flatMap_append, ih, List.flatMap_singleton, hlast, ← List.map_append, Nat.succ_mul,
      ← List.range_add]

/-- The word that a DRN to a 32-bit format makes of the element of line `l`, group `g` and column `col`. -/
def drnWord (s : State) (i : Issue) (c : Core) (d w x l g col : Nat) : Nat :=
  let a := smGet 0#32 c.acc (accKey (arrNo i) (drnRow w l g) col)
  if dElem d = 10 then a.toNat
  else convElem d (if dRnd d = 2 then drnDraw s i x l (8 * (fDrnPos w + g) + col) else 0)
    (drainVal (smGet false c.accInt (accRowKey (arrNo i) (drnRow w l g))) none a)

/-- The words of a line, group after group. -/
def drnWords (s : State) (i : Issue) (c : Core) (d w x l : Nat) : List Nat :=
  (List.range ((fDrnG w + 1) * 8)).map fun p => drnWord s i c d w x l (p / 8) (p % 8)

theorem length_drnWords (s : State) (i : Issue) (c : Core) (d w x l : Nat) :
    (drnWords s i c d w x l).length = (fDrnG w + 1) * 8 := by simp [drnWords]

theorem getD_drnWords (s : State) (i : Issue) (c : Core) (d w x l : Nat) {g col : Nat} (hg : g ≤ fDrnG w) (hcol : col < 8) :
    (drnWords s i c d w x l).getD (8 * g + col) 0 = drnWord s i c d w x l g col := by
  have hin : 8 * g + col < (fDrnG w + 1) * 8 := by omega
  have hdiv : (8 * g + col) / 8 = g := by omega
  have hmod : (8 * g + col) % 8 = col := by omega
  simp [drnWords, hin, hdiv, hmod]

/-- A line of a format without a block scale, drained without a scale. -/
theorem drnLineOut_words {d : Nat} (hb : dBlock d = 0) (s : State) (i : Issue) (c : Core) (w x l : Nat) :
    (drnLineOut s i c none d w x l).1 = drnWords s i c d w x l := by
  have hvals : drnLineVals c (arrNo i) w l = (List.range ((fDrnG w + 1) * 8)).map fun p =>
      (8 * (fDrnPos w + p / 8) + p % 8, smGet 0#32 c.acc (accKey (arrNo i) (drnRow w l (p / 8)) (p % 8)),
        smGet false c.accInt (accRowKey (arrNo i) (drnRow w l (p / 8)))) := flatMap_range_eq (by decide) _ _
  unfold drnLineOut drnWords drnWord
  by_cases hraw : dElem d = 10
  · simp only [hraw, if_true, hvals, List.map_map]
    rfl
  · simp only [hraw, hb, if_false, if_true, hvals, List.map_map, List.zipWith_map, List.zipWith_self]
    rfl

theorem drnWords_issued (i : Issue) (v : Nat) (s : State) (d w x : Nat) :
    drnWords (issued i v s) i (advanced i v (getCore s i.core.lcid)) d w x =
      drnWords s i (getCore s i.core.lcid) d w x := by
  funext l
  unfold drnWords drnWord drnDraw
  rw [jobSeed_issued, trainStep_issued]
  rfl

/-! ### The cycles of a drain (Table 5.4) -/

section
variable {d : Nat} (hw : elemWidth d = 32) (hb : dBlock d = 0)
include hw

theorem drnLineCycles_words (g l : Nat) : drnLineCycles d g l = g := by
  unfold drnLineCycles
  rw [hw, if_neg (by omega)]
  unfold ceilDiv
  omega

theorem drnGroupAt_words (q : Nat) : drnGroupAt d q = q := by
  unfold drnGroupAt
  rw [hw]
  omega

include hb

theorem drnLineStart_words (g last l : Nat) : drnLineStart d g last l = l * g := by
  have hpass : ∀ l, drnPassCycles d g l = 0 := fun l => if_neg (by simp [hb])
  have htrail : ∀ l, drnTrailCycles d last l = 0 := fun l => if_neg (by simp [hb])
  induction l with
  | zero => rw [drnLineStart, hpass, Nat.zero_mul]
  | succ l ih => rw [drnLineStart, ih, drnLineCycles_words hw, htrail, hpass, Nat.succ_mul, Nat.add_zero]

theorem drnFirstRead_words (g last l q : Nat) : drnFirstRead d g last l q = l * g + q := by
  unfold drnFirstRead
  rw [if_neg (by simp [hb]), drnLineStart_words hw hb, drnGroupAt_words hw]

end

/-! ### What a drain writes (R149, R162) -/

/-- Byte address of the first word of line `l`. -/
def drnBase (w l : Nat) : Nat := 64 * fDrnO w + 128 * l + 32 * fDrnPos w

/-- A line of the first tile. -/
theorem drnLineAddr_words {d w l : Nat} (hw : elemWidth d = 32) (hl : l < 32) (x : Nat) :
    drnLineAddr d w x l + fDrnPos w * elemWidth d = drnBase w l := by
  unfold drnLineAddr drnBase
  rw [hw, Nat.div_eq_of_lt hl, Nat.mod_eq_of_lt hl]
  omega

/-- The lines of a drain written. -/
def drnStored (w : Nat) (words : Nat → List Nat) (c : Core) : Core :=
  (List.range (fDrnL w + 1)).foldl (fun c l => wordsMasked (drnBase w l) (words l) c) c

theorem storeOnly_drnStored (w : Nat) (words : Nat → List Nat) (c : Core) : StoreOnly c (drnStored w words c) :=
  List.foldlRecOn _ _ (motive := StoreOnly c) rfl fun _ hd _ _ => hd.trans (storeOnly_wordsMasked ..)

/-- The words of each line stand in their places, and no byte beside them changes. -/
theorem drnStored_reads {w : Nat} {words : Nat → List Nat} (hlen : ∀ l, (words l).length = (fDrnG w + 1) * 8)
    (hl : fDrnL w < 32) (hpos : fDrnPos w + fDrnG w ≤ 3) (hfit : 64 * fDrnO w + 4096 ≤ lsBytes) (c : Core) :
    (∀ l k, l ≤ fDrnL w → k < (fDrnG w + 1) * 8 →
      lsRead (drnStored w words c) (drnBase w l + 4 * k) 4 = leBytes 4 ((words l).getD k 0)) ∧
    ∀ y, (∀ l, l ≤ fDrnL w → ¬ (drnBase w l ≤ y ∧ y < drnBase w l + 32 * (fDrnG w + 1))) →
      lsByte (drnStored w words c) y = lsByte c y := by
  have hline : ∀ (d : Core) l, l < fDrnL w + 1 →
      (∀ y, drnBase w l ≤ y → y < drnBase w l + 4 * (words l).length →
        lsByte (wordsMasked (drnBase w l) (words l) d) y = (packElems 32 (words l)).getD (y - drnBase w l) 0) ∧
      ∀ y, ¬ (drnBase w l ≤ y ∧ y < drnBase w l + 32 * (fDrnG w + 1)) →
        lsByte (wordsMasked (drnBase w l) (words l) d) y = lsByte d y := by
    intro d l hlt
    have hlo : drnBase w l / 8 * 8 = drnBase w l := by unfold drnBase; omega
    have hhi : ceilDiv (drnBase w l + 4 * (words l).length) 8 * 8 = drnBase w l + 32 * (fDrnG w + 1) := by
      rw [hlen]; unfold drnBase ceilDiv; omega
    obtain ⟨hown, hrest⟩ := lsByte_wordsMasked (a := drnBase w l) (es := words l)
      (by rw [hhi]; unfold drnBase; omega) d
    exact ⟨hown, fun y hy => hrest y (by omega)⟩
  obtain ⟨_, hown, hrest⟩ := foldl_range_reads (rd := lsByte) (c := c) (n := fDrnL w + 1) (Inv := fun _ => True)
    (step := fun c l => wordsMasked (drnBase w l) (words l) c)
    (W := fun l y => drnBase w l ≤ y ∧ y < drnBase w l + 32 * (fDrnG w + 1)) trivial (fun _ _ _ _ => trivial)
    (fun d l y hlt _ hy => (hline d l hlt).2 y hy)
    (fun l l' y hll' _ ⟨hy, hy'⟩ => by unfold drnBase at *; omega)
  refine ⟨fun l k hll hk => ?_, fun y hy => hrest y fun l hlt => hy l (by omega)⟩
  refine lsRead_packElems (fun y hy hy' => ?_) (by rw [hlen]; exact hk)
  obtain ⟨d, _, _, hafter⟩ := hown l y (by omega) ⟨hy, by rw [hlen] at hy'; omega⟩
  exact hafter.trans ((hline d l (by omega)).1 y hy hy')

/-! ### DRN -/

/-- The cores differ in the marks of the rows read alone. -/
def AccReadOnly (c d : Core) : Prop := d = { c with accRead := d.accRead }

theorem AccReadOnly.trans {c d e : Core} (h : AccReadOnly c d) (h' : AccReadOnly d e) : AccReadOnly c e := by
  unfold AccReadOnly at *
  rw [h']
  dsimp only
  rw [h]

/-- The rows of a drain marked with the cycles in which it reads them. -/
def drnMarked (n w : Nat) (readAt : Nat → Nat → Nat) (c : Core) : Core :=
  (List.range (fDrnL w + 1)).foldl (fun c l => (List.range (fDrnG w + 1)).foldl (fun c q =>
    { c with accRead := smUpd 0 c.accRead (accRowKey n (drnRow w l q)) (max (readAt l q)) }) c) c

theorem accReadOnly_drnMarked (n w : Nat) (readAt : Nat → Nat → Nat) (c : Core) :
    AccReadOnly c (drnMarked n w readAt c) :=
  List.foldlRecOn _ _ (motive := AccReadOnly c) rfl fun _ hd _ _ =>
    List.foldlRecOn _ _ (motive := AccReadOnly c) hd fun _ he _ _ => he.trans rfl

/-- What a drain's writes and marks leave. -/
theorem drn_leaves {c d e : Core} (h : StoreOnly c d) (h' : AccReadOnly d e) :
    e.engs = c.engs ∧ e.outst = c.outst ∧ e.ls = d.ls ∧
      { bare e with ls := [], fresh := [], sig := 0, accRead := [] } =
        { bare c with ls := [], fresh := [], sig := 0, accRead := [] } := by
  unfold StoreOnly at h
  unfold AccReadOnly at h'
  rw [h', h]
  exact ⟨rfl, rfl, rfl, rfl⟩

theorem drnSat_issued (i : Issue) (v : Nat) (s : State) (w : Nat)
    (h : drnSat s i (getCore s i.core.lcid) w = []) :
    drnSat (issued i v s) i (advanced i v (getCore s i.core.lcid)) w = [] := by
  refine List.filterMap_eq_nil_iff.mpr fun r hr => ?_
  have hnone := List.filterMap_eq_nil_iff.mp h r hr
  split at hnone
  · cases hnone
  · next hsat => exact if_neg hsat

section
variable {i : Issue} {w x d : Nat} {s : State} {c : Core} (hacc : i.acc = []) (hc : getCore s i.core.lcid = c)
  (hd : rdDesc c i.cyc (fDrnD w) = d) (hw : elemWidth d = 32) (hb : dBlock d = 0) (hsig : fDrnSig w = false)
  (hl : fDrnL w < 32) (hsat : drnSat s i c w = [])
  (hready : ∀ l g, l ≤ fDrnL w → g ≤ fDrnG w →
    smGet 0 c.accReady (accRowKey (arrNo i) (drnRow w l g)) ≤ i.cyc + 1 + l * (fDrnG w + 1) + g)
include hacc hc hd hw hb hsig hl hsat hready

/-- A DRN of readable rows to 32-bit words, its accesses clean. -/
theorem coreStep_drnEff : ∃ readAt, CoreStep i.core.lcid
    (completing i w (i.cyc + (fDrnL w + 1) * (fDrnG w + 1) + 3) ∘
      (drnMarked (arrNo i) w readAt ∘ drnStored w (drnWords s i c d w x))) (issued i w s) (drnEff i w x (issued i w s)) := by
  subst hc
  have hhazard : ((List.range (fDrnL w + 1)).any fun l => (List.range (fDrnG w + 1)).any fun q =>
      decide (i.cyc + 1 + drnFirstRead d (fDrnG w + 1) (fDrnL w) l q <
        smGet 0 (advanced i w (getCore s i.core.lcid)).accReady (accRowKey (arrNo i) (drnRow w l q)))) = false := by
    simp only [List.any_eq_false, List.mem_range, Bool.not_eq_true, decide_eq_false_iff_not, not_lt, Nat.lt_succ_iff,
      drnFirstRead_words hw hb, ← Nat.add_assoc]
    exact fun l hl q hq => hready l q hl hq
  have hdone : i.cyc + 1 + drnLineStart d (fDrnG w + 1) (fDrnL w) (fDrnL w) +
      drnLineCycles d (fDrnG w + 1) (fDrnL w) + drnTrailCycles d (fDrnL w) (fDrnL w) + 2 =
      i.cyc + (fDrnL w + 1) * (fDrnG w + 1) + 3 := by
    have htrail : drnTrailCycles d (fDrnL w) (fDrnL w) = 0 := if_neg (by simp [hb])
    rw [drnLineStart_words hw hb, drnLineCycles_words hw, htrail, Nat.succ_mul]
    omega
  have hstored : ∀ c, ((List.range (fDrnL w + 1)).map fun l => (l, drnLineOut (issued i w s) i
        (advanced i w (getCore s i.core.lcid)) none d w x l)).foldl (fun c o =>
          lsWrite [] c (wordMasked (drnLineAddr d w x o.1 + fDrnPos w * elemWidth d) (packElems (elemWidth d) o.2.1)).1
            (wordMasked (drnLineAddr d w x o.1 + fDrnPos w * elemWidth d) (packElems (elemWidth d) o.2.1)).2) c =
      drnStored w (drnWords s i (getCore s i.core.lcid) d w x) c := by
    intro c
    rw [List.foldl_map]
    refine List.foldl_ext _ _ _ fun c l hlt => ?_
    have hlt : l < 32 := by have := List.mem_range.mp hlt; omega
    rw [drnLineAddr_words hw hlt, drnLineOut_words hb, drnWords_issued, hw]
    rfl
  have heq : drnEff i w x (issued i w s) = completes i w (i.cyc + (fDrnL w + 1) * (fDrnG w + 1) + 3)
      (updCore (issued i w s) i.core.lcid
        (drnMarked (arrNo i) w (fun l q => i.cyc + 1 + drnLineStart d (fDrnG w + 1) (fDrnL w) l + drnGroupAt d q) ∘
          drnStored w (drnWords s i (getCore s i.core.lcid) d w x))) := by
    have hlost : lostLines i.acc = [] := by rw [hacc]; rfl
    unfold drnEff
    dsimp only
    rw [getCore_issued, issueDesc_issued, hd, hhazard, orStall_nil hacc, drnSat_issued i w s w hsat, hdone, hlost]
    simp only [hsig, hb, if_true, Bool.false_eq_true, false_and, if_false, hstored]
    rfl
  rw [heq]
  exact ⟨_, (coreStep_updCore _ _ _).trans (coreStep_completes ..)⟩

/-- What a DRN leaves: its issue, its words, and every other byte as it stood. -/
theorem drnEff_leaves (hs : canIssue s i = true) (hpos : fDrnPos w + fDrnG w ≤ 3) (hfit : 64 * fDrnO w + 4096 ≤ lsBytes) :
    Issued i w (i.cyc + 1) (goesOn i s) [doneAt i w (i.cyc + (fDrnL w + 1) * (fDrnG w + 1) + 3)]
        (fun c => { c with ls := [], fresh := [], sig := 0, accRead := [] }) [] s (drnEff i w x (issued i w s)) ∧
      (∀ l g col, l ≤ fDrnL w → g ≤ fDrnG w → col < 8 →
        lsRead (getCore (drnEff i w x (issued i w s)) i.core.lcid) (drnBase w l + 4 * (8 * g + col)) 4 =
          leBytes 4 (drnWord s i c d w x l g col)) ∧
      ∀ y, (∀ l, l ≤ fDrnL w → ¬ (drnBase w l ≤ y ∧ y < drnBase w l + 32 * (fDrnG w + 1))) →
        lsByte (getCore (drnEff i w x (issued i w s)) i.core.lcid) y = lsByte c y := by
  obtain ⟨readAt, hstep⟩ := coreStep_drnEff (x := x) hacc hc hd hw hb hsig hl hsat hready
  obtain ⟨words, hwords⟩ : ∃ words, words = drnWords s i c d w x := ⟨_, rfl⟩
  rw [← hwords] at hstep
  obtain ⟨hengs, houtst, hls, hhide⟩ := drn_leaves
    (storeOnly_drnStored w words (advanced i w (getCore s i.core.lcid)))
    (accReadOnly_drnMarked (arrNo i) w readAt (drnStored w words (advanced i w (getCore s i.core.lcid))))
  have hls : (getCore (drnEff i w x (issued i w s)) i.core.lcid).ls =
      (drnStored w words (advanced i w (getCore s i.core.lcid))).ls := by
    rw [hstep.core, getCore_issued]
    exact hls
  obtain ⟨hread, hkeep⟩ := drnStored_reads (words := words) (by rw [hwords]; exact length_drnWords s i c d w x) hl hpos
    hfit (advanced i w (getCore s i.core.lcid))
  refine ⟨issued_core hs hstep hengs (congrArg (· ++ _) houtst) hhide, fun l g col hl' hg hcol => ?_, fun y hy => ?_⟩
  · rw [lsRead_congr hls, hread l (8 * g + col) hl' (by omega), hwords, getD_drnWords _ _ _ _ _ _ _ hg hcol]
  · rw [lsByte_congr hls, hkeep y hy, hc]
    rfl

end

end Sys2Proof.Machine
end

section
/-! The drain of the matrix-vector unit: MVD to 32-bit words, and O20 (R155, R163). -/

namespace Sys2Proof.Machine

/-! ### The values of an MVD -/

/-- Place of value `k` of an MVD in the MV accumulator. -/
def mvdKey (w k : Nat) : Nat := mvKey (fMvdRow w) ((fMvdCol0 w + k) % 256)

/-- The word that an MVD to a 32-bit format makes of value `k`. -/
def mvdWord (s : State) (i : Issue) (c : Core) (d w k : Nat) : Nat :=
  let a := smGet 0#32 c.mvAcc (mvdKey w k)
  if dElem d = 10 then a.toNat
  else convElem d (if dRnd d = 2 then mvdDraw s i w k else 0) (drainVal (smGet false c.mvInt (mvdKey w k)) none a)

/-- The words of an MVD. -/
def mvdWords (s : State) (i : Issue) (c : Core) (d w : Nat) : List Nat :=
  (List.range (fMvdCnt w + 1)).map (mvdWord s i c d w)

theorem mvdWords_eq (s : State) (i : Issue) (c : Core) (d w : Nat) :
    (if dElem d = 10 then (List.range (fMvdCnt w + 1)).map fun k =>
        (smGet 0#32 c.mvAcc (mvKey (fMvdRow w) ((fMvdCol0 w + k) % 256))).toNat
      else (List.range (fMvdCnt w + 1)).map fun k => convElem d (if dRnd d = 2 then mvdDraw s i w k else 0)
        (drainVal (smGet false c.mvInt (mvKey (fMvdRow w) ((fMvdCol0 w + k) % 256))) none
          (smGet 0#32 c.mvAcc (mvKey (fMvdRow w) ((fMvdCol0 w + k) % 256))))) = mvdWords s i c d w := by
  unfold mvdWords mvdWord
  split <;> rfl

theorem length_mvdWords (s : State) (i : Issue) (c : Core) (d w : Nat) :
    (mvdWords s i c d w).length = fMvdCnt w + 1 := by simp [mvdWords]

theorem getD_mvdWords (s : State) (i : Issue) (c : Core) (d w : Nat) {k : Nat} (hk : k ≤ fMvdCnt w) :
    (mvdWords s i c d w).getD k 0 = mvdWord s i c d w k := by
  simp [mvdWords, Nat.lt_succ_iff.mpr hk]

theorem mvdWords_issued (i : Issue) (v : Nat) (s : State) (d w : Nat) :
    mvdWords (issued i v s) i (advanced i v (getCore s i.core.lcid)) d w =
      mvdWords s i (getCore s i.core.lcid) d w := by
  unfold mvdWords mvdWord mvdDraw
  rw [jobSeed_issued, trainStep_issued]
  rfl

/-- Byte address of the first value. -/
def mvdBase (w : Nat) : Nat := 64 * fMvdO w + 4 * fMvdOpos w

theorem mvdBit_words {d : Nat} (hw : elemWidth d = 32) (w : Nat) : mvdBit d w / 8 = mvdBase w ∧ mvdBit d w % 8 = 0 := by
  unfold mvdBit mvdBase
  rw [hw]
  omega

theorem packBits_zero (w : Nat) (es : List Nat) : packBits 0 w es = packElems w es := by
  unfold packBits packElems
  rw [Nat.zero_add, Nat.pow_zero, Nat.one_mul]

/-! ### MVD -/

/-- The cores differ in the marks of the values read alone. -/
def MvReadOnly (c d : Core) : Prop := d = { c with mvRead := d.mvRead }

theorem MvReadOnly.trans {c d e : Core} (h : MvReadOnly c d) (h' : MvReadOnly d e) : MvReadOnly c e := by
  unfold MvReadOnly at *
  rw [h']
  dsimp only
  rw [h]

/-- The values of an MVD marked with the cycles in which it reads them. -/
def mvdMarked (w : Nat) (readAt : Nat → Nat) (c : Core) : Core :=
  (List.range (fMvdCnt w + 1)).foldl (fun c k =>
    { c with mvRead := smUpd 0 c.mvRead (mvdKey w k) (max (readAt k)) }) c

theorem mvReadOnly_mvdMarked (w : Nat) (readAt : Nat → Nat) (c : Core) : MvReadOnly c (mvdMarked w readAt c) :=
  List.foldlRecOn _ _ (motive := MvReadOnly c) rfl fun _ hd _ _ => hd.trans rfl

/-- What an MVD's write and marks leave. -/
theorem mvd_leaves {c d e : Core} (h : StoreOnly c d) (h' : MvReadOnly d e) :
    e.engs = c.engs ∧ e.outst = c.outst ∧ e.ls = d.ls ∧
      { bare e with ls := [], fresh := [], sig := 0, mvRead := [] } =
        { bare c with ls := [], fresh := [], sig := 0, mvRead := [] } := by
  unfold StoreOnly at h
  unfold MvReadOnly at h'
  rw [h', h]
  exact ⟨rfl, rfl, rfl, rfl⟩

section
variable {i : Issue} {w x d : Nat} {s : State} {c : Core} (hacc : i.acc = []) (hc : getCore s i.core.lcid = c)
  (hd : rdDesc c i.cyc (fMvdD w) = d) (hw : elemWidth d = 32) (hb : dBlock d = 0)
  (hready : ∀ k, k ≤ fMvdCnt w →
    smGet false c.mvOvf (mvdKey w k) = false ∧ smGet 0 c.mvReady (mvdKey w k) ≤ i.cyc + 1 + k / 16)
include hacc hc hd hw hb hready

/-- An MVD of readable values to 32-bit words, its accesses clean, in a cycle in which the VE does not write. -/
theorem coreStep_mvdEff : CoreStep i.core.lcid
    (completing i w (i.cyc + fMvdCnt w / 16 + 4) ∘
      (mvdMarked w (fun k => i.cyc + 1 + k / 16) ∘ wordsMasked (mvdBase w) (mvdWords s i c d w))) (issued i w s)
    (mvdEff false i w x (issued i w s)) := by
  subst hc
  obtain ⟨hbyte, hbit⟩ := mvdBit_words hw w
  have hnear : ∀ k ∈ List.range (fMvdCnt w + 1), k ≤ fMvdCnt w := fun k hk => Nat.lt_succ_iff.mp (List.mem_range.mp hk)
  have hstands : ∀ k, k ≤ fMvdCnt w →
      smGet false (advanced i w (getCore s i.core.lcid)).mvOvf (mvKey (fMvdRow w) ((fMvdCol0 w + k) % 256)) = false ∧
        smGet 0 (advanced i w (getCore s i.core.lcid)).mvReady (mvKey (fMvdRow w) ((fMvdCol0 w + k) % 256)) ≤
          i.cyc + 1 + k / 16 := hready
  have hhazard : ((List.range (fMvdCnt w + 1)).any fun k => decide (i.cyc + 1 + k / 16 <
      smGet 0 (advanced i w (getCore s i.core.lcid)).mvReady (mvKey (fMvdRow w) ((fMvdCol0 w + k) % 256)))) = false :=
    List.any_eq_false.mpr fun k hk => by simpa using (hstands k (hnear k hk)).2
  have hsats : ((List.range (fMvdCnt w + 1)).filterMap fun k =>
      if smGet false (advanced i w (getCore s i.core.lcid)).mvOvf (mvKey (fMvdRow w) ((fMvdCol0 w + k) % 256)) then
        some (coreFault (issued i w s) i.core.lcid 0x1B clLogged i.cyc (2 * 2 ^ 8 + fMvdRow w))
      else none) = [] :=
    List.filterMap_eq_nil_iff.mpr fun k hk => if_neg (by simp [(hstands k (hnear k hk)).1])
  have hdone : i.cyc + 1 + (fMvdCnt w + 1 - 1) / 16 + 3 + 0 = i.cyc + fMvdCnt w / 16 + 4 := by
    rw [Nat.add_sub_cancel]
    omega
  have heq : mvdEff false i w x (issued i w s) = completes i w (i.cyc + fMvdCnt w / 16 + 4)
      (updCore (issued i w s) i.core.lcid (mvdMarked w (fun k => i.cyc + 1 + k / 16) ∘
        wordsMasked (mvdBase w) (mvdWords s i (getCore s i.core.lcid) d w))) := by
    have hlost : lostLines i.acc = [] := by rw [hacc]; rfl
    unfold mvdEff
    dsimp only
    rw [getCore_issued, issueDesc_issued, hd, hhazard, orStall_nil hacc, hsats, hlost, hbyte, hbit, packBits_zero, hw]
    simp only [hb, if_true, List.map_map, List.zipWith_map, List.zipWith_self, Function.comp_def, mvdWords_eq,
      mvdWords_issued, hdone]
    rfl
  rw [heq]
  exact (coreStep_updCore _ _ _).trans (coreStep_completes ..)

/-- What an MVD leaves: its issue, its words, and the bytes outside the 8-byte words that hold them. -/
theorem mvdEff_leaves (hs : canIssue s i = true) (hfit : mvdBase w + 4 * fMvdCnt w + 8 ≤ lsBytes) :
    Issued i w (i.cyc + 1) (goesOn i s) [doneAt i w (i.cyc + fMvdCnt w / 16 + 4)]
        (fun c => { c with ls := [], fresh := [], sig := 0, mvRead := [] }) [] s (mvdEff false i w x (issued i w s)) ∧
      (∀ k, k ≤ fMvdCnt w →
        lsRead (getCore (mvdEff false i w x (issued i w s)) i.core.lcid) (mvdBase w + 4 * k) 4 =
          leBytes 4 (mvdWord s i c d w k)) ∧
      ∀ y, (y < mvdBase w / 8 * 8 ∨ ceilDiv (mvdBase w + 4 * (fMvdCnt w + 1)) 8 * 8 ≤ y) →
        lsByte (getCore (mvdEff false i w x (issued i w s)) i.core.lcid) y = lsByte c y := by
  have hstep := coreStep_mvdEff (x := x) hacc hc hd hw hb hready
  have hlen := length_mvdWords s i c d w
  obtain ⟨words, hwords⟩ : ∃ words, words = mvdWords s i c d w := ⟨_, rfl⟩
  rw [← hwords] at hstep hlen
  obtain ⟨hengs, houtst, hls, hhide⟩ := mvd_leaves
    (storeOnly_wordsMasked (mvdBase w) words (advanced i w (getCore s i.core.lcid)))
    (mvReadOnly_mvdMarked w (fun k => i.cyc + 1 + k / 16)
      (wordsMasked (mvdBase w) words (advanced i w (getCore s i.core.lcid))))
  have hls : (getCore (mvdEff false i w x (issued i w s)) i.core.lcid).ls =
      (wordsMasked (mvdBase w) words (advanced i w (getCore s i.core.lcid))).ls := by
    rw [hstep.core, getCore_issued]
    exact hls
  have hroom : ceilDiv (mvdBase w + 4 * words.length) 8 * 8 ≤ lsBytes := by
    rw [hlen]; unfold mvdBase lsBytes ceilDiv at *; omega
  refine ⟨issued_core hs hstep hengs (congrArg (· ++ _) houtst) hhide, fun k hk => ?_, fun y hy => ?_⟩
  · rw [lsRead_congr hls, lsRead_wordsMasked hroom _ (by omega), hwords, getD_mvdWords _ _ _ _ _ hk]
  · rw [lsByte_congr hls, (lsByte_wordsMasked hroom _).2 y (by rw [hlen]; exact hy), hc]
    rfl

end

/-! ### O20 -/

/-- Settles O20: DRN by `drnEff_leaves`, MVD by `mvdEff_leaves`. -/
theorem drainsWriteTheirOutputLines : Obligations.DrainsWriteTheirOutputLines := by
  refine ⟨?_, ?_⟩
  · intro i w x s hf
    dsimp only
    intro hw hb hsig hl hpos hfit hsat hready
    obtain ⟨hiss, hread, hkeep⟩ := drnEff_leaves (x := x) hf.acc rfl rfl hw hb hsig hl hsat hready hf.can hpos hfit
    have haddr : ∀ l g col, 64 * fDrnO w + 128 * l + 4 * (8 * (fDrnPos w + g) + col) =
        drnBase w l + 4 * (8 * g + col) := fun l g col => by unfold drnBase; omega
    simp only [haddr]
    refine ⟨_, congrArg Host.Outcome.next (issueOp_two hf rfl (drnEff i)), hiss, hread, fun y hy => hkeep y ?_⟩
    intro l hl' hin
    have hout := hy l ((y - drnBase w l) / 32) ((y - drnBase w l) % 32 / 4) hl' (by omega) (by omega)
    omega
  · intro i w x s hf
    dsimp only
    intro hw hb hfit hready
    exact ⟨_, congrArg Host.Outcome.next (issueOp_one hf rfl (mvdEff false i)),
      mvdEff_leaves hf.acc rfl rfl hw hb hready hf.can hfit⟩

end Sys2Proof.Machine
end

section
/-! What the Hall sends of an HSND and of a COLL: frames planned on the port of their route, and O26 (R166, R270, R276,
R277, R286). -/

namespace Sys2Proof.Machine

/-! ### Frames of this package leave on their route (R35, R262, R270) -/

theorem changesOnly_notePath (d : Nat) (s : State) : ChangesOnly [.tick] s (notePath d s) := by
  unfold notePath
  split
  · exact .refl _ s
  · intro p hp
    cases p <;> simp_all [Part.same]

/-- Noting a path changes the tick's paths alone: the noted one is among them, and every one that was. -/
theorem tick_notePath (d : Nat) (s : State) :
    (notePath d s).tick = { s.tick with paths := (notePath d s).tick.paths } ∧ d ∈ (notePath d s).tick.paths ∧
      s.tick.paths ⊆ (notePath d s).tick.paths := by
  unfold notePath
  split
  · next h => exact ⟨rfl, List.contains_iff_mem.mp h, List.Subset.refl _⟩
  · exact ⟨rfl, by simp, by simp⟩

theorem changesOnly_queuePlanned (p : Nat) (f : Frame) (s : State) : ChangesOnly [.ports] s (queuePlanned p f s) :=
  fun q hq => by cases q <;> simp_all [Part.same, queuePlanned]

/-- The route of a frame rests on the plans and the registers of the ports. -/
theorem routePort_congr {s t : State} (h : ChangesOnly [.ports, .tick, .reduce] s t) (part : Nat) (f : Frame) :
    routePort t part f = routePort s part f := by
  have hplan : t.plans = s.plans := h .plans (by decide)
  unfold routePort routeOf getPlan
  simp only [hplan, carrier_congr (.of_regs (h .regs (by decide)))]

theorem myId_congr {s t : State} (h : t.regs = s.regs) : myId t = myId s := getF_congr h _

/-- The frames wait on port `p` in their order, each with the path to package `d` noted; no other port has more. -/
structure Planned (p d : Nat) (fs : List Frame) (s t : State) : Prop where
  parts : ChangesOnly [.ports, .tick] s t
  port : (getPort t p).planned = (getPort s p).planned ++ fs
  others : ∀ q, q ≠ p → getPort t q = getPort s q
  tick : t.tick = { s.tick with paths := t.tick.paths }
  kept : s.tick.paths ⊆ t.tick.paths
  noted : fs ≠ [] → d ∈ t.tick.paths

theorem Planned.nil (p d : Nat) (s : State) : Planned p d [] s s :=
  ⟨.refl _ s, (List.append_nil _).symm, fun _ _ => rfl, rfl, List.Subset.refl _, fun h => absurd rfl h⟩

theorem Planned.trans {p d : Nat} {fs gs : List Frame} {s t u : State} (h : Planned p d fs s t) (k : Planned p d gs t u) :
    Planned p d (fs ++ gs) s u where
  parts := h.parts.trans k.parts
  port := by rw [k.port, h.port, List.append_assoc]
  others q hq := (k.others q hq).trans (h.others q hq)
  tick := by rw [k.tick, h.tick]
  kept := List.Subset.trans h.kept k.kept
  noted hne := by
    by_cases hfs : fs = []
    · exact k.noted fun hgs => hne (by rw [hfs, hgs]; rfl)
    · exact k.kept (h.noted hfs)

/-- A frame to another package waits on the port of its route. -/
theorem planned_sendOut {part p : Nat} {f : Frame} {s : State} (hbc : f.bc = false) (hdst : f.dst ≠ myId s)
    (hroute : routePort s part f = some p) : Planned p f.dst [f] s (sendOut part f s) := by
  have hnote : ChangesOnly [.ports, .tick] s (notePath f.dst s) := (changesOnly_notePath f.dst s).mono (by simp)
  obtain ⟨htick, hmem, hsub⟩ := tick_notePath f.dst s
  have hports : (notePath f.dst s).ports = s.ports := changesOnly_notePath f.dst s .ports (by decide)
  have hsend : sendOut part f s = queuePlanned p f (notePath f.dst s) := by
    unfold sendOut forward
    rw [if_neg (by simp [hbc]), if_neg hdst, routePort_congr (hnote.mono (by simp)), hroute]
  have hport : ∀ q, getPort (sendOut part f s) q =
      if p = q then { getPort s p with planned := (getPort s p).planned ++ [f] } else getPort s q := fun q => by
    rw [hsend, queuePlanned, getPort_updPort]
    unfold getPort
    rw [hports]
  refine ⟨?_, by rw [hport, if_pos rfl], fun q hq => by rw [hport, if_neg (Ne.symm hq)], ?_, ?_, fun _ => ?_⟩ <;> rw [hsend]
  · exact hnote.trans ((changesOnly_queuePlanned p f _).mono (by simp))
  · exact htick
  · exact hsub
  · exact hmem

/-- Frames to one other package wait on their port in their order. -/
theorem planned_sendOuts {part p d : Nat} (fs : List Frame) {s : State} (hd : d ≠ myId s)
    (hfs : ∀ f ∈ fs, f.bc = false ∧ f.dst = d) (hroute : ∀ f ∈ fs, routePort s part f = some p) :
    Planned p d fs s (fs.foldl (fun s f => sendOut part f s) s) := by
  induction fs generalizing s with
  | nil => exact .nil p d s
  | cons f fs ih =>
    obtain ⟨hbc, rfl⟩ := hfs f (by simp)
    have hfirst := planned_sendOut hbc hd (hroute f (by simp))
    exact hfirst.trans (ih (by rwa [myId_congr (hfirst.parts .regs (by decide))])
      (fun g hg => hfs g (List.mem_cons_of_mem f hg))
      fun g hg => (routePort_congr (hfirst.parts.mono (by simp)) part g).trans (hroute g (List.mem_cons_of_mem f hg)))

/-! ### The issue of an instruction that sends through the Hall (R83) -/

theorem myId_issued (i : Issue) (w : Nat) (s : State) : myId (issued i w s) = myId s :=
  (regsBut_issued i w s).getF_eq (by decide)

theorem tickNum_issued (i : Issue) (w : Nat) (s : State) : tickNum (issued i w s) = tickNum s :=
  (regsBut_issued i w s).getF_eq (by decide)

theorem getPlan_issued (i : Issue) (w n : Nat) (s : State) : getPlan (issued i w s) n = getPlan s n := by
  unfold getPlan
  rw [changesOnly_issued i w s .plans (by decide)]

theorem corePart_issued (i : Issue) (w : Nat) (s : State) :
    corePart (getCore (issued i w s) i.core.lcid) = corePart (getCore s i.core.lcid) := by
  rw [getCore_issued, corePart_advanced]

theorem routePort_issued (i : Issue) (w part : Nat) (f : Frame) (s : State) :
    routePort (issued i w s) part f = routePort s part f := by
  have hports : PorchAlike s (issued i w s) := fun g hg => (regsBut_issued i w s).getF_eq_of_page fun f hf => by
    simp only [List.mem_singleton] at hf
    subst hf
    simp only [fldKey, R.TOP_VARIANCE_CNT.COUNT]
    omega
  unfold routePort routeOf
  rw [getPlan_issued]
  simp only [carrier_congr hports]

/-- What an outbound transfer leaves besides its beats: `u` differs from the issue's state in no core and no register. -/
theorem issued_outbound {i : Issue} {w n : Nat} {ps : List Part} {s u : State} (hs : canIssue s i = true)
    (hu : ChangesOnly ps (issued i w s) u) (hcores : Part.cores ∉ ps) (hregs : Part.regs ∉ ps) :
    Issued i w (i.cyc + n) (goesOn i s) [doneAt i w (i.cyc + n - 1)] id ps s
      (completes i w (i.cyc + n - 1) (holdFor i n u)) := by
  have hsame : ∀ d, getCore u d = getCore (issued i w s) d := fun d => by
    unfold getCore
    rw [hu .cores hcores]
  have hcore : getCore (completes i w (i.cyc + n - 1) (holdFor i n u)) i.core.lcid =
      beating i w n (advanced i w (getCore s i.core.lcid)) := by rw [getCore_beats, hsame, getCore_issued]
  refine Issued.of_core hs hcore ?_ (fun e he => ?_) (by rw [outst_beating, outst_advanced])
    (by rw [bare_beating, bare_advanced]) (fun d hd => (getCore_beats_other i w n u hd).trans (hsame d)) ?_ hregs
  · rw [getEng_beating_same, advanced, getEng_updEng_same]
    rfl
  · rw [getEng_beating_other _ _ _ _ he, advanced, getEng_updEng_other _ _ he]
  · exact (hu.mono (List.subset_cons_self ..)).trans
      (((changesOnly_updCore _ _ _).mono (by simp)).trans ((changesOnly_updCore _ _ _).mono (by simp)))

/-- What an instruction leaves whose frames wait on their port: before them at most the Hall's pieces changed. -/
theorem issued_planned {i : Issue} {w n p d : Nat} {fs : List Frame} {ps : List Part} {s u v : State}
    (hs : canIssue s i = true) (hu : ChangesOnly ps (issued i w s) u) (hps : ps ⊆ [.reduce]) (hv : Planned p d fs u v) :
    let t := completes i w (i.cyc + n - 1) (holdFor i n v)
    Issued i w (i.cyc + n) (goesOn i s) [doneAt i w (i.cyc + n - 1)] id ([.ports, .tick] ++ ps) s t ∧
      (getPort t p).planned = (getPort s p).planned ++ fs ∧ (∀ q, q ≠ p → getPort t q = getPort s q) ∧
      (fs ≠ [] → d ∈ t.tick.paths) ∧ t.tick.job = s.tick.job ∧ t.reduce = u.reduce := by
  have hbeats : ChangesOnly [.cores] v (completes i w (i.cyc + n - 1) (holdFor i n v)) :=
    (changesOnly_updCore _ _ _).trans (changesOnly_updCore _ _ _)
  have hports : v.ports = (completes i w (i.cyc + n - 1) (holdFor i n v)).ports := (hbeats .ports (by decide)).symm
  have hbefore : ChangesOnly [.cores, .regs, .reduce] s u :=
    ((changesOnly_issued i w s).mono (by simp)).trans (hu.mono fun q hq => by simp [List.mem_singleton.mp (hps hq)])
  have hold : ∀ q, getPort u q = getPort s q := fun q => by
    unfold getPort
    rw [hbefore .ports (by decide)]
  have hnew : ∀ q, getPort (completes i w (i.cyc + n - 1) (holdFor i n v)) q = getPort v q := fun q => by
    unfold getPort
    rw [hports]
  have hstay : ∀ q : Part, q ∉ [Part.ports, .tick, .reduce] → q ∉ [Part.ports, .tick] ++ ps := fun q hq hmem => by
    rcases List.mem_append.mp hmem with h | h
    · exact hq (by simp_all)
    · exact hq (by simp [List.mem_singleton.mp (hps h)])
  refine ⟨issued_outbound hs ((hu.mono (by simp)).trans (hv.parts.mono (by simp))) (hstay _ (by decide)) (hstay _ (by decide)),
    ?_, fun q hq => ?_, fun hne => ?_, ?_, ?_⟩
  · rw [hnew, hv.port, hold]
  · rw [hnew, hv.others q hq, hold]
  · rw [hbeats .tick (by decide)]
    exact hv.noted hne
  · rw [hbeats .tick (by decide), hv.tick, ← hbefore .tick (by decide)]
  · rw [hbeats .reduce (by decide), hv.parts .reduce (by decide)]

/-! ### HSND (R166) -/

theorem hsndFrames_issued (i : Issue) (w v x dst : Nat) (data : List Byte) (s : State) :
    hsndFrames (issued i v s) w x dst data = hsndFrames s w x dst data := by
  unfold hsndFrames
  rw [myId_issued, tickNum_issued]

theorem hsndDests_issued (i : Issue) (v stream : Nat) (pl : Plan) (s : State) :
    hsndDests (issued i v s) pl stream = hsndDests s pl stream := by
  unfold hsndDests
  rw [myId_issued]

theorem hsndFrames_fields {s : State} {w x dst : Nat} {data : List Byte} {f : Frame} (h : f ∈ hsndFrames s w x dst data) :
    f.bc = false ∧ f.dst = dst := by
  obtain ⟨k, _, rfl⟩ := List.mem_map.mp h
  exact ⟨rfl, rfl⟩

theorem hsndFrames_ne_nil (s : State) (w x dst : Nat) (data : List Byte) : hsndFrames s w x dst data ≠ [] := by
  unfold hsndFrames ceilDiv
  simp only [ne_eq, List.map_eq_nil_iff, List.range_eq_nil]
  omega

/-- An HSND whose stream goes to one package and not to the guest hands over one copy of each flit. -/
theorem hsndEff_one {i : Issue} {w x part d : Nat} {pl : Plan} {s : State} (hacc : i.acc = [])
    (hpart : corePart (getCore s i.core.lcid) = part) (hpl : getPlan s part = some pl)
    (hd : hsndDests s pl (fHStream w) = [d]) (hguest : ∀ e ∈ pl.streams, e.num = fHStream w → e.transport ≠ 3) :
    hsndEff i w x s = completes i w (i.cyc + (fHLen x + 1) - 1) (holdFor i (fHLen x + 1)
      ((hsndFrames s w x d (outBytes s i (fHSl w) (fHLen x + 1))).foldl (fun s f => sendOut part f s) s)) := by
  subst hpart
  have hnone : ¬ (pl.streams.any fun e => e.num == fHStream w && e.transport == 3) = true := by
    simp only [List.any_eq_true, Bool.and_eq_true, beq_iff_eq, not_exists, not_and]
    exact hguest
  unfold hsndEff
  dsimp only
  rw [onEdge_nil hacc, outbound_nil hacc, hpl]
  dsimp only
  rw [hd, if_neg hnone]
  rfl

/-! ### COLL (R276, R277, R286) -/

/-- A piece is with the Hall. -/
def withPiece (q : Piece) (s : State) : State := { s with reduce := { s.reduce with pieces := s.reduce.pieces ++ [q] } }

theorem changesOnly_withPiece (q : Piece) (s : State) : ChangesOnly [.reduce] s (withPiece q s) := fun p hp => by
  cases p <;> simp_all [Part.same, withPiece]

/-- A frame with the stamp of R288. -/
def collStamped (s : State) (part : Nat) (pl : Plan) (f : Frame) : Frame :=
  { f with seq := collSeq s part f.dst pl (collKey (f.stream / 32 % 2) (f.stream % 8) (segOf f.tile) (stepOf f.tile) f.foff) }

/-- Stamps apart, stamped frames are the frames. -/
theorem map_unstamp_collStamped (s : State) (part : Nat) (pl : Plan) (fs : List Frame) :
    (fs.map (collStamped s part pl)).map (fun f => { f with seq := 0 }) = fs.map fun f => { f with seq := 0 } := by
  rw [List.map_map]
  rfl

/-- Stamped frames to one other package wait on their port. -/
theorem planned_sendColl {part p d : Nat} {fs : List Frame} {s : State} (pl : Plan) (hd : d ≠ myId s)
    (hfs : ∀ f ∈ fs, f.bc = false ∧ f.dst = d) (hroute : ∀ f ∈ fs, ∀ q, routePort s part { f with seq := q } = some p) :
    Planned p d (fs.map (collStamped s part pl)) s (sendColl part pl fs s) := by
  have hsend : sendColl part pl fs s = (fs.map (collStamped s part pl)).foldl (fun s f => sendOut part f s) s := by
    rw [List.foldl_map]
    rfl
  rw [hsend]
  refine planned_sendOuts _ hd (fun g hg => ?_) fun g hg => ?_ <;> obtain ⟨f, hmem, rfl⟩ := List.mem_map.mp hg
  · exact hfs f hmem
  · exact hroute f hmem _

theorem collFrames_issued (i : Issue) (v part ctx kind phase seg k dst : Nat) (data : List Byte) (s : State) :
    collFrames (issued i v s) part ctx kind phase seg k dst data = collFrames s part ctx kind phase seg k dst data := by
  unfold collFrames
  rw [myId_issued, tickNum_issued]

theorem collFrames_fields {s : State} {part ctx kind phase seg k dst : Nat} {data : List Byte} {f : Frame}
    (h : f ∈ collFrames s part ctx kind phase seg k dst data) : f.bc = false ∧ f.dst = dst := by
  obtain ⟨j, _, rfl⟩ := List.mem_map.mp h
  exact ⟨rfl, rfl⟩

/-- The piece that a COLL hands over in a job tick (Table 5.6). -/
def collPiece (i : Issue) (w x part job : Nat) : Piece :=
  { core := i.core.lcid, part := part, ctx := fCCtx w, kind := fCKind w, seg := segOf (fCSeg x), step := stepOf (fCSeg x),
    rline := fCRl x, cnt := fCCnt x, sem := fCSem x, bank := fCBank x, len := fCLen w + 1, arr := fCArr w, tick := job }

/-- A COLL of a unicast kind: the piece is with the Hall, and its stamped frames are sent. -/
theorem collEff_unicast {i : Issue} {w x part : Nat} {pl : Plan} {s : State} (hacc : i.acc = [])
    (hpart : corePart (getCore s i.core.lcid) = part) (hpl : getPlan s part = some pl) (hkind : fCKind w ≠ 5) :
    collEff i w x s = completes i w (i.cyc + (fCLen w + 1) - 1) (holdFor i (fCLen w + 1)
      (sendColl part pl
        (collFrames s part (fCCtx w) (fCKind w) 0 (segOf (fCSeg x)) (stepOf (fCSeg x))
          ((pl.pos + stepOf (fCSeg x)) % max 1 pl.npkg) (outBytes s i (fCSl w) (fCLen w + 1)))
        (withPiece (collPiece i w x part s.tick.job) s))) := by
  subst hpart
  unfold collEff
  dsimp only
  rw [onEdge_nil hacc, outbound_nil hacc, hpl]
  dsimp only
  unfold issuePiece
  rw [if_neg hkind]
  rfl

/-! ### O26 -/

/-- Settles O26: the frames of either instruction by `planned_sendOuts`, its issue by `issued_planned`. -/
theorem hallSendsFlitsAndPieces : Obligations.HallSendsFlitsAndPieces := by
  refine ⟨?_, ?_⟩
  · intro i w x d p pl s hf hpl hdests hd hguest
    dsimp only
    intro hroute
    have heff := hsndEff_one (w := w) (x := x) (s := issued i w s) hf.acc (corePart_issued i w s)
      ((getPlan_issued i w _ s).trans hpl) ((hsndDests_issued i w _ pl s).trans hdests) hguest
    rw [hsndFrames_issued, outBytes_issued] at heff
    obtain ⟨hiss, hport, hothers, hnoted, hjob, _⟩ := issued_planned (n := fHLen x + 1) hf.can (.refl [] (issued i w s))
      (List.nil_subset _) (planned_sendOuts (p := p) (part := corePart (getCore s i.core.lcid)) (d := d)
        (hsndFrames s w x d (outBytes s i (fHSl w) (fHLen x + 1))) (by rwa [myId_issued]) (fun _ => hsndFrames_fields)
        fun f hmem => (routePort_issued ..).trans (hroute f hmem))
    rw [← heff] at hiss hport hothers hnoted hjob
    exact ⟨_, congrArg Host.Outcome.next (issueOp_two hf rfl (hsndEff i)), hiss, hport, hothers,
      hnoted (hsndFrames_ne_nil _ _ _ _ _), hjob⟩
  · intro i w x p pl s hf
    dsimp only
    intro hpl hkind hd hroute
    have heff := collEff_unicast (w := w) (x := x) (s := issued i w s) hf.acc (corePart_issued i w s)
      ((getPlan_issued i w _ s).trans hpl) hkind
    rw [collFrames_issued, outBytes_issued] at heff
    have hpiece := changesOnly_withPiece
      (collPiece i w x (corePart (getCore s i.core.lcid)) (issued i w s).tick.job) (issued i w s)
    have hid : (pl.pos + stepOf (fCSeg x)) % max 1 pl.npkg ≠ myId (withPiece
        (collPiece i w x (corePart (getCore s i.core.lcid)) (issued i w s).tick.job) (issued i w s)) := by
      rwa [myId_congr (hpiece .regs (by decide)), myId_issued]
    obtain ⟨hiss, hport, _, _, _, hred⟩ := issued_planned (n := fCLen w + 1) hf.can hpiece (List.Subset.refl _)
      (planned_sendColl pl hid (fun _ => collFrames_fields) fun f hmem q =>
        ((routePort_congr (hpiece.mono (by simp)) ..).trans (routePort_issued ..)).trans (hroute f q hmem))
    rw [← heff] at hiss hport hred
    have hbefore : (issued i w s).reduce = s.reduce := changesOnly_issued i w s .reduce (by decide)
    have hjob : (issued i w s).tick.job = s.tick.job := congrArg _ (changesOnly_issued i w s .tick (by decide))
    refine ⟨_, congrArg Host.Outcome.next (issueOp_two hf rfl (collEff i)), hiss, ?_, ?_, ?_⟩
    · rw [hred, withPiece, hbefore, hjob]
      rfl
    · rw [hred, withPiece, hbefore]
    · rw [hport, List.map_append, map_unstamp_collStamped, List.map_append]

end Sys2Proof.Machine
end

section
/-! The loader's report of an image without its magic, and the refutation of O54 (R183). -/

namespace Sys2Proof.Machine

/-- A package that loads an image at address 0 whose header has no magic. Its one section, directory index 0, is a SEGMENTS
section of 24 bytes at offset 192 for role 0; the one entry there places, for core 1, a segment that has no magic either
(Tables 6.9, 6.10; R184). -/
def stNoMagic : State :=
  { setF State.reset (R.PLAN_STA.BUSY 0) 1 with mem := [(30, 1), (128, 4), (132, 192), (140, 24), (192, 1)] }

/-- BAD_MAGIC at that segment. -/
def segNoMagic : LoadErr := failAt 1 0 0 1 0

theorem header_stNoMagic : hMagic stNoMagic (loadAddr stNoMagic 0) ≠ 0x4C50514D := by decide +kernel

/-- BAD_MAGIC fails at both places (Table 6.13), the header counting as section 0xFF. -/
theorem badMagic_stNoMagic : badMagic stNoMagic (loadAddr stNoMagic 0) = [failAt 1 0xFF 0 0 0, segNoMagic] := by
  decide +kernel

/-- The loader stops at the lower section, the segment's (R183). -/
theorem loadErr_stNoMagic : loadErr stNoMagic (loadAddr stNoMagic 0) 0 none = some segNoMagic := by
  have hleast : leastErr (badMagic stNoMagic (loadAddr stNoMagic 0)) = some segNoMagic := by
    rw [badMagic_stNoMagic]
    decide
  have hfirst : loadChecks stNoMagic (loadAddr stNoMagic 0) 0 = some segNoMagic := by
    unfold loadChecks
    dsimp only
    unfold firstErr
    rw [hleast]
  unfold loadErr
  rw [hfirst]

theorem planLoadDone_stNoMagic :
    exec (.planLoadDone 0 none) stNoMagic = .next (loadFail 0 segNoMagic (setJob (loadJob 0) none stNoMagic)) := by
  have hgo : (!flagF stNoMagic (R.PLAN_STA.BUSY 0) || !imageRead stNoMagic 0) = false := by decide +kernel
  have hwhole : imageLost stNoMagic 0 = false := by decide +kernel
  show execPlanLoadDone 0 none stNoMagic = _
  unfold execPlanLoadDone
  simp only [Fin.val_zero, hgo, hwhole, loadErr_stNoMagic]
  rfl

/-- PLAN_ERR names section 0. -/
theorem section_stNoMagic :
    getF (loadFail 0 segNoMagic (setJob (loadJob 0) none stNoMagic)) (R.PLAN_ERR.SECTION 0) = 0 := by decide +kernel

/-- Refutes O54: its clause on an image without the magic has every such image fail in section 0xFF; where a placed segment
lacks its magic too, R183 names the lowest section, and the model reports the segment's. -/
theorem not_plansAreLoadedUnloadedAndRestarted : ¬ Obligations.PlansAreLoadedUnloadedAndRestarted := by
  unfold Obligations.PlansAreLoadedUnloadedAndRestarted
  rintro ⟨_, _, _, hmagic, _⟩
  obtain ⟨t, ht, _, _, hsect, _⟩ := hmagic 0 stNoMagic (by decide +kernel) (by decide +kernel) (by decide +kernel)
    header_stNoMagic
  obtain rfl : loadFail 0 segNoMagic (setJob (loadJob 0) none stNoMagic) = t :=
    Host.Outcome.next.inj (planLoadDone_stNoMagic.symm.trans ht)
  exact absurd (section_stNoMagic.symm.trans hsect) (by decide)

end Sys2Proof.Machine
end

section
/-! No row is refused, and only the six transfers that name memory can stop (R190): O6. -/

namespace Sys2Proof.Machine

/-- An outcome that is a next state, or the fault of an address that names no memory (R190). -/
def NextOrNoMemory (o : Host.Outcome State Fault Refusal) : Prop := (∃ t, o = .next t) ∨ ∃ pa, o = .fault (.noMemory pa)

theorem nextOrNoMemory_issueMem (i : Issue) (op : Nat) (span : Nat → Nat → Nat × Nat) (eff : Nat → Nat → State → State)
    (s : State) : NextOrNoMemory (issueMem i op span eff s) := by
  unfold issueMem
  dsimp only
  split
  · exact .inr ⟨_, rfl⟩
  · exact .inl ⟨_, rfl⟩

theorem nextOrNoMemory_execMrd (i : Issue) (s : State) : NextOrNoMemory (execMrd i s) := nextOrNoMemory_issueMem ..
theorem nextOrNoMemory_execMwr (i : Issue) (s : State) : NextOrNoMemory (execMwr i s) := nextOrNoMemory_issueMem ..
theorem nextOrNoMemory_execPan (i : Issue) (s : State) : NextOrNoMemory (execPan i s) := nextOrNoMemory_issueMem ..
theorem nextOrNoMemory_execIld (i : Issue) (s : State) : NextOrNoMemory (execIld i s) := nextOrNoMemory_issueMem ..
theorem nextOrNoMemory_execCsav (i : Issue) (s : State) : NextOrNoMemory (execCsav i s) := nextOrNoMemory_issueMem ..
theorem nextOrNoMemory_execCrst (i : Issue) (s : State) : NextOrNoMemory (execCrst i s) := nextOrNoMemory_issueMem ..

/-- The transfers that name memory (R190). -/
def NamesMemory (c : Instr) (i : Issue) : Prop :=
  c = .mrd i ∨ c = .mwr i ∨ c = .pan i ∨ c = .ild i ∨ c = .csav i ∨ c = .crst i

theorem NextOrNoMemory.of_transfer {c : Instr} (i : Issue) {s : State} (h : NextOrNoMemory (exec c s))
    (hc : NamesMemory c i) :
    (∃ t, exec c s = .next t) ∨ ∃ pa i, exec c s = .fault (.noMemory pa) ∧ NamesMemory c i :=
  h.imp_right fun ⟨pa, hpa⟩ => ⟨pa, i, hpa, hc⟩

/-- Settles O6: the six transfers that name memory are `issueMem`; every other row's meaning is a next state. -/
theorem onlyTransfersOutsideMemoryStop : Obligations.OnlyTransfersOutsideMemoryStop := by
  intro c s
  cases c with
  | mrd i => exact (nextOrNoMemory_execMrd i s).of_transfer (c := .mrd i) i (by simp [NamesMemory])
  | mwr i => exact (nextOrNoMemory_execMwr i s).of_transfer (c := .mwr i) i (by simp [NamesMemory])
  | pan i => exact (nextOrNoMemory_execPan i s).of_transfer (c := .pan i) i (by simp [NamesMemory])
  | ild i => exact (nextOrNoMemory_execIld i s).of_transfer (c := .ild i) i (by simp [NamesMemory])
  | csav i => exact (nextOrNoMemory_execCsav i s).of_transfer (c := .csav i) i (by simp [NamesMemory])
  | crst i => exact (nextOrNoMemory_execCrst i s).of_transfer (c := .crst i) i (by simp [NamesMemory])
  | _ => exact .inl ⟨_, rfl⟩
end Sys2Proof.Machine
end

section
/-! Arrival, the accesses of a command and the start of a run, and O28 (R192, R193, R200, R213, R227). -/

namespace Sys2Proof.Machine

/-! ### Channels and stacks under their updates -/

theorem getChan_updChan_other (s : State) (f : Chan → Chan) {c d : Nat} (h : d ≠ c) : getChan (updChan s c f) d = getChan s d :=
  smGet_smUpd_other chan0 _ _ _ _ (Ne.symm h)

theorem updChan_congr {s : State} {c : Nat} {f g : Chan → Chan} (h : f (getChan s c) = g (getChan s c)) :
    updChan s c f = updChan s c g := by
  unfold updChan smUpd
  rw [show f (smGet chan0 s.chans c) = g (smGet chan0 s.chans c) from h]

theorem getStk_updStk (s : State) (k : Nat) (f : Stack → Stack) : getStk (updStk s k f) k = f (getStk s k) := by
  unfold getStk updStk
  rw [smGet_smUpd, if_pos rfl]

theorem changesOnly_updStk (s : State) (k : Nat) (f : Stack → Stack) : ChangesOnly [.stks] s (updStk s k f) := fun p hp => by
  cases p <;> simp_all [Part.same]

/-- No margining step is in progress on the stack: none gives way. -/
theorem abortMargin_of_idle {k : Nat} {s : State} (h : (getStk s k).stepOn = false) (c : Nat) : abortMargin k c s = s :=
  if_neg (by simp [h])

/-! ### Arrival (R193) -/

/-- The earlier of two runs, the first where neither arrives before the other. -/
def earlierRun (b x : Run) : Run := if arrives x b then x else b

theorem arrives_self (r : Run) : arrives r r = false := by simp [arrives]

theorem foldl_earlierRun_of_first {b : Run} {l : List Run} (h : ∀ q ∈ l, arrives q b = false) : l.foldl earlierRun b = b := by
  induction l with
  | nil => rfl
  | cons x l ih =>
    have hx : earlierRun b x = b := if_neg (by simp [h x (by simp)])
    rw [List.foldl_cons, hx]
    exact ih fun q hq => h q (by simp [hq])

theorem foldl_earlierRun_mem (b : Run) (l : List Run) : l.foldl earlierRun b ∈ b :: l := by
  induction l generalizing b with
  | nil => simp
  | cons x l ih =>
    have hx : earlierRun b x = x ∨ earlierRun b x = b := by unfold earlierRun; split <;> simp
    have hmem := ih (earlierRun b x)
    rw [List.foldl_cons]
    rcases hx with hx | hx <;> rw [hx] at hmem ⊢ <;> simp only [List.mem_cons] at hmem ⊢ <;> tauto

theorem dropRun_append {r : Run} {l : List Run} (h : r ∉ l) (rest : List Run) : dropRun r (l ++ r :: rest) = l ++ rest := by
  induction l with
  | nil => exact if_pos rfl
  | cons x l ih =>
    rw [List.mem_cons, not_or] at h
    rw [List.cons_append, dropRun, if_neg (Ne.symm h.1), ih h.2, List.cons_append]

section
variable {ch : Nat} {r : Run} {l rest : List Run} {s : State}

theorem NextToArrive.notMem (h : NextToArrive ch r l rest s) : r ∉ l := fun hr => by
  obtain ⟨_, hch, hbefore, _⟩ := h
  exact absurd (hbefore r hr hch).2 (by simp [arrives_self])

theorem nextArrival_of_next (h : NextToArrive ch r l rest s) : nextArrival ch s.transit = some r := by
  obtain ⟨htransit, hch, hbefore, hbehind⟩ := h
  have hlast : ∀ b, arrives r b = true ∨ b = r →
      ((rest.filter fun q => chanOf q.pa == ch).filter fun q => q.tick == r.tick).foldl earlierRun (earlierRun b r) = r := by
    intro b hb
    have hr : earlierRun b r = r := by
      rcases hb with hb | rfl
      · exact if_pos hb
      · exact if_neg (by simp [arrives_self])
    rw [hr]
    refine foldl_earlierRun_of_first fun q hq => ?_
    simp only [List.mem_filter, beq_iff_eq] at hq
    exact hbehind q hq.1.1 hq.1.2 hq.2
  unfold nextArrival
  rw [htransit, List.filter_append, List.filter_cons_of_pos (by simpa using hch)]
  cases hl : l.filter fun q => chanOf q.pa == ch with
  | nil =>
    have hself : earlierRun r r = r := by unfold earlierRun; split <;> rfl
    have hfirst := hlast r (.inr rfl)
    rw [hself] at hfirst
    exact congrArg some hfirst
  | cons q0 l0 =>
    have hmem : ∀ q ∈ q0 :: l0, q.tick = r.tick ∧ arrives r q = true := fun q hq => by
      rw [← hl, List.mem_filter, beq_iff_eq] at hq
      exact hbefore q hq.1 hq.2
    have htick : q0.tick = r.tick := (hmem q0 (by simp)).1
    have hkeep : l0.filter (fun q => q.tick == r.tick) = l0 :=
      List.filter_eq_self.mpr fun q hq => by simpa using (hmem q (by simp [hq])).1
    have hall : ((l0 ++ r :: rest.filter fun q => chanOf q.pa == ch).filter fun q => q.tick == q0.tick).foldl earlierRun q0 = r := by
      rw [htick, List.filter_append, hkeep, List.filter_cons_of_pos (by simp), List.foldl_append, List.foldl_cons]
      exact hlast _ (.inl (hmem _ (foldl_earlierRun_mem q0 l0)).2)
    exact congrArg some hall

end

/-- The run that arrives joins its channel's queue as far as there is room; what has none stays on its way. -/
def runJoined (ch : Nat) (us : List Run) (left : List Run) (s : State) : State :=
  updChan { s with transit := us.drop (32 - (getChan s ch).queue.length) ++ left } ch fun q =>
    { q with queue := q.queue ++ us.take (32 - (getChan s ch).queue.length) }

theorem changesOnly_withTransit (s : State) (l : List Run) : ChangesOnly [.transit] s { s with transit := l } := fun p hp => by
  cases p <;> simp_all [Part.same]

theorem runRequest_joins {k : StackNo} {c : ChanNo} {r : Run} {l rest : List Run} {s : State}
    (h : NextToArrive (chanKey k c) r l rest s) (hroom : (getChan s (chanKey k c)).queue.length < 32) :
    exec (.runRequest k c) s = .next (runJoined (chanKey k c) (panUnits s r) (l ++ rest) s) := by
  show execRunRequest k c s = _
  unfold execRunRequest
  rw [if_neg (by omega)]
  unfold joinQueue
  rw [nextArrival_of_next h, h.1]
  dsimp only
  rw [dropRun_append h.notMem]
  rfl

/-! ### The accesses of a command (R227) -/

theorem panUnits_of_notPan {r : Run} (h : isPan r = false) (s : State) : panUnits s r = [r] := by
  unfold panUnits
  cases hk : r.kind <;> simp_all [isPan]

theorem panTensor_pan {r : Run} {cmd tensor : Nat} (h : r.kind = .pan cmd tensor) : panTensor r = tensor := by
  unfold panTensor
  rw [h]

theorem panUnits_grad {r : Run} {cmd tensor n : Nat} {e : TensorE} {s : State} (h : r.kind = .pan cmd tensor) (hcmd : cmd < 2)
    (hbeats : r.beats = 64 * n) (hn : n ≤ 16) (hunit : unitOk s r.pa = true)
    (hext : extentOf s r.part (r.pa / 2 ^ 36) tensor r.pa n = some e) :
    panUnits s r = (List.range n).map fun i =>
      { r with kind := .unit cmd tensor, pa := r.pa + i * unitBytes, beats := 64, data := (r.data.drop (4096 * i)).take 4096 } := by
  have hdiv : r.beats / 64 = n := by omega
  have hmod : r.beats % 64 = 0 := by omega
  unfold panUnits
  rw [h]
  dsimp only
  rw [if_pos (by omega)]
  unfold gradUnits
  dsimp only
  rw [panTensor_pan h, hdiv, hmod, hext, hunit, if_neg (by simpa using hn)]
  rfl

theorem panUnits_sweep {r : Run} {tensor n : Nat} {p : List Word} {e : TensorE} {s : State} (h : r.kind = .pan 3 tensor)
    (hsweep : sweepOf s (r.pa / 2 ^ 36) r = some (p, n, e)) :
    panUnits s r = (List.range n).map fun i => { r with kind := .unit 3 tensor, pa := r.pa + i * unitBytes } := by
  unfold panUnits
  rw [h]
  dsimp only
  rw [if_neg (by decide), if_neg (by decide), if_pos rfl]
  unfold sweepUnits
  rw [hsweep, panTensor_pan h]
  rfl

/-- A scatter-add of one row to a tensor of 32 columns has one access, without beats where the row is beyond the extent. -/
theorem panUnits_scatter {r : Run} {tensor n : Nat} {xs : List Word} {e : TensorE} {s : State} (h : r.kind = .pan 2 tensor)
    (hext : extentAt s r.part (r.pa / 2 ^ 36) tensor r.pa = some e) (hscat : tScatter e = true) (hnc : e.nc = 32)
    (hrows : scatterRows 32 (r.beats + 1) r.data = some [(n, xs)]) (hlen : xs.length = 32) :
    panUnits s r =
      if e.nunits ≤ n / 32 then [{ r with kind := .unit 2 tensor, beats := 0, data := [] }]
      else [{ r with kind := .unit 2 tensor, pa := e.pa + n / 32 * unitBytes, line := n % 32, beats := 2, data := bytesOf xs }] := by
  have hrow : rowUnits r e (n, xs) =
      if e.nunits ≤ n / 32 then [{ r with kind := .unit 2 tensor, beats := 0, data := [] }]
      else [{ r with kind := .unit 2 tensor, pa := e.pa + n / 32 * unitBytes, line := n % 32, beats := 2, data := bytesOf xs }] := by
    have htake : (xs.drop 0).take 32 = xs := by rw [List.drop_zero, ← hlen, List.take_length]
    unfold rowUnits
    rw [panTensor_pan h, hnc]
    simp only [Nat.reduceDiv, Nat.mul_one, Nat.add_sub_cancel]
    split
    · rfl
    · simp only [List.range_one, List.map_cons, List.map_nil, Nat.mul_zero, Nat.add_zero, htake]
  unfold panUnits
  rw [h]
  dsimp only
  rw [if_neg (by decide), if_pos rfl]
  unfold scatterUnits
  rw [panTensor_pan h, hext]
  dsimp only
  rw [if_neg (by simp [hscat, hnc]), hnc, hrows]
  dsimp only [Option.getD_some]
  rw [List.flatMap_cons, List.flatMap_nil, List.append_nil, hrow]

/-! ### A run starts (R192, R193, R200) -/

theorem startHost_of_none {k c bt : Nat} {host : List Byte} {s : State} (h : hostFirst s k c bt host = none) :
    startHost k c bt host s = s := by
  unfold startHost
  rw [h]

/-- The channel serves a run from byte time `bt`. -/
def serving (r : Run) (bt occ : Nat) (q : Chan) : Chan := { q with cur := some r, start := bt, freeAt := bt + occ }

/-- The channel serves the head of its queue from byte time `bt`. -/
def headServed (r : Run) (rs : List Run) (bt occ : Nat) (q : Chan) : Chan := { serving r bt occ q with queue := rs }

theorem nextRun_of_head {k : StackNo} {c : ChanNo} {bt : Nat} {r : Run} {rs : List Run} {s : State}
    (hretry : (getChan s (chanKey k c)).retry = none) (hqueue : (getChan s (chanKey k c)).queue = r :: rs)
    (hmay : mayStart s k c bt r = true) : nextRun s k c bt = some r := by
  have hreg : regulatorOk s k r.part bt (accessOcc s r) = true := (Bool.and_eq_true_iff.mp hmay).2
  unfold nextRun
  dsimp only
  rw [hretry, hqueue]
  exact if_pos (.inr hreg)

theorem startRun_head {k : StackNo} {c : ChanNo} {bt : Nat} {r : Run} {rs : List Run} {s : State}
    (hretry : (getChan s (chanKey k c)).retry = none) (hqueue : (getChan s (chanKey k c)).queue = r :: rs)
    (hpan : isPan r = false) (hstep : (getStk s k).stepOn = false) :
    startRun k c bt r s =
      takeTokens k r.part (runOcc s r) (updChan s (chanKey k c) (headServed r rs bt (runOcc s r))) := by
  have hocc : accessOcc s r = runOcc s r := if_neg (by simp [hpan])
  have hchan : updChan s (chanKey k c) (fun q =>
      { q with cur := some r, start := bt, freeAt := bt + runOcc s r,
               queue := if q.retry.isSome then q.queue else dropRun r q.queue, retry := none }) =
      updChan s (chanKey k c) (headServed r rs bt (runOcc s r)) :=
    updChan_congr (by simp [headServed, serving, hretry, hqueue, dropRun])
  unfold startRun
  dsimp only
  rw [hocc, hchan, abortMargin_of_idle (s := updChan s (chanKey k c) (headServed r rs bt (runOcc s r))) hstep]

theorem changesOnly_takeTokens (k part occ : Nat) (s : State) : ChangesOnly [.stks] s (takeTokens k part occ s) := by
  unfold takeTokens
  split
  · exact .refl _ s
  · exact changesOnly_updStk s k _

theorem tokens_takeTokens {part : Nat} (h : part ≠ 0) (k occ : Nat) (s : State) :
    smGet 0 (getStk (takeTokens k part occ s) k).tokens part = smGet 0 (getStk s k).tokens part - tokensOf occ := by
  unfold takeTokens
  rw [if_neg h, getStk_updStk]
  dsimp only
  rw [smGet_smUpd, if_pos rfl]

theorem runStart_head {k : StackNo} {c : ChanNo} {bt : Nat} {r : Run} {rs : List Run} (host : List Byte) {s : State}
    (hdrain : s.tick.draining = false) (hfree : chanFree s (chanKey k c) bt = true)
    (hretry : (getChan s (chanKey k c)).retry = none) (hqueue : (getChan s (chanKey k c)).queue = r :: rs)
    (hpan : isPan r = false) (hmay : mayStart s k c bt r = true) (hstep : (getStk s k).stepOn = false)
    (hdead : (getCore s r.core).dead = false) :
    exec (.runStart k c bt host) s = .next
      (takeTokens k r.part (runOcc s r) (updChan s (chanKey k c) (headServed r rs bt (runOcc s r)))) := by
  show execRunStart k c bt host s = _
  unfold execRunStart
  rw [if_neg (by simp [hdrain, hfree]), nextRun_of_head hretry hqueue hmay]
  dsimp only
  rw [if_neg (by simp [hmay]), if_neg (by simp [hpan]), startRun_head hretry hqueue hpan hstep]
  split
  · have hcores := changesOnly_takeTokens k r.part (runOcc s r)
      (updChan s (chanKey k c) (headServed r rs bt (runOcc s r))) .cores (by decide)
    refine congrArg _ (lapse_of_not_dead ?_)
    unfold getCore
    rw [hcores]
    exact hdead
  · rfl

theorem runStart_host {k : StackNo} {c : ChanNo} {bt : Nat} {host : List Byte} {s : State}
    (hdrain : s.tick.draining = false) (hfree : chanFree s (chanKey k c) bt = true) (hnone : nextRun s k c bt = none) :
    exec (.runStart k c bt host) s = .next (startHost k c bt host s) := by
  show execRunStart k c bt host s = _
  unfold execRunStart
  rw [if_neg (by simp [hdrain, hfree]), hnone]

theorem startHost_first {k : StackNo} {c : ChanNo} {bt j : Nat} {host : List Byte} {q : HostJob} {r : Run} {s : State}
    (hfirst : hostFirst s k c bt host = some (j, q, r)) (hguest : q.tries = 0 → guestFirst s k c bt q.order = false)
    (hshort : hostShort s j q r = false) (hstep : (getStk s k).stepOn = false) :
    startHost k c bt host s = updChan s (chanKey k c) (serving r bt (runOcc s r)) := by
  unfold startHost
  rw [hfirst]
  dsimp only
  rw [if_neg fun h => absurd h.2 (by simp [hguest h.1]), if_neg (by simp [hshort])]
  exact abortMargin_of_idle (s := updChan s (chanKey k c) (serving r bt (runOcc s r))) hstep c

theorem runStart_waits {k : StackNo} {c : ChanNo} {bt : Nat} {host : List Byte} {s : State}
    (h : s.tick.draining = true ∨ chanFree s (chanKey k c) bt = false ∨
      ((∀ r, mayStart s k c bt r = false) ∧ hostFirst s k c bt host = none)) : exec (.runStart k c bt host) s = .next s := by
  show execRunStart k c bt host s = _
  unfold execRunStart
  rcases h with hdrain | hbusy | ⟨hmay, hhost⟩
  · rw [if_pos (by simp [hdrain])]
  · rw [if_pos (by simp [hbusy])]
  · split
    · rfl
    · cases nextRun s k c bt with
      | none => exact congrArg _ (startHost_of_none hhost)
      | some r => exact congrArg _ ((if_pos (by simp [hmay])).trans (startHost_of_none hhost))

/-- Settles O28: the first of the runs in transit by a fold over their arrivals, a command's accesses by its kind, and a start
by the run that is next. -/
theorem runsQueueAndTakeTheirChannel : Obligations.RunsQueueAndTakeTheirChannel := by
  refine ⟨?_, fun r s h => panUnits_of_notPan h s, fun _ _ _ _ _ _ => panUnits_grad, fun _ _ _ _ _ _ => panUnits_scatter,
    fun _ _ _ _ _ _ => panUnits_sweep, ?_, ?_, ?_, fun _ _ _ _ _ => runStart_waits⟩
  · intro k c r l rest s hnext hroom
    refine ⟨_, runRequest_joins hnext hroom, rfl, getChan_updChan _ _ _, fun d hd => getChan_updChan_other _ _ hd, ?_⟩
    exact ((changesOnly_withTransit s _).mono (by decide)).trans ((changesOnly_updChan _ _ _).mono (by decide))
  · intro k c s hfull
    show execRunRequest k c s = _
    unfold execRunRequest
    rw [if_pos hfull]
  · intro k c bt host r rs s hdrain hfree hretry hqueue hpan hmay hstep hdead
    refine ⟨_, runStart_head host hdrain hfree hretry hqueue hpan hmay hstep hdead, ?_⟩
    have htokens := changesOnly_takeTokens k r.part (runOcc s r)
      (updChan s (chanKey k c) (headServed r rs bt (runOcc s r)))
    have hchan : ∀ d, getChan (takeTokens k r.part (runOcc s r)
        (updChan s (chanKey k c) (headServed r rs bt (runOcc s r)))) d =
        getChan (updChan s (chanKey k c) (headServed r rs bt (runOcc s r))) d := fun d => by
      unfold getChan
      rw [htokens .chans (by decide)]
    refine ⟨(hchan _).trans (getChan_updChan s _ _), fun d hd => (hchan d).trans (getChan_updChan_other s _ hd),
      fun hpart => tokens_takeTokens hpart _ _ _, fun hpart => ?_, ?_⟩
    · unfold takeTokens
      rw [if_pos hpart]
      rfl
    · exact ((changesOnly_updChan s _ _).mono (by decide)).trans (htokens.mono (by decide))
  · intro k c bt j host q r s hdrain hfree hnone hfirst hguest hshort hstep
    refine ⟨_, (runStart_host hdrain hfree hnone).trans (congrArg _ (startHost_first hfirst hguest hshort hstep)),
      getChan_updChan s _ _, fun d hd => getChan_updChan_other s _ hd, changesOnly_updChan s _ _⟩

end Sys2Proof.Machine
end

section
/-! Refresh and make-up windows, margining and the zeroing of changed channels, and O30 (R195, R197, R199, R208, R212). -/

namespace Sys2Proof.Machine

/-! ### Refresh windows (R195, R197, R199) -/

/-- A refresh window holds the channel from byte time `bt`. -/
def windowOpen (bt : Nat) (q : Chan) : Chan := { q with freeAt := max q.freeAt (bt + windowOcc) }

theorem takeWindow_of_idle {k : Nat} {s : State} (h : (getStk s k).stepOn = false) (c bt : Nat) :
    takeWindow k c bt s = updChan s (chanKey k c) (windowOpen bt) :=
  abortMargin_of_idle (s := updChan s (chanKey k c) (windowOpen bt)) h c

theorem changesOnly_withRefresh (s : State) (x : Refresh) : ChangesOnly [.refresh] s { s with refresh := x } := fun p hp => by
  cases p <;> simp_all [Part.same]

theorem running_of_windowsStand {s : State} (h : windowsStand s = true) : running s = true := by
  simp only [windowsStand, Bool.and_eq_true] at h
  exact h.1.1.1

theorem refreshWindow_planned {k : StackNo} {c : ChanNo} {bt : Nat} {s : State} (hboost : getF s R.TOP_MODE.BOOST = 0)
    (hstand : windowsStand s = true) (hbt : bt ∈ (tickWindows s k c).map fun w => ceilDiv (768 * w) 10)
    (hstep : (getStk s k).stepOn = false) :
    exec (.refreshWindow k c bt) s = .next (updChan s (chanKey k c) (windowOpen bt)) := by
  show execRefreshWindow k c bt s = _
  unfold execRefreshWindow
  rw [if_neg (by simp [running_of_windowsStand hstand]), if_neg (by simp [flagF_of_eq_zero hboost]),
    if_pos (by simp only [hstand, Bool.true_and, List.contains_iff_mem]; exact hbt), takeWindow_of_idle hstep]

/-- The channel's next window falls due a period later. -/
def dueMoved (ch due : Nat) (s : State) : State :=
  { s with refresh := { s.refresh with due := smSet 0 s.refresh.due ch due } }

theorem refreshWindow_due {k : StackNo} {c : ChanNo} {bt : Nat} {s : State} (hrun : running s = true)
    (hboost : getF s R.TOP_MODE.BOOST = 1) (hfree : chanFree s (chanKey k c) bt = true) (hdue : windowDue s k c bt = true)
    (hstep : (getStk s k).stepOn = false) :
    exec (.refreshWindow k c bt) s =
      .next (updChan (dueMoved (chanKey k c) (boostDue s k c) s) (chanKey k c) (windowOpen bt)) := by
  show execRefreshWindow k c bt s = _
  unfold execRefreshWindow
  rw [if_neg (by simp [hrun]), if_pos (flagF_of_eq_one hboost), if_pos (by simp [hfree, hdue])]
  exact congrArg _ (takeWindow_of_idle (s := dueMoved (chanKey k c) (boostDue s k c) s) hstep c bt)

theorem refreshWindow_notDue {k : StackNo} {c : ChanNo} {bt : Nat} {s : State} (hrun : running s = true)
    (hboost : getF s R.TOP_MODE.BOOST = 1) (hdue : windowDue s k c bt = false) :
    exec (.refreshWindow k c bt) s = .next s := by
  show execRefreshWindow k c bt s = _
  unfold execRefreshWindow
  rw [if_neg (by simp [hrun]), if_pos (flagF_of_eq_one hboost), if_neg (by simp [hdue])]

/-- The channel has paid one window more. -/
def windowPaid (ch : Nat) (s : State) : State :=
  { s with refresh := { s.refresh with paid := smUpd 0 s.refresh.paid ch (· + 1) } }

theorem debt_windowPaid (ch : Nat) (s : State) : debt (windowPaid ch s) ch = debt s ch - 1 := by
  unfold debt windowPaid
  dsimp only
  rw [smGet_smUpd, if_pos rfl]
  omega

theorem debt_windowPaid_other {ch d : Nat} (h : d ≠ ch) (s : State) : debt (windowPaid ch s) d = debt s d := by
  unfold debt windowPaid
  dsimp only
  rw [smGet_smUpd_other 0 _ _ _ _ (Ne.symm h)]

theorem makeupWindow_pays {k : StackNo} {c : ChanNo} {bt : Nat} {s : State} (hspan : makeupSpan s bt = true)
    (hdebt : 0 < debt s (chanKey k c)) (hfree : chanFree s (chanKey k c) bt = true)
    (hclear : clearOfWindows s k c bt windowOcc = true) (hstep : (getStk s k).stepOn = false) :
    exec (.makeupWindow k c bt) s = .next
      (incSat (windowPaid (chanKey k c) (updChan s (chanKey k c) (windowOpen bt))) (R.STK_REF_STA.MAKEUPS k) 1) := by
  show execMakeupWindow k c bt s = _
  unfold execMakeupWindow
  dsimp only
  rw [if_pos (by simp [hspan, hdebt, hfree, hclear]), takeWindow_of_idle hstep]
  rfl

/-! ### Margining (R212) -/

/-- A measurement begins; none of its steps is being made. -/
def marginBegun (q : Stack) : Stack := { q with margin := true, stepOn := false }

/-- A measurement is over. -/
def marginOver (q : Stack) : Stack := { q with margin := false, stepOn := false }

/-- A step of a measurement is being made. -/
def stepBegun (q : Stack) : Stack := { q with stepOn := true }

theorem stkMarginStart_begins {k : StackNo} {s : State} (h : getF s (R.STK_MARGIN_CTL.LANE k) ≤ 80) :
    exec (.stkMarginStart k) s = .next (setB (updStk s k marginBegun) (R.STK_MARGIN_RES.DONE k) false) :=
  congrArg Host.Outcome.next (if_neg (by omega))

theorem marginStep_begins {k : StackNo} {bt : Nat} {s : State} (h : marginOpen s k bt = true) :
    exec (.marginStep k bt none) s = .next (setB (updStk s k stepBegun) (R.STK_MARGIN_RES.ABORTED k) false) :=
  congrArg Host.Outcome.next (if_neg (by simp [h]))

/-- The fields of a result, with what they take. -/
def marginResult (k : StackNo) (low high : Nat) (pass : Bool) : List (Fld × Nat) :=
  [(R.STK_MARGIN_RES.LOW k, low), (R.STK_MARGIN_RES.HIGH k, high), (R.STK_MARGIN_RES.DONE k, 1),
   (R.STK_MARGIN_RES.ABORTED k, 0), (R.STK_MARGIN_RES.PASS k, if pass then 1 else 0)]

/-- The fields of a list are apart from each other and from those of an event. -/
def ApartFlds (e : Ev) (fs : List Fld) : Prop := (fs.map fldKey).Nodup ∧ ∀ f ∈ fs, ∀ g ∈ evFlds e, fldKey g ≠ fldKey f

/-- A field listed reads its value, also when an event of other fields has been raised behind it. -/
theorem getF_raise_setFs {e : Ev} {l : List (Fld × Nat)} (h : ApartFlds e (l.map Prod.fst)) {f : Fld} {v : Nat}
    (hf : (f, v) ∈ l) (s : State) : getF (raise e (setFs s l)) f = v % 2 ^ f.width := by
  obtain ⟨hkeys, hapart⟩ := h
  rw [getF_raise_other _ _ _ (hapart f (List.mem_map_of_mem (f := Prod.fst) hf))]
  exact getF_setFs (by rwa [List.map_map] at hkeys) hf s

theorem apart_marginResult (k : StackNo) : ApartFlds (E.STACK.MARGIN_DONE k) ((marginResult k 0 0 true).map Prod.fst) := by
  have hall : ∀ k : StackNo, ((((marginResult k 0 0 true).map Prod.fst).map fldKey).Nodup ∧
      ∀ f ∈ (marginResult k 0 0 true).map Prod.fst, ∀ g ∈ evFlds (E.STACK.MARGIN_DONE k), fldKey g ≠ fldKey f) := by decide
  exact hall k

theorem getF_marginResult {k : StackNo} {low high : Nat} {pass : Bool} {f : Fld} {v : Nat}
    (h : (f, v) ∈ marginResult k low high pass) (s : State) :
    getF (raise (E.STACK.MARGIN_DONE k) (setFs s (marginResult k low high pass))) f = v % 2 ^ f.width :=
  getF_raise_setFs (l := marginResult k low high pass) (apart_marginResult k) h s

/-- Does a measurement of these steps pass (R212)? -/
def marginPass (k : StackNo) (low high : Nat) (s : State) : Bool :=
  decide (marginNeed (getF s (R.STK_MARGIN_CTL.LANE k)) (getF s (R.STK_MARGIN_CTL.AXIS k)) ≤ low + high)

theorem marginDone_eq (k : StackNo) (low high : Nat) (s : State) :
    marginDone k low high s =
      raise (E.STACK.MARGIN_DONE k) (setFs (updStk s k marginOver) (marginResult k low high (marginPass k low high s))) := by
  simp only [marginDone, marginResult, marginPass, decide_eq_true_eq]
  rfl

theorem marginStep_ends {k : StackNo} {bt : Nat} {s : State} (low high : Nat) (hopen : marginOpen s k bt = true) :
    exec (.marginStep k bt (some (low, high))) s = .next (marginDone k low high s) :=
  congrArg Host.Outcome.next (if_neg (by simp [hopen]))

theorem marginDone_shows (k : StackNo) (low high : Nat) (s : State) :
    (getStk (marginDone k low high s) k).margin = false ∧
      getF (marginDone k low high s) (R.STK_MARGIN_RES.LOW k) = low % 256 ∧
      getF (marginDone k low high s) (R.STK_MARGIN_RES.HIGH k) = high % 256 ∧
      getF (marginDone k low high s) (R.STK_MARGIN_RES.DONE k) = 1 ∧
      getF (marginDone k low high s) (R.STK_MARGIN_RES.PASS k) =
        (if marginNeed (getF s (R.STK_MARGIN_CTL.LANE k)) (getF s (R.STK_MARGIN_CTL.AXIS k)) ≤ low + high then 1 else 0) ∧
      raised (E.STACK.MARGIN_DONE k) (marginDone k low high s) ∧ (marginDone k low high s).mem = s.mem := by
  rw [marginDone_eq]
  have hparts : ChangesOnly [.regs, .out, .hif] (updStk s k marginOver) (raise (E.STACK.MARGIN_DONE k)
      (setFs (updStk s k marginOver) (marginResult k low high (marginPass k low high s)))) :=
    ((changesOnly_setFs _ _).mono (by decide)).trans (changesOnly_raise _ _)
  refine ⟨?_, getF_marginResult (by simp [marginResult]) _, getF_marginResult (by simp [marginResult]) _,
    getF_marginResult (v := 1) (by simp [marginResult]) _, ?_, raised_raise _ _ (by show 8 < 16; decide), hparts .mem (by decide)⟩
  · unfold getStk
    rw [hparts .stks (by decide)]
    exact congrArg Stack.margin (getStk_updStk s k marginOver)
  · refine (getF_marginResult (v := if marginPass k low high s then 1 else 0) (by simp [marginResult]) _).trans ?_
    simp only [marginPass, decide_eq_true_eq]
    split <;> rfl

/-! ### The zeroing of changed channels (R208) -/

theorem smGet_smClear {β : Type} (d : β) (m : SMap β) (lo n j : Nat) :
    smGet d (smClear m lo n) j = if lo ≤ j ∧ j < lo + n then d else smGet d m j := by
  have hfind : smFind (smClear m lo n) j = if lo ≤ j ∧ j < lo + n then none else smFind m j := by
    unfold smClear
    induction m with
    | nil => simp [smFind]
    | cons e m ih =>
      by_cases hin : lo ≤ e.1 ∧ e.1 < lo + n
      · rw [List.filter_cons_of_neg (by simp [hin]), ih, smFind]
        split
        · rfl
        · next hj => exact (if_neg fun he : e.1 = j => hj (he ▸ hin)).symm
      · rw [List.filter_cons_of_pos (by simp; omega), smFind, ih, smFind]
        by_cases hj : e.1 = j
        · rw [if_pos hj, if_pos hj, if_neg (hj ▸ hin)]
        · rw [if_neg hj, if_neg hj]
  unfold smGet
  rw [hfind]
  split <;> rfl

/-- The address lies in the channel. -/
def InChannel (k c a : Nat) : Prop := k * 2 ^ 36 + c * 2 ^ 31 ≤ a ∧ a < k * 2 ^ 36 + (c + 1) * 2 ^ 31

theorem inChannel_iff {k c a : Nat} :
    InChannel k c a ↔ k * 2 ^ 36 + c * 2 ^ 31 ≤ a ∧ a < k * 2 ^ 36 + c * 2 ^ 31 + 2 ^ 31 := by
  rw [InChannel, Nat.add_mul, Nat.one_mul, Nat.add_assoc]

theorem rdMem_zeroChannel_inside {k c a : Nat} (h : InChannel k c a) (s : State) : rdMem (zeroChannel k c s) a = 0 := by
  unfold rdMem zeroChannel
  rw [smGet_smClear, if_pos (inChannel_iff.mp h)]

theorem rdMem_zeroChannel_outside {k c a : Nat} (h : ¬ InChannel k c a) (s : State) :
    rdMem (zeroChannel k c s) a = rdMem s a := by
  unfold rdMem zeroChannel
  rw [smGet_smClear, if_neg fun hin => h (inChannel_iff.mpr hin)]

/-- The channels are zeroed. -/
def channelsZeroed (k : Nat) (cs : List Nat) (s : State) : State := cs.foldl (fun s c => zeroChannel k c s) s

theorem rdMem_channelsZeroed_outside {k a : Nat} {cs : List Nat} (h : ∀ c ∈ cs, ¬ InChannel k c a) (s : State) :
    rdMem (channelsZeroed k cs s) a = rdMem s a := by
  induction cs generalizing s with
  | nil => rfl
  | cons c cs ih =>
    exact (ih (fun d hd => h d (by simp [hd])) _).trans (rdMem_zeroChannel_outside (h c (by simp)) s)

theorem rdMem_channelsZeroed_inside {k c a : Nat} {cs : List Nat} (hc : c ∈ cs) (h : InChannel k c a) (s : State) :
    rdMem (channelsZeroed k cs s) a = 0 := by
  have hzero : ∀ (ds : List Nat) (s : State), rdMem s a = 0 → rdMem (channelsZeroed k ds s) a = 0 := by
    intro ds
    induction ds with
    | nil => exact fun _ h0 => h0
    | cons d ds ih =>
      refine fun s h0 => ih _ ?_
      by_cases hd : InChannel k d a
      · exact rdMem_zeroChannel_inside hd s
      · exact (rdMem_zeroChannel_outside hd s).trans h0
  induction cs generalizing s with
  | nil => simp at hc
  | cons d cs ih =>
    rcases List.mem_cons.mp hc with rfl | hc
    · exact hzero cs _ (rdMem_zeroChannel_inside h s)
    · exact ih hc _

theorem changesOnly_channelsZeroed (k : Nat) (cs : List Nat) (s : State) : ChangesOnly [.mem] s (channelsZeroed k cs s) :=
  changesOnly_foldl (fun s c p hp => by cases p <;> simp_all [Part.same, zeroChannel]) cs s

/-- The channels of a stack that wait to be zeroed. -/
def waitingChans (k : Nat) (s : State) : List Nat := (List.range 32).filter fun c => bitsOf (getStk s k).zeroMask c 1 == 1

theorem mem_waitingChans {k c : Nat} {s : State} : c ∈ waitingChans k s ↔ c < 32 ∧ bitsOf (getStk s k).zeroMask c 1 = 1 := by
  simp [waitingChans]

/-- No channel waits to be zeroed. -/
def maskCleared (q : Stack) : Stack := { q with zeroMask := 0 }

theorem channelZeroingDone_eq (k : StackNo) (s : State) :
    exec (.channelZeroingDone k) s = .next
      (setB (updStk (channelsZeroed k (waitingChans k s) s) k maskCleared) (R.PG_STA.ZEROING (0x30 + k)) false) := rfl

/-! ### O30 -/

/-- Settles O30: each window by what its row does on a stack whose margining rests, a measurement by its result's fields, the
zeroing channel by channel. -/
theorem windowsMarginingAndZeroingUseTheChannel : Obligations.WindowsMarginingAndZeroingUseTheChannel := by
  refine ⟨?_, ?_, fun _ _ _ _ => refreshWindow_notDue, ?_, ?_, ?_, ?_, ?_⟩
  · intro k c bt s hboost hstand hbt hstep
    exact ⟨_, refreshWindow_planned hboost hstand hbt hstep, getChan_updChan s _ _,
      fun d hd => getChan_updChan_other s _ hd, changesOnly_updChan s _ _⟩
  · intro k c bt s hrun hboost hfree hdue hstep
    refine ⟨_, refreshWindow_due hrun hboost hfree hdue hstep, congrArg Chan.freeAt (getChan_updChan _ _ _), ?_,
      fun d hd => getChan_updChan_other (dueMoved _ _ s) _ hd, ?_⟩
    · exact (smGet_smSet 0 _ _ _ _).trans (if_pos rfl)
    · exact ((changesOnly_withRefresh s _).mono (by decide)).trans ((changesOnly_updChan _ _ _).mono (by decide))
  · intro k c bt s hspan hdebt hfree hclear hstep
    refine ⟨_, makeupWindow_pays hspan hdebt hfree hclear hstep, debt_windowPaid _ _, fun d hd => debt_windowPaid_other hd _,
      congrArg Chan.freeAt (getChan_updChan s _ _), getF_incSat _ _ _, ?_, ?_⟩
    · exact RegsBut.trans (.of_regs rfl) (regsBut_setF (windowPaid _ (updChan s _ _)) _ (by simp))
    · exact ((changesOnly_updChan s _ _).mono (by decide)).trans <|
        ((changesOnly_withRefresh _ _).mono (by decide)).trans ((changesOnly_setF _ _ _).mono (by decide))
  · intro k s hlane
    refine ⟨_, stkMarginStart_begins hlane, congrArg Stack.margin (getStk_updStk s k marginBegun),
      getF_setB _ _ false Nat.one_pos, ?_, ?_⟩
    · exact RegsBut.trans (.of_regs rfl) (regsBut_setB (updStk s _ _) false (by simp))
    · exact ((changesOnly_updStk s _ _).mono (by decide)).trans ((changesOnly_setB _ _ _).mono (by decide))
  · intro k bt s hopen
    refine ⟨_, marginStep_begins hopen, congrArg Stack.stepOn (getStk_updStk s k stepBegun), getF_setB _ _ false Nat.one_pos, ?_, ?_⟩
    · exact RegsBut.trans (.of_regs rfl) (regsBut_setB (updStk s _ _) false (by simp))
    · exact ((changesOnly_updStk s _ _).mono (by decide)).trans ((changesOnly_setB _ _ _).mono (by decide))
  · exact fun k bt low high s hopen => ⟨_, marginStep_ends low high hopen, marginDone_shows k low high s⟩
  · intro k s
    refine ⟨_, channelZeroingDone_eq k s, ?_, ?_, congrArg Stack.zeroMask (getStk_updStk _ _ _),
      getF_setB _ _ false Nat.one_pos, ?_⟩
    · intro c a hc hmask hlo hhi
      exact rdMem_channelsZeroed_inside (mem_waitingChans.mpr ⟨hc, hmask⟩) ⟨hlo, hhi⟩ s
    · intro a ha
      refine rdMem_channelsZeroed_outside (fun c hc hin => ?_) s
      obtain ⟨hc, hmask⟩ := mem_waitingChans.mp hc
      obtain ⟨hlo, hhi⟩ := hin
      have := ha c hc hmask
      omega
    · exact ((changesOnly_channelsZeroed k _ s).mono (by decide)).trans <|
        ((changesOnly_updStk _ _ _).mono (by decide)).trans ((changesOnly_setB _ _ _).mono (by decide))

end Sys2Proof.Machine
end

section
/-! Transfers of a Pantry and the runs of host work that make them, and O33 (R200, R236, R245, R246, R387). -/

namespace Sys2Proof.Machine

/-! ### Pantries and host work under their updates -/

theorem getPan_updPan (s : State) (k : Nat) (f : Pan → Pan) : getPan (updPan s k f) k = f (getPan s k) := by
  unfold getPan updPan
  rw [smGet_smUpd, if_pos rfl]

theorem getPan_updPan_other (s : State) (f : Pan → Pan) {k j : Nat} (h : j ≠ k) : getPan (updPan s k f) j = getPan s j :=
  smGet_smUpd_other pan0 _ _ _ _ (Ne.symm h)

theorem changesOnly_updPan (s : State) (k : Nat) (f : Pan → Pan) : ChangesOnly [.pans] s (updPan s k f) := fun p hp => by
  cases p <;> simp_all [Part.same]

theorem getPan_congr {s t : State} (h : t.pans = s.pans) (k : Nat) : getPan t k = getPan s k := by unfold getPan; rw [h]

theorem changesOnly_withHif (s : State) (x : HostIf) : ChangesOnly [.hif] s { s with hif := x } := fun p hp => by
  cases p <;> simp_all [Part.same]

theorem changesOnly_setJob (j : Nat) (q : Option HostJob) (s : State) : ChangesOnly [.hif] s (setJob j q s) :=
  changesOnly_withHif s _

theorem getJob_setJob (j : Nat) (q : Option HostJob) (s : State) : getJob (setJob j q s) j = q :=
  (smGet_smSet none _ _ _ _).trans (if_pos rfl)

/-- Work accepted stands behind all that waits. -/
theorem getJob_newJob (j : Nat) (q : HostJob) (s : State) : getJob (newJob j q s) j = some { q with order := s.hif.accepted } :=
  getJob_setJob _ _ _

theorem getJob_congr {s t : State} (h : t.hif.jobs = s.hif.jobs) (j : Nat) : getJob t j = getJob s j := by
  unfold getJob
  rw [h]

/-- Raising an event leaves the host work. -/
theorem raise_jobs (e : Ev) (s : State) : (raise e s).hif.jobs = s.hif.jobs := by
  unfold raise
  dsimp only
  rw [signal_hif]
  split <;> rfl

theorem changesOnly_serveWrite (pa : Nat) (bs : List Byte) (s : State) : ChangesOnly [.mem, .guest] s (serveWrite pa bs s) := by
  unfold serveWrite
  split
  · exact ((changesOnly_onGuest _ s).mono (by decide)).trans ((changesOnly_wrMems _ _ _).mono (by decide))
  · exact (changesOnly_wrMems s _ _).mono (by decide)

theorem mem_serveWrite (pa : Nat) (bs : List Byte) (s : State) : (serveWrite pa bs s).mem = smSetList 0 s.mem pa bs := by
  unfold serveWrite
  split <;> rfl

theorem rdMems_congr {s t : State} (h : t.mem = s.mem) (a n : Nat) : rdMems t a n = rdMems s a n := by unfold rdMems; rw [h]

/-! ### A transfer ends (R245, R246) -/

/-- What a transfer that fails shows. -/
def failShown (k cause : Nat) : List (Fld × Nat) :=
  [(R.PAN_EXP_STA.BUSY k, 0), (R.PAN_EXP_STA.DONE k, 0), (R.PAN_EXP_STA.FAIL k, 1), (R.PAN_EXP_STA.CAUSE k, cause)]

/-- What a transfer of `units` units that succeeds shows. -/
def doneShown (k units : Nat) : List (Fld × Nat) :=
  [(R.PAN_EXP_STA.BUSY k, 0), (R.PAN_EXP_STA.DONE k, 1), (R.PAN_EXP_STA.FAIL k, 0), (R.PAN_EXP_STA.CAUSE k, 0),
   (R.PAN_EXP_STA.UNITS k, units)]

/-- What a transfer that begins shows. -/
def busyShown (k : Nat) : List (Fld × Nat) :=
  [(R.PAN_EXP_STA.BUSY k, 1), (R.PAN_EXP_STA.DONE k, 0), (R.PAN_EXP_STA.FAIL k, 0), (R.PAN_EXP_STA.CAUSE k, 0),
   (R.PAN_EXP_STA.UNITS k, 0)]

/-- No transfer of the Pantry is in progress. -/
def noXfer (p : Pan) : Pan := { p with xfer := none }

theorem apart_failShown (k : StackNo) (cause : Nat) : ApartFlds (E.PANTRY.EXPORT_FAIL k) ((failShown k cause).map Prod.fst) := by
  have hall : ∀ k : StackNo, ((failShown k 0).map Prod.fst |>.map fldKey).Nodup ∧
      ∀ f ∈ (failShown k 0).map Prod.fst, ∀ g ∈ evFlds (E.PANTRY.EXPORT_FAIL k), fldKey g ≠ fldKey f := by decide
  exact hall k

theorem apart_doneShown (k : StackNo) (units : Nat) : ApartFlds (E.PANTRY.EXPORT_DONE k) ((doneShown k units).map Prod.fst) := by
  have hall : ∀ k : StackNo, ((doneShown k 0).map Prod.fst |>.map fldKey).Nodup ∧
      ∀ f ∈ (doneShown k 0).map Prod.fst, ∀ g ∈ evFlds (E.PANTRY.EXPORT_DONE k), fldKey g ≠ fldKey f := by decide
  exact hall k

theorem exportOk_eq (k units : Nat) (s : State) :
    exportOk k units s = raise (E.PANTRY.EXPORT_DONE k) (setFs (updPan s k noXfer) (doneShown k units)) := rfl

theorem changesOnly_shown (e : Ev) (k : Nat) (l : List (Fld × Nat)) (s : State) :
    ChangesOnly [.pans, .regs, .out, .hif] s (raise e (setFs (updPan s k noXfer) l)) :=
  ((changesOnly_updPan s k _).mono (by decide)).trans <| ((changesOnly_setFs _ _).mono (by decide)).trans
    ((changesOnly_raise _ _).mono (by decide))

theorem pans_shown (e : Ev) (k : Nat) (l : List (Fld × Nat)) (s : State) :
    (raise e (setFs (updPan s k noXfer) l)).pans = (updPan s k noXfer).pans := by
  rw [raise_pans, setFs_pans]

theorem xfer_shown (e : Ev) (k : Nat) (l : List (Fld × Nat)) (s : State) :
    (getPan (raise e (setFs (updPan s k noXfer) l)) k).xfer = none := by
  rw [getPan_congr (pans_shown e k l s), getPan_updPan]
  rfl

theorem exportFail_failed (k : StackNo) {cause : Nat} (h : cause < 16) (s : State) :
    ExpFailed k cause (exportFail k cause s) ∧ (exportFail k cause s).mem = s.mem := by
  have hshown : ∀ {f v}, (f, v) ∈ failShown k cause → getF (exportFail k cause s) f = v % 2 ^ f.width := fun hf =>
    getF_raise_setFs (apart_failShown k cause) hf _
  refine ⟨⟨hshown (v := 0) (by simp [failShown]), hshown (v := 0) (by simp [failShown]), hshown (v := 1) (by simp [failShown]),
    ?_, xfer_shown _ _ _ _, raised_raise _ _ (by show 7 < 16; decide)⟩, changesOnly_shown _ _ _ s .mem (by decide)⟩
  exact (hshown (v := cause) (by simp [failShown])).trans (Nat.mod_eq_of_lt h)

/-! ### A transfer begins (R245, R246) -/

/-- The content of a shard record that a transfer writes or reads (Table 8.9). -/
def xferContent (dir : Bool) (k : Nat) (s : State) : Nat :=
  1 + 2 * getF s (R.PAN_EXP_CTL.MOM k) + (if dir then 0 else 4 * getF s (R.PAN_EXP_CTL.GRAD k))

/-- The bytes of a record that START checks: of an import its head. -/
def xferBytes (dir : Bool) (units content : Nat) : Nat := if dir then 64 else 64 + units * bodyBytes content

/-- The Pantry with its transfer in progress. -/
def xferBegun (x : Bool × Nat × Nat × Nat × Bool) (p : Pan) : Pan := { p with xfer := some x }

/-- A transfer has begun. -/
def exportBegun (dir : Bool) (k : Nat) (t : TensorE) (units : List Nat) (s : State) : State :=
  setFs (newJob (expJob k) (exportJob s dir k (xferContent dir k s) t units)
    (updPan s k (xferBegun (dir, expTensor s k, xferContent dir k s, expAddr s k, false)))) (busyShown k)

/-- The units of the shard that a transfer names. -/
def xferUnits (k : Nat) (s : State) : List Nat := shardUnits (shardOf s k (expTensor s k))

section
variable {dir : Bool} {k : Nat} {s : State}

theorem exportStart_running (hbusy : getF s (R.PAN_EXP_STA.BUSY k) = 0) (hrun : running s = true) :
    exportStart true k s = exportFail k 5 s := by
  unfold exportStart
  dsimp only
  rw [if_neg (by simp [flagF_of_eq_zero hbusy]), if_pos (by simp [hrun])]

/-- What START does where no running import forbids it. -/
theorem exportStart_of_idle (hbusy : getF s (R.PAN_EXP_STA.BUSY k) = 0) (hidle : (dir && running s) = false) :
    exportStart dir k s = match shardOf s k (expTensor s k) with
      | [] => exportFail k 6 s
      | t :: l =>
        if (shardUnits (t :: l)).isEmpty then exportFail k 6 s
        else if !inCellar s (expAddr s k) (xferBytes dir (shardUnits (t :: l)).length (xferContent dir k s)) then exportFail k 4 s
        else exportBegun dir k t (shardUnits (t :: l)) s := by
  unfold exportStart
  dsimp only
  rw [if_neg (by simp [flagF_of_eq_zero hbusy]), if_neg (by simp [hidle])]
  rfl

theorem exportStart_noUnits (hbusy : getF s (R.PAN_EXP_STA.BUSY k) = 0) (hidle : (dir && running s) = false)
    (hunits : xferUnits k s = []) : exportStart dir k s = exportFail k 6 s := by
  unfold xferUnits at hunits
  rw [exportStart_of_idle hbusy hidle]
  split
  · rfl
  · next h => rw [if_pos (by rw [← h, hunits]; rfl)]

theorem shardOf_of_units (hunits : xferUnits k s ≠ []) : ∃ t l, shardOf s k (expTensor s k) = t :: l := by
  cases h : shardOf s k (expTensor s k) with
  | nil => exact absurd (by unfold xferUnits; rw [h]; rfl) hunits
  | cons t l => exact ⟨t, l, rfl⟩

theorem exportStart_units (hbusy : getF s (R.PAN_EXP_STA.BUSY k) = 0) (hidle : (dir && running s) = false)
    (hunits : xferUnits k s ≠ []) :
    ∃ t, exportStart dir k s =
      if inCellar s (expAddr s k) (xferBytes dir (xferUnits k s).length (xferContent dir k s)) = false then exportFail k 4 s
      else exportBegun dir k t (xferUnits k s) s := by
  obtain ⟨t, l, hl⟩ := shardOf_of_units hunits
  have hus : shardUnits (t :: l) = xferUnits k s := by unfold xferUnits; rw [hl]
  refine ⟨t, ?_⟩
  rw [exportStart_of_idle hbusy hidle, hl]
  dsimp only
  rw [hus, if_neg (by simpa using hunits)]
  simp only [Bool.not_eq_true']

/-- What holds of each outcome of START is what its row answers, where no running import forbids it. -/
theorem exportStart_answers {i : Instr} {P : State → Prop} (hi : exec i s = .next (exportStart dir k s))
    (hbusy : getF s (R.PAN_EXP_STA.BUSY k) = 0) (hidle : (dir && running s) = false)
    (hnone : xferUnits k s = [] → P (exportFail k 6 s))
    (hout : xferUnits k s ≠ [] →
      inCellar s (expAddr s k) (xferBytes dir (xferUnits k s).length (xferContent dir k s)) = false → P (exportFail k 4 s))
    (hbegun : xferUnits k s ≠ [] →
      ¬ inCellar s (expAddr s k) (xferBytes dir (xferUnits k s).length (xferContent dir k s)) = false →
      ∀ t, P (exportBegun dir k t (xferUnits k s) s)) : Answers i s P := by
  refine ⟨_, hi, ?_⟩
  by_cases hus : xferUnits k s = []
  · rw [exportStart_noUnits hbusy hidle hus]
    exact hnone hus
  obtain ⟨t, ht⟩ := exportStart_units hbusy hidle hus
  rw [ht]
  split
  · next hcell => exact hout hus hcell
  · next hcell => exact hbegun hus hcell t

end

/-- What a transfer that has begun shows and has to do. -/
theorem exportBegun_shows (dir : Bool) (k : StackNo) (t : TensorE) (units : List Nat) (s : State) :
    (exportBegun dir k t units s).mem = s.mem ∧
      getF (exportBegun dir k t units s) (R.PAN_EXP_STA.BUSY k) = 1 ∧
      getF (exportBegun dir k t units s) (R.PAN_EXP_STA.DONE k) = 0 ∧
      getF (exportBegun dir k t units s) (R.PAN_EXP_STA.FAIL k) = 0 ∧
      (getPan (exportBegun dir k t units s) k).xfer = some (dir, expTensor s k, xferContent dir k s, expAddr s k, false) ∧
      getJob (exportBegun dir k t units s) (expJob k) =
        some { exportJob s dir k (xferContent dir k s) t units with order := s.hif.accepted } := by
  have hkeys : ∀ k : StackNo, ((busyShown k).map fun e => fldKey e.1).Nodup := by decide
  refine ⟨setFs_mem _ _, getF_setFs (v := 1) (hkeys k) (by simp [busyShown]) _, getF_setFs (v := 0) (hkeys k) (by simp [busyShown]) _,
    getF_setFs (v := 0) (hkeys k) (by simp [busyShown]) _, ?_, ?_⟩
  · unfold exportBegun
    rw [getPan_congr (setFs_pans _ _)]
    exact congrArg Pan.xfer (getPan_updPan s k _)
  · unfold exportBegun
    rw [getJob_congr (congrArg HostIf.jobs (setFs_hif _ _))]
    exact getJob_newJob _ _ _

/-! ### A run of host work ends (R387) -/

theorem runEnd_host {k : StackNo} {c : ChanNo} {r : Run} {j : Nat} {wr : Bool} {s : State}
    (hcur : (getChan s (chanKey k c)).cur = some r) (hkind : r.kind = .host j wr) :
    exec (.runEnd k c false .clean [] []) s = .next (hostMoved j r (updChan s (chanKey k c) chanIdle)) := by
  show execRunEnd k c false .clean [] [] s = _
  unfold execRunEnd
  dsimp only
  rw [hcur]
  dsimp only
  rw [hkind]
  rfl

/-- A write of host work reaches its bytes; beside them its work and the guest's notes change. -/
theorem hostMoved_write {j : Nat} {r : Run} {q : HostJob} {s : State} (hkind : r.kind = .host j true)
    (hjob : getJob s j = some q) : ∃ p, hostMoved j r s = setJob j (some p) (serveWrite r.pa r.data s) := by
  unfold hostMoved
  rw [hjob]
  dsimp only
  rw [hkind]
  exact ⟨_, rfl⟩

/-- The work whose last read of a stage has brought `data`. -/
def readsDone (q : HostJob) (data : List Byte) : HostJob := { q with todo := [], tries := 0, got := q.got ++ data }

/-- The last read of a stage of a transfer: the stage is over with its bytes. -/
theorem hostMoved_lastRead {x : StackNo} {r : Run} {q : HostJob} {a : HostAcc} {s : State}
    (hkind : r.kind = .host (expJob x) false) (hjob : getJob s (expJob x) = some q) (htodo : q.todo = [a]) (hwr : a.wr = false)
    (hlen : a.len ≤ 64 * r.beats) :
    hostMoved (expJob x) r s = setJob (expJob x)
      (some (exportStage s x (readsDone q (rdMems s r.pa a.len)))) s := by
  have hj : ¬ expJob x < 16 := by unfold expJob; omega
  have hj28 : 16 ≤ expJob x ∧ expJob x < 28 := by unfold expJob; omega
  have hx : expJob x - 16 = x := by unfold expJob; omega
  have hmin : min a.len (64 * r.beats) = a.len := Nat.min_eq_left hlen
  have hadv : advance a.len [a] = [] := if_pos (Nat.le_refl _)
  unfold hostMoved
  rw [hjob]
  dsimp only
  rw [htodo]
  simp only [hkind, isWrite, hwr, hmin, hadv, hx, hj, hj28, List.isEmpty_nil, Bool.false_eq_true, if_false, Bool.not_false,
    and_self, if_true, readsDone]

theorem lastReadEnd {k x : StackNo} {c : ChanNo} {r : Run} {q : HostJob} {a : HostAcc} {s : State}
    (hcur : (getChan s (chanKey k c)).cur = some r) (hkind : r.kind = .host (expJob x) false)
    (hjob : getJob s (expJob x) = some q) (htodo : q.todo = [a]) (hwr : a.wr = false) (hlen : a.len ≤ 64 * r.beats) :
    exec (.runEnd k c false .clean [] []) s = .next (setJob (expJob x)
      (some (exportStage s x (readsDone q (rdMems s r.pa a.len)))) (updChan s (chanKey k c) chanIdle)) := by
  rw [runEnd_host hcur hkind, hostMoved_lastRead (s := updChan s (chanKey k c) chanIdle) hkind hjob htodo hwr hlen]
  rfl

/-- The last read of a shard that goes out: its record is what is left to write, unless it is torn. -/
theorem exportStage_export {x : StackNo} {q : HostJob} {tensor content pa : Nat} {torn : Bool} {e : TensorE} {l : List TensorE}
    {s : State} (hxfer : (getPan s x).xfer = some (false, tensor, content, pa, torn)) (hshard : shardOf s x tensor = e :: l)
    (hphase : q.phase = 0) :
    exportStage s x q =
      { q with todo := if torn then [] else [writeAcc pa (shardRecord q.head q.got)], got := [], phase := 1 } := by
  unfold exportStage
  rw [hxfer]
  dsimp only
  rw [hshard]
  exact (if_neg (by simp)).trans (if_pos hphase)

/-- The end of an import's reads of a record's body: it fails its checks, or its units are left to write. -/
theorem exportStage_import {x : StackNo} {q : HostJob} {tensor content pa : Nat} {e : TensorE} {l : List TensorE}
    {s : State} (hxfer : (getPan s x).xfer = some (true, tensor, content, pa, false)) (hshard : shardOf s x tensor = e :: l)
    (hphase : q.phase = 1) :
    exportStage s x q = match importCheck q.head q.got e (shardUnits (e :: l)).length with
      | some cause => failJob q cause
      | none => { q with todo := importAll (field q.head 33 1) (shardUnits (e :: l)) q.got, got := [], phase := 2 } := by
  unfold exportStage
  rw [hxfer]
  dsimp only
  rw [hshard]
  dsimp only
  rw [if_pos rfl, if_pos (by omega)]
  unfold importStage
  exact if_neg (by omega)

/-! ### The flag bytes of imported units (R246) -/

/-- The flag bytes of units are cleared. -/
def flagsCleared (k : Nat) (us : List Nat) (s : State) : State := us.foldl (fun s pa => setFlag k (unitNo pa) 0 s) s

theorem flagByte_setFlag (k u v b : Nat) (s : State) : flagByte (setFlag k u b s) k v = if u = v then b else flagByte s k v := by
  unfold flagByte setFlag
  rw [getPan_updPan]
  exact smGet_smSet 0 _ _ _ _

theorem flagByte_flagsCleared {k pa : Nat} {us : List Nat} (h : pa ∈ us) (s : State) :
    flagByte (flagsCleared k us s) k (unitNo pa) = 0 := by
  have hkept : ∀ (us : List Nat) (s : State), flagByte s k (unitNo pa) = 0 → flagByte (flagsCleared k us s) k (unitNo pa) = 0 := by
    intro us
    induction us with
    | nil => exact fun _ h0 => h0
    | cons u us ih =>
      refine fun s h0 => ih _ ?_
      rw [flagByte_setFlag]
      split
      · rfl
      · exact h0
  induction us generalizing s with
  | nil => simp at h
  | cons u us ih =>
    rcases List.mem_cons.mp h with rfl | h
    · exact hkept us _ ((flagByte_setFlag ..).trans (if_pos rfl))
    · exact ih h _

theorem changesOnly_flagsCleared (k : Nat) (us : List Nat) (s : State) : ChangesOnly [.pans] s (flagsCleared k us s) :=
  changesOnly_foldl (fun s _ => changesOnly_updPan s k _) us s

/-! ### The end of a transfer shows (R245, R246) -/

theorem exportDone_over {k : StackNo} {dir torn : Bool} {tensor content pa : Nat} {q : HostJob} {s : State}
    (hxfer : (getPan s k).xfer = some (dir, tensor, content, pa, torn)) (hjob : getJob s (expJob k) = some q)
    (hover : exportOver dir q = true) :
    exec (.exportDone k) s = .next
      (if q.fault ≠ 0 then exportFail k q.fault (setJob (expJob k) none s)
       else exportEnd dir torn k (shardUnits (shardOf s k tensor)) (setJob (expJob k) none s)) := by
  show execExportDone k s = _
  unfold execExportDone
  rw [hxfer, hjob]
  exact congrArg Host.Outcome.next (if_neg (by simp [hover]))

theorem exportDone_goesOn {k : StackNo} {dir torn : Bool} {tensor content pa : Nat} {q : HostJob} {s : State}
    (hxfer : (getPan s k).xfer = some (dir, tensor, content, pa, torn)) (hjob : getJob s (expJob k) = some q)
    (hover : exportOver dir q = false) : exec (.exportDone k) s = .next s := by
  show execExportDone k s = _
  unfold execExportDone
  rw [hxfer, hjob]
  exact congrArg Host.Outcome.next (if_pos (by simp [hover]))

/-- What a transfer of whole units that ends with success shows. -/
theorem exportOk_shows (k : StackNo) (units : Nat) (s : State) :
    getF (exportOk k units s) (R.PAN_EXP_STA.BUSY k) = 0 ∧ getF (exportOk k units s) (R.PAN_EXP_STA.DONE k) = 1 ∧
      getF (exportOk k units s) (R.PAN_EXP_STA.FAIL k) = 0 ∧ getF (exportOk k units s) (R.PAN_EXP_STA.UNITS k) = units % 2 ^ 24 ∧
      (getPan (exportOk k units s) k).xfer = none ∧ (exportOk k units s).hif.jobs = s.hif.jobs ∧
      raised (E.PANTRY.EXPORT_DONE k) (exportOk k units s) ∧ (exportOk k units s).mem = s.mem ∧
      ∀ u, flagByte (exportOk k units s) k u = flagByte s k u := by
  have hshown : ∀ {f v}, (f, v) ∈ doneShown k units → getF (exportOk k units s) f = v % 2 ^ f.width := fun hf =>
    getF_raise_setFs (apart_doneShown k units) hf _
  refine ⟨hshown (v := 0) (by simp [doneShown]), hshown (v := 1) (by simp [doneShown]), hshown (v := 0) (by simp [doneShown]),
    hshown (v := units) (by simp [doneShown]), xfer_shown _ _ _ _, ?_, raised_raise _ _ (by show 6 < 16; decide),
    changesOnly_shown _ _ _ s .mem (by decide), fun u => ?_⟩
  · rw [exportOk_eq, raise_jobs, setFs_hif]
    rfl
  · unfold flagByte
    rw [exportOk_eq, getPan_congr (pans_shown _ _ _ s), getPan_updPan]
    rfl

/-! ### O33 -/

/-- A transfer that has been served, without a fault and whole, shows its end. -/
theorem exportDone_succeeds {k : StackNo} {dir : Bool} {tensor content pa : Nat} {q : HostJob} {s : State}
    (hxfer : (getPan s k).xfer = some (dir, tensor, content, pa, false)) (hjob : getJob s (expJob k) = some q)
    (hover : exportOver dir q = true) (hfault : q.fault = 0) :
    Answers (.exportDone k) s fun t =>
      getF t (R.PAN_EXP_STA.BUSY k) = 0 ∧ getF t (R.PAN_EXP_STA.DONE k) = 1 ∧ getF t (R.PAN_EXP_STA.FAIL k) = 0 ∧
      getF t (R.PAN_EXP_STA.UNITS k) = (shardUnits (shardOf s k tensor)).length % 2 ^ 24 ∧ (getPan t k).xfer = none ∧
      getJob t (expJob k) = none ∧ raised (E.PANTRY.EXPORT_DONE k) t ∧ t.mem = s.mem ∧
      (dir = true → ∀ u ∈ shardUnits (shardOf s k tensor), flagByte t k (unitNo u) = 0) := by
  obtain ⟨us, hus⟩ : ∃ us, us = shardUnits (shardOf s k tensor) := ⟨_, rfl⟩
  obtain ⟨u, hu⟩ : ∃ u, u = if dir then flagsCleared k us (setJob (expJob k) none s) else setJob (expJob k) none s := ⟨_, rfl⟩
  have hend : exec (.exportDone k) s = .next (exportOk k us.length u) := by
    rw [exportDone_over hxfer hjob hover, if_neg (by simp [hfault]), ← hus, hu]
    rfl
  have hparts : ChangesOnly [.pans] (setJob (expJob k) none s) u := by
    rw [hu]
    split
    · exact changesOnly_flagsCleared _ _ _
    · exact .refl _ _
  obtain ⟨hbusy, hdone, hfail, hunits, hx, hjobs, hraised, hmem, hflags⟩ := exportOk_shows k us.length u
  rw [← hus]
  refine ⟨_, hend, hbusy, hdone, hfail, hunits, hx, ?_, hraised, hmem.trans (hparts .mem (by decide)), fun hdir v hv => ?_⟩
  · rw [getJob_congr (hjobs.trans (congrArg HostIf.jobs (hparts .hif (by decide))))]
    exact getJob_setJob _ _ _
  · rw [hflags, hu, if_pos hdir]
    exact flagByte_flagsCleared hv _

/-- A write of host work that ends without error moves its bytes. -/
theorem hostWriteEnd_moves {k : StackNo} {c : ChanNo} {r : Run} {j : Nat} {q : HostJob} {s : State}
    (hcur : (getChan s (chanKey k c)).cur = some r) (hkind : r.kind = .host j true) (hjob : getJob s j = some q) :
    Answers (.runEnd k c false .clean [] []) s fun t =>
      rdMems t r.pa r.data.length = r.data ∧ (∀ a, (a < r.pa ∨ r.pa + r.data.length ≤ a) → rdMem t a = rdMem s a) ∧
      (getChan t (chanKey k c)).cur = none := by
  obtain ⟨p, hp⟩ := hostMoved_write (s := updChan s (chanKey k c) chanIdle) hkind hjob
  have hmem := mem_serveWrite r.pa r.data (updChan s (chanKey k c) chanIdle)
  have hparts := changesOnly_serveWrite r.pa r.data (updChan s (chanKey k c) chanIdle)
  have hchans : (setJob j (some p) (serveWrite r.pa r.data (updChan s (chanKey k c) chanIdle))).chans =
    (updChan s (chanKey k c) chanIdle).chans := hparts .chans (by decide)
  refine ⟨_, (runEnd_host hcur hkind).trans (congrArg _ hp), rdMems_written (s := s) hmem,
    fun a ha => rdMem_unwritten (s := s) hmem ha, ?_⟩
  unfold getChan
  rw [hchans]
  exact congrArg Chan.cur (getChan_updChan s _ chanIdle)

/-- Settles O33: START by its checks in turn, the stages by the last read of each, the end by what it shows. -/
theorem exportAndImportMoveTheShard : Obligations.ExportAndImportMoveTheShard := by
  refine ⟨?_, ?_, ?_, ?_, fun _ _ _ _ _ _ => hostWriteEnd_moves, fun _ _ _ _ _ _ _ => exportDone_succeeds, ?_,
    fun _ _ _ _ _ _ _ _ => exportDone_goesOn, ?_⟩
  · intro k s hbusy us content
    refine exportStart_answers (dir := false) rfl hbusy rfl (fun (hus : us = []) => ?_)
      (fun (hus : ¬ us = []) (hcell : inCellar s (expAddr s k) (64 + us.length * bodyBytes content) = false) => ?_)
      fun (hus : ¬ us = []) (hcell : ¬ inCellar s (expAddr s k) (64 + us.length * bodyBytes content) = false) t => ?_
    · rw [if_pos hus]
      exact (exportFail_failed k (by decide) s).symm
    · rw [if_neg hus, if_pos hcell]
      exact (exportFail_failed k (by decide) s).symm
    · rw [if_neg hus, if_neg hcell]
      obtain ⟨hmem, hbusy', hdone, hfail, hxfer, hjob⟩ := exportBegun_shows false k t us s
      exact ⟨hmem, hbusy', hdone, hfail, hxfer, _, hjob, rfl, rfl⟩
  · intro k s hbusy us
    by_cases hrun : running s = true
    · refine ⟨_, congrArg Host.Outcome.next (exportStart_running hbusy hrun), ?_⟩
      simp only [if_pos hrun]
      exact (exportFail_failed k (by decide) s).symm
    simp only [if_neg hrun]
    refine exportStart_answers (dir := true) rfl hbusy (by simpa using hrun) (fun (hus : us = []) => ?_)
      (fun (hus : ¬ us = []) (hcell : inCellar s (expAddr s k) 64 = false) => ?_)
      fun (hus : ¬ us = []) (hcell : ¬ inCellar s (expAddr s k) 64 = false) t => ?_
    · rw [if_pos hus]
      exact (exportFail_failed k (by decide) s).symm
    · rw [if_neg hus, if_pos hcell]
      exact (exportFail_failed k (by decide) s).symm
    · rw [if_neg hus, if_neg hcell]
      obtain ⟨hmem, hbusy', _, _, hxfer, hjob⟩ := exportBegun_shows true k t us s
      exact ⟨hmem, hbusy', hxfer, _, hjob, rfl, rfl⟩
  · intro k x c r q a tensor content pa torn e l s hcur hkind hjob htodo hwr hlen hphase hxfer hshard
    refine ⟨_, lastReadEnd hcur hkind hjob htodo hwr hlen, ?_⟩
    rw [exportStage_export (q := readsDone q _) hxfer hshard hphase]
    exact ⟨rfl, congrArg Chan.cur (getChan_updChan s _ chanIdle), _, getJob_setJob _ _ _, rfl, rfl⟩
  · intro k x c r q a tensor content pa e l s hcur hkind hjob htodo hwr hlen hphase hxfer hshard us body
    refine ⟨_, lastReadEnd hcur hkind hjob htodo hwr hlen, _, getJob_setJob _ _ _, ?_⟩
    rw [exportStage_import (q := readsDone q _) hxfer hshard hphase,
      show importCheck (readsDone q (rdMems s r.pa a.len)).head (readsDone q (rdMems s r.pa a.len)).got e _ =
        importCheck q.head body e us.length from rfl]
    cases importCheck q.head body e us.length with
    | some cause => exact ⟨rfl, rfl⟩
    | none => exact ⟨rfl, rfl⟩
  · intro k dir tensor content pa torn q s hxfer hjob hover hwhy hlt
    refine ⟨_, exportDone_over hxfer hjob hover, ?_⟩
    by_cases hfault : q.fault ≠ 0
    · rw [if_pos hfault, if_pos hfault]
      exact exportFail_failed k hlt _
    · obtain rfl : torn = true := hwhy.resolve_left hfault
      rw [if_neg hfault, if_neg hfault]
      exact exportFail_failed k (by decide) _
  · intro k s
    exact ⟨_, rfl, getPan_updPan s k _, fun j hj => getPan_updPan_other s _ (Fin.val_ne_of_ne hj), changesOnly_updPan s k _⟩

end Sys2Proof.Machine
end

section
/-! Host DMA, BAR2 and the host link, and O59 (R200, R202, R383, R384, R386, R387). -/

namespace Sys2Proof.Machine

/-! ### A DMA channel's transfer (R386, R387) -/

/-- What a transfer that starts shows. -/
def dmaShown (n : Nat) : List (Fld × Nat) := [(R.HIF_DMA_STA.BUSY n, 1), (R.HIF_DMA_STA.DONE n, 0), (R.HIF_DMA_STA.ERR n, 0)]

/-- The transfer that the registers of DMA channel `n` ask for. -/
def dmaAsked (n : Nat) (s : State) : HostJob :=
  dmaJob (getF s (R.HIF_PF_MAP.CH n)) (getF s (R.HIF_DMA_CTL.DIR n))
    (getF s (R.HIF_DMA_HADDR_LO.HADDR n) + 2 ^ 32 * getF s (R.HIF_DMA_HADDR_HI.HADDR n))
    (256 * getF s (R.HIF_DMA_PA.PA n)) (256 * getF s (R.HIF_DMA_LEN.LEN n))

/-- The transfer of channel `n` has begun. -/
def dmaBegun (n : Nat) (s : State) : State := setFs (newJob n (dmaAsked n s) s) (dmaShown n)

theorem dmaStart_begins {n : Nat} {s : State} (hbusy : getF s (R.HIF_DMA_STA.BUSY n) = 0)
    (hlen : 256 * getF s (R.HIF_DMA_LEN.LEN n) ≠ 0) (hpart : partExists s (getF s (R.HIF_PF_MAP.CH n)) = true)
    (hown : spanOwned s (getF s (R.HIF_PF_MAP.CH n)) (256 * getF s (R.HIF_DMA_PA.PA n)) (256 * getF s (R.HIF_DMA_LEN.LEN n)) = true) :
    dmaStart n s = dmaBegun n s := by
  unfold dmaStart
  dsimp only
  rw [if_neg (by simp [flagF_of_eq_zero hbusy]), if_neg (by simp [hlen, hpart, hown])]
  rfl

theorem dmaStart_refused {n : Nat} {s : State} (hbusy : getF s (R.HIF_DMA_STA.BUSY n) = 0)
    (h : 256 * getF s (R.HIF_DMA_LEN.LEN n) = 0 ∨ partExists s (getF s (R.HIF_PF_MAP.CH n)) = false ∨
      spanOwned s (getF s (R.HIF_PF_MAP.CH n)) (256 * getF s (R.HIF_DMA_PA.PA n)) (256 * getF s (R.HIF_DMA_LEN.LEN n)) = false) :
    dmaStart n s = raise E.HOSTIF.DMA_ERR (setB s (R.HIF_DMA_STA.ERR n) true) := by
  unfold dmaStart
  dsimp only
  rw [if_neg (by simp [flagF_of_eq_zero hbusy]), if_pos (by simpa only [Bool.not_eq_true'] using h)]

theorem dmaStart_busy {n : Nat} {s : State} (h : getF s (R.HIF_DMA_STA.BUSY n) = 1) : dmaStart n s = s :=
  if_pos (flagF_of_eq_one h)

theorem dmaBegun_shows (n : Fin 16) (s : State) :
    getJob (dmaBegun n s) n = some { dmaAsked n s with order := s.hif.accepted } ∧
      getF (dmaBegun n s) (R.HIF_DMA_STA.BUSY n) = 1 ∧ getF (dmaBegun n s) (R.HIF_DMA_STA.DONE n) = 0 ∧
      getF (dmaBegun n s) (R.HIF_DMA_STA.ERR n) = 0 ∧ (dmaBegun n s).mem = s.mem := by
  have hkeys : ∀ n : Fin 16, ((dmaShown n).map fun e => fldKey e.1).Nodup := by decide
  refine ⟨?_, getF_setFs (v := 1) (hkeys n) (by simp [dmaShown]) _, getF_setFs (v := 0) (hkeys n) (by simp [dmaShown]) _,
    getF_setFs (v := 0) (hkeys n) (by simp [dmaShown]) _, setFs_mem _ _⟩
  unfold dmaBegun
  rw [getJob_congr (congrArg HostIf.jobs (setFs_hif _ _))]
  exact getJob_newJob _ _ _

theorem dmaStart_answers (n : Fin 16) {s : State} (hbusy : getF s (R.HIF_DMA_STA.BUSY n) = 0) :
    let p := getF s (R.HIF_PF_MAP.CH n)
    let pa := 256 * getF s (R.HIF_DMA_PA.PA n)
    let len := 256 * getF s (R.HIF_DMA_LEN.LEN n)
    (len ≠ 0 → partExists s p = true → spanOwned s p pa len = true → Answers (.dmaStart n) s fun t =>
      (∃ q, getJob t n = some q ∧ q.part = p ∧ q.order = s.hif.accepted ∧ q.fault = 0 ∧
        q.haddr = getF s (R.HIF_DMA_HADDR_LO.HADDR n) + 2 ^ 32 * getF s (R.HIF_DMA_HADDR_HI.HADDR n) ∧
        q.todo = [{ pa := pa, len := len, wr := getF s (R.HIF_DMA_CTL.DIR n) == 0, data := [] }]) ∧
      getF t (R.HIF_DMA_STA.BUSY n) = 1 ∧ getF t (R.HIF_DMA_STA.DONE n) = 0 ∧ getF t (R.HIF_DMA_STA.ERR n) = 0 ∧ t.mem = s.mem) ∧
    ((len = 0 ∨ partExists s p = false ∨ spanOwned s p pa len = false) → Answers (.dmaStart n) s fun t =>
      raised E.HOSTIF.DMA_ERR t ∧ getF t (R.HIF_DMA_STA.ERR n) = 1 ∧ t.hif.jobs = s.hif.jobs ∧ t.mem = s.mem) := by
  intro p pa len
  refine ⟨fun hlen hpart hown => ?_, fun hwhy => ?_⟩
  · obtain ⟨hjob, hshown⟩ := dmaBegun_shows n s
    exact ⟨_, congrArg Host.Outcome.next (dmaStart_begins hbusy hlen hpart hown), ⟨_, hjob, rfl, rfl, rfl, rfl, rfl⟩, hshown⟩
  · have hapart : ∀ n : Fin 16, ∀ g ∈ evFlds E.HOSTIF.DMA_ERR, fldKey g ≠ fldKey (R.HIF_DMA_STA.ERR n) := by decide
    refine ⟨_, congrArg Host.Outcome.next (dmaStart_refused hbusy hwhy), raised_raise _ _ (by decide), ?_, ?_, ?_⟩
    · rw [getF_raise_other _ _ _ (hapart n)]
      exact getF_setB s _ true Nat.one_pos
    · rw [raise_jobs]
      rfl
    · rw [raise_mem]
      rfl

/-! ### The end of a transfer (R202, R387) -/

/-- A transfer of channel `n` shows its end without error. -/
def dmaEnded (n : Nat) (s : State) : State :=
  raise E.HOSTIF.DMA_DONE (setFs s [(R.HIF_DMA_STA.BUSY n, 0), (R.HIF_DMA_STA.DONE n, 1)])

/-- A transfer of channel `n` shows that it has failed. -/
def dmaFailed (n : Nat) (s : State) : State :=
  raise E.HOSTIF.DMA_ERR (setFs s [(R.HIF_DMA_STA.BUSY n, 0), (R.HIF_DMA_STA.ERR n, 1)])

theorem dmaShow_ok (n : Nat) (s : State) : ∃ f, dmaShow n false s = dmaSignal n f (dmaEnded n s) := ⟨_, rfl⟩

theorem dmaShow_failed (n : Nat) (s : State) : dmaShow n true s = dmaFailed n s := rfl

theorem dmaSignal_keeps (n f : Nat) (s : State) : ChangesOnly [.out] s (dmaSignal n f s) := fun p hp => by
  unfold dmaSignal
  split <;> cases p <;> simp_all [Part.same]

theorem dmaDone_ends {n : Fin 16} {q : HostJob} {s : State} (hjob : getJob s n = some q) (h : q.fault ≠ 0 ∨ q.todo = []) :
    exec (.dmaDone n) s = .next (dmaShow n (q.fault != 0) (setJob n none s)) := by
  show Host.Outcome.next (dmaEnd n s) = _
  unfold dmaEnd
  rw [hjob]
  exact congrArg Host.Outcome.next (if_neg (by rcases h with h | h <;> simp [h]))

theorem dmaDone_goesOn {n : Fin 16} {q : HostJob} {s : State} (hjob : getJob s n = some q) (hfault : q.fault = 0)
    (htodo : q.todo ≠ []) : exec (.dmaDone n) s = .next s := by
  show Host.Outcome.next (dmaEnd n s) = _
  unfold dmaEnd
  rw [hjob]
  exact congrArg Host.Outcome.next (if_pos (by simp [hfault, htodo]))

theorem dmaEnded_shows (n : Fin 16) (s : State) :
    getF (dmaEnded n s) (R.HIF_DMA_STA.BUSY n) = 0 ∧ getF (dmaEnded n s) (R.HIF_DMA_STA.DONE n) = 1 ∧
      raised E.HOSTIF.DMA_DONE (dmaEnded n s) ∧ (dmaEnded n s).hif.jobs = s.hif.jobs ∧ (dmaEnded n s).mem = s.mem := by
  have hapart : ∀ n : Fin 16, ApartFlds E.HOSTIF.DMA_DONE [R.HIF_DMA_STA.BUSY n, R.HIF_DMA_STA.DONE n] := by
    unfold ApartFlds
    decide
  refine ⟨getF_raise_setFs (v := 0) (hapart n) (by simp) _, getF_raise_setFs (v := 1) (hapart n) (by simp) _,
    raised_raise _ _ (by decide), ?_, (raise_mem _ _).trans (setFs_mem _ _)⟩
  rw [dmaEnded, raise_jobs, setFs_hif]

theorem dmaFailed_shows (n : Fin 16) (s : State) :
    getF (dmaFailed n s) (R.HIF_DMA_STA.BUSY n) = 0 ∧ getF (dmaFailed n s) (R.HIF_DMA_STA.ERR n) = 1 ∧
      raised E.HOSTIF.DMA_ERR (dmaFailed n s) ∧ (dmaFailed n s).hif.jobs = s.hif.jobs ∧ (dmaFailed n s).mem = s.mem := by
  have hapart : ∀ n : Fin 16, ApartFlds E.HOSTIF.DMA_ERR [R.HIF_DMA_STA.BUSY n, R.HIF_DMA_STA.ERR n] := by
    unfold ApartFlds
    decide
  refine ⟨getF_raise_setFs (v := 0) (hapart n) (by simp) _, getF_raise_setFs (v := 1) (hapart n) (by simp) _,
    raised_raise _ _ (by decide), ?_, (raise_mem _ _).trans (setFs_mem _ _)⟩
  rw [dmaFailed, raise_jobs, setFs_hif]

theorem dmaDone_succeeds {n : Fin 16} {q : HostJob} {s : State} (hjob : getJob s n = some q) (hfault : q.fault = 0)
    (htodo : q.todo = []) : Answers (.dmaDone n) s fun t =>
      getF t (R.HIF_DMA_STA.BUSY n) = 0 ∧ getF t (R.HIF_DMA_STA.DONE n) = 1 ∧ raised E.HOSTIF.DMA_DONE t ∧
      getJob t n = none ∧ t.mem = s.mem := by
  obtain ⟨f, hshow⟩ := dmaShow_ok n (setJob n none s)
  obtain ⟨hbusy, hdone, hraised, hjobs, hmem⟩ := dmaEnded_shows n (setJob n none s)
  have hkeeps := dmaSignal_keeps n f (dmaEnded n (setJob n none s))
  have hregs := hkeeps .regs (by decide)
  have hend := dmaDone_ends hjob (.inr htodo)
  rw [hfault] at hend
  refine ⟨_, hend.trans (congrArg _ hshow), (getF_congr hregs _).trans hbusy, (getF_congr hregs _).trans hdone,
    (congrArg (fun x => bitsOf x _ 1) (getF_congr hregs _)).trans hraised, ?_, (hkeeps .mem (by decide)).trans hmem⟩
  rw [getJob_congr ((congrArg HostIf.jobs (hkeeps .hif (by decide))).trans hjobs)]
  exact getJob_setJob _ _ _

theorem dmaDone_fails {n : Fin 16} {q : HostJob} {s : State} (hjob : getJob s n = some q) (hfault : q.fault ≠ 0) :
    Answers (.dmaDone n) s fun t =>
      getF t (R.HIF_DMA_STA.BUSY n) = 0 ∧ getF t (R.HIF_DMA_STA.ERR n) = 1 ∧ raised E.HOSTIF.DMA_ERR t ∧
      getJob t n = none ∧ t.mem = s.mem := by
  obtain ⟨hbusy, herr, hraised, hjobs, hmem⟩ := dmaFailed_shows n (setJob n none s)
  have hend := dmaDone_ends hjob (.inl hfault)
  rw [show (q.fault != 0) = true by simpa using hfault, dmaShow_failed] at hend
  refine ⟨_, hend, hbusy, herr, hraised, ?_, hmem⟩
  rw [getJob_congr hjobs]
  exact getJob_setJob _ _ _

/-! ### A run of a transfer (R386, R387) -/

/-- The bytes that a read of channel `n` brings reach the host, and its work goes on behind them. -/
def dmaRead (n : Nat) (q : HostJob) (pa m : Nat) (s : State) : State :=
  setJob n (some { q with todo := advance m q.todo, tries := 0, haddr := q.haddr + m })
    { s with out := { s.out with host := smSetList 0 s.out.host q.haddr (rdMems s pa m) } }

theorem hostMoved_dmaRead {n : Fin 16} {r : Run} {q : HostJob} {a : HostAcc} {l : List HostAcc} {s : State}
    (hkind : r.kind = .host n false) (hjob : getJob s n = some q) (htodo : q.todo = a :: l) (hwr : a.wr = false) :
    hostMoved n r s = dmaRead n q r.pa (min a.len (64 * r.beats)) s := by
  have hn : n.val < 16 := n.isLt
  have hlow : ¬ 16 ≤ n.val := by omega
  unfold hostMoved
  rw [hjob]
  simp only [htodo, hkind, isWrite, hwr, hn, hlow, Bool.false_eq_true, if_false, if_true, false_and, and_false, dmaRead]

theorem dmaReadEnd {k : StackNo} {c : ChanNo} {r : Run} {n : Fin 16} {q : HostJob} {a : HostAcc} {l : List HostAcc} {s : State}
    (hcur : (getChan s (chanKey k c)).cur = some r) (hkind : r.kind = .host n false) (hjob : getJob s n = some q)
    (htodo : q.todo = a :: l) (hwr : a.wr = false) :
    let m := min a.len (64 * r.beats)
    Answers (.runEnd k c false .clean [] []) s fun t =>
      smGetList 0 t.out.host q.haddr m = rdMems s r.pa m ∧
      (∀ x, (x < q.haddr ∨ q.haddr + m ≤ x) → smGet 0 t.out.host x = smGet 0 s.out.host x) ∧ t.mem = s.mem ∧
      getJob t n = some { q with todo := advance m (a :: l), tries := 0, haddr := q.haddr + m } := by
  intro m
  have hlen : (rdMems s r.pa m).length = m := length_rdMems s r.pa m
  refine ⟨_, (runEnd_host hcur hkind).trans (congrArg _
    (hostMoved_dmaRead (s := updChan s (chanKey k c) chanIdle) hkind hjob htodo hwr)), ?_, fun x hx => ?_, rfl, ?_⟩
  · have hread := smGetList_smSetList 0 s.out.host q.haddr (rdMems s r.pa m)
    rw [hlen] at hread
    exact hread
  · refine (smGet_smSetList 0 (rdMems s r.pa m) s.out.host q.haddr x).trans (if_neg ?_)
    rw [hlen]
    omega
  · rw [← htodo]
    exact getJob_setJob _ _ _

/-- The host does not deliver the bytes that a write of a transfer asks for: the transfer has failed. -/
theorem runStart_short {k : StackNo} {c : ChanNo} {bt n : Nat} {host : List Byte} {q : HostJob} {r : Run} {s : State}
    (hdrain : s.tick.draining = false) (hfree : chanFree s (chanKey k c) bt = true) (hnone : nextRun s k c bt = none)
    (hfirst : hostFirst s k c bt host = some (n, q, r)) (hguest : q.tries = 0 → guestFirst s k c bt q.order = false)
    (hshort : hostShort s n q r = true) :
    exec (.runStart k c bt host) s = .next (setJob n (some { q with fault := 1 }) s) := by
  rw [runStart_host hdrain hfree hnone]
  unfold startHost
  rw [hfirst]
  dsimp only
  rw [if_neg fun h => absurd h.2 (by simp [hguest h.1]), if_pos hshort]

/-! ### The addresses of a BAR2 access (R384) -/

theorem isSome_mapM_id {α : Type} (l : List (Option α)) : (l.mapM id).isSome = l.all Option.isSome := by
  induction l with
  | nil => rfl
  | cons x l ih =>
    cases x with
    | none => rfl
    | some x =>
      rw [List.mapM_cons, List.all_cons, ← ih]
      cases l.mapM id <;> rfl

theorem isSome_bar2Span (l : List Nat) (off n : Nat) :
    (bar2Span l off n).isSome = (List.range n).all fun i => (bar2Addr l (off + i)).isSome := by
  rw [bar2Span, isSome_mapM_id, List.all_map]
  rfl

section
variable {l : List Nat} {off n x : Nat}

theorem bar2Addr_of_region {o : Nat} (h : l[off / 2 ^ 28]? = some x) (ho : o / 2 ^ 28 = off / 2 ^ 28) :
    bar2Addr l o = some (x * 2 ^ 28 + o % 2 ^ 28) := by
  unfold bar2Addr
  rw [ho, h]
  rfl

theorem bar2Span_inside (h : l[off / 2 ^ 28]? = some x) (hend : off % 2 ^ 28 + n ≤ 2 ^ 28) :
    ∃ as, bar2Span l off n = some as := by
  refine Option.isSome_iff_exists.mp ?_
  rw [isSome_bar2Span, List.all_eq_true]
  intro i hi
  have hi' : i < n := List.mem_range.mp hi
  rw [bar2Addr_of_region h (by omega)]
  rfl

theorem bar2Span_beyond (hn : 0 < n) (hend : l.length * 2 ^ 28 < off + n) : bar2Span l off n = none := by
  refine Option.not_isSome_iff_eq_none.mp fun hsome => ?_
  rw [isSome_bar2Span, List.all_eq_true] at hsome
  have hlast := hsome (n - 1) (List.mem_range.mpr (by omega))
  have hbeyond : l.length ≤ (off + (n - 1)) / 2 ^ 28 := by omega
  rw [bar2Addr, List.getElem?_eq_none hbeyond] at hlast
  simp at hlast

theorem bar2Runs_inside (h : l[off / 2 ^ 28]? = some x) (hend : off % 2 ^ 28 + n ≤ 2 ^ 28) (hn : 0 < n) :
    bar2Runs l off n = [(x * 2 ^ 28 + off % 2 ^ 28, n)] := by
  have hmin : min n (2 ^ 28 - off % 2 ^ 28) = n := by omega
  unfold bar2Runs
  dsimp only
  rw [hmin, Nat.sub_self, List.filter_cons_of_pos (by simpa using hn), List.filter_cons_of_neg (by simp), List.filter_nil,
    List.filterMap_cons, bar2Addr_of_region h rfl]
  rfl

end

theorem lt_of_mem_bar2Regions {s : State} {f i x : Nat} (h : (bar2Regions s f)[i]? = some x) : x < 3072 := by
  have hmem := List.mem_of_getElem? h
  unfold bar2Regions at hmem
  split at hmem
  · exact List.mem_range.mp (List.mem_filter.mp hmem).1
  · simp at hmem

theorem stack_of_region {x r : Nat} (hr : r < 2 ^ 28) : chanOf (x * 2 ^ 28 + r) / 32 = x / 256 := by
  unfold chanOf
  omega

/-! ### The service of a run of host work (R200, R202) -/

/-- The parts that the service of an access which fails no check may change. -/
def serviceParts : List Part := [.chans, .stks, .regs, .out, .hif, .flt]

/-- The fields that a margining step which gives way writes. -/
def abortFlds (k : Nat) : List Fld :=
  [R.STK_MARGIN_RES.ABORTED k] ++ evFlds (E.STACK.TEST_ABORT k) ++ logFlds ++ [R.TST_ABORTS.COUNT] ++ evFlds E.TEST.TEST_ABORT

theorem regsBut_abortMargin (k c : Nat) (s : State) : RegsBut (abortFlds k) s (abortMargin k c s) := by
  unfold abortMargin
  split
  · exact (((((RegsBut.of_regs (t := updStk s k _) rfl).trans (regsBut_setB _ _ (by simp [abortFlds]))).trans
      (regsBut_raise _ _ fun f hf => by simp [abortFlds, hf])).trans
      ((regsBut_logOnly _ _ _ _ _ _).mono fun f hf => by simp [abortFlds, hf])).trans
      (regsBut_setF _ _ (by simp [abortFlds]))).trans (regsBut_raise _ _ fun f hf => by simp [abortFlds, hf])
  · exact .refl _ s

theorem changesOnly_abortMargin (k c : Nat) (s : State) : ChangesOnly serviceParts s (abortMargin k c s) := by
  have hset : ∀ (f : Fld) (v : Nat) (u : State), ChangesOnly serviceParts u (setF u f v) := fun f v u =>
    (changesOnly_setF u f v).mono (by decide)
  have hraise : ∀ (e : Ev) (u : State), ChangesOnly serviceParts u (raise e u) := fun e u =>
    (changesOnly_raise e u).mono (by decide)
  unfold abortMargin
  split
  · exact (((((changesOnly_updStk s k _).mono (by decide)).trans (hset _ _ _)).trans (hraise _ _)).trans
      ((changesOnly_logOnly _ _ _ _ _ _).mono (by decide))).trans ((hset _ _ _).trans (hraise _ _))
  · exact .refl _ s

theorem running_kept {fs : List Fld} {s t : State} (h : RegsBut fs s t) (hrun : fldKey R.TICK_NUM.RUN ∉ fs.map fldKey) :
    running t = running s := by
  unfold running flagF
  rw [h.getF_eq hrun]

theorem running_abortMargin (k : StackNo) (c : Nat) (s : State) : running (abortMargin k c s) = running s := by
  have hrun : ∀ k : StackNo, fldKey R.TICK_NUM.RUN ∉ (abortFlds k).map fldKey := by decide
  exact running_kept (regsBut_abortMargin k c s) (hrun k)

/-- The fields that a counted retry writes. -/
def retryFlds (k : Nat) : List Fld :=
  [R.STK_RETRY_CNT.RETRIES k, R.STK_RETRY_CNT.LAST_CHAN k] ++ evFlds (E.STACK.RETRY k) ++ logFlds

theorem running_countRetry (k : StackNo) (c : Nat) (r : Run) (s : State) : running (countRetry k c r s) = running s := by
  have hrun : ∀ k : StackNo, fldKey R.TICK_NUM.RUN ∉ (retryFlds k).map fldKey := by decide
  refine running_kept (fs := retryFlds k) ?_ (hrun k)
  exact (((regsBut_setF s _ (by simp [retryFlds])).trans (regsBut_setF _ _ (by simp [retryFlds]))).trans
    (regsBut_raise _ _ fun f hf => by simp [retryFlds, hf])).trans
    ((regsBut_logOnly _ _ _ _ _ _).mono fun f hf => by simp [retryFlds, hf])

/-- An access that keeps failing its parity check, with no tick running, is retried until the limit is passed. -/
theorem retryAccess_exhausted {k : StackNo} {c occ : Nat} {r : Run} (hpart : tokenPart r = 0) (e : Nat) :
    ∀ {n : Nat} {s : State}, 4 ≤ e + n → n ≤ 3 → running s = false →
      ∃ u, retryAccess k c occ r e n s = (runFailed k c true r u, false) ∧ ChangesOnly serviceParts s u := by
  have htokens : ∀ t, takeTokens k 0 occ t = t := fun t => if_pos rfl
  induction e with
  | zero => intro n s he hn _; omega
  | succ e ih =>
    intro n s he hn hrun
    rw [retryAccess]
    dsimp only
    by_cases hlast : 3 ≤ n
    · exact ⟨s, if_pos hlast, .refl _ s⟩
    rw [if_neg hlast, if_neg (by simp [hrun]), hpart, htokens]
    obtain ⟨u, hu, hparts⟩ := ih (n := n + 1) (s := updChan (countRetry k c r (updChan s (chanKey k c) fun q =>
      { q with retryOcc := q.retryOcc + occ })) (chanKey k c) _) (by omega) (by omega) ((running_countRetry k c r _).trans hrun)
    refine ⟨u, hu, ChangesOnly.trans ?_ hparts⟩
    exact ((changesOnly_updChan s _ _).mono (by decide)).trans
      (((changesOnly_countRetry k c r _).mono (by decide)).trans ((changesOnly_updChan _ _ _).mono (by decide)))

/-- Work of the primary or the host takes its channel from `bt`; a margining step there gives way. -/
def hostTaken (k c bt occ : Nat) (s : State) : State := abortMargin k c (chanTaken (chanKey k c) bt occ s)

theorem changesOnly_hostTaken (k c bt occ : Nat) (s : State) : ChangesOnly serviceParts s (hostTaken k c bt occ s) :=
  ((changesOnly_chanTaken _ _ _ s).mono (by decide)).trans (changesOnly_abortMargin _ _ _)

theorem serveAccess_passes {k c occ : Nat} {reads : Bool} {r : Run} {sv : Served} (h : Clean sv) (hpart : tokenPart r = 0)
    (s : State) : serveAccess k c occ reads r sv s = (hostTaken k c sv.bt occ s, true) := by
  obtain ⟨herrs, hecc⟩ := h
  have htokens : ∀ t, takeTokens k 0 occ t = t := fun t => if_pos rfl
  unfold serveAccess
  dsimp only
  rw [hecc, herrs, hpart, htokens, retryAccess]
  rfl

theorem serveAccess_exhausted {k : StackNo} {c occ : Nat} {reads : Bool} {r : Run} {sv : Served} {s : State}
    (hpart : tokenPart r = 0) (hrun : running s = false) (herrs : 4 ≤ sv.errs) (hecc : sv.ecc = .clean) :
    ∃ u, serveAccess k c occ reads r sv s = (runFailed k c true r u, false) ∧ ChangesOnly serviceParts s u := by
  have htokens : ∀ t, takeTokens k 0 occ t = t := fun t => if_pos rfl
  have hrun' : running (hostTaken k c sv.bt occ s) = false := (running_abortMargin k c _).trans hrun
  obtain ⟨u, hu, hparts⟩ := retryAccess_exhausted (c := c) (occ := occ) hpart sv.errs (n := 0) herrs (by decide) hrun'
  refine ⟨u, ?_, (changesOnly_hostTaken _ _ _ _ s).trans hparts⟩
  unfold serveAccess
  dsimp only
  rw [hecc, hpart, htokens]
  dsimp only
  rw [show abortMargin k c (updChan s (chanKey k c) fun q => { q with start := sv.bt, freeAt := sv.bt + occ }) =
    hostTaken k c sv.bt occ s from rfl, hu]
  rfl

/-- A run that has failed at the limit raises RETRY_LIMIT and writes no memory. -/
theorem runFailed_limit_says (k : StackNo) (c : Nat) (r : Run) (s : State) :
    raised (E.STACK.RETRY_LIMIT k) (runFailed k c true r s) ∧ (runFailed k c true r s).mem = s.mem := by
  have hevt : ∀ k : StackNo, fldKey (R.PG_EVT.EVT (E.STACK.RETRY_LIMIT k).page) ∉ takenFlds.map fldKey := by decide
  obtain ⟨_, hraised, _⟩ := limitPassed_counts k s
  have htaken := takeFault_taken (unfencing_chanFault k c (code := 0x22) (cls := clVoid)
    (cycOfBt s (getChan s (chanKey k c)).freeAt) r.pa r.part (by decide) (by decide)) (limitPassed k s)
  rw [runFailed_limit]
  exact ⟨htaken.raised_kept (hevt k) hraised,
    (htaken.parts .mem (by decide)).trans (changesOnly_limitPassed k s .mem (by decide))⟩

/-! ### A BAR2 access (R384, R387) -/

theorem raise_completion (e : Ev) (s : State) :
    (raise e s).out.bar2 = s.out.bar2 ∧ (raise e s).out.bar2Sta = s.out.bar2Sta := by
  have hsignal : ∀ (p b f : Nat) (u : State),
      (signal p b f u).out.bar2 = u.out.bar2 ∧ (signal p b f u).out.bar2Sta = u.out.bar2Sta := by
    intro p b f u
    unfold signal
    split <;> exact ⟨rfl, rfl⟩
  unfold raise
  dsimp only
  obtain ⟨hdata, hsta⟩ := hsignal e.page e.bit _ _
  rw [hdata, hsta]
  split <;> exact ⟨rfl, rfl⟩

theorem bar2_beyond {f len : Nat} {off : Nat} {sv : List Served} {s : State} (hn : 0 < len)
    (hend : (bar2Regions s f).length * 2 ^ 28 < off + len) :
    bar2 f off len none sv s = raise E.HOSTIF.BAR2_UR (complete 1 [] s) := by
  unfold bar2
  dsimp only
  rw [bar2Span_beyond hn hend]

/-- The bytes of an access: those that a write brings, else `len`. -/
def bar2Bytes (len : Nat) (wr : Option (List Byte)) : Nat := match wr with | some bs => bs.length | none => len

/-- What an access within one region does once its one run has been served, or may not go. -/
theorem bar2_inside {f off len x : Nat} {wr : Option (List Byte)} {v : Served} {s : State}
    (h : (bar2Regions s f)[off / 2 ^ 28]? = some x) (hend : off % 2 ^ 28 + bar2Bytes len wr ≤ 2 ^ 28)
    (hn : 0 < bar2Bytes len wr) :
    let e := (x * 2 ^ 28 + off % 2 ^ 28, bar2Bytes len wr)
    (bar2Serve f wr.isSome [e] [v] s = none → bar2 f off len wr [v] s = s) ∧
    ∀ t ok, bar2Serve f wr.isSome [e] [v] s = some (t, ok) → bar2 f off len wr [v] s = bar2End (!running s) ok [e] wr t := by
  intro e
  obtain ⟨as, has⟩ := bar2Span_inside h hend
  have hruns : bar2Runs (bar2Regions s f) off (bar2Bytes len wr) = [e] := bar2Runs_inside h hend hn
  unfold bar2
  cases wr <;>
  · dsimp only [bar2Bytes] at has hruns ⊢
    rw [has, hruns]
    dsimp only
    exact ⟨fun hnone => by rw [hnone], fun t ok hsome => by rw [hsome]⟩

theorem bar2Serve_waits {f : Nat} {wr : Bool} {e : Nat × Nat} {v : Served} {s : State}
    (h : bar2May s (bar2Run s f wr e) v.bt = false) : bar2Serve f wr [e] [v] s = none :=
  if_pos (by simp [h])

theorem bar2Serve_served {f k : Nat} {wr ok : Bool} {e : Nat × Nat} {v : Served} {s t : State}
    (h : bar2May s (bar2Run s f wr e) v.bt = true) (hk : chanOf e.1 / 32 = k)
    (hserve : serveAccess k (chanOf e.1 % 32) (runOcc s (bar2Run s f wr e)) (!wr) (bar2Run s f wr e) v s = (t, ok)) :
    bar2Serve f wr [e] [v] s = some (t, ok) := by
  rw [bar2Serve]
  dsimp only
  rw [if_neg (by simp [h]), show chanOf (bar2Run s f wr e).pa / 32 = k from hk,
    show (bar2Run s f wr e).pa = e.1 from rfl, hserve, bar2Serve]
  dsimp only
  rw [Bool.and_true]

/-- An access of BAR2 takes its turn where registers are served (R384). -/
theorem bar2Access_answers {f : Fin 4} {off len : Nat} {wr : Option (List Byte)} {sv : List Served} {s t : State}
    (hserved : regsServed s = true) (h : bar2 f off len wr sv s = t) : exec (.bar2Access f off len wr sv) s = .next t :=
  congrArg Host.Outcome.next ((if_pos hserved).trans h)

section
variable {f : Fin 4} {off n x : Nat} {v : Served} {s : State}

theorem bar2Read_passes (hserved : regsServed s = true) (hx : (bar2Regions s f)[off / 2 ^ 28]? = some x)
    (hend : off % 2 ^ 28 + n ≤ 2 ^ 28) (hn : 0 < n)
    (hmay : bar2May s (bar2Run s f false (x * 2 ^ 28 + off % 2 ^ 28, n)) v.bt = true) (hclean : Clean v) :
    Answers (.bar2Access f off n none [v]) s fun t =>
      t.out.bar2 = rdMems s (x * 2 ^ 28 + off % 2 ^ 28) n ∧ t.out.bar2Sta = 0 ∧ t.mem = s.mem ∧ t.cores = s.cores := by
  obtain ⟨_, hends⟩ := bar2_inside (len := n) (wr := none) (v := v) hx hend hn
  have hparts := changesOnly_hostTaken (chanOf (x * 2 ^ 28 + off % 2 ^ 28) / 32) (chanOf (x * 2 ^ 28 + off % 2 ^ 28) % 32) v.bt
    (runOcc s (bar2Run s f false (x * 2 ^ 28 + off % 2 ^ 28, n))) s
  refine ⟨_, bar2Access_answers hserved (hends _ _ (bar2Serve_served hmay rfl (serveAccess_passes hclean rfl s))), ?_, rfl,
    hparts .mem (by decide), hparts .cores (by decide)⟩
  exact (List.append_nil _).trans (rdMems_congr (hparts .mem (by decide)) _ _)

theorem bar2Write_passes {bs : List Byte} (hserved : regsServed s = true) (hx : (bar2Regions s f)[off / 2 ^ 28]? = some x)
    (hend : off % 2 ^ 28 + bs.length ≤ 2 ^ 28) (hn : 0 < bs.length)
    (hmay : bar2May s (bar2Run s f true (x * 2 ^ 28 + off % 2 ^ 28, bs.length)) v.bt = true) (hclean : Clean v) :
    Answers (.bar2Access f off 0 (some bs) [v]) s fun t =>
      rdMems t (x * 2 ^ 28 + off % 2 ^ 28) bs.length = bs ∧
      (∀ a, (a < x * 2 ^ 28 + off % 2 ^ 28 ∨ x * 2 ^ 28 + off % 2 ^ 28 + bs.length ≤ a) → rdMem t a = rdMem s a) ∧
      t.out.bar2Sta = 0 ∧ t.cores = s.cores := by
  obtain ⟨_, hends⟩ := bar2_inside (len := 0) (wr := some bs) (v := v) hx hend hn
  obtain ⟨pa, hpa⟩ : ∃ pa, pa = x * 2 ^ 28 + off % 2 ^ 28 := ⟨_, rfl⟩
  rw [← hpa] at hmay hends ⊢
  obtain ⟨u, hu⟩ : ∃ u, u = hostTaken (chanOf pa / 32) (chanOf pa % 32) v.bt (runOcc s (bar2Run s f true (pa, bs.length))) s :=
    ⟨_, rfl⟩
  have hparts : ChangesOnly serviceParts s u := hu ▸ changesOnly_hostTaken _ _ _ _ s
  have hserve := serveAccess_passes (k := chanOf pa / 32) (c := chanOf pa % 32) (reads := false)
    (occ := runOcc s (bar2Run s f true (pa, bs.length))) (r := bar2Run s f true (pa, bs.length)) hclean rfl s
  rw [← hu] at hserve
  have hmem : (serveWrite pa (bs.take bs.length) u).mem = smSetList 0 s.mem pa bs := by
    rw [mem_serveWrite, List.take_length, hparts .mem (by decide)]
  have hcores := changesOnly_serveWrite pa (bs.take bs.length) u .cores (by decide)
  exact ⟨_, bar2Access_answers hserved (hends _ _ (bar2Serve_served hmay rfl hserve)), rdMems_written hmem,
    fun a ha => rdMem_unwritten hmem ha, rfl, hcores.trans (hparts .cores (by decide))⟩

theorem bar2Read_waits (hx : (bar2Regions s f)[off / 2 ^ 28]? = some x)
    (hend : off % 2 ^ 28 + n ≤ 2 ^ 28) (hn : 0 < n)
    (hmay : bar2May s (bar2Run s f false (x * 2 ^ 28 + off % 2 ^ 28, n)) v.bt = false) :
    bar2 f off n none [v] s = s :=
  (bar2_inside (len := n) (wr := none) (v := v) hx hend hn).1 (bar2Serve_waits hmay)

theorem bar2Read_fails (hserved : regsServed s = true) (hx : (bar2Regions s f)[off / 2 ^ 28]? = some x)
    (hend : off % 2 ^ 28 + n ≤ 2 ^ 28) (hn : 0 < n)
    (hmay : bar2May s (bar2Run s f false (x * 2 ^ 28 + off % 2 ^ 28, n)) v.bt = true) (hrun : running s = false)
    (herrs : 4 ≤ v.errs) (hecc : v.ecc = .clean) :
    Answers (.bar2Access f off n none [v]) s fun t =>
      t.out.bar2Sta = 2 ∧ t.out.bar2 = [] ∧ t.mem = s.mem ∧ raised (E.STACK.RETRY_LIMIT (x / 256)) t := by
  obtain ⟨_, hends⟩ := bar2_inside (len := n) (wr := none) (v := v) hx hend hn
  have hx12 : x / 256 < 12 := Nat.div_lt_of_lt_mul (lt_of_mem_bar2Regions hx)
  obtain ⟨k, hk⟩ : ∃ k : StackNo, k.val = x / 256 := ⟨⟨x / 256, hx12⟩, rfl⟩
  have hstack : chanOf (x * 2 ^ 28 + off % 2 ^ 28) / 32 = k := (stack_of_region (Nat.mod_lt _ (Nat.two_pow_pos 28))).trans hk.symm
  obtain ⟨u, hserve, hparts⟩ := serveAccess_exhausted (k := k) (c := chanOf (x * 2 ^ 28 + off % 2 ^ 28) % 32)
    (occ := runOcc s (bar2Run s f false (x * 2 ^ 28 + off % 2 ^ 28, n))) (reads := true)
    (r := bar2Run s f false (x * 2 ^ 28 + off % 2 ^ 28, n)) rfl hrun herrs hecc
  obtain ⟨hraised, hmem⟩ := runFailed_limit_says k (chanOf (x * 2 ^ 28 + off % 2 ^ 28) % 32)
    (bar2Run s f false (x * 2 ^ 28 + off % 2 ^ 28, n)) u
  have hdone := hends _ _ (bar2Serve_served hmay hstack hserve)
  rw [hrun] at hdone
  rw [← hk]
  exact ⟨_, bar2Access_answers hserved hdone, rfl, rfl, hmem.trans (hparts .mem (by decide)), hraised⟩

end

/-- An access beyond the partition's regions is an unsupported request. -/
theorem bar2_unsupported {f : Fin 4} {off n : Nat} {sv : List Served} {s : State} (hserved : regsServed s = true) (hn : 0 < n)
    (hend : (bar2Regions s f).length * 2 ^ 28 < off + n) :
    Answers (.bar2Access f off n none sv) s fun t =>
      raised E.HOSTIF.BAR2_UR t ∧ t.out.bar2Sta = 1 ∧ t.out.bar2 = [] ∧ t.mem = s.mem := by
  obtain ⟨hdata, hsta⟩ := raise_completion E.HOSTIF.BAR2_UR (complete 1 [] s)
  exact ⟨_, bar2Access_answers hserved (bar2_beyond hn hend), raised_raise _ _ (by decide), hsta, hdata, raise_mem _ _⟩

/-! ### The host link (R383) -/

/-- What HIF_LINK_STA shows of a link: nothing of one that is down. -/
def linkShown (l : LinkInfo) : List (Fld × Nat) :=
  [(R.HIF_LINK_STA.UP, b2n l.up), (R.HIF_LINK_STA.GEN, if l.up then l.gen else 0),
   (R.HIF_LINK_STA.WIDTH, if l.up then l.width else 0), (R.HIF_LINK_STA.FLIT, if l.up then b2n l.flit else 0),
   (R.HIF_LINK_STA.REVERSED, if l.up then b2n l.reversed else 0), (R.HIF_LINK_STA.IDE, if l.up then b2n l.ide else 0),
   (R.HIF_LINK_STA.INVERTED, if l.up then l.inverted else 0)]

theorem setLink_eq (l : LinkInfo) (s : State) :
    setLink l s = raiseIf (flagF s R.HIF_LINK_STA.UP != l.up) E.HOSTIF.LINK_CHANGE (setFs s (linkShown l)) := rfl

theorem getF_setLink (l : LinkInfo) (s : State) {f : Fld} {v : Nat} (hf : (f, v) ∈ linkShown l) :
    getF (setLink l s) f = v % 2 ^ f.width := by
  have hflds : (linkShown l).map Prod.fst = (linkShown link0).map Prod.fst := rfl
  have hapart : ApartFlds E.HOSTIF.LINK_CHANGE ((linkShown link0).map Prod.fst) := by
    unfold ApartFlds
    decide
  rw [← hflds] at hapart
  rw [setLink_eq, raiseIf]
  split
  · exact getF_raise_setFs hapart hf s
  · obtain ⟨hkeys, _⟩ := hapart
    rw [List.map_map] at hkeys
    exact getF_setFs hkeys hf s

theorem setLink_raises {l : LinkInfo} {s : State} (h : flagF s R.HIF_LINK_STA.UP ≠ l.up) :
    raised E.HOSTIF.LINK_CHANGE (setLink l s) := by
  rw [setLink_eq, raiseIf, if_pos (by simpa using h)]
  exact raised_raise _ _ (by decide)

theorem linkChange_trains {l : LinkInfo} {s : State} (hclosed : s.hearth.closed = true) (hup : l.up = true)
    (hwidth : l.width = 8 ∨ l.width = 16) : exec (.linkChange l) s = .next (setLink l s) := by
  have hl : { l with up := l.up && (l.width == 8 || l.width == 16) } = l := by
    have hup' : (l.up && (l.width == 8 || l.width == 16)) = l.up := by rcases hwidth with h | h <;> simp [hup, h]
    rw [hup']
  refine congrArg Host.Outcome.next ((if_pos hclosed).trans ?_)
  rw [hl]

theorem linkChange_drops {l : LinkInfo} {s : State} (hclosed : s.hearth.closed = true)
    (h : l.up = false ∨ (l.width ≠ 8 ∧ l.width ≠ 16)) :
    exec (.linkChange l) s = .next (setLink { l with up := false } s) := by
  have hup : (l.up && (l.width == 8 || l.width == 16)) = false := by rcases h with h | ⟨h8, h16⟩ <;> simp [*]
  refine congrArg Host.Outcome.next ((if_pos hclosed).trans ?_)
  rw [hup]

theorem linkChange_shows (l : LinkInfo) {s : State} (hclosed : s.hearth.closed = true) :
    (l.up = true → (l.width = 8 ∨ l.width = 16) → Answers (.linkChange l) s fun t =>
      getF t R.HIF_LINK_STA.UP = 1 ∧ getF t R.HIF_LINK_STA.WIDTH = l.width ∧ getF t R.HIF_LINK_STA.GEN = l.gen % 8 ∧
      (getF s R.HIF_LINK_STA.UP = 0 → raised E.HOSTIF.LINK_CHANGE t)) ∧
    ((l.up = false ∨ (l.width ≠ 8 ∧ l.width ≠ 16)) → Answers (.linkChange l) s fun t =>
      getF t R.HIF_LINK_STA.UP = 0 ∧ (getF s R.HIF_LINK_STA.UP = 1 → raised E.HOSTIF.LINK_CHANGE t)) := by
  refine ⟨fun hup hwidth => ?_, fun hdown => ?_⟩
  · have hw : l.width % 2 ^ 5 = l.width := Nat.mod_eq_of_lt (by omega)
    refine ⟨_, linkChange_trains hclosed hup hwidth, getF_setLink (v := 1) l s (by simp [linkShown, hup, b2n]),
      (getF_setLink (v := l.width) l s (by simp [linkShown, hup])).trans hw,
      getF_setLink (v := l.gen) l s (by simp [linkShown, hup]), fun hwas => setLink_raises ?_⟩
    rw [flagF_of_eq_zero hwas, hup]
    decide
  · refine ⟨_, linkChange_drops hclosed hdown, getF_setLink (v := 0) _ s (by simp [linkShown, b2n]),
      fun hwas => setLink_raises ?_⟩
    rw [flagF_of_eq_one hwas]
    exact Bool.noConfusion

/-- Settles O59: a transfer by its channel's registers and its runs, an access of BAR2 by its one run and what the channel
makes of it, the link by what its register takes. -/
theorem hostTransfersReachTheirPartitionsRegions : Obligations.HostTransfersReachTheirPartitionsRegions := by
  refine ⟨fun n s => dmaStart_answers n, fun n s hbusy => congrArg Host.Outcome.next (dmaStart_busy hbusy),
    fun _ _ _ _ _ _ _ _ => dmaReadEnd, ?_, ?_, ?_, fun _ _ _ _ _ => bar2_unsupported, fun l s => linkChange_shows l⟩
  · exact fun n q s hjob => ⟨dmaDone_succeeds hjob, dmaDone_fails hjob, dmaDone_goesOn hjob⟩
  · intro k c bt host n q r s hdrain hfree hnone hfirst hguest hshort
    exact ⟨_, runStart_short hdrain hfree hnone hfirst hguest hshort, getJob_setJob _ _ _, changesOnly_setJob _ _ s⟩
  · intro f off n x v s hserved hx hend hn pa
    refine ⟨bar2Read_passes hserved hx hend hn, fun bs hbs => ?_, fun hmay => ?_, bar2Read_fails hserved hx hend hn⟩
    · subst hbs
      exact bar2Write_passes hserved hx hend hn
    · exact bar2Access_answers hserved (bar2Read_waits hx hend hn hmay)

end Sys2Proof.Machine
end

section
/-! P3: the Attic is read and the recorded settings are restored, in stages, and O50 (R53, R211, R351, R354, R366). -/

namespace Sys2Proof.Machine

/-! ### A step of the restoration -/

/-- What a record reads as is what it read as. -/
def SameValues (s t : State) : Prop := ∀ r, recValue (getRec t r) = recValue (getRec s r)

theorem SameValues.trans {s t u : State} (h : SameValues s t) (h' : SameValues t u) : SameValues s u :=
  fun r => (h' r).trans (h r)

theorem SameValues.of_recs {s t : State} (h : t.attic.recs = s.attic.recs) : SameValues s t := fun r => by
  unfold getRec
  rw [h]

/-- The parts that registers, events, the log, the histories and the records stand in. -/
def recordParts : List Part := [.regs, .out, .hif, .flt, .hist, .attic]

/-- The parts that the restoration may change before the mode of the bring-up is chosen. -/
def restoreParts : List Part := .hearth :: recordParts

/-- A step of the restoration: it writes none but the listed fields, keeps every event that is raised and every record's
value, and changes none but the listed parts. -/
structure RestoreStep (ps : List Part) (fs : List Fld) (s t : State) : Prop where
  regs : RegsBut fs s t
  kept : RaisedKept s t
  values : SameValues s t
  parts : ChangesOnly ps s t

section
variable {ps qs : List Part} {fs gs : List Fld} {s t u : State}

theorem RestoreStep.refl (s : State) : RestoreStep ps fs s s := ⟨.refl _ s, .refl s, fun _ => rfl, .refl _ s⟩

theorem RestoreStep.trans (h : RestoreStep ps fs s t) (h' : RestoreStep ps fs t u) : RestoreStep ps fs s u :=
  ⟨h.regs.trans h'.regs, h.kept.trans h'.kept, h.values.trans h'.values, h.parts.trans h'.parts⟩

theorem RestoreStep.mono (h : RestoreStep ps fs s t) (hps : ps ⊆ qs) (hfs : fs ⊆ gs) : RestoreStep qs gs s t :=
  ⟨h.regs.mono hfs, h.kept, h.values, h.parts.mono hps⟩

theorem RestoreStep.foldl {α : Type} {g : State → α → State} (h : ∀ s a, RestoreStep ps fs s (g s a)) (l : List α) (s : State) :
    RestoreStep ps fs s (l.foldl g s) := by
  induction l generalizing s with
  | nil => exact .refl s
  | cons a l ih => exact (h s a).trans (ih _)

theorem restoreStep_onHearth (f : Hearth → Hearth) (s : State) : RestoreStep restoreParts fs s (onHearth f s) :=
  ⟨.of_regs rfl, .of_regs rfl, .of_recs rfl, fun p hp => by cases p <;> simp_all [Part.same, restoreParts, onHearth]⟩

theorem restoreStep_setF (s : State) {f : Fld} (v : Nat) (hf : f ∈ fs) (he : NotEvt f) (hps : recordParts ⊆ ps := by decide) :
    RestoreStep ps fs s (setF s f v) :=
  ⟨regsBut_setF s v hf, raisedKept_setF s v he, .of_recs rfl, ((changesOnly_setF s f v).mono (by decide)).mono hps⟩

theorem restoreStep_setFs (s : State) {l : List (Fld × Nat)} (hl : ∀ e ∈ l, e.1 ∈ fs) (he : ∀ e ∈ l, NotEvt e.1)
    (hps : recordParts ⊆ ps := by decide) : RestoreStep ps fs s (setFs s l) :=
  ⟨regsBut_setFs l s hl, raisedKept_setFs l s he, .of_recs (by rw [setFs_attic]),
    ((changesOnly_setFs s l).mono (by decide)).mono hps⟩

theorem restoreStep_raise (e : Ev) (s : State) (he : evFlds e ⊆ fs) (hps : recordParts ⊆ ps := by decide) :
    RestoreStep ps fs s (raise e s) :=
  ⟨regsBut_raise e s he, raisedKept_raise e s, .of_recs (by rw [raise_attic]),
    ((changesOnly_raise e s).mono (by decide)).mono hps⟩

theorem restoreStep_raiseIf (b : Bool) (e : Ev) (s : State) (he : evFlds e ⊆ fs) (hps : recordParts ⊆ ps := by decide) :
    RestoreStep ps fs s (raiseIf b e s) := by
  cases b
  · exact .refl s
  · exact restoreStep_raise e s he hps

theorem restoreStep_withHist (s : State) (m : SMap Hist) : RestoreStep restoreParts fs s { s with hist := m } :=
  ⟨.of_regs rfl, .of_regs rfl, .of_recs rfl, fun p hp => by cases p <;> simp_all [Part.same, restoreParts, recordParts]⟩

theorem restoreStep_logOnly (code unit id cyc detail : Nat) (s : State) (hfs : logFlds ⊆ fs) :
    RestoreStep restoreParts fs s (logOnly code unit id cyc detail s) :=
  have hparts := changesOnly_logOnly code unit id cyc detail s
  ⟨(regsBut_logOnly _ _ _ _ _ s).mono hfs, raisedKept_logOnly _ _ _ _ _ s,
    .of_recs (congrArg Attic.recs (hparts .attic (by decide))), hparts.mono (by decide)⟩

end

/-! ### A record is queued (R364) -/

/-- The events that are raised stay raised, and the records stay what they are. -/
def RecsKept (s t : State) : Prop := RaisedKept s t ∧ t.attic.recs = s.attic.recs

theorem RecsKept.trans {s t u : State} (h : RecsKept s t) (h' : RecsKept t u) : RecsKept s u :=
  ⟨h.1.trans h'.1, h'.2.trans h.2⟩

theorem recsKept_syncLess (r : Nat) (s : State) : RecsKept s (syncLess r s) := by
  have hfold : ∀ (l : List (List Nat)) (u : State), RecsKept u (l.foldl (fun u _ => raise E.ATTIC.SYNCED u) u) := by
    intro l
    induction l with
    | nil => exact fun u => ⟨.refl u, rfl⟩
    | cons x l ih => exact fun u => RecsKept.trans ⟨raisedKept_raise _ u, by rw [raise_attic]⟩ (ih _)
  unfold syncLess
  refine RecsKept.trans ?_ (hfold _ _)
  exact ⟨.of_regs rfl, rfl⟩

theorem recsKept_atticNext (l : List (Nat × List Nat)) (s : State) : RecsKept s (atticNext l s) := by
  induction l generalizing s with
  | nil => exact ⟨.of_regs rfl, rfl⟩
  | cons e l ih =>
    unfold atticNext
    split
    · refine RecsKept.trans (t := raise E.ATTIC.EPOCH_SAT (setB s R.ATTIC_STA.EPOCH_SAT true)) ⟨?_, ?_⟩
        ((recsKept_syncLess _ _).trans (ih _))
      · exact (raisedKept_setF s _ (by decide)).trans (raisedKept_raise _ _)
      · rw [raise_attic]
        rfl
    · exact ⟨.of_regs rfl, rfl⟩

theorem recsKept_queueRec (r : Nat) (s : State) : RecsKept s (queueRec r s) := by
  have hshow : ∀ u, RecsKept u (showAttic u) := fun u => ⟨raisedKept_setFs _ u (by simp; decide), by rw [showAttic, setFs_attic]⟩
  have hqueued : RecsKept s (enqueue r false s) := ⟨.of_regs rfl, rfl⟩
  refine hqueued.trans ?_
  unfold queueRec queueReq atticGo
  split
  · exact (recsKept_atticNext _ _).trans (hshow _)
  · exact hshow _

theorem restoreStep_queueRec {ps : List Part} {fs : List Fld} (r : Nat) (s : State) (hfs : atticFltFlds ⊆ fs)
    (hps : recordParts ⊆ ps := by decide) : RestoreStep ps fs s (queueRec r s) :=
  have hkept := recsKept_queueRec r s
  ⟨(regsBut_queueRec r s).mono hfs, hkept.1, .of_recs hkept.2, ((changesOnly_queueRec r s).mono (by decide)).mono hps⟩

/-! ### Repairs (R354) -/

theorem recValue_repairRec (a : ARec) : recValue (repairRec a) = recValue a := by
  obtain ⟨x, y⟩ := a
  cases x <;> cases y <;> simp [repairRec, recValue]

theorem smFind_map {α β : Type} (g : α → β) (m : SMap α) (k : Nat) : smFind (m.map fun e => (e.1, g e.2)) k = (smFind m k).map g := by
  induction m with
  | nil => rfl
  | cons e m ih =>
    rw [List.map_cons, smFind, smFind, ih]
    split <;> rfl

theorem smGet_repaired (m : SMap ARec) (r : Nat) :
    smGet arec0 (m.map fun e => (e.1, repairRec e.2)) r = repairRec (smGet arec0 m r) := by
  unfold smGet
  rw [smFind_map]
  cases smFind m r <;> rfl

/-- Every record's invalid copy takes the valid one's contents. -/
def recsRepaired (s : State) : State := { s with attic := { s.attic with recs := s.attic.recs.map fun e => (e.1, repairRec e.2) } }

theorem restoreStep_recsRepaired {fs : List Fld} (s : State) : RestoreStep restoreParts fs s (recsRepaired s) :=
  ⟨.of_regs rfl, .of_regs rfl, fun r => (congrArg recValue (smGet_repaired s.attic.recs r)).trans (recValue_repairRec _),
    fun p hp => by cases p <;> simp_all [Part.same, restoreParts, recordParts, recsRepaired]⟩

/-- The fields that repairs and losses write. -/
def repairFlds : List Fld :=
  [R.ATTIC_RESTORE_STA.REPAIRED, R.ATTIC_RESTORE_STA.LOST, R.ATTIC_RESTORE_STA.FIRST] ++ evFlds E.ATTIC.RECORD_REPAIRED

/-- What the repairs show where every copy reads as valid: none is lost. -/
def repairsShown (s : State) : List (Fld × Nat) :=
  [(R.ATTIC_RESTORE_STA.REPAIRED, min 4095 (s.attic.recs.filter fun e => halfValid e.2).length), (R.ATTIC_RESTORE_STA.LOST, 0),
   (R.ATTIC_RESTORE_STA.FIRST, b2n s.attic.recs.isEmpty)]

theorem repairAttic_allValid (s : State) :
    repairAttic [] s = repeatN (s.attic.recs.filter fun e => halfValid e.2).length (raise E.ATTIC.RECORD_REPAIRED)
      (setFs (recsRepaired s) (repairsShown s)) := rfl

theorem restoreStep_repairAttic (s : State) :
    RestoreStep restoreParts repairFlds s (repairAttic [] s) ∧ getF (repairAttic [] s) R.ATTIC_RESTORE_STA.LOST = 0 := by
  have hkeys : ((repairsShown s).map fun e => fldKey e.1).Nodup := by
    show ([R.ATTIC_RESTORE_STA.REPAIRED, R.ATTIC_RESTORE_STA.LOST, R.ATTIC_RESTORE_STA.FIRST].map fldKey).Nodup
    decide
  have hraised : ∀ (n : Nat) (u : State), RestoreStep restoreParts (evFlds E.ATTIC.RECORD_REPAIRED) u
      (repeatN n (raise E.ATTIC.RECORD_REPAIRED) u) := fun n u =>
    RestoreStep.foldl (fun v _ => restoreStep_raise _ v (List.Subset.refl _)) _ u
  rw [repairAttic_allValid]
  refine ⟨RestoreStep.trans ((restoreStep_recsRepaired s).trans (restoreStep_setFs _ ?_ ?_))
    ((hraised _ _).mono (List.Subset.refl _) (by decide)), ?_⟩
  · simp [repairsShown, repairFlds]
  · simp only [repairsShown, List.forall_mem_cons]
    decide
  · rw [(hraised _ _).regs.getF_eq (by decide)]
    exact getF_setFs (v := 0) hkeys (by simp [repairsShown]) _

/-! ### The Kept fields (R366) -/

theorem ownRange_congr {s t : State} (h : t.fuse = s.fuse) : ownRange t = ownRange s := by
  unfold ownRange gradeCap gradeF
  rw [h]

theorem fieldOk_congr {s t : State} (h : t.fuse = s.fuse) (f : Fld) (x : Nat) : fieldOk t f x = fieldOk s f x := by
  unfold fieldOk
  rw [ownRange_congr h]

theorem firstVal_congr {s t : State} (h : t.fuse = s.fuse) (f : Fld) : firstVal t f = firstVal s f := by
  unfold firstVal gradeCap gradeF fusedVal
  rw [h]

/-- The value that a Kept field takes, from what is on record for it. -/
def restoredVal (s : State) (f : Fld) (v : Option Nat) : Nat :=
  match v with
  | some x => if fieldOk s f x then x else firstVal s f
  | none => firstVal s f

theorem restoredVal_congr {s t : State} (h : t.fuse = s.fuse) (f : Fld) (v : Option Nat) : restoredVal t f v = restoredVal s f v := by
  cases v with
  | none => exact firstVal_congr h f
  | some x => simp only [restoredVal, fieldOk_congr h, firstVal_congr h]

/-- A restored field takes its value; one that takes its First power-on value also sets DEFAULTED. -/
theorem restoreField_cases (f : Fld) (v : Option Nat) (s : State) :
    restoreField f v s = setF s f (restoredVal s f v) ∨
      restoreField f v s = setB (setF s f (restoredVal s f v)) R.ATTIC_RESTORE_STA.DEFAULTED true := by
  cases v with
  | none => exact .inr rfl
  | some x =>
    unfold restoreField restoredVal
    dsimp only
    split
    · exact .inl rfl
    · exact .inr rfl

theorem restoreField_none (f : Fld) (s : State) :
    restoreField f none s = setB (setF s f (firstVal s f)) R.ATTIC_RESTORE_STA.DEFAULTED true := rfl

section
variable {f : Fld} (v : Option Nat) (s : State)

theorem getF_restoreField (hf : fldKey R.ATTIC_RESTORE_STA.DEFAULTED ≠ fldKey f) :
    getF (restoreField f v s) f = restoredVal s f v % 2 ^ f.width := by
  rcases restoreField_cases f v s with h | h <;> rw [h]
  · exact getF_setF s f _
  · rw [getF_setB_other _ _ _ _ hf]
    exact getF_setF s f _

theorem defaulted_restoreField (hf : fldKey f ≠ fldKey R.ATTIC_RESTORE_STA.DEFAULTED)
    (h : v = none ∨ getF s R.ATTIC_RESTORE_STA.DEFAULTED = 1) : getF (restoreField f v s) R.ATTIC_RESTORE_STA.DEFAULTED = 1 := by
  have hset : ∀ u, getF (setB u R.ATTIC_RESTORE_STA.DEFAULTED true) R.ATTIC_RESTORE_STA.DEFAULTED = 1 := fun u =>
    getF_setB u _ true Nat.one_pos
  rcases h with rfl | h
  · rw [restoreField_none]
    exact hset _
  · rcases restoreField_cases f v s with hv | hv <;> rw [hv]
    · rw [getF_setF_other _ _ _ _ hf]
      exact h
    · exact hset _

theorem restoreStep_restoreField {fs : List Fld} (hf : f ∈ fs) (hdef : R.ATTIC_RESTORE_STA.DEFAULTED ∈ fs) (he : NotEvt f) :
    RestoreStep restoreParts fs s (restoreField f v s) := by
  have hfield := restoreStep_setF (ps := restoreParts) s (restoredVal s f v) hf he
  rcases restoreField_cases f v s with h | h <;> rw [h]
  · exact hfield
  · exact hfield.trans (restoreStep_setF _ _ hdef (by decide))

end

/-- Each field takes its value in turn. -/
def fieldsRestored (l : List (Fld × Option Nat)) (s : State) : State := l.foldl (fun s e => restoreField e.1 e.2 s) s

/-- The fields of a list: the keys are apart, DEFAULTED and the events are beside them. -/
structure Restorable (fs : List Fld) : Prop where
  keys : (fs.map fldKey).Nodup
  defaulted : ∀ f ∈ fs, fldKey f ≠ fldKey R.ATTIC_RESTORE_STA.DEFAULTED
  events : ∀ f ∈ fs, NotEvt f

theorem restoreStep_fieldsRestored {fs : List Fld} (l : List (Fld × Option Nat)) (s : State) (hl : ∀ e ∈ l, e.1 ∈ fs)
    (hdef : R.ATTIC_RESTORE_STA.DEFAULTED ∈ fs) (he : ∀ e ∈ l, NotEvt e.1) :
    RestoreStep restoreParts fs s (fieldsRestored l s) := by
  induction l generalizing s with
  | nil => exact .refl s
  | cons e l ih =>
    exact (restoreStep_restoreField e.2 s (hl e (by simp)) hdef (he e (by simp))).trans
      (ih _ (fun x hx => hl x (by simp [hx])) fun x hx => he x (by simp [hx]))

/-- Each field of the list reads as the value it takes, and keeps it. -/
theorem getF_fieldsRestored {l : List (Fld × Option Nat)} (h : Restorable (l.map Prod.fst)) {f : Fld} {v : Option Nat}
    (hf : (f, v) ∈ l) (s : State) : getF (fieldsRestored l s) f = restoredVal s f v % 2 ^ f.width := by
  induction l generalizing s with
  | nil => simp at hf
  | cons e l ih =>
    obtain ⟨hkeys, hdef, hevt⟩ := h
    rw [List.map_cons, List.map_cons, List.nodup_cons] at hkeys
    obtain ⟨hhead, htail⟩ := hkeys
    rw [List.map_cons] at hdef hevt
    have hrest : Restorable (l.map Prod.fst) := ⟨htail, fun x hx => hdef x (by simp [hx]), fun x hx => hevt x (by simp [hx])⟩
    rcases List.mem_cons.mp hf with rfl | hf
    · have hstep := restoreStep_fieldsRestored (fs := R.ATTIC_RESTORE_STA.DEFAULTED :: l.map Prod.fst) l (restoreField f v s)
        (fun x hx => by simp [List.mem_map_of_mem hx]) (by simp) fun x hx => hrest.events _ (List.mem_map_of_mem hx)
      have hapart : fldKey f ∉ (R.ATTIC_RESTORE_STA.DEFAULTED :: l.map Prod.fst).map fldKey := by
        rw [List.map_cons, List.mem_cons, not_or]
        exact ⟨hdef f (by simp), hhead⟩
      exact (hstep.regs.getF_eq hapart).trans (getF_restoreField v s (Ne.symm (hdef f (by simp))))
    · have hfuse : (restoreField e.1 e.2 s).fuse = s.fuse :=
        (restoreStep_restoreField (fs := [e.1, R.ATTIC_RESTORE_STA.DEFAULTED]) e.2 s (by simp) (by simp) (hevt e.1 (by simp))).parts
          .fuse (by decide)
      exact (ih hrest hf _).trans (congrArg (· % 2 ^ f.width) (restoredVal_congr hfuse f v))

/-- A field without a record leaves DEFAULTED set. -/
theorem defaulted_fieldsRestored {l : List (Fld × Option Nat)} (h : ∀ e ∈ l, fldKey e.1 ≠ fldKey R.ATTIC_RESTORE_STA.DEFAULTED)
    (s : State) (hnone : (∃ f, (f, none) ∈ l) ∨ getF s R.ATTIC_RESTORE_STA.DEFAULTED = 1) :
    getF (fieldsRestored l s) R.ATTIC_RESTORE_STA.DEFAULTED = 1 := by
  induction l generalizing s with
  | nil => simpa [fieldsRestored] using hnone
  | cons e l ih =>
    have hset := defaulted_restoreField e.2 s (h e (by simp))
    refine ih (fun x hx => h x (by simp [hx])) _ ?_
    rcases hnone with ⟨f, hf⟩ | hone
    · rcases List.mem_cons.mp hf with rfl | hf
      · exact .inr (hset (.inl rfl))
      · exact .inl ⟨f, hf⟩
    · exact .inr (hset (.inr hone))

/-! ### The pages (R366, R367) -/

/-- The Kept fields of a page that come from its SETTINGS record. -/
def settingsFlds (p : Nat) : List Fld := (keptFlds p).filter fromSettings

/-- The Kept fields of every page that come from a SETTINGS record. -/
def allSettings : List Fld := pages.flatMap settingsFlds

/-- These fields of a page, each with its value on record. -/
def recordedFlds (s : State) (p : Nat) : List (Fld × Option Nat) :=
  ((keptFlds p).zipIdx.filter fun e => fromSettings e.1).map fun e => (e.1, (settingsOf s p).bind fun l => l[e.2]?)

theorem fst_recordedFlds (s : State) (p : Nat) : (recordedFlds s p).map Prod.fst = settingsFlds p := by
  have hfst : (keptFlds p).zipIdx.map Prod.fst = keptFlds p := List.zipIdx_map_fst _ _
  unfold recordedFlds settingsFlds
  rw [List.map_map]
  conv_rhs => rw [← hfst, List.filter_map]
  rfl

theorem settingsOf_congr {s t : State} (h : SameValues s t) (p : Nat) : settingsOf t p = settingsOf s p := by
  unfold settingsOf
  rw [h]

theorem recordedFlds_congr {s t : State} (h : SameValues s t) (p : Nat) : recordedFlds t p = recordedFlds s p := by
  unfold recordedFlds
  rw [settingsOf_congr h]

theorem restorePage_eq (p : Nat) (s : State) : restorePage p s = fieldsRestored (recordedFlds s p) s := by
  unfold restorePage fieldsRestored recordedFlds
  rw [List.foldl_map, List.foldl_filter]

theorem restorable_allSettings : Restorable allSettings where
  keys := by
    have hchain : (allSettings.map fldKey).IsChain (· < ·) := by decide +kernel
    exact (List.isChain_iff_pairwise.mp hchain).imp fun h => Nat.ne_of_lt h
  defaulted := by decide +kernel
  events := by decide +kernel

/-- The fields that the restoration of the pages writes. -/
def pageRestoreFlds : List Fld := R.ATTIC_RESTORE_STA.DEFAULTED :: allSettings

theorem settingsFlds_subset {p : Nat} (hp : p ∈ pages) : settingsFlds p ⊆ allSettings := fun _ hf =>
  List.mem_flatMap.mpr ⟨p, hp, hf⟩

/-- What is on record for every page. -/
def allRecorded (s : State) : List (Fld × Option Nat) := pages.flatMap (recordedFlds s)

theorem fst_allRecorded (s : State) : (allRecorded s).map Prod.fst = allSettings := by
  unfold allRecorded allSettings
  rw [List.map_flatMap]
  exact congrArg (fun g => pages.flatMap g) (funext fun p => fst_recordedFlds s p)

theorem mem_allSettings_of_recorded {s : State} {e : Fld × Option Nat} (h : e ∈ allRecorded s) : e.1 ∈ allSettings :=
  fst_allRecorded s ▸ List.mem_map_of_mem h

theorem foldl_restorePage {ps : List Nat} (hps : ps ⊆ pages) (s : State) :
    ps.foldl (fun s p => restorePage p s) s = fieldsRestored (ps.flatMap (recordedFlds s)) s := by
  induction ps generalizing s with
  | nil => rfl
  | cons p ps ih =>
    have hp : p ∈ pages := hps (by simp)
    have hflds : ∀ e ∈ recordedFlds s p, e.1 ∈ allSettings := fun e he =>
      settingsFlds_subset hp (fst_recordedFlds s p ▸ List.mem_map_of_mem he)
    have hstep := restoreStep_fieldsRestored (fs := pageRestoreFlds) (recordedFlds s p) s
      (fun e he => .tail _ (hflds e he)) (.head _) fun e he => restorable_allSettings.events _ (hflds e he)
    have hsame : recordedFlds (fieldsRestored (recordedFlds s p) s) = recordedFlds s := funext fun q =>
      recordedFlds_congr hstep.values q
    rw [List.foldl_cons, restorePage_eq, ih fun q hq => hps (by simp [hq]), hsame, List.flatMap_cons]
    exact (List.foldl_append ..).symm

/-- The Kept fields of every page are restored. -/
def pagesRestored (s : State) : State := pages.foldl (fun s p => restorePage p s) s

theorem pagesRestored_eq (s : State) : pagesRestored s = fieldsRestored (allRecorded s) s :=
  foldl_restorePage (List.Subset.refl _) s

theorem restoreStep_pagesRestored (s : State) : RestoreStep restoreParts pageRestoreFlds s (pagesRestored s) := by
  rw [pagesRestored_eq]
  exact restoreStep_fieldsRestored _ s (fun e he => .tail _ (mem_allSettings_of_recorded he)) (.head _)
    fun e he => restorable_allSettings.events _ (mem_allSettings_of_recorded he)

theorem getF_pagesRestored {s : State} {f : Fld} {v : Option Nat} (h : (f, v) ∈ allRecorded s) :
    getF (pagesRestored s) f = restoredVal s f v % 2 ^ f.width := by
  rw [pagesRestored_eq]
  exact getF_fieldsRestored (fst_allRecorded s ▸ restorable_allSettings) h s

theorem defaulted_pagesRestored {s : State} {f : Fld} (h : (f, none) ∈ allRecorded s) :
    getF (pagesRestored s) R.ATTIC_RESTORE_STA.DEFAULTED = 1 := by
  rw [pagesRestored_eq]
  exact defaulted_fieldsRestored (fun e he => restorable_allSettings.defaulted _ (mem_allSettings_of_recorded he)) s (.inl ⟨f, h⟩)

theorem mem_allRecorded {s : State} {p : Nat} (hp : p ∈ pages) {f : Fld} {j : Nat} (h : (f, j) ∈ (keptFlds p).zipIdx)
    (hf : fromSettings f = true) : (f, (settingsOf s p).bind fun l => l[j]?) ∈ allRecorded s :=
  List.mem_flatMap.mpr ⟨p, hp, List.mem_map_of_mem (f := fun e : Fld × Nat => (e.1, (settingsOf s p).bind fun l => l[e.2]?))
    (List.mem_filter.mpr ⟨h, hf⟩)⟩

/-! ### The PACKAGE record and the histories (R53, R354; Table 15.7) -/

/-- The fields that the PACKAGE record writes. -/
def packageFlds : List Fld :=
  [R.ATTIC_RESTORE_STA.DEFAULTED, R.TOP_PKG_ID.ID, R.ATTIC_POWERED.SECONDS, R.HTH_TRIP_STA.PREV, R.FLT_SUSPECT.SUSPECT]

/-- What the PACKAGE record brings beside the package's ID. -/
def packageShown (l : List Nat) (s : State) : List (Fld × Nat) :=
  [(R.ATTIC_POWERED.SECONDS, max (getF s R.ATTIC_POWERED.SECONDS) (l.getD 1 0)), (R.HTH_TRIP_STA.PREV, l.getD 2 0),
   (R.FLT_SUSPECT.SUSPECT, l.getD 4 0)]

theorem restorePackage_none {s : State} (h : recValue (getRec s recPackage) = none) :
    restorePackage s = setB s R.ATTIC_RESTORE_STA.DEFAULTED true := by
  unfold restorePackage
  rw [h]

theorem restorePackage_some {l : List Nat} {s : State} (h : recValue (getRec s recPackage) = some l) :
    restorePackage s = setFs (restoreField R.TOP_PKG_ID.ID l[0]? s) (packageShown l s) := by
  unfold restorePackage
  rw [h]
  rfl

theorem restoreStep_restorePackage (s : State) : RestoreStep restoreParts packageFlds s (restorePackage s) := by
  cases h : recValue (getRec s recPackage) with
  | none =>
    rw [restorePackage_none h]
    exact restoreStep_setF s _ (by decide) (by decide)
  | some l =>
    rw [restorePackage_some h]
    refine (restoreStep_restoreField l[0]? s (by decide) (by decide) (by decide)).trans (restoreStep_setFs _ ?_ ?_)
    · simp [packageShown, packageFlds]
    · simp only [packageShown, List.forall_mem_cons]
      decide

theorem restorePackage_shows {l : List Nat} {s : State} (h : recValue (getRec s recPackage) = some l) :
    getF (restorePackage s) R.HTH_TRIP_STA.PREV = l.getD 2 0 % 2 ^ 4 ∧
      getF (restorePackage s) R.FLT_SUSPECT.SUSPECT = l.getD 4 0 % 2 := by
  have hkeys : ((packageShown l s).map fun e => fldKey e.1).Nodup := by
    show ([R.ATTIC_POWERED.SECONDS, R.HTH_TRIP_STA.PREV, R.FLT_SUSPECT.SUSPECT].map fldKey).Nodup
    decide
  rw [restorePackage_some h]
  exact ⟨getF_setFs (v := l.getD 2 0) hkeys (by simp [packageShown]) _,
    getF_setFs (v := l.getD 4 0) hkeys (by simp [packageShown]) _⟩

theorem defaulted_restorePackage {s : State} (h : getF s R.ATTIC_RESTORE_STA.DEFAULTED = 1) :
    getF (restorePackage s) R.ATTIC_RESTORE_STA.DEFAULTED = 1 := by
  cases hl : recValue (getRec s recPackage) with
  | none =>
    rw [restorePackage_none hl]
    exact getF_setB s _ true Nat.one_pos
  | some l =>
    rw [restorePackage_some hl, getF_setFs_other]
    · exact defaulted_restoreField _ s (by decide) (.inr h)
    · simp only [packageShown, List.forall_mem_cons]
      decide

theorem restoreStep_freshHists (i : Nat) (s : State) : RestoreStep restoreParts atticFltFlds s (freshHists i s) :=
  .foldl (fun u _ => (restoreStep_withHist u _).trans (restoreStep_queueRec _ _ (List.Subset.refl _))) _ s

theorem restoreStep_restoreHists (s : State) : RestoreStep restoreParts atticFltFlds s (restoreHists s) := by
  have hload : RestoreStep restoreParts atticFltFlds s (loadHists s) := restoreStep_withHist s _
  unfold restoreHists
  dsimp only
  split
  · exact hload
  · exact hload.trans (.foldl (fun u i => restoreStep_freshHists i u) _ _)

/-! ### The settings stand, and the cap follows (R327, R329) -/

/-- The fields that show the end of the restoration. -/
def doneFlds : List Fld := R.ATTIC_RESTORE_STA.DONE :: evFlds E.ATTIC.RESTORED

/-- The fields that are written from the histories to the effective cap. -/
def settledFlds : List Fld :=
  atticFltFlds ++ [R.FLT_STA.PENDING, R.HALL_PORTMAP.USED] ++ logFlds ++ [R.HTH_CAP_EFF.CAP, R.HTH_CAP_EFF.BY] ++
    evFlds E.HEARTH.CAP_REDUCED

/-- DONE and RESTORED show. -/
def restoreShown (s : State) : State := raise E.ATTIC.RESTORED (setB s R.ATTIC_RESTORE_STA.DONE true)

theorem restoreStep_restoreShown (s : State) : RestoreStep restoreParts doneFlds s (restoreShown s) :=
  (restoreStep_setF s _ (by decide) (by decide)).trans (restoreStep_raise _ _ (by decide))

theorem restoreShown_shows (s : State) :
    getF (restoreShown s) R.ATTIC_RESTORE_STA.DONE = 1 ∧ raised E.ATTIC.RESTORED (restoreShown s) := by
  refine ⟨?_, raised_raise _ _ (by decide)⟩
  unfold restoreShown
  rw [getF_raise_other _ _ _ (by decide)]
  exact getF_setB s _ true Nat.one_pos

theorem restoreStep_logLoss (s : State) : RestoreStep restoreParts settledFlds s (logLoss s) := by
  have hlost := restoreStep_onHearth (fs := settledFlds) (fun h => { h with lost := false }) s
  unfold logLoss
  dsimp only
  split
  · exact .refl s
  · split
    · exact hlost
    · exact hlost.trans (restoreStep_logOnly _ _ _ _ _ _ (by decide))

theorem lost_logLoss (s : State) : (logLoss s).hearth.lost = false := by
  unfold logLoss
  dsimp only
  split
  · simp_all
  · split
    · rfl
    · exact congrArg Hearth.lost (changesOnly_logOnly _ _ _ _ _ _ .hearth (by decide))

/-- The effective cap and what it follows. -/
def capShown (s : State) : List (Fld × Nat) :=
  [(R.HTH_CAP_EFF.CAP, (lowestCap (capList s)).1), (R.HTH_CAP_EFF.BY, (lowestCap (capList s)).2)]

/-- The cap stands below the set one. -/
def capLow (s : State) : Bool := decide ((lowestCap (capList s)).1 < getF s R.HTH_CAP_W.CAP)

theorem updateCap_eq (s : State) :
    updateCap s = raiseIf (capLow s && !s.hearth.reduced) E.HEARTH.CAP_REDUCED
      (setFs (onHearth (fun h => { h with reduced := capLow s }) s) (capShown s)) := rfl

theorem restoreStep_updateCap (s : State) : RestoreStep restoreParts settledFlds s (updateCap s) := by
  rw [updateCap_eq]
  refine ((restoreStep_onHearth _ s).trans (restoreStep_setFs _ ?_ ?_)).trans (restoreStep_raiseIf _ _ _ (by decide))
  · simp only [capShown, List.forall_mem_cons]
    decide
  · simp only [capShown, List.forall_mem_cons]
    decide

theorem lost_updateCap (s : State) : (updateCap s).hearth.lost = s.hearth.lost := by
  have hraise := changesOnly_raiseIf (capLow s && !s.hearth.reduced) E.HEARTH.CAP_REDUCED
    (setFs (onHearth (fun h => { h with reduced := capLow s }) s) (capShown s)) .hearth (by decide)
  rw [updateCap_eq, hraise, setFs_hearth]
  rfl

/-- The settings and the histories stand; the effective cap follows them. -/
def settled (s : State) : State :=
  let u := restoreHists (restoreShown s)
  updateCap (logLoss (setFs u [(R.FLT_STA.PENDING, pendingTests u), (R.HALL_PORTMAP.USED, usedPorts u)]))

theorem restoreStep_settled (s : State) : RestoreStep restoreParts settledFlds (restoreShown s) (settled s) := by
  have hhists := (restoreStep_restoreHists (restoreShown s)).mono (List.Subset.refl _) (gs := settledFlds) (by decide)
  have hshown : RestoreStep restoreParts settledFlds (restoreHists (restoreShown s)) (setFs (restoreHists (restoreShown s))
      [(R.FLT_STA.PENDING, pendingTests (restoreHists (restoreShown s))),
       (R.HALL_PORTMAP.USED, usedPorts (restoreHists (restoreShown s)))]) := by
    refine restoreStep_setFs _ ?_ ?_ <;>
    · simp only [List.forall_mem_cons]
      decide
  exact ((hhists.trans hshown).trans (restoreStep_logLoss _)).trans (restoreStep_updateCap _)

theorem lost_settled (s : State) : (settled s).hearth.lost = false := (lost_updateCap _).trans (lost_logLoss _)

/-! ### Warm or cold (R351) -/

section
variable {s t : State}

theorem idRecord_congr (h : SameValues s t) (i : Nat) : idRecord t i = idRecord s i := by
  unfold idRecord
  rw [h]

theorem identityOf_congr (hfuse : t.fuse = s.fuse) (hbu : t.bu = s.bu) (hguest : t.guest = s.guest) (i : Nat) :
    identityOf t i = identityOf s i := by
  unfold identityOf
  rw [hfuse, hbu, hguest]

theorem noIdentity_congr (h : SameValues s t) : noIdentity t = noIdentity s := by
  unfold noIdentity
  simp only [idRecord_congr h]

theorem differing_congr (h : SameValues s t) (hfuse : t.fuse = s.fuse) (hbu : t.bu = s.bu) (hguest : t.guest = s.guest) :
    differing t = differing s := by
  unfold differing identities guestAnswered
  simp only [idRecord_congr h, identityOf_congr hfuse hbu hguest, hfuse, hguest]

theorem trainingMissing_congr (h : SameValues s t) (hfuse : t.fuse = s.fuse) : trainingMissing t = trainingMissing s := by
  unfold trainingMissing trainingUnits
  simp only [h _, hfuse]

/-- The reason for a cold bring-up rests on the records, the identities and the wish for one. -/
theorem whyCold_congr (h : SameValues s t) (hfuse : t.fuse = s.fuse) (hbu : t.bu = s.bu) (hguest : t.guest = s.guest) :
    whyCold t = whyCold s := by
  unfold whyCold
  rw [noIdentity_congr h, differing_congr h hfuse hbu hguest, trainingMissing_congr h hfuse, hbu]

end

theorem whyCold_le (s : State) : whyCold s ≤ 4 := by
  unfold whyCold
  repeat' split
  all_goals decide

/-- A warm bring-up has a TRAINING and a MARGINS record of every unit. -/
theorem trainingMissing_of_warm {s : State} (h : whyCold s = 0) : trainingMissing s = false := by
  unfold whyCold at h
  by_contra hmissing
  rw [Bool.not_eq_false] at hmissing
  rw [if_pos hmissing] at h
  repeat' split at h
  all_goals exact absurd h (by decide)

theorem records_of_warm {s : State} (h : whyCold s = 0) {u : Nat} (hu : u < trainingUnits s) :
    (recValue (getRec s (recTraining u))).isSome = true ∧ (recValue (getRec s (recMargins u))).isSome = true := by
  have hall := trainingMissing_of_warm h
  unfold trainingMissing at hall
  rw [List.any_eq_false] at hall
  have hone := hall u (List.mem_range.mpr hu)
  rw [Bool.or_eq_true, not_or] at hone
  exact ⟨by simpa [Option.isSome_iff_ne_none] using hone.1, by simpa [Option.isSome_iff_ne_none] using hone.2⟩

/-- The parts that the choice of the mode and the restoration of what was trained may change. -/
def modeParts : List Part := .bu :: recordParts

/-- The fields that the choice of the mode writes. -/
def modeFlds : List Fld :=
  [R.BU_MODE.WHY, R.BU_PHASE.COLD] ++ evFlds E.BRINGUP.COLD_RUN ++ atticFltFlds ++ evFlds E.TICK.SYNC_LOCK

theorem restoreStep_withBu {fs : List Fld} (s : State) (b : Bringup) : RestoreStep modeParts fs s { s with bu := b } :=
  ⟨.of_regs rfl, .of_regs rfl, .of_recs rfl, fun p hp => by cases p <;> simp_all [Part.same, modeParts]⟩

/-- WHY and COLD show the mode, and COLD_RUN a cold one. -/
def modeShown (s : State) : State :=
  raiseIf (whyCold s != 0) E.BRINGUP.COLD_RUN
    (setFs s [(R.BU_MODE.WHY, whyCold s), (R.BU_PHASE.COLD, b2n (whyCold s != 0))])

/-- The wish for a cold bring-up has served. -/
def wishServed (s : State) : State :=
  if s.bu.wantCold then queueRec recPackage { s with bu := { s.bu with coldNext := false, wantCold := false } } else s

theorem chooseMode_eq (s : State) : chooseMode s = wishServed (modeShown s) := rfl

theorem restoreStep_modeShown (s : State) : RestoreStep modeParts modeFlds s (modeShown s) := by
  refine (restoreStep_setFs s ?_ ?_).trans (restoreStep_raiseIf _ _ _ (by decide)) <;>
  · simp only [List.forall_mem_cons]
    decide

theorem modeShown_shows (s : State) :
    getF (modeShown s) R.BU_MODE.WHY = whyCold s ∧ getF (modeShown s) R.BU_PHASE.COLD = if whyCold s = 0 then 0 else 1 := by
  have hkeys : ([R.BU_MODE.WHY, R.BU_PHASE.COLD].map fldKey).Nodup := by decide
  have hevt : RegsBut (evFlds E.BRINGUP.COLD_RUN)
      (setFs s [(R.BU_MODE.WHY, whyCold s), (R.BU_PHASE.COLD, b2n (whyCold s != 0))]) (modeShown s) :=
    regsBut_raiseIf _ _ _ (List.Subset.refl _)
  have hwhy : whyCold s < 2 ^ 3 := Nat.lt_of_le_of_lt (whyCold_le s) (by decide)
  constructor
  · rw [hevt.getF_eq (by decide)]
    exact getF_setFs_lt (l := [(_, _), (_, _)]) hkeys (.head _) hwhy s
  · rw [hevt.getF_eq (by decide)]
    refine (getF_setFs (l := [(_, _), (_, _)]) (v := b2n (whyCold s != 0)) hkeys (.tail _ (.head _)) s).trans ?_
    by_cases h : whyCold s = 0 <;> simp [h, b2n]

theorem restoreStep_wishServed (s : State) : RestoreStep modeParts atticFltFlds s (wishServed s) := by
  unfold wishServed
  split
  · exact (restoreStep_withBu s _).trans (restoreStep_queueRec _ _ (List.Subset.refl _))
  · exact .refl s

/-! ### What was trained (R211, R351) -/

/-- A unit takes what its TRAINING and MARGINS records hold. -/
def unitRestored (s : State) (u : Nat) : State :=
  { s with bu := { s.bu with coef := smSet [] s.bu.coef u ((recValue (getRec s (recTraining u))).getD []),
                             marg := smSet [] s.bu.marg u ((recValue (getRec s (recMargins u))).getD []) } }

/-- What was trained and margined of a unit is what its records hold. -/
def UnitRestored (s t : State) (u : Nat) : Prop :=
  smGet [] t.bu.coef u = (recValue (getRec s (recTraining u))).getD [] ∧
    smGet [] t.bu.marg u = (recValue (getRec s (recMargins u))).getD []

theorem unitsRestored {u : Nat} (l : List Nat) : ∀ {s : State}, u ∈ l ∨ UnitRestored s s u → UnitRestored s (l.foldl unitRestored s) u := by
  induction l with
  | nil => exact fun h => h.resolve_left (by simp)
  | cons v l ih =>
    intro s h
    have hstep : u ∈ l ∨ UnitRestored (unitRestored s v) (unitRestored s v) u := by
      by_cases hv : v = u
      · subst hv
        exact .inr ⟨(smGet_smSet [] _ _ _ _).trans (if_pos rfl), (smGet_smSet [] _ _ _ _).trans (if_pos rfl)⟩
      · refine h.imp (fun h => (List.mem_cons.mp h).resolve_left (Ne.symm hv)) fun ⟨hcoef, hmarg⟩ => ⟨?_, ?_⟩
        · exact ((smGet_smSet [] _ _ _ _).trans (if_neg hv)).trans hcoef
        · exact ((smGet_smSet [] _ _ _ _).trans (if_neg hv)).trans hmarg
    exact ih hstep

theorem restoreTraining_cold {s : State} (h : flagF s R.BU_PHASE.COLD = true) : restoreTraining s = s := if_pos h

theorem restoreTraining_warm {s : State} (h : flagF s R.BU_PHASE.COLD = false) :
    restoreTraining s = (List.range (trainingUnits s)).foldl unitRestored s := if_neg (by simp [h])

theorem restoreStep_restoreTraining {fs : List Fld} (s : State) : RestoreStep modeParts fs s (restoreTraining s) := by
  by_cases h : flagF s R.BU_PHASE.COLD = true
  · rw [restoreTraining_cold h]
    exact .refl s
  · rw [restoreTraining_warm (by simpa using h)]
    exact .foldl (fun u v => restoreStep_withBu u _) _ s

/-- The mode is chosen, and a warm bring-up takes what was trained; the root is locked to itself (`b`). -/
def modeTaken (b : Bool) (s : State) : State := restoreTraining (raiseIf b E.TICK.SYNC_LOCK (chooseMode s))

theorem restoreStep_lockRaised (b : Bool) (s : State) :
    RestoreStep modeParts (atticFltFlds ++ evFlds E.TICK.SYNC_LOCK) (modeShown s) (raiseIf b E.TICK.SYNC_LOCK (chooseMode s)) := by
  rw [chooseMode_eq]
  exact ((restoreStep_wishServed _).mono (List.Subset.refl _) (by decide)).trans
    (restoreStep_raiseIf b _ _ (by decide))

theorem restoreStep_modeTaken (b : Bool) (s : State) : RestoreStep modeParts modeFlds s (modeTaken b s) :=
  ((restoreStep_modeShown s).trans ((restoreStep_lockRaised b s).mono (List.Subset.refl _) (by decide))).trans
    (restoreStep_restoreTraining _)

theorem modeTaken_shows (b : Bool) (s : State) :
    getF (modeTaken b s) R.BU_MODE.WHY = whyCold s ∧ getF (modeTaken b s) R.BU_PHASE.COLD = if whyCold s = 0 then 0 else 1 := by
  obtain ⟨hwhy, hcold⟩ := modeShown_shows s
  have hstep := (restoreStep_lockRaised b s).trans (restoreStep_restoreTraining _)
  exact ⟨(hstep.regs.getF_eq (by decide)).trans hwhy, (hstep.regs.getF_eq (by decide)).trans hcold⟩

theorem modeTaken_warm (b : Bool) {s : State} (h : whyCold s = 0) {u : Nat} (hu : u < trainingUnits s) :
    UnitRestored s (modeTaken b s) u := by
  obtain ⟨r, hr⟩ : ∃ r, r = raiseIf b E.TICK.SYNC_LOCK (chooseMode s) := ⟨_, rfl⟩
  have hstep : RestoreStep modeParts (atticFltFlds ++ evFlds E.TICK.SYNC_LOCK) (modeShown s) r := hr ▸ restoreStep_lockRaised b s
  have hcold : getF r R.BU_PHASE.COLD = 0 := by
    rw [hstep.regs.getF_eq (by decide), (modeShown_shows s).2, if_pos h]
  have hvalues : SameValues s r := (restoreStep_modeShown s).values.trans hstep.values
  have hfuse : r.fuse = s.fuse := (hstep.parts .fuse (by decide)).trans ((restoreStep_modeShown s).parts .fuse (by decide))
  have hunits : trainingUnits r = trainingUnits s := by
    unfold trainingUnits
    rw [hfuse]
  obtain ⟨hcoef, hmarg⟩ := unitsRestored (s := r) (List.range (trainingUnits r)) (.inl (List.mem_range.mpr (hunits.symm ▸ hu)))
  unfold modeTaken
  rw [← hr, restoreTraining_warm (flagF_of_eq_zero hcold)]
  exact ⟨hcoef.trans (by rw [hvalues]), hmarg.trans (by rw [hvalues])⟩

/-! ### P3 ends (R352) -/

/-- The fields that the end of the phase writes. -/
def restoreEndFlds : List Fld := stopFlds ++ R.BU_PHASE.PHASE :: evFlds E.BRINGUP.PHASE

/-- P3 ends: a SUSPECT package stops, any other goes on to P4. -/
def restoreEnded (s : State) : State := endPhase 3 (if flagF s R.FLT_SUSPECT.SUSPECT then 3 else 0) s

theorem restoreEnded_suspect {s : State} (h : flagF s R.FLT_SUSPECT.SUSPECT = true) : Stopped 3 3 s (restoreEnded s) := by
  unfold restoreEnded
  rw [if_pos h, endPhase_stop (by decide)]
  exact stopBringup_stopped 3 3 s

theorem restoreEnded_goesOn {s : State} (h : flagF s R.FLT_SUSPECT.SUSPECT = false) (hflag : getF s R.FLT_SUSPECT.FLAGGED = 0) :
    PhaseBegun 4 s (restoreEnded s) := by
  unfold restoreEnded
  rw [if_neg (by simp [h]), endPhase_next (by decide) hflag]
  exact beginPhase_begun 4 s

/-- However the phase ends, what was trained stays, and no more is written than its end shows. -/
theorem restoreEnded_keeps {s : State} (hflag : getF s R.FLT_SUSPECT.FLAGGED = 0) :
    RestoreStep modeParts restoreEndFlds s (restoreEnded s) ∧ (restoreEnded s).bu.coef = s.bu.coef ∧
      (restoreEnded s).bu.marg = s.bu.marg := by
  cases h : flagF s R.FLT_SUSPECT.SUSPECT with
  | true =>
    have hstop := restoreEnded_suspect h
    exact ⟨⟨hstop.regs.mono (by decide), hstop.kept, .of_recs (congrArg Attic.recs (hstop.parts .attic (by decide))),
      hstop.parts.mono (by decide)⟩, by rw [hstop.bu], by rw [hstop.bu]⟩
  | false =>
    have hnext := restoreEnded_goesOn h hflag
    exact ⟨⟨hnext.regs.mono (by decide), hnext.kept, .of_recs (congrArg Attic.recs (hnext.parts .attic (by decide))),
      hnext.parts.mono (by decide)⟩, by rw [hnext.bu], by rw [hnext.bu]⟩

/-! ### The stages of P3 (R354) -/

/-- The stages up to the pages, and up to the PACKAGE record. -/
def pagesDone (s : State) : State := pagesRestored (repairAttic [] s)

def packageDone (s : State) : State := restorePackage (pagesDone s)

/-- The state in which P3 leaves its work, and the one in which it ends. -/
def worked (b : Bool) (s : State) : State := modeTaken b (settled (packageDone s))

def restoreFinal (b : Bool) (s : State) : State := restoreEnded (worked b s)

theorem atticRestore_final {s : State} (hclosed : s.hearth.closed = true) (hnext : s.bu.next = 3) :
    ∃ b, exec (.atticRestore []) s = .next (restoreFinal b s) :=
  ⟨_, congrArg Host.Outcome.next (phase_of_next (restoreWork []) hclosed hnext)⟩

/-- The fields that are written behind the pages, before the phase ends. -/
def behindFlds : List Fld := packageFlds ++ doneFlds ++ settledFlds ++ modeFlds

theorem restoreStep_pagesDone (s : State) : RestoreStep restoreParts (repairFlds ++ pageRestoreFlds) s (pagesDone s) :=
  ((restoreStep_repairAttic s).1.mono (List.Subset.refl _) (List.subset_append_left _ _)).trans
    ((restoreStep_pagesRestored _).mono (List.Subset.refl _) (List.subset_append_right _ _))

/-- What is done before the mode is chosen leaves the bring-up's part and the guest alone. -/
theorem restoreStep_settledDone (s : State) :
    RestoreStep restoreParts (packageFlds ++ doneFlds ++ settledFlds) (pagesDone s) (settled (packageDone s)) :=
  (((restoreStep_restorePackage _).mono (List.Subset.refl _) (by decide)).trans
    ((restoreStep_restoreShown _).mono (List.Subset.refl _) (by decide))).trans
    ((restoreStep_settled _).mono (List.Subset.refl _) (by decide))

/-- The parts that P3 may change. -/
def lateParts : List Part := .hearth :: modeParts

theorem restoreStep_worked (b : Bool) (s : State) : RestoreStep lateParts behindFlds (pagesDone s) (worked b s) :=
  ((restoreStep_settledDone s).mono (by decide) (by decide)).trans ((restoreStep_modeTaken b _).mono (by decide) (by decide))

/-- The phase has work behind it that leaves FLAGGED as it was. -/
theorem flagged_worked (b : Bool) (s : State) : getF (worked b s) R.FLT_SUSPECT.FLAGGED = getF s R.FLT_SUSPECT.FLAGGED := by
  rw [(restoreStep_worked b s).regs.getF_eq (by decide), (restoreStep_pagesDone s).regs.getF_eq (by decide +kernel)]

theorem whyCold_settledDone (s : State) : whyCold (settled (packageDone s)) = whyCold s := by
  have hpages := restoreStep_pagesDone s
  have hdone := restoreStep_settledDone s
  have hpart : ∀ p, p ∉ restoreParts → p.same s (settled (packageDone s)) := fun p hp =>
    Part.same_trans (hpages.parts p hp) (hdone.parts p hp)
  exact whyCold_congr (hpages.values.trans hdone.values) (hpart .fuse (by decide)) (hpart .bu (by decide)) (hpart .guest (by decide))

/-! ### What P3 leaves -/

/-- The fields that are written behind the pages. -/
def lateFlds : List Fld := behindFlds ++ restoreEndFlds

section
variable {s : State} (hflag : getF s R.FLT_SUSPECT.FLAGGED = 0) (b : Bool)
include hflag

theorem restoreStep_ended : RestoreStep modeParts restoreEndFlds (worked b s) (restoreFinal b s) :=
  (restoreEnded_keeps ((flagged_worked b s).trans hflag)).1

theorem restoreStep_late : RestoreStep lateParts lateFlds (pagesDone s) (restoreFinal b s) :=
  ((restoreStep_worked b s).mono (List.Subset.refl _) (List.subset_append_left _ _)).trans
    ((restoreStep_ended hflag b).mono (by decide) (List.subset_append_right _ _))

/-- What is written behind DONE. -/
theorem restoreStep_behindDone :
    RestoreStep lateParts (settledFlds ++ modeFlds ++ restoreEndFlds) (restoreShown (packageDone s)) (restoreFinal b s) :=
  (((restoreStep_settled _).mono (by decide) (by decide)).trans
    ((restoreStep_modeTaken b _).mono (by decide) (by decide))).trans ((restoreStep_ended hflag b).mono (by decide) (by decide))

/-- What is written behind the PACKAGE record. -/
theorem restoreStep_behindPackage :
    RestoreStep lateParts (doneFlds ++ settledFlds ++ modeFlds ++ restoreEndFlds) (packageDone s) (restoreFinal b s) :=
  ((restoreStep_restoreShown _).mono (by decide) (by decide)).trans
    ((restoreStep_behindDone hflag b).mono (List.Subset.refl _) (by decide))

theorem sameValues_restoreFinal : SameValues s (restoreFinal b s) :=
  (restoreStep_pagesDone s).values.trans (restoreStep_late hflag b).values

theorem restoreFinal_done :
    getF (restoreFinal b s) R.ATTIC_RESTORE_STA.DONE = 1 ∧ raised E.ATTIC.RESTORED (restoreFinal b s) := by
  have hbehind := restoreStep_behindDone hflag b
  obtain ⟨hdone, hraised⟩ := restoreShown_shows (packageDone s)
  exact ⟨(hbehind.regs.getF_eq (by decide)).trans hdone, hbehind.kept _ (by decide) hraised⟩

theorem restoreFinal_noneLost : getF (restoreFinal b s) R.ATTIC_RESTORE_STA.LOST = 0 := by
  rw [(restoreStep_late hflag b).regs.getF_eq (by decide), pagesDone,
    (restoreStep_pagesRestored _).regs.getF_eq (by decide +kernel)]
  exact (restoreStep_repairAttic s).2

/-- A Kept field of a page takes what is on record for it, and nothing writes it again. -/
theorem getF_restoreFinal {p : Nat} (hp : p ∈ pages) {f : Fld} {j : Nat} (h : (f, j) ∈ (keptFlds p).zipIdx)
    (hf : fromSettings f = true) :
    getF (restoreFinal b s) f = restoredVal s f ((settingsOf s p).bind fun l => l[j]?) % 2 ^ f.width := by
  have hapart : ∀ f ∈ allSettings, fldKey f ∉ lateFlds.map fldKey := by decide +kernel
  have hrepair := (restoreStep_repairAttic s).1
  have hrec := mem_allRecorded (s := repairAttic [] s) hp h hf
  rw [(restoreStep_late hflag b).regs.getF_eq (hapart f (mem_allSettings_of_recorded hrec)), pagesDone, getF_pagesRestored hrec,
    restoredVal_congr (hrepair.parts .fuse (by decide)), settingsOf_congr hrepair.values]

/-- A page without a record leaves DEFAULTED set. -/
theorem restoreFinal_defaulted {p : Nat} (hp : p ∈ pages) {f : Fld} {j : Nat} (h : (f, j) ∈ (keptFlds p).zipIdx)
    (hf : fromSettings f = true) (hnone : settingsOf s p = none) : getF (restoreFinal b s) R.ATTIC_RESTORE_STA.DEFAULTED = 1 := by
  have hbehind := restoreStep_behindPackage hflag b
  have hrec := mem_allRecorded (s := repairAttic [] s) hp h hf
  rw [settingsOf_congr (restoreStep_repairAttic s).1.values, hnone] at hrec
  rw [hbehind.regs.getF_eq (by decide)]
  exact defaulted_restorePackage (defaulted_pagesRestored hrec)

theorem restoreFinal_package {l : List Nat} (h : recValue (getRec s recPackage) = some l) :
    getF (restoreFinal b s) R.HTH_TRIP_STA.PREV = l.getD 2 0 % 2 ^ 4 ∧
      getF (restoreFinal b s) R.FLT_SUSPECT.SUSPECT = l.getD 4 0 % 2 := by
  have hbehind := restoreStep_behindPackage hflag b
  obtain ⟨hprev, hsuspect⟩ := restorePackage_shows (s := pagesDone s) (((restoreStep_pagesDone s).values _).trans h)
  exact ⟨(hbehind.regs.getF_eq (by decide)).trans hprev, (hbehind.regs.getF_eq (by decide)).trans hsuspect⟩

theorem restoreFinal_mode :
    getF (restoreFinal b s) R.BU_MODE.WHY = whyCold s ∧
      getF (restoreFinal b s) R.BU_PHASE.COLD = if whyCold s = 0 then 0 else 1 := by
  obtain ⟨hwhy, hcold⟩ := modeTaken_shows b (settled (packageDone s))
  rw [whyCold_settledDone] at hwhy hcold
  have hend := restoreStep_ended hflag b
  exact ⟨(hend.regs.getF_eq (by decide)).trans hwhy, (hend.regs.getF_eq (by decide)).trans hcold⟩

theorem restoreFinal_lossLogged : (restoreFinal b s).hearth.lost = false := by
  have hend := (restoreStep_ended hflag b).parts .hearth (by decide)
  have hmode := (restoreStep_modeTaken b (settled (packageDone s))).parts .hearth (by decide)
  exact (congrArg Hearth.lost (hend.trans hmode)).trans (lost_settled _)

theorem restoreFinal_warm (h : whyCold s = 0) {u : Nat} (hu : u < trainingUnits s) :
    recValue (getRec s (recTraining u)) = some (smGet [] (restoreFinal b s).bu.coef u) ∧
      recValue (getRec s (recMargins u)) = some (smGet [] (restoreFinal b s).bu.marg u) := by
  have hpages := restoreStep_pagesDone s
  have hdone := restoreStep_settledDone s
  have hvalues : SameValues s (settled (packageDone s)) := hpages.values.trans hdone.values
  have hfuse : (settled (packageDone s)).fuse = s.fuse := (hdone.parts .fuse (by decide)).trans (hpages.parts .fuse (by decide))
  have hunits : trainingUnits (settled (packageDone s)) = trainingUnits s := by
    unfold trainingUnits
    rw [hfuse]
  obtain ⟨hcoef, hmarg⟩ := modeTaken_warm b ((whyCold_settledDone s).trans h) (hunits.symm ▸ hu)
  obtain ⟨_, hcoef', hmarg'⟩ := restoreEnded_keeps ((flagged_worked b s).trans hflag)
  rw [hvalues] at hcoef hmarg
  obtain ⟨htrained, hmargined⟩ := records_of_warm h hu
  obtain ⟨x, hx⟩ := Option.isSome_iff_exists.mp htrained
  obtain ⟨y, hy⟩ := Option.isSome_iff_exists.mp hmargined
  rw [hx] at hcoef
  rw [hy] at hmarg
  exact ⟨hx.trans (congrArg some ((congrArg (smGet [] · u) hcoef').trans hcoef).symm), hy.trans (congrArg some ((congrArg (smGet [] · u) hmarg').trans hmarg).symm)⟩

theorem suspect_restoreFinal : getF (restoreFinal b s) R.FLT_SUSPECT.SUSPECT = getF (worked b s) R.FLT_SUSPECT.SUSPECT :=
  (restoreStep_ended hflag b).regs.getF_eq (by decide)

/-- A SUSPECT package stops at the end of P3. -/
theorem restoreFinal_suspect (h : getF (restoreFinal b s) R.FLT_SUSPECT.SUSPECT = 1) :
    (restoreFinal b s).bu.next = 9 ∧ getF (restoreFinal b s) R.BU_PHASE.STOP = 3 ∧ getF (restoreFinal b s) R.BU_PHASE.REASON = 3 ∧
      topState (restoreFinal b s) = stFlagged := by
  rw [suspect_restoreFinal hflag b] at h
  have hstop := restoreEnded_suspect (flagF_of_eq_one h)
  exact ⟨congrArg Bringup.next hstop.bu, hstop.stop, hstop.reason, hstop.top⟩

/-- Any other package goes on to P4. -/
theorem restoreFinal_goesOn (h : getF (restoreFinal b s) R.FLT_SUSPECT.SUSPECT = 0) :
    (restoreFinal b s).bu.next = 4 ∧ getF (restoreFinal b s) R.BU_PHASE.PHASE = 4 := by
  rw [suspect_restoreFinal hflag b] at h
  have hnext := restoreEnded_goesOn (flagF_of_eq_zero h) ((flagged_worked b s).trans hflag)
  exact ⟨congrArg Bringup.next hnext.bu, hnext.shown⟩

end

/-- Settles O50: P3 in its stages, each with the fields and the parts that it leaves alone, so that what a stage restores
stands at the end. -/
theorem restoreBringsBackTheRecordedSettings : Obligations.RestoreBringsBackTheRecordedSettings := by
  intro s hclosed hnext hflag
  obtain ⟨b, hfinal⟩ := atticRestore_final hclosed hnext
  obtain ⟨hdone, hraised⟩ := restoreFinal_done hflag b
  obtain ⟨hwhy, hcold⟩ := restoreFinal_mode hflag b
  refine ⟨_, hfinal, hdone, hraised, restoreFinal_noneLost hflag b, ?_, ?_, sameValues_restoreFinal hflag b,
    fun l => restoreFinal_package hflag b, hwhy, hcold, restoreFinal_lossLogged hflag b, fun h u => restoreFinal_warm hflag b h,
    restoreFinal_suspect hflag b, restoreFinal_goesOn hflag b⟩
  · intro p hp f j l x hmem hf hl hx hok
    rw [getF_restoreFinal hflag b hp hmem hf, hl, Option.bind_some, hx, restoredVal, if_pos hok]
  · intro p hp f hmem hf hnone
    obtain ⟨j, hj, hget⟩ := List.getElem_of_mem hmem
    have hidx : (f, j) ∈ (keptFlds p).zipIdx := List.mem_zipIdx_iff_getElem?.mpr (List.getElem?_eq_some_iff.mpr ⟨hj, hget⟩)
    refine ⟨?_, restoreFinal_defaulted hflag b hp hidx hf hnone⟩
    rw [getF_restoreFinal hflag b hp hidx hf, hnone]
    rfl

end Sys2Proof.Machine
end
